-- ==== Sys2Proof/Word.lean ====
section
/-! DEFINITION. The word types of the model: bytes, 64-bit words, the 64 B line that CXL.mem and the DRAM move, and the
64-bit sector and byte masks. Everything a later repair may have to mend lies elsewhere. -/

namespace Sys2Proof

/-- One byte. -/
abbrev Byte := BitVec 8

/-- A register word: the widest register of the map is 64 bits (R584). -/
abbrev Word := BitVec 64

/-- One 64 B line: byte i is bits [8i + 7 : 8i] (R7, R365). -/
abbrev Line := BitVec 512

/-- 64 bits, one per sector of a slab (DIRTY_MASK, valid mask) or one per byte of a line (byte enables). -/
abbrev Mask := BitVec 64

/-- A little-endian byte layout: (size in bytes, value) in the order of the table that gives it (R7). -/
abbrev Fields := List (Nat × Nat)

end Sys2Proof
end

