-- ==== Sys2Proof/Machine/Events.lean ====
section
/-! DEFINITION. Every event of the manual (Ev), with its code and its severity (R505, R506): one constructor per row of the
event tables, its payload items named in its docstring. -/

namespace Sys2Proof.Machine

/-- The events, under the names of the event tables. -/
inductive Ev
  /-- R77: copy, serial, SEAL -/
  | SWAGE_LOADED
  /-- R77: copy, result code -/
  | SWAGE_COPY_INVALID
  /-- R77: RESULT_A, RESULT_B -/
  | SWAGE_NO_IMAGE
  /-- R77: PARTIAL_SEQ, section types -/
  | SWAGE_PARTIAL_APPLIED
  /-- R77: PARTIAL_SEQ, status -/
  | SWAGE_PARTIAL_REFUSED
  /-- R116: port, width, rate -/
  | FAB_LINK_UP
  /-- R116: port, LTSSM state at loss -/
  | FAB_LINK_DOWN
  /-- R116: port, old and new width -/
  | FAB_WIDTH_CHANGED
  /-- R116: port, stream, key slot -/
  | FAB_IDE_FAIL
  /-- R116: port, LD, DPA, read or write, cause per R81 -/
  | FAB_UNMAPPED_ACCESS
  /-- R116: opcode, path, reason (no authority, bad token, count mismatch) -/
  | FAB_AUTH_REFUSED
  /-- R116: port -/
  | FAB_PERST
  /-- R116: new count, cause per R95 -/
  | FAB_DSC_INCREMENTED
  /-- R116: cause event code -/
  | FAB_MEMORY_NOT_READY
  /-- R116: die, entry state: entered or left -/
  | FAB_BI_BROADCAST
  /-- R116: phase, port, duration in ns -/
  | FAB_GPF
  /-- R171: old mode, new mode, generation -/
  | CRUC_MODE_CHANGED
  /-- R171: number of POISONED slabs -/
  | CRUC_DRAIN_BLOCKED
  /-- R171: start or end, target mode -/
  | CRUC_GEN_SWEEP
  /-- R171: set, way, outcome (reloaded, rebuilt) -/
  | CRUC_TAG_PARITY
  /-- R171: set, lost ways, candidates, recovered, poisoned -/
  | CRUC_TAG_LINE_LOST
  /-- R171: slab index, sector -/
  | CRUC_DATA_UE_REFETCHED
  /-- R171: slab index, sector, heat -/
  | CRUC_DATA_UE_RECOVERED
  /-- R171: slab index, sectors lost, cause (fill, data, tag) -/
  | CRUC_SLAB_POISONED
  /-- R171: slab index, sector, slab now DIRTY -/
  | CRUC_POISON_CLEARED
  /-- R171: slab index, NVMe status, outcome (twin, poison, invalid) -/
  | CRUC_FILL_FAIL
  /-- R171: slab index, NVMe status -/
  | CRUC_DESTAGE_FAIL
  /-- R171: set, pinned ways, POISONED ways -/
  | CRUC_SET_BLOCKED
  /-- R171: set, cause (SHADOW ranges, backing hold, stranded, reheat-pending), requests waiting -/
  | CRUC_SET_STALL_HELD
  /-- R171: slab index, dirty sectors discarded, requester -/
  | CRUC_DISCARD
  /-- R171: slab index, set -/
  | CRUC_PIN_LIMIT
  /-- R171: entries in use, requests held -/
  | CRUC_LOCK_TABLE_FULL
  /-- R200: heat, edge offset from T_exp in ns -/
  | HEAT_SYNC_LOCKED
  /-- R200: heat -/
  | HEAT_SYNC_LOST
  /-- R200: heat, edge offset in ns -/
  | HEAT_SYNC_EDGE_IGNORED
  /-- R200: old and new LENGTH_US, path -/
  | HEAT_LENGTH_CHANGED
  /-- R200: heat, cause (reservation, directory) -/
  | HEAT_CLOSE_DEFERRED
  /-- R200: R, Temper status -/
  | HEAT_RESERVATION_FAIL
  /-- R200: old heat, new heat, cause (start-up, join) -/
  | HEAT_JUMP
  /-- R200: new heat -/
  | HEAT_LOW_WRAP
  /-- R200: entries in use, free pages -/
  | JRNL_COMPACT_URGENT
  /-- R200: free pages, writes held -/
  | JRNL_STALL
  /-- R200: region, split heat -/
  | JRNL_RETAIN_START
  /-- R200: region, records held -/
  | JRNL_RETAIN_OVERFLOW
  /-- R200: region, records released -/
  | JRNL_RETAIN_END
  /-- R200: page, heat, records lost -/
  | JRNL_PAGE_LOST
  /-- R223: enter or leave, C, D -/
  | CEIL_PRIORITY
  /-- R223: C, D, W, binding term -/
  | CEIL_OVER_ENTER
  /-- R223: duration in ms, writes written through -/
  | CEIL_OVER_EXIT
  /-- R223: old C, new C, binding term, cause -/
  | CEIL_DROP
  /-- R223: die, receive entries waiting, cause (OVER_CEILING, die share) -/
  | CEIL_RECEIVE_HELD
  /-- R223: sample MiB, manual or automatic -/
  | DRY_START
  /-- R223: e_meas in pJ, r_meas in MB/s, window in ms, applied -/
  | DRY_DONE
  /-- R223: reason (short window, low energy, high rate, string change), e_meas, r_meas -/
  | DRY_REJECTED
  /-- R223: refusal status (R217) -/
  | DRY_DEFERRED
  /-- R223: uptime since last completed dry quench, s -/
  | DRY_STALE
  /-- R223: cause (quench, string loss) -/
  | DRY_ABORTED
  /-- R269: cause, D, C, W, heat open at T0 -/
  | QNCH_TRIGGER
  /-- R269: generation, slot, duration in ms, dumped bytes, flags as in the commit record -/
  | QNCH_DONE
  /-- R269: cause -/
  | QNCH_TRIGGER_IGNORED
  /-- R269: die, channel, NAND die, block -/
  | QNCH_ERASE_ABORTED
  /-- R269: cause (NAND die failure, media), die, channel -/
  | QNCH_PACKAGE_MODE
  /-- R269: die, channel, NAND die, block, segment -/
  | QNCH_BLOCK_FAIL
  /-- R269: die, channel, NAND die, segments rewritten -/
  | QNCH_NAND_DIE_FAIL
  /-- R269: die, slabs found only by the tag walk -/
  | QNCH_TAG_WALK
  /-- R269: die, slab index, sector -/
  | QNCH_SECTOR_UE
  /-- R269: predecessor generation, retired segments per die -/
  | QNCH_CHAINED
  /-- R269: Temper status -/
  | QNCH_PTR_FAIL
  /-- R269: Temper status -/
  | QNCH_CLAIM_FAIL
  /-- R269: die, W_d, W(d) -/
  | QNCH_DIE_SHARE
  /-- R302: generation, slot, kind (R272), format, lazy or eager, found by scan -/
  | RHT_START
  /-- R302: ms from P0, dies INDEX_PARTIAL -/
  | RHT_SERVING
  /-- R302: generation, segments, ms from serving -/
  | RHT_DONE
  /-- R302: Ingot hash prefix, image hash prefix -/
  | RHT_SWAGE_MISMATCH
  /-- R302: die, segment, slabs named -/
  | RHT_SEG_AUTH_FAIL
  /-- R302: die, slab index -/
  | RHT_TWIN_RECOVERED
  /-- R302: die or region, segments lost, cause (partial, damaged, authentication, key) -/
  | RHT_UNNAMED_LOSS
  /-- R302: die, segments indexed -/
  | RHT_INDEX_PARTIAL
  /-- R302: die, segment, slab index -/
  | RHT_INDEX_MISMATCH
  /-- R302: key slot, key generation -/
  | RHT_KEY_UNAVAILABLE
  /-- R302: recorded generation, ignored generation -/
  | RHT_REDO
  /-- R302: region, old role, new role, EPOCH -/
  | RHT_ROLE_CHANGED
  /-- R302: region, local and twin EPOCH -/
  | RHT_ROLE_CONFLICT
  /-- R302: region, EPOCH -/
  | RHT_FORCED_SOLO
  /-- R302: region, incremental or full, slabs in set -/
  | RHT_RESYNC_START
  /-- R302: region, slabs sent, ms -/
  | RHT_RESYNC_DONE
  /-- R302: region, slabs left (RHT_RESYNC_LEFTn of the raising side at the abort) -/
  | RHT_RESYNC_ABORT
  /-- R302: region, Temper status -/
  | RHT_ROLE_RECORD_FAIL
  /-- R302: region, started or ended, cause of the end (confirm, join, role change) -/
  | RHT_BACKING_HELD
  /-- R339: die, link, width, rate, version -/
  | WELD_LINK_UP
  /-- R339: die, link, cause (heartbeat, electrical, protocol, disabled, key exhaustion) -/
  | WELD_LINK_LOST
  /-- R339: usable links, twin heat -/
  | WELD_PAIR_UP
  /-- R339: cause, µs since the last frame, twin heat -/
  | WELD_PAIR_LOST
  /-- R339: regions, µs from the moment of loss -/
  | WELD_PROMOTED
  /-- R339: die, link, cause (version, side, die, identity, map digest, heat length, regions) -/
  | WELD_JOIN_REFUSED
  /-- R339: die, link, ROLL_ID -/
  | WELD_KEY_ROLLED
  /-- R339: die, link, cause, counter -/
  | WELD_KEY_ROLL_FAIL
  /-- R339: die, link, enter or leave, pair STALL -/
  | WELD_KEY_STALL
  /-- R339: die, link, frames resent, cause (NAK, rebinding) -/
  | WELD_RESEND
  /-- R339: die, link, TYPE, cause -/
  | WELD_PROTOCOL_ERROR
  /-- R339: PHASE, twin heat, generation, FLAGS -/
  | WELD_QUENCH_NOTICE_RX
  /-- R339: slab index, cause (miss, timeout, version 1) -/
  | WELD_FETCH_FAIL
  /-- R364: namespace, die, root port, LBA size, queues -/
  | BACK_NS_ONLINE
  /-- R364: namespace, cause, attach step -/
  | BACK_NS_REFUSED
  /-- R364: namespace -/
  | BACK_NS_BLANK
  /-- R364: namespace, cause, stranded slabs -/
  | BACK_NS_FAILED
  /-- R364: namespace, LABEL_GEN, cause (adopt, sanitize) -/
  | BACK_LABEL_WRITTEN
  /-- R364: namespace, opcode, status -/
  | BACK_CMD_RETRY
  /-- R364: namespace, opcode, status, slab index -/
  | BACK_CMD_ERROR
  /-- R364: namespace, opcode, queue -/
  | BACK_CMD_TIMEOUT
  /-- R364: root port, outcome -/
  | BACK_CTRL_RESET
  /-- R364: namespace, slab index, error log entry -/
  | BACK_READ_ERROR
  /-- R364: namespace, slab index, error log entry -/
  | BACK_WRITE_ERROR
  /-- R364: namespace, Critical Warning byte, percentage used -/
  | BACK_SMART_WARNING
  /-- R364: namespace, stranded slabs -/
  | BACK_STRANDED
  /-- R364: namespace, slabs destaged during detach -/
  | BACK_NS_DETACHED
  /-- R395: speed, DPC, ranks, device density -/
  | CHAN_UP
  /-- R395: DIMM, field that differs -/
  | CHAN_POP_MISMATCH
  /-- R395: rank, count, device with the most corrections -/
  | CHAN_CE_RATE
  /-- R395: rank, bank, row, line, source, policy applied -/
  | CHAN_UE
  /-- R395: DIMM, commands repeated -/
  | CHAN_CA_RETRY
  /-- R395: cause (data, command, command), trace entries -/
  | CHAN_FROZEN
  /-- R395: cause (firmware, automatic, quench), ms frozen, requests held -/
  | CHAN_THAWED
  /-- R395: rank, bank, row, requester, cooldown µs -/
  | CHAN_RH_THROTTLE
  /-- R395: rank, T_DRAM, refreshes owed -/
  | CHAN_REF_CROSSING
  /-- R395: rank, doubled or normal, T_DRAM -/
  | CHAN_REF_RATE
  /-- R395: DIMM, sensor -/
  | CHAN_TEMP_SENSOR
  /-- R395: rank, T_DRAM -/
  | CHAN_OVERTEMP
  /-- R395: corrected lines, uncorrectable lines, hours -/
  | CHAN_SCRUB_PASS
  /-- R409: ranks trained, ms -/
  | TRN_INIT_DONE
  /-- R409: rank, step, worst lane, width -/
  | TRN_INIT_FAIL
  /-- R409: rank, cause, total pause µs -/
  | TRN_RETRAIN_DONE
  /-- R409: rank, step, worst lane, width -/
  | TRN_NO_SETTING
  /-- R409: rank, step -/
  | TRN_STEP_TIMEOUT
  /-- R409: set or cleared, rank -/
  | TRN_DEGRADED
  /-- R409: rank, step, cause (freeze, quench, firmware) -/
  | TRN_ABORTED
  /-- R437: NAND die, rated quads -/
  | QFL_NAND_UP
  /-- R437: NAND die, failing parameter -/
  | QFL_NAND_REFUSED
  /-- R437: NAND die, plane, block, cause (program, erase, ECC, quench), spares left -/
  | QFL_BLOCK_RETIRED
  /-- R437: NAND die, quad -/
  | QFL_QUAD_RETIRED
  /-- R437: NAND die, plane -/
  | QFL_SPARE_EXHAUSTED
  /-- R437: NAND die, cause -/
  | QFL_NAND_RETIRED
  /-- R437: NAND dies lost -/
  | QFL_CHANNEL_DOWN
  /-- R437: NAND die, quad, page, bits corrected -/
  | QFL_ECC_HIGH
  /-- R437: copy, SEQ, delta pages applied -/
  | QFL_TABLE_RECOVERED
  /-- R437: quads TAKEN, quads STALE -/
  | QFL_TABLE_REBUILT
  /-- R437: cause (blank, geometry), factory bad blocks -/
  | QFL_FORMAT
  /-- R437: NAND die, quad, P/E count -/
  | QFL_PE_LIMIT
  /-- R464: ms below threshold -/
  | BELL_AON_LOW
  /-- R464: string, serial prefix -/
  | BELL_STRING_PRESENT
  /-- R464: string -/
  | BELL_STRING_ABSENT
  /-- R464: string, old and new serial prefix -/
  | BELL_MODULE_CHANGED
  /-- R464: string, cause, T_hot, I -/
  | BELL_STRING_FAULT
  /-- R464: string, Q_raw before and after -/
  | BELL_FULL_ANCHOR
  /-- R464: string, Q_raw before, V, I -/
  | BELL_EMPTY_ANCHOR
  /-- R464: string, V + I × R_a, Q_raw -/
  | BELL_ANCHOR_CONFLICT
  /-- R464: string, Q_raw before -/
  | BELL_EARLY_EMPTY
  /-- R464: string, R_meas, limit -/
  | BELL_REST_RANGE
  /-- R464: string, rejected steps -/
  | BELL_REST_STALE
  /-- R464: string, serial prefix -/
  | BELL_AUTH_OK
  /-- R464: string, cause -/
  | BELL_AUTH_FAIL
  /-- R464: string, cause of scheduling, C' -/
  | BELL_LEARN_START
  /-- R464: string, charge removed in mAh, accepted or rejected -/
  | BELL_LEARN_DONE
  /-- R464: string, cause -/
  | BELL_LEARN_ABORT
  /-- R464: string, condition not met -/
  | BELL_LEARN_WAIT
  /-- R464: record kind, Temper status -/
  | BELL_JOURNAL_FAIL
  /-- R488: logical sector, corrected words, queue -/
  | TMP_WARN
  /-- R488: logical sector, old and new physical sector -/
  | TMP_SCRUBBED
  /-- R488: logical sector, cause (uncorrectable, no spare) -/
  | TMP_SCRUB_FAILED
  /-- R488: address, queue -/
  | TMP_UNCORRECTABLE
  /-- R488: logical and physical sector, outcome (remapped, failed) -/
  | TMP_PROGRAM_FAIL
  /-- R488: logical and physical sector, outcome (remapped, failed) -/
  | TMP_ERASE_FAIL
  /-- R488: physical sector, spares left -/
  | TMP_SECTOR_RETIRED
  /-- R488: spares left -/
  | TMP_SPARE_LOW
  /-- R488: retired sectors -/
  | TMP_SPARE_EXHAUSTED
  /-- R488: queue, opcode, address -/
  | TMP_ACCESS_DENIED
  /-- R488: corrected words, uncorrectable words, days -/
  | TMP_PATROL_PASS
  /-- R488: valid records, mappings, retired sectors -/
  | TMP_REMAP_RECOVERED
  /-- R504: class, requester, FREE count, reserve -/
  | POOL_EMPTY
  /-- R504: requester, source die, handle, failing check (R492) -/
  | POOL_BAD_HANDLE
  /-- R504: requester, handle, owner of record -/
  | POOL_NOT_OWNER
  /-- R504: requester, handle, state -/
  | POOL_DOUBLE_FREE
  /-- R504: requester, entered or released, violation count -/
  | POOL_QUARANTINE
  /-- R504: class, quench-reader holding, FREE count -/
  | POOL_FLOOR_REACHED
  /-- R524: leaf, records discarded, dropped total, authority, auth count -/
  | EVT_LOG_CLEARED
  /-- R524: R515 -/
  | EVT_SUPPRESSED
  /-- R524: new value, replaced value -/
  | EVT_TIME_MARKER
  /-- R524: leaf, SEQ of first drop -/
  | EVT_LEAF_FULL
  /-- R524: events not numbered, Temper status -/
  | EVT_SEQ_RESERVE_FAIL
  /-- R524: leaf, undefined slots, clear completed -/
  | EVT_LEAF_RECOVERED
  /-- R524: log, records cleared, new PV_BASE -/
  | EVT_PV_CLEARED
  /-- R552: class, cause bits, D at trip -/
  | SEC_ALARM
  /-- R552: package slots, link slots, ns from trip -/
  | SEC_ZEROIZED
  /-- R552: new BLOB_EPOCH, by fuse or by erase -/
  | SEC_BLOBS_DESTROYED
  /-- R552: ROLL, new current slot and generation, cause (claim, sanitize, provision) -/
  | SEC_INGOT_ROLLED
  /-- R552: slot, Temper status -/
  | SEC_RESERVE_FAIL
  /-- R552: slot, cause (absent, unwrap) -/
  | SEC_BLOB_LOAD_FAIL
  /-- R552: die whose identity differs -/
  | SEC_BINDING_FAIL
  /-- R552: opened or ended, transport, role, cause -/
  | SEC_SPDM_SESSION
  /-- R552: port, stream, key set, KEY_PROG, K_SET_GO or K_SET_STOP -/
  | SEC_IDE_KEY
  /-- R552: slot, jobs aborted -/
  | SEC_KEY_ERASED_ABORT
  /-- R552: group, stream -/
  | SEC_CONTEXT_AUTH_FAIL
  /-- R552: test failed -/
  | SEC_DRBG_FAIL
  /-- R552: none -/
  | SEC_EPOCH_EXHAUSTED
  /-- R566: straps -/
  | RST_COLD_START
  /-- R566: LAST_CAUSE, D at assertion -/
  | RST_RESET
  /-- R566: cause (quench, NVMe shutdown, Temper operation), ms -/
  | RST_RESET_DEFERRED
  /-- R566: WINDOW_MS, authority -/
  | RST_NQ_ARMED
  /-- R566: none -/
  | RST_NQ_EXPIRED
  /-- R566: slabs discarded, bytes discarded -/
  | RST_NQ_DISCARD
  /-- R566: die, trunk or die tree, wire -/
  | RST_FENCE_WIRE_FAIL
  /-- R566: failed slot, cause (signature, length, read) -/
  | RST_FW_FALLBACK
  /-- R566: cause (strap, both slots), slot written -/
  | RST_ROM_RECOVERY
  /-- R566: level (R96), ms from start -/
  | RST_READY
  /-- R566: port, LD, command discarded -/
  | RST_FLR
  /-- R580: slice, cause -/
  | SVC_SLICE_SPARED
  /-- R580: quad, role, cause -/
  | SVC_QUAD_SPARED
  /-- R580: failed core, cause -/
  | SVC_SMITH_SWITCH
  /-- R580: rows repaired, fewest spares left -/
  | SVC_SRAM_REPAIR
  /-- R580: global channel, rank, bank, row -/
  | SVC_PPR_PENDING
  /-- R580: global channel, rank, bank, row -/
  | SVC_PPR_DONE
  /-- R580: global channel, rank, bank -/
  | SVC_PPR_NO_RESOURCE
  /-- R580: global channel, rank, cause -/
  | SVC_RANK_COPY_START
  /-- R580: global channel, old rank, ms -/
  | SVC_RANK_SPARED
  /-- R580: kind, die -/
  | SVC_SPARE_EXHAUSTED
  /-- R580: die, link, µs paused -/
  | SVC_D2D_RETRAIN
  /-- R580: die, cause (link, slice, self-test) -/
  | SVC_DIE_OUT
  /-- R580: die, island, V_need -/
  | SVC_VDD_LIMIT
  /-- R580: Life Used, LT_PCT, LV_PCT -/
  | SVC_LIFE_STEP
  deriving DecidableEq, Repr

/-- The event code (R505): its high nibble names the subsystem. -/
def Ev.code : Ev → Nat
  | .SWAGE_LOADED => 0xA201
  | .SWAGE_COPY_INVALID => 0xA202
  | .SWAGE_NO_IMAGE => 0xA203
  | .SWAGE_PARTIAL_APPLIED => 0xA204
  | .SWAGE_PARTIAL_REFUSED => 0xA205
  | .FAB_LINK_UP => 0xC001
  | .FAB_LINK_DOWN => 0xC002
  | .FAB_WIDTH_CHANGED => 0xC003
  | .FAB_IDE_FAIL => 0xC004
  | .FAB_UNMAPPED_ACCESS => 0xC005
  | .FAB_AUTH_REFUSED => 0xC006
  | .FAB_PERST => 0xC007
  | .FAB_DSC_INCREMENTED => 0xC008
  | .FAB_MEMORY_NOT_READY => 0xC009
  | .FAB_BI_BROADCAST => 0xC00A
  | .FAB_GPF => 0xC00B
  | .CRUC_MODE_CHANGED => 0x1001
  | .CRUC_DRAIN_BLOCKED => 0x1002
  | .CRUC_GEN_SWEEP => 0x1003
  | .CRUC_TAG_PARITY => 0x1010
  | .CRUC_TAG_LINE_LOST => 0x1011
  | .CRUC_DATA_UE_REFETCHED => 0x1020
  | .CRUC_DATA_UE_RECOVERED => 0x1021
  | .CRUC_SLAB_POISONED => 0x1022
  | .CRUC_POISON_CLEARED => 0x1023
  | .CRUC_FILL_FAIL => 0x1030
  | .CRUC_DESTAGE_FAIL => 0x1031
  | .CRUC_SET_BLOCKED => 0x1040
  | .CRUC_SET_STALL_HELD => 0x1041
  | .CRUC_DISCARD => 0x1050
  | .CRUC_PIN_LIMIT => 0x1051
  | .CRUC_LOCK_TABLE_FULL => 0x1060
  | .HEAT_SYNC_LOCKED => 0x2001
  | .HEAT_SYNC_LOST => 0x2002
  | .HEAT_SYNC_EDGE_IGNORED => 0x2003
  | .HEAT_LENGTH_CHANGED => 0x2004
  | .HEAT_CLOSE_DEFERRED => 0x2005
  | .HEAT_RESERVATION_FAIL => 0x2006
  | .HEAT_JUMP => 0x2007
  | .HEAT_LOW_WRAP => 0x2008
  | .JRNL_COMPACT_URGENT => 0x2010
  | .JRNL_STALL => 0x2011
  | .JRNL_RETAIN_START => 0x2012
  | .JRNL_RETAIN_OVERFLOW => 0x2013
  | .JRNL_RETAIN_END => 0x2014
  | .JRNL_PAGE_LOST => 0x2015
  | .CEIL_PRIORITY => 0x6801
  | .CEIL_OVER_ENTER => 0x6802
  | .CEIL_OVER_EXIT => 0x6803
  | .CEIL_DROP => 0x6804
  | .CEIL_RECEIVE_HELD => 0x6805
  | .DRY_START => 0x6810
  | .DRY_DONE => 0x6811
  | .DRY_REJECTED => 0x6812
  | .DRY_DEFERRED => 0x6813
  | .DRY_STALE => 0x6814
  | .DRY_ABORTED => 0x6815
  | .QNCH_TRIGGER => 0x3001
  | .QNCH_DONE => 0x3002
  | .QNCH_TRIGGER_IGNORED => 0x3003
  | .QNCH_ERASE_ABORTED => 0x3004
  | .QNCH_PACKAGE_MODE => 0x3005
  | .QNCH_BLOCK_FAIL => 0x3006
  | .QNCH_NAND_DIE_FAIL => 0x3007
  | .QNCH_TAG_WALK => 0x3008
  | .QNCH_SECTOR_UE => 0x3009
  | .QNCH_CHAINED => 0x300A
  | .QNCH_PTR_FAIL => 0x300B
  | .QNCH_CLAIM_FAIL => 0x300C
  | .QNCH_DIE_SHARE => 0x300D
  | .RHT_START => 0x3101
  | .RHT_SERVING => 0x3102
  | .RHT_DONE => 0x3103
  | .RHT_SWAGE_MISMATCH => 0x3104
  | .RHT_SEG_AUTH_FAIL => 0x3105
  | .RHT_TWIN_RECOVERED => 0x3106
  | .RHT_UNNAMED_LOSS => 0x3107
  | .RHT_INDEX_PARTIAL => 0x3108
  | .RHT_INDEX_MISMATCH => 0x3109
  | .RHT_KEY_UNAVAILABLE => 0x310A
  | .RHT_REDO => 0x310B
  | .RHT_ROLE_CHANGED => 0x3110
  | .RHT_ROLE_CONFLICT => 0x3111
  | .RHT_FORCED_SOLO => 0x3112
  | .RHT_RESYNC_START => 0x3113
  | .RHT_RESYNC_DONE => 0x3114
  | .RHT_RESYNC_ABORT => 0x3115
  | .RHT_ROLE_RECORD_FAIL => 0x3116
  | .RHT_BACKING_HELD => 0x3117
  | .WELD_LINK_UP => 0x2101
  | .WELD_LINK_LOST => 0x2102
  | .WELD_PAIR_UP => 0x2103
  | .WELD_PAIR_LOST => 0x2104
  | .WELD_PROMOTED => 0x2105
  | .WELD_JOIN_REFUSED => 0x2106
  | .WELD_KEY_ROLLED => 0x2107
  | .WELD_KEY_ROLL_FAIL => 0x2108
  | .WELD_KEY_STALL => 0x2109
  | .WELD_RESEND => 0x210A
  | .WELD_PROTOCOL_ERROR => 0x210B
  | .WELD_QUENCH_NOTICE_RX => 0x210C
  | .WELD_FETCH_FAIL => 0x210D
  | .BACK_NS_ONLINE => 0xC101
  | .BACK_NS_REFUSED => 0xC102
  | .BACK_NS_BLANK => 0xC103
  | .BACK_NS_FAILED => 0xC104
  | .BACK_LABEL_WRITTEN => 0xC105
  | .BACK_CMD_RETRY => 0xC106
  | .BACK_CMD_ERROR => 0xC107
  | .BACK_CMD_TIMEOUT => 0xC108
  | .BACK_CTRL_RESET => 0xC109
  | .BACK_READ_ERROR => 0xC10A
  | .BACK_WRITE_ERROR => 0xC10B
  | .BACK_SMART_WARNING => 0xC10C
  | .BACK_STRANDED => 0xC10D
  | .BACK_NS_DETACHED => 0xC10E
  | .CHAN_UP => 0x4001
  | .CHAN_POP_MISMATCH => 0x4002
  | .CHAN_CE_RATE => 0x4003
  | .CHAN_UE => 0x4004
  | .CHAN_CA_RETRY => 0x4005
  | .CHAN_FROZEN => 0x4006
  | .CHAN_THAWED => 0x4007
  | .CHAN_RH_THROTTLE => 0x4008
  | .CHAN_REF_CROSSING => 0x4009
  | .CHAN_REF_RATE => 0x400A
  | .CHAN_TEMP_SENSOR => 0x400B
  | .CHAN_OVERTEMP => 0x400C
  | .CHAN_SCRUB_PASS => 0x400D
  | .TRN_INIT_DONE => 0x4101
  | .TRN_INIT_FAIL => 0x4102
  | .TRN_RETRAIN_DONE => 0x4103
  | .TRN_NO_SETTING => 0x4104
  | .TRN_STEP_TIMEOUT => 0x4105
  | .TRN_DEGRADED => 0x4106
  | .TRN_ABORTED => 0x4107
  | .QFL_NAND_UP => 0x5001
  | .QFL_NAND_REFUSED => 0x5002
  | .QFL_BLOCK_RETIRED => 0x5003
  | .QFL_QUAD_RETIRED => 0x5004
  | .QFL_SPARE_EXHAUSTED => 0x5005
  | .QFL_NAND_RETIRED => 0x5006
  | .QFL_CHANNEL_DOWN => 0x5007
  | .QFL_ECC_HIGH => 0x5008
  | .QFL_TABLE_RECOVERED => 0x5009
  | .QFL_TABLE_REBUILT => 0x500A
  | .QFL_FORMAT => 0x500B
  | .QFL_PE_LIMIT => 0x500C
  | .BELL_AON_LOW => 0x6001
  | .BELL_STRING_PRESENT => 0x6101
  | .BELL_STRING_ABSENT => 0x6102
  | .BELL_MODULE_CHANGED => 0x6103
  | .BELL_STRING_FAULT => 0x6104
  | .BELL_FULL_ANCHOR => 0x6105
  | .BELL_EMPTY_ANCHOR => 0x6106
  | .BELL_ANCHOR_CONFLICT => 0x6107
  | .BELL_EARLY_EMPTY => 0x6108
  | .BELL_REST_RANGE => 0x6109
  | .BELL_REST_STALE => 0x610A
  | .BELL_AUTH_OK => 0x6201
  | .BELL_AUTH_FAIL => 0x6202
  | .BELL_LEARN_START => 0x6301
  | .BELL_LEARN_DONE => 0x6302
  | .BELL_LEARN_ABORT => 0x6303
  | .BELL_LEARN_WAIT => 0x6304
  | .BELL_JOURNAL_FAIL => 0x6401
  | .TMP_WARN => 0x7001
  | .TMP_SCRUBBED => 0x7002
  | .TMP_SCRUB_FAILED => 0x7003
  | .TMP_UNCORRECTABLE => 0x7004
  | .TMP_PROGRAM_FAIL => 0x7005
  | .TMP_ERASE_FAIL => 0x7006
  | .TMP_SECTOR_RETIRED => 0x7007
  | .TMP_SPARE_LOW => 0x7008
  | .TMP_SPARE_EXHAUSTED => 0x7009
  | .TMP_ACCESS_DENIED => 0x700A
  | .TMP_PATROL_PASS => 0x700B
  | .TMP_REMAP_RECOVERED => 0x700C
  | .POOL_EMPTY => 0x8001
  | .POOL_BAD_HANDLE => 0x8002
  | .POOL_NOT_OWNER => 0x8003
  | .POOL_DOUBLE_FREE => 0x8004
  | .POOL_QUARANTINE => 0x8005
  | .POOL_FLOOR_REACHED => 0x8006
  | .EVT_LOG_CLEARED => 0xC201
  | .EVT_SUPPRESSED => 0xC202
  | .EVT_TIME_MARKER => 0xC203
  | .EVT_LEAF_FULL => 0xC204
  | .EVT_SEQ_RESERVE_FAIL => 0xC205
  | .EVT_LEAF_RECOVERED => 0xC206
  | .EVT_PV_CLEARED => 0xC207
  | .SEC_ALARM => 0x9001
  | .SEC_ZEROIZED => 0x9002
  | .SEC_BLOBS_DESTROYED => 0x9003
  | .SEC_INGOT_ROLLED => 0x9004
  | .SEC_RESERVE_FAIL => 0x9005
  | .SEC_BLOB_LOAD_FAIL => 0x9006
  | .SEC_BINDING_FAIL => 0x9007
  | .SEC_SPDM_SESSION => 0x9008
  | .SEC_IDE_KEY => 0x9009
  | .SEC_KEY_ERASED_ABORT => 0x900A
  | .SEC_CONTEXT_AUTH_FAIL => 0x900B
  | .SEC_DRBG_FAIL => 0x900C
  | .SEC_EPOCH_EXHAUSTED => 0x900D
  | .RST_COLD_START => 0xA001
  | .RST_RESET => 0xA002
  | .RST_RESET_DEFERRED => 0xA003
  | .RST_NQ_ARMED => 0xA004
  | .RST_NQ_EXPIRED => 0xA005
  | .RST_NQ_DISCARD => 0xA006
  | .RST_FENCE_WIRE_FAIL => 0xA007
  | .RST_FW_FALLBACK => 0xA008
  | .RST_ROM_RECOVERY => 0xA009
  | .RST_READY => 0xA00A
  | .RST_FLR => 0xA00B
  | .SVC_SLICE_SPARED => 0xB001
  | .SVC_QUAD_SPARED => 0xB002
  | .SVC_SMITH_SWITCH => 0xB003
  | .SVC_SRAM_REPAIR => 0xB004
  | .SVC_PPR_PENDING => 0xB005
  | .SVC_PPR_DONE => 0xB006
  | .SVC_PPR_NO_RESOURCE => 0xB007
  | .SVC_RANK_COPY_START => 0xB008
  | .SVC_RANK_SPARED => 0xB009
  | .SVC_SPARE_EXHAUSTED => 0xB00A
  | .SVC_D2D_RETRAIN => 0xB00B
  | .SVC_DIE_OUT => 0xB00C
  | .SVC_VDD_LIMIT => 0xB00D
  | .SVC_LIFE_STEP => 0xB00E

/-- The severity the event's table gives (R506): 0 info, 1 warning, 2 error, 3 critical. -/
def Ev.severity : Ev → Nat
  | .SWAGE_LOADED => 0
  | .SWAGE_COPY_INVALID => 1
  | .SWAGE_NO_IMAGE => 3
  | .SWAGE_PARTIAL_APPLIED => 0
  | .SWAGE_PARTIAL_REFUSED => 1
  | .FAB_LINK_UP => 0
  | .FAB_LINK_DOWN => 1
  | .FAB_WIDTH_CHANGED => 1
  | .FAB_IDE_FAIL => 2
  | .FAB_UNMAPPED_ACCESS => 1
  | .FAB_AUTH_REFUSED => 1
  | .FAB_PERST => 0
  | .FAB_DSC_INCREMENTED => 3
  | .FAB_MEMORY_NOT_READY => 3
  | .FAB_BI_BROADCAST => 0
  | .FAB_GPF => 0
  | .CRUC_MODE_CHANGED => 0
  | .CRUC_DRAIN_BLOCKED => 1
  | .CRUC_GEN_SWEEP => 0
  | .CRUC_TAG_PARITY => 1
  | .CRUC_TAG_LINE_LOST => 2
  | .CRUC_DATA_UE_REFETCHED => 1
  | .CRUC_DATA_UE_RECOVERED => 1
  | .CRUC_SLAB_POISONED => 2
  | .CRUC_POISON_CLEARED => 0
  | .CRUC_FILL_FAIL => 2
  | .CRUC_DESTAGE_FAIL => 2
  | .CRUC_SET_BLOCKED => 3
  | .CRUC_SET_STALL_HELD => 1
  | .CRUC_DISCARD => 0
  | .CRUC_PIN_LIMIT => 1
  | .CRUC_LOCK_TABLE_FULL => 0
  | .HEAT_SYNC_LOCKED => 0
  | .HEAT_SYNC_LOST => 1
  | .HEAT_SYNC_EDGE_IGNORED => 0
  | .HEAT_LENGTH_CHANGED => 0
  | .HEAT_CLOSE_DEFERRED => 1
  | .HEAT_RESERVATION_FAIL => 2
  | .HEAT_JUMP => 0
  | .HEAT_LOW_WRAP => 0
  | .JRNL_COMPACT_URGENT => 1
  | .JRNL_STALL => 2
  | .JRNL_RETAIN_START => 0
  | .JRNL_RETAIN_OVERFLOW => 2
  | .JRNL_RETAIN_END => 0
  | .JRNL_PAGE_LOST => 2
  | .CEIL_PRIORITY => 0
  | .CEIL_OVER_ENTER => 1
  | .CEIL_OVER_EXIT => 0
  | .CEIL_DROP => 1
  | .CEIL_RECEIVE_HELD => 1
  | .DRY_START => 0
  | .DRY_DONE => 0
  | .DRY_REJECTED => 1
  | .DRY_DEFERRED => 0
  | .DRY_STALE => 1
  | .DRY_ABORTED => 0
  | .QNCH_TRIGGER => 3
  | .QNCH_DONE => 0
  | .QNCH_TRIGGER_IGNORED => 0
  | .QNCH_ERASE_ABORTED => 0
  | .QNCH_PACKAGE_MODE => 1
  | .QNCH_BLOCK_FAIL => 1
  | .QNCH_NAND_DIE_FAIL => 2
  | .QNCH_TAG_WALK => 1
  | .QNCH_SECTOR_UE => 2
  | .QNCH_CHAINED => 0
  | .QNCH_PTR_FAIL => 1
  | .QNCH_CLAIM_FAIL => 3
  | .QNCH_DIE_SHARE => 1
  | .RHT_START => 0
  | .RHT_SERVING => 0
  | .RHT_DONE => 0
  | .RHT_SWAGE_MISMATCH => 3
  | .RHT_SEG_AUTH_FAIL => 2
  | .RHT_TWIN_RECOVERED => 1
  | .RHT_UNNAMED_LOSS => 3
  | .RHT_INDEX_PARTIAL => 1
  | .RHT_INDEX_MISMATCH => 1
  | .RHT_KEY_UNAVAILABLE => 3
  | .RHT_REDO => 1
  | .RHT_ROLE_CHANGED => 0
  | .RHT_ROLE_CONFLICT => 3
  | .RHT_FORCED_SOLO => 1
  | .RHT_RESYNC_START => 0
  | .RHT_RESYNC_DONE => 0
  | .RHT_RESYNC_ABORT => 1
  | .RHT_ROLE_RECORD_FAIL => 2
  | .RHT_BACKING_HELD => 1
  | .WELD_LINK_UP => 0
  | .WELD_LINK_LOST => 1
  | .WELD_PAIR_UP => 0
  | .WELD_PAIR_LOST => 3
  | .WELD_PROMOTED => 1
  | .WELD_JOIN_REFUSED => 2
  | .WELD_KEY_ROLLED => 0
  | .WELD_KEY_ROLL_FAIL => 1
  | .WELD_KEY_STALL => 2
  | .WELD_RESEND => 0
  | .WELD_PROTOCOL_ERROR => 2
  | .WELD_QUENCH_NOTICE_RX => 1
  | .WELD_FETCH_FAIL => 1
  | .BACK_NS_ONLINE => 0
  | .BACK_NS_REFUSED => 2
  | .BACK_NS_BLANK => 1
  | .BACK_NS_FAILED => 3
  | .BACK_LABEL_WRITTEN => 0
  | .BACK_CMD_RETRY => 0
  | .BACK_CMD_ERROR => 2
  | .BACK_CMD_TIMEOUT => 1
  | .BACK_CTRL_RESET => 1
  | .BACK_READ_ERROR => 2
  | .BACK_WRITE_ERROR => 2
  | .BACK_SMART_WARNING => 1
  | .BACK_STRANDED => 1
  | .BACK_NS_DETACHED => 0
  | .CHAN_UP => 0
  | .CHAN_POP_MISMATCH => 3
  | .CHAN_CE_RATE => 1
  | .CHAN_UE => 2
  | .CHAN_CA_RETRY => 1
  | .CHAN_FROZEN => 3
  | .CHAN_THAWED => 0
  | .CHAN_RH_THROTTLE => 1
  | .CHAN_REF_CROSSING => 1
  | .CHAN_REF_RATE => 0
  | .CHAN_TEMP_SENSOR => 2
  | .CHAN_OVERTEMP => 3
  | .CHAN_SCRUB_PASS => 0
  | .TRN_INIT_DONE => 0
  | .TRN_INIT_FAIL => 3
  | .TRN_RETRAIN_DONE => 0
  | .TRN_NO_SETTING => 2
  | .TRN_STEP_TIMEOUT => 1
  | .TRN_DEGRADED => 1
  | .TRN_ABORTED => 0
  | .QFL_NAND_UP => 0
  | .QFL_NAND_REFUSED => 2
  | .QFL_BLOCK_RETIRED => 1
  | .QFL_QUAD_RETIRED => 1
  | .QFL_SPARE_EXHAUSTED => 3
  | .QFL_NAND_RETIRED => 3
  | .QFL_CHANNEL_DOWN => 3
  | .QFL_ECC_HIGH => 1
  | .QFL_TABLE_RECOVERED => 0
  | .QFL_TABLE_REBUILT => 2
  | .QFL_FORMAT => 1
  | .QFL_PE_LIMIT => 1
  | .BELL_AON_LOW => 1
  | .BELL_STRING_PRESENT => 0
  | .BELL_STRING_ABSENT => 1
  | .BELL_MODULE_CHANGED => 1
  | .BELL_STRING_FAULT => 1
  | .BELL_FULL_ANCHOR => 0
  | .BELL_EMPTY_ANCHOR => 0
  | .BELL_ANCHOR_CONFLICT => 1
  | .BELL_EARLY_EMPTY => 1
  | .BELL_REST_RANGE => 1
  | .BELL_REST_STALE => 1
  | .BELL_AUTH_OK => 0
  | .BELL_AUTH_FAIL => 2
  | .BELL_LEARN_START => 0
  | .BELL_LEARN_DONE => 0
  | .BELL_LEARN_ABORT => 1
  | .BELL_LEARN_WAIT => 0
  | .BELL_JOURNAL_FAIL => 2
  | .TMP_WARN => 1
  | .TMP_SCRUBBED => 0
  | .TMP_SCRUB_FAILED => 2
  | .TMP_UNCORRECTABLE => 2
  | .TMP_PROGRAM_FAIL => 1
  | .TMP_ERASE_FAIL => 1
  | .TMP_SECTOR_RETIRED => 1
  | .TMP_SPARE_LOW => 1
  | .TMP_SPARE_EXHAUSTED => 3
  | .TMP_ACCESS_DENIED => 1
  | .TMP_PATROL_PASS => 0
  | .TMP_REMAP_RECOVERED => 0
  | .POOL_EMPTY => 1
  | .POOL_BAD_HANDLE => 1
  | .POOL_NOT_OWNER => 1
  | .POOL_DOUBLE_FREE => 1
  | .POOL_QUARANTINE => 2
  | .POOL_FLOOR_REACHED => 1
  | .EVT_LOG_CLEARED => 0
  | .EVT_SUPPRESSED => 0
  | .EVT_TIME_MARKER => 0
  | .EVT_LEAF_FULL => 1
  | .EVT_SEQ_RESERVE_FAIL => 2
  | .EVT_LEAF_RECOVERED => 1
  | .EVT_PV_CLEARED => 0
  | .SEC_ALARM => 3
  | .SEC_ZEROIZED => 3
  | .SEC_BLOBS_DESTROYED => 3
  | .SEC_INGOT_ROLLED => 0
  | .SEC_RESERVE_FAIL => 1
  | .SEC_BLOB_LOAD_FAIL => 2
  | .SEC_BINDING_FAIL => 3
  | .SEC_SPDM_SESSION => 0
  | .SEC_IDE_KEY => 0
  | .SEC_KEY_ERASED_ABORT => 1
  | .SEC_CONTEXT_AUTH_FAIL => 2
  | .SEC_DRBG_FAIL => 2
  | .SEC_EPOCH_EXHAUSTED => 1
  | .RST_COLD_START => 0
  | .RST_RESET => 0
  | .RST_RESET_DEFERRED => 0
  | .RST_NQ_ARMED => 1
  | .RST_NQ_EXPIRED => 0
  | .RST_NQ_DISCARD => 3
  | .RST_FENCE_WIRE_FAIL => 3
  | .RST_FW_FALLBACK => 2
  | .RST_ROM_RECOVERY => 3
  | .RST_READY => 0
  | .RST_FLR => 0
  | .SVC_SLICE_SPARED => 1
  | .SVC_QUAD_SPARED => 1
  | .SVC_SMITH_SWITCH => 1
  | .SVC_SRAM_REPAIR => 0
  | .SVC_PPR_PENDING => 1
  | .SVC_PPR_DONE => 0
  | .SVC_PPR_NO_RESOURCE => 2
  | .SVC_RANK_COPY_START => 0
  | .SVC_RANK_SPARED => 1
  | .SVC_SPARE_EXHAUSTED => 3
  | .SVC_D2D_RETRAIN => 1
  | .SVC_DIE_OUT => 3
  | .SVC_VDD_LIMIT => 3
  | .SVC_LIFE_STEP => 0

end Sys2Proof.Machine
end

