-- ==== Sys2Proof/Syntax.lean ====
section
/-! DEFINITION. The commands (Instr) and the types of their operands. A command's operands are what its sender gives it
(an address, a value, a length, an authority) and, for an event, what the part's surroundings show at it (a measured value,
the outcome of a medium's or a link's work, the outcome of a signature check). -/

namespace Sys2Proof

/-- Where a mailbox command comes in (R100, R105): an LD's or port's mailbox, or the sideband. `ld` is none at an SLD or GFAM
port, and 0xFFFF at the FM-owned LD of an MLD port. -/
inductive Path
  | port (die port : Nat) (ld : Option Nat)
  | sideband
  deriving DecidableEq, Repr

/-- An authorization token (R104). ARGS_HASH and SIGNATURE are given as the outcome of their check. -/
structure Token where
  opcode : Nat
  authCount : Nat
  packageId : Nat
  argsHashOk : Bool
  signatureOk : Bool
  deriving DecidableEq, Repr

/-- The authority that a mailbox command shows (R103): nothing, an SPDM secured session by its number, or a token. -/
inductive Auth
  | none
  | session (id : Nat)
  | token (t : Token)
  deriving DecidableEq, Repr

/-- What every mailbox command carries: its path, the size of its input in bytes without the token, and its authority. -/
structure Mb where
  path : Path
  size : Nat
  auth : Auth
  deriving DecidableEq, Repr


/-- What a slice's tag lookup meets (R120, R155 to R157): the set in the tag cache, or not; a bit that SECDED or the Anvil code
corrects; a tag error in the tag cache whose DRAM copy is good; or tags lost in DRAM, by their ways,
after a tag error in the tag cache or without one. -/
inductive TagLook
  | hit
  | miss
  | corrected
  | cacheError (way : Nat)
  | lost (ways : List Nat) (cacheWay : Option Nat)
  deriving DecidableEq, Repr

/-- An entry of MIRROR_WRITE (R315): slab, sector, clean entry or line entry, and its DATA (the CLEANED mask of a clean entry). -/
structure MirrorEntry where
  slab : Nat
  sector : Nat
  clean : Bool
  data : Line
  deriving DecidableEq, Repr

/-- A region entry of JOIN (R320), and what R291 asks of the twin, for which the manual names no message: whether it runs the region
as SOLO, and whether its retained journal shows writes accepted since its split heat (assumption 13). -/
structure JoinRole where
  region : Nat
  running : Bool
  wrote : Bool
  solo : Bool
  owner : Nat
  incomplete : Bool
  retaining : Bool
  epoch : Nat
  splitHeat : Nat
  ackedHeat : Nat
  twinId : Nat
  deriving DecidableEq, Repr

/-- A run of MIRROR_ACK (R316): its first write ID, its length, the source die of its IDs, and NOT_HELD. -/
structure AckRun where
  first : Nat
  count : Nat
  die : Nat
  notHeld : Bool
  deriving DecidableEq, Repr

/-- What every Weld frame shows at its arrival (R305, R307, R308): the link that it arrives on, its SEQ (the first frame's, where the
message takes more), its ACK, whether it authenticates, and, where its form breaks R307, the place of the breach in that rule's
list (0 an unknown TYPE, 1 a nonzero reserved field, 3 a malformed payload). -/
structure Head where
  die : Nat
  link : Nat
  seq : Nat
  ack : Nat
  auth : Bool
  breach : Option Nat
  deriving DecidableEq, Repr

/-- A namespace's label as it is read (R344): its fields, whether its reserved bytes are 0x00, and whether DIGEST is correct. -/
structure LabelRead where
  magic : Nat
  format : Nat
  nsIndex : Nat
  digest : Nat
  keyCheck : Nat
  nsSlabs : Nat
  stripe : Nat
  gen : Nat
  reservedOk : Bool
  digestOk : Bool
  deriving DecidableEq, Repr

/-- What an attach command gives (R342): Identify Controller (VER as major × 0x10000 + minor × 0x100, ONCS bit 3, a volatile write
cache); Identify Namespace (NSID active, LBA data size, metadata size, DPS, NSZE, the power-fail atomic unit in bytes, NABSPF in
bytes, DLFEAT bits 2:0); whether the write cache reads disabled; queues granted; power state 0 set; the SMART Critical Warning
byte and percentage used; the I/O queue pairs created, with CAP.MQES; a label, none for a blank one; or a command that fails. -/
inductive AdminResult
  | identifyController (ver : Nat) (writeZeroes writeCache : Bool)
  | identifyNamespace (active : Bool) (lba md dps nsze atomic nabspf dlfeat : Nat)
  | cacheDisabled (disabled : Bool)
  | queues (sq cq : Nat)
  | power (ok : Bool)
  | smart (warning used : Nat)
  | ioQueues (pairs mqes : Nat)
  | label (l : Option LabelRead)
  deriving DecidableEq, Repr

/-- A request that a requester offers to a Hearth channel (R373): the physical rank, the bank as in R394, the row and the line, and
the requester's pressure in sixteenths (R376). -/
structure ChanReq where
  requester : Nat
  srcDie : Nat
  write : Bool
  rank : Nat
  bank : Nat
  row : Nat
  line : Nat
  pressure : Nat
  deriving DecidableEq, Repr

/-- What the Anvil code finds in a beat (R370, R371): nothing, an error corrected in a symbol, or an uncorrectable one; with the
syndrome. -/
inductive Beat
  | clean
  | corrected (symbol syndrome : Nat)
  | bad (syndrome : Nat)
  deriving DecidableEq, Repr

/-- A lane's result of an eye scan (R396): the longest run of error-free points. -/
structure Eye where
  left : Nat
  right : Nat
  found : Bool
  deriving DecidableEq, Repr

/-- A point of a Vref sweep (R396): the code, the smallest eye width over unmasked lanes, and its lane. -/
structure SweepPoint where
  code : Nat
  width : Nat
  lane : Nat
  deriving DecidableEq, Repr

/-- What a scan of a training step shows (R396): whether its target is a Vref, the 80 lanes' eyes, their error counts, and the
points of a Vref sweep. -/
structure TrnScan where
  vref : Bool
  eyes : List Eye
  errors : List Nat
  sweep : List SweepPoint
  deriving DecidableEq, Repr

/-- What a NAND die shows at its attach (R412): an answer to READ ID, its parameter page, and its factory bad blocks by plane and
block. -/
structure NandLook where
  answers : Bool
  slc : Bool
  pageSize : Nat
  spare : Nat
  planes : Nat
  freeBlocks : Bool
  pages : Nat
  blocks : Nat
  rateOk : Bool
  deriving DecidableEq, Repr

/-- What the NAND medium shows to a descriptor (R417, R418, R434): the LUN's status byte, the bits corrected in each codeword, the
first codeword that stays uncorrectable, whether read retry was used, and the words read. -/
structure NandMedium where
  onfi : Nat
  corrected : List Nat
  bad : Option Nat
  retry : Bool
  words : List Word
  deriving DecidableEq, Repr

/-- The outcome of a channel's table recovery (R421): a copy recovered with its number and the delta pages applied; no copy recovers,
with the factory marks; no table and no commit pointer exists. Factory marks: NAND die, plane, block. -/
inductive TableLook
  | recovered (copy deltas : Nat)
  | lost
  | blank (marks : List (Nat × Nat × Nat))
  deriving DecidableEq, Repr

/-- A string's channels at a sample (R443): voltage in mV, current in mA (positive for discharge), and the two temperatures in 0.1 °C. -/
structure StrSample where
  mv : Nat
  ma : Int
  ntcA : Int
  ntcB : Int
  deriving DecidableEq, Repr

/-- A page of the quench flash (R410, R414): its Hearth die, channel, NAND die, quad and page index. -/
structure FlashAt where
  die : Nat
  chan : Nat
  nand : Nat
  quad : Nat
  page : Nat
  deriving DecidableEq, Repr

/-- The boot straps as they stand when they are latched (R559); `recovery`: RECOVERY_N is low. -/
structure Straps where
  compat : Bool
  sb1 : Bool
  sb0 : Bool
  recovery : Bool
  deriving DecidableEq, Repr

/-- A failed wire of the fence test (R30): the die, its tree (the trunk, or the die's own), and the wire. -/
structure WireFault where
  die : Nat
  trunk : Bool
  wire : Nat
  deriving DecidableEq, Repr

/-- What the built-in self-tests of a die show at its power-up (R567, R569): its slices that fail, its standby Smith core's test, whether
quad 16 works, rows repaired, the fewest spare rows left in a macro, and whether a macro has more faulty rows than spares. -/
structure DieTest where
  badSlices : List Nat
  standbyOk : Bool
  quad16Ok : Bool
  rows : Nat
  sparesLeft : Nat
  macroBad : Bool
  deriving DecidableEq, Repr

/-- What the SPD of a channel's DIMMs shows (R366, R367): the DIMMs present, module type, device width, speed bins, density in Gb, ranks
per DIMM, whether R366 names the module and it supports SPEED, the RAAIMT value, and the serials. -/
structure Population where
  die : Nat
  chan : Nat
  dimms : Nat
  moduleType : Nat
  width : Nat
  bins : Nat
  density : Nat
  ranks : Nat
  supported : Bool
  speedOk : Bool
  raaimt : Nat
  serials : List Nat
  deriving DecidableEq, Repr

/-- A rank that fails a step of initial training (R400): physical rank and step. -/
structure RankTrain where
  die : Nat
  chan : Nat
  rank : Nat
  step : Nat
  lane : Nat
  width : Nat
  deriving DecidableEq, Repr

/-- A pending row's repair (R573): the row, by its place among the pending ones, and whether its DIMM had an hPPR resource. -/
structure Repair where
  gchan : Nat
  rank : Nat
  bank : Nat
  row : Nat
  ok : Bool
  deriving DecidableEq, Repr

/-- The commands of the block: one constructor per row of the opcode table, its docstring the row's own summary. -/
inductive Instr
  /-- D2D_LINK_FAULT (R19): A die-to-die link fault starts link retraining and pauses accesses to the address ranges that depend on the link. -/
  | d2dLinkFault (die link : Nat)
  /-- D2D_RETRAIN_DONE (R19): Link retraining ends: accesses resume, or, if the link could not be retrained, the die at its far end is taken out of service. -/
  | d2dRetrainDone (die link us : Nat) (ok : Bool)
  /-- MEM_WR (R91): A CXL.mem MemWr or MemWrPtl reaches its port's fence gate and is accepted or refused, then routed to its owning slice. -/
  | memWr (die port : Nat) (ld : Option Nat) (host dpa : Nat) (data : Line) (be : Mask) (tag : Nat)
  /-- MEM_RD (R41): A CXL.mem read arrives at a fabric port and is routed by address hash to the owning slice. -/
  | memRd (die port : Nat) (ld : Option Nat) (host dpa own tag : Nat)
  /-- WRITE_ADMIT (R142): A host or Weld receive write is admitted at its slab's Tongs lock and changes the slab's state, mask, journal and mirror queue. -/
  | writeAdmit (rid : Nat) (look : TagLook) (bad : Bool)
  /-- READ_ADMIT (R142): A read is admitted at its slab's Tongs lock and is served, waits for a fill, or is served uncached. -/
  | readAdmit (rid : Nat) (look : TagLook) (bad : Bool)
  /-- BIRSP (R83): A BIRsp from a host arrives; when every sharer has answered, the request held at the Tongs lock proceeds. -/
  | birsp (host line : Nat)
  /-- FAB_BI_RESET (R85): A write of 1 to a FAB_BI_RESET bit ends broadcast back-invalidation for that Weld region. -/
  | fabBiReset (mask : Nat)
  /-- FM_LD_ALLOCATE (R79): The fabric manager allocates DPA space to a logical device, refused while the range holds dirty slabs. -/
  | fmLdAllocate (die port ld start size : Nat)
  /-- GPF_REQUEST (R94): A Global Persistent Flush request arrives at a port and waits for every earlier accepted write to pass its Tongs lock. -/
  | gpfRequest (die port : Nat)
  /-- GPF_PHASE2_RESPONSE (R94): Every write accepted before the GPF request has passed its lock, and Golinow answers GPF Phase 2. -/
  | gpfPhase2Response (die port : Nat)
  /-- PERST_N (R93): A per-port reset resets the port's link, configuration, credits and IDE streams, and discards unaccepted messages without closing the fence. -/
  | perstN (die port : Nat)
  /-- FLR (R553): A function-level reset resets the function's configuration and mailbox registers and discards the completion of a running command. -/
  | flr (die port : Nat) (ld : Option Nat)
  /-- IDE_CHECK_FAIL (R87): A flit fails its IDE integrity check; it and every later flit are discarded and the stream becomes insecure. -/
  | ideCheckFail (die port stream keySlot : Nat)
  /-- FAB_LINK_UP (R86): A fabric port link trains to the highest rate allowed and reaches L0. -/
  | fabLinkUp (die port width rate : Nat)
  /-- FAB_LINK_DOWN (R86): A fabric port link is lost or degrades its width because lanes fail. -/
  | fabLinkDown (die port : Nat) (width : Option Nat) (ltssm : Nat)
  /-- IDENTIFY (R106): The Identify mailbox command returns the memory device component type. -/
  | identify (mb : Mb)
  /-- BACKGROUND_OPERATION_STATUS (R106): The command returns the percent complete of QUENCH_TEST or Sanitize. -/
  | backgroundOperationStatus (mb : Mb)
  /-- GET_EVENT_RECORDS (R518): The command returns package-view records of one log as CXL Common Event Records in SEQ order. -/
  | getEventRecords (mb : Mb) (log : Nat)
  /-- CLEAR_EVENT_RECORDS (R517): The command removes named handles or every record of a log from the package view and programs PV_BASE. -/
  | clearEventRecords (mb : Mb) (log : Nat) (all : Bool) (handles : List Nat)
  /-- GET_EVENT_INTERRUPT_POLICY (R106): The command returns the MSI-X or none policy of each event log. -/
  | getEventInterruptPolicy (mb : Mb)
  /-- SET_EVENT_INTERRUPT_POLICY (R106): The command sets the interrupt policy of each event log. -/
  | setEventInterruptPolicy (mb : Mb) (info warning failure fatal : Bool)
  /-- GET_FW_INFO (R106): The command reports the two firmware slots of the Temper store. -/
  | getFwInfo (mb : Mb)
  /-- TRANSFER_FW (R106): The MGMT command writes firmware to the inactive slot only. -/
  | transferFw (mb : Mb) (slot revision : Nat) (verifies : Bool)
  /-- ACTIVATE_FW (R561): The MGMT command programs an FWSL record naming the slot to run at the next reset. -/
  | activateFw (mb : Mb) (slot : Nat) (online : Bool)
  /-- GET_TIMESTAMP (R106): The command returns the last set timestamp advanced by the Bellows timer. -/
  | getTimestamp (mb : Mb)
  /-- SET_TIMESTAMP (R519): The command sets the timestamp and raises EVT_TIME_MARKER with the new and replaced values. -/
  | setTimestamp (mb : Mb) (value : Nat)
  /-- GET_SUPPORTED_LOGS (R106): The command lists the Command Effects Log and the vendor leaf-summary log. -/
  | getSupportedLogs (mb : Mb)
  /-- GET_LOG (R106): The command returns the contents of a supported log. -/
  | getLog (mb : Mb) (log offset length : Nat)
  /-- IDENTIFY_MEMORY_DEVICE (R106): The command reports persistent capacity equal to DPA_LIMIT or the LD allocation, and volatile capacity 0. -/
  | identifyMemoryDevice (mb : Mb)
  /-- GET_HEALTH_INFO (R107): The command reports health status, life used, temperature, Dirty Shutdown Count and corrected error count. -/
  | getHealthInfo (mb : Mb)
  /-- GET_ALERT_CONFIGURATION (R106): The command returns the alert thresholds for life used, temperature and corrected errors. -/
  | getAlertConfiguration (mb : Mb)
  /-- SET_ALERT_CONFIGURATION (R106): The command sets the alert thresholds for life used, temperature and corrected errors. -/
  | setAlertConfiguration (mb : Mb) (valid enable life temp ce : Nat)
  /-- GET_SHUTDOWN_STATE (R95): The command returns the stored Shutdown State. -/
  | getShutdownState (mb : Mb)
  /-- SET_SHUTDOWN_STATE (R95): The MGMT command stores the Shutdown State in the Temper store with A/B copies before completing. -/
  | setShutdownState (mb : Mb) (dirty : Bool)
  /-- GET_POISON_LIST (R106): The command returns up to 4,096 poison-list entries with the overflow flag and overflow sequence number. -/
  | getPoisonList (mb : Mb) (dpa lines : Nat)
  /-- INJECT_POISON (R106): The MGMT command poisons one 64 B line. -/
  | injectPoison (mb : Mb) (dpa : Nat)
  /-- CLEAR_POISON (R106): The MGMT command writes the supplied data to a poisoned line and clears its poison. -/
  | clearPoison (mb : Mb) (dpa : Nat) (data : Line)
  /-- SANITIZE (R108): The MGMT background command stops serving, zeroizes keys, discards tags and journal, erases quench flash, deallocates namespaces and clears poison. -/
  | sanitize (mb : Mb)
  /-- SANITIZE_COMPLETE (R108): The last step of a running Sanitize ends and the background operation completes. -/
  | sanitizeComplete
  /-- GET_DC_CONFIGURATION (R109): The command returns the Dynamic Capacity region configuration. -/
  | getDcConfiguration (mb : Mb) (first count : Nat)
  /-- GET_DC_EXTENT_LIST (R109): The command returns the Dynamic Capacity extent list. -/
  | getDcExtentList (mb : Mb) (first count : Nat)
  /-- ADD_DC_RESPONSE (R109): A host accepts an offered extent, whose slabs were discarded and zeroed before the offer. -/
  | addDcResponse (mb : Mb) (start size : Nat)
  /-- RELEASE_DC (R109): A host releases an extent; completion waits until every accepted write to it has passed its Tongs lock. -/
  | releaseDc (mb : Mb) (start size : Nat)
  /-- RELEASE_DC_COMPLETE (R109): The accepted writes of a released extent have passed their locks, so its slabs are discarded and its backing deallocated. -/
  | releaseDcComplete
  /-- UNSUPPORTED_COMMAND (R106): A mailbox command with an unsupported opcode returns Unsupported. -/
  | unsupportedCommand (mb : Mb) (opcode : Nat)
  /-- QUENCH_TEST (R215): The MGMT command starts a dry quench of SAMPLE_MIB, or is refused. -/
  | quenchTest (mb : Mb) (sampleMib : Nat) (update : Bool)
  /-- QUENCH_NOW (R111): The MGMT command with a valid CONFIRM starts a quench as a trigger source and never completes. -/
  | quenchNow (mb : Mb) (confirm : Nat)
  /-- CEILING_QUERY (R112): The command returns the terms of the last ceiling computation and the dry quench results. -/
  | ceilingQuery (mb : Mb)
  /-- HEAT_CONTROL_READ (R110): HEAT_CONTROL with OP 0 returns the current heat, length and ignored sync count. -/
  | heatControlRead (mb : Mb)
  /-- HEAT_CONTROL_SET_LENGTH (R114): HEAT_CONTROL with OP 1 sets the heat length until reset, refused while a region is mirrored. -/
  | heatControlSetLength (mb : Mb) (lengthUs : Nat)
  /-- HEAT_CONTROL_CLOSE_NOW (R179): HEAT_CONTROL with OP 2 takes a heat boundary at once. -/
  | heatControlCloseNow (mb : Mb)
  /-- CACHE_MODE (R145): The MGMT command requests WRITE_BACK, WRITE_THROUGH or BYPASS under the mode state machine. -/
  | cacheMode (mb : Mb) (mode : Nat)
  /-- CACHE_MODE_QUERY (R148): CACHE_MODE with MODE 0xFF reports CURRENT, TARGET, GENERATION and DIRTY_SLABS. -/
  | cacheModeQuery (mb : Mb)
  /-- MAINT_BY_ADDR (R152): The command issues a maintenance operation over a slab range in ascending DPA order, at most 64 in flight. -/
  | maintByAddr (mb : Mb) (dpaStart slabCount op : Nat) (discard : Bool)
  /-- ENERGY_STATUS (R459): The command returns E_usable and one entry per battery string. -/
  | energyStatus (mb : Mb)
  /-- BATTERY_LEARN_SCHEDULE (R454): BATTERY_LEARN with OP 0 makes a string pending for a learning discharge. -/
  | batteryLearnSchedule (mb : Mb) (string : Nat)
  /-- BATTERY_LEARN_CANCEL (R455): BATTERY_LEARN with OP 1 cancels a pending or running learning discharge. -/
  | batteryLearnCancel (mb : Mb) (string : Nat)
  /-- LOG_READ_LEAF (R521): The command returns records of one leaf with SEQ at or above START_SEQ. -/
  | logReadLeaf (mb : Mb) (leaf maxRecords startSeq : Nat)
  /-- LOG_CLEAR_LEAF (R512): The MGMT command writes a clear record into slot 0 of a leaf and starts erasing its other sectors. -/
  | logClearLeaf (mb : Mb) (leaf : Nat)
  /-- POOL_STATUS (R110): The command returns the buffer counts of each class and the quarantine mask of one die. -/
  | poolStatus (mb : Mb) (die : Nat)
  /-- SWAGE_APPLY_PARTIAL (R67): The command verifies a signed partial image and applies its ENERGY, QOS, POOLS and EVENTS sections, or refuses it. -/
  | swageApplyPartial (mb : Mb) (image : List Byte) (signatureOk : Bool)
  /-- RESET_NO_QUENCH (R557): The MGMT command arms a window in which a RESET_N assertion discards dirty data instead of dumping it. -/
  | resetNoQuench (mb : Mb) (confirm windowMs : Nat)
  /-- WELD_STATUS (R113): The command returns the state of every Weld link and region. -/
  | weldStatus (mb : Mb)
  /-- FILL_LANDS (R138): A backing fill completes and writes the slab's unmasked sectors and masked bytes, then serves waiting reads. -/
  | fillLands (slab : Nat) (data : List Line)
  /-- FILL_FAIL (R142): A fill fails; the slab is fetched from the twin, or becomes INVALID or POISONED. -/
  | fillFail (slab status : Nat)
  /-- DESTAGE_SELECT (R140): The destage engine selects a DIRTY slab, enters DESTAGING, reads its sectors and issues the NVMe Write with FUA. -/
  | destageSelect (slab : Nat) (bad : Mask)
  /-- IDLE_DESTAGE_TIMER (R139): A DIRTY slab not written for IDLE_MS becomes due for destage. -/
  | idleDestageTimer (slab : Nat)
  /-- DESTAGE_COMPLETE (R140): The NVMe write of a destage completes; the slab becomes CLEAN or DIRTY with the redirty mask. -/
  | destageComplete (slab : Nat)
  /-- DESTAGE_FAIL (R140): The NVMe write of a destage fails; the slab returns to DIRTY and is not selected again for 1 s. -/
  | destageFail (slab status : Nat)
  /-- SET_STALL_RETRY (R134): The victim of a set stall becomes CLEAN and the waiting request retries its allocation. -/
  | setStallRetry (rid : Nat)
  /-- SET_STALL_HELD_TIMER (R135): A wait for an allocatable way lasts 1 ms and CRUC_SET_STALL_HELD is raised. -/
  | setStallHeldTimer (rid : Nat)
  /-- UNCACHED_READ_DONE (R135): The backing read of an uncached read completes and the requested lines are returned. -/
  | uncachedReadDone (rid : Nat) (ok : Bool) (data : List Line)
  /-- BYPASS_BACKING_READ_DONE (R144): The backing read of a BYPASS or uncached write completes and merges into its staging buffer, then the FUA write is issued. -/
  | bypassBackingReadDone (rid : Nat) (ok : Bool) (status : Nat) (data : List Line)
  /-- BYPASS_BACKING_WRITE_DONE (R144): The FUA write of a BYPASS or uncached write completes, the lock is released and the write completes to the host. -/
  | bypassBackingWriteDone (rid : Nat) (ok : Bool) (status : Nat)
  /-- BYPASS_RETRY (R144): One second after a failed backing command of a BYPASS write, the command is issued again. -/
  | bypassRetry (rid : Nat)
  /-- CRUC_MODE_REQUEST (R145): A write of REQ_VALID to CRUC_MODE submits REQUEST to the mode state machine. -/
  | crucModeRequest (request : Nat)
  /-- DRAIN_EXIT_CHECK (R145): The periodic check of DRAINING finds D = 0 and no written-through write in flight, or a POISONED slab, and acts. -/
  | drainExitCheck
  /-- GENERATION_SWEEP_DONE (R147): The generation sweep has written every tag INVALID with GEN 0 and the target mode is entered. -/
  | generationSweepDone
  /-- MAINT_CLEAN (R149): A CLEAN operation reaches its slab and destages it if DIRTY. -/
  | maintClean (id : Nat)
  /-- MAINT_INVALIDATE (R149): An INVALIDATE operation reaches its slab and invalidates it, refuses dirty data, or discards it with DISCARD. -/
  | maintInvalidate (id : Nat)
  /-- MAINT_EVICT (R149): An EVICT operation reaches its slab, cleans it under an exclusive lock and invalidates it. -/
  | maintEvict (id : Nat)
  /-- MAINT_PIN (R149): A PIN operation sets PINNED, allocating and filling on a miss. -/
  | maintPin (id : Nat)
  /-- MAINT_UNPIN (R149): An UNPIN operation clears PINNED. -/
  | maintUnpin (id : Nat)
  /-- MAINT_FILL_AHEAD (R149): A FILL_AHEAD operation allocates and fills the slab on a miss. -/
  | maintFillAhead (id : Nat)
  /-- CRUC_MAINT_GO (R169): A write of GO to CRUC_MAINT_CTRL starts a maintenance request with management authority. -/
  | crucMaintGo (die slab count op : Nat) (discard : Bool)
  /-- SET_REBUILD_DONE (R157): The set rebuild ends after recovering or poisoning each candidate, and waiting requests proceed. -/
  | setRebuildDone (slab : Nat)
  /-- FENCE_DRAINED (R162): A slice has passed every write accepted before the fence through its lock and reports FENCE_DRAINED. -/
  | fenceDrained (die slice : Nat)
  /-- HEAT_BOUNDARY (R172): The heat timer reaches T_exp, closes the open heat and opens the next at every slice. -/
  | heatBoundary
  /-- HEAT_SYNC_IN_EDGE (R178): A rising edge on HEAT_SYNC_IN requests a boundary, locks the timer, or is ignored outside the window. -/
  | heatSyncInEdge (after : Nat)
  /-- HEAT_SYNC_MISS (R178): A locked timer reaches T_exp + L/4 without an edge, takes a boundary and may unlock. -/
  | heatSyncMiss
  /-- HEAT_CTRL_WRITE (R177): A write of HEAT_CTRL sets the length and sync enables, or refuses the length and sets CTRL_REFUSED. -/
  | heatCtrlWrite (lengthUs : Nat) (syncEn syncOut : Bool)
  /-- HEAT_CTRL_CLOSE_NOW (R179): A write of CLOSE_NOW takes a boundary at once. -/
  | heatCtrlCloseNow
  /-- HEAT_RESERVATION_DONE (R182): A heat reservation record is programmed and any boundary deferred for it is taken. -/
  | heatReservationDone (ok : Bool) (status : Nat)
  /-- JOURNAL_PAGE_WRITE (R189): A buffered journal page is written to both copies when it fills, its heat seals, or 2 µs pass. -/
  | journalPageWrite (die heat : Nat) (receive : Bool)
  /-- HEAT_SEAL (R190): Every append of a closing heat has reached both copies and its entry becomes SEALED. -/
  | heatSeal (die heat : Nat) (receive : Bool)
  /-- COMPACT_RECORD (R191): Compaction takes a record's Tongs lock and drops it or carries it to the open local heat. -/
  | compactRecord (die : Nat) (lost : Bool)
  /-- JOURNAL_STALL_RELEASE (R193): Journal pages are freed and writes held at the journal reserve make their appends. -/
  | journalStallRelease
  /-- TAG_WALK_DONE (R197): The tag walk after a lost journal page ends and TAG_WALK is cleared. -/
  | tagWalkDone (die : Nat)
  /-- CEILING_COMPUTE (R201): The Bellows die computes C from the energy, media, time and cap terms and hands the new limits to the slices. -/
  | ceilingCompute (cause : Nat)
  /-- RECEIVE_HOLD_RELEASE (R212): OVER_CEILING or SHARE_FULL ends and held Weld receive entries are admitted. -/
  | receiveHoldRelease
  /-- DRY_QUENCH_AUTO_START (R215): The result age reaches DRY_QUENCH_PERIOD, or no result exists, and an automatic dry quench starts or is deferred. -/
  | dryQuenchAutoStart
  /-- DRY_QUENCH_WINDOW_OPEN (R218): Scratch erase ends and the strings are in CARRY; the first program opens the measurement window and the walk begins. -/
  | dryQuenchWindowOpen
  /-- DRY_QUENCH_WINDOW_CLOSE (R219): The last dry quench program completes and the result is accepted or rejected. -/
  | dryQuenchWindowClose (ms : Nat)
  /-- DRY_STALE (R215): The applied dry quench result reaches twice DRY_QUENCH_PERIOD in age and becomes stale. -/
  | dryStale
  /-- MAIN_SENSE_TRIP (R224): MAIN_SENSE stays below its threshold for the filter time, and the fence closes at T0 and a quench starts. -/
  | mainSenseTrip (mv ns : Nat)
  /-- HOLD_SENSE_TRIP (R224): HOLD_SENSE stays below its threshold for the filter time and starts a quench. -/
  | holdSenseTrip (mv ns : Nat)
  /-- PWR_FAIL_N_TRIP (R224): PWR_FAIL_N stays low for the filter time and starts a quench. -/
  | pwrFailNTrip (ns : Nat)
  /-- QNCH_TRIG_CTRL_WRITE (R226): A write of QNCH_TRIG_CTRL sets thresholds, filters, enables and LOCK, or is ignored when locked. -/
  | qnchTrigCtrlWrite (value : Nat)
  /-- POWER_SHED (R236): At t_SHED each die powers down SerDes, holds its Smith cores, lowers VDD_CORE and puts idle ranks in self-refresh. -/
  | powerShed (die lowest : Nat) (ack : Bool)
  /-- DIRTY_WALK_START (R241): Every slice of a die has drained and its quench reader walks the heat directory, dumping each dirty slab once. -/
  | dirtyWalkStart (die : Nat) (bad : List (Nat × Nat))
  /-- SEGMENT_PROGRAM_DONE (R246): A 4-plane program of a segment completes and the next segment is placed round-robin. -/
  | segmentProgramDone (die chan nand : Nat)
  /-- QUENCH_BLOCK_FAIL (R258): A quench program fails on a block; the block is retired and the segment reprogrammed. -/
  | quenchBlockFail (die chan nand plane : Nat)
  /-- QUENCH_NAND_DIE_FAIL (R259): A NAND die fails during a quench; its channel leaves the round-robin and its units are rewritten from the ledger. -/
  | quenchNandDieFail (die chan nand : Nat)
  /-- TRAILER_PROGRAM (R253): Every other program of a die has completed and its trailer is programmed. -/
  | trailerProgram (die : Nat)
  /-- COMMIT_RECORD_PROGRAM (R254): Every die in service has its trailer and each programs a commit record. -/
  | commitRecordProgram (ms : Nat)
  /-- COMMIT_POINTER_PROGRAM (R255): The commit records are programmed and the Bellows die programs the commit pointer in the Temper store. -/
  | commitPointerProgram (ok : Bool) (status : Nat)
  /-- QUENCH_END (R228): The quench ends; the Hearth dies power down or restart and QUENCH_OUT falls. -/
  | quenchEnd (mainOk holdOk : Bool) (st : Straps)
  /-- REHEAT_LOCATE (R270): After P0 the newest commit pointer, reheat ring records and heat reservation are read. -/
  | reheatLocate
  /-- INGOT_SCAN (R271): The quench-flash scan ends and the Ingot to restore is chosen. -/
  | ingotScan (bad : List FlashAt)
  /-- REHEAT_RECORDS_PROGRAM (R270): The restore record, generation claim and heat reservation are programmed and the first heat opens. -/
  | reheatRecordsProgram (claimOk reserveOk : Bool) (status : Nat)
  /-- EAGER_RESTORE_DONE (R275): An eager restore has placed every slab in DRAM. -/
  | eagerRestoreDone
  /-- INDEX_PASS_SEGMENT (R276): The index pass decrypts one segment's descriptors and makes its named slabs reheat-pending. -/
  | indexPassSegment (die num : Nat) (seen : Option (List Nat)) (broken : Bool)
  /-- INDEX_DEADLINE (R281): The index pass has not ended 6 s after step 5 and the die is marked INDEX_PARTIAL. -/
  | indexDeadline (die : Nat)
  /-- GATES_REOPEN (R270): The fence gates reopen and Memory_Active is set. -/
  | gatesReopen
  /-- SEGMENT_RESTORE (R279): A segment read completes, is authenticated, and its descriptors are applied under each slab's lock. -/
  | segmentRestore (gen die num : Nat) (auth : Bool) (m : NandMedium)
  /-- INGOT_RELEASE (R282): Every segment is retired; the restore record DONE is programmed and the Ingot's blocks go for erasure. -/
  | ingotRelease
  /-- RHT_DISCARD (R273): A write of RHT_CTRL.DISCARD releases a held Ingot as key unavailable and start-up continues. -/
  | rhtDiscard
  /-- FORCE_SOLO (R289): A write of FORCE_SOLO on a FENCED region with no link up makes it SOLO with retention. -/
  | forceSolo (region : Nat)
  /-- YIELD (R289): A write of YIELD on a FENCED region with a SOLO twin makes it REJOINING with a full resync. -/
  | yield (region : Nat)
  /-- RECLAIM (R296): A write of RECLAIM on the OWNER_SIDE SHADOW sends ROLE_CLAIM. -/
  | reclaim (region : Nat)
  /-- CONFIRM_SOLE (R292): A write of CONFIRM_SOLE ends a region's backing hold. -/
  | confirmSole (region : Nat)
  /-- ROLE_RECORD_DONE (R288): A role record program completes, or fails and the region becomes FENCED. -/
  | roleRecordDone (region : Nat) (status : Nat)
  /-- RESYNC_COMPLETE (R295): Every slab of the set is acknowledged and the loser has acknowledged the last resync heat; roles become OWNER and SHADOW. -/
  | resyncComplete (region : Nat)
  /-- PROMOTION (R332): The drain window has ended and the SOLO records are programmed, and the regions are served as SOLO. -/
  | promotion
  /-- DRAIN_WINDOW_END (R333): 100 µs after QUENCH_NOTICE NOTICE the receiving side stops admitting the quenching twin's entries. -/
  | drainWindowEnd
  /-- WELD_HELLO (R304): The peer's hello block arrives after training and the link proceeds to key exchange or stays down. -/
  | weldHello (die link version side peerDie peerLink : Nat)
  /-- WELD_HELLO_RETRY (R304): One second after a refused hello the link retries. -/
  | weldHelloRetry (die link : Nat)
  /-- KEY_ROLL_OFFER (R321): A KEY_ROLL OFFER arrives; the identity and signature are checked and an ANSWER is sent. -/
  | keyRollOffer (h : Head) (rollId switchSeq : Nat) (identOk sigOk : Bool)
  /-- KEY_ROLL_ANSWER (R321): A KEY_ROLL ANSWER arrives; the link key is derived and the link comes up or rolls. -/
  | keyRollAnswer (h : Head) (rollId switchSeq : Nat) (identOk sigOk : Bool)
  /-- KEY_ROLL_ANSWER_TIMEOUT (R322): No ANSWER arrives within 10 ms and the roll fails. -/
  | keyRollAnswerTimeout (die link : Nat)
  /-- KEY_ROLL_COUNTER (R322): A direction's frame counter reaches 2^47 and a key roll starts. -/
  | keyRollCounter (die link : Nat)
  /-- KEY_ROLL_RETRY (R322): One second after a failed roll, a new roll starts. -/
  | keyRollRetry (die link : Nat)
  /-- KEY_STALL_ENTER (R323): A frame counter reaches 2^48 − 2^16 without a successful roll and the link enters KEY_STALL. -/
  | keyStallEnter (die link : Nat)
  /-- JOIN (R321): JOIN arrives from a LOST twin; digests are compared, regions decided, heats opened and roles acted on. -/
  | join (h : Head) (heat length side regions : Nat) (digestOk : Bool) (roles : List JoinRole)
  /-- HEARTBEAT (R314): A HEARTBEAT frame arrives carrying the twin's heat, usable links and pair state. -/
  | heartbeat (h : Head) (heat links pair : Nat) (stall : Bool)
  /-- HEARTBEAT_SEND (R311): The heartbeat interval expires and a HEARTBEAT is sent. -/
  | heartbeatSend (die link : Nat)
  /-- ACK_HEARTBEAT (R309): ACK advanced with no other frame for 1 µs, or by 256 frames, and a HEARTBEAT is sent. -/
  | ackHeartbeat (die link : Nat)
  /-- MIRROR_WRITE (R326): A MIRROR_WRITE frame arrives and its line and clean entries are applied under the owning slices' locks. -/
  | mirrorWrite (h : Head) (heat firstId : Nat) (entries : List MirrorEntry)
  /-- WELD_TX_ROOM (R325): The full Weld transmit queue drains and writes waiting at their locks proceed. -/
  | weldTxRoom (die : Nat)
  /-- MIRROR_ACK (R316): A MIRROR_ACK arrives and the SYNC writes it covers complete. -/
  | mirrorAck (h : Head) (runs : List AckRun)
  /-- HEAT_CLOSE (R329): HEAT_CLOSE arrives and, once received on every link named and the receive heat is sealed, HEAT_ACK is sent. -/
  | heatClose (h : Head) (heat linkMask : Nat)
  /-- HEAT_ACK (R329): HEAT_ACK arrives and raises the owner's acknowledged heat of the regions named. -/
  | heatAck (h : Head) (heat regionMask : Nat)
  /-- QUENCH_NOTICE_NOTICE (R333): QUENCH_NOTICE with PHASE NOTICE arrives; the drain window opens and the SOLO record program starts. -/
  | quenchNoticeNotice (h : Head) (heat cause generation : Nat)
  /-- QUENCH_NOTICE_DRAINED (R333): QUENCH_NOTICE DRAINED arrives on a link and may end the drain window. -/
  | quenchNoticeDrained (h : Head) (heat cause generation : Nat)
  /-- QUENCH_NOTICE_FINAL (R334): QUENCH_NOTICE FINAL arrives and reports whether the twin's commit pointer was programmed. -/
  | quenchNoticeFinal (h : Head) (heat flags cause generation : Nat)
  /-- ROLE_CLAIM_CLAIM (R296): A ROLE_CLAIM CLAIM arrives at the OWNER, which stops serving at its next boundary and hands over. -/
  | roleClaimClaim (h : Head) (region epoch : Nat)
  /-- ROLE_CLAIM_HANDOVER (R296): A HANDOVER arrives and the claimant becomes OWNER once it has acknowledged heat b − 1. -/
  | roleClaimHandover (h : Head) (region epoch heat : Nat)
  /-- ROLE_CLAIM_REFUSE (R317): A ROLE_CLAIM REFUSE arrives and the reclaim does not take place. -/
  | roleClaimRefuse (h : Head) (region epoch : Nat)
  /-- REJOIN_REQ (R294): A REJOIN_REQ arrives and the winner starts sending RESYNC_DATA for the set. -/
  | rejoinReq (h : Head) (region : Nat) (incremental : Bool) (slabs : List Nat)
  /-- RESYNC_DATA (R294): The last frame of a slab's RESYNC_DATA arrives and the loser applies it in one Tongs step. -/
  | resyncData (h : Head) (slab kind : Nat) (mask : Mask) (heat region : Nat) (lines : List Line)
  /-- FETCH (R331): A FETCH request arrives and the twin answers FETCH_DATA or FETCH_MISS on the slab's bound link. -/
  | fetch (h : Head) (slab region : Nat)
  /-- FETCH_DATA (R331): A FETCH_DATA reply arrives and lands as a fill or serves the waiting request. -/
  | fetchData (h : Head) (slab : Nat) (mask : Mask) (heat region : Nat) (lines : List Line)
  /-- FETCH_MISS (R331): A FETCH_MISS reply arrives and the fetch has failed. -/
  | fetchMiss (h : Head) (slab region : Nat)
  /-- FETCH_TIMEOUT (R331): A FETCH has no answer within 1 ms and has failed. -/
  | fetchTimeout (slab : Nat)
  /-- WELD_NAK (R308): A frame carrying NAK arrives and the sender resends every frame from the one ACK names. -/
  | weldNak (die link ack : Nat)
  /-- LINK_HEARTBEAT_LOSS (R311): No authentic frame arrives for 200 µs, or 10 ms in KEY_STALL, and the link is lost. -/
  | linkHeartbeatLoss (die link : Nat)
  /-- LINK_ELECTRICAL_LOSS (R311): A Weld link loses its trained state and is lost at once. -/
  | linkElectricalLoss (die link : Nat)
  /-- WELD_LINK_DISABLE (R311): A write of WELD_LINK_CTRL.DISABLE holds the link down. -/
  | weldLinkDisable (die link : Nat) (disable : Bool)
  /-- WELD_LINK_RETRAIN (R337): A write of RETRAIN takes the link down and retrains it. -/
  | weldLinkRetrain (die link : Nat)
  /-- WELD_KEY_ROLL_NOW (R322): A write of KEY_ROLL_NOW starts a key roll. -/
  | weldKeyRollNow (die link : Nat)
  /-- NVME_LINK_UP (R343): An NVMe root port link comes up and, with AUTO_ATTACH, attach begins. -/
  | nvmeLinkUp (die port width rate : Nat)
  /-- NS_ATTACH (R343): A write of ATTACH starts the attach of a namespace. -/
  | nsAttach (ns : Nat)
  /-- NVME_ADMIN_COMPLETE (R342): An attach command completes and the next attach check runs, or the namespace becomes REFUSED, BLANK or ONLINE. -/
  | nvmeAdminComplete (die port ns : Nat) (result : AdminResult)
  /-- NS_ADOPT (R346): A write of ADOPT on a BLANK namespace writes a new label and makes it ONLINE. -/
  | nsAdopt (ns : Nat)
  /-- NS_DETACH (R360): A write of DETACH makes the namespace DETACHING and its dirty slabs are destaged first. -/
  | nsDetach (ns : Nat)
  /-- DETACH_COMPLETE (R360): No dirty slab or command of a detaching namespace remains and it becomes ABSENT, with controller shutdown. -/
  | detachComplete (ns : Nat)
  /-- NVME_IO_COMPLETE (R356): The polled completion queue yields an I/O completion that ends, retries or fails the command. -/
  | nvmeIoComplete (slab status : Nat) (dnr : Bool) (data : List Line) (errorLog : Nat)
  /-- NVME_RETRY (R356): A retry delay of 1, 10 or 100 ms expires and the command is issued again. -/
  | nvmeRetry (slab : Nat)
  /-- NVME_IO_TIMEOUT (R356): A command has no completion within IO_TIMEOUT_MS and the controller is reset. -/
  | nvmeIoTimeout (slab : Nat)
  /-- CONTROLLER_RESET_DONE (R356): A controller reset completes and outstanding commands are reissued, or its namespaces become FAILED. -/
  | controllerResetDone (die port : Nat) (ok : Bool)
  /-- SMART_POLL (R341): Every 60 s the SMART log is read and critical warnings acted on. -/
  | smartPoll (die port warning used : Nat)
  /-- NVME_LINK_DOWN_TIMEOUT (R357): A root port link is down for 1 s and its namespaces become FAILED. -/
  | nvmeLinkDownTimeout (die port : Nat)
  /-- CHAN_REQUEST (R373): A read or write request enters a Hearth channel queue, or is held when the queue is full. -/
  | chanRequest (die chan : Nat) (req : ChanReq)
  /-- CHAN_READ_DECODE (R372): Read data returns and is decoded by the Anvil code: clean, corrected, re-read or uncorrectable. -/
  | chanReadDecode (die chan id : Nat) (beats : List Beat)
  /-- REFRESH_DUE (R381): tREFI expires and a rank's refresh falls due, is issued or postponed. -/
  | refreshDue (die chan rank : Nat)
  /-- CREDIT_REFILL (R375): Every 1 µs each requester's channel credit is refilled by its weight. -/
  | creditRefill (die chan : Nat)
  /-- REQUEST_URGENT (R377): A request reaches its age limit and becomes urgent with every earlier request of its source. -/
  | requestUrgent (die chan id : Nat)
  /-- RH_WINDOW_CLEAR (R378): The refresh window ends and the rank's row-hammer tracking tables are cleared. -/
  | rhWindowClear (die chan rank : Nat)
  /-- RH_COOLDOWN_END (R379): RH_COOLDOWN elapses and the requester's throttle ends. -/
  | rhCooldownEnd (die chan requester : Nat)
  /-- ROW_CLOSE_TIMER (R374): 100 ns after its last column command an open row is closed. -/
  | rowCloseTimer (die chan rank bank : Nat)
  /-- DRAM_TEMP_READ (R382): Every 1 ms the DIMM sensors are read and the refresh rate and postponement are set. -/
  | dramTempRead (die chan dimm : Nat) (reading : Option Int) (sensor : Nat)
  /-- SELF_REFRESH_IDLE (R384): A rank has no request for SR_IDLE and enters self-refresh. -/
  | selfRefreshIdle (die chan rank : Nat)
  /-- PATROL_SCRUB_READ (R385): The patrol scrubber reads the next line and rewrites corrected lines through the line's owner. -/
  | patrolScrubRead (die chan : Nat) (beats : List Beat)
  /-- CA_PARITY_ALERT (R386): An RCD asserts ALERT_n for a command/address parity error and the channel stops issuing commands. -/
  | caParityAlert (die chan dimm : Nat) (failed : Nat)
  /-- ALERT_N_HIGH (R386): ALERT_n returns high; the channel clears the RCD status and repeats the failed commands. -/
  | alertNHigh (die chan : Nat)
  /-- CE_RATE_INTERVAL (R372): A 60 s interval ends and ranks whose corrected beats reached CHAN_CE_LIMIT raise CHAN_CE_RATE. -/
  | ceRateInterval (die chan : Nat)
  /-- CHAN_THAW (R390): A write of CHAN_CTRL.THAW thaws a frozen channel and resumes its held requests. -/
  | chanThaw (die chan : Nat)
  /-- CHAN_AUTO_THAW (R390): A channel has been frozen for AUTO_THAW_MS and thaws. -/
  | chanAutoThaw (die chan : Nat)
  /-- CHAN_FREEZE_NOW (R390): A write of FREEZE_NOW freezes an active channel for diagnosis. -/
  | chanFreezeNow (die chan : Nat)
  /-- TRN_START (R399): A write of TRN_CTRL.START runs STEP on RANK with the training helpers. -/
  | trnStart (die chan step rank : Nat)
  /-- TRN_ABORT (R401): A write of ABORT ends the step as aborted and restores the last-known-good setting. -/
  | trnAbort (die chan : Nat)
  /-- TRN_COMMIT (R408): A write of COMMIT applies the candidate of a passed step. -/
  | trnCommit (die chan : Nat)
  /-- TRN_RETRAIN_NOW (R402): A write of RETRAIN_NOW makes the rank pending for retraining, exempt from delays. -/
  | trnRetrainNow (die chan rank : Nat) (full : Bool)
  /-- TRN_AUTO_CYCLE_START (R402): A pending rank's delay has passed and an automatic retraining cycle starts. -/
  | trnAutoCycleStart (die chan rank : Nat)
  /-- TRN_SUBSTEP_END (R404): A 3 µs sub-step ends; the helper leaves training mode and issues due refreshes and RFMs. -/
  | trnSubstepEnd (die chan : Nat)
  /-- TRN_STEP_END (R403): A training step ends, passing or finding no setting, and the channel resumes traffic. -/
  | trnStepEnd (die chan us : Nat) (scans : List TrnScan)
  /-- TRN_GAP_ELAPSED (R403): GAP_MS of normal traffic has passed and the cycle's next step starts. -/
  | trnGapElapsed (die chan : Nat)
  /-- TRN_STEP_TIMEOUT (R405): A step runs 190 µs after START; it is abandoned, the LKG restored and service resumed. -/
  | trnStepTimeout (die chan : Nat)
  /-- NAND_ATTACH (R412): A NAND die is checked against its parameter page and put in service or refused. -/
  | nandAttach (die chan nand : Nat) (look : NandLook)
  /-- QFL_ERASE_ISSUE (R424): The erase scheduler issues the erase of a STALE quad with the lowest P/E count. -/
  | qflEraseIssue (die chan nand : Nat)
  /-- QFL_ERASE_DONE (R419): An erase passes or fails; a passing quad queues a table delta, a failing block is retired. -/
  | qflEraseDone (die chan nand : Nat) (failed : Option Nat)
  /-- QFL_TABLE_DELTA_DONE (R421): A table delta page is programmed and the quad becomes READY in its die's ready queue. -/
  | qflTableDeltaDone (die chan : Nat)
  /-- QFL_ZQ_CALIBRATION (R411): Every 30 min ZQ CALIBRATION LONG runs. -/
  | qflZqCalibration (die chan : Nat)
  /-- QFL_TABLE_RECOVER (R421): At start-up a channel's table is recovered from checkpoint and deltas, rebuilt or formatted. -/
  | qflTableRecover (die chan : Nat) (look : TableLook)
  /-- QFL_FORMAT (R421): A channel with no table or a changed QUENCH geometry is formatted once no Ingot is held. -/
  | qflFormat (die chan : Nat) (marks : List (Nat × Nat × Nat))
  /-- QFL_READ (R433): A firmware READ descriptor reads LDPC-corrected data from any quad. -/
  | qflRead (die : Nat) (medium : NandMedium)
  /-- QFL_READ_RAW (R433): A firmware READ_RAW descriptor reads a page and spare without LDPC. -/
  | qflReadRaw (die : Nat) (medium : NandMedium)
  /-- QFL_PROGRAM (R433): A firmware PROGRAM descriptor programs a scratch quad at its write pointer. -/
  | qflProgram (die : Nat) (medium : NandMedium)
  /-- QFL_ERASE_QUAD (R433): A firmware ERASE_QUAD descriptor erases a scratch quad. -/
  | qflEraseQuad (die : Nat) (medium : NandMedium)
  /-- QFL_READ_PARAM (R433): A firmware READ_PARAM descriptor reads a NAND parameter page. -/
  | qflReadParam (die : Nat) (medium : NandMedium)
  /-- QFL_GET_FEATURE (R433): A firmware GET_FEATURE descriptor reads a NAND feature. -/
  | qflGetFeature (die : Nat) (medium : NandMedium)
  /-- QFL_BLANK_CHECK (R433): A firmware BLANK_CHECK descriptor checks whether every page of a quad is erased. -/
  | qflBlankCheck (die : Nat) (medium : NandMedium)
  /-- QFL_UNKNOWN_OPCODE (R433): A firmware descriptor with an unknown opcode completes with UNSUPPORTED. -/
  | qflUnknownOpcode (die : Nat)
  /-- QFL_OP_FAIL (R428): Outside a quench a program or erase fails and the plane block is retired. -/
  | qflOpFail (die chan nand quad plane : Nat) (program : Bool)
  /-- NAND_STATUS_TIMEOUT (R430): A NAND die fails to answer READ STATUS before and after RESET and is retired. -/
  | nandStatusTimeout (die chan nand : Nat)
  /-- STRING_SAMPLE (R445): The 1 kHz sample updates every string's voltage, current, temperatures and charge accumulators. -/
  | stringSample (strings : List StrSample)
  /-- FULL_ANCHOR (R447): CHG_DONE, no CARRY and low charge current hold for 60 s and Q_raw becomes Q_ref. -/
  | fullAnchor (n : Nat)
  /-- FAULT_CLEAR (R444): A FAULT condition has been absent for 60 s and the FAULT clears. -/
  | faultClear (n fault : Nat)
  /-- CAL_STEP_START (R452): PERIOD_S elapses and a calibration step raises CAL_LOAD on the next string. -/
  | calStepStart
  /-- CAL_STEP_END (R453): The calibration measurements end and R_est is updated or the step rejected. -/
  | calStepEnd (v1 i1 v2 i2 v3 i3 : Int)
  /-- LEARN_CHECK (R455): Every 1 s a PENDING string is checked and a learning discharge may start. -/
  | learnCheck
  /-- LEARN_TIMEOUT (R455): A learning discharge runs 24 h and is aborted. -/
  | learnTimeout (n : Nat)
  /-- LEARN_REPEND (R455): 24 h after a rejected or aborted learning the string becomes pending again. -/
  | learnRepend (n : Nat)
  /-- LEARN_PERIOD (R454): PERIOD_D days pass since a string's last learning and it becomes pending. -/
  | learnPeriod (n : Nat)
  /-- AUTH_RESPONSE (R457): A battery module's authentication response is read and checked, or the attempt fails. -/
  | authResponse (n : Nat) (failed : Option Nat)
  /-- AUTH_RETRY (R457): One second after a failed try, authentication is tried again. -/
  | authRetry (n : Nat)
  /-- AUTH_PERIODIC (R457): Every 24 h each module is authenticated again. -/
  | authPeriodic (n : Nat)
  /-- SERIAL_POLL (R458): Every 1 s each module's SERIAL is polled for absence, return or change. -/
  | serialPoll (answers : List (Option Nat))
  /-- LV_RECORD_WRITE (R460): Every 15 minutes a learned-values record is programmed for every string. -/
  | lvRecordWrite (failed : List Nat) (status : Nat)
  /-- AON_SENSE_LOW (R440): AON_SENSE falls below its threshold and no Temper program or erase starts. -/
  | aonSenseLow (mv ns : Nat)
  /-- AON_SENSE_RISE (R440): AON_SENSE rises again and BELL_AON_LOW is raised. -/
  | aonSenseRise (mv : Nat)
  /-- BELL_STR_FORCE_ISOLATE (R442): A write of FORCE_ISOLATE drives the string ISOLATED or releases it. -/
  | bellStrForceIsolate (n : Nat) (value : Bool)
  /-- BELL_STR_LEARN (R454): A write of BELL_STR_CTRL.LEARN schedules a learning discharge. -/
  | bellStrLearn (n : Nat)
  /-- BELL_STR_CANCEL (R455): A write of CANCEL cancels a pending or running learning discharge. -/
  | bellStrCancel (n : Nat)
  /-- BELL_STR_REAUTH (R457): A write of REAUTH runs module authentication now. -/
  | bellStrReauth (n : Nat)
  /-- BELLOWS_POR (R606): VDD_AON rises through its POR level and the whole package starts from cold power-on. -/
  | bellowsPor (st : Straps)
  /-- TMP_READ (R472): A Temper store READ descriptor returns corrected data and may queue a scrub. -/
  | tmpRead (q : Nat) (medium : List (Nat × Bool))
  /-- TMP_PROGRAM (R473): A PROGRAM descriptor pre-reads its words and programs them unless a bit would go from 0 to 1. -/
  | tmpProgram (q : Nat) (data : List Word)
  /-- TMP_PROGRAM_AND (R474): A PROGRAM_AND descriptor clears bits in the bitmap area. -/
  | tmpProgramAnd (q : Nat) (data : List Word)
  /-- TMP_ERASE_SECTOR (R475): An ERASE_SECTOR descriptor erases one logical sector. -/
  | tmpEraseSector (q : Nat)
  /-- TMP_BLANK_CHECK (R475): A BLANK_CHECK descriptor reads a range at the erase-verify reference. -/
  | tmpBlankCheck (q : Nat)
  /-- TMP_MARGIN_READ (R475): A MARGIN_READ descriptor returns raw data at a verify reference and counts differing bits. -/
  | tmpMarginRead (q : Nat) (diffs : List Nat)
  /-- TMP_UNKNOWN_OPCODE (R470): A descriptor with an unknown opcode or nonzero reserved field completes with UNSUPPORTED. -/
  | tmpUnknownOpcode (q : Nat)
  /-- TMP_OP_DONE (R476): A program or erase ends and waiting descriptors of the bank proceed. -/
  | tmpOpDone (q : Option Nat) (fail : Option (Nat × Nat))
  /-- TMP_SCRUB (R479): A queued scrub relocates a logical sector into a spare and programs a remap record. -/
  | tmpScrub (sector spare : Nat) (uncorrectable : Bool)
  /-- TMP_PATROL_READ (R479): The patrol reader reads the next programmed logical sector at lowest priority. -/
  | tmpPatrolRead (corrected uncorrectable : Nat)
  /-- POOL_ALLOC (R496): ALLOC takes the lowest-offset FREE buffer of a class within quota and the quench floor. -/
  | poolAlloc (die r srcDie cls : Nat) (noFallback : Bool)
  /-- POOL_ALLOC_FALLBACK (R496): An allocation retries at the next larger class's arbiter in a later cycle. -/
  | poolAllocFallback (die : Nat)
  /-- POOL_FREE (R494): FREE by the owner frees a buffer or leaves it FREE_PENDING. -/
  | poolFree (r srcDie handle : Nat)
  /-- POOL_SHARE (R494): SHARE raises a buffer's share count. -/
  | poolShare (r srcDie handle : Nat)
  /-- POOL_RELEASE (R494): RELEASE lowers the share count and frees a FREE_PENDING buffer at 0. -/
  | poolRelease (r srcDie handle : Nat)
  /-- POOL_HANDOFF (R494): HANDOFF moves a buffer's owner and quota charge to another requester. -/
  | poolHandoff (r srcDie handle newReq newDie : Nat)
  /-- POOL_CMD_UNSUPPORTED (R502): A POOL_CMD with OP 0, 6 or 7 completes with UNSUPPORTED. -/
  | poolCmdUnsupported (die op : Nat)
  /-- POOL_QUARANTINE_RELEASE (R501): A write of 1 to a POOL_QUARANTINE bit releases the requester and clears its violation count. -/
  | poolQuarantineRelease (die mask : Nat)
  /-- EVENT_RAISE (R507): An event is raised, rate-limited, given a SEQ and queued for its leaf and the package view. -/
  | eventRaise (ev : Machine.Ev) (source : Nat) (payload : Fields)
  /-- LEAF_PROGRAM_DONE (R509): A queued record's leaf program completes and the next queued record is programmed. -/
  | leafProgramDone
  /-- TOKEN_REFILL (R514): A code's refill interval elapses and its bucket gains one token. -/
  | tokenRefill (code : Nat)
  /-- SEQ_RESERVATION_DONE (R508): An ESRV reservation record is programmed and stalled numbering resumes. -/
  | seqReservationDone (ok : Bool)
  /-- LEAF_CLEAR_ERASE (R512): The next sector of a clearing leaf is erased behind the clear record. -/
  | leafClearErase (leaf : Nat)
  /-- EVT_WIN_SEQ_WRITE (R522): A write of EVT_WIN_SEQ presents the first record of the subtree with SEQ at or above the value. -/
  | evtWinSeqWrite (hearth seq : Nat)
  /-- EVT_WIN_NEXT (R522): A write of EVT_WIN_NEXT advances the event window past the presented record. -/
  | evtWinNext (hearth : Nat)
  /-- SPDM_GET_VERSION (R529): An SPDM GET_VERSION request is answered. -/
  | spdmGetVersion (t : Path)
  /-- SPDM_GET_CAPABILITIES (R529): An SPDM GET_CAPABILITIES request is answered. -/
  | spdmGetCapabilities (t : Path)
  /-- SPDM_NEGOTIATE_ALGORITHMS (R529): An SPDM NEGOTIATE_ALGORITHMS request settles P-384, SHA-384 and AES-256-GCM. -/
  | spdmNegotiateAlgorithms (t : Path)
  /-- SPDM_GET_DIGESTS (R529): An SPDM GET_DIGESTS request returns the slot 0 chain digest. -/
  | spdmGetDigests (t : Path)
  /-- SPDM_GET_CERTIFICATE (R529): An SPDM GET_CERTIFICATE request returns the package chain. -/
  | spdmGetCertificate (t : Path) (slot off len : Nat)
  /-- SPDM_CHALLENGE (R529): An SPDM CHALLENGE is answered with a signature. -/
  | spdmChallenge (t : Path) (slot nonce : Nat)
  /-- SPDM_GET_MEASUREMENTS (R530): GET_MEASUREMENTS returns the five signed measurement records. -/
  | spdmGetMeasurements (t : Path) (nonce : Nat)
  /-- SPDM_KEY_EXCHANGE (R531): KEY_EXCHANGE opens a session, or returns SessionLimitExceeded at the ninth. -/
  | spdmKeyExchange (t : Path) (ownerKey : Bool)
  /-- SPDM_FINISH (R531): FINISH completes the session, with the management role if the owner key signed. -/
  | spdmFinish (t : Path) (session : Nat) (signatureOk : Bool)
  /-- SPDM_END_SESSION (R531): END_SESSION ends an SPDM session and frees its key slots. -/
  | spdmEndSession (t : Path) (session : Nat)
  /-- SPDM_UNSUPPORTED (R529): Any other SPDM request returns ERROR UnsupportedRequest. -/
  | spdmUnsupported (t : Path)
  /-- IDE_KM_QUERY (R532): IDE_KM QUERY inside a secured session is answered. -/
  | ideKmQuery (session die port : Nat)
  /-- IDE_KM_KEY_PROG (R532): KEY_PROG writes an IDE key into a link slot of the port's die. -/
  | ideKmKeyProg (session die port stream set sub key : Nat)
  /-- IDE_KM_K_SET_GO (R532): K_SET_GO switches the stream to the named key set at the CXL boundary. -/
  | ideKmKSetGo (session die port stream set : Nat)
  /-- IDE_KM_K_SET_STOP (R532): K_SET_STOP erases the stream's slots and the stream becomes insecure. -/
  | ideKmKSetStop (session die port stream : Nat)
  /-- IDE_KM_GETKEY (R532): GETKEY returns an error. -/
  | ideKmGetkey (session die port : Nat)
  /-- CIPHER_JOB_START (R534): A cipher job takes a user reference on its slot's current generation, or ends KEY_ERASED on an EMPTY slot. -/
  | cipherJobStart (die slot group : Nat) (stream : Option Nat) (unwrapOk : Bool)
  /-- CIPHER_JOB_END (R535): A cipher job ends and releases its reference; a shadow whose users reach 0 is zeroized. -/
  | cipherJobEnd (job : Nat)
  /-- DRBG_HEALTH_FAIL (R537): The entropy source fails a health test and no key is drawn until it passes. -/
  | drbgHealthFail (test : Nat)
  /-- TAMPER_N_ALARM (R548): TAMPER_N is low for 50 ns; keys are zeroized, a reset is decided and a blob epoch fuse is burnt. -/
  | tamperNAlarm (ns : Nat) (st : Straps)
  /-- SHIELD_MESH_ALARM (R548): The shield mesh is broken or shorted and the tamper response runs. -/
  | shieldMeshAlarm (st : Straps)
  /-- VOLTAGE_ALARM (R548): A supply leaves its window for 5 ns and the glitch or tamper response runs. -/
  | voltageAlarm (rail mv ns : Nat) (st : Straps)
  /-- CLOCK_ALARM (R548): The Bellows core clock is off its reference by more than 25 % and the alarm response runs. -/
  | clockAlarm (offPct cycles : Nat) (st : Straps)
  /-- TEMPERATURE_ALARM (R548): The Bellows junction leaves −40 to 125 °C and the alarm response runs. -/
  | temperatureAlarm (tj : Int) (st : Straps)
  /-- KEY_RELOAD (R548): At t_RELOAD after a glitch alarm the current Ingot key is reloaded from its blob. -/
  | keyReload
  /-- RESERVE_RETRY (R541): Once per minute the Bellows die retries programming the new reserve key record. -/
  | reserveRetry (ok : Bool) (status : Nat)
  /-- OWNER_KEY_BURN (R528): Management firmware burns OWNER_HASH and OWNER_LOCK over the sideband while OWNER_LOCK is blank. -/
  | ownerKeyBurn (key : Nat)
  /-- RESET_N_ASSERT (R555): RESET_N is low for 1 µs; the reset quenches, discards under the window, or shuts down drives, then takes effect. -/
  | resetNAssert (lowNs : Nat) (st : Straps)
  /-- RESET_N_RELEASE (R559): RESET_N is released, straps are latched and start-up begins if the reset has taken effect. -/
  | resetNRelease (st : Straps)
  /-- NQ_WINDOW_EXPIRE (R557): The no-quench window expires unused. -/
  | nqWindowExpire
  /-- RESET_PROCEED (R555): A deferred package reset's quench, drive shutdown or Temper operation ends and the reset takes effect. -/
  | resetProceed (st : Straps)
  /-- STARTUP_ROM_VERIFY (R561): The ROM verifies the named firmware slot, falls back to the other, or enters ROM recovery. -/
  | startupRomVerify (failA failB : Option Nat)
  /-- STARTUP_CHECKS (R526): The supervisor checks the package binding, the alarm latch and OWNER_LOCK, or holds the package. -/
  | startupChecks (differs : Option Nat) (tripping : Nat)
  /-- SWAGE_LOAD (R63): Both Swage copies are verified and the selected one loaded, or the no-image state is entered. -/
  | swageLoad (signatureA signatureB : Bool) (bank : Nat)
  /-- FENCE_WIRE_TEST (R30): Every fence wire is tested by loopback and a failing die is kept out of service. -/
  | fenceWireTest (failed : List WireFault)
  /-- DIE_POWER_ENABLE (R600): The supervisor raises DIE_PWR_EN for each die to be powered. -/
  | diePowerEnable (die : Nat)
  /-- DIE_PG_ASSERT (R600): DIE_PG rises; the die's Smith firmware is loaded and the die joins start-up. -/
  | diePgAssert (die : Nat) (bist : DieTest)
  /-- DIE_PG_TIMEOUT (R600): DIE_PG is not high 50 ms after DIE_PWR_EN and the die is kept out of service. -/
  | diePgTimeout (die : Nat)
  /-- DIE_PG_FALL (R601): DIE_PG falls for 1 µs while enabled and the die has failed. -/
  | diePgFall (die ns : Nat)
  /-- SPD_POPULATION_CHECK (R367): The SPD of every DIMM is read and the population checked before training. -/
  | spdPopulationCheck (chans : List Population)
  /-- INITIAL_TRAINING_DONE (R400): Initial training and pending row repairs end on every channel, which is P0. -/
  | initialTrainingDone (failed : List RankTrain) (repairs : List Repair)
  /-- TAG_STORE_INIT (R560): The tag store is written INVALID, the dump map cleared and the journal area initialized. -/
  | tagStoreInit
  /-- ROM_GET_FW_INFO (R562): In ROM recovery, Get FW Info reports the firmware slots. -/
  | romGetFwInfo
  /-- ROM_TRANSFER_FW (R562): In ROM recovery, Transfer FW writes either slot and the ROM verifies the image. -/
  | romTransferFw (slot revision : Nat) (verifies : Bool)
  /-- ROM_ACTIVATE_FW (R562): In ROM recovery, Activate FW names the slot to run. -/
  | romActivateFw (slot : Nat)
  /-- ROM_RESET_REQUEST (R562): In ROM recovery, vendor opcode 0xC0FF on the sideband starts a package reset. -/
  | romResetRequest (st : Straps)
  /-- SWG_CHECK_A (R76): A write of SWG_CHECK.CHECK_A starts verification of copy A. -/
  | swgCheckA
  /-- SWG_CHECK_B (R76): A write of SWG_CHECK.CHECK_B starts verification of copy B. -/
  | swgCheckB
  /-- SWG_CHECK_DONE (R76): A running copy check ends and updates its result code. -/
  | swgCheckDone (signatureOk : Bool) (bank : Nat)
  /-- SVC_SLICE_SPARE (R570): SVC_CMD SLICE_SPARE replaces a slice with the spare. -/
  | svcSliceSpare (die slice : Nat)
  /-- SVC_QUAD_SPARE (R571): SVC_CMD QUAD_SPARE moves a port from quad q to quad 16. -/
  | svcQuadSpare (die quad : Nat)
  /-- SVC_RANK_SPARE (R574): SVC_CMD RANK_SPARE starts copying a rank to the spare rank. -/
  | svcRankSpare (die target : Nat)
  /-- SVC_SMITH_SWITCH (R572): SVC_CMD SMITH_SWITCH hands over to the standby Smith core. -/
  | svcSmithSwitch (die : Nat)
  /-- SVC_CMD_UNSUPPORTED (R579): An SVC_CMD with an undefined OP completes with UNSUPPORTED. -/
  | svcCmdUnsupported (die op target : Nat)
  /-- SLICE_PARITY_ERROR (R570): A parity error in a slice's lock table or control state fails the slice and the spare takes over. -/
  | sliceParityError (die slice : Nat)
  /-- SLICE_PROGRESS_TIMEOUT (R570): An admitted request makes no progress for 50 µs without a recorded wait and the slice has failed. -/
  | sliceProgressTimeout (die slice : Nat)
  /-- QUAD_TRAIN_FAILURE (R571): A port's link fails twice within 10 s to train at width and quad 16 is brought in. -/
  | quadTrainFailure (die quad : Nat)
  /-- SMITH_WATCHDOG (R572): The active Smith core's watchdog is not serviced for 10 ms and the standby takes over. -/
  | smithWatchdog (die : Nat)
  /-- SMITH_MEMORY_UE (R572): An uncorrectable error in the active Smith core's memory switches to the standby. -/
  | smithMemoryUe (die : Nat)
  /-- RANK_COPY_DONE (R574): The rank copy ends and the mapping switches to the spare rank. -/
  | rankCopyDone (die chan : Nat)
  /-- VDD_CONTROL (R577): Every 1 ms the die reads its ring oscillators and sets the VDD_CORE setpoint over AVSBus. -/
  | vddControl (die lowest island : Nat) (ack : Bool)
  /-- LIFE_TICK (R578): Each second the die's temperature-weighted seconds accumulate. -/
  | lifeTick (die : Nat) (tj : Int)
  /-- LIFE_RECORD (R578): Every 15 min a LIFE record is programmed in the counter rings. -/
  | lifeRecord
  /-- HCB_CMD_GO (R587): A write of HCB_CMD GO issues a maintenance request to the Hearth's subtree. -/
  | hcbCmdGo (bar2 : Bool) (hearth count op : Nat) (discard : Bool)
  /-- BAR2_BAD_ACCESS (R584): A BAR2 access that is not 32 or 64 bits and naturally aligned completes as Unsupported Request. -/
  | bar2BadAccess (die port : Nat) (write : Bool) (offset width : Nat)
  /-- REGISTER_WRITE (R8): A write to a register with no behaviour of its own updates its writable fields by type and range. -/
  | registerWrite (bar2 : Bool) (offset width value : Nat)
  /-- VDD_AON_FALL (R606): VDD_AON falls through 2.90 V and Bellows POR asserts, stopping the Bellows die and cutting off any Temper store operation in progress. -/
  | vddAonFall (group : Nat)
  /-- WELD_LINK_TRAINED (R304): A Weld link finishes PCIe 6.1 training and starts sending its hello block in the clear. -/
  | weldLinkTrained (die link width rate : Nat) (spareQuad : Bool)
  /-- CHAN_COMMAND_ISSUE (R374): At a command slot the channel scheduler issues the next legal command (ACT, RD, WR, refresh, PRE, SRX) by the priority rules. -/
  | chanCommandIssue (die chan : Nat) (illegal : List Nat) (maintenance : Bool) (pressure : Nat)
  /-- MIRROR_ACK_BATCH_TIMER (R326): The 200 ns batching interval of pending MIRROR_ACK runs out and the batch is sent. -/
  | mirrorAckBatchTimer (die : Nat)
  /-- NVME_LINK_DOWN (R357): An NVMe root port link goes down, starting the 1 s count toward FAILED. -/
  | nvmeLinkDown (die port : Nat)
  /-- NVME_CONTROLLER_FATAL (R357): The drive sets CSTS.CFS and every namespace of the controller becomes FAILED with cause 14. -/
  | nvmeControllerFatal (die port : Nat)
  /-- NVME_CONTROLLER_READY (R342): During attach CSTS.RDY becomes 1, or min(CAP.TO, 30 s) expires and the namespaces are REFUSED with cause 1. -/
  | nvmeControllerReady (die port : Nat) (ready cssOk pageOk : Bool)
  /-- NVME_ATTACH_LINK_TIMEOUT (R342): An attach started by ATTACH finds the root port link untrained after 1 s and refuses the namespaces with cause 13. -/
  | nvmeAttachLinkTimeout (die port : Nat)
  /-- INITIATE_DC_ADD (R109): The fabric manager asks to add Dynamic Capacity; the extent's slabs are discarded and zeroed, then the extent is offered to a host. -/
  | initiateDcAdd (regionStart regionSize block host start size : Nat)
  /-- GFAM_ACCESS_TABLE_SET (R80): The fabric manager enables or disables source port IDs in a GFAM port's 1,024-entry access table. -/
  | gfamAccessTableSet (die port spid : Nat) (enable : Bool)
  /-- QUENCH_NAND_DIE_READY (R233): A NAND die whose erase was aborted by RESET, or whose scratch program was running at T0, reports ready and joins the quench round-robin. -/
  | quenchNandDieReady (die chan nand : Nat)
  /-- DRBG_HEALTH_PASS (R537): The entropy source passes its health tests again and keys may be drawn. -/
  | drbgHealthPass
  deriving DecidableEq, Repr

end Sys2Proof
end

