-- ==== Sys2Proof/Decode.lean ====
section
/-! DEFINITION. The command that a word spells by the bits of the opcode table. The table gives bits to no row: the block's commands are
accesses, messages and events, and none of them is a word. -/

namespace Sys2Proof

/-- No word spells a command of this block. -/
def decodeTableWord (_nbits _w : Nat) : Option Instr := none

end Sys2Proof
end

