-- ==== Sys2Proof/Config.lean ====
section
/-! DEFINITION. What the manual leaves open and the model leaves open too: constants without a body. No proof can see what
they are, so a claim that holds, holds for every value of them. -/

namespace Sys2Proof.Config

/-- The free value of a number of draws (assumption 3): a result that the manual calls undefined or random is this constant
applied to Dev.free, which then advances. It is used cut to the width of what it fills. -/
opaque freeValue : Nat → Nat

/-- The check bits of the SECDED 72/64 code for a word that is not erased (R465): the manual does not give the code. -/
opaque secded : BitVec 64 → BitVec 8

/-- XTS-AES encryption of a slab's sector under a key: key, slab index, sector, data (R353); the cipher is outside the manual. -/
opaque xtsEncrypt : Nat → Nat → Nat → Line → Line

/-- XTS-AES decryption of a slab's sector under a key (R353). -/
opaque xtsDecrypt : Nat → Nat → Nat → Line → Line

/-- MAP_DIGEST of JOIN (R320): a hash over the DRAMMAP value and the WELD region entries, given as their fields. -/
opaque mapDigest : List Nat → Nat

/-- KEY_CHECK of a backing key pair (R355): the cipher is outside the manual. -/
opaque keyCheck : Nat → Nat

/-- BACKING_DIGEST (R344): the first 16 bytes of a SHA-384 over the BACKING section, given as its fields. -/
opaque backingDigest : List Nat → Nat

/-- AES-256-KW of a key under a wrapping key (R538, R539): the cipher is outside the manual. -/
opaque kwWrap : Nat → Nat → Nat

/-- SHA-384 of an item that the manual does not give the bytes of, by its number (R525, R530): measurements and certificates. -/
opaque measure : Nat → Nat

/-- SHA-384 over an image without its signature (R46), given as the number that its bytes spell and their count. -/
opaque imageHash : Nat → Nat → Nat

/-- BINDING, an identity or a key as 48 bytes of SHA-384 (R526, R528): a hash of a number. -/
opaque hash384 : Nat → Nat

/-- The certificate chain of an identity, as its length and its bytes from an offset (R527): X.509 lies outside the manual. -/
opaque certLen : Nat → Nat
opaque certBytes : Nat → Nat → Nat → Nat

/-- First 8 bytes of SHA-384 over the identity public key of a die or of the Bellows Hearth, by its Hearth ID (R585). -/
opaque keyId : Nat → Nat

end Sys2Proof.Config
end

