-- ==== Sys2Proof/Machine/Regs.lean ====
section
/-! DEFINITION. The register names of the whole register map (Reg), one per register of the spec's register
tables; every field of them (Fld, written REGISTER.FIELD as R6 writes it) with its bits, access type (R8) and the reset value
its table gives. A register the spec indexes (a port, a string, a rank) is one name here; the index is part of RegKey.
Machine/Ops.lean reads and writes them. -/

namespace Sys2Proof.Machine

/-- The registers of the register map (R75 to R593), in the manual's spelling with the index letters left out. -/
inductive Reg
  | SWG_STATUS
  | SWG_SERIAL
  | SWG_CHECK
  | SWG_HASH
  | SWG_MAP_MASK
  | FAB_PORT_STATUS
  | FAB_PORT_REFUSED
  | FAB_PORT_CREDITS
  | FAB_AUTH_COUNT
  | FAB_DSC
  | FAB_SHUTDOWN_STATE
  | FAB_UNMAPPED_COUNT
  | FAB_BI_RESET
  | CRUC_MODE
  | CRUC_DIRTY_SECTORS
  | CRUC_SWEEP
  | CRUC_DESTAGE_CTRL
  | CRUC_POISONED_SLABS
  | CRUC_PINNED_SLABS
  | CRUC_POISON_PARTIAL
  | CRUC_MAINT_DPA
  | CRUC_MAINT_CTRL
  | CRUC_MAINT_STATUS
  | CRUC_MAINT_DONE
  | CRUC_MAINT_FAIL_DPA
  | CRUC_SLICE_STATUS
  | CRUC_READ_HITS
  | CRUC_READ_MISSES
  | CRUC_WRITE_HITS
  | CRUC_WRITE_MISSES
  | CRUC_TAGC_MISSES
  | CRUC_SET_STALLS
  | CRUC_TAG_CORRECTED
  | CRUC_TAG_ERRORS
  | CRUC_DIRTY_SECTORS_SLICE
  | CRUC_UNCACHED
  | HEAT_CURRENT
  | HEAT_CTRL
  | HEAT_STATUS
  | HEAT_SYNC_IGNORED
  | HEAT_SYNC_MISSED
  | HEAT_WRAP
  | HEAT_RESERVATION
  | HEAT_JRNL_OLDEST
  | HEAT_JRNL_STATUS
  | HEAT_JRNL_PAGES
  | HEAT_JRNL_FREE
  | HEAT_JRNL_CTRL
  | HEAT_JRNL_RETAINED
  | HEAT_JRNL_CARRIED
  | CEIL_C
  | CEIL_C_ENERGY
  | CEIL_C_MEDIA
  | CEIL_C_TIME
  | CEIL_C_CAP
  | CEIL_W
  | CEIL_W_LIMIT
  | CEIL_DIRTY_SLABS
  | CEIL_STATUS
  | CEIL_E_BYTE
  | CEIL_RATE
  | CEIL_E_USABLE
  | CEIL_DRY_CTRL
  | CEIL_DRY_E_MEAS
  | CEIL_DRY_R_MEAS
  | CEIL_DRY_AGE
  | CEIL_OVER_COUNT
  | CEIL_OVER_MS
  | CEIL_WT_WRITES
  | QNCH_TRIG_CTRL
  | QNCH_STATUS
  | QNCH_LAST_GEN
  | QNCH_LAST_MS
  | QNCH_LAST_BYTES
  | QNCH_LAST_HEAT
  | QNCH_NEXT_GEN
  | QNCH_IGNORED
  | QNCH_RING_SEQ
  | QNCH_DIE_STATUS
  | QNCH_DIE_SHARE
  | QNCH_DIE_W
  | QNCH_DIE_SEGMENTS
  | QNCH_DIE_REWRITTEN
  | QNCH_GATE_ACCEPTED
  | QNCH_FENCE_ACCEPTED
  | RHT_STATUS
  | RHT_CTRL
  | RHT_GENERATION
  | RHT_SEGMENTS
  | RHT_RETIRED
  | RHT_PENDING
  | RHT_TWIN_SLABS
  | RHT_LOST_SLABS
  | RHT_DEMANDS
  | RHT_REGION_STATUS
  | RHT_REGION_EPOCH
  | RHT_REGION_CTRL
  | RHT_RESYNC_LEFT
  | RHT_DIE_STATUS
  | WELD_LINK_STATUS
  | WELD_LINK_CTRL
  | WELD_TX_COUNTER
  | WELD_FRAMES_SENT
  | WELD_FRAMES_RECEIVED
  | WELD_RESENT
  | WELD_AUTH_FAILS
  | WELD_LOSSES
  | WELD_KEY_ROLLS
  | WELD_DIE_STATUS
  | WELD_STRAY
  | WELD_FETCHES
  | WELD_FETCH_FAILS
  | WELD_PAIR_STATUS
  | WELD_TWIN_HEAT
  | WELD_ACKED_HEAT
  | WELD_HEAT_CATCHUP
  | WELD_PROMOTE_US
  | BACK_CTRL
  | BACK_STATUS
  | BACK_STRANDED_SLABS
  | BACK_KEY_CHECK
  | BACK_DIGEST
  | BACK_NS_STATUS
  | BACK_NS_CTRL
  | BACK_NS_ERRORS
  | BACK_NS_STRANDED
  | BACK_PORT_STATUS
  | BACK_PORT_READS
  | BACK_PORT_WRITES
  | BACK_PORT_RETRIES
  | BACK_PORT_TIMEOUTS
  | BACK_PORT_RESETS
  | BACK_PORT_OUTSTANDING
  | CHAN_STATUS
  | CHAN_CTRL
  | CHAN_REF_CTRL
  | CHAN_RH_CTRL
  | CHAN_RH_THRESHOLD
  | CHAN_RH_COOLDOWN
  | CHAN_SR_IDLE
  | CHAN_SCRUB_CTRL
  | CHAN_SCRUB_POS
  | CHAN_CE_LIMIT
  | CHAN_THROTTLED
  | CHAN_LOG_HEAD
  | CHAN_CE
  | CHAN_UE
  | CHAN_CA_RETRIES
  | CHAN_CA_FAILS
  | CHAN_RH_TRIGGERS
  | CHAN_RFM
  | CHAN_URGENT
  | CHAN_PANIC
  | CHAN_FREEZES
  | CHAN_RANK_STATUS
  | CHAN_RANK_CE_INT
  | CHAN_RANK_CE
  | CHAN_DEVICE_CE
  | TRN_CTRL
  | TRN_STATUS
  | TRN_PAT_CTRL
  | TRN_PAT_SEED
  | TRN_PAT_FIXED
  | TRN_CMP_MASK0
  | TRN_CMP_MASK1
  | TRN_SCAN_CTRL
  | TRN_SCAN_BURSTS
  | TRN_MIN_MARGIN
  | TRN_RETRAIN_CTRL
  | TRN_CYCLES
  | TRN_CYCLE_FAILS
  | TRN_RANK
  | TRN_ERR_COUNT
  | TRN_EYE
  | TRN_VSWEEP
  | QFL_CHAN_STATUS
  | QFL_CHAN_READY
  | QFL_CHAN_STALE
  | QFL_CHAN_RETIRED
  | QFL_ECC_CTRL
  | QFL_PE_LIMIT
  | QFL_Q_TAIL
  | QFL_Q_HEAD
  | QFL_CQ_HEAD
  | QFL_CQ_TAIL
  | QFL_NAND_STATUS
  | QFL_DESC
  | QFL_CPL
  | QFL_B_ERASED
  | QFL_B_DIE
  | QFL_PKG_STATUS
  | QFL_ERASE_BACKLOG
  | BELL_SUPPLY_STATUS
  | BELL_AON_CTRL
  | BELL_LEARN_STATUS
  | BELL_LEARN_CTRL
  | BELL_CAL_CTRL
  | BELL_LIFE_S
  | BELL_JOURNAL_SEQ
  | BELL_STR_STATUS
  | BELL_STR_CTRL
  | BELL_STR_V
  | BELL_STR_I
  | BELL_STR_TEMP
  | BELL_STR_R_EST
  | BELL_STR_Q_RAW
  | BELL_STR_Q_REP
  | BELL_STR_CAP
  | BELL_STR_THRU
  | BELL_STR_E
  | BELL_STR_FEC
  | TMP_STATUS
  | TMP_CTRL
  | TMP_SPARES_FREE
  | TMP_REMAPPED
  | TMP_CORRECTED
  | TMP_UNCORRECTABLE
  | TMP_SCRUBS
  | TMP_PATROL_POS
  | TMP_PATROL_PASSES
  | TMP_DENIED
  | TMP_Q_TAIL
  | TMP_Q_HEAD
  | TMP_CQ_HEAD
  | TMP_CQ_TAIL
  | TMP_DESC
  | TMP_CPL
  | POOL_FREE
  | POOL_ALLOC
  | POOL_PENDING
  | POOL_EMPTY
  | POOL_BASE
  | POOL_QUARANTINE
  | POOL_VIOL_LIMIT
  | POOL_VIOLATIONS
  | POOL_HELD
  | POOL_CMD
  | POOL_CMD_HANDLE
  | POOL_CMD_STATUS
  | POOL_BELLOWS_FREE
  | EVT_WIN_SEQ
  | EVT_WIN_STATUS
  | EVT_WIN_NEXT
  | EVT_WIN_RECORD
  | EVT_STATUS
  | EVT_NEXT_SEQ
  | EVT_RESERVATION
  | EVT_PV_BASE
  | EVT_PV_COUNT
  | EVT_UNSEQ
  | EVT_SUPPRESSED
  | EVT_PV_OVF
  | EVT_PV_OVF_LAST
  | EVT_LEAF_STATUS
  | EVT_LEAF_DROPPED
  | EVT_LEAF_FIRST
  | EVT_DROP
  | SEC_STATUS
  | SEC_ALARM_CAUSE
  | SEC_POLICY
  | SEC_INGOT_ROLES
  | SEC_DRBG_STATUS
  | SEC_SLOT
  | SEC_SLOT_USERS
  | RST_STATUS
  | RST_NQ_LEFT
  | RST_WARM_COUNT
  | RST_DIE_OUT
  | RST_GLITCHES
  | RST_STEP_MS
  | SVC_LIFE
  | SVC_SPARE_STATUS
  | SVC_CTRL
  | SVC_WEIGHTED_S
  | SVC_PPR_LOST
  | SVC_DIE_STATUS
  | SVC_VDD
  | SVC_SRAM
  | SVC_D2D_RETRAINS
  | SVC_CMD
  | SVC_CMD_STATUS
  | SVC_RANK_COPY
  | HCB_ID
  | HCB_PART
  | HCB_UNIT_BASE
  | HCB_UNIT_SIZE
  | HCB_CAP0
  | HCB_CAP1
  | HCB_FRAME_BYTES
  | HCB_KEY_ID
  | HCB_CERT_SEL
  | HCB_CERT_LEN
  | HCB_CERT_DATA
  | HCB_STATUS
  | HCB_TJ
  | HCB_LIFE
  | HCB_CMD_DPA
  | HCB_CMD
  | HCB_CMD_STATUS
  | HCB_CMD_DONE
  | HCB_CMD_FAIL_DPA
  | SLAG_COUNT
  | SLAG_ENTRY
  | HCB_CHILD_COUNT
  | HCB_CHILDREN
  | HCB_POOL_FREE
  | HCB_POOL_ALLOC
  | HCB_POOL_PENDING
  | HCB_POOL_EMPTY
  | HCB_POOL_QUARANTINED
  | ROOT_STATUS
  | ROOT_RWL_IGNORED
  | SEC_LINK_STATUS
  | BELL_STR_SERIAL
  deriving DecidableEq, Repr

/-- The access types of R8. -/
inductive Access
  | RO | RW | W1C | WO | RWS | RWL
  deriving DecidableEq, Repr

/-- A field of a register: its lowest bit and its width (R6). -/
structure Fld where
  reg : Reg
  lo : Nat
  width : Nat
  deriving DecidableEq, Repr

/-- A row of a register table: the field, its access type and its reset value; `range` is the range of values a write may
give the field where its description says that another value leaves it unchanged. -/
structure FieldRow where
  fld : Fld
  access : Access
  reset : Nat
  range : Option (Nat × Nat) := none
  deriving DecidableEq, Repr

def SWG_STATUS.ACTIVE_COPY : Fld := ⟨.SWG_STATUS, 0, 1⟩
def SWG_STATUS.SEALED : Fld := ⟨.SWG_STATUS, 1, 1⟩
def SWG_STATUS.NO_IMAGE : Fld := ⟨.SWG_STATUS, 2, 1⟩
def SWG_STATUS.PARTIAL_ACTIVE : Fld := ⟨.SWG_STATUS, 3, 1⟩
def SWG_STATUS.RESULT_A : Fld := ⟨.SWG_STATUS, 4, 4⟩
def SWG_STATUS.RESULT_B : Fld := ⟨.SWG_STATUS, 8, 4⟩
def SWG_STATUS.PARTIAL_SEQ : Fld := ⟨.SWG_STATUS, 16, 16⟩
def SWG_SERIAL.SERIAL : Fld := ⟨.SWG_SERIAL, 0, 32⟩
def SWG_CHECK.CHECK_A : Fld := ⟨.SWG_CHECK, 0, 1⟩
def SWG_CHECK.CHECK_B : Fld := ⟨.SWG_CHECK, 1, 1⟩
def SWG_CHECK.CHECK_BUSY : Fld := ⟨.SWG_CHECK, 2, 1⟩
def SWG_HASH.HASH : Fld := ⟨.SWG_HASH, 0, 32⟩
def SWG_MAP_MASK.MASK : Fld := ⟨.SWG_MAP_MASK, 0, 48⟩
def FAB_PORT_STATUS.LINK_UP : Fld := ⟨.FAB_PORT_STATUS, 0, 1⟩
def FAB_PORT_STATUS.WIDTH : Fld := ⟨.FAB_PORT_STATUS, 1, 5⟩
def FAB_PORT_STATUS.RATE : Fld := ⟨.FAB_PORT_STATUS, 6, 3⟩
def FAB_PORT_STATUS.MODE : Fld := ⟨.FAB_PORT_STATUS, 9, 2⟩
def FAB_PORT_STATUS.CFG_READY : Fld := ⟨.FAB_PORT_STATUS, 11, 1⟩
def FAB_PORT_STATUS.MEM_ACTIVE : Fld := ⟨.FAB_PORT_STATUS, 12, 1⟩
def FAB_PORT_STATUS.DEVLOAD : Fld := ⟨.FAB_PORT_STATUS, 13, 2⟩
def FAB_PORT_STATUS.IDE_SECURE : Fld := ⟨.FAB_PORT_STATUS, 15, 1⟩
def FAB_PORT_STATUS.IDE_FAIL : Fld := ⟨.FAB_PORT_STATUS, 16, 1⟩
def FAB_PORT_STATUS.GATE_CLOSED : Fld := ⟨.FAB_PORT_STATUS, 17, 1⟩
def FAB_PORT_REFUSED.COUNT : Fld := ⟨.FAB_PORT_REFUSED, 0, 32⟩
def FAB_PORT_CREDITS.REQ_FREE : Fld := ⟨.FAB_PORT_CREDITS, 0, 16⟩
def FAB_PORT_CREDITS.RWD_FREE : Fld := ⟨.FAB_PORT_CREDITS, 16, 16⟩
def FAB_AUTH_COUNT.COUNT : Fld := ⟨.FAB_AUTH_COUNT, 0, 32⟩
def FAB_DSC.COUNT : Fld := ⟨.FAB_DSC, 0, 32⟩
def FAB_SHUTDOWN_STATE.DIRTY : Fld := ⟨.FAB_SHUTDOWN_STATE, 0, 1⟩
def FAB_UNMAPPED_COUNT.COUNT : Fld := ⟨.FAB_UNMAPPED_COUNT, 0, 64⟩
def FAB_BI_RESET.REGION : Fld := ⟨.FAB_BI_RESET, 0, 16⟩
def CRUC_MODE.CURRENT : Fld := ⟨.CRUC_MODE, 0, 3⟩
def CRUC_MODE.TARGET : Fld := ⟨.CRUC_MODE, 4, 3⟩
def CRUC_MODE.REQUEST : Fld := ⟨.CRUC_MODE, 8, 2⟩
def CRUC_MODE.REQ_VALID : Fld := ⟨.CRUC_MODE, 15, 1⟩
def CRUC_MODE.GENERATION : Fld := ⟨.CRUC_MODE, 16, 4⟩
def CRUC_MODE.DRAIN_BLOCKED : Fld := ⟨.CRUC_MODE, 20, 1⟩
def CRUC_MODE.REQ_REFUSED : Fld := ⟨.CRUC_MODE, 21, 1⟩
def CRUC_DIRTY_SECTORS.COUNT : Fld := ⟨.CRUC_DIRTY_SECTORS, 0, 64⟩
def CRUC_SWEEP.PERMILLE : Fld := ⟨.CRUC_SWEEP, 0, 10⟩
def CRUC_DESTAGE_CTRL.START_PCT : Fld := ⟨.CRUC_DESTAGE_CTRL, 0, 8⟩
def CRUC_DESTAGE_CTRL.STOP_PCT : Fld := ⟨.CRUC_DESTAGE_CTRL, 8, 8⟩
def CRUC_DESTAGE_CTRL.IDLE_MS : Fld := ⟨.CRUC_DESTAGE_CTRL, 16, 16⟩
def CRUC_POISONED_SLABS.COUNT : Fld := ⟨.CRUC_POISONED_SLABS, 0, 32⟩
def CRUC_PINNED_SLABS.COUNT : Fld := ⟨.CRUC_PINNED_SLABS, 0, 32⟩
def CRUC_POISON_PARTIAL.COUNT : Fld := ⟨.CRUC_POISON_PARTIAL, 0, 32⟩
def CRUC_MAINT_DPA.SLAB : Fld := ⟨.CRUC_MAINT_DPA, 12, 40⟩
def CRUC_MAINT_CTRL.COUNT : Fld := ⟨.CRUC_MAINT_CTRL, 0, 17⟩
def CRUC_MAINT_CTRL.OP : Fld := ⟨.CRUC_MAINT_CTRL, 17, 3⟩
def CRUC_MAINT_CTRL.DISCARD : Fld := ⟨.CRUC_MAINT_CTRL, 20, 1⟩
def CRUC_MAINT_CTRL.GO : Fld := ⟨.CRUC_MAINT_CTRL, 31, 1⟩
def CRUC_MAINT_STATUS.BUSY : Fld := ⟨.CRUC_MAINT_STATUS, 0, 1⟩
def CRUC_MAINT_STATUS.DONE : Fld := ⟨.CRUC_MAINT_STATUS, 1, 1⟩
def CRUC_MAINT_STATUS.STATUS : Fld := ⟨.CRUC_MAINT_STATUS, 8, 8⟩
def CRUC_MAINT_DONE.SLABS_DONE : Fld := ⟨.CRUC_MAINT_DONE, 0, 32⟩
def CRUC_MAINT_FAIL_DPA.DPA : Fld := ⟨.CRUC_MAINT_FAIL_DPA, 0, 64⟩
def CRUC_SLICE_STATUS.LOCKS_HELD : Fld := ⟨.CRUC_SLICE_STATUS, 0, 12⟩
def CRUC_SLICE_STATUS.LOCK_FULL : Fld := ⟨.CRUC_SLICE_STATUS, 12, 1⟩
def CRUC_SLICE_STATUS.SET_BLOCKED : Fld := ⟨.CRUC_SLICE_STATUS, 13, 1⟩
def CRUC_SLICE_STATUS.REBUILDING : Fld := ⟨.CRUC_SLICE_STATUS, 14, 1⟩
def CRUC_READ_HITS.COUNT : Fld := ⟨.CRUC_READ_HITS, 0, 64⟩
def CRUC_READ_MISSES.COUNT : Fld := ⟨.CRUC_READ_MISSES, 0, 64⟩
def CRUC_WRITE_HITS.COUNT : Fld := ⟨.CRUC_WRITE_HITS, 0, 64⟩
def CRUC_WRITE_MISSES.COUNT : Fld := ⟨.CRUC_WRITE_MISSES, 0, 64⟩
def CRUC_TAGC_MISSES.COUNT : Fld := ⟨.CRUC_TAGC_MISSES, 0, 64⟩
def CRUC_SET_STALLS.COUNT : Fld := ⟨.CRUC_SET_STALLS, 0, 64⟩
def CRUC_TAG_CORRECTED.COUNT : Fld := ⟨.CRUC_TAG_CORRECTED, 0, 64⟩
def CRUC_TAG_ERRORS.COUNT : Fld := ⟨.CRUC_TAG_ERRORS, 0, 64⟩
def CRUC_DIRTY_SECTORS_SLICE.COUNT : Fld := ⟨.CRUC_DIRTY_SECTORS_SLICE, 0, 64⟩
def CRUC_UNCACHED.COUNT : Fld := ⟨.CRUC_UNCACHED, 0, 64⟩
def HEAT_CURRENT.HEAT : Fld := ⟨.HEAT_CURRENT, 0, 64⟩
def HEAT_CTRL.LENGTH_US : Fld := ⟨.HEAT_CTRL, 0, 20⟩
def HEAT_CTRL.SYNC_EN : Fld := ⟨.HEAT_CTRL, 20, 1⟩
def HEAT_CTRL.SYNC_OUT_EN : Fld := ⟨.HEAT_CTRL, 21, 1⟩
def HEAT_CTRL.CLOSE_NOW : Fld := ⟨.HEAT_CTRL, 22, 1⟩
def HEAT_STATUS.LOCKED : Fld := ⟨.HEAT_STATUS, 0, 1⟩
def HEAT_STATUS.CLOSE_DEFERRED : Fld := ⟨.HEAT_STATUS, 1, 1⟩
def HEAT_STATUS.CTRL_REFUSED : Fld := ⟨.HEAT_STATUS, 2, 1⟩
def HEAT_STATUS.JOURNAL_STALL : Fld := ⟨.HEAT_STATUS, 3, 1⟩
def HEAT_STATUS.RETAINING : Fld := ⟨.HEAT_STATUS, 4, 1⟩
def HEAT_SYNC_IGNORED.COUNT : Fld := ⟨.HEAT_SYNC_IGNORED, 0, 32⟩
def HEAT_SYNC_MISSED.COUNT : Fld := ⟨.HEAT_SYNC_MISSED, 0, 32⟩
def HEAT_WRAP.LEFT : Fld := ⟨.HEAT_WRAP, 0, 32⟩
def HEAT_RESERVATION.R : Fld := ⟨.HEAT_RESERVATION, 0, 64⟩
def HEAT_JRNL_OLDEST.HEAT : Fld := ⟨.HEAT_JRNL_OLDEST, 0, 64⟩
def HEAT_JRNL_STATUS.ENTRIES : Fld := ⟨.HEAT_JRNL_STATUS, 0, 11⟩
def HEAT_JRNL_STATUS.COMPACTING : Fld := ⟨.HEAT_JRNL_STATUS, 11, 1⟩
def HEAT_JRNL_STATUS.PANIC : Fld := ⟨.HEAT_JRNL_STATUS, 12, 1⟩
def HEAT_JRNL_STATUS.TAG_WALK : Fld := ⟨.HEAT_JRNL_STATUS, 13, 1⟩
def HEAT_JRNL_PAGES.TOTAL : Fld := ⟨.HEAT_JRNL_PAGES, 0, 32⟩
def HEAT_JRNL_FREE.PAGES : Fld := ⟨.HEAT_JRNL_FREE, 0, 32⟩
def HEAT_JRNL_CTRL.DIR_TARGET : Fld := ⟨.HEAT_JRNL_CTRL, 0, 11⟩
def HEAT_JRNL_CTRL.FREE_TARGET : Fld := ⟨.HEAT_JRNL_CTRL, 11, 7⟩
def HEAT_JRNL_RETAINED.RECORDS : Fld := ⟨.HEAT_JRNL_RETAINED, 0, 32⟩
def HEAT_JRNL_CARRIED.COUNT : Fld := ⟨.HEAT_JRNL_CARRIED, 0, 64⟩
def CEIL_C.C : Fld := ⟨.CEIL_C, 0, 64⟩
def CEIL_C_ENERGY.VALUE : Fld := ⟨.CEIL_C_ENERGY, 0, 64⟩
def CEIL_C_MEDIA.VALUE : Fld := ⟨.CEIL_C_MEDIA, 0, 64⟩
def CEIL_C_TIME.VALUE : Fld := ⟨.CEIL_C_TIME, 0, 64⟩
def CEIL_C_CAP.VALUE : Fld := ⟨.CEIL_C_CAP, 0, 64⟩
def CEIL_W.W : Fld := ⟨.CEIL_W, 0, 64⟩
def CEIL_W_LIMIT.W_LIM : Fld := ⟨.CEIL_W_LIMIT, 0, 64⟩
def CEIL_DIRTY_SLABS.S_D : Fld := ⟨.CEIL_DIRTY_SLABS, 0, 64⟩
def CEIL_STATUS.STATE : Fld := ⟨.CEIL_STATUS, 0, 2⟩
def CEIL_STATUS.BINDING : Fld := ⟨.CEIL_STATUS, 2, 3⟩
def CEIL_STATUS.DRY_RUNNING : Fld := ⟨.CEIL_STATUS, 5, 1⟩
def CEIL_STATUS.DRY_STALE : Fld := ⟨.CEIL_STATUS, 6, 1⟩
def CEIL_STATUS.DEFAULTS : Fld := ⟨.CEIL_STATUS, 7, 1⟩
def CEIL_E_BYTE.PJ : Fld := ⟨.CEIL_E_BYTE, 0, 32⟩
def CEIL_RATE.MBPS : Fld := ⟨.CEIL_RATE, 0, 32⟩
def CEIL_E_USABLE.J : Fld := ⟨.CEIL_E_USABLE, 0, 32⟩
def CEIL_DRY_CTRL.AUTO_EN : Fld := ⟨.CEIL_DRY_CTRL, 0, 1⟩
def CEIL_DRY_CTRL.AUTO_MIB : Fld := ⟨.CEIL_DRY_CTRL, 8, 24⟩
def CEIL_DRY_E_MEAS.PJ : Fld := ⟨.CEIL_DRY_E_MEAS, 0, 32⟩
def CEIL_DRY_R_MEAS.MBPS : Fld := ⟨.CEIL_DRY_R_MEAS, 0, 32⟩
def CEIL_DRY_AGE.S : Fld := ⟨.CEIL_DRY_AGE, 0, 32⟩
def CEIL_OVER_COUNT.COUNT : Fld := ⟨.CEIL_OVER_COUNT, 0, 32⟩
def CEIL_OVER_MS.MS : Fld := ⟨.CEIL_OVER_MS, 0, 32⟩
def CEIL_WT_WRITES.COUNT : Fld := ⟨.CEIL_WT_WRITES, 0, 64⟩
def QNCH_TRIG_CTRL.MAIN_THRESH : Fld := ⟨.QNCH_TRIG_CTRL, 0, 8⟩
def QNCH_TRIG_CTRL.HOLD_THRESH : Fld := ⟨.QNCH_TRIG_CTRL, 8, 8⟩
def QNCH_TRIG_CTRL.MAIN_FILTER : Fld := ⟨.QNCH_TRIG_CTRL, 16, 3⟩
def QNCH_TRIG_CTRL.HOLD_FILTER : Fld := ⟨.QNCH_TRIG_CTRL, 19, 3⟩
def QNCH_TRIG_CTRL.PFN_FILTER : Fld := ⟨.QNCH_TRIG_CTRL, 22, 3⟩
def QNCH_TRIG_CTRL.MAIN_EN : Fld := ⟨.QNCH_TRIG_CTRL, 25, 1⟩
def QNCH_TRIG_CTRL.HOLD_EN : Fld := ⟨.QNCH_TRIG_CTRL, 26, 1⟩
def QNCH_TRIG_CTRL.PFN_EN : Fld := ⟨.QNCH_TRIG_CTRL, 27, 1⟩
def QNCH_TRIG_CTRL.LOCK : Fld := ⟨.QNCH_TRIG_CTRL, 31, 1⟩
def QNCH_STATUS.LAST_CAUSE : Fld := ⟨.QNCH_STATUS, 0, 3⟩
def QNCH_STATUS.LAST_COMMITTED : Fld := ⟨.QNCH_STATUS, 3, 1⟩
def QNCH_STATUS.LAST_EMPTY : Fld := ⟨.QNCH_STATUS, 4, 1⟩
def QNCH_STATUS.LAST_CHAINED : Fld := ⟨.QNCH_STATUS, 5, 1⟩
def QNCH_STATUS.LAST_PACKAGE_MODE : Fld := ⟨.QNCH_STATUS, 6, 1⟩
def QNCH_STATUS.LAST_TAG_WALK : Fld := ⟨.QNCH_STATUS, 7, 1⟩
def QNCH_STATUS.LAST_SANITIZE : Fld := ⟨.QNCH_STATUS, 8, 1⟩
def QNCH_STATUS.CLAIMED : Fld := ⟨.QNCH_STATUS, 9, 1⟩
def QNCH_LAST_GEN.GENERATION : Fld := ⟨.QNCH_LAST_GEN, 0, 32⟩
def QNCH_LAST_MS.MS : Fld := ⟨.QNCH_LAST_MS, 0, 32⟩
def QNCH_LAST_BYTES.BYTES : Fld := ⟨.QNCH_LAST_BYTES, 0, 64⟩
def QNCH_LAST_HEAT.HEAT : Fld := ⟨.QNCH_LAST_HEAT, 0, 64⟩
def QNCH_NEXT_GEN.GENERATION : Fld := ⟨.QNCH_NEXT_GEN, 0, 32⟩
def QNCH_IGNORED.COUNT : Fld := ⟨.QNCH_IGNORED, 0, 32⟩
def QNCH_RING_SEQ.SEQ : Fld := ⟨.QNCH_RING_SEQ, 0, 64⟩
def QNCH_DIE_STATUS.SHARE_FULL : Fld := ⟨.QNCH_DIE_STATUS, 0, 1⟩
def QNCH_DIE_STATUS.CHAN_LOST : Fld := ⟨.QNCH_DIE_STATUS, 8, 8⟩
def QNCH_DIE_SHARE.W_D : Fld := ⟨.QNCH_DIE_SHARE, 0, 64⟩
def QNCH_DIE_W.W : Fld := ⟨.QNCH_DIE_W, 0, 64⟩
def QNCH_DIE_SEGMENTS.COUNT : Fld := ⟨.QNCH_DIE_SEGMENTS, 0, 32⟩
def QNCH_DIE_REWRITTEN.COUNT : Fld := ⟨.QNCH_DIE_REWRITTEN, 0, 32⟩
def QNCH_GATE_ACCEPTED.COUNT : Fld := ⟨.QNCH_GATE_ACCEPTED, 0, 64⟩
def QNCH_FENCE_ACCEPTED.COUNT : Fld := ⟨.QNCH_FENCE_ACCEPTED, 0, 64⟩
def RHT_STATUS.PHASE : Fld := ⟨.RHT_STATUS, 0, 4⟩
def RHT_STATUS.INGOT : Fld := ⟨.RHT_STATUS, 4, 3⟩
def RHT_STATUS.FORMAT1 : Fld := ⟨.RHT_STATUS, 7, 1⟩
def RHT_STATUS.LAZY : Fld := ⟨.RHT_STATUS, 8, 1⟩
def RHT_STATUS.CHAINED : Fld := ⟨.RHT_STATUS, 9, 1⟩
def RHT_STATUS.REDO : Fld := ⟨.RHT_STATUS, 10, 1⟩
def RHT_STATUS.FOUND_BY_SCAN : Fld := ⟨.RHT_STATUS, 11, 1⟩
def RHT_STATUS.UNNAMED_LOSS : Fld := ⟨.RHT_STATUS, 12, 1⟩
def RHT_CTRL.DISCARD : Fld := ⟨.RHT_CTRL, 0, 1⟩
def RHT_CTRL.BG_PCT : Fld := ⟨.RHT_CTRL, 8, 7⟩
def RHT_GENERATION.GENERATION : Fld := ⟨.RHT_GENERATION, 0, 32⟩
def RHT_SEGMENTS.COUNT : Fld := ⟨.RHT_SEGMENTS, 0, 64⟩
def RHT_RETIRED.COUNT : Fld := ⟨.RHT_RETIRED, 0, 64⟩
def RHT_PENDING.COUNT : Fld := ⟨.RHT_PENDING, 0, 64⟩
def RHT_TWIN_SLABS.COUNT : Fld := ⟨.RHT_TWIN_SLABS, 0, 64⟩
def RHT_LOST_SLABS.COUNT : Fld := ⟨.RHT_LOST_SLABS, 0, 64⟩
def RHT_DEMANDS.COUNT : Fld := ⟨.RHT_DEMANDS, 0, 64⟩
def RHT_REGION_STATUS.ROLE : Fld := ⟨.RHT_REGION_STATUS, 0, 3⟩
def RHT_REGION_STATUS.RESYNC : Fld := ⟨.RHT_REGION_STATUS, 3, 2⟩
def RHT_REGION_STATUS.CONFLICT : Fld := ⟨.RHT_REGION_STATUS, 5, 1⟩
def RHT_REGION_STATUS.RECLAIM_READY : Fld := ⟨.RHT_REGION_STATUS, 6, 1⟩
def RHT_REGION_STATUS.BACKING_HELD : Fld := ⟨.RHT_REGION_STATUS, 7, 1⟩
def RHT_REGION_EPOCH.EPOCH : Fld := ⟨.RHT_REGION_EPOCH, 0, 32⟩
def RHT_REGION_CTRL.FORCE_SOLO : Fld := ⟨.RHT_REGION_CTRL, 0, 1⟩
def RHT_REGION_CTRL.YIELD : Fld := ⟨.RHT_REGION_CTRL, 1, 1⟩
def RHT_REGION_CTRL.RECLAIM : Fld := ⟨.RHT_REGION_CTRL, 2, 1⟩
def RHT_REGION_CTRL.CONFIRM_SOLE : Fld := ⟨.RHT_REGION_CTRL, 3, 1⟩
def RHT_RESYNC_LEFT.SLABS : Fld := ⟨.RHT_RESYNC_LEFT, 0, 32⟩
def RHT_DIE_STATUS.INDEX_DONE : Fld := ⟨.RHT_DIE_STATUS, 0, 1⟩
def RHT_DIE_STATUS.INDEX_PARTIAL : Fld := ⟨.RHT_DIE_STATUS, 1, 1⟩
def RHT_DIE_STATUS.COMPLETE : Fld := ⟨.RHT_DIE_STATUS, 2, 1⟩
def RHT_DIE_STATUS.TRAILER_OK : Fld := ⟨.RHT_DIE_STATUS, 3, 1⟩
def RHT_DIE_STATUS.FENCE_VALID : Fld := ⟨.RHT_DIE_STATUS, 4, 1⟩
def RHT_DIE_STATUS.AUTH_FAILS : Fld := ⟨.RHT_DIE_STATUS, 8, 8⟩
def RHT_DIE_STATUS.DAMAGED : Fld := ⟨.RHT_DIE_STATUS, 16, 8⟩
def WELD_LINK_STATUS.STATE : Fld := ⟨.WELD_LINK_STATUS, 0, 2⟩
def WELD_LINK_STATUS.WIDTH : Fld := ⟨.WELD_LINK_STATUS, 2, 2⟩
def WELD_LINK_STATUS.RATE : Fld := ⟨.WELD_LINK_STATUS, 4, 1⟩
def WELD_LINK_STATUS.VERSION1 : Fld := ⟨.WELD_LINK_STATUS, 5, 1⟩
def WELD_LINK_STATUS.SPARE_QUAD : Fld := ⟨.WELD_LINK_STATUS, 6, 1⟩
def WELD_LINK_STATUS.PEER_DIE : Fld := ⟨.WELD_LINK_STATUS, 7, 4⟩
def WELD_LINK_STATUS.PEER_LINK : Fld := ⟨.WELD_LINK_STATUS, 11, 1⟩
def WELD_LINK_STATUS.ROLL_PENDING : Fld := ⟨.WELD_LINK_STATUS, 12, 1⟩
def WELD_LINK_CTRL.DISABLE : Fld := ⟨.WELD_LINK_CTRL, 0, 1⟩
def WELD_LINK_CTRL.RETRAIN : Fld := ⟨.WELD_LINK_CTRL, 1, 1⟩
def WELD_LINK_CTRL.KEY_ROLL_NOW : Fld := ⟨.WELD_LINK_CTRL, 2, 1⟩
def WELD_TX_COUNTER.COUNT : Fld := ⟨.WELD_TX_COUNTER, 0, 48⟩
def WELD_FRAMES_SENT.COUNT : Fld := ⟨.WELD_FRAMES_SENT, 0, 64⟩
def WELD_FRAMES_RECEIVED.COUNT : Fld := ⟨.WELD_FRAMES_RECEIVED, 0, 64⟩
def WELD_RESENT.COUNT : Fld := ⟨.WELD_RESENT, 0, 64⟩
def WELD_AUTH_FAILS.COUNT : Fld := ⟨.WELD_AUTH_FAILS, 0, 64⟩
def WELD_LOSSES.COUNT : Fld := ⟨.WELD_LOSSES, 0, 32⟩
def WELD_KEY_ROLLS.COUNT : Fld := ⟨.WELD_KEY_ROLLS, 0, 32⟩
def WELD_DIE_STATUS.SYNC_WAITING : Fld := ⟨.WELD_DIE_STATUS, 0, 16⟩
def WELD_DIE_STATUS.TX_QUEUED : Fld := ⟨.WELD_DIE_STATUS, 16, 12⟩
def WELD_DIE_STATUS.REROUTED : Fld := ⟨.WELD_DIE_STATUS, 28, 1⟩
def WELD_STRAY.COUNT : Fld := ⟨.WELD_STRAY, 0, 64⟩
def WELD_FETCHES.COUNT : Fld := ⟨.WELD_FETCHES, 0, 32⟩
def WELD_FETCH_FAILS.COUNT : Fld := ⟨.WELD_FETCH_FAILS, 0, 32⟩
def WELD_PAIR_STATUS.STATE : Fld := ⟨.WELD_PAIR_STATUS, 0, 2⟩
def WELD_PAIR_STATUS.USABLE : Fld := ⟨.WELD_PAIR_STATUS, 2, 5⟩
def WELD_PAIR_STATUS.JOINED : Fld := ⟨.WELD_PAIR_STATUS, 7, 1⟩
def WELD_PAIR_STATUS.LAST_LOSS : Fld := ⟨.WELD_PAIR_STATUS, 8, 3⟩
def WELD_TWIN_HEAT.HEAT : Fld := ⟨.WELD_TWIN_HEAT, 0, 64⟩
def WELD_ACKED_HEAT.HEAT : Fld := ⟨.WELD_ACKED_HEAT, 0, 64⟩
def WELD_HEAT_CATCHUP.COUNT : Fld := ⟨.WELD_HEAT_CATCHUP, 0, 32⟩
def WELD_PROMOTE_US.US : Fld := ⟨.WELD_PROMOTE_US, 0, 32⟩
def BACK_CTRL.IO_TIMEOUT_MS : Fld := ⟨.BACK_CTRL, 0, 16⟩
def BACK_CTRL.AUTO_ATTACH : Fld := ⟨.BACK_CTRL, 16, 1⟩
def BACK_STATUS.ONLINE : Fld := ⟨.BACK_STATUS, 0, 9⟩
def BACK_STATUS.FAILED : Fld := ⟨.BACK_STATUS, 9, 9⟩
def BACK_STATUS.WAITING : Fld := ⟨.BACK_STATUS, 18, 9⟩
def BACK_STRANDED_SLABS.COUNT : Fld := ⟨.BACK_STRANDED_SLABS, 0, 64⟩
def BACK_KEY_CHECK.VALUE : Fld := ⟨.BACK_KEY_CHECK, 0, 64⟩
def BACK_DIGEST.DIGEST : Fld := ⟨.BACK_DIGEST, 0, 64⟩
def BACK_NS_STATUS.STATE : Fld := ⟨.BACK_NS_STATUS, 0, 3⟩
def BACK_NS_STATUS.CAUSE : Fld := ⟨.BACK_NS_STATUS, 3, 4⟩
def BACK_NS_STATUS.LBA512 : Fld := ⟨.BACK_NS_STATUS, 7, 1⟩
def BACK_NS_STATUS.QUEUES : Fld := ⟨.BACK_NS_STATUS, 8, 7⟩
def BACK_NS_STATUS.SMART_WARN : Fld := ⟨.BACK_NS_STATUS, 15, 8⟩
def BACK_NS_CTRL.ADOPT : Fld := ⟨.BACK_NS_CTRL, 0, 1⟩
def BACK_NS_CTRL.DETACH : Fld := ⟨.BACK_NS_CTRL, 1, 1⟩
def BACK_NS_CTRL.ATTACH : Fld := ⟨.BACK_NS_CTRL, 2, 1⟩
def BACK_NS_ERRORS.COUNT : Fld := ⟨.BACK_NS_ERRORS, 0, 32⟩
def BACK_NS_STRANDED.COUNT : Fld := ⟨.BACK_NS_STRANDED, 0, 32⟩
def BACK_PORT_STATUS.LINK_UP : Fld := ⟨.BACK_PORT_STATUS, 0, 1⟩
def BACK_PORT_STATUS.WIDTH : Fld := ⟨.BACK_PORT_STATUS, 1, 5⟩
def BACK_PORT_STATUS.RATE : Fld := ⟨.BACK_PORT_STATUS, 6, 3⟩
def BACK_PORT_STATUS.CTRL_READY : Fld := ⟨.BACK_PORT_STATUS, 9, 1⟩
def BACK_PORT_READS.COUNT : Fld := ⟨.BACK_PORT_READS, 0, 64⟩
def BACK_PORT_WRITES.COUNT : Fld := ⟨.BACK_PORT_WRITES, 0, 64⟩
def BACK_PORT_RETRIES.COUNT : Fld := ⟨.BACK_PORT_RETRIES, 0, 32⟩
def BACK_PORT_TIMEOUTS.COUNT : Fld := ⟨.BACK_PORT_TIMEOUTS, 0, 32⟩
def BACK_PORT_RESETS.COUNT : Fld := ⟨.BACK_PORT_RESETS, 0, 32⟩
def BACK_PORT_OUTSTANDING.COUNT : Fld := ⟨.BACK_PORT_OUTSTANDING, 0, 16⟩
def CHAN_STATUS.STATE : Fld := ⟨.CHAN_STATUS, 0, 3⟩
def CHAN_STATUS.DEGRADED : Fld := ⟨.CHAN_STATUS, 3, 1⟩
def CHAN_STATUS.SPEED : Fld := ⟨.CHAN_STATUS, 4, 2⟩
def CHAN_STATUS.DPC2 : Fld := ⟨.CHAN_STATUS, 6, 1⟩
def CHAN_STATUS.RANKS : Fld := ⟨.CHAN_STATUS, 7, 4⟩
def CHAN_STATUS.SPARE_RANK : Fld := ⟨.CHAN_STATUS, 11, 1⟩
def CHAN_STATUS.POLICY_FREEZE : Fld := ⟨.CHAN_STATUS, 12, 1⟩
def CHAN_STATUS.REF_DOUBLED : Fld := ⟨.CHAN_STATUS, 13, 1⟩
def CHAN_STATUS.POSTPONE_OFF : Fld := ⟨.CHAN_STATUS, 14, 1⟩
def CHAN_STATUS.HELD : Fld := ⟨.CHAN_STATUS, 15, 1⟩
def CHAN_CTRL.THAW : Fld := ⟨.CHAN_CTRL, 0, 1⟩
def CHAN_CTRL.FREEZE_NOW : Fld := ⟨.CHAN_CTRL, 1, 1⟩
def CHAN_CTRL.AUTO_THAW_MS : Fld := ⟨.CHAN_CTRL, 16, 16⟩
def CHAN_REF_CTRL.MODE : Fld := ⟨.CHAN_REF_CTRL, 0, 1⟩
def CHAN_REF_CTRL.POSTPONE_EN : Fld := ⟨.CHAN_REF_CTRL, 1, 1⟩
def CHAN_RH_CTRL.THROTTLE_DIV : Fld := ⟨.CHAN_RH_CTRL, 0, 4⟩
def CHAN_RH_THRESHOLD.ACTS : Fld := ⟨.CHAN_RH_THRESHOLD, 0, 32⟩
def CHAN_RH_COOLDOWN.US : Fld := ⟨.CHAN_RH_COOLDOWN, 0, 32⟩
def CHAN_SR_IDLE.NS : Fld := ⟨.CHAN_SR_IDLE, 0, 32⟩
def CHAN_SCRUB_CTRL.PERIOD_H : Fld := ⟨.CHAN_SCRUB_CTRL, 0, 8⟩
def CHAN_SCRUB_CTRL.DEGRADED_PERIOD_H : Fld := ⟨.CHAN_SCRUB_CTRL, 8, 8⟩
def CHAN_SCRUB_POS.PERMILLE : Fld := ⟨.CHAN_SCRUB_POS, 0, 10⟩
def CHAN_CE_LIMIT.BEATS : Fld := ⟨.CHAN_CE_LIMIT, 0, 32⟩
def CHAN_THROTTLED.MASK : Fld := ⟨.CHAN_THROTTLED, 0, 32⟩
def CHAN_LOG_HEAD.NEXT : Fld := ⟨.CHAN_LOG_HEAD, 0, 4⟩
def CHAN_LOG_HEAD.WRAPPED : Fld := ⟨.CHAN_LOG_HEAD, 4, 1⟩
def CHAN_CE.COUNT : Fld := ⟨.CHAN_CE, 0, 64⟩
def CHAN_UE.COUNT : Fld := ⟨.CHAN_UE, 0, 64⟩
def CHAN_CA_RETRIES.COUNT : Fld := ⟨.CHAN_CA_RETRIES, 0, 32⟩
def CHAN_CA_FAILS.COUNT : Fld := ⟨.CHAN_CA_FAILS, 0, 32⟩
def CHAN_RH_TRIGGERS.COUNT : Fld := ⟨.CHAN_RH_TRIGGERS, 0, 32⟩
def CHAN_RFM.COUNT : Fld := ⟨.CHAN_RFM, 0, 32⟩
def CHAN_URGENT.COUNT : Fld := ⟨.CHAN_URGENT, 0, 64⟩
def CHAN_PANIC.COUNT : Fld := ⟨.CHAN_PANIC, 0, 64⟩
def CHAN_FREEZES.COUNT : Fld := ⟨.CHAN_FREEZES, 0, 32⟩
def CHAN_RANK_STATUS.OWED : Fld := ⟨.CHAN_RANK_STATUS, 0, 3⟩
def CHAN_RANK_STATUS.SELF_REFRESH : Fld := ⟨.CHAN_RANK_STATUS, 3, 1⟩
def CHAN_RANK_STATUS.MAPPED : Fld := ⟨.CHAN_RANK_STATUS, 4, 1⟩
def CHAN_RANK_STATUS.SPARE : Fld := ⟨.CHAN_RANK_STATUS, 5, 1⟩
def CHAN_RANK_STATUS.DOUBLED : Fld := ⟨.CHAN_RANK_STATUS, 6, 1⟩
def CHAN_RANK_STATUS.POSTPONE_OFF : Fld := ⟨.CHAN_RANK_STATUS, 7, 1⟩
def CHAN_RANK_STATUS.T_DRAM : Fld := ⟨.CHAN_RANK_STATUS, 8, 8⟩
def CHAN_RANK_CE_INT.COUNT : Fld := ⟨.CHAN_RANK_CE_INT, 0, 32⟩
def CHAN_RANK_CE.COUNT : Fld := ⟨.CHAN_RANK_CE, 0, 64⟩
def CHAN_DEVICE_CE.COUNT : Fld := ⟨.CHAN_DEVICE_CE, 0, 32⟩
def TRN_CTRL.START : Fld := ⟨.TRN_CTRL, 0, 1⟩
def TRN_CTRL.STEP : Fld := ⟨.TRN_CTRL, 1, 3⟩
def TRN_CTRL.RANK : Fld := ⟨.TRN_CTRL, 4, 3⟩
def TRN_CTRL.ABORT : Fld := ⟨.TRN_CTRL, 7, 1⟩
def TRN_CTRL.COMMIT : Fld := ⟨.TRN_CTRL, 8, 1⟩
def TRN_CTRL.RETRAIN_NOW : Fld := ⟨.TRN_CTRL, 9, 1⟩
def TRN_CTRL.FULL : Fld := ⟨.TRN_CTRL, 10, 1⟩
def TRN_STATUS.ACTIVE : Fld := ⟨.TRN_STATUS, 0, 1⟩
def TRN_STATUS.DONE : Fld := ⟨.TRN_STATUS, 1, 1⟩
def TRN_STATUS.RESULT : Fld := ⟨.TRN_STATUS, 2, 2⟩
def TRN_STATUS.STEP : Fld := ⟨.TRN_STATUS, 4, 3⟩
def TRN_STATUS.ELAPSED_US : Fld := ⟨.TRN_STATUS, 16, 16⟩
def TRN_PAT_CTRL.MODE : Fld := ⟨.TRN_PAT_CTRL, 0, 1⟩
def TRN_PAT_CTRL.INVERT_ALT : Fld := ⟨.TRN_PAT_CTRL, 1, 1⟩
def TRN_PAT_SEED.SEED : Fld := ⟨.TRN_PAT_SEED, 0, 32⟩
def TRN_PAT_FIXED.PATTERN : Fld := ⟨.TRN_PAT_FIXED, 0, 64⟩
def TRN_CMP_MASK0.MASK : Fld := ⟨.TRN_CMP_MASK0, 0, 64⟩
def TRN_CMP_MASK1.MASK : Fld := ⟨.TRN_CMP_MASK1, 0, 16⟩
def TRN_SCAN_CTRL.START_CODE : Fld := ⟨.TRN_SCAN_CTRL, 0, 8⟩
def TRN_SCAN_CTRL.END_CODE : Fld := ⟨.TRN_SCAN_CTRL, 8, 8⟩
def TRN_SCAN_CTRL.STEP_SIZE : Fld := ⟨.TRN_SCAN_CTRL, 16, 4⟩
def TRN_SCAN_CTRL.TARGET : Fld := ⟨.TRN_SCAN_CTRL, 20, 3⟩
def TRN_SCAN_CTRL.SWEEP : Fld := ⟨.TRN_SCAN_CTRL, 23, 1⟩
def TRN_SCAN_BURSTS.BURSTS : Fld := ⟨.TRN_SCAN_BURSTS, 0, 16⟩
def TRN_MIN_MARGIN.CODES : Fld := ⟨.TRN_MIN_MARGIN, 0, 8⟩
def TRN_MIN_MARGIN.VREF_CODES : Fld := ⟨.TRN_MIN_MARGIN, 8, 8⟩
def TRN_RETRAIN_CTRL.AUTO_EN : Fld := ⟨.TRN_RETRAIN_CTRL, 0, 1⟩
def TRN_RETRAIN_CTRL.TEMP_DELTA : Fld := ⟨.TRN_RETRAIN_CTRL, 1, 5⟩
def TRN_RETRAIN_CTRL.GAP_MS : Fld := ⟨.TRN_RETRAIN_CTRL, 8, 8⟩
def TRN_CYCLES.COUNT : Fld := ⟨.TRN_CYCLES, 0, 32⟩
def TRN_CYCLE_FAILS.COUNT : Fld := ⟨.TRN_CYCLE_FAILS, 0, 32⟩
def TRN_RANK.T_REF : Fld := ⟨.TRN_RANK, 0, 8⟩
def TRN_RANK.LKG_VALID : Fld := ⟨.TRN_RANK, 8, 1⟩
def TRN_RANK.PENDING : Fld := ⟨.TRN_RANK, 9, 1⟩
def TRN_RANK.CAUSE : Fld := ⟨.TRN_RANK, 10, 2⟩
def TRN_RANK.NO_SETTING : Fld := ⟨.TRN_RANK, 12, 1⟩
def TRN_ERR_COUNT.COUNT : Fld := ⟨.TRN_ERR_COUNT, 0, 16⟩
def TRN_EYE.LEFT : Fld := ⟨.TRN_EYE, 0, 8⟩
def TRN_EYE.RIGHT : Fld := ⟨.TRN_EYE, 8, 8⟩
def TRN_EYE.CENTER : Fld := ⟨.TRN_EYE, 16, 8⟩
def TRN_EYE.FOUND : Fld := ⟨.TRN_EYE, 24, 1⟩
def TRN_VSWEEP.CODE : Fld := ⟨.TRN_VSWEEP, 0, 8⟩
def TRN_VSWEEP.MIN_WIDTH : Fld := ⟨.TRN_VSWEEP, 8, 8⟩
def TRN_VSWEEP.WORST_LANE : Fld := ⟨.TRN_VSWEEP, 16, 7⟩
def QFL_CHAN_STATUS.STATE : Fld := ⟨.QFL_CHAN_STATUS, 0, 2⟩
def QFL_CHAN_STATUS.IN_SERVICE : Fld := ⟨.QFL_CHAN_STATUS, 8, 8⟩
def QFL_CHAN_READY.QUADS : Fld := ⟨.QFL_CHAN_READY, 0, 32⟩
def QFL_CHAN_STALE.QUADS : Fld := ⟨.QFL_CHAN_STALE, 0, 32⟩
def QFL_CHAN_RETIRED.BLOCKS : Fld := ⟨.QFL_CHAN_RETIRED, 0, 32⟩
def QFL_ECC_CTRL.WARN : Fld := ⟨.QFL_ECC_CTRL, 0, 8⟩
def QFL_PE_LIMIT.CYCLES : Fld := ⟨.QFL_PE_LIMIT, 0, 32⟩
def QFL_Q_TAIL.TAIL : Fld := ⟨.QFL_Q_TAIL, 0, 6⟩
def QFL_Q_HEAD.HEAD : Fld := ⟨.QFL_Q_HEAD, 0, 6⟩
def QFL_CQ_HEAD.HEAD : Fld := ⟨.QFL_CQ_HEAD, 0, 6⟩
def QFL_CQ_TAIL.TAIL : Fld := ⟨.QFL_CQ_TAIL, 0, 6⟩
def QFL_NAND_STATUS.STATE : Fld := ⟨.QFL_NAND_STATUS, 0, 2⟩
def QFL_NAND_STATUS.SPARE_MIN : Fld := ⟨.QFL_NAND_STATUS, 16, 15⟩
def QFL_DESC.WORD : Fld := ⟨.QFL_DESC, 0, 64⟩
def QFL_CPL.WORD : Fld := ⟨.QFL_CPL, 0, 64⟩
def QFL_B_ERASED.BYTES : Fld := ⟨.QFL_B_ERASED, 0, 64⟩
def QFL_B_DIE.BYTES : Fld := ⟨.QFL_B_DIE, 0, 64⟩
def QFL_PKG_STATUS.NQ : Fld := ⟨.QFL_PKG_STATUS, 0, 10⟩
def QFL_PKG_STATUS.CHANNELS : Fld := ⟨.QFL_PKG_STATUS, 10, 7⟩
def QFL_PKG_STATUS.SPARE_EXHAUSTED : Fld := ⟨.QFL_PKG_STATUS, 17, 1⟩
def QFL_ERASE_BACKLOG.QUADS : Fld := ⟨.QFL_ERASE_BACKLOG, 0, 32⟩
def BELL_SUPPLY_STATUS.MAIN_ABOVE : Fld := ⟨.BELL_SUPPLY_STATUS, 0, 1⟩
def BELL_SUPPLY_STATUS.HOLD_ABOVE : Fld := ⟨.BELL_SUPPLY_STATUS, 1, 1⟩
def BELL_SUPPLY_STATUS.AON_ABOVE : Fld := ⟨.BELL_SUPPLY_STATUS, 2, 1⟩
def BELL_SUPPLY_STATUS.PFN_LEVEL : Fld := ⟨.BELL_SUPPLY_STATUS, 3, 1⟩
def BELL_SUPPLY_STATUS.AON_LOW : Fld := ⟨.BELL_SUPPLY_STATUS, 4, 1⟩
def BELL_SUPPLY_STATUS.AON_LOW_SEEN : Fld := ⟨.BELL_SUPPLY_STATUS, 5, 1⟩
def BELL_AON_CTRL.THRESH : Fld := ⟨.BELL_AON_CTRL, 0, 8⟩
def BELL_LEARN_STATUS.STRING : Fld := ⟨.BELL_LEARN_STATUS, 0, 3⟩
def BELL_LEARN_STATUS.ACTIVE : Fld := ⟨.BELL_LEARN_STATUS, 3, 1⟩
def BELL_LEARN_STATUS.PENDING : Fld := ⟨.BELL_LEARN_STATUS, 8, 8⟩
def BELL_LEARN_CTRL.AUTO_EN : Fld := ⟨.BELL_LEARN_CTRL, 0, 1⟩
def BELL_LEARN_CTRL.PERIOD_D : Fld := ⟨.BELL_LEARN_CTRL, 16, 16⟩
def BELL_CAL_CTRL.EN : Fld := ⟨.BELL_CAL_CTRL, 0, 1⟩
def BELL_CAL_CTRL.PERIOD_S : Fld := ⟨.BELL_CAL_CTRL, 16, 16⟩
def BELL_LIFE_S.S : Fld := ⟨.BELL_LIFE_S, 0, 32⟩
def BELL_JOURNAL_SEQ.SEQ : Fld := ⟨.BELL_JOURNAL_SEQ, 0, 64⟩
def BELL_STR_STATUS.STATE : Fld := ⟨.BELL_STR_STATUS, 0, 3⟩
def BELL_STR_STATUS.SWITCH : Fld := ⟨.BELL_STR_STATUS, 3, 2⟩
def BELL_STR_STATUS.AUTHENTICATED : Fld := ⟨.BELL_STR_STATUS, 5, 1⟩
def BELL_STR_STATUS.LEARNED : Fld := ⟨.BELL_STR_STATUS, 6, 1⟩
def BELL_STR_STATUS.COUNTED : Fld := ⟨.BELL_STR_STATUS, 7, 1⟩
def BELL_STR_STATUS.CONFLICT : Fld := ⟨.BELL_STR_STATUS, 8, 1⟩
def BELL_STR_STATUS.UNKNOWN : Fld := ⟨.BELL_STR_STATUS, 9, 1⟩
def BELL_STR_STATUS.LEARN : Fld := ⟨.BELL_STR_STATUS, 10, 2⟩
def BELL_STR_STATUS.FAULT : Fld := ⟨.BELL_STR_STATUS, 12, 2⟩
def BELL_STR_STATUS.CAL_REJECTS : Fld := ⟨.BELL_STR_STATUS, 24, 8⟩
def BELL_STR_CTRL.FORCE_ISOLATE : Fld := ⟨.BELL_STR_CTRL, 0, 1⟩
def BELL_STR_CTRL.LEARN : Fld := ⟨.BELL_STR_CTRL, 1, 1⟩
def BELL_STR_CTRL.CANCEL : Fld := ⟨.BELL_STR_CTRL, 2, 1⟩
def BELL_STR_CTRL.REAUTH : Fld := ⟨.BELL_STR_CTRL, 3, 1⟩
def BELL_STR_V.MV : Fld := ⟨.BELL_STR_V, 0, 16⟩
def BELL_STR_I.MA : Fld := ⟨.BELL_STR_I, 0, 32⟩
def BELL_STR_TEMP.NTC_A : Fld := ⟨.BELL_STR_TEMP, 0, 16⟩
def BELL_STR_TEMP.NTC_B : Fld := ⟨.BELL_STR_TEMP, 16, 16⟩
def BELL_STR_R_EST.UOHM : Fld := ⟨.BELL_STR_R_EST, 0, 32⟩
def BELL_STR_Q_RAW.MC : Fld := ⟨.BELL_STR_Q_RAW, 0, 48⟩
def BELL_STR_Q_REP.MC : Fld := ⟨.BELL_STR_Q_REP, 0, 48⟩
def BELL_STR_CAP.MC : Fld := ⟨.BELL_STR_CAP, 0, 48⟩
def BELL_STR_THRU.MC : Fld := ⟨.BELL_STR_THRU, 0, 48⟩
def BELL_STR_E.J : Fld := ⟨.BELL_STR_E, 0, 32⟩
def BELL_STR_FEC.CYCLES : Fld := ⟨.BELL_STR_FEC, 0, 16⟩
def TMP_STATUS.BANK_BUSY : Fld := ⟨.TMP_STATUS, 0, 3⟩
def TMP_STATUS.BANK_ERASING : Fld := ⟨.TMP_STATUS, 3, 3⟩
def TMP_STATUS.SCRUB_ACTIVE : Fld := ⟨.TMP_STATUS, 6, 1⟩
def TMP_STATUS.PATROL_ACTIVE : Fld := ⟨.TMP_STATUS, 7, 1⟩
def TMP_STATUS.SPARE_EXHAUSTED : Fld := ⟨.TMP_STATUS, 8, 1⟩
def TMP_CTRL.WARN_BITS : Fld := ⟨.TMP_CTRL, 0, 8⟩
def TMP_CTRL.PATROL_EN : Fld := ⟨.TMP_CTRL, 8, 1⟩
def TMP_CTRL.PATROL_DAYS : Fld := ⟨.TMP_CTRL, 16, 9⟩
def TMP_SPARES_FREE.SECTORS : Fld := ⟨.TMP_SPARES_FREE, 0, 16⟩
def TMP_REMAPPED.SECTORS : Fld := ⟨.TMP_REMAPPED, 0, 16⟩
def TMP_REMAPPED.RETIRED : Fld := ⟨.TMP_REMAPPED, 16, 16⟩
def TMP_CORRECTED.COUNT : Fld := ⟨.TMP_CORRECTED, 0, 64⟩
def TMP_UNCORRECTABLE.COUNT : Fld := ⟨.TMP_UNCORRECTABLE, 0, 32⟩
def TMP_SCRUBS.COUNT : Fld := ⟨.TMP_SCRUBS, 0, 32⟩
def TMP_PATROL_POS.SECTOR : Fld := ⟨.TMP_PATROL_POS, 0, 14⟩
def TMP_PATROL_PASSES.COUNT : Fld := ⟨.TMP_PATROL_PASSES, 0, 32⟩
def TMP_DENIED.COUNT : Fld := ⟨.TMP_DENIED, 0, 32⟩
def TMP_Q_TAIL.TAIL : Fld := ⟨.TMP_Q_TAIL, 0, 4⟩
def TMP_Q_HEAD.HEAD : Fld := ⟨.TMP_Q_HEAD, 0, 4⟩
def TMP_CQ_HEAD.HEAD : Fld := ⟨.TMP_CQ_HEAD, 0, 4⟩
def TMP_CQ_TAIL.TAIL : Fld := ⟨.TMP_CQ_TAIL, 0, 4⟩
def TMP_DESC.WORD : Fld := ⟨.TMP_DESC, 0, 64⟩
def TMP_CPL.WORD : Fld := ⟨.TMP_CPL, 0, 64⟩
def POOL_FREE.COUNT : Fld := ⟨.POOL_FREE, 0, 32⟩
def POOL_ALLOC.COUNT : Fld := ⟨.POOL_ALLOC, 0, 32⟩
def POOL_PENDING.COUNT : Fld := ⟨.POOL_PENDING, 0, 32⟩
def POOL_EMPTY.COUNT : Fld := ⟨.POOL_EMPTY, 0, 32⟩
def POOL_BASE.OFFSET : Fld := ⟨.POOL_BASE, 0, 25⟩
def POOL_QUARANTINE.MASK : Fld := ⟨.POOL_QUARANTINE, 0, 32⟩
def POOL_VIOL_LIMIT.LIMIT : Fld := ⟨.POOL_VIOL_LIMIT, 0, 16⟩
def POOL_VIOLATIONS.COUNT : Fld := ⟨.POOL_VIOLATIONS, 0, 16⟩
def POOL_HELD.COUNT : Fld := ⟨.POOL_HELD, 0, 32⟩
def POOL_CMD.OP : Fld := ⟨.POOL_CMD, 0, 3⟩
def POOL_CMD.CLASS : Fld := ⟨.POOL_CMD, 3, 2⟩
def POOL_CMD.NO_FALLBACK : Fld := ⟨.POOL_CMD, 5, 1⟩
def POOL_CMD.NEW_REQ : Fld := ⟨.POOL_CMD, 6, 5⟩
def POOL_CMD.NEW_DIE : Fld := ⟨.POOL_CMD, 11, 4⟩
def POOL_CMD.GO : Fld := ⟨.POOL_CMD, 31, 1⟩
def POOL_CMD_HANDLE.HANDLE : Fld := ⟨.POOL_CMD_HANDLE, 0, 32⟩
def POOL_CMD_STATUS.BUSY : Fld := ⟨.POOL_CMD_STATUS, 0, 1⟩
def POOL_CMD_STATUS.DONE : Fld := ⟨.POOL_CMD_STATUS, 1, 1⟩
def POOL_CMD_STATUS.STATUS : Fld := ⟨.POOL_CMD_STATUS, 8, 8⟩
def POOL_BELLOWS_FREE.COUNT : Fld := ⟨.POOL_BELLOWS_FREE, 0, 6⟩
def EVT_WIN_SEQ.SEQ : Fld := ⟨.EVT_WIN_SEQ, 0, 64⟩
def EVT_WIN_STATUS.VALID : Fld := ⟨.EVT_WIN_STATUS, 0, 1⟩
def EVT_WIN_STATUS.GAP : Fld := ⟨.EVT_WIN_STATUS, 1, 1⟩
def EVT_WIN_NEXT.NEXT : Fld := ⟨.EVT_WIN_NEXT, 0, 1⟩
def EVT_WIN_RECORD.RECORD : Fld := ⟨.EVT_WIN_RECORD, 0, 64⟩
def EVT_STATUS.SEQ_STALL : Fld := ⟨.EVT_STATUS, 0, 1⟩
def EVT_STATUS.PV_IN_SERVICE : Fld := ⟨.EVT_STATUS, 1, 1⟩
def EVT_STATUS.QUEUE_FULL : Fld := ⟨.EVT_STATUS, 2, 1⟩
def EVT_NEXT_SEQ.SEQ : Fld := ⟨.EVT_NEXT_SEQ, 0, 64⟩
def EVT_RESERVATION.SEQ : Fld := ⟨.EVT_RESERVATION, 0, 64⟩
def EVT_PV_BASE.SEQ : Fld := ⟨.EVT_PV_BASE, 0, 64⟩
def EVT_PV_COUNT.RECORDS : Fld := ⟨.EVT_PV_COUNT, 0, 17⟩
def EVT_UNSEQ.COUNT : Fld := ⟨.EVT_UNSEQ, 0, 32⟩
def EVT_SUPPRESSED.COUNT : Fld := ⟨.EVT_SUPPRESSED, 0, 64⟩
def EVT_PV_OVF.COUNT : Fld := ⟨.EVT_PV_OVF, 0, 32⟩
def EVT_PV_OVF_LAST.SEQ : Fld := ⟨.EVT_PV_OVF_LAST, 0, 64⟩
def EVT_LEAF_STATUS.RECORDS : Fld := ⟨.EVT_LEAF_STATUS, 0, 14⟩
def EVT_LEAF_STATUS.FULL : Fld := ⟨.EVT_LEAF_STATUS, 14, 1⟩
def EVT_LEAF_STATUS.CLEARING : Fld := ⟨.EVT_LEAF_STATUS, 15, 1⟩
def EVT_LEAF_STATUS.UNDEFINED : Fld := ⟨.EVT_LEAF_STATUS, 16, 16⟩
def EVT_LEAF_DROPPED.TOTAL : Fld := ⟨.EVT_LEAF_DROPPED, 0, 32⟩
def EVT_LEAF_FIRST.SEQ : Fld := ⟨.EVT_LEAF_FIRST, 0, 64⟩
def EVT_DROP.CODE : Fld := ⟨.EVT_DROP, 0, 16⟩
def EVT_DROP.COUNT : Fld := ⟨.EVT_DROP, 16, 16⟩
def SEC_STATUS.ALARM : Fld := ⟨.SEC_STATUS, 0, 1⟩
def SEC_STATUS.TAMPER_CLASS : Fld := ⟨.SEC_STATUS, 1, 1⟩
def SEC_STATUS.BLOB_EPOCH : Fld := ⟨.SEC_STATUS, 2, 5⟩
def SEC_STATUS.EPOCH_EXHAUSTED : Fld := ⟨.SEC_STATUS, 7, 1⟩
def SEC_STATUS.OWNER_LOCK : Fld := ⟨.SEC_STATUS, 8, 1⟩
def SEC_STATUS.BINDING_OK : Fld := ⟨.SEC_STATUS, 9, 1⟩
def SEC_STATUS.RESERVE_STAGED : Fld := ⟨.SEC_STATUS, 10, 1⟩
def SEC_STATUS.DEBUG_LOCKED : Fld := ⟨.SEC_STATUS, 11, 1⟩
def SEC_STATUS.SESSIONS : Fld := ⟨.SEC_STATUS, 12, 4⟩
def SEC_ALARM_CAUSE.TAMPER_N : Fld := ⟨.SEC_ALARM_CAUSE, 0, 1⟩
def SEC_ALARM_CAUSE.MESH : Fld := ⟨.SEC_ALARM_CAUSE, 1, 1⟩
def SEC_ALARM_CAUSE.VOLTAGE : Fld := ⟨.SEC_ALARM_CAUSE, 2, 1⟩
def SEC_ALARM_CAUSE.CLOCK : Fld := ⟨.SEC_ALARM_CAUSE, 3, 1⟩
def SEC_ALARM_CAUSE.TEMPERATURE : Fld := ⟨.SEC_ALARM_CAUSE, 4, 1⟩
def SEC_POLICY.POLICY : Fld := ⟨.SEC_POLICY, 0, 32⟩
def SEC_INGOT_ROLES.CURRENT : Fld := ⟨.SEC_INGOT_ROLES, 0, 2⟩
def SEC_INGOT_ROLES.NEXT : Fld := ⟨.SEC_INGOT_ROLES, 2, 2⟩
def SEC_INGOT_ROLES.RESERVE : Fld := ⟨.SEC_INGOT_ROLES, 4, 2⟩
def SEC_INGOT_ROLES.PREVIOUS : Fld := ⟨.SEC_INGOT_ROLES, 6, 2⟩
def SEC_INGOT_ROLES.ROLL : Fld := ⟨.SEC_INGOT_ROLES, 16, 16⟩
def SEC_DRBG_STATUS.HEALTHY : Fld := ⟨.SEC_DRBG_STATUS, 0, 1⟩
def SEC_DRBG_STATUS.FAILS : Fld := ⟨.SEC_DRBG_STATUS, 16, 16⟩
def SEC_SLOT.ALG : Fld := ⟨.SEC_SLOT, 0, 3⟩
def SEC_SLOT.SHADOW : Fld := ⟨.SEC_SLOT, 3, 1⟩
def SEC_SLOT.GEN : Fld := ⟨.SEC_SLOT, 16, 16⟩
def SEC_SLOT_USERS.USERS : Fld := ⟨.SEC_SLOT_USERS, 0, 16⟩
def SEC_SLOT_USERS.SHADOW_USERS : Fld := ⟨.SEC_SLOT_USERS, 16, 16⟩
def RST_STATUS.LAST_CAUSE : Fld := ⟨.RST_STATUS, 0, 3⟩
def RST_STATUS.COMPAT : Fld := ⟨.RST_STATUS, 3, 1⟩
def RST_STATUS.SB_ADDR : Fld := ⟨.RST_STATUS, 4, 2⟩
def RST_STATUS.RECOVERY : Fld := ⟨.RST_STATUS, 6, 1⟩
def RST_STATUS.NQ_ARMED : Fld := ⟨.RST_STATUS, 7, 1⟩
def RST_STATUS.PHASE : Fld := ⟨.RST_STATUS, 8, 4⟩
def RST_STATUS.FW_SLOT : Fld := ⟨.RST_STATUS, 12, 1⟩
def RST_STATUS.FW_FALLBACK : Fld := ⟨.RST_STATUS, 13, 1⟩
def RST_NQ_LEFT.MS : Fld := ⟨.RST_NQ_LEFT, 0, 16⟩
def RST_WARM_COUNT.COUNT : Fld := ⟨.RST_WARM_COUNT, 0, 32⟩
def RST_DIE_OUT.FENCE_WIRE : Fld := ⟨.RST_DIE_OUT, 0, 8⟩
def RST_DIE_OUT.OTHER : Fld := ⟨.RST_DIE_OUT, 8, 8⟩
def RST_GLITCHES.COUNT : Fld := ⟨.RST_GLITCHES, 0, 32⟩
def RST_STEP_MS.MS : Fld := ⟨.RST_STEP_MS, 0, 32⟩
def SVC_LIFE.PERCENT : Fld := ⟨.SVC_LIFE, 0, 8⟩
def SVC_LIFE.LT_PCT : Fld := ⟨.SVC_LIFE, 8, 8⟩
def SVC_LIFE.LV_PCT : Fld := ⟨.SVC_LIFE, 16, 8⟩
def SVC_SPARE_STATUS.EXHAUSTED : Fld := ⟨.SVC_SPARE_STATUS, 0, 9⟩
def SVC_SPARE_STATUS.LIFE : Fld := ⟨.SVC_SPARE_STATUS, 9, 1⟩
def SVC_CTRL.AUTO_QUAD : Fld := ⟨.SVC_CTRL, 0, 1⟩
def SVC_CTRL.AUTO_RANK : Fld := ⟨.SVC_CTRL, 1, 1⟩
def SVC_WEIGHTED_S.S : Fld := ⟨.SVC_WEIGHTED_S, 0, 64⟩
def SVC_PPR_LOST.COUNT : Fld := ⟨.SVC_PPR_LOST, 0, 32⟩
def SVC_DIE_STATUS.SLICE_REPLACED : Fld := ⟨.SVC_DIE_STATUS, 0, 4⟩
def SVC_DIE_STATUS.SPARE_SLICE_OK : Fld := ⟨.SVC_DIE_STATUS, 4, 1⟩
def SVC_DIE_STATUS.QUAD_REPLACED : Fld := ⟨.SVC_DIE_STATUS, 5, 5⟩
def SVC_DIE_STATUS.SMITH_ACTIVE : Fld := ⟨.SVC_DIE_STATUS, 10, 1⟩
def SVC_DIE_STATUS.STANDBY_OK : Fld := ⟨.SVC_DIE_STATUS, 11, 1⟩
def SVC_DIE_STATUS.VDD_AT_LIMIT : Fld := ⟨.SVC_DIE_STATUS, 12, 1⟩
def SVC_VDD.SETPOINT : Fld := ⟨.SVC_VDD, 0, 10⟩
def SVC_VDD.NEEDED : Fld := ⟨.SVC_VDD, 10, 10⟩
def SVC_VDD.BASE : Fld := ⟨.SVC_VDD, 20, 10⟩
def SVC_SRAM.REPAIRED : Fld := ⟨.SVC_SRAM, 0, 16⟩
def SVC_SRAM.SPARES_MIN : Fld := ⟨.SVC_SRAM, 16, 16⟩
def SVC_D2D_RETRAINS.COUNT : Fld := ⟨.SVC_D2D_RETRAINS, 0, 32⟩
def SVC_CMD.OP : Fld := ⟨.SVC_CMD, 0, 3⟩
def SVC_CMD.TARGET : Fld := ⟨.SVC_CMD, 3, 5⟩
def SVC_CMD.GO : Fld := ⟨.SVC_CMD, 31, 1⟩
def SVC_CMD_STATUS.BUSY : Fld := ⟨.SVC_CMD_STATUS, 0, 1⟩
def SVC_CMD_STATUS.DONE : Fld := ⟨.SVC_CMD_STATUS, 1, 1⟩
def SVC_CMD_STATUS.STATUS : Fld := ⟨.SVC_CMD_STATUS, 8, 8⟩
def SVC_RANK_COPY.PERMILLE : Fld := ⟨.SVC_RANK_COPY, 0, 10⟩
def SVC_RANK_COPY.RANK : Fld := ⟨.SVC_RANK_COPY, 10, 3⟩
def HCB_ID.HEARTH_ID : Fld := ⟨.HCB_ID, 0, 8⟩
def HCB_ID.KIND : Fld := ⟨.HCB_ID, 8, 3⟩
def HCB_ID.PARENT : Fld := ⟨.HCB_ID, 16, 8⟩
def HCB_ID.DEPTH : Fld := ⟨.HCB_ID, 24, 3⟩
def HCB_PART.FORMAT : Fld := ⟨.HCB_PART, 0, 8⟩
def HCB_PART.STEPPING : Fld := ⟨.HCB_PART, 8, 8⟩
def HCB_PART.DIES : Fld := ⟨.HCB_PART, 16, 4⟩
def HCB_UNIT_BASE.BASE : Fld := ⟨.HCB_UNIT_BASE, 0, 32⟩
def HCB_UNIT_SIZE.BYTES : Fld := ⟨.HCB_UNIT_SIZE, 0, 32⟩
def HCB_CAP0.SLICES : Fld := ⟨.HCB_CAP0, 0, 8⟩
def HCB_CAP0.DIES : Fld := ⟨.HCB_CAP0, 8, 8⟩
def HCB_CAP0.CHANNELS : Fld := ⟨.HCB_CAP0, 16, 8⟩
def HCB_CAP0.QFL_CHANNELS : Fld := ⟨.HCB_CAP0, 24, 8⟩
def HCB_CAP1.FABRIC_PORTS : Fld := ⟨.HCB_CAP1, 0, 8⟩
def HCB_CAP1.NVME_PORTS : Fld := ⟨.HCB_CAP1, 8, 8⟩
def HCB_CAP1.WELD_LINKS : Fld := ⟨.HCB_CAP1, 16, 8⟩
def HCB_FRAME_BYTES.BYTES : Fld := ⟨.HCB_FRAME_BYTES, 0, 64⟩
def HCB_KEY_ID.KEY_ID : Fld := ⟨.HCB_KEY_ID, 0, 64⟩
def HCB_CERT_SEL.CERT : Fld := ⟨.HCB_CERT_SEL, 0, 2⟩
def HCB_CERT_SEL.OFFSET : Fld := ⟨.HCB_CERT_SEL, 16, 16⟩
def HCB_CERT_LEN.BYTES : Fld := ⟨.HCB_CERT_LEN, 0, 16⟩
def HCB_CERT_DATA.DATA : Fld := ⟨.HCB_CERT_DATA, 0, 64⟩
def HCB_STATUS.HEALTH : Fld := ⟨.HCB_STATUS, 0, 2⟩
def HCB_STATUS.IN_SERVICE : Fld := ⟨.HCB_STATUS, 2, 1⟩
def HCB_STATUS.SPARE_IDLE : Fld := ⟨.HCB_STATUS, 3, 1⟩
def HCB_TJ.TJ : Fld := ⟨.HCB_TJ, 0, 8⟩
def HCB_LIFE.PERCENT : Fld := ⟨.HCB_LIFE, 0, 8⟩
def HCB_CMD_DPA.SLAB : Fld := ⟨.HCB_CMD_DPA, 12, 40⟩
def HCB_CMD.COUNT : Fld := ⟨.HCB_CMD, 0, 17⟩
def HCB_CMD.OP : Fld := ⟨.HCB_CMD, 17, 3⟩
def HCB_CMD.DISCARD : Fld := ⟨.HCB_CMD, 20, 1⟩
def HCB_CMD.GO : Fld := ⟨.HCB_CMD, 31, 1⟩
def HCB_CMD_STATUS.BUSY : Fld := ⟨.HCB_CMD_STATUS, 0, 1⟩
def HCB_CMD_STATUS.DONE : Fld := ⟨.HCB_CMD_STATUS, 1, 1⟩
def HCB_CMD_STATUS.STATUS : Fld := ⟨.HCB_CMD_STATUS, 8, 8⟩
def HCB_CMD_STATUS.FAIL_SOURCE : Fld := ⟨.HCB_CMD_STATUS, 16, 8⟩
def HCB_CMD_DONE.SLABS_DONE : Fld := ⟨.HCB_CMD_DONE, 0, 32⟩
def HCB_CMD_FAIL_DPA.DPA : Fld := ⟨.HCB_CMD_FAIL_DPA, 0, 64⟩
def SLAG_COUNT.COUNT : Fld := ⟨.SLAG_COUNT, 0, 16⟩
def SLAG_COUNT.OVERFLOW : Fld := ⟨.SLAG_COUNT, 16, 1⟩
def SLAG_ENTRY.WORD : Fld := ⟨.SLAG_ENTRY, 0, 64⟩
def HCB_CHILD_COUNT.COUNT : Fld := ⟨.HCB_CHILD_COUNT, 0, 8⟩
def HCB_CHILDREN.IDS : Fld := ⟨.HCB_CHILDREN, 0, 64⟩
def HCB_POOL_FREE.COUNT : Fld := ⟨.HCB_POOL_FREE, 0, 32⟩
def HCB_POOL_ALLOC.COUNT : Fld := ⟨.HCB_POOL_ALLOC, 0, 32⟩
def HCB_POOL_PENDING.COUNT : Fld := ⟨.HCB_POOL_PENDING, 0, 32⟩
def HCB_POOL_EMPTY.COUNT : Fld := ⟨.HCB_POOL_EMPTY, 0, 32⟩
def HCB_POOL_QUARANTINED.MASK : Fld := ⟨.HCB_POOL_QUARANTINED, 0, 32⟩
def ROOT_STATUS.COMPAT : Fld := ⟨.ROOT_STATUS, 0, 1⟩
def ROOT_STATUS.UNSEALED : Fld := ⟨.ROOT_STATUS, 1, 1⟩
def ROOT_STATUS.MEM_ACTIVE : Fld := ⟨.ROOT_STATUS, 2, 1⟩
def ROOT_STATUS.PHASE : Fld := ⟨.ROOT_STATUS, 3, 4⟩
def ROOT_STATUS.DIES_IN_SERVICE : Fld := ⟨.ROOT_STATUS, 7, 4⟩
def ROOT_RWL_IGNORED.COUNT : Fld := ⟨.ROOT_RWL_IGNORED, 0, 32⟩
def SEC_LINK_STATUS.OCCUPIED : Fld := ⟨.SEC_LINK_STATUS, 0, 9⟩
def BELL_STR_SERIAL.WORD : Fld := ⟨.BELL_STR_SERIAL, 0, 64⟩

/-- The register tables of the SWG block. -/
def rowsSWG : List FieldRow := [
  ⟨SWG_STATUS.ACTIVE_COPY, .RO, 0, none⟩,
  ⟨SWG_STATUS.SEALED, .RO, 0, none⟩,
  ⟨SWG_STATUS.NO_IMAGE, .RO, 0, none⟩,
  ⟨SWG_STATUS.PARTIAL_ACTIVE, .RO, 0, none⟩,
  ⟨SWG_STATUS.RESULT_A, .RO, 0, none⟩,
  ⟨SWG_STATUS.RESULT_B, .RO, 0, none⟩,
  ⟨SWG_STATUS.PARTIAL_SEQ, .RO, 0, none⟩,
  ⟨SWG_SERIAL.SERIAL, .RO, 0, none⟩,
  ⟨SWG_CHECK.CHECK_A, .WO, 0, none⟩,
  ⟨SWG_CHECK.CHECK_B, .WO, 0, none⟩,
  ⟨SWG_CHECK.CHECK_BUSY, .RO, 0, none⟩,
  ⟨SWG_HASH.HASH, .RO, 0, none⟩,
  ⟨SWG_MAP_MASK.MASK, .RO, 0, none⟩]

/-- The register tables of the FAB block. -/
def rowsFAB : List FieldRow := [
  ⟨FAB_PORT_STATUS.LINK_UP, .RO, 0, none⟩,
  ⟨FAB_PORT_STATUS.WIDTH, .RO, 0, none⟩,
  ⟨FAB_PORT_STATUS.RATE, .RO, 0, none⟩,
  ⟨FAB_PORT_STATUS.MODE, .RO, 0, none⟩,
  ⟨FAB_PORT_STATUS.CFG_READY, .RO, 0, none⟩,
  ⟨FAB_PORT_STATUS.MEM_ACTIVE, .RO, 0, none⟩,
  ⟨FAB_PORT_STATUS.DEVLOAD, .RO, 0, none⟩,
  ⟨FAB_PORT_STATUS.IDE_SECURE, .RO, 0, none⟩,
  ⟨FAB_PORT_STATUS.IDE_FAIL, .W1C, 0, none⟩,
  ⟨FAB_PORT_STATUS.GATE_CLOSED, .RO, 0, none⟩,
  ⟨FAB_PORT_REFUSED.COUNT, .RO, 0, none⟩,
  ⟨FAB_PORT_CREDITS.REQ_FREE, .RO, 256, none⟩,
  ⟨FAB_PORT_CREDITS.RWD_FREE, .RO, 128, none⟩,
  ⟨FAB_AUTH_COUNT.COUNT, .RO, 0, none⟩,
  ⟨FAB_DSC.COUNT, .RO, 0, none⟩,
  ⟨FAB_SHUTDOWN_STATE.DIRTY, .RO, 0, none⟩,
  ⟨FAB_UNMAPPED_COUNT.COUNT, .W1C, 0, none⟩,
  ⟨FAB_BI_RESET.REGION, .WO, 0, none⟩]

/-- The register tables of the CRUC block. -/
def rowsCRUC : List FieldRow := [
  ⟨CRUC_MODE.CURRENT, .RO, 0, none⟩,
  ⟨CRUC_MODE.TARGET, .RO, 0, none⟩,
  ⟨CRUC_MODE.REQUEST, .WO, 0, none⟩,
  ⟨CRUC_MODE.REQ_VALID, .WO, 0, none⟩,
  ⟨CRUC_MODE.GENERATION, .RO, 0, none⟩,
  ⟨CRUC_MODE.DRAIN_BLOCKED, .RO, 0, none⟩,
  ⟨CRUC_MODE.REQ_REFUSED, .W1C, 0, none⟩,
  ⟨CRUC_DIRTY_SECTORS.COUNT, .RO, 0, none⟩,
  ⟨CRUC_SWEEP.PERMILLE, .RO, 0, none⟩,
  ⟨CRUC_DESTAGE_CTRL.START_PCT, .RW, 50, some (1, 100)⟩,
  ⟨CRUC_DESTAGE_CTRL.STOP_PCT, .RW, 40, none⟩,
  ⟨CRUC_DESTAGE_CTRL.IDLE_MS, .RW, 1000, none⟩,
  ⟨CRUC_POISONED_SLABS.COUNT, .RO, 0, none⟩,
  ⟨CRUC_PINNED_SLABS.COUNT, .RO, 0, none⟩,
  ⟨CRUC_POISON_PARTIAL.COUNT, .RO, 0, none⟩,
  ⟨CRUC_MAINT_DPA.SLAB, .RW, 0, none⟩,
  ⟨CRUC_MAINT_CTRL.COUNT, .RW, 1, none⟩,
  ⟨CRUC_MAINT_CTRL.OP, .RW, 0, none⟩,
  ⟨CRUC_MAINT_CTRL.DISCARD, .RW, 0, none⟩,
  ⟨CRUC_MAINT_CTRL.GO, .WO, 0, none⟩,
  ⟨CRUC_MAINT_STATUS.BUSY, .RO, 0, none⟩,
  ⟨CRUC_MAINT_STATUS.DONE, .W1C, 0, none⟩,
  ⟨CRUC_MAINT_STATUS.STATUS, .RO, 0, none⟩,
  ⟨CRUC_MAINT_DONE.SLABS_DONE, .RO, 0, none⟩,
  ⟨CRUC_MAINT_FAIL_DPA.DPA, .RO, 0, none⟩,
  ⟨CRUC_SLICE_STATUS.LOCKS_HELD, .RO, 0, none⟩,
  ⟨CRUC_SLICE_STATUS.LOCK_FULL, .RO, 0, none⟩,
  ⟨CRUC_SLICE_STATUS.SET_BLOCKED, .RO, 0, none⟩,
  ⟨CRUC_SLICE_STATUS.REBUILDING, .RO, 0, none⟩,
  ⟨CRUC_READ_HITS.COUNT, .RO, 0, none⟩,
  ⟨CRUC_READ_MISSES.COUNT, .RO, 0, none⟩,
  ⟨CRUC_WRITE_HITS.COUNT, .RO, 0, none⟩,
  ⟨CRUC_WRITE_MISSES.COUNT, .RO, 0, none⟩,
  ⟨CRUC_TAGC_MISSES.COUNT, .RO, 0, none⟩,
  ⟨CRUC_SET_STALLS.COUNT, .RO, 0, none⟩,
  ⟨CRUC_TAG_CORRECTED.COUNT, .RO, 0, none⟩,
  ⟨CRUC_TAG_ERRORS.COUNT, .RO, 0, none⟩,
  ⟨CRUC_DIRTY_SECTORS_SLICE.COUNT, .RO, 0, none⟩,
  ⟨CRUC_UNCACHED.COUNT, .RO, 0, none⟩]

/-- The register tables of the HEAT block. -/
def rowsHEAT : List FieldRow := [
  ⟨HEAT_CURRENT.HEAT, .RO, 0, none⟩,
  ⟨HEAT_CTRL.LENGTH_US, .RW, 0, none⟩,
  ⟨HEAT_CTRL.SYNC_EN, .RW, 1, none⟩,
  ⟨HEAT_CTRL.SYNC_OUT_EN, .RW, 1, none⟩,
  ⟨HEAT_CTRL.CLOSE_NOW, .WO, 0, none⟩,
  ⟨HEAT_STATUS.LOCKED, .RO, 0, none⟩,
  ⟨HEAT_STATUS.CLOSE_DEFERRED, .RO, 0, none⟩,
  ⟨HEAT_STATUS.CTRL_REFUSED, .W1C, 0, none⟩,
  ⟨HEAT_STATUS.JOURNAL_STALL, .RO, 0, none⟩,
  ⟨HEAT_STATUS.RETAINING, .RO, 0, none⟩,
  ⟨HEAT_SYNC_IGNORED.COUNT, .RO, 0, none⟩,
  ⟨HEAT_SYNC_MISSED.COUNT, .RO, 0, none⟩,
  ⟨HEAT_WRAP.LEFT, .RO, 0, none⟩,
  ⟨HEAT_RESERVATION.R, .RO, 0, none⟩,
  ⟨HEAT_JRNL_OLDEST.HEAT, .RO, 0, none⟩,
  ⟨HEAT_JRNL_STATUS.ENTRIES, .RO, 0, none⟩,
  ⟨HEAT_JRNL_STATUS.COMPACTING, .RO, 0, none⟩,
  ⟨HEAT_JRNL_STATUS.PANIC, .RO, 0, none⟩,
  ⟨HEAT_JRNL_STATUS.TAG_WALK, .RO, 0, none⟩,
  ⟨HEAT_JRNL_PAGES.TOTAL, .RO, 0, none⟩,
  ⟨HEAT_JRNL_FREE.PAGES, .RO, 0, none⟩,
  ⟨HEAT_JRNL_CTRL.DIR_TARGET, .RW, 256, some (1, 896)⟩,
  ⟨HEAT_JRNL_CTRL.FREE_TARGET, .RW, 50, some (13, 90)⟩,
  ⟨HEAT_JRNL_RETAINED.RECORDS, .RO, 0, none⟩,
  ⟨HEAT_JRNL_CARRIED.COUNT, .RO, 0, none⟩]

/-- The register tables of the CEIL block. -/
def rowsCEIL : List FieldRow := [
  ⟨CEIL_C.C, .RO, 0, none⟩,
  ⟨CEIL_C_ENERGY.VALUE, .RO, 0, none⟩,
  ⟨CEIL_C_MEDIA.VALUE, .RO, 0, none⟩,
  ⟨CEIL_C_TIME.VALUE, .RO, 0, none⟩,
  ⟨CEIL_C_CAP.VALUE, .RO, 0, none⟩,
  ⟨CEIL_W.W, .RO, 0, none⟩,
  ⟨CEIL_W_LIMIT.W_LIM, .RO, 0, none⟩,
  ⟨CEIL_DIRTY_SLABS.S_D, .RO, 0, none⟩,
  ⟨CEIL_STATUS.STATE, .RO, 0, none⟩,
  ⟨CEIL_STATUS.BINDING, .RO, 0, none⟩,
  ⟨CEIL_STATUS.DRY_RUNNING, .RO, 0, none⟩,
  ⟨CEIL_STATUS.DRY_STALE, .RO, 0, none⟩,
  ⟨CEIL_STATUS.DEFAULTS, .RO, 0, none⟩,
  ⟨CEIL_E_BYTE.PJ, .RO, 0, none⟩,
  ⟨CEIL_RATE.MBPS, .RO, 0, none⟩,
  ⟨CEIL_E_USABLE.J, .RO, 0, none⟩,
  ⟨CEIL_DRY_CTRL.AUTO_EN, .RW, 1, none⟩,
  ⟨CEIL_DRY_CTRL.AUTO_MIB, .RW, 65536, none⟩,
  ⟨CEIL_DRY_E_MEAS.PJ, .RO, 0, none⟩,
  ⟨CEIL_DRY_R_MEAS.MBPS, .RO, 0, none⟩,
  ⟨CEIL_DRY_AGE.S, .RO, 0, none⟩,
  ⟨CEIL_OVER_COUNT.COUNT, .RO, 0, none⟩,
  ⟨CEIL_OVER_MS.MS, .RO, 0, none⟩,
  ⟨CEIL_WT_WRITES.COUNT, .RO, 0, none⟩]

/-- The register tables of the QNCH block. -/
def rowsQNCH : List FieldRow := [
  ⟨QNCH_TRIG_CTRL.MAIN_THRESH, .RW, 100, none⟩,
  ⟨QNCH_TRIG_CTRL.HOLD_THRESH, .RW, 100, none⟩,
  ⟨QNCH_TRIG_CTRL.MAIN_FILTER, .RW, 2, none⟩,
  ⟨QNCH_TRIG_CTRL.HOLD_FILTER, .RW, 2, none⟩,
  ⟨QNCH_TRIG_CTRL.PFN_FILTER, .RW, 2, none⟩,
  ⟨QNCH_TRIG_CTRL.MAIN_EN, .RW, 1, none⟩,
  ⟨QNCH_TRIG_CTRL.HOLD_EN, .RW, 1, none⟩,
  ⟨QNCH_TRIG_CTRL.PFN_EN, .RW, 1, none⟩,
  ⟨QNCH_TRIG_CTRL.LOCK, .RW, 0, none⟩,
  ⟨QNCH_STATUS.LAST_CAUSE, .RO, 0, none⟩,
  ⟨QNCH_STATUS.LAST_COMMITTED, .RO, 0, none⟩,
  ⟨QNCH_STATUS.LAST_EMPTY, .RO, 0, none⟩,
  ⟨QNCH_STATUS.LAST_CHAINED, .RO, 0, none⟩,
  ⟨QNCH_STATUS.LAST_PACKAGE_MODE, .RO, 0, none⟩,
  ⟨QNCH_STATUS.LAST_TAG_WALK, .RO, 0, none⟩,
  ⟨QNCH_STATUS.LAST_SANITIZE, .RO, 0, none⟩,
  ⟨QNCH_STATUS.CLAIMED, .RO, 0, none⟩,
  ⟨QNCH_LAST_GEN.GENERATION, .RO, 0, none⟩,
  ⟨QNCH_LAST_MS.MS, .RO, 0, none⟩,
  ⟨QNCH_LAST_BYTES.BYTES, .RO, 0, none⟩,
  ⟨QNCH_LAST_HEAT.HEAT, .RO, 0, none⟩,
  ⟨QNCH_NEXT_GEN.GENERATION, .RO, 0, none⟩,
  ⟨QNCH_IGNORED.COUNT, .RO, 0, none⟩,
  ⟨QNCH_RING_SEQ.SEQ, .RO, 0, none⟩,
  ⟨QNCH_DIE_STATUS.SHARE_FULL, .RO, 0, none⟩,
  ⟨QNCH_DIE_STATUS.CHAN_LOST, .RO, 0, none⟩,
  ⟨QNCH_DIE_SHARE.W_D, .RO, 0, none⟩,
  ⟨QNCH_DIE_W.W, .RO, 0, none⟩,
  ⟨QNCH_DIE_SEGMENTS.COUNT, .RO, 0, none⟩,
  ⟨QNCH_DIE_REWRITTEN.COUNT, .RO, 0, none⟩,
  ⟨QNCH_GATE_ACCEPTED.COUNT, .RO, 0, none⟩,
  ⟨QNCH_FENCE_ACCEPTED.COUNT, .RO, 0, none⟩]

/-- The register tables of the RHT block. -/
def rowsRHT : List FieldRow := [
  ⟨RHT_STATUS.PHASE, .RO, 0, none⟩,
  ⟨RHT_STATUS.INGOT, .RO, 0, none⟩,
  ⟨RHT_STATUS.FORMAT1, .RO, 0, none⟩,
  ⟨RHT_STATUS.LAZY, .RO, 0, none⟩,
  ⟨RHT_STATUS.CHAINED, .RO, 0, none⟩,
  ⟨RHT_STATUS.REDO, .RO, 0, none⟩,
  ⟨RHT_STATUS.FOUND_BY_SCAN, .RO, 0, none⟩,
  ⟨RHT_STATUS.UNNAMED_LOSS, .RO, 0, none⟩,
  ⟨RHT_CTRL.DISCARD, .WO, 0, none⟩,
  ⟨RHT_CTRL.BG_PCT, .RW, 50, some (10, 100)⟩,
  ⟨RHT_GENERATION.GENERATION, .RO, 0, none⟩,
  ⟨RHT_SEGMENTS.COUNT, .RO, 0, none⟩,
  ⟨RHT_RETIRED.COUNT, .RO, 0, none⟩,
  ⟨RHT_PENDING.COUNT, .RO, 0, none⟩,
  ⟨RHT_TWIN_SLABS.COUNT, .RO, 0, none⟩,
  ⟨RHT_LOST_SLABS.COUNT, .RO, 0, none⟩,
  ⟨RHT_DEMANDS.COUNT, .RO, 0, none⟩,
  ⟨RHT_REGION_STATUS.ROLE, .RO, 0, none⟩,
  ⟨RHT_REGION_STATUS.RESYNC, .RO, 0, none⟩,
  ⟨RHT_REGION_STATUS.CONFLICT, .RO, 0, none⟩,
  ⟨RHT_REGION_STATUS.RECLAIM_READY, .RO, 0, none⟩,
  ⟨RHT_REGION_STATUS.BACKING_HELD, .RO, 0, none⟩,
  ⟨RHT_REGION_EPOCH.EPOCH, .RO, 0, none⟩,
  ⟨RHT_REGION_CTRL.FORCE_SOLO, .WO, 0, none⟩,
  ⟨RHT_REGION_CTRL.YIELD, .WO, 0, none⟩,
  ⟨RHT_REGION_CTRL.RECLAIM, .WO, 0, none⟩,
  ⟨RHT_REGION_CTRL.CONFIRM_SOLE, .WO, 0, none⟩,
  ⟨RHT_RESYNC_LEFT.SLABS, .RO, 0, none⟩,
  ⟨RHT_DIE_STATUS.INDEX_DONE, .RO, 0, none⟩,
  ⟨RHT_DIE_STATUS.INDEX_PARTIAL, .RO, 0, none⟩,
  ⟨RHT_DIE_STATUS.COMPLETE, .RO, 0, none⟩,
  ⟨RHT_DIE_STATUS.TRAILER_OK, .RO, 0, none⟩,
  ⟨RHT_DIE_STATUS.FENCE_VALID, .RO, 0, none⟩,
  ⟨RHT_DIE_STATUS.AUTH_FAILS, .RO, 0, none⟩,
  ⟨RHT_DIE_STATUS.DAMAGED, .RO, 0, none⟩]

/-- The register tables of the WELD block. -/
def rowsWELD : List FieldRow := [
  ⟨WELD_LINK_STATUS.STATE, .RO, 0, none⟩,
  ⟨WELD_LINK_STATUS.WIDTH, .RO, 0, none⟩,
  ⟨WELD_LINK_STATUS.RATE, .RO, 0, none⟩,
  ⟨WELD_LINK_STATUS.VERSION1, .RO, 0, none⟩,
  ⟨WELD_LINK_STATUS.SPARE_QUAD, .RO, 0, none⟩,
  ⟨WELD_LINK_STATUS.PEER_DIE, .RO, 0, none⟩,
  ⟨WELD_LINK_STATUS.PEER_LINK, .RO, 0, none⟩,
  ⟨WELD_LINK_STATUS.ROLL_PENDING, .RO, 0, none⟩,
  ⟨WELD_LINK_CTRL.DISABLE, .RW, 0, none⟩,
  ⟨WELD_LINK_CTRL.RETRAIN, .WO, 0, none⟩,
  ⟨WELD_LINK_CTRL.KEY_ROLL_NOW, .WO, 0, none⟩,
  ⟨WELD_TX_COUNTER.COUNT, .RO, 0, none⟩,
  ⟨WELD_FRAMES_SENT.COUNT, .RO, 0, none⟩,
  ⟨WELD_FRAMES_RECEIVED.COUNT, .RO, 0, none⟩,
  ⟨WELD_RESENT.COUNT, .RO, 0, none⟩,
  ⟨WELD_AUTH_FAILS.COUNT, .RO, 0, none⟩,
  ⟨WELD_LOSSES.COUNT, .RO, 0, none⟩,
  ⟨WELD_KEY_ROLLS.COUNT, .RO, 0, none⟩,
  ⟨WELD_DIE_STATUS.SYNC_WAITING, .RO, 0, none⟩,
  ⟨WELD_DIE_STATUS.TX_QUEUED, .RO, 0, none⟩,
  ⟨WELD_DIE_STATUS.REROUTED, .RO, 0, none⟩,
  ⟨WELD_STRAY.COUNT, .RO, 0, none⟩,
  ⟨WELD_FETCHES.COUNT, .RO, 0, none⟩,
  ⟨WELD_FETCH_FAILS.COUNT, .RO, 0, none⟩,
  ⟨WELD_PAIR_STATUS.STATE, .RO, 0, none⟩,
  ⟨WELD_PAIR_STATUS.USABLE, .RO, 0, none⟩,
  ⟨WELD_PAIR_STATUS.JOINED, .RO, 0, none⟩,
  ⟨WELD_PAIR_STATUS.LAST_LOSS, .RO, 0, none⟩,
  ⟨WELD_TWIN_HEAT.HEAT, .RO, 0, none⟩,
  ⟨WELD_ACKED_HEAT.HEAT, .RO, 0, none⟩,
  ⟨WELD_HEAT_CATCHUP.COUNT, .RO, 0, none⟩,
  ⟨WELD_PROMOTE_US.US, .RO, 0, none⟩]

/-- The register tables of the BACK block. -/
def rowsBACK : List FieldRow := [
  ⟨BACK_CTRL.IO_TIMEOUT_MS, .RW, 2000, some (100, 30000)⟩,
  ⟨BACK_CTRL.AUTO_ATTACH, .RW, 1, none⟩,
  ⟨BACK_STATUS.ONLINE, .RO, 0, none⟩,
  ⟨BACK_STATUS.FAILED, .RO, 0, none⟩,
  ⟨BACK_STATUS.WAITING, .RO, 0, none⟩,
  ⟨BACK_STRANDED_SLABS.COUNT, .RO, 0, none⟩,
  ⟨BACK_KEY_CHECK.VALUE, .RO, 0, none⟩,
  ⟨BACK_DIGEST.DIGEST, .RO, 0, none⟩,
  ⟨BACK_NS_STATUS.STATE, .RO, 0, none⟩,
  ⟨BACK_NS_STATUS.CAUSE, .RO, 0, none⟩,
  ⟨BACK_NS_STATUS.LBA512, .RO, 0, none⟩,
  ⟨BACK_NS_STATUS.QUEUES, .RO, 0, none⟩,
  ⟨BACK_NS_STATUS.SMART_WARN, .RO, 0, none⟩,
  ⟨BACK_NS_CTRL.ADOPT, .WO, 0, none⟩,
  ⟨BACK_NS_CTRL.DETACH, .WO, 0, none⟩,
  ⟨BACK_NS_CTRL.ATTACH, .WO, 0, none⟩,
  ⟨BACK_NS_ERRORS.COUNT, .RO, 0, none⟩,
  ⟨BACK_NS_STRANDED.COUNT, .RO, 0, none⟩,
  ⟨BACK_PORT_STATUS.LINK_UP, .RO, 0, none⟩,
  ⟨BACK_PORT_STATUS.WIDTH, .RO, 0, none⟩,
  ⟨BACK_PORT_STATUS.RATE, .RO, 0, none⟩,
  ⟨BACK_PORT_STATUS.CTRL_READY, .RO, 0, none⟩,
  ⟨BACK_PORT_READS.COUNT, .RO, 0, none⟩,
  ⟨BACK_PORT_WRITES.COUNT, .RO, 0, none⟩,
  ⟨BACK_PORT_RETRIES.COUNT, .RO, 0, none⟩,
  ⟨BACK_PORT_TIMEOUTS.COUNT, .RO, 0, none⟩,
  ⟨BACK_PORT_RESETS.COUNT, .RO, 0, none⟩,
  ⟨BACK_PORT_OUTSTANDING.COUNT, .RO, 0, none⟩]

/-- The register tables of the CHAN block. -/
def rowsCHAN : List FieldRow := [
  ⟨CHAN_STATUS.STATE, .RO, 0, none⟩,
  ⟨CHAN_STATUS.DEGRADED, .RO, 0, none⟩,
  ⟨CHAN_STATUS.SPEED, .RO, 0, none⟩,
  ⟨CHAN_STATUS.DPC2, .RO, 0, none⟩,
  ⟨CHAN_STATUS.RANKS, .RO, 0, none⟩,
  ⟨CHAN_STATUS.SPARE_RANK, .RO, 0, none⟩,
  ⟨CHAN_STATUS.POLICY_FREEZE, .RO, 0, none⟩,
  ⟨CHAN_STATUS.REF_DOUBLED, .RO, 0, none⟩,
  ⟨CHAN_STATUS.POSTPONE_OFF, .RO, 0, none⟩,
  ⟨CHAN_STATUS.HELD, .RO, 0, none⟩,
  ⟨CHAN_CTRL.THAW, .WO, 0, none⟩,
  ⟨CHAN_CTRL.FREEZE_NOW, .WO, 0, none⟩,
  ⟨CHAN_CTRL.AUTO_THAW_MS, .RW, 100, none⟩,
  ⟨CHAN_REF_CTRL.MODE, .RW, 0, none⟩,
  ⟨CHAN_REF_CTRL.POSTPONE_EN, .RW, 1, none⟩,
  ⟨CHAN_RH_CTRL.THROTTLE_DIV, .RW, 3, some (0, 7)⟩,
  ⟨CHAN_RH_THRESHOLD.ACTS, .RO, 0, none⟩,
  ⟨CHAN_RH_COOLDOWN.US, .RO, 0, none⟩,
  ⟨CHAN_SR_IDLE.NS, .RO, 0, none⟩,
  ⟨CHAN_SCRUB_CTRL.PERIOD_H, .RW, 24, some (1, 168)⟩,
  ⟨CHAN_SCRUB_CTRL.DEGRADED_PERIOD_H, .RW, 1, none⟩,
  ⟨CHAN_SCRUB_POS.PERMILLE, .RO, 0, none⟩,
  ⟨CHAN_CE_LIMIT.BEATS, .RW, 1024, none⟩,
  ⟨CHAN_THROTTLED.MASK, .RO, 0, none⟩,
  ⟨CHAN_LOG_HEAD.NEXT, .RO, 0, none⟩,
  ⟨CHAN_LOG_HEAD.WRAPPED, .RO, 0, none⟩,
  ⟨CHAN_CE.COUNT, .RO, 0, none⟩,
  ⟨CHAN_UE.COUNT, .RO, 0, none⟩,
  ⟨CHAN_CA_RETRIES.COUNT, .RO, 0, none⟩,
  ⟨CHAN_CA_FAILS.COUNT, .RO, 0, none⟩,
  ⟨CHAN_RH_TRIGGERS.COUNT, .RO, 0, none⟩,
  ⟨CHAN_RFM.COUNT, .RO, 0, none⟩,
  ⟨CHAN_URGENT.COUNT, .RO, 0, none⟩,
  ⟨CHAN_PANIC.COUNT, .RO, 0, none⟩,
  ⟨CHAN_FREEZES.COUNT, .RO, 0, none⟩,
  ⟨CHAN_RANK_STATUS.OWED, .RO, 0, none⟩,
  ⟨CHAN_RANK_STATUS.SELF_REFRESH, .RO, 0, none⟩,
  ⟨CHAN_RANK_STATUS.MAPPED, .RO, 0, none⟩,
  ⟨CHAN_RANK_STATUS.SPARE, .RO, 0, none⟩,
  ⟨CHAN_RANK_STATUS.DOUBLED, .RO, 0, none⟩]
  ++ [
  ⟨CHAN_RANK_STATUS.POSTPONE_OFF, .RO, 0, none⟩,
  ⟨CHAN_RANK_STATUS.T_DRAM, .RO, 0, none⟩,
  ⟨CHAN_RANK_CE_INT.COUNT, .RO, 0, none⟩,
  ⟨CHAN_RANK_CE.COUNT, .RO, 0, none⟩,
  ⟨CHAN_DEVICE_CE.COUNT, .RO, 0, none⟩]

/-- The register tables of the TRN block. -/
def rowsTRN : List FieldRow := [
  ⟨TRN_CTRL.START, .WO, 0, none⟩,
  ⟨TRN_CTRL.STEP, .RW, 0, none⟩,
  ⟨TRN_CTRL.RANK, .RW, 0, none⟩,
  ⟨TRN_CTRL.ABORT, .WO, 0, none⟩,
  ⟨TRN_CTRL.COMMIT, .WO, 0, none⟩,
  ⟨TRN_CTRL.RETRAIN_NOW, .WO, 0, none⟩,
  ⟨TRN_CTRL.FULL, .RW, 0, none⟩,
  ⟨TRN_STATUS.ACTIVE, .RO, 0, none⟩,
  ⟨TRN_STATUS.DONE, .W1C, 0, none⟩,
  ⟨TRN_STATUS.RESULT, .RO, 0, none⟩,
  ⟨TRN_STATUS.STEP, .RO, 0, none⟩,
  ⟨TRN_STATUS.ELAPSED_US, .RO, 0, none⟩,
  ⟨TRN_PAT_CTRL.MODE, .RW, 0, none⟩,
  ⟨TRN_PAT_CTRL.INVERT_ALT, .RW, 0, none⟩,
  ⟨TRN_PAT_SEED.SEED, .RW, 1, none⟩,
  ⟨TRN_PAT_FIXED.PATTERN, .RW, 0, none⟩,
  ⟨TRN_CMP_MASK0.MASK, .RW, 0, none⟩,
  ⟨TRN_CMP_MASK1.MASK, .RW, 0, none⟩,
  ⟨TRN_SCAN_CTRL.START_CODE, .RW, 0, none⟩,
  ⟨TRN_SCAN_CTRL.END_CODE, .RW, 127, none⟩,
  ⟨TRN_SCAN_CTRL.STEP_SIZE, .RW, 1, none⟩,
  ⟨TRN_SCAN_CTRL.TARGET, .RW, 0, none⟩,
  ⟨TRN_SCAN_CTRL.SWEEP, .RW, 0, none⟩,
  ⟨TRN_SCAN_BURSTS.BURSTS, .RW, 64, none⟩,
  ⟨TRN_MIN_MARGIN.CODES, .RW, 12, none⟩,
  ⟨TRN_MIN_MARGIN.VREF_CODES, .RW, 6, none⟩,
  ⟨TRN_RETRAIN_CTRL.AUTO_EN, .RW, 1, none⟩,
  ⟨TRN_RETRAIN_CTRL.TEMP_DELTA, .RW, 10, some (2, 30)⟩,
  ⟨TRN_RETRAIN_CTRL.GAP_MS, .RW, 1, some (1, 255)⟩,
  ⟨TRN_CYCLES.COUNT, .RO, 0, none⟩,
  ⟨TRN_CYCLE_FAILS.COUNT, .RO, 0, none⟩,
  ⟨TRN_RANK.T_REF, .RO, 0, none⟩,
  ⟨TRN_RANK.LKG_VALID, .RO, 0, none⟩,
  ⟨TRN_RANK.PENDING, .RO, 0, none⟩,
  ⟨TRN_RANK.CAUSE, .RO, 0, none⟩,
  ⟨TRN_RANK.NO_SETTING, .RO, 0, none⟩,
  ⟨TRN_ERR_COUNT.COUNT, .RO, 0, none⟩,
  ⟨TRN_EYE.LEFT, .RO, 0, none⟩,
  ⟨TRN_EYE.RIGHT, .RO, 0, none⟩,
  ⟨TRN_EYE.CENTER, .RO, 0, none⟩]
  ++ [
  ⟨TRN_EYE.FOUND, .RO, 0, none⟩,
  ⟨TRN_VSWEEP.CODE, .RO, 0, none⟩,
  ⟨TRN_VSWEEP.MIN_WIDTH, .RO, 0, none⟩,
  ⟨TRN_VSWEEP.WORST_LANE, .RO, 0, none⟩]

/-- The register tables of the QFL block. -/
def rowsQFL : List FieldRow := [
  ⟨QFL_CHAN_STATUS.STATE, .RO, 0, none⟩,
  ⟨QFL_CHAN_STATUS.IN_SERVICE, .RO, 0, none⟩,
  ⟨QFL_CHAN_READY.QUADS, .RO, 0, none⟩,
  ⟨QFL_CHAN_STALE.QUADS, .RO, 0, none⟩,
  ⟨QFL_CHAN_RETIRED.BLOCKS, .RO, 0, none⟩,
  ⟨QFL_ECC_CTRL.WARN, .RW, 48, some (1, 72)⟩,
  ⟨QFL_PE_LIMIT.CYCLES, .RWL, 50000, none⟩,
  ⟨QFL_Q_TAIL.TAIL, .RW, 0, none⟩,
  ⟨QFL_Q_HEAD.HEAD, .RO, 0, none⟩,
  ⟨QFL_CQ_HEAD.HEAD, .RW, 0, none⟩,
  ⟨QFL_CQ_TAIL.TAIL, .RO, 0, none⟩,
  ⟨QFL_NAND_STATUS.STATE, .RO, 0, none⟩,
  ⟨QFL_NAND_STATUS.SPARE_MIN, .RO, 0, none⟩,
  ⟨QFL_DESC.WORD, .RW, 0, none⟩,
  ⟨QFL_CPL.WORD, .RO, 0, none⟩,
  ⟨QFL_B_ERASED.BYTES, .RO, 0, none⟩,
  ⟨QFL_B_DIE.BYTES, .RO, 0, none⟩,
  ⟨QFL_PKG_STATUS.NQ, .RO, 0, none⟩,
  ⟨QFL_PKG_STATUS.CHANNELS, .RO, 0, none⟩,
  ⟨QFL_PKG_STATUS.SPARE_EXHAUSTED, .RO, 0, none⟩,
  ⟨QFL_ERASE_BACKLOG.QUADS, .RO, 0, none⟩]

/-- The register tables of the BELL block. -/
def rowsBELL : List FieldRow := [
  ⟨BELL_SUPPLY_STATUS.MAIN_ABOVE, .RO, 0, none⟩,
  ⟨BELL_SUPPLY_STATUS.HOLD_ABOVE, .RO, 0, none⟩,
  ⟨BELL_SUPPLY_STATUS.AON_ABOVE, .RO, 0, none⟩,
  ⟨BELL_SUPPLY_STATUS.PFN_LEVEL, .RO, 0, none⟩,
  ⟨BELL_SUPPLY_STATUS.AON_LOW, .RO, 0, none⟩,
  ⟨BELL_SUPPLY_STATUS.AON_LOW_SEEN, .W1C, 0, none⟩,
  ⟨BELL_AON_CTRL.THRESH, .RW, 150, none⟩,
  ⟨BELL_LEARN_STATUS.STRING, .RO, 0, none⟩,
  ⟨BELL_LEARN_STATUS.ACTIVE, .RO, 0, none⟩,
  ⟨BELL_LEARN_STATUS.PENDING, .RO, 0, none⟩,
  ⟨BELL_LEARN_CTRL.AUTO_EN, .RW, 1, none⟩,
  ⟨BELL_LEARN_CTRL.PERIOD_D, .RW, 180, some (30, 3650)⟩,
  ⟨BELL_CAL_CTRL.EN, .RW, 1, none⟩,
  ⟨BELL_CAL_CTRL.PERIOD_S, .RW, 60, some (10, 3600)⟩,
  ⟨BELL_LIFE_S.S, .RO, 0, none⟩,
  ⟨BELL_JOURNAL_SEQ.SEQ, .RO, 0, none⟩,
  ⟨BELL_STR_STATUS.STATE, .RO, 0, none⟩,
  ⟨BELL_STR_STATUS.SWITCH, .RO, 0, none⟩,
  ⟨BELL_STR_STATUS.AUTHENTICATED, .RO, 0, none⟩,
  ⟨BELL_STR_STATUS.LEARNED, .RO, 0, none⟩,
  ⟨BELL_STR_STATUS.COUNTED, .RO, 0, none⟩,
  ⟨BELL_STR_STATUS.CONFLICT, .RO, 0, none⟩,
  ⟨BELL_STR_STATUS.UNKNOWN, .RO, 1, none⟩,
  ⟨BELL_STR_STATUS.LEARN, .RO, 0, none⟩,
  ⟨BELL_STR_STATUS.FAULT, .RO, 0, none⟩,
  ⟨BELL_STR_STATUS.CAL_REJECTS, .RO, 0, none⟩,
  ⟨BELL_STR_CTRL.FORCE_ISOLATE, .RW, 0, none⟩,
  ⟨BELL_STR_CTRL.LEARN, .WO, 0, none⟩,
  ⟨BELL_STR_CTRL.CANCEL, .WO, 0, none⟩,
  ⟨BELL_STR_CTRL.REAUTH, .WO, 0, none⟩,
  ⟨BELL_STR_V.MV, .RO, 0, none⟩,
  ⟨BELL_STR_I.MA, .RO, 0, none⟩,
  ⟨BELL_STR_TEMP.NTC_A, .RO, 0, none⟩,
  ⟨BELL_STR_TEMP.NTC_B, .RO, 0, none⟩,
  ⟨BELL_STR_R_EST.UOHM, .RO, 0, none⟩,
  ⟨BELL_STR_Q_RAW.MC, .RO, 0, none⟩,
  ⟨BELL_STR_Q_REP.MC, .RO, 0, none⟩,
  ⟨BELL_STR_CAP.MC, .RO, 0, none⟩,
  ⟨BELL_STR_THRU.MC, .RO, 0, none⟩,
  ⟨BELL_STR_E.J, .RO, 0, none⟩]
  ++ [
  ⟨BELL_STR_FEC.CYCLES, .RO, 0, none⟩,
  ⟨BELL_STR_SERIAL.WORD, .RO, 0, none⟩]

/-- The register tables of the TMP block. -/
def rowsTMP : List FieldRow := [
  ⟨TMP_STATUS.BANK_BUSY, .RO, 0, none⟩,
  ⟨TMP_STATUS.BANK_ERASING, .RO, 0, none⟩,
  ⟨TMP_STATUS.SCRUB_ACTIVE, .RO, 0, none⟩,
  ⟨TMP_STATUS.PATROL_ACTIVE, .RO, 0, none⟩,
  ⟨TMP_STATUS.SPARE_EXHAUSTED, .RO, 0, none⟩,
  ⟨TMP_CTRL.WARN_BITS, .RWL, 4, some (1, 255)⟩,
  ⟨TMP_CTRL.PATROL_EN, .RW, 1, none⟩,
  ⟨TMP_CTRL.PATROL_DAYS, .RW, 30, some (1, 365)⟩,
  ⟨TMP_SPARES_FREE.SECTORS, .RO, 0, none⟩,
  ⟨TMP_REMAPPED.SECTORS, .RO, 0, none⟩,
  ⟨TMP_REMAPPED.RETIRED, .RO, 0, none⟩,
  ⟨TMP_CORRECTED.COUNT, .RO, 0, none⟩,
  ⟨TMP_UNCORRECTABLE.COUNT, .RO, 0, none⟩,
  ⟨TMP_SCRUBS.COUNT, .RO, 0, none⟩,
  ⟨TMP_PATROL_POS.SECTOR, .RO, 0, none⟩,
  ⟨TMP_PATROL_PASSES.COUNT, .RO, 0, none⟩,
  ⟨TMP_DENIED.COUNT, .RO, 0, none⟩,
  ⟨TMP_Q_TAIL.TAIL, .RW, 0, none⟩,
  ⟨TMP_Q_HEAD.HEAD, .RO, 0, none⟩,
  ⟨TMP_CQ_HEAD.HEAD, .RW, 0, none⟩,
  ⟨TMP_CQ_TAIL.TAIL, .RO, 0, none⟩,
  ⟨TMP_DESC.WORD, .RW, 0, none⟩,
  ⟨TMP_CPL.WORD, .RO, 0, none⟩]

/-- The register tables of the POOL block. -/
def rowsPOOL : List FieldRow := [
  ⟨POOL_FREE.COUNT, .RO, 0, none⟩,
  ⟨POOL_ALLOC.COUNT, .RO, 0, none⟩,
  ⟨POOL_PENDING.COUNT, .RO, 0, none⟩,
  ⟨POOL_EMPTY.COUNT, .RO, 0, none⟩,
  ⟨POOL_BASE.OFFSET, .RO, 0, none⟩,
  ⟨POOL_QUARANTINE.MASK, .W1C, 0, none⟩,
  ⟨POOL_VIOL_LIMIT.LIMIT, .RO, 0, none⟩,
  ⟨POOL_VIOLATIONS.COUNT, .RO, 0, none⟩,
  ⟨POOL_HELD.COUNT, .RO, 0, none⟩,
  ⟨POOL_CMD.OP, .RW, 0, none⟩,
  ⟨POOL_CMD.CLASS, .RW, 0, none⟩,
  ⟨POOL_CMD.NO_FALLBACK, .RW, 0, none⟩,
  ⟨POOL_CMD.NEW_REQ, .RW, 0, none⟩,
  ⟨POOL_CMD.NEW_DIE, .RW, 0, none⟩,
  ⟨POOL_CMD.GO, .WO, 0, none⟩,
  ⟨POOL_CMD_HANDLE.HANDLE, .RW, 0, none⟩,
  ⟨POOL_CMD_STATUS.BUSY, .RO, 0, none⟩,
  ⟨POOL_CMD_STATUS.DONE, .W1C, 0, none⟩,
  ⟨POOL_CMD_STATUS.STATUS, .RO, 0, none⟩,
  ⟨POOL_BELLOWS_FREE.COUNT, .RO, 48, none⟩]

/-- The register tables of the EVT block. -/
def rowsEVT : List FieldRow := [
  ⟨EVT_WIN_SEQ.SEQ, .RW, 0, none⟩,
  ⟨EVT_WIN_STATUS.VALID, .RO, 0, none⟩,
  ⟨EVT_WIN_STATUS.GAP, .RO, 0, none⟩,
  ⟨EVT_WIN_NEXT.NEXT, .WO, 0, none⟩,
  ⟨EVT_WIN_RECORD.RECORD, .RO, 0, none⟩,
  ⟨EVT_STATUS.SEQ_STALL, .RO, 0, none⟩,
  ⟨EVT_STATUS.PV_IN_SERVICE, .RO, 0, none⟩,
  ⟨EVT_STATUS.QUEUE_FULL, .RO, 0, none⟩,
  ⟨EVT_NEXT_SEQ.SEQ, .RO, 0, none⟩,
  ⟨EVT_RESERVATION.SEQ, .RO, 0, none⟩,
  ⟨EVT_PV_BASE.SEQ, .RO, 0, none⟩,
  ⟨EVT_PV_COUNT.RECORDS, .RO, 0, none⟩,
  ⟨EVT_UNSEQ.COUNT, .RO, 0, none⟩,
  ⟨EVT_SUPPRESSED.COUNT, .RO, 0, none⟩,
  ⟨EVT_PV_OVF.COUNT, .RO, 0, none⟩,
  ⟨EVT_PV_OVF_LAST.SEQ, .RO, 0, none⟩,
  ⟨EVT_LEAF_STATUS.RECORDS, .RO, 0, none⟩,
  ⟨EVT_LEAF_STATUS.FULL, .RO, 0, none⟩,
  ⟨EVT_LEAF_STATUS.CLEARING, .RO, 0, none⟩,
  ⟨EVT_LEAF_STATUS.UNDEFINED, .RO, 0, none⟩,
  ⟨EVT_LEAF_DROPPED.TOTAL, .RO, 0, none⟩,
  ⟨EVT_LEAF_FIRST.SEQ, .RO, 0, none⟩,
  ⟨EVT_DROP.CODE, .RO, 0, none⟩,
  ⟨EVT_DROP.COUNT, .RO, 0, none⟩]

/-- The register tables of the SEC block. -/
def rowsSEC : List FieldRow := [
  ⟨SEC_STATUS.ALARM, .RO, 0, none⟩,
  ⟨SEC_STATUS.TAMPER_CLASS, .RO, 0, none⟩,
  ⟨SEC_STATUS.BLOB_EPOCH, .RO, 0, none⟩,
  ⟨SEC_STATUS.EPOCH_EXHAUSTED, .RO, 0, none⟩,
  ⟨SEC_STATUS.OWNER_LOCK, .RO, 0, none⟩,
  ⟨SEC_STATUS.BINDING_OK, .RO, 0, none⟩,
  ⟨SEC_STATUS.RESERVE_STAGED, .RO, 0, none⟩,
  ⟨SEC_STATUS.DEBUG_LOCKED, .RO, 0, none⟩,
  ⟨SEC_STATUS.SESSIONS, .RO, 0, none⟩,
  ⟨SEC_ALARM_CAUSE.TAMPER_N, .RO, 0, none⟩,
  ⟨SEC_ALARM_CAUSE.MESH, .RO, 0, none⟩,
  ⟨SEC_ALARM_CAUSE.VOLTAGE, .RO, 0, none⟩,
  ⟨SEC_ALARM_CAUSE.CLOCK, .RO, 0, none⟩,
  ⟨SEC_ALARM_CAUSE.TEMPERATURE, .RO, 0, none⟩,
  ⟨SEC_POLICY.POLICY, .RO, 0, none⟩,
  ⟨SEC_INGOT_ROLES.CURRENT, .RO, 0, none⟩,
  ⟨SEC_INGOT_ROLES.NEXT, .RO, 0, none⟩,
  ⟨SEC_INGOT_ROLES.RESERVE, .RO, 0, none⟩,
  ⟨SEC_INGOT_ROLES.PREVIOUS, .RO, 0, none⟩,
  ⟨SEC_INGOT_ROLES.ROLL, .RO, 0, none⟩,
  ⟨SEC_DRBG_STATUS.HEALTHY, .RO, 0, none⟩,
  ⟨SEC_DRBG_STATUS.FAILS, .RO, 0, none⟩,
  ⟨SEC_SLOT.ALG, .RO, 0, none⟩,
  ⟨SEC_SLOT.SHADOW, .RO, 0, none⟩,
  ⟨SEC_SLOT.GEN, .RO, 0, none⟩,
  ⟨SEC_SLOT_USERS.USERS, .RO, 0, none⟩,
  ⟨SEC_SLOT_USERS.SHADOW_USERS, .RO, 0, none⟩,
  ⟨SEC_LINK_STATUS.OCCUPIED, .RO, 0, none⟩]

/-- The register tables of the RST block. -/
def rowsRST : List FieldRow := [
  ⟨RST_STATUS.LAST_CAUSE, .RO, 0, none⟩,
  ⟨RST_STATUS.COMPAT, .RO, 0, none⟩,
  ⟨RST_STATUS.SB_ADDR, .RO, 0, none⟩,
  ⟨RST_STATUS.RECOVERY, .RO, 0, none⟩,
  ⟨RST_STATUS.NQ_ARMED, .RO, 0, none⟩,
  ⟨RST_STATUS.PHASE, .RO, 0, none⟩,
  ⟨RST_STATUS.FW_SLOT, .RO, 0, none⟩,
  ⟨RST_STATUS.FW_FALLBACK, .RO, 0, none⟩,
  ⟨RST_NQ_LEFT.MS, .RO, 0, none⟩,
  ⟨RST_WARM_COUNT.COUNT, .RWS, 0, none⟩,
  ⟨RST_DIE_OUT.FENCE_WIRE, .RO, 0, none⟩,
  ⟨RST_DIE_OUT.OTHER, .RO, 0, none⟩,
  ⟨RST_GLITCHES.COUNT, .RWS, 0, none⟩,
  ⟨RST_STEP_MS.MS, .RO, 0, none⟩]

/-- The register tables of the SVC block. -/
def rowsSVC : List FieldRow := [
  ⟨SVC_LIFE.PERCENT, .RO, 0, none⟩,
  ⟨SVC_LIFE.LT_PCT, .RO, 0, none⟩,
  ⟨SVC_LIFE.LV_PCT, .RO, 0, none⟩,
  ⟨SVC_SPARE_STATUS.EXHAUSTED, .RO, 0, none⟩,
  ⟨SVC_SPARE_STATUS.LIFE, .RO, 0, none⟩,
  ⟨SVC_CTRL.AUTO_QUAD, .RW, 1, none⟩,
  ⟨SVC_CTRL.AUTO_RANK, .RW, 1, none⟩,
  ⟨SVC_WEIGHTED_S.S, .RO, 0, none⟩,
  ⟨SVC_PPR_LOST.COUNT, .RO, 0, none⟩,
  ⟨SVC_DIE_STATUS.SLICE_REPLACED, .RO, 15, none⟩,
  ⟨SVC_DIE_STATUS.SPARE_SLICE_OK, .RO, 0, none⟩,
  ⟨SVC_DIE_STATUS.QUAD_REPLACED, .RO, 31, none⟩,
  ⟨SVC_DIE_STATUS.SMITH_ACTIVE, .RO, 0, none⟩,
  ⟨SVC_DIE_STATUS.STANDBY_OK, .RO, 0, none⟩,
  ⟨SVC_DIE_STATUS.VDD_AT_LIMIT, .RO, 0, none⟩,
  ⟨SVC_VDD.SETPOINT, .RO, 0, none⟩,
  ⟨SVC_VDD.NEEDED, .RO, 0, none⟩,
  ⟨SVC_VDD.BASE, .RO, 720, none⟩,
  ⟨SVC_SRAM.REPAIRED, .RO, 0, none⟩,
  ⟨SVC_SRAM.SPARES_MIN, .RO, 0, none⟩,
  ⟨SVC_D2D_RETRAINS.COUNT, .RO, 0, none⟩,
  ⟨SVC_CMD.OP, .RW, 0, none⟩,
  ⟨SVC_CMD.TARGET, .RW, 0, none⟩,
  ⟨SVC_CMD.GO, .WO, 0, none⟩,
  ⟨SVC_CMD_STATUS.BUSY, .RO, 0, none⟩,
  ⟨SVC_CMD_STATUS.DONE, .W1C, 0, none⟩,
  ⟨SVC_CMD_STATUS.STATUS, .RO, 0, none⟩,
  ⟨SVC_RANK_COPY.PERMILLE, .RO, 0, none⟩,
  ⟨SVC_RANK_COPY.RANK, .RO, 0, none⟩]

/-- The register tables of the HCB block. -/
def rowsHCB : List FieldRow := [
  ⟨HCB_ID.HEARTH_ID, .RO, 0, none⟩,
  ⟨HCB_ID.KIND, .RO, 0, none⟩,
  ⟨HCB_ID.PARENT, .RO, 0, none⟩,
  ⟨HCB_ID.DEPTH, .RO, 0, none⟩,
  ⟨HCB_PART.FORMAT, .RO, 1, none⟩,
  ⟨HCB_PART.STEPPING, .RO, 176, none⟩,
  ⟨HCB_PART.DIES, .RO, 0, none⟩,
  ⟨HCB_UNIT_BASE.BASE, .RO, 0, none⟩,
  ⟨HCB_UNIT_SIZE.BYTES, .RO, 0, none⟩,
  ⟨HCB_CAP0.SLICES, .RO, 0, none⟩,
  ⟨HCB_CAP0.DIES, .RO, 0, none⟩,
  ⟨HCB_CAP0.CHANNELS, .RO, 0, none⟩,
  ⟨HCB_CAP0.QFL_CHANNELS, .RO, 0, none⟩,
  ⟨HCB_CAP1.FABRIC_PORTS, .RO, 0, none⟩,
  ⟨HCB_CAP1.NVME_PORTS, .RO, 0, none⟩,
  ⟨HCB_CAP1.WELD_LINKS, .RO, 0, none⟩,
  ⟨HCB_FRAME_BYTES.BYTES, .RO, 0, none⟩,
  ⟨HCB_KEY_ID.KEY_ID, .RO, 0, none⟩,
  ⟨HCB_CERT_SEL.CERT, .RW, 0, none⟩,
  ⟨HCB_CERT_SEL.OFFSET, .RW, 0, none⟩,
  ⟨HCB_CERT_LEN.BYTES, .RO, 0, none⟩,
  ⟨HCB_CERT_DATA.DATA, .RO, 0, none⟩,
  ⟨HCB_STATUS.HEALTH, .RO, 0, none⟩,
  ⟨HCB_STATUS.IN_SERVICE, .RO, 0, none⟩,
  ⟨HCB_STATUS.SPARE_IDLE, .RO, 0, none⟩,
  ⟨HCB_TJ.TJ, .RO, 0, none⟩,
  ⟨HCB_LIFE.PERCENT, .RO, 0, none⟩,
  ⟨HCB_CMD_DPA.SLAB, .RW, 0, none⟩,
  ⟨HCB_CMD.COUNT, .RW, 1, none⟩,
  ⟨HCB_CMD.OP, .RW, 0, none⟩,
  ⟨HCB_CMD.DISCARD, .RW, 0, none⟩,
  ⟨HCB_CMD.GO, .WO, 0, none⟩,
  ⟨HCB_CMD_STATUS.BUSY, .RO, 0, none⟩,
  ⟨HCB_CMD_STATUS.DONE, .W1C, 0, none⟩,
  ⟨HCB_CMD_STATUS.STATUS, .RO, 0, none⟩,
  ⟨HCB_CMD_STATUS.FAIL_SOURCE, .RO, 0, none⟩,
  ⟨HCB_CMD_DONE.SLABS_DONE, .RO, 0, none⟩,
  ⟨HCB_CMD_FAIL_DPA.DPA, .RO, 0, none⟩,
  ⟨HCB_CHILD_COUNT.COUNT, .RO, 0, none⟩,
  ⟨HCB_CHILDREN.IDS, .RO, 0, none⟩]
  ++ [
  ⟨HCB_POOL_FREE.COUNT, .RO, 0, none⟩,
  ⟨HCB_POOL_ALLOC.COUNT, .RO, 0, none⟩,
  ⟨HCB_POOL_PENDING.COUNT, .RO, 0, none⟩,
  ⟨HCB_POOL_EMPTY.COUNT, .RO, 0, none⟩,
  ⟨HCB_POOL_QUARANTINED.MASK, .RO, 0, none⟩]

/-- The register tables of the SLAG block. -/
def rowsSLAG : List FieldRow := [
  ⟨SLAG_COUNT.COUNT, .RO, 0, none⟩,
  ⟨SLAG_COUNT.OVERFLOW, .RO, 0, none⟩,
  ⟨SLAG_ENTRY.WORD, .RO, 0, none⟩]

/-- The register tables of the ROOT block. -/
def rowsROOT : List FieldRow := [
  ⟨ROOT_STATUS.COMPAT, .RO, 0, none⟩,
  ⟨ROOT_STATUS.UNSEALED, .RO, 0, none⟩,
  ⟨ROOT_STATUS.MEM_ACTIVE, .RO, 0, none⟩,
  ⟨ROOT_STATUS.PHASE, .RO, 0, none⟩,
  ⟨ROOT_STATUS.DIES_IN_SERVICE, .RO, 0, none⟩,
  ⟨ROOT_RWL_IGNORED.COUNT, .RO, 0, none⟩]

/-- Every field row of the register map. -/
def fieldRows : List FieldRow :=
  rowsSWG ++ rowsFAB ++ rowsCRUC ++ rowsHEAT ++ rowsCEIL ++ rowsQNCH ++ rowsRHT ++ rowsWELD ++ rowsBACK ++ rowsCHAN ++ rowsTRN ++ rowsQFL ++ rowsBELL ++ rowsTMP ++ rowsPOOL ++ rowsEVT ++ rowsSEC ++ rowsRST ++ rowsSVC ++ rowsHCB ++ rowsSLAG ++ rowsROOT

/-- The block a register belongs to, so that a look-up reads one block's rows only. -/
def Reg.rows : Reg → List FieldRow
  | .SWG_STATUS => rowsSWG.filter (fun r => r.fld.reg = .SWG_STATUS)
  | .SWG_SERIAL => rowsSWG.filter (fun r => r.fld.reg = .SWG_SERIAL)
  | .SWG_CHECK => rowsSWG.filter (fun r => r.fld.reg = .SWG_CHECK)
  | .SWG_HASH => rowsSWG.filter (fun r => r.fld.reg = .SWG_HASH)
  | .SWG_MAP_MASK => rowsSWG.filter (fun r => r.fld.reg = .SWG_MAP_MASK)
  | .FAB_PORT_STATUS => rowsFAB.filter (fun r => r.fld.reg = .FAB_PORT_STATUS)
  | .FAB_PORT_REFUSED => rowsFAB.filter (fun r => r.fld.reg = .FAB_PORT_REFUSED)
  | .FAB_PORT_CREDITS => rowsFAB.filter (fun r => r.fld.reg = .FAB_PORT_CREDITS)
  | .FAB_AUTH_COUNT => rowsFAB.filter (fun r => r.fld.reg = .FAB_AUTH_COUNT)
  | .FAB_DSC => rowsFAB.filter (fun r => r.fld.reg = .FAB_DSC)
  | .FAB_SHUTDOWN_STATE => rowsFAB.filter (fun r => r.fld.reg = .FAB_SHUTDOWN_STATE)
  | .FAB_UNMAPPED_COUNT => rowsFAB.filter (fun r => r.fld.reg = .FAB_UNMAPPED_COUNT)
  | .FAB_BI_RESET => rowsFAB.filter (fun r => r.fld.reg = .FAB_BI_RESET)
  | .CRUC_MODE => rowsCRUC.filter (fun r => r.fld.reg = .CRUC_MODE)
  | .CRUC_DIRTY_SECTORS => rowsCRUC.filter (fun r => r.fld.reg = .CRUC_DIRTY_SECTORS)
  | .CRUC_SWEEP => rowsCRUC.filter (fun r => r.fld.reg = .CRUC_SWEEP)
  | .CRUC_DESTAGE_CTRL => rowsCRUC.filter (fun r => r.fld.reg = .CRUC_DESTAGE_CTRL)
  | .CRUC_POISONED_SLABS => rowsCRUC.filter (fun r => r.fld.reg = .CRUC_POISONED_SLABS)
  | .CRUC_PINNED_SLABS => rowsCRUC.filter (fun r => r.fld.reg = .CRUC_PINNED_SLABS)
  | .CRUC_POISON_PARTIAL => rowsCRUC.filter (fun r => r.fld.reg = .CRUC_POISON_PARTIAL)
  | .CRUC_MAINT_DPA => rowsCRUC.filter (fun r => r.fld.reg = .CRUC_MAINT_DPA)
  | .CRUC_MAINT_CTRL => rowsCRUC.filter (fun r => r.fld.reg = .CRUC_MAINT_CTRL)
  | .CRUC_MAINT_STATUS => rowsCRUC.filter (fun r => r.fld.reg = .CRUC_MAINT_STATUS)
  | .CRUC_MAINT_DONE => rowsCRUC.filter (fun r => r.fld.reg = .CRUC_MAINT_DONE)
  | .CRUC_MAINT_FAIL_DPA => rowsCRUC.filter (fun r => r.fld.reg = .CRUC_MAINT_FAIL_DPA)
  | .CRUC_SLICE_STATUS => rowsCRUC.filter (fun r => r.fld.reg = .CRUC_SLICE_STATUS)
  | .CRUC_READ_HITS => rowsCRUC.filter (fun r => r.fld.reg = .CRUC_READ_HITS)
  | .CRUC_READ_MISSES => rowsCRUC.filter (fun r => r.fld.reg = .CRUC_READ_MISSES)
  | .CRUC_WRITE_HITS => rowsCRUC.filter (fun r => r.fld.reg = .CRUC_WRITE_HITS)
  | .CRUC_WRITE_MISSES => rowsCRUC.filter (fun r => r.fld.reg = .CRUC_WRITE_MISSES)
  | .CRUC_TAGC_MISSES => rowsCRUC.filter (fun r => r.fld.reg = .CRUC_TAGC_MISSES)
  | .CRUC_SET_STALLS => rowsCRUC.filter (fun r => r.fld.reg = .CRUC_SET_STALLS)
  | .CRUC_TAG_CORRECTED => rowsCRUC.filter (fun r => r.fld.reg = .CRUC_TAG_CORRECTED)
  | .CRUC_TAG_ERRORS => rowsCRUC.filter (fun r => r.fld.reg = .CRUC_TAG_ERRORS)
  | .CRUC_DIRTY_SECTORS_SLICE => rowsCRUC.filter (fun r => r.fld.reg = .CRUC_DIRTY_SECTORS_SLICE)
  | .CRUC_UNCACHED => rowsCRUC.filter (fun r => r.fld.reg = .CRUC_UNCACHED)
  | .HEAT_CURRENT => rowsHEAT.filter (fun r => r.fld.reg = .HEAT_CURRENT)
  | .HEAT_CTRL => rowsHEAT.filter (fun r => r.fld.reg = .HEAT_CTRL)
  | .HEAT_STATUS => rowsHEAT.filter (fun r => r.fld.reg = .HEAT_STATUS)
  | .HEAT_SYNC_IGNORED => rowsHEAT.filter (fun r => r.fld.reg = .HEAT_SYNC_IGNORED)
  | .HEAT_SYNC_MISSED => rowsHEAT.filter (fun r => r.fld.reg = .HEAT_SYNC_MISSED)
  | .HEAT_WRAP => rowsHEAT.filter (fun r => r.fld.reg = .HEAT_WRAP)
  | .HEAT_RESERVATION => rowsHEAT.filter (fun r => r.fld.reg = .HEAT_RESERVATION)
  | .HEAT_JRNL_OLDEST => rowsHEAT.filter (fun r => r.fld.reg = .HEAT_JRNL_OLDEST)
  | .HEAT_JRNL_STATUS => rowsHEAT.filter (fun r => r.fld.reg = .HEAT_JRNL_STATUS)
  | .HEAT_JRNL_PAGES => rowsHEAT.filter (fun r => r.fld.reg = .HEAT_JRNL_PAGES)
  | .HEAT_JRNL_FREE => rowsHEAT.filter (fun r => r.fld.reg = .HEAT_JRNL_FREE)
  | .HEAT_JRNL_CTRL => rowsHEAT.filter (fun r => r.fld.reg = .HEAT_JRNL_CTRL)
  | .HEAT_JRNL_RETAINED => rowsHEAT.filter (fun r => r.fld.reg = .HEAT_JRNL_RETAINED)
  | .HEAT_JRNL_CARRIED => rowsHEAT.filter (fun r => r.fld.reg = .HEAT_JRNL_CARRIED)
  | .CEIL_C => rowsCEIL.filter (fun r => r.fld.reg = .CEIL_C)
  | .CEIL_C_ENERGY => rowsCEIL.filter (fun r => r.fld.reg = .CEIL_C_ENERGY)
  | .CEIL_C_MEDIA => rowsCEIL.filter (fun r => r.fld.reg = .CEIL_C_MEDIA)
  | .CEIL_C_TIME => rowsCEIL.filter (fun r => r.fld.reg = .CEIL_C_TIME)
  | .CEIL_C_CAP => rowsCEIL.filter (fun r => r.fld.reg = .CEIL_C_CAP)
  | .CEIL_W => rowsCEIL.filter (fun r => r.fld.reg = .CEIL_W)
  | .CEIL_W_LIMIT => rowsCEIL.filter (fun r => r.fld.reg = .CEIL_W_LIMIT)
  | .CEIL_DIRTY_SLABS => rowsCEIL.filter (fun r => r.fld.reg = .CEIL_DIRTY_SLABS)
  | .CEIL_STATUS => rowsCEIL.filter (fun r => r.fld.reg = .CEIL_STATUS)
  | .CEIL_E_BYTE => rowsCEIL.filter (fun r => r.fld.reg = .CEIL_E_BYTE)
  | .CEIL_RATE => rowsCEIL.filter (fun r => r.fld.reg = .CEIL_RATE)
  | .CEIL_E_USABLE => rowsCEIL.filter (fun r => r.fld.reg = .CEIL_E_USABLE)
  | .CEIL_DRY_CTRL => rowsCEIL.filter (fun r => r.fld.reg = .CEIL_DRY_CTRL)
  | .CEIL_DRY_E_MEAS => rowsCEIL.filter (fun r => r.fld.reg = .CEIL_DRY_E_MEAS)
  | .CEIL_DRY_R_MEAS => rowsCEIL.filter (fun r => r.fld.reg = .CEIL_DRY_R_MEAS)
  | .CEIL_DRY_AGE => rowsCEIL.filter (fun r => r.fld.reg = .CEIL_DRY_AGE)
  | .CEIL_OVER_COUNT => rowsCEIL.filter (fun r => r.fld.reg = .CEIL_OVER_COUNT)
  | .CEIL_OVER_MS => rowsCEIL.filter (fun r => r.fld.reg = .CEIL_OVER_MS)
  | .CEIL_WT_WRITES => rowsCEIL.filter (fun r => r.fld.reg = .CEIL_WT_WRITES)
  | .QNCH_TRIG_CTRL => rowsQNCH.filter (fun r => r.fld.reg = .QNCH_TRIG_CTRL)
  | .QNCH_STATUS => rowsQNCH.filter (fun r => r.fld.reg = .QNCH_STATUS)
  | .QNCH_LAST_GEN => rowsQNCH.filter (fun r => r.fld.reg = .QNCH_LAST_GEN)
  | .QNCH_LAST_MS => rowsQNCH.filter (fun r => r.fld.reg = .QNCH_LAST_MS)
  | .QNCH_LAST_BYTES => rowsQNCH.filter (fun r => r.fld.reg = .QNCH_LAST_BYTES)
  | .QNCH_LAST_HEAT => rowsQNCH.filter (fun r => r.fld.reg = .QNCH_LAST_HEAT)
  | .QNCH_NEXT_GEN => rowsQNCH.filter (fun r => r.fld.reg = .QNCH_NEXT_GEN)
  | .QNCH_IGNORED => rowsQNCH.filter (fun r => r.fld.reg = .QNCH_IGNORED)
  | .QNCH_RING_SEQ => rowsQNCH.filter (fun r => r.fld.reg = .QNCH_RING_SEQ)
  | .QNCH_DIE_STATUS => rowsQNCH.filter (fun r => r.fld.reg = .QNCH_DIE_STATUS)
  | .QNCH_DIE_SHARE => rowsQNCH.filter (fun r => r.fld.reg = .QNCH_DIE_SHARE)
  | .QNCH_DIE_W => rowsQNCH.filter (fun r => r.fld.reg = .QNCH_DIE_W)
  | .QNCH_DIE_SEGMENTS => rowsQNCH.filter (fun r => r.fld.reg = .QNCH_DIE_SEGMENTS)
  | .QNCH_DIE_REWRITTEN => rowsQNCH.filter (fun r => r.fld.reg = .QNCH_DIE_REWRITTEN)
  | .QNCH_GATE_ACCEPTED => rowsQNCH.filter (fun r => r.fld.reg = .QNCH_GATE_ACCEPTED)
  | .QNCH_FENCE_ACCEPTED => rowsQNCH.filter (fun r => r.fld.reg = .QNCH_FENCE_ACCEPTED)
  | .RHT_STATUS => rowsRHT.filter (fun r => r.fld.reg = .RHT_STATUS)
  | .RHT_CTRL => rowsRHT.filter (fun r => r.fld.reg = .RHT_CTRL)
  | .RHT_GENERATION => rowsRHT.filter (fun r => r.fld.reg = .RHT_GENERATION)
  | .RHT_SEGMENTS => rowsRHT.filter (fun r => r.fld.reg = .RHT_SEGMENTS)
  | .RHT_RETIRED => rowsRHT.filter (fun r => r.fld.reg = .RHT_RETIRED)
  | .RHT_PENDING => rowsRHT.filter (fun r => r.fld.reg = .RHT_PENDING)
  | .RHT_TWIN_SLABS => rowsRHT.filter (fun r => r.fld.reg = .RHT_TWIN_SLABS)
  | .RHT_LOST_SLABS => rowsRHT.filter (fun r => r.fld.reg = .RHT_LOST_SLABS)
  | .RHT_DEMANDS => rowsRHT.filter (fun r => r.fld.reg = .RHT_DEMANDS)
  | .RHT_REGION_STATUS => rowsRHT.filter (fun r => r.fld.reg = .RHT_REGION_STATUS)
  | .RHT_REGION_EPOCH => rowsRHT.filter (fun r => r.fld.reg = .RHT_REGION_EPOCH)
  | .RHT_REGION_CTRL => rowsRHT.filter (fun r => r.fld.reg = .RHT_REGION_CTRL)
  | .RHT_RESYNC_LEFT => rowsRHT.filter (fun r => r.fld.reg = .RHT_RESYNC_LEFT)
  | .RHT_DIE_STATUS => rowsRHT.filter (fun r => r.fld.reg = .RHT_DIE_STATUS)
  | .WELD_LINK_STATUS => rowsWELD.filter (fun r => r.fld.reg = .WELD_LINK_STATUS)
  | .WELD_LINK_CTRL => rowsWELD.filter (fun r => r.fld.reg = .WELD_LINK_CTRL)
  | .WELD_TX_COUNTER => rowsWELD.filter (fun r => r.fld.reg = .WELD_TX_COUNTER)
  | .WELD_FRAMES_SENT => rowsWELD.filter (fun r => r.fld.reg = .WELD_FRAMES_SENT)
  | .WELD_FRAMES_RECEIVED => rowsWELD.filter (fun r => r.fld.reg = .WELD_FRAMES_RECEIVED)
  | .WELD_RESENT => rowsWELD.filter (fun r => r.fld.reg = .WELD_RESENT)
  | .WELD_AUTH_FAILS => rowsWELD.filter (fun r => r.fld.reg = .WELD_AUTH_FAILS)
  | .WELD_LOSSES => rowsWELD.filter (fun r => r.fld.reg = .WELD_LOSSES)
  | .WELD_KEY_ROLLS => rowsWELD.filter (fun r => r.fld.reg = .WELD_KEY_ROLLS)
  | .WELD_DIE_STATUS => rowsWELD.filter (fun r => r.fld.reg = .WELD_DIE_STATUS)
  | .WELD_STRAY => rowsWELD.filter (fun r => r.fld.reg = .WELD_STRAY)
  | .WELD_FETCHES => rowsWELD.filter (fun r => r.fld.reg = .WELD_FETCHES)
  | .WELD_FETCH_FAILS => rowsWELD.filter (fun r => r.fld.reg = .WELD_FETCH_FAILS)
  | .WELD_PAIR_STATUS => rowsWELD.filter (fun r => r.fld.reg = .WELD_PAIR_STATUS)
  | .WELD_TWIN_HEAT => rowsWELD.filter (fun r => r.fld.reg = .WELD_TWIN_HEAT)
  | .WELD_ACKED_HEAT => rowsWELD.filter (fun r => r.fld.reg = .WELD_ACKED_HEAT)
  | .WELD_HEAT_CATCHUP => rowsWELD.filter (fun r => r.fld.reg = .WELD_HEAT_CATCHUP)
  | .WELD_PROMOTE_US => rowsWELD.filter (fun r => r.fld.reg = .WELD_PROMOTE_US)
  | .BACK_CTRL => rowsBACK.filter (fun r => r.fld.reg = .BACK_CTRL)
  | .BACK_STATUS => rowsBACK.filter (fun r => r.fld.reg = .BACK_STATUS)
  | .BACK_STRANDED_SLABS => rowsBACK.filter (fun r => r.fld.reg = .BACK_STRANDED_SLABS)
  | .BACK_KEY_CHECK => rowsBACK.filter (fun r => r.fld.reg = .BACK_KEY_CHECK)
  | .BACK_DIGEST => rowsBACK.filter (fun r => r.fld.reg = .BACK_DIGEST)
  | .BACK_NS_STATUS => rowsBACK.filter (fun r => r.fld.reg = .BACK_NS_STATUS)
  | .BACK_NS_CTRL => rowsBACK.filter (fun r => r.fld.reg = .BACK_NS_CTRL)
  | .BACK_NS_ERRORS => rowsBACK.filter (fun r => r.fld.reg = .BACK_NS_ERRORS)
  | .BACK_NS_STRANDED => rowsBACK.filter (fun r => r.fld.reg = .BACK_NS_STRANDED)
  | .BACK_PORT_STATUS => rowsBACK.filter (fun r => r.fld.reg = .BACK_PORT_STATUS)
  | .BACK_PORT_READS => rowsBACK.filter (fun r => r.fld.reg = .BACK_PORT_READS)
  | .BACK_PORT_WRITES => rowsBACK.filter (fun r => r.fld.reg = .BACK_PORT_WRITES)
  | .BACK_PORT_RETRIES => rowsBACK.filter (fun r => r.fld.reg = .BACK_PORT_RETRIES)
  | .BACK_PORT_TIMEOUTS => rowsBACK.filter (fun r => r.fld.reg = .BACK_PORT_TIMEOUTS)
  | .BACK_PORT_RESETS => rowsBACK.filter (fun r => r.fld.reg = .BACK_PORT_RESETS)
  | .BACK_PORT_OUTSTANDING => rowsBACK.filter (fun r => r.fld.reg = .BACK_PORT_OUTSTANDING)
  | .CHAN_STATUS => rowsCHAN.filter (fun r => r.fld.reg = .CHAN_STATUS)
  | .CHAN_CTRL => rowsCHAN.filter (fun r => r.fld.reg = .CHAN_CTRL)
  | .CHAN_REF_CTRL => rowsCHAN.filter (fun r => r.fld.reg = .CHAN_REF_CTRL)
  | .CHAN_RH_CTRL => rowsCHAN.filter (fun r => r.fld.reg = .CHAN_RH_CTRL)
  | .CHAN_RH_THRESHOLD => rowsCHAN.filter (fun r => r.fld.reg = .CHAN_RH_THRESHOLD)
  | .CHAN_RH_COOLDOWN => rowsCHAN.filter (fun r => r.fld.reg = .CHAN_RH_COOLDOWN)
  | .CHAN_SR_IDLE => rowsCHAN.filter (fun r => r.fld.reg = .CHAN_SR_IDLE)
  | .CHAN_SCRUB_CTRL => rowsCHAN.filter (fun r => r.fld.reg = .CHAN_SCRUB_CTRL)
  | .CHAN_SCRUB_POS => rowsCHAN.filter (fun r => r.fld.reg = .CHAN_SCRUB_POS)
  | .CHAN_CE_LIMIT => rowsCHAN.filter (fun r => r.fld.reg = .CHAN_CE_LIMIT)
  | .CHAN_THROTTLED => rowsCHAN.filter (fun r => r.fld.reg = .CHAN_THROTTLED)
  | .CHAN_LOG_HEAD => rowsCHAN.filter (fun r => r.fld.reg = .CHAN_LOG_HEAD)
  | .CHAN_CE => rowsCHAN.filter (fun r => r.fld.reg = .CHAN_CE)
  | .CHAN_UE => rowsCHAN.filter (fun r => r.fld.reg = .CHAN_UE)
  | .CHAN_CA_RETRIES => rowsCHAN.filter (fun r => r.fld.reg = .CHAN_CA_RETRIES)
  | .CHAN_CA_FAILS => rowsCHAN.filter (fun r => r.fld.reg = .CHAN_CA_FAILS)
  | .CHAN_RH_TRIGGERS => rowsCHAN.filter (fun r => r.fld.reg = .CHAN_RH_TRIGGERS)
  | .CHAN_RFM => rowsCHAN.filter (fun r => r.fld.reg = .CHAN_RFM)
  | .CHAN_URGENT => rowsCHAN.filter (fun r => r.fld.reg = .CHAN_URGENT)
  | .CHAN_PANIC => rowsCHAN.filter (fun r => r.fld.reg = .CHAN_PANIC)
  | .CHAN_FREEZES => rowsCHAN.filter (fun r => r.fld.reg = .CHAN_FREEZES)
  | .CHAN_RANK_STATUS => rowsCHAN.filter (fun r => r.fld.reg = .CHAN_RANK_STATUS)
  | .CHAN_RANK_CE_INT => rowsCHAN.filter (fun r => r.fld.reg = .CHAN_RANK_CE_INT)
  | .CHAN_RANK_CE => rowsCHAN.filter (fun r => r.fld.reg = .CHAN_RANK_CE)
  | .CHAN_DEVICE_CE => rowsCHAN.filter (fun r => r.fld.reg = .CHAN_DEVICE_CE)
  | .TRN_CTRL => rowsTRN.filter (fun r => r.fld.reg = .TRN_CTRL)
  | .TRN_STATUS => rowsTRN.filter (fun r => r.fld.reg = .TRN_STATUS)
  | .TRN_PAT_CTRL => rowsTRN.filter (fun r => r.fld.reg = .TRN_PAT_CTRL)
  | .TRN_PAT_SEED => rowsTRN.filter (fun r => r.fld.reg = .TRN_PAT_SEED)
  | .TRN_PAT_FIXED => rowsTRN.filter (fun r => r.fld.reg = .TRN_PAT_FIXED)
  | .TRN_CMP_MASK0 => rowsTRN.filter (fun r => r.fld.reg = .TRN_CMP_MASK0)
  | .TRN_CMP_MASK1 => rowsTRN.filter (fun r => r.fld.reg = .TRN_CMP_MASK1)
  | .TRN_SCAN_CTRL => rowsTRN.filter (fun r => r.fld.reg = .TRN_SCAN_CTRL)
  | .TRN_SCAN_BURSTS => rowsTRN.filter (fun r => r.fld.reg = .TRN_SCAN_BURSTS)
  | .TRN_MIN_MARGIN => rowsTRN.filter (fun r => r.fld.reg = .TRN_MIN_MARGIN)
  | .TRN_RETRAIN_CTRL => rowsTRN.filter (fun r => r.fld.reg = .TRN_RETRAIN_CTRL)
  | .TRN_CYCLES => rowsTRN.filter (fun r => r.fld.reg = .TRN_CYCLES)
  | .TRN_CYCLE_FAILS => rowsTRN.filter (fun r => r.fld.reg = .TRN_CYCLE_FAILS)
  | .TRN_RANK => rowsTRN.filter (fun r => r.fld.reg = .TRN_RANK)
  | .TRN_ERR_COUNT => rowsTRN.filter (fun r => r.fld.reg = .TRN_ERR_COUNT)
  | .TRN_EYE => rowsTRN.filter (fun r => r.fld.reg = .TRN_EYE)
  | .TRN_VSWEEP => rowsTRN.filter (fun r => r.fld.reg = .TRN_VSWEEP)
  | .QFL_CHAN_STATUS => rowsQFL.filter (fun r => r.fld.reg = .QFL_CHAN_STATUS)
  | .QFL_CHAN_READY => rowsQFL.filter (fun r => r.fld.reg = .QFL_CHAN_READY)
  | .QFL_CHAN_STALE => rowsQFL.filter (fun r => r.fld.reg = .QFL_CHAN_STALE)
  | .QFL_CHAN_RETIRED => rowsQFL.filter (fun r => r.fld.reg = .QFL_CHAN_RETIRED)
  | .QFL_ECC_CTRL => rowsQFL.filter (fun r => r.fld.reg = .QFL_ECC_CTRL)
  | .QFL_PE_LIMIT => rowsQFL.filter (fun r => r.fld.reg = .QFL_PE_LIMIT)
  | .QFL_Q_TAIL => rowsQFL.filter (fun r => r.fld.reg = .QFL_Q_TAIL)
  | .QFL_Q_HEAD => rowsQFL.filter (fun r => r.fld.reg = .QFL_Q_HEAD)
  | .QFL_CQ_HEAD => rowsQFL.filter (fun r => r.fld.reg = .QFL_CQ_HEAD)
  | .QFL_CQ_TAIL => rowsQFL.filter (fun r => r.fld.reg = .QFL_CQ_TAIL)
  | .QFL_NAND_STATUS => rowsQFL.filter (fun r => r.fld.reg = .QFL_NAND_STATUS)
  | .QFL_DESC => rowsQFL.filter (fun r => r.fld.reg = .QFL_DESC)
  | .QFL_CPL => rowsQFL.filter (fun r => r.fld.reg = .QFL_CPL)
  | .QFL_B_ERASED => rowsQFL.filter (fun r => r.fld.reg = .QFL_B_ERASED)
  | .QFL_B_DIE => rowsQFL.filter (fun r => r.fld.reg = .QFL_B_DIE)
  | .QFL_PKG_STATUS => rowsQFL.filter (fun r => r.fld.reg = .QFL_PKG_STATUS)
  | .QFL_ERASE_BACKLOG => rowsQFL.filter (fun r => r.fld.reg = .QFL_ERASE_BACKLOG)
  | .BELL_SUPPLY_STATUS => rowsBELL.filter (fun r => r.fld.reg = .BELL_SUPPLY_STATUS)
  | .BELL_AON_CTRL => rowsBELL.filter (fun r => r.fld.reg = .BELL_AON_CTRL)
  | .BELL_LEARN_STATUS => rowsBELL.filter (fun r => r.fld.reg = .BELL_LEARN_STATUS)
  | .BELL_LEARN_CTRL => rowsBELL.filter (fun r => r.fld.reg = .BELL_LEARN_CTRL)
  | .BELL_CAL_CTRL => rowsBELL.filter (fun r => r.fld.reg = .BELL_CAL_CTRL)
  | .BELL_LIFE_S => rowsBELL.filter (fun r => r.fld.reg = .BELL_LIFE_S)
  | .BELL_JOURNAL_SEQ => rowsBELL.filter (fun r => r.fld.reg = .BELL_JOURNAL_SEQ)
  | .BELL_STR_STATUS => rowsBELL.filter (fun r => r.fld.reg = .BELL_STR_STATUS)
  | .BELL_STR_CTRL => rowsBELL.filter (fun r => r.fld.reg = .BELL_STR_CTRL)
  | .BELL_STR_V => rowsBELL.filter (fun r => r.fld.reg = .BELL_STR_V)
  | .BELL_STR_I => rowsBELL.filter (fun r => r.fld.reg = .BELL_STR_I)
  | .BELL_STR_TEMP => rowsBELL.filter (fun r => r.fld.reg = .BELL_STR_TEMP)
  | .BELL_STR_R_EST => rowsBELL.filter (fun r => r.fld.reg = .BELL_STR_R_EST)
  | .BELL_STR_Q_RAW => rowsBELL.filter (fun r => r.fld.reg = .BELL_STR_Q_RAW)
  | .BELL_STR_Q_REP => rowsBELL.filter (fun r => r.fld.reg = .BELL_STR_Q_REP)
  | .BELL_STR_CAP => rowsBELL.filter (fun r => r.fld.reg = .BELL_STR_CAP)
  | .BELL_STR_THRU => rowsBELL.filter (fun r => r.fld.reg = .BELL_STR_THRU)
  | .BELL_STR_E => rowsBELL.filter (fun r => r.fld.reg = .BELL_STR_E)
  | .BELL_STR_FEC => rowsBELL.filter (fun r => r.fld.reg = .BELL_STR_FEC)
  | .BELL_STR_SERIAL => rowsBELL.filter (fun r => r.fld.reg = .BELL_STR_SERIAL)
  | .TMP_STATUS => rowsTMP.filter (fun r => r.fld.reg = .TMP_STATUS)
  | .TMP_CTRL => rowsTMP.filter (fun r => r.fld.reg = .TMP_CTRL)
  | .TMP_SPARES_FREE => rowsTMP.filter (fun r => r.fld.reg = .TMP_SPARES_FREE)
  | .TMP_REMAPPED => rowsTMP.filter (fun r => r.fld.reg = .TMP_REMAPPED)
  | .TMP_CORRECTED => rowsTMP.filter (fun r => r.fld.reg = .TMP_CORRECTED)
  | .TMP_UNCORRECTABLE => rowsTMP.filter (fun r => r.fld.reg = .TMP_UNCORRECTABLE)
  | .TMP_SCRUBS => rowsTMP.filter (fun r => r.fld.reg = .TMP_SCRUBS)
  | .TMP_PATROL_POS => rowsTMP.filter (fun r => r.fld.reg = .TMP_PATROL_POS)
  | .TMP_PATROL_PASSES => rowsTMP.filter (fun r => r.fld.reg = .TMP_PATROL_PASSES)
  | .TMP_DENIED => rowsTMP.filter (fun r => r.fld.reg = .TMP_DENIED)
  | .TMP_Q_TAIL => rowsTMP.filter (fun r => r.fld.reg = .TMP_Q_TAIL)
  | .TMP_Q_HEAD => rowsTMP.filter (fun r => r.fld.reg = .TMP_Q_HEAD)
  | .TMP_CQ_HEAD => rowsTMP.filter (fun r => r.fld.reg = .TMP_CQ_HEAD)
  | .TMP_CQ_TAIL => rowsTMP.filter (fun r => r.fld.reg = .TMP_CQ_TAIL)
  | .TMP_DESC => rowsTMP.filter (fun r => r.fld.reg = .TMP_DESC)
  | .TMP_CPL => rowsTMP.filter (fun r => r.fld.reg = .TMP_CPL)
  | .POOL_FREE => rowsPOOL.filter (fun r => r.fld.reg = .POOL_FREE)
  | .POOL_ALLOC => rowsPOOL.filter (fun r => r.fld.reg = .POOL_ALLOC)
  | .POOL_PENDING => rowsPOOL.filter (fun r => r.fld.reg = .POOL_PENDING)
  | .POOL_EMPTY => rowsPOOL.filter (fun r => r.fld.reg = .POOL_EMPTY)
  | .POOL_BASE => rowsPOOL.filter (fun r => r.fld.reg = .POOL_BASE)
  | .POOL_QUARANTINE => rowsPOOL.filter (fun r => r.fld.reg = .POOL_QUARANTINE)
  | .POOL_VIOL_LIMIT => rowsPOOL.filter (fun r => r.fld.reg = .POOL_VIOL_LIMIT)
  | .POOL_VIOLATIONS => rowsPOOL.filter (fun r => r.fld.reg = .POOL_VIOLATIONS)
  | .POOL_HELD => rowsPOOL.filter (fun r => r.fld.reg = .POOL_HELD)
  | .POOL_CMD => rowsPOOL.filter (fun r => r.fld.reg = .POOL_CMD)
  | .POOL_CMD_HANDLE => rowsPOOL.filter (fun r => r.fld.reg = .POOL_CMD_HANDLE)
  | .POOL_CMD_STATUS => rowsPOOL.filter (fun r => r.fld.reg = .POOL_CMD_STATUS)
  | .POOL_BELLOWS_FREE => rowsPOOL.filter (fun r => r.fld.reg = .POOL_BELLOWS_FREE)
  | .EVT_WIN_SEQ => rowsEVT.filter (fun r => r.fld.reg = .EVT_WIN_SEQ)
  | .EVT_WIN_STATUS => rowsEVT.filter (fun r => r.fld.reg = .EVT_WIN_STATUS)
  | .EVT_WIN_NEXT => rowsEVT.filter (fun r => r.fld.reg = .EVT_WIN_NEXT)
  | .EVT_WIN_RECORD => rowsEVT.filter (fun r => r.fld.reg = .EVT_WIN_RECORD)
  | .EVT_STATUS => rowsEVT.filter (fun r => r.fld.reg = .EVT_STATUS)
  | .EVT_NEXT_SEQ => rowsEVT.filter (fun r => r.fld.reg = .EVT_NEXT_SEQ)
  | .EVT_RESERVATION => rowsEVT.filter (fun r => r.fld.reg = .EVT_RESERVATION)
  | .EVT_PV_BASE => rowsEVT.filter (fun r => r.fld.reg = .EVT_PV_BASE)
  | .EVT_PV_COUNT => rowsEVT.filter (fun r => r.fld.reg = .EVT_PV_COUNT)
  | .EVT_UNSEQ => rowsEVT.filter (fun r => r.fld.reg = .EVT_UNSEQ)
  | .EVT_SUPPRESSED => rowsEVT.filter (fun r => r.fld.reg = .EVT_SUPPRESSED)
  | .EVT_PV_OVF => rowsEVT.filter (fun r => r.fld.reg = .EVT_PV_OVF)
  | .EVT_PV_OVF_LAST => rowsEVT.filter (fun r => r.fld.reg = .EVT_PV_OVF_LAST)
  | .EVT_LEAF_STATUS => rowsEVT.filter (fun r => r.fld.reg = .EVT_LEAF_STATUS)
  | .EVT_LEAF_DROPPED => rowsEVT.filter (fun r => r.fld.reg = .EVT_LEAF_DROPPED)
  | .EVT_LEAF_FIRST => rowsEVT.filter (fun r => r.fld.reg = .EVT_LEAF_FIRST)
  | .EVT_DROP => rowsEVT.filter (fun r => r.fld.reg = .EVT_DROP)
  | .SEC_STATUS => rowsSEC.filter (fun r => r.fld.reg = .SEC_STATUS)
  | .SEC_ALARM_CAUSE => rowsSEC.filter (fun r => r.fld.reg = .SEC_ALARM_CAUSE)
  | .SEC_POLICY => rowsSEC.filter (fun r => r.fld.reg = .SEC_POLICY)
  | .SEC_INGOT_ROLES => rowsSEC.filter (fun r => r.fld.reg = .SEC_INGOT_ROLES)
  | .SEC_DRBG_STATUS => rowsSEC.filter (fun r => r.fld.reg = .SEC_DRBG_STATUS)
  | .SEC_SLOT => rowsSEC.filter (fun r => r.fld.reg = .SEC_SLOT)
  | .SEC_SLOT_USERS => rowsSEC.filter (fun r => r.fld.reg = .SEC_SLOT_USERS)
  | .SEC_LINK_STATUS => rowsSEC.filter (fun r => r.fld.reg = .SEC_LINK_STATUS)
  | .RST_STATUS => rowsRST.filter (fun r => r.fld.reg = .RST_STATUS)
  | .RST_NQ_LEFT => rowsRST.filter (fun r => r.fld.reg = .RST_NQ_LEFT)
  | .RST_WARM_COUNT => rowsRST.filter (fun r => r.fld.reg = .RST_WARM_COUNT)
  | .RST_DIE_OUT => rowsRST.filter (fun r => r.fld.reg = .RST_DIE_OUT)
  | .RST_GLITCHES => rowsRST.filter (fun r => r.fld.reg = .RST_GLITCHES)
  | .RST_STEP_MS => rowsRST.filter (fun r => r.fld.reg = .RST_STEP_MS)
  | .SVC_LIFE => rowsSVC.filter (fun r => r.fld.reg = .SVC_LIFE)
  | .SVC_SPARE_STATUS => rowsSVC.filter (fun r => r.fld.reg = .SVC_SPARE_STATUS)
  | .SVC_CTRL => rowsSVC.filter (fun r => r.fld.reg = .SVC_CTRL)
  | .SVC_WEIGHTED_S => rowsSVC.filter (fun r => r.fld.reg = .SVC_WEIGHTED_S)
  | .SVC_PPR_LOST => rowsSVC.filter (fun r => r.fld.reg = .SVC_PPR_LOST)
  | .SVC_DIE_STATUS => rowsSVC.filter (fun r => r.fld.reg = .SVC_DIE_STATUS)
  | .SVC_VDD => rowsSVC.filter (fun r => r.fld.reg = .SVC_VDD)
  | .SVC_SRAM => rowsSVC.filter (fun r => r.fld.reg = .SVC_SRAM)
  | .SVC_D2D_RETRAINS => rowsSVC.filter (fun r => r.fld.reg = .SVC_D2D_RETRAINS)
  | .SVC_CMD => rowsSVC.filter (fun r => r.fld.reg = .SVC_CMD)
  | .SVC_CMD_STATUS => rowsSVC.filter (fun r => r.fld.reg = .SVC_CMD_STATUS)
  | .SVC_RANK_COPY => rowsSVC.filter (fun r => r.fld.reg = .SVC_RANK_COPY)
  | .HCB_ID => rowsHCB.filter (fun r => r.fld.reg = .HCB_ID)
  | .HCB_PART => rowsHCB.filter (fun r => r.fld.reg = .HCB_PART)
  | .HCB_UNIT_BASE => rowsHCB.filter (fun r => r.fld.reg = .HCB_UNIT_BASE)
  | .HCB_UNIT_SIZE => rowsHCB.filter (fun r => r.fld.reg = .HCB_UNIT_SIZE)
  | .HCB_CAP0 => rowsHCB.filter (fun r => r.fld.reg = .HCB_CAP0)
  | .HCB_CAP1 => rowsHCB.filter (fun r => r.fld.reg = .HCB_CAP1)
  | .HCB_FRAME_BYTES => rowsHCB.filter (fun r => r.fld.reg = .HCB_FRAME_BYTES)
  | .HCB_KEY_ID => rowsHCB.filter (fun r => r.fld.reg = .HCB_KEY_ID)
  | .HCB_CERT_SEL => rowsHCB.filter (fun r => r.fld.reg = .HCB_CERT_SEL)
  | .HCB_CERT_LEN => rowsHCB.filter (fun r => r.fld.reg = .HCB_CERT_LEN)
  | .HCB_CERT_DATA => rowsHCB.filter (fun r => r.fld.reg = .HCB_CERT_DATA)
  | .HCB_STATUS => rowsHCB.filter (fun r => r.fld.reg = .HCB_STATUS)
  | .HCB_TJ => rowsHCB.filter (fun r => r.fld.reg = .HCB_TJ)
  | .HCB_LIFE => rowsHCB.filter (fun r => r.fld.reg = .HCB_LIFE)
  | .HCB_CMD_DPA => rowsHCB.filter (fun r => r.fld.reg = .HCB_CMD_DPA)
  | .HCB_CMD => rowsHCB.filter (fun r => r.fld.reg = .HCB_CMD)
  | .HCB_CMD_STATUS => rowsHCB.filter (fun r => r.fld.reg = .HCB_CMD_STATUS)
  | .HCB_CMD_DONE => rowsHCB.filter (fun r => r.fld.reg = .HCB_CMD_DONE)
  | .HCB_CMD_FAIL_DPA => rowsHCB.filter (fun r => r.fld.reg = .HCB_CMD_FAIL_DPA)
  | .HCB_CHILD_COUNT => rowsHCB.filter (fun r => r.fld.reg = .HCB_CHILD_COUNT)
  | .HCB_CHILDREN => rowsHCB.filter (fun r => r.fld.reg = .HCB_CHILDREN)
  | .HCB_POOL_FREE => rowsHCB.filter (fun r => r.fld.reg = .HCB_POOL_FREE)
  | .HCB_POOL_ALLOC => rowsHCB.filter (fun r => r.fld.reg = .HCB_POOL_ALLOC)
  | .HCB_POOL_PENDING => rowsHCB.filter (fun r => r.fld.reg = .HCB_POOL_PENDING)
  | .HCB_POOL_EMPTY => rowsHCB.filter (fun r => r.fld.reg = .HCB_POOL_EMPTY)
  | .HCB_POOL_QUARANTINED => rowsHCB.filter (fun r => r.fld.reg = .HCB_POOL_QUARANTINED)
  | .SLAG_COUNT => rowsSLAG.filter (fun r => r.fld.reg = .SLAG_COUNT)
  | .SLAG_ENTRY => rowsSLAG.filter (fun r => r.fld.reg = .SLAG_ENTRY)
  | .ROOT_STATUS => rowsROOT.filter (fun r => r.fld.reg = .ROOT_STATUS)
  | .ROOT_RWL_IGNORED => rowsROOT.filter (fun r => r.fld.reg = .ROOT_RWL_IGNORED)

end Sys2Proof.Machine
end

