-- ==== Sys2Proof/Machine/Tab.lean ====
section
/-! DEFINITION. Finite tables as lists of (key, value) pairs, and the byte-order helpers. Every sparse piece of state
(registers, tags, DRAM lines, locks, requests, keys) is such a table: a key that is not listed holds its owner's default. -/

namespace Sys2Proof.Machine

/-- A finite table: at most one entry is read for a key, the first. -/
abbrev Tab (κ ν : Type) := List (κ × ν)

/-- The value listed for a key. -/
def tget {κ ν : Type} [DecidableEq κ] : Tab κ ν → κ → Option ν
  | [], _ => none
  | (k, v) :: t, q => if k = q then some v else tget t q

/-- The value listed for a key, or a default. -/
def tgetD {κ ν : Type} [DecidableEq κ] (t : Tab κ ν) (k : κ) (dflt : ν) : ν := (tget t k).getD dflt

/-- The table with the key's entry replaced, or added at the end. -/
def tset {κ ν : Type} [DecidableEq κ] : Tab κ ν → κ → ν → Tab κ ν
  | [], q, w => [(q, w)]
  | (k, v) :: t, q, w => if k = q then (k, w) :: t else (k, v) :: tset t q w

/-- The table without the key. -/
def tdel {κ ν : Type} [DecidableEq κ] (t : Tab κ ν) (q : κ) : Tab κ ν := t.filter (fun e => decide (e.1 ≠ q))

/-- The table with a listed key's value changed; a key that is not listed stays so. -/
def tmod {κ ν : Type} [DecidableEq κ] (t : Tab κ ν) (q : κ) (f : ν → ν) : Tab κ ν :=
  t.map (fun e => if e.1 = q then (e.1, f e.2) else e)

/-- The keys whose value satisfies a test, in the order of the list. -/
def tkeys {κ ν : Type} (t : Tab κ ν) (p : κ → ν → Bool) : List κ := (t.filter (fun e => p e.1 e.2)).map (·.1)

/-- The number of entries that satisfy a test. -/
def tcount {κ ν : Type} (t : Tab κ ν) (p : κ → ν → Bool) : Nat := (t.filter (fun e => p e.1 e.2)).length

/-- The list without the first element that satisfies the test. -/
def dropFirst {α : Type} (p : α → Bool) : List α → List α
  | [] => []
  | x :: xs => if p x then xs else x :: dropFirst p xs

/-- The elements of a list, each once, in order of first appearance. -/
def dedup {α : Type} [DecidableEq α] : List α → List α
  | [] => []
  | x :: xs => x :: (dedup xs).filter (fun y => decide (y ≠ x))

/-- A list sorted by ascending key (insertion sort: stable, and the kernel can run it). -/
def insertBy {α : Type} (key : α → Nat) (x : α) : List α → List α
  | [] => [x]
  | y :: ys => if key x < key y then x :: y :: ys else y :: insertBy key x ys

/-- See insertBy. -/
def sortBy {α : Type} (key : α → Nat) (l : List α) : List α := l.foldl (fun acc x => insertBy key x acc) []

/-- The greatest of a list, 0 for none. -/
def maxOf (l : List Nat) : Nat := l.foldl Nat.max 0

/-- The least of a list, a default for none. -/
def minOf (l : List Nat) (dflt : Nat) : Nat :=
  match l with
  | [] => dflt
  | x :: xs => xs.foldl Nat.min x

/-- The sum of a list. -/
def sumOf (l : List Nat) : Nat := l.foldl (· + ·) 0

/-- A value cut to a field that saturates at all ones (the counters of R115, R463, R523 and others). -/
def saturate (width v : Nat) : Nat := Nat.min v (2 ^ width - 1)

/-- The bytes of a number, least significant first (R7). -/
def leBytes : Nat → Nat → List Byte
  | 0, _ => []
  | n + 1, v => BitVec.ofNat 8 v :: leBytes n (v / 256)

/-- The number that a list of bytes spells, least significant first (R7). -/
def leValue : List Byte → Nat
  | [] => 0
  | b :: bs => b.toNat + 256 * leValue bs

/-- The bytes of a layout, item after item (R7, R614). -/
def fieldBytes (f : Fields) : List Byte := f.foldl (fun acc e => acc ++ leBytes e.1 e.2) []

/-- The field of `size` bytes at an offset of a byte list. -/
def leAt (bs : List Byte) (off size : Nat) : Nat := leValue ((bs.drop off).take size)

/-- A byte list cut or filled with 0x00 to a length. -/
def padTo (n : Nat) (bs : List Byte) : List Byte := (bs ++ List.replicate (n - bs.length) 0).take n

/-- One bit of a number. -/
def bit (v i : Nat) : Bool := v.testBit i

/-- The bits lo to lo + width − 1 of a number. -/
def bits (v lo width : Nat) : Nat := (v >>> lo) % 2 ^ width

/-- 1 for true. -/
def b2n (b : Bool) : Nat := if b then 1 else 0

/-- A list of choices as a bit mask. -/
def maskOf (l : List Nat) : Nat := l.foldl (fun m i => m ||| (1 <<< i)) 0

/-- The positions of the bits of a mask below a bound, ascending. -/
def bitsOf (n m : Nat) : List Nat := (List.range n).filter (fun i => m.testBit i)

/-- One bit step of CRC-32 (IEEE 802.3), reflected. -/
def crcStep (c : BitVec 32) : BitVec 32 := if c.getLsbD 0 then (c >>> 1) ^^^ 0xEDB88320#32 else c >>> 1

/-- CRC-32 (IEEE 802.3) over bytes (R181, R255, R460, R505). -/
def crc32 (bs : List Byte) : Nat :=
  let r := bs.foldl (fun c b =>
    crcStep (crcStep (crcStep (crcStep (crcStep (crcStep (crcStep (crcStep (c ^^^ b.zeroExtend 32)))))))) ) 0xFFFFFFFF#32
  (r ^^^ 0xFFFFFFFF#32).toNat

end Sys2Proof.Machine
end

