-- ==== Sys2Proof/Machine/State.lean ====
section
/-! DEFINITION. The state of the block: one structure per chapter of the manual, joined in Dev, and State: Dev beside the
queue of the commands that wait. A register is held once, in the register file (Dev.regs); the other fields hold what the
manual gives the block beside its registers. All of it is plain data. -/

namespace Sys2Proof.Machine

/-- The key of a register field: the field, the die (0: package; the Hearth ID for an HCB register) and up to two indexes. -/
structure FKey where
  fld : Fld
  a : Nat
  b : Nat
  c : Nat
  deriving DecidableEq, Repr

/-! ### The event recorder (R505 to R522) -/

/-- An event record (R505) with its payload bytes as R614 lays them out. -/
structure EvRec where
  seq : Nat
  code : Nat
  source : Nat
  severity : Nat
  quench : Bool
  truncated : Bool
  replayed : Bool
  payload : List Byte
  deriving DecidableEq, Repr

/-- The token bucket of one event code (R514, R515). -/
structure Bucket where
  tokens : Nat
  suppressed : Nat
  firstSrc : Nat
  lastSrc : Nat
  lastSeq : Nat
  deriving DecidableEq, Repr

/-- What the recorder holds beside its registers. -/
structure EvtState where
  /-- the next SEQ (EVT_NEXT_SEQ, R507) -/
  nextSeq : Nat
  /-- RESERVATION of the newest ESRV record (EVT_RESERVATION, R508) -/
  reservation : Nat
  /-- PV_BASE (R517) -/
  pvBase : Nat
  /-- the buckets that are not full; a code that is not listed has 8 tokens -/
  buckets : Tab Nat Bucket
  /-- the SRAM queue: leaf and record, oldest first (R509) -/
  queue : List (Nat × EvRec)
  /-- the package view: handle and record, in SEQ order (R516) -/
  view : List (Nat × EvRec)
  /-- per log: SEQ of the first record not added (R516) -/
  ovfFirst : Tab Nat Nat
  /-- per leaf: the code counts of its dropped table, OTHER as 0xFFFF (R510) -/
  dropped : Tab Nat (Tab Nat Nat)
  /-- leaves whose first drop after they filled has been reported (R510) -/
  fullSeen : List Nat
  /-- per leaf: the next sector its running clear erases (R512) -/
  clearing : Tab Nat Nat
  /-- SEQ and SOURCE of the records that have left the view or were not added to it (GAP, R522) -/
  gone : List (Nat × Nat)
  /-- records raised between T0 and the commit (R520) -/
  quenchRecs : List EvRec
  /-- EVENTS_LOST (R520) -/
  eventsLost : Nat
  deriving DecidableEq, Repr

/-! ### The Temper store (R465 to R485) -/

/-- The kinds of Temper store descriptor (R469). -/
inductive TmpOp
  | read | program | programAnd | eraseSector | blankCheck | marginRead
  deriving DecidableEq, Repr

/-- A program or erase that a bank runs (R468, R476): its queue (none: the store's own relocation work), its logical address,
its words, and the bytes that a program found there (R483). -/
structure TmpRun where
  banks : List Nat
  op : TmpOp
  queue : Option Nat
  addr : Nat
  words : Nat
  tag : Nat
  old : List Byte
  deriving DecidableEq, Repr

/-- What the medium shows to a descriptor: the words of its range that SECDED corrects (false) or finds uncorrectable (true),
and, for MARGIN_READ, the number of bits in which each word differs from its normal read. -/
structure TmpMedium where
  errs : List (Nat × Bool)
  diffs : List Nat
  deriving DecidableEq, Repr

/-- The Temper store's medium and its SRAM. -/
structure TmpState where
  /-- the data bytes by PHYSICAL byte address; an unlisted byte reads 0xFF, erased (R465) -/
  mem : List Host.Cell
  /-- physical words whose contents are undefined (R483): word numbers (address / 8) -/
  undefWords : List Nat
  /-- physical sectors whose erase was cut off (R483) -/
  undefSectors : List Nat
  /-- logical sectors away from home: logical, physical (R467, R481) -/
  remap : Tab Nat Nat
  /-- retired physical sectors (R480, R481) -/
  retired : List Nat
  /-- the free spare sectors, physical numbers (R481) -/
  spares : List Nat
  /-- the programs and erases that run, at most one a bank beside an interrupted erase (R468, R477) -/
  running : List TmpRun
  /-- queues whose head descriptor waits for its bank, in the order of arrival (R476) -/
  waiting : List (Nat × TmpMedium)
  /-- the last queue served by the round-robin (R468) -/
  lastServed : Nat
  /-- logical sectors queued for a scrub (R479) -/
  scrubs : List Nat
  /-- corrected and uncorrectable words that the running patrol pass has found, and when it began in ns (R479) -/
  patrolCorrected : Nat
  patrolUncorrectable : Nat
  patrolStart : Nat
  deriving DecidableEq, Repr

/-! ### The buffer pools (R489 to R501) -/

/-- A buffer that is not FREE (R493). -/
structure Buf where
  pending : Bool
  owner : Nat
  ownerDie : Nat
  share : Nat
  deriving DecidableEq, Repr

/-- The key of a buffer: its die (0 for the Bellows pool), its class and its index in the class. -/
structure BufKey where
  die : Nat
  cls : Nat
  idx : Nat
  deriving DecidableEq, Repr

/-- The buffer pools; a buffer that is not listed is FREE. -/
structure PoolState where
  bufs : Tab BufKey Buf
  /-- the words written into a held buffer -/
  data : Tab BufKey (List Word)
  /-- the round-robin pointer of each class's arbiter, by (die, class) (R495) -/
  rr : Tab (Nat × Nat) Nat
  /-- ALLOC requests that wait for the next larger class: die, class, requester, source die (R496) -/
  fallback : List (Nat × Nat × Nat × Nat)
  deriving DecidableEq, Repr

/-! ### The Swage image (R43 to R70) -/

/-- The parts (R1). -/
inductive Part
  | ogl2d | ogl4d | ogl8d
  deriving DecidableEq, Repr

/-- A group entry of TREE (R48). -/
structure GroupCfg where
  id : Nat
  parent : Nat
  children : List Nat
  deriving DecidableEq, Repr

/-- A quad entry of LANES (R50). -/
structure QuadCfg where
  role : Nat
  width : Nat
  rate : Nat
  flags : Nat
  deriving DecidableEq, Repr

/-- A die entry of LANES (R50). -/
structure LanesDie where
  quads : List QuadCfg
  spareRoute : Nat
  deriving DecidableEq, Repr

/-- DRAMMAP (R52). -/
structure DramCfg where
  dpaLimit : Nat
  dieBits : Nat
  rankBits : Nat
  dpc : Nat
  speed : Nat
  uePolicy : Nat
  chanFlags : Nat
  sets : Nat
  masks : List Nat
  deriving DecidableEq, Repr

/-- QUENCH (R53). -/
structure QuenchCfg where
  chanEnable : List Nat
  diesPerChan : Nat
  planes : Nat
  pages : Nat
  blocks : Nat
  onfiRate : Nat
  sparePct : Nat
  scratch : Nat
  deriving DecidableEq, Repr

/-- A battery string of ENERGY (R54). -/
structure StringCfg where
  capacity : Nat
  rEst : Nat
  vEod : Nat
  tempDerate : Nat
  ageDerate : Nat
  newDerate : Nat
  deriving DecidableEq, Repr

/-- ENERGY (R54). -/
structure EnergyCfg where
  flags : Nat
  eFixed : Nat
  eMargin : Nat
  hyst : Nat
  eByteDefault : Nat
  holdMax : Nat
  dryPeriod : Nat
  strings : List StringCfg
  deriving DecidableEq, Repr

/-- A requester of QOS (R55). -/
structure ReqCfg where
  cls : Nat
  weight : Nat
  panic : Nat
  age : Nat
  deriving DecidableEq, Repr

/-- QOS (R55). -/
structure QosCfg where
  rhThreshold : Nat
  rhCooldown : Nat
  srIdle : Nat
  reqs : List ReqCfg
  deriving DecidableEq, Repr

/-- POOLS (R56). -/
structure PoolsCfg where
  count : List Nat
  floor : List Nat
  violLimit : Nat
  quota : List (List Nat)
  fallback : List Nat
  deriving DecidableEq, Repr

/-- EVENTS (R58). -/
structure EventsCfg where
  refill : List Nat
  overrides : Tab Nat Nat
  deriving DecidableEq, Repr

/-- The defaults without a QOS section (R55). -/
def QosCfg.dflt : QosCfg :=
  { rhThreshold := 4096, rhCooldown := 1000, srIdle := 50000,
    reqs := (List.range 32).map (fun r => { cls := 0, weight := 16, panic := if r = 24 ∨ r = 25 ∨ r = 26 ∨ r = 31 then 12 else 0, age := 20 }) }

/-- The defaults without a POOLS section (R489). -/
def PoolsCfg.dflt : PoolsCfg :=
  { count := [16384, 2048, 384, 96], floor := [0, 256, 0, 48], violLimit := 16,
    quota := List.replicate 32 [0xFFFF, 0xFFFF, 0xFFFF, 0xFFFF], fallback := List.replicate 32 7 }

/-- The defaults without an EVENTS section (R58). -/
def EventsCfg.dflt : EventsCfg := { refill := List.replicate 16 100, overrides := [] }

/-- A namespace of BACKING (R60). -/
structure NsCfg where
  die : Nat
  port : Nat
  nsid : Nat
  slabs : Nat
  deriving DecidableEq, Repr

/-- BACKING (R60). -/
structure BackingCfg where
  stripe : Nat
  nss : List NsCfg
  deriving DecidableEq, Repr

/-- A region of WELD (R61). -/
structure RegionCfg where
  start : Nat
  size : Nat
  ownerSide : Nat
  mirror : Nat
  stallPolicy : Nat
  deriving DecidableEq, Repr

/-- WELD (R61). -/
structure WeldCfg where
  side : Nat
  heatLength : Nat
  twinId : Nat
  regions : List RegionCfg
  deriving DecidableEq, Repr

/-- A Swage image: its header (R44) and its sections. -/
structure SwgCfg where
  sealImage : Bool
  serial : Nat
  ownerKeyId : Nat
  partMask : Nat
  groups : List GroupCfg
  lanes : List LanesDie
  dram : DramCfg
  quench : QuenchCfg
  energy : EnergyCfg
  qos : QosCfg
  pools : PoolsCfg
  events : EventsCfg
  secPolicy : Nat
  batRootHash : Nat
  backing : BackingCfg
  weld : Option WeldCfg
  deriving DecidableEq, Repr

/-- The Swage unit. -/
structure SwgState where
  /-- the configuration in force: the loaded image with the partial images applied since (R63, R68) -/
  cfg : SwgCfg
  /-- whether an image is loaded; false in the no-image state (R64) -/
  loaded : Bool
  /-- SEAL in force: RWL fields are read-only (R65, R594) -/
  sealed : Bool
  /-- the highest PARTIAL_SEQ applied since the last reset (R66) -/
  partialSeq : Option Nat
  /-- a partial image is being processed (R69) -/
  partialBusy : Bool
  /-- the copy that a running SWG_CHECK verifies (R76) -/
  checking : Option Nat
  /-- the sections of the loaded image byte for byte, for the comparison of R66: ENERGY's value -/
  energyBytes : List Byte
  deriving DecidableEq, Repr

/-! ### The mailbox (R100 to R110) -/

/-- The shared status codes (R500). -/
inductive Status
  | ok | busy | lengthError | badHandle | notOwner | doubleFree | quota | empty | notErased | programFail | eraseFail
  | eccUncorrectable | authFail | keyErased | abortedByQuench | unsupported | accessDenied | dirtyPresent | freePending
  deriving DecidableEq, Repr

/-- The CXL return codes that the manual names (R79 to R110). -/
inductive Ret
  | success | backgroundStarted | invalidInput | unsupported | busy | invalidPayloadLength | invalidSlot | invalidHandle
  | abortedByQuench | retryRequired
  /-- the manual names no return code: a free value (assumption 3) -/
  | unstated (v : Nat)
  deriving DecidableEq, Repr

/-- A mailbox completion: opcode, return code, STATUS of the vendor head (R110) and the output fields after it. -/
structure Resp where
  opcode : Nat
  ret : Ret
  status : Status
  out : Fields
  deriving DecidableEq, Repr

/-- The background commands (R101). -/
inductive Background
  | quenchTest | sanitize
  deriving DecidableEq, Repr

/-- A command that runs and has not completed: its path, its opcode, and whether its completion is still delivered: a
function-level reset discards it (R102, R553). -/
structure Running where
  path : Path
  opcode : Nat
  deliver : Bool
  deriving DecidableEq, Repr

/-- The command processor's state (R100 to R107). -/
structure MboxState where
  /-- the completion of the last command -/
  resp : Option Resp
  /-- the background command that runs, with its percent complete -/
  background : Option (Background × Nat)
  /-- the path and opcode of a command that runs now and has not completed (R102) -/
  running : Option Running
  /-- the commands whose doorbells have been rung while another runs, in their order (R101) -/
  held : List Instr
  /-- the event interrupt policy of the four logs: true is MSI-X (R106) -/
  policy : List Bool
  /-- alert thresholds: life used, temperature, corrected errors (R106) -/
  alerts : List Nat
  /-- the last set timestamp and the time in ns at which it was set (R106, R519) -/
  timestamp : Nat
  timestampAt : Nat
  /-- poison list overflow: flag and SEQ (R106) -/
  poisonOvf : Option Nat
  deriving DecidableEq, Repr


/-! ### Requests, the fabric ports and the Crucible (R78 to R165) -/

/-- Where a request comes from: a fabric port with its host and LD, a Weld link that has received an entry, or a port whose
reset has come since: nothing is sent for it any more (R93). -/
inductive Src
  | port (die port host : Nat) (ld : Option Nat)
  | weld (die link : Nat)
  | gone
  deriving DecidableEq, Repr

/-- What a request does. A read may ask for ownership in an HDM-DB range (0 none, 1 shared, 2 exclusive). A mirror entry
carries its write ID and its source die (R315). -/
inductive ReqKind
  | read (own : Nat)
  | write
  | mirrorLine (id srcDie : Nat)
  | mirrorClean (id srcDie : Nat)
  /-- RESYNC_DATA of a slab: its KIND, the DIRTY_MASK, and the sectors (R294, R319) -/
  | resync (kind : Nat) (mask : Mask) (lines : List Line)
  deriving DecidableEq, Repr

/-- Why a request waits, from its arrival to its completion. -/
inductive Wait
  /-- not admitted at its Tongs lock yet (R127) -/
  | arrival
  /-- the BIRsp of every sharer of these lines (R83, R84); the lock is held -/
  | birsp (lines : List Nat)
  /-- a fill or a restore of its slab (R142, R278) -/
  | fill
  /-- the destage of a victim of its set (R134) -/
  | setStall (victim : Nat)
  /-- an allocatable way, with the lock held, since a time in ns (R135) -/
  | way (since : Nat)
  /-- the journal reserve (R193) -/
  | journal
  /-- the end of its die's index pass (R281) -/
  | index
  /-- room in the Weld transmit queue (R325) -/
  | txRoom
  /-- the ceiling or the die share, a receive entry (R212) -/
  | ceiling
  /-- a FAILED namespace, or the end of a backing hold (R292, R358) -/
  | backing
  /-- the effect is taken; the NVMe completion of a destage is awaited (R141) -/
  | destage
  /-- the effect is taken; the MIRROR_ACK of its entry is awaited (R328) -/
  | mirrorAck
  /-- an uncached read's backing read (R135) -/
  | uncached
  /-- a BYPASS or uncached write's staging buffer is at work (R144) -/
  | staging
  /-- a set rebuild (R157) -/
  | rebuild
  /-- an access that R19 serves through the twin by FETCH -/
  | fetch
  deriving DecidableEq, Repr

/-- A request between its acceptance and its completion. -/
structure Req where
  rid : Nat
  src : Src
  kind : ReqKind
  slab : Nat
  sector : Nat
  data : Line
  be : Mask
  tag : Nat
  /-- the heat that a receive entry carries (R174) -/
  heat : Nat
  wait : Wait
  /-- when the request was accepted -/
  since : Nat
  deriving DecidableEq, Repr

/-- A cache set: the bank and the set in it (R73). -/
structure SetKey where
  die : Nat
  chan : Nat
  rank : Nat
  group : Nat
  bank : Nat
  set : Nat
  deriving DecidableEq, Repr

/-- A frame of a set (R117). -/
structure Frame where
  set : SetKey
  way : Nat
  deriving DecidableEq, Repr

/-- The slab states (R118, R123). -/
inductive SlabState
  | invalid | clean | dirty | filling | destaging | poisoned
  deriving DecidableEq, Repr

/-- A tag (R118). A frame with no tag listed is INVALID. -/
structure Tag where
  slab : Nat
  mask : Mask
  state : SlabState
  gen : Nat
  heat : Nat
  age : Nat
  pinned : Bool
  deriving DecidableEq, Repr

/-- A staging buffer of a BYPASS or uncached write, or of a write released at T0 (R144, R135, R163). -/
structure Staging where
  slab : Nat
  valid : Mask
  lines : Tab Nat Line
  be : Tab Nat Mask
  /-- 0 backing read in flight, 1 backing write in flight, 2 to be retried, 3 held at T0 -/
  phase : Nat
  /-- the sectors that its write has written, for the mirror entries -/
  wrote : Mask
  deriving DecidableEq, Repr

/-- A destage in flight: its redirty mask, and the written-through writes that precede its read (R140, R141). -/
structure Destage where
  redirty : Mask
  rids : List Nat
  deriving DecidableEq, Repr

/-- Who asked for a maintenance request (R151, R169, R587): the mailbox, a die's Smith cores, or an HCB command of a Hearth as one
of its slices carries it out. -/
inductive MaintFrom
  | mailbox
  | smith (die : Nat)
  | hcb (hearth slice : Nat)
  deriving DecidableEq, Repr

/-- The maintenance operations (R149). -/
inductive MaintOp
  | clean | invalidate | evict | pin | unpin | fillAhead
  deriving DecidableEq, Repr

/-- A maintenance request (R152) that has not ended, or an ended one whose group has not. -/
structure Maint where
  id : Nat
  origin : MaintFrom
  first : Nat
  count : Nat
  op : MaintOp
  discard : Bool
  /-- the slices whose slabs it acts on; none: every slab (R154) -/
  owners : Option (List Nat)
  /-- the LD's first slab, for the DPA of a failure (R105) -/
  base : Nat
  /-- the first slab beyond the LD's allocation (R79, R81) -/
  top : Nat
  /-- the next slab of the range -/
  next : Nat
  /-- it has ended, with a status -/
  ended : Option Status
  /-- CLEAN or EVICT has started a destage of its slab -/
  cleaning : Bool
  /-- BISnpInv of its slab have gone out, and the lines whose BIRsp are missing (R83) -/
  snooped : Bool
  snooping : List Nat
  deriving DecidableEq, Repr

/-- A snoop directory entry (R82, R84). -/
structure DirEntry where
  sharers : List Nat
  broadcast : Bool
  deriving DecidableEq, Repr

/-- An HDM-DB range of an HDM decoder: its port, its LD, its number, the range in the package's DPA space, and the hosts bound to
it (R78, R84). -/
structure HdmRange where
  die : Nat
  port : Nat
  ld : Option Nat
  decoder : Nat
  start : Nat
  size : Nat
  hosts : List Nat
  deriving DecidableEq, Repr

/-- A Dynamic Capacity extent: its host and whether it is offered (0), added (1) or being released (2) (R109). -/
structure Extent where
  start : Nat
  size : Nat
  host : Nat
  state : Nat
  deriving DecidableEq, Repr

/-- A Dynamic Capacity region: its start, size and block size (R78). -/
structure DcRegion where
  start : Nat
  size : Nat
  block : Nat
  deriving DecidableEq, Repr

/-- A GPF request that waits for the accepted writes of its port (R94). -/
structure GpfWait where
  die : Nat
  port : Nat
  rids : List Nat
  at0 : Nat
  deriving DecidableEq, Repr

/-- The fabric ports beside their registers. -/
structure FabState where
  hdmDb : List HdmRange
  /-- the snoop directory by line (DPA / 64), oldest first (R82) -/
  dir : Tab Nat DirEntry
  /-- BISnpInv messages without their BIRsp: line and host (R83) -/
  snoops : List (Nat × Nat)
  /-- ports whose IDE stream has failed and not been secured again: their messages are discarded (R87) -/
  insecure : List (Nat × Nat)
  /-- Weld regions under broadcast invalidation (R85) -/
  biBroadcast : List Nat
  /-- LD allocations: die, port, LD to start and size (R79) -/
  lds : Tab (Nat × Nat × Nat) (Nat × Nat)
  /-- the GFAM access tables: die, port, enabled source port ID (R80) -/
  gfam : List (Nat × Nat × Nat)
  /-- Dynamic Capacity regions (R78, R109) -/
  dcRegions : List DcRegion
  extents : List Extent
  /-- GPF requests that wait: port, requests that must pass their locks, time of the request (R94) -/
  gpf : List GpfWait
  /-- die-to-die links that retrain, by the die at their far end and their number (R19) -/
  d2d : List (Nat × Nat)
  /-- Media Status Error (R98) -/
  mediaError : Bool
  deriving DecidableEq, Repr

/-- The Crucible beside its registers. -/
structure CruState where
  tags : Tab Frame Tag
  /-- the 64 B lines of the frames and of staging-free slabs, by slab and sector; a line never written is a free value -/
  dram : Tab (Nat × Nat) Line
  /-- byte-enable masks of sectors that wait for their fill (R138) -/
  be : Tab (Nat × Nat) Mask
  /-- poisoned sectors: slab and sector (R106, R160) -/
  poison : List (Nat × Nat)
  /-- slabs on the poison list without a frame (R158) -/
  frameless : List Nat
  /-- fills in flight: slab, and whether the twin is asked (R138, R331) -/
  fills : Tab Nat Bool
  /-- destages in flight: slab and redirty mask (R140) -/
  destages : Tab Nat Destage
  /-- slabs whose failed destage is not selected before a time (R140) -/
  notBefore : Tab Nat Nat
  /-- slabs due for destage after IDLE_MS without a write (R139) -/
  idleDue : List Nat
  /-- slabs that were stranded and are destaged first (R359) -/
  first : List Nat
  /-- staging buffers by their request (R144) -/
  staging : Tab Nat Staging
  reqs : List Req
  nextRid : Nat
  maints : List Maint
  nextMaint : Nat
  /-- slabs held exclusively by an EVICT (R149) -/
  evicting : List Nat
  /-- sets under rebuild with their lost ways (R157), and the slabs that the twin has given for them -/
  rebuilds : Tab SetKey (List Nat)
  fetched : Tab Nat (List Line)
  /-- set stall held reports: set and time (R135) -/
  heldAt : Tab SetKey Nat
  /-- time of the last CRUC_LOCK_TABLE_FULL of a slice (R132) -/
  lockFullAt : Tab Nat Nat
  /-- slices that have reported FENCE_DRAINED (R162) -/
  drained : List Nat
  /-- masked sectors with uncorrectable data that the twin has been asked for: slab and sector (R160, R161) -/
  recover : List (Nat × Nat)
  /-- the destage engine runs: from START_PCT to STOP_PCT (R139) -/
  engine : Bool
  deriving DecidableEq, Repr

/-! ### Heats, the journal and the ceiling (R172 to R223) -/

/-- A journal record: slab and KIND (0 write, 1 Weld receive write, 2 reheat restore, 3 carry) (R187). -/
structure JRec where
  slab : Nat
  kind : Nat
  deriving DecidableEq, Repr

/-- The states of a heat directory entry (R188); FREE entries are not listed. -/
inductive EntryState
  | opened | closing | isSealed | compacting
  deriving DecidableEq, Repr

/-- A heat directory entry with its records: those written to both copies, and those in the write buffer (R188, R189). -/
structure Entry where
  heat : Nat
  receive : Bool
  state : EntryState
  written : List JRec
  buffered : List JRec
  deriving DecidableEq, Repr

/-- Heats and journals beside their registers. -/
structure HeatState where
  /-- the first heat of this start-up has opened (R176) -/
  opened : Bool
  /-- time of the last boundary in ns (R177) -/
  last : Nat
  /-- T_exp in ns (R177) -/
  tExp : Nat
  /-- the boundary of the present window has been taken by its timer or an edge (R178) -/
  edgeSeen : Bool
  /-- heats in a row that closed without an edge (R178) -/
  missedRow : Nat
  /-- a boundary waits for a reservation or a directory entry: the heat it opens (R182, R184, R193) -/
  deferred : Option Nat
  /-- a reservation record is to be programmed: its R (R182) -/
  reserve : Option Nat
  /-- the heat directory of each die (R188) -/
  dirs : Tab Nat (List Entry)
  /-- regions that retain, with their split heat (R194) -/
  retaining : Tab Nat Nat
  /-- regions whose incremental resync has become impossible (R196) -/
  noIncremental : List Nat
  /-- heats that the pair requires to be opened at the next boundary (R184) -/
  joinHeat : Option Nat
  deriving DecidableEq, Repr

/-- A running dry quench (R218, R219): sample in MiB, FLAGS bit 0, automatic, when its window opened, the energy of the strings since
then in nJ, and whether a string has changed state. -/
structure DryRun where
  sampleMib : Nat
  update : Bool
  auto : Bool
  openedAt : Option Nat
  energy : Int
  changed : Bool
  deriving DecidableEq, Repr

/-- The ceiling beside its registers. -/
structure CeilState where
  /-- the terms as footprint limits: energy, media, time (R204) -/
  wEnergy : Nat
  wMedia : Nat
  wTime : Nat
  /-- h of the last computation (R210) -/
  hyst : Nat
  /-- a computation has run since the start-up (R214) -/
  computed : Bool
  /-- time and CEIL_WT_WRITES at the last entry into OVER_CEILING (R211) -/
  overAt : Nat
  overWt : Nat
  dry : Option DryRun
  /-- the next automatic dry quench in ns after a deferral or a rejection (R215) -/
  nextAuto : Option Nat
  /-- the applied result: e_byte, R_dry, LIFE_S (R216) -/
  applied : Option (Nat × Nat × Nat)
  /-- time of the last CEIL_RECEIVE_HELD (R212) -/
  heldAt : Option Nat
  deriving DecidableEq, Repr

/-! ### The backing tier (R340 to R361) -/

/-- The states of a namespace (R343, R362). -/
inductive NsState
  | absent | attaching | blank | online | detaching | failed | refused
  deriving DecidableEq, Repr

/-- A namespace beside its registers. -/
structure Ns where
  state : NsState
  /-- the first attach attempt of this start-up has ended (R343) -/
  tried : Bool
  /-- commands in a row that ended as failed (R357) -/
  failsRow : Nat
  /-- LABEL_GEN of its label (R344) -/
  labelGen : Nat
  /-- DLFEAT reports zeroes for deallocated blocks (R354) -/
  dsm : Bool
  /-- stranded slabs at the last BACK_STRANDED (R358) -/
  reported : Nat
  /-- slabs destaged during a detach (R364) -/
  detached : Nat
  /-- LBA data size in bytes (R342) -/
  lba : Nat
  deriving DecidableEq, Repr

/-- A controller's attach under way (R342): the step that runs, the namespaces that it still has to answer for, and whether the
drive reports a volatile write cache. -/
structure Attach where
  step : Nat
  todo : List Nat
  cache : Bool
  granted : Nat
  deriving DecidableEq, Repr

/-- The backing tier beside its registers. -/
structure BackState where
  /-- which backing key pair the vault holds: it changes when a Sanitize installs a fresh one (R108, R353) -/
  xtsKey : Nat
  ns : Tab Nat Ns
  /-- retries of the outstanding command of a slab (R356) -/
  retries : Tab Nat Nat
  /-- slabs whose outstanding command has been reissued after a controller reset (R356) -/
  reissued : List Nat
  /-- slabs whose command waits for its retry delay (R356) -/
  delayed : List Nat
  /-- root ports whose link is down since a time: (die, port) (R357) -/
  downAt : Tab (Nat × Nat) Nat
  /-- the attaches under way, by controller (R342) -/
  attach : Tab (Nat × Nat) Attach
  /-- controllers under reset (R356) -/
  resetting : List (Nat × Nat)
  deriving DecidableEq, Repr

/-! ### The Weld links and the pair (R303 to R336) -/

/-- A message that a Weld frame carries (R307, R314 to R320), as its fields. -/
inductive Msg
  | heartbeat (heat : Nat) (links : Nat) (pair : Nat) (stall : Bool)
  | mirrorWrite (heat firstId : Nat) (entries : List MirrorEntry)
  | mirrorAck (runs : List AckRun)
  | heatClose (heat : Nat) (linkMask : Nat)
  | heatAck (heat : Nat) (regionMask : Nat)
  | quenchNotice (heat phase flags cause generation : Nat)
  | roleClaim (phase region epoch heat : Nat)
  | rejoinReq (region resync : Nat) (slabs : List Nat) (last : Bool)
  | resyncData (slab kind mask heat region : Nat) (lines : List (Nat × Line))
  | keyRoll (answer : Bool) (rollId switchSeq : Nat)
  | join (heat length side regions mapDigest : Nat) (roles : List JoinRole)
  | fetch (slab region : Nat)
  deriving DecidableEq, Repr

/-- A message that has been sent and not acknowledged: the SEQ of its first frame, its frames, and the slab whose link it took
(R309, R313). -/
structure SentFrame where
  seq : Nat
  frames : Nat
  slab : Option Nat
  msg : Msg
  deriving DecidableEq, Repr

/-- A received frame whose entries are not all admitted: its SEQ and the requests it has made (R309); the fence gate may have refused
it (R310). -/
structure RxFrame where
  seq : Nat
  rids : List Nat
  refused : Bool
  deriving DecidableEq, Repr

/-- A running key roll (R322): its ROLL_ID, the time of its OFFER, and the SWITCH_SEQ that the OFFER announced. -/
structure Roll where
  id : Nat
  start : Nat
  switchSeq : Nat
  deriving DecidableEq, Repr

/-- A Weld link beside its registers. -/
structure Link where
  /-- SEQ of the next new frame, and the oldest SEQ that the peer has not acknowledged (R308, R309) -/
  txSeq : Nat
  txAck : Nat
  sent : List SentFrame
  /-- the SEQ expected next, and the frames not fully admitted (R308) -/
  rxNext : Nat
  rx : List RxFrame
  /-- the next frame carries NAK (R308) -/
  nak : Bool
  /-- frames taken under the current link key (R306) -/
  rxCount : Nat
  /-- a hello block has been accepted since training (R304) -/
  hello : Bool
  /-- the time of a refused hello block or of a failed check, from which a retry counts 1 s (R304) -/
  refusedAt : Option Nat
  /-- the times of the last authentic frame and of the last frame sent (R309, R311) -/
  lastRx : Nat
  lastTx : Nat
  /-- this end's OFFER that has no ANSWER yet (R322) -/
  roll : Option Roll
  /-- a roll has failed at a time: the next one comes 1 s later (R322) -/
  rollFailedAt : Option Nat
  /-- first SEQ sent, and first SEQ received, under the newest link key, while the old one is still in use (R322) -/
  txSwitch : Option Nat
  rxSwitch : Option Nat
  deriving DecidableEq, Repr

/-- An entry of a die's transmit queue: the link it is bound to, the slab whose link that is, and the message (R313, R325). -/
structure TxItem where
  link : Nat × Nat
  slab : Option Nat
  msg : Msg
  deriving DecidableEq, Repr

/-- A mirror entry that waits for its slab's fill (R325): its sector (64: a clean entry), its heat, its CLEANED mask and its
request. -/
structure HeldEntry where
  sector : Nat
  heat : Nat
  cleaned : Nat
  rid : Option Nat
  deriving DecidableEq, Repr

/-- A write ID that waits for MIRROR_ACK (R328): its source die, the ID, its slab and its request. -/
structure Unacked where
  die : Nat
  id : Nat
  slab : Nat
  rid : Option Nat
  deriving DecidableEq, Repr

/-- A drain window (R333): the time of NOTICE, the links that must carry DRAINED still, and whether the window has ended. -/
structure Notice where
  start : Nat
  waiting : List (Nat × Nat)
  drained : List (Nat × Nat)
  ended : Bool
  /-- FINAL has arrived (R334) -/
  final : Bool
  deriving DecidableEq, Repr

/-- The Weld engines beside their registers. -/
structure WeldState where
  links : Tab (Nat × Nat) Link
  /-- the links of the slab bindings in force (R313) -/
  bindLinks : List (Nat × Nat)
  /-- the transmit queues by die (R325) -/
  txq : Tab Nat (List TxItem)
  /-- the next write ID of each source die (R315) -/
  nextId : Tab Nat Nat
  /-- mirror entries of a slab that wait for its fill (R325) -/
  heldMirror : Tab Nat (List HeldEntry)
  unacked : List Unacked
  /-- the acknowledgements batched at a die (R326) -/
  acks : Tab Nat (List AckRun)
  /-- HEAT_CLOSE received by heat: its LINK_MASK, and the links that have carried it (R329) -/
  closes : Tab Nat (Nat × List Nat)
  /-- the last heat this side has acknowledged, and the last heat the twin has acknowledged, by region (R288, R329) -/
  ackSent : Tab Nat Nat
  ackGot : Tab Nat Nat
  /-- heats closed while the pair is UP whose HEAT_CLOSE is still to be sent, and those sent and not acknowledged (R329) -/
  toClose : List Nat
  closed : List Nat
  /-- the twin has sent QUENCH_NOTICE NOTICE (R333) -/
  notice : Option Notice
  /-- the moment of loss of the running promotion, and whether the loss came by QUENCH_NOTICE (R292, R332) -/
  lossAt : Option (Nat × Bool)
  /-- slabs asked from the twin, with whether their FETCH has gone out (R331) -/
  fetches : Tab Nat Bool
  /-- slabs whose FETCH answer or RESYNC_DATA waits for a fill or a restore here (R294, R331) -/
  fetchOwed : List Nat
  resyncOwed : List Nat
  /-- this side's JOIN of the coming pair-up has been sent (R321) -/
  joinSent : Bool
  deriving DecidableEq, Repr

/-! ### Reheat and the region roles (R270 to R297) -/

/-- The roles of a region (R287, R299). -/
inductive Role
  | owner | shadow | solo | rejoining | fenced
  deriving DecidableEq, Repr

/-- A role record (R274). -/
structure RoleRec where
  solo : Bool
  owner : Nat
  epoch : Nat
  splitHeat : Nat
  ackedHeat : Nat
  twinId : Nat
  deriving DecidableEq, Repr

/-- A role record that is to be programmed, and the transition that waits for it (R288, R332): the split of a loss, the split of a
KEY_STALL, FORCE_SOLO, the end of a resync, or a reclaim. -/
inductive RoleCause
  | loss | stall | forced | resync | reclaim
  deriving DecidableEq, Repr

structure RolePend where
  region : Nat
  record : RoleRec
  next : Role
  cause : RoleCause
  /-- the record is programmed and its transition waits for the end of the drain window (R333) -/
  done : Bool
  deriving DecidableEq, Repr

/-- A Weld region at run time. -/
structure Region where
  role : Role
  record : RoleRec
  /-- this side mirrors to the twin, which it holds as SHADOW or REJOINING (R325) -/
  mirroring : Bool
  /-- the role of the twin as its JOIN and its messages have shown it: SOLO (R289) -/
  twinSolo : Bool
  /-- slabs of the running resync that are not acknowledged (winner), or that this side has named and not received (loser) -/
  resync : List Nat
  resyncFull : Bool
  /-- the heat of the last RESYNC_DATA, and the slabs sent (R295) -/
  resyncHeat : Nat
  resyncSent : Nat
  resyncAt : Nat
  /-- this side's part of the Ingot for the region is incomplete (R285) -/
  incomplete : Bool
  /-- a ROLE_CLAIM has been accepted: this OWNER hands over at its next boundary (R296) -/
  handingOver : Bool
  /-- this side has sent ROLE_CLAIM, and the boundary b of the HANDOVER it has received (R296) -/
  claimed : Bool
  handover : Option Nat
  deriving DecidableEq, Repr

/-- A data segment under restore: its generation, its die, its number, the slabs its index pass named, and whether it is indexed,
retired, damaged, or has failed authentication. -/
structure RSeg where
  gen : Nat
  die : Nat
  num : Nat
  named : List Nat
  indexed : Bool
  retired : Bool
  damaged : Bool
  failed : Bool
  /-- slabs whose part counts as retired: discarded by a resync (R293, R294) -/
  gone : List Nat
  deriving DecidableEq, Repr

/-- The Ingot under restore, or held (R271, R273, R282): its generation, slot, key and LAST_HEAT, its format, the predecessor of a
chain with its slot, the dies that its commit record or its units name, and its segments. -/
structure Restore where
  generation : Nat
  slot : Nat
  keySlot : Nat
  keyGen : Nat
  lastHeat : Nat
  format1 : Bool
  lazy : Bool
  pred : Option (Nat × Nat)
  dies : List Nat
  incompleteDies : List Nat
  segs : List RSeg
  servingAt : Nat
  deriving DecidableEq, Repr

/-- Reheat and rejoin beside their registers. -/
structure RhtState where
  regions : Tab Nat Region
  /-- role records under way, in the order of their programs -/
  pends : List RolePend
  /-- the Ingot under restore -/
  restore : Option Restore
  /-- an Ingot held for a Swage mismatch (R273) -/
  held : Option Restore
  /-- reheat-pending slabs: the segments (die, number) that hold them and have not been applied (R276, R278) -/
  pending : Tab Nat (List (Nat × Nat))
  /-- segment reads demanded, oldest first (R280) -/
  demands : List (Nat × Nat)
  /-- slabs of failed segments that wait for the decision at join (R283) -/
  judge : List Nat
  /-- LAST_HEAT of the Ingot restored at this start-up, and the HEAT_DELTA of each slab that it names (R293) -/
  lastHeat : Nat
  deltas : Tab Nat Nat
  /-- slabs that a segment has restored with POISONED (R242, R251) -/
  poisoned : List Nat
  /-- the scan has ended and the start-up may go on to its records; those are programmed (R270) -/
  scanned : Bool
  recorded : Bool
  /-- the highest heat that the newest valid commit record names (R182) -/
  recHeat : Nat
  /-- dirty data was lost before this start-up without an Ingot that shows it; and the Dirty Shutdown Count has moved in this
  start-up (R95, R548) -/
  lostBefore : Option Nat
  counted : Bool
  /-- P0 and start of step 5 (R270) -/
  p0 : Nat
  indexAt : Nat
  deriving DecidableEq, Repr


/-! ### The Hearth channels and their training (R365 to R409) -/

/-- A request at a Hearth channel (R373): `id` counts the channel's requests in the order of their arrival; a read that meets an
uncorrectable beat is read once more; `thaw`: the re-read of the line that froze the channel (R389); `told`: the channel has
reported it. -/
structure CReq where
  id : Nat
  requester : Nat
  srcDie : Nat
  write : Bool
  rank : Nat
  bank : Nat
  row : Nat
  line : Nat
  arrived : Nat
  urgent : Bool
  reread : Bool
  thaw : Bool
  told : Bool
  deriving DecidableEq, Repr

/-- A command that the channel has issued (R394): its CMD code, rank, bank, SOURCE, row, line and time; `req` is the request of a
column command. -/
structure CCmd where
  cmd : Nat
  rank : Nat
  bank : Nat
  source : Nat
  row : Nat
  line : Nat
  at0 : Nat
  req : Option CReq
  deriving DecidableEq, Repr

/-- An open row: rank, bank, row, and the time of its last column command (R374). -/
structure OpenRow where
  rank : Nat
  bank : Nat
  row : Nat
  last : Nat
  deriving DecidableEq, Repr

/-- An entry of a row-hammer tracking table (R378). -/
structure RhEntry where
  row : Nat
  count : Nat
  cand : Nat
  conf : Nat
  deriving DecidableEq, Repr

/-- An entry of the syndrome log (R394). -/
structure LogEntry where
  rank : Nat
  bank : Nat
  kind : Nat
  symbol : Nat
  row : Nat
  line : Nat
  syndrome : Nat
  source : Nat
  beat : Nat
  deriving DecidableEq, Repr

/-- An entry of the freeze trace (R394). -/
structure TraceEntry where
  cmd : Nat
  rank : Nat
  bank : Nat
  source : Nat
  row : Nat
  line : Nat
  cycles : Nat
  deriving DecidableEq, Repr

/-- A CA parity alert (R386): its DIMM, whether ALERT_n is still low, and the requests whose commands are issued again. -/
structure CaAlert where
  dimm : Nat
  low : Bool
  ids : List Nat
  count : Nat
  deriving DecidableEq, Repr

/-- The settings of a rank: for each training step its lanes' delay codes and its Vref code (R399, R401). -/
abbrev Setting := Tab Nat (List Nat × Option Nat)

/-- A running training step (R399): step, rank, its START, and the settings in force then. -/
structure TrnRun where
  step : Nat
  rank : Nat
  start : Nat
  before : Setting
  deriving DecidableEq, Repr

/-- A retraining cycle (R403): its rank, its cause, the next step, the end of its last step, its pauses so far in µs. -/
structure TrnCycle where
  rank : Nat
  cause : Nat
  next : Nat
  lastEnd : Nat
  pause : Nat
  deriving DecidableEq, Repr

/-- A rank copy to the spare rank (R574): the rank, its cause, and its start. -/
structure RankCopy where
  rank : Nat
  cause : Nat
  start : Nat
  deriving DecidableEq, Repr

/-- A Hearth channel beside its registers. -/
structure Chan where
  /-- physical ranks present; the physical rank of each mapped rank; the spare rank (R368) -/
  ranks : List Nat
  map : List Nat
  spare : Option Nat
  /-- device density in Gb, RAAIMT of the DIMMs, and their SPD serials (R366, R380, R576) -/
  density : Nat
  raaimt : Nat
  nextId : Nat
  /-- the queued requests, oldest first, and those the senders hold (R373) -/
  queue : List CReq
  held : List CReq
  /-- reads whose data has not come -/
  flying : List CReq
  /-- credit of a requester in 1/128 line (R375) -/
  credit : Tab Nat Nat
  /-- throttled requesters with the end of their cooldown (R379), and requesters in panic (R376) -/
  throttled : Tab Nat Nat
  panic : List Nat
  tables : Tab (Nat × Nat) (List RhEntry)
  /-- the rolling accumulated ACT count of a bank, and the banks that wait for an RFM (R379, R380) -/
  raa : Tab (Nat × Nat) Nat
  rfm : List (Nat × Nat)
  rows : List OpenRow
  /-- the bus is turned to writes (R374) -/
  busWrite : Bool
  /-- ranks whose owed refreshes come before their next ACT (R381, R383); ranks in fine-granularity mode (R381) -/
  must : List Nat
  fine : List Nat
  /-- the time of a rank's last request; ranks in their self-refresh exit (R384) -/
  lastReq : Tab Nat Nat
  exiting : List Nat
  /-- failed temperature readings in a row of a DIMM; DIMMs treated as above 85 °C for it (R382) -/
  tempFails : Tab Nat Nat
  tempLost : List Nat
  /-- the last 256 commands, the syndrome log by entry, and the freeze trace (R394) -/
  cmds : List CCmd
  log : Tab Nat LogEntry
  trace : List TraceEntry
  /-- lines queued for a rewrite by the scrubber: rank, bank, row, line (R372) -/
  rewrites : List (Nat × Nat × Nat × Nat)
  /-- the scrubber's next line in its pass, its corrected and uncorrectable lines, and the pass's start (R385) -/
  scrubPos : Nat
  scrubCorrected : Nat
  scrubBad : Nat
  scrubStart : Nat
  alert : Option CaAlert
  lastAlert : Option Nat
  /-- when the channel froze; the line whose error froze it last; the read that is repeated at the thaw (R389, R390) -/
  frozenAt : Nat
  freezeLine : Option (Nat × Nat × Nat × Nat)
  freezeRead : Option CReq
  /-- a thaw that waits for a training step's end, by its cause (R406) -/
  thawWait : Option Nat
  /-- corrected beats of a row in one symbol: (rank, bank, row, symbol) to their times (R573) -/
  rowCe : Tab (Nat × Nat × Nat × Nat) (List Nat)
  /-- times of CHAN_CE_RATE of a rank (R574) -/
  ceTimes : Tab Nat (List Nat)
  copy : Option RankCopy
  /-- the settings in force and the last-known-good setting of a rank (R401) -/
  inForce : Tab Nat Setting
  lkg : Tab Nat Setting
  run : Option TrnRun
  /-- a step that waits for the end of a self-refresh exit or of a CA parity repeat: step, rank (R405) -/
  runWait : Option (Nat × Nat)
  cycle : Option TrnCycle
  /-- the candidate of the last passed step: rank, step and codes (R408) -/
  cand : Option (Nat × Nat × (List Nat × Option Nat))
  /-- the end of a rank's last cycle, and whether it failed (R402) -/
  lastCycle : Tab Nat (Nat × Bool)
  /-- ranks with a passing cycle since DEGRADED was set (R407) -/
  passed : List Nat
  deriving DecidableEq, Repr

/-- A row that waits for its repair, or that found no resource: global channel, rank, bank, row (R573). -/
structure PprRow where
  gchan : Nat
  rank : Nat
  bank : Nat
  row : Nat
  deriving DecidableEq, Repr

/-- An entry of the slag list (R576): a retired unit. -/
structure Slag where
  kind : Nat
  owner : Nat
  index : Nat
  cause : Nat
  seqLow : Nat
  deriving DecidableEq, Repr


/-! ### The quench flash and the Ingot (R244 to R257, R410 to R434) -/

/-- A NAND die of a quench-flash channel (R410). -/
structure Nand where
  die : Nat
  chan : Nat
  nand : Nat
  deriving DecidableEq, Repr

/-- A quad of a NAND die (R414). -/
structure QKey where
  die : Nat
  chan : Nat
  nand : Nat
  quad : Nat
  deriving DecidableEq, Repr

/-- The states of a quad (R419); `erased`: ERASING, its erase has passed and its table delta is queued. TAKEN carries its Ingot slot,
SCRATCH its erased flag. -/
inductive QState
  | stale | erasing | erased | ready
  | taken (slot : Nat)
  | scratch (erased : Bool)
  | table
  | retired
  deriving DecidableEq, Repr

/-- A quad: its state, P/E count, block address in each plane, ready-queue position, write pointer, and whether R418 has marked it to be
retired when it is released. -/
structure Quad where
  state : QState
  pe : Nat
  blocks : List Nat
  order : Nat
  ptr : Nat
  marked : Bool
  deriving DecidableEq, Repr

/-- A slab descriptor with its sectors (R245, R251): the lines and, for a PARTIAL one, their byte-enable masks. -/
structure Desc where
  slab : Nat
  mask : Mask
  heatDelta : Nat
  more : Bool
  cont : Bool
  staging : Bool
  poisoned : Bool
  isPartial : Bool
  lines : Tab Nat Line
  be : Tab Nat Mask
  deriving DecidableEq, Repr

/-- A segment (R250): a data segment's descriptors, or a map segment's retired segment numbers of the predecessor (R257). `format1`:
FORMAT 0x01 (R265). -/
structure ISeg where
  format1 : Bool
  die : Nat
  gen : Nat
  num : Nat
  keySlot : Nat
  isMap : Bool
  rewrite : Bool
  descs : List Desc
  retired : List Nat
  deriving DecidableEq, Repr

/-- A die header (R252). -/
structure DieHeader where
  format1 : Bool
  die : Nat
  chained : Bool
  tagWalk : Bool
  empty : Bool
  gen : Nat
  keySlot : Nat
  slot : Nat
  keyGen : Nat
  swageHash : List Nat
  firstHeat : Nat
  lastHeat : Nat
  cause : Nat
  dies : Nat
  channels : Nat
  predGen : Nat
  predSlot : Nat
  predSegments : Nat
  wDie : Nat
  c : Nat
  accepted : List Nat
  deriving DecidableEq, Repr

/-- A trailer (R253); `segs`: the segment numbers that TAG_HASH covers. -/
structure Trailer where
  format1 : Bool
  die : Nat
  packageMode : Bool
  gen : Nat
  dataSegments : Nat
  mapSegments : Nat
  rewritten : Nat
  bytes : Nat
  slabs : Nat
  lost : List Nand
  segs : List Nat
  deriving DecidableEq, Repr

/-- A DIE_ENTRY of a commit record (R254): the die and its trailer, whose digest it carries; none: the trailer flag is clear. -/
structure DieEntry where
  die : Nat
  trailer : Option Trailer
  deriving DecidableEq, Repr

/-- A commit record (R254). -/
structure CommitRec where
  format1 : Bool
  writer : Nat
  chained : Bool
  empty : Bool
  packageMode : Bool
  tagWalk : Bool
  gen : Nat
  keySlot : Nat
  slot : Nat
  keyGen : Nat
  firstHeat : Nat
  lastHeat : Nat
  swageHash : List Nat
  predGen : Nat
  predSlot : Nat
  cause : Nat
  dies : Nat
  durationMs : Nat
  events : List EvRec
  eventsLost : Nat
  entries : List DieEntry
  deriving DecidableEq, Repr

/-- What a programmed page index holds: a unit of an Ingot (R249), words that firmware has programmed, or undefined contents after a
program that failed or was cut off (R261). -/
inductive Unit
  | seg (x : ISeg)
  | header (x : DieHeader)
  | trailer (x : Trailer)
  | commit (x : CommitRec)
  | raw (words : List Word)
  | undef
  deriving DecidableEq, Repr

/-- A record of a channel's table (R422): the quad's state and data as they were logged. -/
structure QLog where
  nand : Nat
  quad : Nat
  data : Quad
  deriving DecidableEq, Repr

/-- The table log of a channel (R421): SEQ of its newest page, the QUENCH section whose digest it carries, the newest checkpoint, and
the delta pages after it. -/
structure TableLog where
  seq : Nat
  quench : QuenchCfg
  fresh : Bool
  base : List QLog
  deltas : List (List QLog)
  deriving DecidableEq, Repr

/-- A channel of quench flash beside its registers. -/
structure QChan where
  /-- the NAND dies that have been attached, in service or not, in this start-up -/
  attached : List Nat
  log : Option TableLog
  /-- quads whose state has changed since the last delta page -/
  dirty : List (Nat × Nat)
  /-- its table's geometry differs from the loaded image's: it serves only the reads of the held Ingot (R421) -/
  oldGeometry : Bool
  /-- it has been formatted: a quad that is not listed is READY instead of STALE (R421, assumption 20) -/
  fresh : Bool
  /-- its table has been recovered, rebuilt or formatted in this start-up -/
  tabled : Bool
  deriving DecidableEq, Repr

/-- The quench flash beside its registers. -/
structure QflState where
  chans : Tab (Nat × Nat) QChan
  /-- the quads that differ from a STALE quad of its first blocks (R414) -/
  quads : Tab QKey Quad
  /-- retired plane blocks: NAND die, plane, block (R414) -/
  badBlocks : List (Nand × Nat × Nat)
  /-- the free spare blocks of a plane, once they differ from the top S_p (R414) -/
  spares : Tab (Nand × Nat) (List Nat)
  /-- the programmed page indices -/
  units : Tab (QKey × Nat) Unit
  /-- NAND dies that were retired, across resets (R430, R576) -/
  lostNands : List Nand
  /-- codewords that LDPC has corrected since reset (R107, R434) -/
  corrected : Nat
  deriving DecidableEq, Repr

/-! ### The quench (R224 to R265) -/

/-- A unit that is to be programmed, or is: its content, how many planes it takes (a segment 4, another unit 1), the stage of its die
(0 header, 1 map, 2 data), and the channel it must go to, if any. -/
structure QUnit where
  unit : Unit
  stage : Nat
  chan : Option (Nat × Nat)
  deriving DecidableEq, Repr

/-- A unit placed on a NAND die: its place, and whether its program has completed. The ledger of a die is the list of its placed units
(R244). -/
structure QPlaced where
  unit : QUnit
  key : QKey
  page : Nat
  done : Bool
  deriving DecidableEq, Repr

/-- A Hearth die's part of a quench. -/
structure QDie where
  /-- footprint of the die at T0 (W_DIE, R252) -/
  w0 : Nat
  /-- units not placed yet, in their order -/
  waiting : List QUnit
  placed : List QPlaced
  /-- data segment numbers issued, map segments, rewritten segments, bytes programmed, descriptors without CONT -/
  nextSeg : Nat
  maps : Nat
  rewritten : Nat
  bytes : Nat
  slabs : Nat
  /-- reprogrammings after block failures on this die's NAND dies (R258) -/
  reprograms : Nat
  /-- NAND dies lost that held or had queued a unit of this die (LOST, R253) -/
  lost : List Nand
  /-- the channel that took the last segment of this die, and the NAND die of each channel that took its last one (R246) -/
  lastChan : Option (Nat × Nat)
  lastNand : Tab (Nat × Nat) Nat
  walked : Bool
  trailer : Option Trailer
  deriving DecidableEq, Repr

/-- The generation that the next Ingot uses, its key slot and the generation of that slot (R248). -/
structure Claim where
  gen : Nat
  keySlot : Nat
  keyGen : Nat
  deriving DecidableEq, Repr

/-- A running quench. -/
structure Quench where
  cause : Nat
  t0 : Nat
  lastHeat : Nat
  /-- no Ingot is written, only a commit pointer with SANITIZE (R227) -/
  sanitize : Bool
  empty : Bool
  gen : Nat
  keySlot : Nat
  keyGen : Nat
  slot : Nat
  /-- predecessor generation and slot of a chained Ingot (R257) -/
  chained : Option (Nat × Nat)
  packageMode : Bool
  /-- dies in service at T0, and those with TAG_WALK set then (R243) -/
  dies : List Nat
  tagWalk : List Nat
  parts : Tab Nat QDie
  /-- NAND dies that have not joined the round-robin yet (R233), NAND dies lost and the channels removed with them (R259) -/
  notReady : List Nand
  lost : List Nand
  gone : List (Nat × Nat)
  /-- block failures by NAND die (R258) -/
  fails : Tab Nand Nat
  /-- the commit record, once built (R254) -/
  commit : Option CommitRec
  /-- QUENCH_NOTICE DRAINED has been sent (R334) -/
  drainSent : Bool
  /-- steps taken: shed (R236) by die, with the Weld link kept up (R235), and the commit pointer's program (R255) -/
  shed : List Nat
  kept : List (Nat × Nat)
  pointer : Option Bool
  deriving DecidableEq, Repr


/-! ### The Bellows (R438 to R461) -/

/-- An authentication attempt of a module (R457): the tries made, and whether the next one waits its second. -/
structure AuthRun where
  tries : Nat
  waits : Bool
  deriving DecidableEq, Repr

/-- A battery string beside its registers. -/
structure BStr where
  present : Bool
  /-- a module's SERIAL has been stored (R458), and the polls in a row without an answer -/
  known : Bool
  missed : Nat
  /-- Q_raw, Q_rep and THRU in µC: the registers show whole mC (R445) -/
  raw : Int
  rep : Int
  thru : Nat
  /-- charge discharged since the last full anchor in µC; none before one (R455) -/
  sinceFull : Option Nat
  /-- samples in a row with |I| above 50 A, and with V + I × R_a below V_EOD (R444, R448) -/
  highI : Nat
  lowV : Nat
  /-- the FAULT conditions entered and not cleared, oldest first, as in BELL_STR_STATUS.FAULT (R444) -/
  faults : List Nat
  /-- the most recent accepted resistance in µΩ (R448) -/
  lastMeas : Option Nat
  /-- LAST_LEARN_S; 0 if none -/
  lastLearn : Nat
  /-- why the string is pending, whether BELL_LEARN_WAIT has been raised, and when its discharge began (R454, R455) -/
  learnCause : Nat
  waitSaid : Bool
  learnAt : Nat
  /-- pending again at a time after a rejected or aborted learning (R455) -/
  rependAt : Option Nat
  auth : Option AuthRun
  deriving DecidableEq, Repr

/-- The Bellows beside its registers. -/
structure BellState where
  strs : Tab Nat BStr
  /-- pending strings in the order in which they became pending (R454) -/
  pending : List Nat
  /-- the running calibration step, and the last string that had one (R452) -/
  cal : Option Nat
  lastCal : Option Nat
  /-- when AON_SENSE fell (R440) -/
  aonAt : Nat
  /-- BELL_LIFE_S at the last start of the Bellows die, and when it was (R461) -/
  lifeBase : Nat
  lifeAt : Nat
  /-- the time of the last sample (R443) -/
  sampleAt : Nat
  deriving DecidableEq, Repr


/-! ### Identity, keys and cipher engines (R525 to R552) -/

/-- An SPDM session (R529, R531): its transport, whether the requester authenticated with the owner key, whether FINISH has
completed it, and whether it carries the management role. -/
structure Session where
  id : Nat
  transport : Path
  byOwner : Bool
  finished : Bool
  management : Bool
  deriving DecidableEq, Repr

/-- A slot of the key vault (R533): a package slot, an IDE slot of a die (port, key set, sub-stream key), or a Weld link's
current or previous key. -/
inductive KeySlot
  | package (n : Nat)
  | ide (die port set sub : Nat)
  | weld (die link : Nat) (previous : Bool)
  deriving DecidableEq, Repr

/-- A cipher job (R534): the slot it uses and the generation on which it holds a user reference. A stream's saved context keeps
its reference; `stream` names it. -/
structure CipherJob where
  id : Nat
  slot : KeySlot
  gen : Nat
  stream : Bool
  deriving DecidableEq, Repr

/-- A key with its tag, generation and users, and its shadow: key, generation and users (R534, R535). A package slot's tag and
counts stand in SEC_SLOT and SEC_SLOT_USERS as well. -/
structure KeyCell where
  key : Option Nat
  alg : Nat
  gen : Nat
  users : Nat
  shadow : Option (Nat × Nat × Nat)
  deriving DecidableEq, Repr

/-- A key that has been wrapped: the wrapping key (0 KEK_B, 1 and up KEK_I by its BLOB_EPOCH), the key and the 40 bytes that it became
(R538, R539). AES-KW lies outside the manual: an unwrap succeeds for what has been wrapped under the same key, and for nothing else. -/
structure Wrap where
  kek : Nat
  key : Nat
  text : Nat
  deriving DecidableEq, Repr

/-- The vault, the sessions and what the fuses hold. -/
structure SecState where
  cells : Tab KeySlot KeyCell
  jobs : List CipherJob
  nextJob : Nat
  sessions : List Session
  nextSession : Nat
  /-- the alarm sources that trip now, by their bit of SEC_ALARM_CAUSE (R550) -/
  tripping : Nat
  /-- fuses of BLOB_EPOCH burnt, 0 to 32 (R539) -/
  epoch : Nat
  /-- OWNER_HASH, once burnt (R528) -/
  ownerHash : Option Nat
  /-- the current Ingot key is to be reloaded after a glitch alarm (R548) -/
  reload : Bool
  /-- the roll of each role's key record whose programming is to be retried (R541) -/
  reserveRetry : Bool
  wrapped : List Wrap
  /-- the key set in use of a port's IDE stream (R532) -/
  ideSets : Tab (Nat × Nat) Nat
  /-- saved and local contexts of streams: their cipher jobs by stream (R545) -/
  streams : Tab Nat Nat
  deriving DecidableEq, Repr


/-! ### Resets, start-up and service (R553 to R579) -/

/-- A package reset that waits (R555): its LAST_CAUSE (R565), D at its assertion, what it waits for (0 quench, 1 NVMe shutdown, 2
Temper store operation), and since when. -/
structure PendingReset where
  cause : Nat
  dirty : Nat
  waits : Nat
  since : Nat
  deriving DecidableEq, Repr

/-- A firmware slot of the Temper store (R106, R561): its revision, and whether its image verifies against the product CA. -/
structure FwSlot where
  revision : Nat
  ok : Bool
  deriving DecidableEq, Repr

/-- The resets and the start-up beside their registers. -/
structure RstState where
  /-- VDD_AON lies above the POR level (R606) -/
  powered : Bool
  /-- RESET_N is low and has been for its filter (R554) -/
  asserted : Bool
  /-- the reset has taken effect: the dies are unpowered until its release (R555, R564) -/
  inReset : Bool
  pending : Option PendingReset
  /-- the end of the window of R557 in ns, and the running quench discards (R558) -/
  window : Option Nat
  discard : Bool
  /-- the step of R560 that comes next, 0 for none; when the start-up began and when its last step ended -/
  step : Nat
  startAt : Nat
  stepAt : Nat
  /-- the straps as they stand at the latch (R559) -/
  straps : Straps
  /-- the waits of the last reset with their causes and ms, and D at its assertion, told when the next firmware starts (R555, R566) -/
  deferred : List (Nat × Nat)
  dirty : Nat
  /-- ROM recovery has run: its cause, and the slot that it wrote (R562) -/
  recovered : Option (Nat × Option Nat)
  /-- the firmware slots A and B -/
  fw : List FwSlot
  /-- dies whose DIE_PWR_EN is high, and those whose DIE_PG is (R600) -/
  enabled : List Nat
  good : List Nat
  deriving DecidableEq, Repr

/-- A rank substitution that T0 has cut off (R574): its die, channel and physical rank, and its cause by R576. -/
structure OwedSwitch where
  die : Nat
  chan : Nat
  rank : Nat
  cause : Nat
  deriving DecidableEq, Repr

/-- Spares and wear beside their registers. -/
structure SvcState where
  /-- dies whose quad 16 does not work (R567) -/
  quad16Bad : List Nat
  /-- rank substitutions that T0 has cut off: the next start-up makes the switch (R574) -/
  owed : List OwedSwitch
  /-- temperature-weighted time of a die in units of 2^-32 s (R578) -/
  weighted : Tab Nat Nat
  /-- the last step of 10 % that SVC_LIFE_STEP has told (R578) -/
  lifeStep : Nat
  /-- the time of a die's last change of its VDD_CORE setpoint (R577) -/
  vddAt : Tab Nat Nat
  /-- the SPD serials of a channel's DIMMs (R576) -/
  serials : Tab (Nat × Nat) (List Nat)
  deriving DecidableEq, Repr

/-! ### The package's fixed identity and what the block sends -/

/-- What fuses and the parts give the package, and the firmware slot that runs. -/
structure PkgState where
  part : Part
  /-- the firmware slot that runs, none in ROM recovery (R561, R562) -/
  runningSlot : Option Nat
  /-- first 8 bytes of SHA-384 over the package identity public key (R104) -/
  packageId : Nat
  /-- first 8 bytes of SHA-384 over the owner public key, 0 while OWNER_LOCK is blank (R44, R528) -/
  ownerKeyId : Nat
  deriving DecidableEq, Repr

/-- What leaves the block. -/
inductive Out
  /-- an MSI-X interrupt of a vector (R581) -/
  | msix (vector : Nat)
  /-- a read response: port, host, tag, line, poison, DevLoad (R81, R90) -/
  | drs (die port host tag : Nat) (data : Line) (poison : Bool) (devLoad : Nat)
  /-- a write completion: port, host, tag, DevLoad -/
  | ndr (die port host tag devLoad : Nat)
  /-- BISnpInv of a line to a host (R83) -/
  | biSnp (line host : Nat)
  /-- the GPF Phase 2 answer of a port (R94) -/
  | gpfPhase2 (die port : Nat)
  /-- an NVMe Read of a slab (R347) -/
  | nvmeRead (ns slab : Nat)
  /-- an NVMe Write with FUA of a slab's 64 lines, as ciphertext (R140, R353) -/
  | nvmeWrite (ns slab : Nat) (lines : List Line)
  /-- another NVMe command, by the name of R341, on a namespace, with the first slab and a count of slabs where it has a range -/
  | nvmeCmd (name : String) (ns first count : Nat)
  /-- a namespace's label written with FUA, the rest of the label area zeroed, and a Flush (R344, R346): its fields -/
  | nvmeLabel (ns : Nat) (fields : Fields)
  /-- a Weld frame: die, link, SEQ, ACK, NAK, message (R305) -/
  | weldFrame (die link seq ack : Nat) (nak : Bool) (msg : Msg)
  /-- a Weld hello block (R304) -/
  | weldHello (die link version side : Nat)
  /-- an output pin's level, by the pin's name -/
  | pin (name : String) (index level : Nat)
  /-- a background command has completed (R101): opcode, return code, STATUS -/
  | backgroundDone (opcode : Nat) (ret : Ret) (status : Status)
  /-- a cipher job ends: job, status (R534, R536) -/
  | cipherEnd (job : Nat) (status : Status)
  /-- an SPDM or IDE_KM response on its transport: its name and its fields (R529 to R532) -/
  | spdm (transport : Path) (response : String) (fields : Fields)
  /-- a mailbox completion on its path (R100, R110) -/
  | mailbox (path : Path) (resp : Resp)
  /-- a channel's answer to a read (with or without poison) and to a write (issued, or failed), by the request's id (R373, R388) -/
  | chanRead (die chan id : Nat) (poison : Bool)
  | chanWrite (die chan id : Nat) (ok : Bool)
  /-- a command to a battery module: 0x80 a nonce, 0x81 and 0x82 reads (R456) -/
  | battery (n cmd nonce : Nat)
  /-- ZQCL to a NAND die (R411) -/
  | nandZq (die chan nand : Nat)
  /-- the result of a pool operation: die, requester, its die, status, handle (R494) -/
  | poolResult (die r srcDie : Nat) (status : Status) (handle : Nat)
  /-- an Unsupported Request completion of a BAR2 access at a port (R584) -/
  | unsupportedRequest (die port : Nat) (write : Bool)
  /-- a Dynamic Capacity extent offered to a host (R109) -/
  | dcOffer (host start size : Nat)
  deriving DecidableEq, Repr


/-! ### The block -/

/-- The block without its command queue. -/
structure Dev where
  /-- time since reset in ns; it moves when the block idles (assumption 2) -/
  now : Nat
  /-- the model's own counter of free values taken so far: no field of the spec (assumption 3) -/
  free : Nat
  /-- what the block has sent, oldest first: messages, completions, interrupts, commands to drives -/
  out : List Out
  /-- the register fields that do not hold their reset value (Machine/Regs.lean) -/
  regs : Tab FKey Nat
  /-- a quench runs: from T0 to its end (R228) -/
  quenching : Bool
  /-- the fence level is closed (R24, R29) -/
  fence : Bool
  /-- the running quench has programmed its commit pointer (R255, R520) -/
  committed : Bool
  pkg : PkgState
  swg : SwgState
  mbox : MboxState
  evt : EvtState
  tmp : TmpState
  pool : PoolState
  fab : FabState
  cru : CruState
  heat : HeatState
  ceil : CeilState
  back : BackState
  weld : WeldState
  rht : RhtState
  sec : SecState
  rst : RstState
  svc : SvcState
  /-- the Hearth channels by die and channel -/
  chans : Tab (Nat × Nat) Chan
  /-- rows pending for repair (R573) -/
  ppr : List PprRow
  /-- the slag list, oldest first (R576) -/
  slag : List Slag
  qfl : QflState
  bell : BellState
  /-- the running quench; none in operation and in one that writes nothing -/
  quench : Option Quench
  /-- the programmed claim (R248), and the slot of the newest committed Ingot, if there has been one (R252) -/
  claim : Option Claim
  lastSlot : Option Nat
  /-- a power-down after a quench: the supplies were not back (R228) -/
  poweredDown : Bool
  /-- the levels of output pins by name and index (R238, R413) -/
  pins : Tab (String × Nat) Nat
  deriving DecidableEq, Repr

/-- The block and the queue of the commands that wait, first in, first out. -/
structure State where
  dev : Dev
  pending : List Instr
  deriving DecidableEq, Repr

/-- No command of this block stops it: the manual gives every one an effect (notes/assumptions/1.md), so no fault has a name.
An absent unit reads 0 and ignores writes (R34, R584); this type is empty, which is safe. -/
inductive Fault
  deriving DecidableEq, Repr

/-- Why a command has no meaning. -/
inductive Refusal
  /-- the command has no meaning in this model yet; raised by the dispatch alone; safe -/
  | notModelled (mnemonic : String)
  deriving DecidableEq, Repr

/-- A command's effect as a change of the block; the queue is left to the step. -/
def State.on (f : Dev → Dev) (s : State) : Host.Outcome State Fault Refusal := .next { s with dev := f s.dev }


def SwgCfg.empty : SwgCfg :=
  { sealImage := false, serial := 0, ownerKeyId := 0, partMask := 0, groups := [], lanes := [],
    dram := { dpaLimit := 0, dieBits := 0, rankBits := 0, dpc := 0, speed := 0, uePolicy := 0, chanFlags := 0, sets := 0, masks := [] },
    quench := { chanEnable := [], diesPerChan := 0, planes := 0, pages := 0, blocks := 0, onfiRate := 0, sparePct := 0, scratch := 0 },
    energy := { flags := 0, eFixed := 0, eMargin := 0, hyst := 200, eByteDefault := 0, holdMax := 0, dryPeriod := 604800, strings := [] },
    qos := QosCfg.dflt, pools := PoolsCfg.dflt, events := EventsCfg.dflt, secPolicy := 0, batRootHash := 0,
    backing := { stripe := 1, nss := [] }, weld := none }

def Dev.reset : Dev :=
  { now := 0, free := 0, out := [], regs := [], quenching := false, fence := true, committed := false,
    pkg := { part := .ogl8d, runningSlot := none, packageId := 0, ownerKeyId := 0 },
    swg := { cfg := SwgCfg.empty, loaded := false, sealed := false, partialSeq := none, partialBusy := false, checking := none, energyBytes := [] },
    mbox :=
      { resp := none, background := none, running := none, held := [], policy := [false, false, false, false], alerts := [0, 0, 0],
        timestamp := 0, timestampAt := 0, poisonOvf := none },
    evt :=
      { nextSeq := 1, reservation := 0, pvBase := 0, buckets := [], queue := [], view := [], ovfFirst := [], dropped := [],
        fullSeen := [], clearing := [], gone := [], quenchRecs := [], eventsLost := 0 },
    tmp :=
      { mem := [], undefWords := [], undefSectors := [], remap := [], retired := [],
        spares := (List.range 448).map (· + 11840), running := [], waiting := [], lastServed := 0, scrubs := [], patrolCorrected := 0,
        patrolUncorrectable := 0, patrolStart := 0 },
    pool := { bufs := [], data := [], rr := [], fallback := [] },
    fab := { hdmDb := [], dir := [], snoops := [], insecure := [], biBroadcast := [], lds := [], gfam := [], dcRegions := [], extents := [], gpf := [], d2d := [], mediaError := false },
    cru :=
      { tags := [], dram := [], be := [], poison := [], frameless := [], fills := [], destages := [], notBefore := [], idleDue := [], first := [],
        staging := [], reqs := [], nextRid := 0, maints := [], nextMaint := 0, evicting := [], rebuilds := [], fetched := [], heldAt := [],
        lockFullAt := [], drained := [], recover := [], engine := false },
    heat :=
      { opened := false, last := 0, tExp := 0, edgeSeen := false, missedRow := 0, deferred := none, reserve := none, dirs := [],
        retaining := [], noIncremental := [], joinHeat := none },
    ceil :=
      { wEnergy := 0, wMedia := 0, wTime := 0, hyst := 0, computed := false, overAt := 0, overWt := 0, dry := none, nextAuto := none,
        applied := none, heldAt := none },
    back := { xtsKey := 0, ns := [], retries := [], reissued := [], delayed := [], downAt := [], attach := [], resetting := [] },
    weld :=
      { links := [], bindLinks := [], txq := [], nextId := [], heldMirror := [], unacked := [], acks := [], closes := [], ackSent := [],
        ackGot := [], toClose := [], closed := [], notice := none, lossAt := none, fetches := [], fetchOwed := [], resyncOwed := [],
        joinSent := false },
    rht := { regions := [], pends := [], restore := none, held := none, pending := [], demands := [], judge := [], lastHeat := 0, deltas := [], poisoned := [], scanned := false,
             recorded := false, recHeat := 0, lostBefore := none, counted := false, p0 := 0, indexAt := 0 },
    sec := { cells := [], jobs := [], nextJob := 0, sessions := [], nextSession := 0, tripping := 0, epoch := 0, ownerHash := none, reload := false, reserveRetry := false, wrapped := [],
             ideSets := [], streams := [] },
    rst :=
      { powered := true, asserted := false, inReset := false, pending := none, window := none, discard := false, step := 2, startAt := 0,
        stepAt := 0, straps := ⟨false, false, false, false⟩, deferred := [], dirty := 0, recovered := none, fw := [⟨0, true⟩, ⟨0, true⟩], enabled := [], good := [] },
    svc := { quad16Bad := [], owed := [], weighted := [], lifeStep := 0, vddAt := [], serials := [] },
    chans := [], ppr := [], slag := [],
    qfl := { chans := [], quads := [], badBlocks := [], spares := [], units := [], lostNands := [], corrected := 0 },
    bell := { strs := [], pending := [], cal := none, lastCal := none, aonAt := 0, lifeBase := 0, lifeAt := 0, sampleAt := 0 },
    quench := none, claim := none, lastSlot := none, poweredDown := false, pins := [] }

def State.reset : State := { dev := Dev.reset, pending := [] }

end Sys2Proof.Machine
end

