-- ==== Sys2Proof/Machine/Ops.lean ====
section
/-! DEFINITION. The named operations over the block's registers, its outputs, its free values and its events: every read and
write of a register field goes through Dev.f and Dev.setF, and every event through Dev.raise. -/

namespace Sys2Proof.Machine

open Sys2Proof

/-! ### Register fields -/

/-- The reset value that a field's table gives (R8). -/
def Fld.resetValue (F : Fld) : Nat := ((F.reg.rows.find? (fun r => decide (r.fld = F))).map (·.reset)).getD 0

/-- A register field's value. -/
def Dev.f (d : Dev) (F : Fld) (a : Nat := 0) (b : Nat := 0) (c : Nat := 0) : Nat := tgetD d.regs ⟨F, a, b, c⟩ F.resetValue

/-- A register field given a value, cut to the field's width. -/
def Dev.setF (d : Dev) (F : Fld) (v : Nat) (a : Nat := 0) (b : Nat := 0) (c : Nat := 0) : Dev :=
  { d with regs := tset d.regs ⟨F, a, b, c⟩ (v % 2 ^ F.width) }

/-- A flag field set or cleared. -/
def Dev.setB (d : Dev) (F : Fld) (v : Bool) (a : Nat := 0) (b : Nat := 0) (c : Nat := 0) : Dev := d.setF F (b2n v) a b c

/-- Whether a flag field is set. -/
def Dev.fb (d : Dev) (F : Fld) (a : Nat := 0) (b : Nat := 0) (c : Nat := 0) : Bool := decide (d.f F a b c ≠ 0)

/-- A counter field raised by n, saturating at all ones. -/
def Dev.addF (d : Dev) (F : Fld) (n : Nat) (a : Nat := 0) (b : Nat := 0) (c : Nat := 0) : Dev :=
  d.setF F (saturate F.width (d.f F a b c + n)) a b c

/-- A counter field raised by 1. -/
def Dev.incF (d : Dev) (F : Fld) (a : Nat := 0) (b : Nat := 0) (c : Nat := 0) : Dev := d.addF F 1 a b c

/-! ### Outputs and free values -/

/-- The block sends something. -/
def Dev.emit (d : Dev) (o : Out) : Dev := { d with out := d.out ++ [o] }

/-- The block sends a list of things in order. -/
def Dev.emits (d : Dev) (os : List Out) : Dev := { d with out := d.out ++ os }

/-- The next free value (assumption 3). -/
def Dev.freeVal (d : Dev) : Nat := Config.freeValue d.free

/-- A free value has been taken. -/
def Dev.tick (d : Dev) : Dev := { d with free := d.free + 1 }

/-- An effect that takes place only under a condition. -/
def Dev.when (d : Dev) (c : Bool) (f : Dev → Dev) : Dev := if c then f d else d

/-- An effect for each element of a list, in order. -/
def Dev.forEach {α : Type} (d : Dev) (l : List α) (f : Dev → α → Dev) : Dev := l.foldl f d

/-! ### The package's shape -/

/-- The Hearth dies of a part (R2, HCB_PART.DIES). -/
def Part.dies : Part → Nat
  | .ogl2d => 2
  | .ogl4d => 4
  | .ogl8d => 8

/-- The dies the part carries, 1 to n (R13). -/
def Dev.dies (d : Dev) : List Nat := (List.range d.pkg.part.dies).map (· + 1)

/-- Whether a die number names a die of the part. -/
def Dev.isDie (d : Dev) (die : Nat) : Bool := decide (1 ≤ die ∧ die ≤ d.pkg.part.dies)

/-- Whether a Hearth die is in service (HCB_STATUS.IN_SERVICE). -/
def Dev.inService (d : Dev) (die : Nat) : Bool := d.isDie die && d.fb HCB_STATUS.IN_SERVICE die

/-- The Hearth dies in service, ascending. -/
def Dev.diesUp (d : Dev) : List Nat := d.dies.filter d.inService

/-- Both Smith cores of a die have failed (R572): its slag list names them. -/
def Dev.smithDead (d : Dev) (die : Nat) : Bool :=
  (List.range 2).all fun k => d.slag.any fun e => decide (e.kind = 3 ∧ e.owner = die ∧ e.index = k)

/-- The Hearth ID of the Bellows die (R32). -/
def bellowsId : Nat := 0x0B

/-- The Hearth ID of slice s of a die (R32). -/
def sliceId (die s : Nat) : Nat := die * 16 + s

/-- The Hearth die of a Hearth ID: a die's own, a slice's die, none for the root, the Bellows and groups (R32). -/
def dieOfHearth (h : Nat) : Option Nat :=
  if 1 ≤ h ∧ h ≤ 8 then some h else if 0x10 ≤ h ∧ h ≤ 0x88 ∧ h % 16 ≤ 8 then some (h / 16) else none

/-! ### Events (R505 to R520) -/

/-- A payload item of one byte (R614). -/
def p1 (v : Nat) : Nat × Nat := (1, v % 256)
/-- A payload item of two bytes. -/
def p2 (v : Nat) : Nat × Nat := (2, v)
/-- A count, a time or another item of four bytes: unsigned, saturating. -/
def p4 (v : Nat) : Nat × Nat := (4, saturate 32 v)
/-- A slab index, five bytes. -/
def p5 (v : Nat) : Nat × Nat := (5, v)
/-- A charge, six bytes, signed mC. -/
def p6 (v : Int) : Nat × Nat := (6, (BitVec.ofInt 48 v).toNat)
/-- A heat, SEQ, DPA or byte quantity, eight bytes. -/
def p8 (v : Nat) : Nat × Nat := (8, v)
/-- A temperature: one byte, signed. -/
def pT (v : Int) : Nat × Nat := (1, (BitVec.ofInt 8 v).toNat)
/-- A current: four bytes, signed mA. -/
def pI (v : Int) : Nat × Nat := (4, (BitVec.ofInt 32 v).toNat)
/-- A two-way choice: position in the list as written. -/
def pB (v : Bool) : Nat × Nat := (1, b2n v)

/-- The leaf that records a source's events: d − 1 for a die and its slices, 8 otherwise (R509). -/
def leafOf (source : Nat) : Nat := match dieOfHearth source with | some k => k - 1 | none => 8

/-- Slots of a leaf (R509). -/
def leafSlots : Nat := 12288

/-- The refill interval of a code in ms (R58, R514). -/
def Dev.refillMs (d : Dev) (code : Nat) : Nat :=
  match tget d.swg.cfg.events.overrides code with
  | some ms => ms
  | none => d.swg.cfg.events.refill.getD (code / 0x1000) 100

/-- The codes that are never limited (R514): EVT_LOG_CLEARED, EVT_SUPPRESSED, EVT_SEQ_RESERVE_FAIL; and a code whose interval is 0. -/
def Dev.unlimited (d : Dev) (code : Nat) : Bool :=
  decide (code = 0xC201 ∨ code = 0xC202 ∨ code = 0xC205) || decide (d.refillMs code = 0)

/-- A code's bucket; 8 tokens when it is not listed (R514). -/
def Dev.bucket (d : Dev) (code : Nat) : Bucket :=
  tgetD d.evt.buckets code { tokens := 8, suppressed := 0, firstSrc := 0, lastSrc := 0, lastSeq := 0 }

def Dev.setBucket (d : Dev) (code : Nat) (b : Bucket) : Dev := { d with evt := { d.evt with buckets := tset d.evt.buckets code b } }

/-- The records of a leaf that wait in the SRAM queue. -/
def Dev.queuedFor (d : Dev) (leaf : Nat) : Nat := (d.evt.queue.filter (fun q => decide (q.1 = leaf))).length

/-- Slots of a leaf taken or promised to queued records. -/
def Dev.leafUsed (d : Dev) (leaf : Nat) : Nat := d.f EVT_LEAF_STATUS.RECORDS 0 leaf + d.queuedFor leaf

/-- A record counted in a leaf's dropped table: at most 63 codes with a count of their own, then OTHER (R510). -/
def Dev.countDrop (d : Dev) (leaf code : Nat) : Dev :=
  let t := tgetD d.evt.dropped leaf []
  let own := (tget t code).isSome || decide (tcount t (fun k _ => decide (k ≠ 0xFFFF)) < 63)
  let k := if own then code else 0xFFFF
  { d with evt := { d.evt with dropped := tset d.evt.dropped leaf (tset t k (saturate 16 (tgetD t k 0 + 1))) } }

/-- The sum of a leaf's dropped table (EVT_LEAFk_DROPPED). -/
def Dev.droppedTotal (d : Dev) (leaf : Nat) : Nat := sumOf ((tgetD d.evt.dropped leaf []).map (·.2))

/-- The first view slot that no record holds (assumption 4). -/
def viewSlot (used : List Nat) : Nat → Nat → Nat
  | 0, n => n
  | fuel + 1, n => if used.contains n then viewSlot used fuel (n + 1) else n

/-- A record offered to the package view (R516), with the interrupt of its log where the policy asks for one (R106, R581). -/
def Dev.viewAdd (d : Dev) (r : EvRec) : Dev :=
  if d.fb EVT_STATUS.PV_IN_SERVICE = false then d
  else if d.evt.view.length < 65536 then
    let h := viewSlot (d.evt.view.map (·.1)) d.evt.view.length 0
    let d := { d with evt := { d.evt with view := d.evt.view ++ [(h, r)] } }
    d.when (d.mbox.policy.getD r.severity false) (·.emit (.msix (r.severity + 1)))
  else
    let d := (d.incF EVT_PV_OVF.COUNT 0 r.severity).setF EVT_PV_OVF_LAST.SEQ r.seq 0 r.severity
    let first := if (tget d.evt.ovfFirst r.severity).isSome then d.evt.ovfFirst else tset d.evt.ovfFirst r.severity r.seq
    { d with evt := { d.evt with ovfFirst := first, gone := d.evt.gone ++ [(r.seq, r.source)] } }

/-- A numbered record offered to its leaf; answers whether a leaf that is full has refused its first record (R509, R510). -/
def Dev.leafOffer (d : Dev) (r : EvRec) : Dev × Bool :=
  let k := leafOf r.source
  let full := decide (leafSlots ≤ d.leafUsed k)
  if full || decide (256 ≤ d.evt.queue.length) then
    let first := full && !d.evt.fullSeen.contains k
    let d := d.countDrop k r.code
    (if first then { d with evt := { d.evt with fullSeen := d.evt.fullSeen ++ [k] } } else d, first)
  else ({ d with evt := { d.evt with queue := d.evt.queue ++ [(k, r)] } }, false)

/-- T0 to the commit: the records of this interval go into the commit record (R520). -/
def Dev.holdsRecords (d : Dev) : Bool := d.quenching && !d.committed

/-- SEQ given to a record that has passed the rate limit (R507, R508), and the record kept (R509, R516, R520). Answers the SEQ
when a full leaf refused its first record. -/
def Dev.number (d : Dev) (code source severity : Nat) (payload : List Byte) : Dev × Option Nat :=
  if d.evt.reservation ≤ d.evt.nextSeq then ((d.incF EVT_UNSEQ.COUNT).setB EVT_STATUS.SEQ_STALL true, none)
  else
    let seq := d.evt.nextSeq
    let r : EvRec := { seq := seq, code := code, source := source, severity := severity, quench := d.holdsRecords,
                       truncated := decide (16 < payload.length), replayed := false, payload := padTo 16 payload }
    let d := { d with evt := { d.evt with nextSeq := seq + 1 } }
    let d := d.setBucket code { d.bucket code with lastSeq := seq }
    if d.holdsRecords then
      (if d.evt.quenchRecs.length < 16 then { d with evt := { d.evt with quenchRecs := d.evt.quenchRecs ++ [r] } }
       else { d with evt := { d.evt with eventsLost := d.evt.eventsLost + 1 } }, none)
    else
      let (d, first) := d.leafOffer r
      (d.viewAdd r, if first then some seq else none)

/-- One occurrence of an event through the rate limit (R514). -/
def Dev.occur (d : Dev) (code source severity : Nat) (payload : List Byte) : Dev × Option Nat :=
  let b := d.bucket code
  if d.unlimited code then d.number code source severity payload
  else if b.tokens = 0 then
    let b' := { b with suppressed := b.suppressed + 1, firstSrc := if b.suppressed = 0 then source else b.firstSrc, lastSrc := source }
    ((d.setBucket code b').incF EVT_SUPPRESSED.COUNT, none)
  else (d.setBucket code { b with tokens := b.tokens - 1 }).number code source severity payload

/-- An event is raised (R507, R514): the shared operation of every meaning that raises one. The first drop after a leaf fills
raises EVT_LEAF_FULL as well (R510). -/
def Dev.raise (d : Dev) (e : Ev) (source : Nat) (payload : Fields) : Dev :=
  match d.occur e.code source e.severity (fieldBytes payload) with
  | (d, none) => d
  | (d, some seq) =>
    (d.occur Ev.EVT_LEAF_FULL.code bellowsId Ev.EVT_LEAF_FULL.severity (fieldBytes [p1 (leafOf source), p8 seq])).1

/-- An event from the Bellows Hearth. -/
def Dev.raiseB (d : Dev) (e : Ev) (payload : Fields) : Dev := d.raise e bellowsId payload

/-- An event from the root Hearth. -/
def Dev.raiseR (d : Dev) (e : Ev) (payload : Fields) : Dev := d.raise e 0 payload

/-- Status codes as numbers (R500). -/
def Status.code : Status → Nat
  | .ok => 0x00
  | .busy => 0x01
  | .lengthError => 0x02
  | .badHandle => 0x03
  | .notOwner => 0x04
  | .doubleFree => 0x05
  | .quota => 0x06
  | .empty => 0x07
  | .notErased => 0x08
  | .programFail => 0x09
  | .eraseFail => 0x0A
  | .eccUncorrectable => 0x0B
  | .authFail => 0x0C
  | .keyErased => 0x0D
  | .abortedByQuench => 0x0E
  | .unsupported => 0x0F
  | .accessDenied => 0x10
  | .dirtyPresent => 0x11
  | .freePending => 0x12

end Sys2Proof.Machine
end

