-- ==== Sys2Proof/Machine/PoolOps.lean ====
section
/-! DEFINITION. The buffer pools: layout, handles, their checks and the arbiter's rules (R489 to R501). -/

namespace Sys2Proof.Machine

open Sys2Proof

/-- The buffer size of a class in bytes (R489). -/
def classSize (c : Nat) : Nat := [256, 4096, 16384, 65536].getD c 0

/-- The number of buffers of a class of a pool; die 0 is the Bellows pool of 48 class-1 buffers (R489, R490). -/
def Dev.classCount (d : Dev) (die c : Nat) : Nat :=
  if die = 0 then (if c = 1 then 48 else 0) else d.swg.cfg.pools.count.getD c 0

/-- The base offset of a class (R489, POOL_BASEc). -/
def Dev.classBase (d : Dev) (die c : Nat) : Nat :=
  if die = 0 then 0 else sumOf ((List.range c).map (fun i => d.classCount die i * classSize i))

/-- The handle of a buffer (R491). -/
def Dev.handle (d : Dev) (k : BufKey) : Nat := k.die * 2 ^ 28 + k.cls * 2 ^ 25 + (d.classBase k.die k.cls + k.idx * classSize k.cls)

def handleDie (h : Nat) : Nat := bits h 28 4
def handleClass (h : Nat) : Nat := bits h 25 3
def handleOffset (h : Nat) : Nat := bits h 0 25

/-- The checks of R492 in their order: the buffer the handle names, or the number (1 to 5) of the check that fails. -/
def Dev.checkHandle (d : Dev) (h : Nat) : Except Nat BufKey :=
  let die := handleDie h
  let c := handleClass h
  let off := handleOffset h
  let base := d.classBase die c
  if !(decide (die = 0) || d.inService die) then .error 1
  else if !(if die = 0 then decide (c = 1) else decide (c ≤ 3)) then .error 2
  else if off < base ∨ base + d.classCount die c * classSize c ≤ off then .error 3
  else if (off - base) % classSize c ≠ 0 then .error 4
  else
    let k : BufKey := ⟨die, c, (off - base) / classSize c⟩
    if (tget d.pool.bufs k).isSome then .ok k else .error 5

/-- held(r, c): the buffers of a class charged to a requester on a die (R496). -/
def Dev.held (d : Dev) (die r c : Nat) : Nat := tcount d.pool.bufs (fun k b => decide (k.die = die ∧ k.cls = c ∧ b.owner = r))

/-- The FREE buffers of a class. -/
def Dev.freeBufs (d : Dev) (die c : Nat) : Nat := d.classCount die c - tcount d.pool.bufs (fun k _ => decide (k.die = die ∧ k.cls = c))

/-- q(r, c) (R496): for the quench reader at least its floor. -/
def Dev.quota (d : Dev) (r c : Nat) : Nat :=
  let q := (d.swg.cfg.pools.quota.getD r []).getD c 0
  if r = 26 then Nat.max q (d.swg.cfg.pools.floor.getD c 0) else q

/-- The reserve of a class (R496). -/
def Dev.reserve (d : Dev) (die c : Nat) : Nat := d.swg.cfg.pools.floor.getD c 0 - d.held die 26 c

/-- The lowest-offset FREE buffer (R496). -/
def Dev.lowestFree (d : Dev) (die c : Nat) : Option Nat :=
  (List.range (d.classCount die c)).find? (fun i => (tget d.pool.bufs ⟨die, c, i⟩).isNone)

/-- Whether a requester is quarantined on a die (R501). -/
def Dev.quarantined (d : Dev) (die r : Nat) : Bool := bit (d.f POOL_QUARANTINE.MASK die) r

/-- The source Hearth of a pool's events (R504). -/
def poolSource (die : Nat) : Nat := if die = 0 then bellowsId else die

/-- A violation is counted and may quarantine its requester (R501); requester 26 never is. The Bellows pool keeps no
violation counts (R490, R503). -/
def Dev.violation (d : Dev) (die r : Nat) : Dev :=
  if die = 0 then d
  else
    let d := d.incF POOL_VIOLATIONS.COUNT die r
    let n := d.f POOL_VIOLATIONS.COUNT die r
    if r ≠ 26 ∧ d.swg.cfg.pools.violLimit ≠ 0 ∧ d.swg.cfg.pools.violLimit < n ∧ d.quarantined die r = false then
      (d.setF POOL_QUARANTINE.MASK (d.f POOL_QUARANTINE.MASK die ||| 1 <<< r) die).raise .POOL_QUARANTINE die [p1 r, p1 0, p4 n]
    else d

/-- A bad handle is refused: the event and the violation (R492, R501, R504). -/
def Dev.badHandle (d : Dev) (die r srcDie handle check : Nat) : Dev :=
  (d.raise .POOL_BAD_HANDLE (poolSource die) [p1 r, p1 srcDie, p4 handle, p4 check]).violation die r

/-- The result of an operation: reported to the requester, and in POOL_CMD_STATUS when Smith firmware of the die issued it as
requester 30 (R502). -/
def Dev.poolDone (d : Dev) (die r srcDie : Nat) (st : Status) (handle : Nat) : Dev :=
  let d := d.emit (.poolResult die r srcDie st handle)
  if r = 30 ∧ srcDie = die then
    ((d.setB POOL_CMD_STATUS.BUSY false die).setB POOL_CMD_STATUS.DONE true die).setF POOL_CMD_STATUS.STATUS st.code die
  else d

/-- Whether a requester may allocate: after T0 only the quench reader, the journal writer, the Weld engine on its kept link and
the slices that drain under R162 (R498). -/
def Dev.mayAlloc (d : Dev) (r : Nat) : Bool := !d.quenching || [24, 25, 26, 31].contains r

/-- The arbiter's pointer moves past the requester it took (R495). -/
def Dev.arbiterPast (d : Dev) (die c r : Nat) : Dev := { d with pool := { d.pool with rr := tset d.pool.rr (die, c) ((r + 1) % 32) } }

/-- ALLOC at the arbiter of one class (R496). A fallback allowed by FALLBACK[r] waits for the next class's arbiter. -/
def Dev.allocAt (d : Dev) (die r srcDie c : Nat) (noFallback : Bool) : Dev :=
  let d := d.arbiterPast die c r
  if d.quarantined die r then d.poolDone die r srcDie .accessDenied 0
  else if d.quota r c ≤ d.held die r c then d.poolDone die r srcDie .quota 0
  else
    let free := d.freeBufs die c
    let has := if r = 26 then decide (1 ≤ free) else decide (d.reserve die c < free)
    match (if has then d.lowestFree die c else none) with
    | some i =>
      let k : BufKey := ⟨die, c, i⟩
      let d := { d with pool := { d.pool with bufs := tset d.pool.bufs k ⟨false, r, srcDie, 0⟩, data := tdel d.pool.data k } }
      let d := if r = 30 ∧ srcDie = die then d.setF POOL_CMD_HANDLE.HANDLE (d.handle k) die else d
      let fl := d.swg.cfg.pools.floor.getD c 0
      let d := if r = 26 ∧ d.held die 26 c = fl then d.raise .POOL_FLOOR_REACHED die [p1 c, p4 (d.held die 26 c), p4 (d.freeBufs die c)] else d
      d.poolDone die r srcDie .ok (d.handle k)
    | none =>
      if c < 3 ∧ bit (d.swg.cfg.pools.fallback.getD r 0) c ∧ noFallback = false then
        { d with pool := { d.pool with fallback := d.pool.fallback ++ [(die, c + 1, r, srcDie)] } }
      else
        let d := d.incF POOL_EMPTY.COUNT die c
        (d.raise .POOL_EMPTY die [p1 c, p1 r, p4 free, p4 (d.reserve die c)]).poolDone die r srcDie .empty 0

/-- The first buffer of a Bellows client's 16: the supervisor, the mailbox processor and the recorder, by their Temper queue
numbers 0, 9 and 10 (R468, R490, assumption 5). -/
def bellowsFirst (client : Nat) : Option Nat :=
  if client = 0 then some 0 else if client = 9 then some 16 else if client = 10 then some 32 else none

/-- ALLOC at the Bellows pool: no quota, no floor, no fallback; a client takes the lowest FREE buffer of its own 16 (R490). -/
def Dev.allocBellows (d : Dev) (client : Nat) : Dev :=
  match bellowsFirst client with
  | none => d.poolDone 0 client 0 .accessDenied 0
  | some lo =>
    match ((List.range 16).map (· + lo)).find? (fun i => (tget d.pool.bufs ⟨0, 1, i⟩).isNone) with
    | some i =>
      let k : BufKey := ⟨0, 1, i⟩
      let d := { d with pool := { d.pool with bufs := tset d.pool.bufs k ⟨false, client, 0, 0⟩, data := tdel d.pool.data k } }
      d.poolDone 0 client 0 .ok (d.handle k)
    | none => (d.raiseB .POOL_EMPTY [p1 1, p1 client, p4 (d.freeBufs 0 1), p4 0]).poolDone 0 client 0 .empty 0

/-- The operands that Smith firmware wrote to POOL_CMD for an operation it issues as requester 30 of its die (R502). -/
def Dev.poolCmd (d : Dev) (die r srcDie op handle : Nat) : Dev :=
  if r = 30 ∧ srcDie = die then (d.setF POOL_CMD.OP op die).setF POOL_CMD_HANDLE.HANDLE handle die else d

/-- A held buffer's record changed. -/
def Dev.setBuf (d : Dev) (k : BufKey) (b : Buf) : Dev := { d with pool := { d.pool with bufs := tset d.pool.bufs k b } }

/-- A buffer becomes FREE: its contents are undefined at its next allocation (R498). -/
def Dev.dropBuf (d : Dev) (k : BufKey) : Dev :=
  { d with pool := { d.pool with bufs := tdel d.pool.bufs k, data := tdel d.pool.data k } }

/-- DOUBLE_FREE and NOT_OWNER are refused with their event and violation (R494, R501). -/
def Dev.refuseBuf (d : Dev) (die r srcDie handle : Nat) (b : Buf) (st : Status) : Dev :=
  let src := poolSource die
  let d := match st with
    | .notOwner => (d.raise .POOL_NOT_OWNER src [p1 r, p4 handle, p1 b.owner]).violation die r
    | .doubleFree => (d.raise .POOL_DOUBLE_FREE src [p1 r, p4 handle, p1 (if b.pending then 2 else 1)]).violation die r
    | _ => d
  d.poolDone die r srcDie st handle

/-- The owner of record of a buffer (R493). -/
def Buf.ownedBy (b : Buf) (r srcDie : Nat) : Bool := decide (b.owner = r ∧ b.ownerDie = srcDie)

/-- An operation on a buffer: the handle is checked by the pool it names, and the operation of R494 runs on the buffer. -/
def Dev.onBuf (d : Dev) (r srcDie handle : Nat) (op : Dev → Nat → BufKey → Buf → Dev) : Dev :=
  let die := handleDie handle
  match d.checkHandle handle with
  | .error n => (d.badHandle die r srcDie handle n).poolDone die r srcDie .badHandle handle
  | .ok k =>
    match tget d.pool.bufs k with
    | none => d
    | some b => op (d.arbiterPast die k.cls r) die k b

end Sys2Proof.Machine
end

