-- ==== Sys2Proof/Machine/TmpOps.lean ====
section
/-! DEFINITION. The Temper store: its medium, the ring records that the package keeps in it, and the descriptor rules
(R465 to R485). -/

namespace Sys2Proof.Machine

open Sys2Proof

/-! ### The medium -/

/-- What a byte that is not listed reads: erased (R465). -/
def erasedByte : Byte := 0xFF

/-- The byte at a physical address. -/
def memGet : List Host.Cell → Nat → Byte
  | [], _ => erasedByte
  | (a, b) :: m, q => if a = q then b else memGet m q

/-- The medium with one byte changed: addresses stay strictly rising, and an erased byte is not listed. -/
def memSet : List Host.Cell → Nat → Byte → List Host.Cell
  | [], q, v => if v = erasedByte then [] else [(q, v)]
  | (a, b) :: m, q, v =>
    if a < q then (a, b) :: memSet m q v
    else if a = q then (if v = erasedByte then m else (q, v) :: m)
    else if v = erasedByte then (a, b) :: m else (q, v) :: (a, b) :: m

/-- The medium with consecutive bytes changed. -/
def memPut : List Host.Cell → Nat → List Byte → List Host.Cell
  | m, _, [] => m
  | m, a, b :: bs => memPut (memSet m a b) (a + 1) bs

/-- The medium with a range of bytes erased. -/
def memErase (m : List Host.Cell) (a n : Nat) : List Host.Cell := m.filter (fun c => decide (c.1 < a ∨ a + n ≤ c.1))

/-- The canonical form of the medium: addresses strictly rising, no erased byte listed. -/
def Memory.wf : List Host.Cell → Bool
  | [] => true
  | (_, b) :: [] => decide (b ≠ erasedByte)
  | (a, b) :: (a', b') :: m => decide (b ≠ erasedByte) && decide (a < a') && Memory.wf ((a', b') :: m)

/-- Bytes of the store (R465). -/
def tmpBytes : Nat := 0x3000000

/-- The physical sector of a logical sector; the spare pool lies at its own place (R467). -/
def Dev.physSector (d : Dev) (l : Nat) : Nat := tgetD d.tmp.remap l l

/-- The physical address of a logical address (R467). -/
def Dev.phys (d : Dev) (a : Nat) : Nat := d.physSector (a / 4096) * 4096 + a % 4096

/-- Whether a logical byte lies in a word that a cut-off operation left undefined (R483). -/
def Dev.tmpUndefined (d : Dev) (a : Nat) : Bool :=
  d.tmp.undefWords.contains (d.phys a / 8) || d.tmp.undefSectors.contains (d.phys a / 4096)

/-- The byte a read of a logical address gives; a byte of an undefined word is a free value (R483). -/
def Dev.tmpByte (d : Dev) (a : Nat) : Byte :=
  if d.tmpUndefined a then BitVec.ofNat 8 (Config.freeValue (d.free + a)) else memGet d.tmp.mem (d.phys a)

/-- The bytes of a logical range. -/
def Dev.tmpRange (d : Dev) (a n : Nat) : List Byte := (List.range n).map (fun i => d.tmpByte (a + i))

/-- The word at a logical address. -/
def Dev.tmpWord (d : Dev) (a : Nat) : Word := BitVec.ofNat 64 (leValue (d.tmpRange a 8))

def Dev.setTmp (d : Dev) (f : TmpState → TmpState) : Dev := { d with tmp := f d.tmp }

/-- Consecutive logical bytes written, each at its physical place. -/
def Dev.tmpPut (d : Dev) : Nat → List Byte → Dev
  | _, [] => d
  | a, b :: bs => (d.setTmp fun t => { t with mem := memSet t.mem (d.phys a) b }).tmpPut (a + 1) bs

/-- A logical sector erased: every byte reads 0xFF and nothing of it is undefined (R475). -/
def Dev.tmpEraseSector (d : Dev) (l : Nat) : Dev :=
  let p := d.physSector l
  d.setTmp fun t => { t with mem := memErase t.mem (p * 4096) 4096, undefSectors := t.undefSectors.filter (fun x => decide (x ≠ p)),
                             undefWords := t.undefWords.filter (fun w => decide (w / 512 ≠ p)),
                             scrubs := t.scrubs.filter (fun x => decide (x ≠ l)) }

/-- Whether every byte of a logical range reads erased with margin (R475, BLANK_CHECK): index of the first word that does not. -/
def Dev.tmpFirstNotBlank (d : Dev) (a words : Nat) : Option Nat :=
  (List.range words).find? (fun i => d.tmpUndefined (a + 8 * i) || decide (d.tmpWord (a + 8 * i) ≠ BitVec.allOnes 64))

/-! ### Self-checking rings (R460, R466, R485) -/

/-- A ring of records: its first byte, its sectors, and its slot size in bytes. -/
structure RingArea where
  base : Nat
  sectors : Nat
  slot : Nat
  deriving DecidableEq, Repr

/-- The quench commit record ring, sectors 2 to 63 of its area (R255). -/
def commitRing : RingArea := ⟨0x1F82000, 62, 64⟩
/-- The reheat ring (R274). -/
def reheatRing : RingArea := ⟨0x0EF0000, 16, 64⟩
/-- The learned-values journal, copy A and copy B (R460). -/
def lvRings : List RingArea := [⟨0x0E00000, 120, 64⟩, ⟨0x0E78000, 120, 64⟩]
/-- The two counter rings (R466). -/
def counterRings : List RingArea := [⟨0x1F60000, 8, 64⟩, ⟨0x1F68000, 8, 64⟩]
/-- The two copies of the remap area, in the spare pool (R467, R481). -/
def remapRings : List RingArea := [⟨0x2E00000, 32, 64⟩, ⟨0x2E20000, 32, 64⟩]

/-- A valid record of a ring: its address, MAGIC, SEQ and all its bytes. -/
structure Rec where
  addr : Nat
  magic : Nat
  seq : Nat
  bytes : List Byte
  deriving DecidableEq, Repr

/-- A field of a record by its offset and size. -/
def Rec.at (r : Rec) (off size : Nat) : Nat := leAt r.bytes off size

/-- A MAGIC of four characters as the number its bytes spell. -/
def magicOf (a b c e : Nat) : Nat := a + 256 * (b + 256 * (c + 256 * e))

/-- The bytes of a 64-byte record: MAGIC, CHECK over bytes 8 to 63, SEQ, then the body to byte 63 (R255, R460). -/
def recordBytes (magic seq : Nat) (body : Fields) : List Byte :=
  let rest := leBytes 8 seq ++ padTo 48 (fieldBytes body)
  leBytes 4 magic ++ leBytes 4 (crc32 rest) ++ rest

/-- A sorted list without its repeats. -/
def dedupAdj : List Nat → List Nat
  | [] => []
  | [x] => [x]
  | x :: y :: l => if x = y then dedupAdj (y :: l) else x :: dedupAdj (y :: l)

/-- The units of a logical sector that are not blank, as numbers within the sector: those with a byte that is not erased, and
those with an undefined word (R483). -/
def Dev.sectorUnits (d : Dev) (l unit : Nat) : List Nat :=
  let p := d.physSector l
  if d.tmp.undefSectors.contains p then List.range (4096 / unit)
  else
    let held := dedupAdj ((d.tmp.mem.filter (fun c => decide (p * 4096 ≤ c.1 ∧ c.1 < (p + 1) * 4096))).map (fun c => c.1 % 4096 / unit))
    let undef := (d.tmp.undefWords.filter (fun w => decide (w / 512 = p))).map (fun w => w % 512 * 8 / unit)
    if undef.isEmpty then held else sortBy id (dedup (held ++ undef))

/-- The slots of a ring that are not blank, by their addresses, ascending. -/
def Dev.ringUsed (d : Dev) (g : RingArea) : List Nat :=
  ((List.range g.sectors).map fun i => (d.sectorUnits (g.base / 4096 + i) g.slot).map fun u => g.base + i * 4096 + u * g.slot).flatten

/-- The record of a slot, when its CHECK is correct and it is not undefined (R483, R485). -/
def Dev.recordAt (d : Dev) (a : Nat) : Option Rec :=
  let bs := d.tmpRange a 64
  if (List.range 8).any (fun i => d.tmpUndefined (a + 8 * i)) then none
  else if leAt bs 4 4 = crc32 (bs.drop 8) then some ⟨a, leAt bs 0 4, leAt bs 8 8, bs⟩ else none

/-- The valid records of a ring. -/
def Dev.ringRecords (d : Dev) (g : RingArea) : List Rec := (d.ringUsed g).filterMap d.recordAt

/-- The valid records of both copies of a doubled ring. -/
def Dev.ringsRecords (d : Dev) (gs : List RingArea) : List Rec := (gs.map d.ringRecords).flatten

/-- The record with the highest SEQ. -/
def newestRec : List Rec → Option Rec
  | [] => none
  | r :: rs => match newestRec rs with
    | none => some r
    | some q => if r.seq < q.seq then some q else some r

/-- The newest valid record of a kind. -/
def Dev.newest (d : Dev) (gs : List RingArea) (p : Rec → Bool) : Option Rec := newestRec ((d.ringsRecords gs).filter p)

/-- The slot that takes the next record: the one after the last slot in use, seen from the newest record onward; slot 0 of an
empty ring. -/
def Dev.ringNext (d : Dev) (g : RingArea) : Nat :=
  let n := g.sectors * 4096 / g.slot
  let used := (d.ringUsed g).map (fun a => (a - g.base) / g.slot)
  let start := match newestRec (d.ringRecords g) with
    | some r => (r.addr - g.base) / g.slot + 1
    | none => 0
  match (List.range n).find? (fun i => !used.contains ((start + i) % n)) with
  | some i => (start + i) % n
  | none => start % n

/-- A record programmed into the next blank slot of one ring. When it lands in a sector's first slot, the next sector is erased
at once (R255); the records of that sector that are still the newest of their kind are programmed again first, where the ring
asks for it (R274, R460): `kind` names a record's kind. -/
def Dev.ringAppend (d : Dev) (g : RingArea) (kind : Option (Rec → Nat)) (bytes : List Byte) : Dev :=
  let per := 4096 / g.slot
  let i := d.ringNext g
  let d := d.tmpPut (g.base + i * g.slot) bytes
  if i % per ≠ 0 then d
  else
    let nextSector := (i / per + 1) % g.sectors
    let lo := g.base + nextSector * 4096
    let recs := d.ringRecords g
    let live := match kind with
      | none => []
      | some k => recs.filter fun r => decide (lo ≤ r.addr ∧ r.addr < lo + 4096) &&
          recs.all (fun q => decide (k q = k r → q.seq ≤ r.seq))
    let d := d.tmpEraseSector (lo / 4096)
    d.forEach live fun d r => d.tmpPut (g.base + (d.ringNext g) * g.slot) r.bytes

/-- The SEQ of a new record: one more than the highest of the ring's copies. -/
def Dev.ringSeq (d : Dev) (gs : List RingArea) : Nat := maxOf ((d.ringsRecords gs).map (·.seq)) + 1

/-- AON_SENSE is below its threshold: no program or erase starts (R440). -/
def Dev.aonLow (d : Dev) : Bool := d.fb BELL_SUPPLY_STATUS.AON_LOW

/-- A record programmed into every copy of a ring, A before B (R460). -/
def Dev.record (d : Dev) (gs : List RingArea) (kind : Option (Rec → Nat)) (magic : Nat) (body : Fields) : Dev :=
  if d.aonLow then d else
  let bs := recordBytes magic (d.ringSeq gs) body
  d.forEach gs fun d g => d.ringAppend g kind bs

/-- The kind of a learned-values record: its MAGIC and string (R460). -/
def lvKind (r : Rec) : Nat := r.magic * 256 + r.at 16 1

/-- The kind of a reheat ring record: the role record of each region, or the restore record (R274). -/
def reheatKind (r : Rec) : Nat := r.at 16 1

def magicESRV : Nat := magicOf 0x45 0x53 0x52 0x56
def magicFCNT : Nat := magicOf 0x46 0x43 0x4E 0x54
def magicFWSL : Nat := magicOf 0x46 0x57 0x53 0x4C
def magicSLAG : Nat := magicOf 0x53 0x4C 0x41 0x47
def magicPPRQ : Nat := magicOf 0x50 0x50 0x52 0x51
def magicLIFE : Nat := magicOf 0x4C 0x49 0x46 0x45
def magicLVRS : Nat := magicOf 0x4C 0x56 0x52 0x53
def magicLVDQ : Nat := magicOf 0x4C 0x56 0x44 0x51
def magicTRMP : Nat := magicOf 0x54 0x52 0x4D 0x50
def magicQPTR : Nat := magicOf 0x51 0x50 0x54 0x52
def magicGCLM : Nat := magicOf 0x47 0x43 0x4C 0x4D
def magicWROL : Nat := magicOf 0x57 0x52 0x4F 0x4C
def magicRHTP : Nat := magicOf 0x52 0x48 0x54 0x50

/-- The kind of a counter record: its MAGIC, and for SLAG and PPRQ records the resource that bytes 16 to 23 name (R466, R576). -/
def counterKind (r : Rec) : Nat :=
  r.magic + (if r.magic = magicSLAG ∨ r.magic = magicPPRQ ∨ r.magic = magicLIFE then 2 ^ 32 * r.at 16 8 else 0)

/-- A record of the counter rings (R466). -/
def Dev.counterRecord (d : Dev) (magic : Nat) (body : Fields) : Dev := d.record counterRings (some counterKind) magic body

/-- The FCNT record: FAB_AUTH_COUNT, FAB_DSC and the Shutdown State as they now stand (R466). -/
def Dev.saveCounters (d : Dev) : Dev :=
  d.counterRecord magicFCNT [p4 (d.f FAB_AUTH_COUNT.COUNT), p4 (d.f FAB_DSC.COUNT), p1 (d.f FAB_SHUTDOWN_STATE.DIRTY)]

/-- A remap record into both copies (R481): KIND 0 MAP, 1 RETIRED. -/
def Dev.remapRecord (d : Dev) (kind logical physical : Nat) : Dev :=
  d.record remapRings (some fun r => r.at 16 1 + 2 * (if r.at 16 1 = 0 then r.at 20 4 else r.at 24 4)) magicTRMP
    [p1 kind, (3, 0), p4 logical, p4 physical]

/-! ### Descriptors (R468 to R477) -/

/-- A word of the descriptor at a queue's HEAD (R469, R487). -/
def Dev.descWord (d : Dev) (q i : Nat) : Nat := d.f TMP_DESC.WORD 0 q (4 * d.f TMP_Q_HEAD.HEAD 0 q + i)

/-- A descriptor of the Temper store (R469). -/
structure TmpDesc where
  opcode : Nat
  flags : Nat
  length : Nat
  addr : Nat
  handle : Nat
  tag : Nat
  reserved : Nat
  deriving DecidableEq, Repr

/-- The descriptor at a queue's HEAD. -/
def Dev.headDesc (d : Dev) (q : Nat) : TmpDesc :=
  let w0 := d.descWord q 0
  let w1 := d.descWord q 1
  { opcode := bits w0 0 8, flags := bits w0 8 8, length := bits w0 16 16, addr := bits w0 32 32, handle := bits w1 0 32,
    tag := bits w1 32 32, reserved := bits w0 11 5 + d.descWord q 2 + d.descWord q 3 }

/-- Whether a queue holds a descriptor that has not been taken. -/
def Dev.queueHas (d : Dev) (q : Nat) : Bool := decide (q ≤ 10 ∧ d.f TMP_Q_TAIL.TAIL 0 q ≠ d.f TMP_Q_HEAD.HEAD 0 q)

def TmpDesc.failFast (e : TmpDesc) : Bool := bit e.flags 0
def TmpDesc.urgent (e : TmpDesc) (q : Nat) : Bool := bit e.flags 1 && decide (q = 0)

/-- The operation of an opcode (R469). -/
def tmpOpOf (n : Nat) : Option TmpOp :=
  if n = 1 then some .read else if n = 2 then some .program else if n = 3 then some .programAnd
  else if n = 4 then some .eraseSector else if n = 5 then some .blankCheck else if n = 6 then some .marginRead else none

def TmpOp.writes : TmpOp → Bool
  | .program => true
  | .programAnd => true
  | .eraseSector => true
  | _ => false

def TmpOp.moves : TmpOp → Bool
  | .eraseSector => false
  | .blankCheck => false
  | _ => true

/-- A region of the address space (R466): first byte, size, the queues that may program and erase, and the queues that may read. -/
structure TmpRegion where
  base : Nat
  size : Nat
  writers : List Nat
  readers : List Nat
  deriving DecidableEq, Repr

/-- All queues. -/
def allQueues : List Nat := List.range 11

/-- The map of R466, with the writers that hold now: none for the copy or slot in use (R62, R466). -/
def Dev.tmpRegions (d : Dev) : List TmpRegion :=
  let inUse (n : Nat) : Bool := d.swg.loaded && decide (d.f SWG_STATUS.ACTIVE_COPY = n)
  let runs (n : Nat) : Bool := decide (d.pkg.runningSlot = some n)
  [⟨0x0000000, 0x100000, if inUse 0 then [] else [0, 9], allQueues⟩,
   ⟨0x0100000, 0x100000, if inUse 1 then [] else [0, 9], allQueues⟩,
   ⟨0x0200000, 0xC00000, if runs 0 then [] else [0, 9], allQueues⟩,
   ⟨0x0E00000, 0x100000, [0], allQueues⟩,
   ⟨0x0F00000, 0x100000, [0], [0]⟩,
   ⟨0x1000000, 0xC00000, if runs 1 then [] else [0, 9], allQueues⟩,
   ⟨0x1C00000, 0x360000, [10], [0, 9, 10]⟩,
   ⟨0x1F60000, 0x10000, [0], allQueues⟩,
   ⟨0x1F70000, 0x10000, [0, 10], allQueues⟩,
   ⟨0x1F80000, 0x40000, [0], allQueues⟩,
   ⟨0x1FC0000, 0x40000, [], []⟩,
   ⟨0x2000000, 0xE00000, allQueues, allQueues⟩,
   ⟨0x2E00000, 0x200000, [], []⟩]

/-- Whether the table of R466 grants a queue a range. -/
def Dev.tmpGrants (d : Dev) (q : Nat) (op : TmpOp) (a n : Nat) : Bool :=
  match d.tmpRegions.find? (fun g => decide (g.base ≤ a ∧ a < g.base + g.size)) with
  | none => false
  | some g => decide (a + n ≤ g.base + g.size) && (if op.writes then g.writers.contains q else g.readers.contains q) &&
      (decide (op ≠ .programAnd) || decide (g.base = 0x1F70000))

/-- Whether an address lies in the bitmap area, whose words carry no check bits (R474). -/
def inBitmap (a : Nat) : Bool := decide (0x1F70000 ≤ a ∧ a < 0x1F80000)

/-- The requester of a queue's client, with its die: a Smith core for Q1 to Q8, a Bellows client otherwise (R468, R490). -/
def queueClient (q : Nat) : Nat × Nat := if 1 ≤ q ∧ q ≤ 8 then (30, q) else (q, 0)

/-- The shared length rule for 8-byte words (R470, R499). -/
def tmpLengthOk (e : TmpDesc) (op : TmpOp) : Bool :=
  let c := handleClass e.handle
  let limit := if op.moves && decide (c ≤ 3) then classSize c else 65536
  decide (e.length ≠ 0 ∧ e.length * 8 ≤ limit) && (decide (op ≠ .eraseSector) || decide (e.length = 512))

/-- The completion of the descriptor at a queue's HEAD (R471): it is written to the completion ring, and HEAD and the
completion TAIL advance. `addr` etc. as the completion's fields. -/
def Dev.tmpComplete (d : Dev) (q : Nat) (st : Status) (flags maxCorr done corr tag : Nat) : Dev :=
  let t := d.f TMP_CQ_TAIL.TAIL 0 q
  let w0 := st.code + 2 ^ 8 * flags + 2 ^ 16 * maxCorr + 2 ^ 32 * done
  let d := (d.setF TMP_CPL.WORD w0 0 q (2 * t)).setF TMP_CPL.WORD (corr + 2 ^ 32 * tag) 0 q (2 * t + 1)
  (d.setF TMP_CQ_TAIL.TAIL (t + 1) 0 q).setF TMP_Q_HEAD.HEAD (d.f TMP_Q_HEAD.HEAD 0 q + 1) 0 q

/-- A completion with no counts. -/
def Dev.tmpEnd (d : Dev) (q : Nat) (e : TmpDesc) (st : Status) : Dev := d.tmpComplete q st 0 0 0 0 e.tag

/-- The checks of R470 in their order: the operation with the buffer it moves data through, or the completion of the refusal. -/
def Dev.tmpCheck (d : Dev) (q : Nat) (e : TmpDesc) : Except Dev (TmpOp × Option BufKey) :=
  match tmpOpOf e.opcode with
  | none => .error (d.tmpEnd q e .unsupported)
  | some op =>
    if e.reserved ≠ 0 then .error (d.tmpEnd q e .unsupported)
    else if !tmpLengthOk e op then .error (d.tmpEnd q e .lengthError)
    else
      let (r, die) := queueClient q
      let hd := handleDie e.handle
      match (if op.moves then (d.checkHandle e.handle).map some else .ok none) with
      | .error n => .error ((d.badHandle hd r die e.handle n).tmpEnd q e .badHandle)
      | .ok k =>
        if op.moves && decide (hd ≠ 0) && d.quarantined hd r then .error (d.tmpEnd q e .accessDenied)
        else if e.addr % (if op = .eraseSector then 4096 else 8) ≠ 0 then .error (d.tmpEnd q e .unsupported)
        else if !d.tmpGrants q op e.addr (8 * e.length) then
          .error (((d.incF TMP_DENIED.COUNT).raiseB .TMP_ACCESS_DENIED [p1 q, p2 e.opcode, p4 e.addr]).tmpEnd q e .accessDenied)
        else .ok (op, k)

/-- The logical sectors of a range. -/
def sectorsOf (a n : Nat) : List Nat := (List.range ((a % 4096 + n + 4095) / 4096)).map (· + a / 4096)

/-- The physical banks of a logical range at this moment (R465, R476). -/
def Dev.banksOf (d : Dev) (a n : Nat) : List Nat := dedup ((sectorsOf a n).map (fun l => d.physSector l / 4096))

/-- The descriptors and internal work that run in any of a list of banks. -/
def Dev.runningIn (d : Dev) (banks : List Nat) : List TmpRun := d.tmp.running.filter (fun r => r.banks.any banks.contains)

/-- TMP_STATUS.BANK_BUSY and BANK_ERASING as the running operations give them. -/
def Dev.tmpBusyBits (d : Dev) : Dev :=
  let busy := maskOf (dedup ((d.tmp.running.map (·.banks)).flatten))
  let er := maskOf (dedup (((d.tmp.running.filter (fun r => decide (r.op = .eraseSector))).map (·.banks)).flatten))
  (d.setF TMP_STATUS.BANK_BUSY busy).setF TMP_STATUS.BANK_ERASING er

/-- Whether a descriptor must wait for its banks (R476): any program or erase there, but an URGENT program passes the erase of
another sector (R477). -/
def Dev.tmpMustWait (d : Dev) (q : Nat) (e : TmpDesc) (op : TmpOp) : Bool :=
  let rs := d.runningIn (d.banksOf e.addr (8 * e.length))
  if d.aonLow && op.writes then true
  else if e.urgent q && decide (op = .program) then
    rs.any fun r => decide (r.op ≠ .eraseSector) || (sectorsOf e.addr (8 * e.length)).contains (r.addr / 4096)
  else !rs.isEmpty

/-- A program or erase starts to run in its banks. -/
def Dev.tmpRun (d : Dev) (q : Nat) (e : TmpDesc) (op : TmpOp) (old : List Byte) : Dev :=
  (d.setTmp fun t => { t with running := t.running ++ [⟨d.banksOf e.addr (8 * e.length), op, some q, e.addr, e.length, e.tag, old⟩] }).tmpBusyBits

/-- The words of a buffer, free values where its holder has written none (R498). -/
def Dev.bufWord (d : Dev) (k : BufKey) (i : Nat) : Word :=
  ((tgetD d.pool.data k [])[i]?).getD (BitVec.ofNat 64 (Config.freeValue (d.free + i)))

/-- Whether a program would take a bit from 0 to 1, in the data or, outside the bitmap area, in the check bits (R473). An erased
word takes any value; a word that already holds the value takes no pulse. -/
def wordRaises (bitmap : Bool) (old new : Word) : Bool :=
  decide (old ≠ BitVec.allOnes 64 ∧ old ≠ new) &&
    (decide (new &&& ~~~old ≠ 0) || (!bitmap && decide (Config.secded new &&& ~~~Config.secded old ≠ 0)))

/-- The words that a sector's reads correct, and the warnings of R472: at WARN_BITS corrected words of one sector the completion
warns and the sector is queued for a scrub. -/
def Dev.tmpWarn (d : Dev) (q a : Nat) (errs : List (Nat × Bool)) : Dev × Bool :=
  let corr := errs.filter (fun x => !x.2)
  let per (l : Nat) : Nat := (corr.filter (fun x => decide ((a + 8 * x.1) / 4096 = l))).length
  let hot := (dedup (corr.map (fun x => (a + 8 * x.1) / 4096))).filter (fun l => decide (d.f TMP_CTRL.WARN_BITS ≤ per l))
  (d.forEach hot fun d l =>
    if d.tmp.scrubs.contains l then d
    else (d.setTmp fun t => { t with scrubs := t.scrubs ++ [l] }).raiseB .TMP_WARN [p4 l, p4 (per l), p1 q], !hot.isEmpty)

/-- READ (R472): the words before the first uncorrectable one go to the buffer. -/
def Dev.tmpDoRead (d : Dev) (q : Nat) (e : TmpDesc) (k : BufKey) (errs0 : List (Nat × Bool)) : Dev :=
  let errs := if inBitmap e.addr then [] else errs0.filter (fun x => decide (x.1 < e.length))
  let bad := (errs.filter (·.2)).map (·.1)
  let n := minOf bad e.length
  let seen := errs.filter (fun x => decide (x.1 < n) && !x.2)
  let words := (List.range n).map (fun i => d.tmpWord (e.addr + 8 * i))
  let d := { d with pool := { d.pool with data := tset d.pool.data k words } }
  let d := d.addF TMP_CORRECTED.COUNT seen.length
  let (d, warn) := d.tmpWarn q e.addr seen
  let d := if bad.isEmpty then d else
    (d.incF TMP_UNCORRECTABLE.COUNT).raiseB .TMP_UNCORRECTABLE [p4 (e.addr + 8 * n), p1 q]
  d.tick.tmpComplete q (if bad.isEmpty then .ok else .eccUncorrectable) (if warn then 3 else 0) (b2n (!seen.isEmpty)) n seen.length e.tag

/-- PROGRAM (R473): nothing is programmed when any bit would go from 0 to 1. -/
def Dev.tmpDoProgram (d : Dev) (q : Nat) (e : TmpDesc) (k : BufKey) : Dev :=
  let new (i : Nat) : Word := d.bufWord k i
  if (List.range e.length).any (fun i => wordRaises (inBitmap e.addr) (d.tmpWord (e.addr + 8 * i)) (new i)) then
    d.tmpEnd q e .notErased
  else
    let bs := ((List.range e.length).map (fun i => leBytes 8 (new i).toNat)).flatten
    (d.tmpPut e.addr bs).tick.tmpRun q e .program (d.tmpRange e.addr (8 * e.length))

/-- PROGRAM_AND (R474): old AND data into each word. -/
def Dev.tmpDoAnd (d : Dev) (q : Nat) (e : TmpDesc) (k : BufKey) : Dev :=
  let bs := ((List.range e.length).map (fun i => leBytes 8 (d.tmpWord (e.addr + 8 * i) &&& d.bufWord k i).toNat)).flatten
  (d.tmpPut e.addr bs).tick.tmpRun q e .programAnd (d.tmpRange e.addr (8 * e.length))

/-- BLANK_CHECK (R475): WORDS_DONE is the index of the first word not erased, or all of them. -/
def Dev.tmpDoBlank (d : Dev) (q : Nat) (e : TmpDesc) : Dev :=
  match d.tmpFirstNotBlank e.addr e.length with
  | none => d.tmpComplete q .ok 4 0 e.length 0 e.tag
  | some i => d.tmpComplete q .ok 0 0 i 0 e.tag

/-- MARGIN_READ (R475): raw data and the bits that differ, by word, from the corrected normal read. The raw words are free
values where any bit differs. -/
def Dev.tmpDoMargin (d : Dev) (q : Nat) (e : TmpDesc) (k : BufKey) (diffs : List Nat) : Dev :=
  let ds := (List.range e.length).map (fun i => Nat.min (diffs.getD i 0) 72)
  let words := (List.range e.length).map (fun i => if ds.getD i 0 = 0 then d.tmpWord (e.addr + 8 * i)
      else BitVec.ofNat 64 (Config.freeValue (d.free + i)))
  let d := { d with pool := { d.pool with data := tset d.pool.data k words } }
  d.tick.tmpComplete q .ok 0 (maxOf ds) e.length (sumOf ds) e.tag

/-- The descriptor at a queue's HEAD is taken: checked, made to wait or ended with BUSY when its bank is busy, and started
(R470, R476). -/
def Dev.tmpTake (d : Dev) (q : Nat) (m : TmpMedium) : Dev :=
  let e := d.headDesc q
  match d.tmpCheck q e with
  | .error d => d
  | .ok (op, kb) =>
    if d.tmpMustWait q e op then
      if e.failFast then d.tmpEnd q e .busy
      else if d.tmp.waiting.any (fun w => decide (w.1 = q)) then d
      else d.setTmp fun t => { t with waiting := t.waiting ++ [(q, m)] }
    else
      match op, kb with
      | .read, some k => d.tmpDoRead q e k m.errs
      | .program, some k => d.tmpDoProgram q e k
      | .programAnd, some k => d.tmpDoAnd q e k
      | .eraseSector, _ => (d.tmpEraseSector (e.addr / 4096)).tmpRun q e .eraseSector []
      | .blankCheck, _ => d.tmpDoBlank q e
      | .marginRead, some k => d.tmpDoMargin q e k m.diffs
      | _, none => d

/-- A descriptor command of a queue: it acts when the queue's next descriptor has the operation and does not run or wait yet. -/
def Dev.tmpCommand (d : Dev) (q : Nat) (op : Option TmpOp) (m : TmpMedium) (data : Option (List Word)) : Dev :=
  let e := d.headDesc q
  if d.queueHas q && decide (tmpOpOf e.opcode = op ∨ (op = none ∧ e.reserved ≠ 0)) &&
      !(d.tmp.running.any fun r => decide (r.queue = some q)) && !(d.tmp.waiting.any fun w => decide (w.1 = q)) then
    let d := match data, d.checkHandle e.handle with
      | some ws, .ok k => { d with pool := { d.pool with data := tset d.pool.data k ws } }
      | _, _ => d
    d.tmpTake q m
  else d

/-- The order in which waiting descriptors are served (R468): URGENT programs, reads in arrival order, programs and erases of
Q0, then those of the other queues, round-robin from the queue after the last one served. -/
def Dev.tmpRank (d : Dev) (q : Nat) : Nat :=
  let e := d.headDesc q
  match tmpOpOf e.opcode with
  | some op =>
    if op.writes then
      if e.urgent q && decide (op = .program) then 0 else if q = 0 then 2 else 3 + (q + 10 - d.tmp.lastServed) % 11
    else 1
  | none => 1

/-- The waiting descriptors proceed, in the order of R468, as far as their banks are free. -/
def Dev.tmpProceed (d : Dev) : Dev :=
  let ws := sortBy (fun w => d.tmpRank w.1) d.tmp.waiting
  d.forEach ws fun d w =>
    let e := d.headDesc w.1
    match tmpOpOf e.opcode with
    | none => d
    | some op =>
      if d.tmpMustWait w.1 e op then d
      else
        let d := d.setTmp fun t => { t with waiting := t.waiting.filter (fun x => decide (x.1 ≠ w.1)),
                                            lastServed := if op.writes ∧ w.1 ≠ 0 then w.1 else t.lastServed }
        d.tmpTake w.1 w.2

/-- The spare counters and their warnings after a spare has been used (R482). -/
def Dev.sparesCheck (d : Dev) : Dev :=
  let n := d.tmp.spares.length
  let d := if n = 44 then d.raiseB .TMP_SPARE_LOW [p4 n] else d
  if n = 0 ∧ d.fb TMP_STATUS.SPARE_EXHAUSTED = false then
    (d.setB TMP_STATUS.SPARE_EXHAUSTED true).raiseB .TMP_SPARE_EXHAUSTED [p4 d.tmp.retired.length]
  else d

/-- A logical sector's content moved to a spare physical sector: copied word by word, the mapping recorded in both copies, and the
old sector left to its caller (R479, R480). -/
def Dev.tmpMove (d : Dev) (l spare : Nat) : Dev :=
  let old := d.physSector l
  let moved := (d.tmp.mem.filter (fun c => decide (old * 4096 ≤ c.1 ∧ c.1 < (old + 1) * 4096))).map (fun c => (spare * 4096 + c.1 % 4096, c.2))
  let d := d.setTmp fun t =>
    { t with mem := (memErase (memErase t.mem (old * 4096) 4096) (spare * 4096) 4096),
             spares := t.spares.filter (fun x => decide (x ≠ spare)),
             undefSectors := t.undefSectors.filter (fun x => decide (x ≠ spare)),
             undefWords := t.undefWords.filter (fun w => decide (w / 512 ≠ spare)),
             remap := tset t.remap l spare }
  let d := d.setTmp fun t => { t with mem := moved.foldl (fun m c => memSet m c.1 c.2) t.mem }
  d.remapRecord 0 l spare

end Sys2Proof.Machine
end

