-- ==== Sys2Proof/Machine/EvtOps.lean ====
section
/-! DEFINITION. The event recorder's leaves in the Temper store, the scan at a Bellows start, the package view's rebuilding and the
event window (R508 to R522). -/

namespace Sys2Proof.Machine

open Sys2Proof

/-- The first byte of a leaf (R509). -/
def leafBase (k : Nat) : Nat := 0x1C00000 + 0x60000 * k

/-- The address of a leaf's slot. -/
def slotAddr (k i : Nat) : Nat := leafBase k + 32 * i

/-- The 32 bytes of a record (R505). -/
def EvRec.bytes (r : EvRec) : List Byte :=
  let flags := r.severity + 16 * b2n r.quench + 32 * b2n r.truncated + 64 * b2n r.replayed
  let head := leBytes 8 r.seq ++ leBytes 2 r.code ++ leBytes 1 r.source ++ leBytes 1 flags
  let pay := padTo 16 r.payload
  head ++ leBytes 4 (crc32 (head ++ leBytes 4 0 ++ pay)) ++ pay

/-- The record that 32 bytes hold, when their CHECK is correct (R505, R511). -/
def recOfBytes (bs : List Byte) : Option EvRec :=
  if leAt bs 12 4 = crc32 (bs.take 12 ++ leBytes 4 0 ++ bs.drop 16) then
    let fl := leAt bs 11 1
    some { seq := leAt bs 0 8, code := leAt bs 8 2, source := leAt bs 10 1, severity := bits fl 0 4, quench := bit fl 4,
           truncated := bit fl 5, replayed := bit fl 6, payload := bs.drop 16 }
  else none

/-- A slot of a leaf: blank, a record, or undefined (R511). -/
inductive LeafSlot
  | blank
  | record (r : EvRec)
  | undefined
  deriving DecidableEq, Repr

/-- What the scan finds in a slot. -/
def Dev.leafSlot (d : Dev) (k i : Nat) : LeafSlot :=
  let a := slotAddr k i
  if (List.range 4).any (fun w => d.tmpUndefined (a + 8 * w)) then .undefined
  else
    let bs := d.tmpRange a 32
    if bs.all (fun b => decide (b = erasedByte)) then .blank
    else match recOfBytes bs with
      | some r => .record r
      | none => .undefined

/-- The clear record in slot 0 of a leaf (R512). -/
def Dev.leafClear (d : Dev) (k : Nat) : Option EvRec :=
  match d.leafSlot k 0 with
  | .record r => if r.code = Ev.EVT_LOG_CLEARED.code then some r else none
  | _ => none

/-- The slots of a leaf that are not blank, ascending. -/
def Dev.leafUsedSlots (d : Dev) (k : Nat) : List Nat :=
  ((List.range 96).map fun i => (d.sectorUnits (leafBase k / 4096 + i) 32).map (· + i * 128)).flatten

/-- The records of a leaf that are not stale, in slot order (R511, R512, R521). -/
def Dev.leafRecords (d : Dev) (k : Nat) : List EvRec :=
  let floor := match d.leafClear k with | some r => r.seq | none => 0
  (d.leafUsedSlots k).filterMap fun i => match d.leafSlot k i with
    | .record r => if floor ≤ r.seq then some r else none
    | _ => none

/-- The leaf's status registers from a write pointer. -/
def Dev.leafPointer (d : Dev) (k p : Nat) : Dev :=
  (d.setF EVT_LEAF_STATUS.RECORDS p 0 k).setB EVT_LEAF_STATUS.FULL (decide (leafSlots ≤ p)) 0 k

/-- A record programmed into the next slot of its leaf (R509). -/
def Dev.leafProgram (d : Dev) (k : Nat) (r : EvRec) : Dev :=
  let p := d.f EVT_LEAF_STATUS.RECORDS 0 k
  let d := d.tmpPut (slotAddr k p) r.bytes
  let d := if p = 0 then d.setF EVT_LEAF_FIRST.SEQ r.seq 0 k else d
  d.leafPointer k (p + 1)

/-- Whether a slot lies in front of the erase front of a running clear (R512). -/
def Dev.slotErased (d : Dev) (k i : Nat) : Bool :=
  match tget d.evt.clearing k with
  | some front => decide (i / 128 < front)
  | none => true

/-- A leaf's remaining sectors erased from one onward. -/
def Dev.leafEraseFrom (d : Dev) (k sector : Nat) : Dev :=
  d.forEach ((List.range 96).filter (fun i => decide (sector ≤ i))) fun d i => d.tmpEraseSector (leafBase k / 4096 + i)

/-- A record that the recorder makes for itself, numbered without the rate limit. -/
def Dev.ownRecord (d : Dev) (e : Ev) (payload : Fields) : EvRec × Dev :=
  ({ seq := d.evt.nextSeq, code := e.code, source := bellowsId, severity := e.severity, quench := false, truncated := false,
     replayed := false, payload := padTo 16 (fieldBytes payload) }, { d with evt := { d.evt with nextSeq := d.evt.nextSeq + 1 } })

/-- The scan of one leaf at a Bellows start: a cut-off clear is completed (R513), undefined slots are counted, and the write
pointer is the slot after the last one that is not blank (R511). -/
def Dev.leafScan (d : Dev) (k : Nat) : Dev :=
  let used := d.leafUsedSlots k
  let undefs := used.filter (fun i => decide (d.leafSlot k i = .undefined))
  let isRec (i : Nat) : Bool := match d.leafSlot k i with | .record _ => true | _ => false
  let (d, finished) := match d.leafClear k with
    | some c =>
      let stale (i : Nat) : Bool := match d.leafSlot k i with
        | .record r => decide (r.seq < c.seq)
        | .undefined => true
        | .blank => false
      match (used.filter (fun i => decide (0 < i))).find? stale with
      | some i => if (used.any fun j => match d.leafSlot k j with | .record r => decide (r.seq < c.seq) | _ => false) then
          (d.leafEraseFrom k (Nat.max 1 (i / 128)), true) else (d, false)
      | none => (d, false)
    | none =>
      if !isRec 0 && used.any (fun i => decide (0 < i) && isRec i) then
        let d := d.leafEraseFrom k 0
        let (r, d) := d.ownRecord .EVT_LOG_CLEARED [p1 k, p4 0, p4 0, p1 2, p4 0]
        ((d.leafPointer k 0).leafProgram k r, true)
      else (d, false)
  let used := d.leafUsedSlots k
  let d := d.leafPointer k (maxOf (used.map (· + 1)))
  let d := d.setF EVT_LEAF_STATUS.UNDEFINED (saturate 16 undefs.length) 0 k
  let d := d.setF EVT_LEAF_FIRST.SEQ (match d.leafSlot k 0 with | .record r => r.seq | _ => 0) 0 k
  if finished || !undefs.isEmpty then d.raiseB .EVT_LEAF_RECOVERED [p1 k, p4 undefs.length, pB finished] else d

/-- The ESRV record (R508). -/
def Dev.saveReservation (d : Dev) : Dev := d.counterRecord magicESRV [p8 d.evt.reservation, p8 d.evt.pvBase]

/-- The sequence number after a Bellows start (R508): the greatest of RESERVATION, 1 + the highest SEQ found, and 1; then
RESERVATION := S0 + 2^20 is programmed. `high` is the highest SEQ of the newest commit record's events. -/
def Dev.seqStart (d : Dev) (high : Nat) : Dev :=
  let (res, base) := match d.newest counterRings (fun r => decide (r.magic = magicESRV)) with
    | some r => (r.at 16 8, r.at 24 8)
    | none => (0, 0)
  let leaves := maxOf (((List.range 9).map fun k => maxOf ((d.leafRecords k).map (·.seq))))
  let s0 := Nat.max (Nat.max res (Nat.max leaves high + 1)) 1
  let d := { d with evt := { d.evt with nextSeq := s0, reservation := s0 + 2 ^ 20, pvBase := base } }
  d.saveReservation

/-- PV_BASE after a clear: the lowest SEQ still in the view, or the next SEQ (R517). -/
def Dev.pvRebase (d : Dev) : Dev :=
  let base := minOf (d.evt.view.map (fun x => x.2.seq)) d.evt.nextSeq
  ({ d with evt := { d.evt with pvBase := base } }).saveReservation

/-- The view in service: rebuilt from every leaf record at or above PV_BASE, in SEQ order (R517). -/
def Dev.pvRebuild (d : Dev) : Dev :=
  let rs := ((List.range 9).map d.leafRecords).flatten.filter (fun r => decide (d.evt.pvBase ≤ r.seq))
  let rs := (sortBy (fun r => r.seq) rs).take 65536
  let view := (List.range rs.length).zip rs
  { (d.setB EVT_STATUS.PV_IN_SERVICE true) with evt := { d.evt with view := view } }

/-- The child table of a Hearth (R49, R588): the root's groups, its ungrouped dies and the Bellows; a die's slice groups and its
ungrouped slices; a group's own list. -/
def Dev.children (d : Dev) (h : Nat) : List Nat :=
  let groups := d.swg.cfg.groups
  let inGroup (x : Nat) : Bool := groups.any (fun g => g.children.contains x)
  if h = 0 then (groups.filter (fun g => decide (g.parent = 0))).map (·.id) ++ d.dies.filter (fun x => !inGroup x) ++ [bellowsId]
  else if d.isDie h then (groups.filter (fun g => decide (g.parent = h))).map (·.id) ++
    ((List.range 9).map (sliceId h)).filter (fun x => !inGroup x)
  else match groups.find? (fun g => decide (g.id = h)) with
    | some g => g.children
    | none => []

/-- The Hearth and all its descendants in the current tree, with a bound on the depth (R31, R33, R49). -/
def Dev.subtree (d : Dev) : Nat → Nat → List Nat
  | 0, h => [h]
  | fuel + 1, h => h :: ((d.children h).map (d.subtree fuel)).flatten

/-- The record that a Hearth's event window presents: the view's first record of its subtree with SEQ at or above EVT_WIN_SEQ
(R522). -/
def Dev.winRecord (d : Dev) (h : Nat) : Option EvRec :=
  let tree := d.subtree 5 h
  (d.evt.view.map (·.2)).find? (fun r => decide (d.f EVT_WIN_SEQ.SEQ h ≤ r.seq) && tree.contains r.source)

/-- EVT_WIN_STATUS.GAP: records of the subtree between SEQ and the presented record have left the view (R522). -/
def Dev.winGap (d : Dev) (h : Nat) : Bool :=
  match d.winRecord h with
  | some r => d.evt.gone.any (fun g => decide (d.f EVT_WIN_SEQ.SEQ h ≤ g.1 ∧ g.1 < r.seq) && (d.subtree 5 h).contains g.2)
  | none => false

/-- The window's status bits as they stand. -/
def Dev.winStatus (d : Dev) (h : Nat) : Dev :=
  (d.setB EVT_WIN_STATUS.VALID (d.winRecord h).isSome h).setB EVT_WIN_STATUS.GAP (d.winGap h) h

/-- Whether a Hearth with this ID exists (R32, R34). -/
def Dev.hearthExists (d : Dev) (h : Nat) : Bool := (d.subtree 5 0).contains h

end Sys2Proof.Machine
end

