-- ==== Sys2Proof/Machine/SwageOps.lean ====
section
/-! DEFINITION. The Swage image: its binary format, its verification in the order of R63, and the address map (R43 to R76). -/

namespace Sys2Proof.Machine

open Sys2Proof

/-! ### Ports from the lane roles (R39, R50) -/

/-- The lane entry of a die. -/
def SwgCfg.die (c : SwgCfg) (die : Nat) : LanesDie := c.lanes.getD (die - 1) ⟨[], 0⟩

/-- Quads a FABRIC or WELD port of a WIDTH occupies. -/
def widthQuads (w : Nat) : Nat := if w = 0 then 1 else if w = 1 then 2 else 4

/-- The lowest quads of the ports of one role, ascending: a port of several quads counts once (R39, R51). -/
def portQuads (qs : List QuadCfg) (role : Nat) : List Nat :=
  (List.range qs.length).filter fun q => match qs[q]? with
    | some e => decide (e.role = role ∧ q % widthQuads e.width = 0)
    | none => false

/-- The fabric ports of a die by their lowest quad: port p is requester p (R39). -/
def SwgCfg.fabricPorts (c : SwgCfg) (die : Nat) : List Nat := portQuads (c.die die).quads 1

/-- The NVMe root ports of a die by their quad; a quad of role NVME_2X2 carries two (R39, R51). -/
def SwgCfg.rootPorts (c : SwgCfg) (die : Nat) : List Nat :=
  ((List.range (c.die die).quads.length).map fun q => match (c.die die).quads[q]? with
    | some e => if e.role = 2 then [q] else if e.role = 3 then [q, q] else []
    | none => []).flatten

/-- The Weld links of a die by their lowest quad: link l is requester 24 + l (R39). -/
def SwgCfg.weldLinks (c : SwgCfg) (die : Nat) : List Nat := portQuads (c.die die).quads 4

/-- The lane entry of a fabric port. -/
def SwgCfg.fabricQuad (c : SwgCfg) (die p : Nat) : QuadCfg :=
  match (c.fabricPorts die)[p]? with
  | some q => (c.die die).quads.getD q ⟨0, 0, 0, 0⟩
  | none => ⟨0, 0, 0, 0⟩

/-- Whether the image configures a fabric port. -/
def SwgCfg.hasPort (c : SwgCfg) (die p : Nat) : Bool := decide (p < (c.fabricPorts die).length)

/-- A port's mode (R50): 0 SLD, 1 MLD, 2 GFAM. -/
def SwgCfg.portMode (c : SwgCfg) (die p : Nat) : Nat := bits (c.fabricQuad die p).flags 1 2

/-! ### The address map (R71 to R74) -/

/-- The slab index of a DPA (R71). -/
def slabOf (dpa : Nat) : Nat := dpa / 4096 % 2 ^ 40

/-- The sector of a DPA within its slab (R71). -/
def sectorOf (dpa : Nat) : Nat := dpa / 64 % 64

/-- The parity of a 48-bit number. -/
def parity48 (v : Nat) : Nat := ((List.range 48).filter (fun i => v.testBit i)).length % 2

/-- Selection bit j of a slab: the parity of DPA[51:4] AND MASK[j] (R72); the low eight bits of every mask are zero. -/
def DramCfg.sel (c : DramCfg) (slab j : Nat) : Nat := parity48 ((slab * 256) &&& c.masks.getD j 0)

/-- The number that selection bits lo to lo + n − 1 spell. -/
def DramCfg.selBits (c : DramCfg) (slab lo n : Nat) : Nat := sumOf ((List.range n).map fun i => 2 ^ i * c.sel slab (lo + i))

/-- Where a slab's cache set lies (R72, R73). -/
structure Place where
  die : Nat
  slice : Nat
  chan : Nat
  rank : Nat
  group : Nat
  bank : Nat
  set : Nat
  deriving DecidableEq, Repr

/-- The place of a slab (R72, R73). -/
def DramCfg.place (c : DramCfg) (slab : Nat) : Place :=
  { die := c.selBits slab 0 c.dieBits + 1, slice := c.selBits slab 3 3, chan := c.selBits slab 6 2,
    rank := c.selBits slab 8 c.rankBits, group := c.selBits slab 11 3, bank := c.selBits slab 14 2, set := slab % c.sets }

/-- The place of a slab under the loaded image. -/
def Dev.place (d : Dev) (slab : Nat) : Place := d.swg.cfg.dram.place slab

/-- The Hearth ID of the slice that owns a slab (R72). -/
def Dev.owner (d : Dev) (slab : Nat) : Nat := sliceId (d.place slab).die (d.place slab).slice

/-- Whether no number of a list is an XOR of others and none is zero: Gaussian elimination over GF(2) (R74). -/
def independent : List Nat → Nat → Bool
  | [], _ => true
  | _, 0 => true
  | m :: ms, fuel + 1 =>
    if m = 0 then false
    else
      let top := (List.range 48).foldl (fun t i => if m.testBit i then i else t) 0
      independent (ms.map fun x => if x.testBit top then x ^^^ m else x) fuel

/-- The masks in use (R74). -/
def DramCfg.usedMasks (c : DramCfg) : List Nat :=
  ((List.range 16).filter fun j => !(decide (j < 3 ∧ c.dieBits ≤ j) || decide (8 ≤ j ∧ j < 11 ∧ c.rankBits ≤ j - 8))).map
    fun j => c.masks.getD j 0

/-! ### Parsing (R43 to R61) -/

/-- A section as its header gives it: TYPE, SECTION_VERSION, the reserved bytes, the value's offset and VALUE_LENGTH (R45). -/
structure Sect where
  ty : Nat
  version : Nat
  rsv : Nat
  off : Nat
  len : Nat
  deriving DecidableEq, Repr

/-- The sections of an image from an offset to the signature; none when they do not fill that range (R45). -/
def parseSects (rd : Nat → Nat → Nat) (lim : Nat) : Nat → Nat → Option (List Sect)
  | 0, pos => if pos = lim then some [] else none
  | fuel + 1, pos =>
    if pos = lim then some []
    else if lim < pos + 8 then none
    else
      let s : Sect := ⟨rd pos 1, rd (pos + 1) 1, rd (pos + 2) 2, pos + 8, rd (pos + 4) 4⟩
      let next := pos + 8 + (s.len + 7) / 8 * 8
      if lim < next then none else (parseSects rd lim fuel next).map (s :: ·)

/-- The value length that a section type has, given its counts; none for an unknown type (R48 to R61). -/
def sectLen (rd : Nat → Nat → Nat) (part : Part) (s : Sect) : Option Nat :=
  match s.ty with
  | 1 => some (8 + 36 * rd s.off 1)
  | 2 => some (72 * part.dies)
  | 3 => some 152
  | 4 => some 24
  | 5 => some (32 + 16 * rd s.off 1)
  | 6 => some 272
  | 7 => some 320
  | 8 => some (72 + 8 * rd (s.off + 64) 2)
  | 9 => some 56
  | 10 => some (8 + 24 * rd (s.off + 4) 2)
  | 11 => some (16 + 24 * rd (s.off + 1) 1)
  | _ => none

/-- Numbers 0 to n − 1 mapped. -/
def tab {α : Type} (n : Nat) (f : Nat → α) : List α := (List.range n).map f

def parseTree (rd : Nat → Nat → Nat) (o : Nat) : List GroupCfg :=
  tab (rd o 1) fun i => let b := o + 8 + 36 * i
    ⟨rd b 1, rd (b + 1) 1, tab (Nat.min (rd (b + 2) 1) 32) fun j => rd (b + 4 + j) 1⟩

def parseLanes (rd : Nat → Nat → Nat) (o dies : Nat) : List LanesDie :=
  tab dies fun i => let b := o + 72 * i
    ⟨tab 17 fun q => ⟨rd (b + 4 * q) 1, rd (b + 4 * q + 1) 1, rd (b + 4 * q + 2) 1, rd (b + 4 * q + 3) 1⟩, rd (b + 68) 2⟩

def parseDram (rd : Nat → Nat → Nat) (o : Nat) : DramCfg :=
  { dpaLimit := rd o 8, dieBits := rd (o + 8) 1, rankBits := rd (o + 9) 1, dpc := rd (o + 10) 1, speed := rd (o + 11) 1,
    uePolicy := rd (o + 12) 1, chanFlags := rd (o + 13) 1, sets := rd (o + 16) 4, masks := tab 16 fun j => rd (o + 24 + 8 * j) 8 }

def parseQuench (rd : Nat → Nat → Nat) (o : Nat) : QuenchCfg :=
  { chanEnable := tab 8 fun i => rd (o + i) 1, diesPerChan := rd (o + 8) 1, planes := rd (o + 9) 1, pages := rd (o + 10) 2,
    blocks := rd (o + 12) 4, onfiRate := rd (o + 16) 2, sparePct := rd (o + 18) 1, scratch := rd (o + 20) 4 }

def parseEnergy (rd : Nat → Nat → Nat) (o : Nat) : EnergyCfg :=
  { flags := rd (o + 1) 1, eFixed := rd (o + 4) 4, eMargin := rd (o + 8) 4, hyst := rd (o + 12) 4, eByteDefault := rd (o + 16) 4,
    holdMax := rd (o + 20) 4, dryPeriod := rd (o + 24) 4,
    strings := tab (rd o 1) fun n => let b := o + 32 + 16 * n
      { capacity := rd b 4, rEst := rd (b + 4) 4, vEod := rd (b + 8) 2, tempDerate := rd (b + 10) 2, ageDerate := rd (b + 12) 2,
        newDerate := rd (b + 14) 1 } }

def parseQos (rd : Nat → Nat → Nat) (o : Nat) : QosCfg :=
  { rhThreshold := rd o 4, rhCooldown := rd (o + 4) 4, srIdle := rd (o + 8) 4,
    reqs := tab 32 fun r => let b := o + 16 + 8 * r; ⟨rd b 1, rd (b + 1) 1, rd (b + 2) 1, rd (b + 4) 2⟩ }

def parsePools (rd : Nat → Nat → Nat) (o : Nat) : PoolsCfg :=
  { count := tab 4 fun c => rd (o + 4 * c) 4, floor := tab 4 fun c => rd (o + 16 + 2 * c) 2, violLimit := rd (o + 24) 2,
    quota := tab 32 fun r => tab 4 fun c => rd (o + 32 + 8 * r + 2 * c) 2, fallback := tab 32 fun r => rd (o + 288 + r) 1 }

def parseEvents (rd : Nat → Nat → Nat) (o : Nat) : EventsCfg :=
  { refill := tab 16 fun i => rd (o + 4 * i) 4, overrides := tab (rd (o + 64) 2) fun i => (rd (o + 72 + 8 * i) 2, rd (o + 76 + 8 * i) 4) }

def parseBacking (rd : Nat → Nat → Nat) (o : Nat) : BackingCfg :=
  { stripe := rd o 4, nss := tab (rd (o + 4) 2) fun n => let b := o + 8 + 24 * n; ⟨rd b 1, rd (b + 1) 1, rd (b + 4) 4, rd (b + 8) 8⟩ }

def parseWeld (rd : Nat → Nat → Nat) (o : Nat) : WeldCfg :=
  { side := rd o 1, heatLength := rd (o + 4) 4, twinId := rd (o + 8) 8,
    regions := tab (rd (o + 1) 1) fun n => let b := o + 16 + 24 * n
      ⟨rd b 8, rd (b + 8) 8, rd (b + 16) 1, rd (b + 17) 1, rd (b + 18) 1⟩ }

/-- The configuration that an image's sections spell; absent sections keep the given values (R47). -/
def parseCfg (rd : Nat → Nat → Nat) (part : Part) (base : SwgCfg) (ss : List Sect) : SwgCfg :=
  ss.foldl (fun c s => match s.ty with
    | 1 => { c with groups := parseTree rd s.off }
    | 2 => { c with lanes := parseLanes rd s.off part.dies }
    | 3 => { c with dram := parseDram rd s.off }
    | 4 => { c with quench := parseQuench rd s.off }
    | 5 => { c with energy := parseEnergy rd s.off }
    | 6 => { c with qos := parseQos rd s.off }
    | 7 => { c with pools := parsePools rd s.off }
    | 8 => { c with events := parseEvents rd s.off }
    | 9 => { c with secPolicy := rd s.off 4, batRootHash := rd (s.off + 8) 48 }
    | 10 => { c with backing := parseBacking rd s.off }
    | 11 => { c with weld := some (parseWeld rd s.off) }
    | _ => c) base

/-! ### Field and rule checks, section by section (R48 to R61, R63, R74, R348, R416) -/

/-- Whether bytes from an offset are all zero. -/
def zeroBytes (rd : Nat → Nat → Nat) (o n : Nat) : Bool := (List.range n).all fun i => decide (rd (o + i) 1 = 0)

def inR (v lo hi : Nat) : Bool := decide (lo ≤ v ∧ v ≤ hi)

/-- All different. -/
def distinct : List Nat → Bool
  | [] => true
  | x :: xs => !xs.contains x && distinct xs

def isGroupId (x : Nat) : Bool := inR x 0xE0 0xFE

/-- Ranges and reserved bytes of TREE (R48). -/
def treeRange (rd : Nat → Nat → Nat) (o : Nat) : Bool :=
  inR (rd o 1) 0 31 && zeroBytes rd (o + 1) 7 && (List.range (rd o 1)).all fun i => let b := o + 8 + 36 * i
    isGroupId (rd b 1) && (decide (rd (b + 1) 1 ≤ 8) || isGroupId (rd (b + 1) 1)) && inR (rd (b + 2) 1) 1 31 && zeroBytes rd (b + 3) 1 &&
      (List.range 32).all fun j => decide (j < rd (b + 2) 1) || decide (rd (b + 4 + j) 1 = 0xFF)

/-- Groups on the parent chain of a group up to the root; none when it does not end there (R49). -/
def chainLen (gs : List GroupCfg) : Nat → Nat → Option Nat
  | 0, _ => none
  | fuel + 1, p =>
    if p ≤ 8 then some 0
    else match gs.find? (fun g => decide (g.id = p)) with
      | some g => (chainLen gs fuel g.parent).map (· + 1)
      | none => none

/-- The rules of R31 to R33 and R49. -/
def treeRules (part : Part) (gs : List GroupCfg) : Bool :=
  let dies := tab part.dies (· + 1)
  let isD (x : Nat) : Bool := dies.contains x
  let isS (d x : Nat) : Bool := inR x (16 * d) (16 * d + 7)
  let above (d : Nat) : Nat := match gs.find? (fun g => g.children.contains d) with
    | some g => (match chainLen gs 32 g.parent with | some n => n + 1 | none => 99)
    | none => 0
  distinct (gs.map (·.id)) && distinct ((gs.map (·.children)).flatten) &&
  (gs.all fun g => (chainLen gs 32 g.parent).isSome &&
    (if g.parent = 0 then g.children.all isGroupId || g.children.all isD
     else if isD g.parent then g.children.all (isS g.parent)
     else isGroupId g.parent && (gs.any fun h => decide (h.id = g.parent) && h.children.contains g.id) &&
       (g.children.all isGroupId || g.children.all isD)) &&
    (g.children.all fun x => !isGroupId x || gs.any fun h => decide (h.id = x ∧ h.parent = g.id))) &&
  (dies.all fun d => decide (3 + above d + b2n (gs.any fun g => decide (g.parent = d)) ≤ 6)) &&
  decide (2 + gs.length + 10 * part.dies ≤ 255)

/-- Ranges and reserved bits of LANES (R50). -/
def lanesRange (rd : Nat → Nat → Nat) (o dies : Nat) : Bool :=
  (List.range dies).all fun i => zeroBytes rd (o + 72 * i + 70) 2 && (List.range 17).all fun q => let b := o + 72 * i + 4 * q
    let role := rd b 1
    inR role 0 4 && inR (rd (b + 1) 1) 0 2 && (decide (role = 1 ∨ role = 4) || decide (rd (b + 1) 1 = 0)) && inR (rd (b + 2) 1) 0 4 &&
      !bit (rd (b + 3) 1) 3 && inR (bits (rd (b + 3) 1) 1 2) 0 2 &&
      (decide (role = 1 ∧ bits (rd (b + 3) 1) 1 2 = 1) || decide (bits (rd (b + 3) 1) 4 4 = 0)) &&
      (decide (role = 1) || decide (bits (rd (b + 3) 1) 1 2 = 0))

/-- The lane rules of R51. -/
def lanesRules (ls : List LanesDie) : Bool :=
  ls.all fun l =>
    let q (i : Nat) : QuadCfg := l.quads.getD i ⟨0, 0, 0, 0⟩
    ((List.range 17).all fun i =>
      let e := q i
      let w := widthQuads e.width
      let first := i / w * w
      (decide (e.role ≠ 1 ∧ e.role ≠ 4) || (List.range w).all fun j => decide (q (first + j) = e)) &&
      (decide (e.role ≠ 4) || (decide (e.width ≤ 1) && decide (e.rate = 3 ∨ e.rate = 4))) &&
      (!bit l.spareRoute i || (decide (i < 16) && decide (e.role = 2 ∨ e.role = 3 ∨ e.role = 4)))) &&
    decide ((portQuads l.quads 4).length ≤ 2) &&
    decide (tcount (l.quads.map fun e => (e.role, 0)) (fun r _ => decide (r = 2)) +
      2 * tcount (l.quads.map fun e => (e.role, 0)) (fun r _ => decide (r = 3)) ≤ 8) &&
    decide ((q 16).role = 0)

/-- The part's greatest DPA space (R52). -/
def Part.maxDpa : Part → Nat
  | .ogl2d => 2 ^ 50
  | .ogl4d => 2 ^ 51
  | .ogl8d => 2 ^ 52

/-- Ranges and reserved bytes of DRAMMAP (R52). -/
def dramRange (rd : Nat → Nat → Nat) (o : Nat) (part : Part) (c : DramCfg) : Bool :=
  decide (c.dpaLimit % 4096 = 0 ∧ c.dpaLimit ≤ part.maxDpa ∧ 2 ^ c.dieBits = part.dies ∧ c.rankBits ≤ 3 ∧ (c.dpc = 1 ∨ c.dpc = 2) ∧
    c.speed ≤ 2 ∧ (c.speed = 0 → c.dpc = 1) ∧ (c.uePolicy ≤ 1 ∨ c.uePolicy = 0xFF) ∧ c.chanFlags ≤ 1 ∧ 1 ≤ c.sets ∧ c.sets ≤ 67108864) &&
  zeroBytes rd (o + 14) 2 && zeroBytes rd (o + 20) 4 &&
  (c.masks.all fun m => decide (m < 2 ^ 48 ∧ m % 256 = 0)) &&
  ((List.range 16).all fun j => decide (¬ ((j < 3 ∧ c.dieBits ≤ j) ∨ (8 ≤ j ∧ j < 11 ∧ c.rankBits ≤ j - 8))) || decide (c.masks.getD j 0 = 0))

/-- Ranges of QUENCH (R53). -/
def quenchRange (rd : Nat → Nat → Nat) (o : Nat) (part : Part) (c : QuenchCfg) : Bool :=
  ((List.range 8).all fun i => decide (i < part.dies) || decide (c.chanEnable.getD i 0 = 0)) && inR c.diesPerChan 1 8 && decide (c.planes = 4) &&
  inR c.pages 64 4096 && inR c.blocks 256 65536 && inR c.onfiRate 800 3600 && inR c.sparePct 8 25 && zeroBytes rd (o + 19) 1 &&
  inR c.scratch 4 1024

/-- Ranges of ENERGY (R54). -/
def energyRange (rd : Nat → Nat → Nat) (o : Nat) (c : EnergyCfg) : Bool :=
  inR c.strings.length 1 8 && decide (c.flags ≤ 1) && zeroBytes rd (o + 2) 2 && inR c.hyst 1 2000 && decide (1 ≤ c.eByteDefault) &&
  inR c.holdMax 1000 15000 && zeroBytes rd (o + 28) 4 && (c.strings.all fun s => decide (s.newDerate ≤ 100)) &&
  (List.range c.strings.length).all fun n => zeroBytes rd (o + 32 + 16 * n + 15) 1

/-- Ranges of QOS (R55). -/
def qosRange (rd : Nat → Nat → Nat) (o : Nat) (c : QosCfg) : Bool :=
  zeroBytes rd (o + 12) 4 && (c.reqs.all fun r => decide (r.cls ≤ 3 ∧ 1 ≤ r.weight ∧ r.panic ≤ 15)) &&
  (List.range 32).all fun r => zeroBytes rd (o + 16 + 8 * r + 3) 1 && zeroBytes rd (o + 16 + 8 * r + 6) 2

/-- Ranges of POOLS and the rule of R57. -/
def poolsRange (rd : Nat → Nat → Nat) (o : Nat) (c : PoolsCfg) : Bool :=
  zeroBytes rd (o + 26) 6 && decide (sumOf (tab 4 fun i => c.count.getD i 0 * classSize i) ≤ 25165824) &&
  (List.range 4).all fun i => decide (c.floor.getD i 0 ≤ c.count.getD i 0)

/-- Ranges of EVENTS (R58). -/
def eventsRange (rd : Nat → Nat → Nat) (o : Nat) (c : EventsCfg) : Bool :=
  decide (c.overrides.length ≤ 256) && zeroBytes rd (o + 66) 6 && (List.range c.overrides.length).all fun i => zeroBytes rd (o + 74 + 8 * i) 2

/-- The slabs of namespace n that the stripe map reaches below a slab count (R347). -/
def nsReach (b : BackingCfg) (slabs n : Nat) : Nat :=
  let row := b.stripe * b.nss.length
  slabs / row * b.stripe + Nat.min b.stripe (slabs % row - n * b.stripe)

def isPow2 (v : Nat) : Bool := (List.range 17).any fun i => decide (v = 2 ^ i)

/-- Ranges of BACKING and the rules of R60 and R348. -/
def backingRange (rd : Nat → Nat → Nat) (o : Nat) (part : Part) (c : SwgCfg) : Bool :=
  let b := c.backing
  let ports := sumOf (tab part.dies fun i => (c.rootPorts (i + 1)).length)
  isPow2 b.stripe && inR b.nss.length 1 (4 * ports) && zeroBytes rd (o + 6) 2 &&
  ((List.range b.nss.length).all fun n => zeroBytes rd (o + 8 + 24 * n + 2) 2 && zeroBytes rd (o + 8 + 24 * n + 16) 8) &&
  (b.nss.all fun n => inR n.die 1 part.dies && decide (n.port < (c.rootPorts n.die).length)) &&
  ((List.range b.nss.length).all fun n => decide (nsReach b (c.dram.dpaLimit / 4096) n ≤ ((b.nss[n]?).map (·.slabs)).getD 0))

/-- Ranges of WELD (R61). -/
def weldRange (rd : Nat → Nat → Nat) (o : Nat) (w : WeldCfg) : Bool :=
  decide (w.side ≤ 1) && inR w.regions.length 1 16 && zeroBytes rd (o + 2) 2 && inR w.heatLength 50 1000000 &&
  (w.regions.all fun r => decide (r.start % 4096 = 0 ∧ r.size % 4096 = 0 ∧ r.ownerSide ≤ 1 ∧ r.mirror ≤ 2 ∧ r.stallPolicy ≤ 1)) &&
  ((List.range w.regions.length).all fun n => zeroBytes rd (o + 16 + 24 * n + 19) 5) &&
  (List.range w.regions.length).all fun i => (List.range i).all fun j => match w.regions[i]?, w.regions[j]? with
    | some a, some b => decide (a.start + a.size ≤ b.start ∨ b.start + b.size ≤ a.start)
    | _, _ => true

/-- A check and the result code it gives when it fails. -/
abbrev Check := Bool × Nat

/-- The code of the first check that fails; 0 OK. -/
def firstFail : List Check → Nat
  | [] => 0
  | (ok, code) :: cs => if ok then firstFail cs else code

/-- The field and rule checks of one section: ranges first, then rules (R63). `bank` is the bank capacity that SPD reports. -/
def sectChecks (rd : Nat → Nat → Nat) (part : Part) (bank : Nat) (c : SwgCfg) (s : Sect) : List Check :=
  (decide (s.rsv = 0) && zeroBytes rd (s.off + s.len) ((8 - s.len % 8) % 8), 0xB) ::
  match s.ty with
  | 1 => [(treeRange rd s.off, 0xB), (treeRules part c.groups, 0x7)]
  | 2 => [(lanesRange rd s.off part.dies, 0xB), (lanesRules c.lanes, 0x8)]
  | 3 => [(dramRange rd s.off part c.dram, 0xB), (independent c.dram.usedMasks 16, 0x9), (decide (c.dram.sets * 65792 * 64 ≤ bank * 63), 0xA)]
  | 4 => [(quenchRange rd s.off part c.quench, 0xB), (decide (c.quench.diesPerChan * c.quench.blocks ≤ 1360 * c.quench.pages), 0xB)]
  | 5 => [(energyRange rd s.off c.energy, 0xB)]
  | 6 => [(qosRange rd s.off c.qos, 0xB)]
  | 7 => [(poolsRange rd s.off c.pools, 0xB)]
  | 8 => [(eventsRange rd s.off c.events, 0xB)]
  | 9 => [(decide (rd s.off 4 < 16), 0xB), (zeroBytes rd (s.off + 4) 4, 0xB)]
  | 10 => [(backingRange rd s.off part c, 0xB)]
  | 11 => [(match c.weld with | some w => weldRange rd s.off w | none => true, 0xB)]
  | _ => []

/-- Strictly ascending. -/
def ascending : List Nat → Bool
  | [] => true
  | [_] => true
  | x :: y :: l => decide (x < y) && ascending (y :: l)

/-- What a verification needs beside the bytes: the part, the key ID in OTP, whether the signature verifies, the bank capacity of
the DIMMs, and for a partial image the loaded image with the PARTIAL_SEQ of R66. -/
structure VerifyIn where
  part : Part
  ownerKeyId : Nat
  signatureOk : Bool
  bank : Nat
  partialOf : Option (SwgCfg × Option Nat × List Byte)

/-- The conditions on a partial image's ENERGY section: every byte but E_MARGIN and HYST equals the loaded section's (R66). -/
def energySame (rd : Nat → Nat → Nat) (ss : List Sect) (loaded : List Byte) : Bool :=
  ss.all fun s => decide (s.ty ≠ 5) || (decide (s.len = loaded.length) && (List.range s.len).all fun i =>
    inR i 8 15 || decide (rd (s.off + i) 1 = (loaded.getD i 0).toNat))

/-- Verification of an image in the order of R63 (R67 for a partial image): the result code (R75), the configuration and the
sections. The first failure decides. -/
def verifyImage (v : VerifyIn) (rd : Nat → Nat → Nat) : Nat × SwgCfg × List Sect :=
  let len := rd 8 4
  let flags := rd 6 2
  let isPartial := bit flags 1
  let lim := len - 96
  let sectsO := parseSects rd lim 64 32
  let ss := sectsO.getD []
  let base : SwgCfg := match v.partialOf with
    | some (c, _, _) => c
    | none => { SwgCfg.empty with sealImage := bit flags 0, serial := rd 12 4, ownerKeyId := rd 16 8, partMask := rd 24 2 }
  let c := parseCfg rd v.part base ss
  let partBit := match v.part with | .ogl2d => 0 | .ogl4d => 1 | .ogl8d => 2
  let head : List Check :=
    [(decide (rd 0 4 = magicOf 0x53 0x57 0x47 0x32 ∧ rd 4 2 = 2), 0x1),
     (decide (len % 8 = 0 ∧ 128 ≤ len ∧ len ≤ 1048576), 0x2),
     (bit (rd 24 2) partBit, 0x3),
     (decide (rd 16 8 = v.ownerKeyId), 0x4),
     (v.signatureOk, 0x5)]
  let mid : List Check := match v.partialOf with
    | none =>
      [(!isPartial, 0x6),
       (sectsO.isSome && decide (rd 26 2 = ss.length) && (ss.all fun s => decide (s.version = 1 ∧ sectLen rd v.part s = some s.len)) &&
         ascending (ss.map (·.ty)) && ([1, 2, 3, 4, 5, 9, 10].all fun t => (ss.map (·.ty)).contains t), 0x6),
       (decide (flags < 4 ∧ inR (rd 12 4) 1 0xFFFFFFFE = true ∧ rd 28 4 = 0 ∧ rd 24 2 < 8), 0xB)]
    | some (ld, seq, eb) =>
      [(isPartial && decide (rd 12 4 = ld.serial) && decide (1 ≤ rd 28 4) && (match seq with | some q => decide (q < rd 28 4) | none => true), 0x6),
       (sectsO.isSome && decide (rd 26 2 = ss.length) && (ss.all fun s => decide (s.version = 1 ∧ sectLen rd v.part s = some s.len)) &&
         ascending (ss.map (·.ty)) && !ss.isEmpty && (ss.all fun s => [5, 6, 7, 8].contains s.ty) && energySame rd ss eb, 0x6),
       (decide (flags < 4 ∧ rd 24 2 < 8), 0xB)]
  (firstFail (head ++ mid ++ (ss.map (sectChecks rd v.part v.bank c)).flatten), c, ss)

/-- The bytes of a Swage copy in its option area (R62). -/
def Dev.copyRead (d : Dev) (copy : Nat) (off size : Nat) : Nat := leValue (d.tmpRange (copy * 0x100000 + off) size)

end Sys2Proof.Machine
end

