-- ==== Sys2Proof/Machine/CoreOps.lean ====
section
/-! DEFINITION. The operations that the Crucible, the heats, the ceiling, the backing tier and the Weld engine share: who owns
and serves a slab, the tags, the dirty count, the journal append, the mirror queue, fills, destages and completions
(R81, R117 to R144, R161, R189, R210, R211, R325, R343 to R358). -/

namespace Sys2Proof.Machine

open Sys2Proof

/-! ### Regions and service -/

/-- The Weld regions of the image. -/
def Dev.regionCfgs (d : Dev) : List RegionCfg := match d.swg.cfg.weld with | some w => w.regions | none => []

/-- This package's side (R61). -/
def Dev.side (d : Dev) : Nat := match d.swg.cfg.weld with | some w => w.side | none => 0

/-- The Weld region of a slab. -/
def Dev.regionOf (d : Dev) (slab : Nat) : Option Nat :=
  (List.range d.regionCfgs.length).find? fun n => match d.regionCfgs[n]? with
    | some r => decide (r.start ≤ slab * 4096 ∧ slab * 4096 < r.start + r.size)
    | none => false

/-- The record of a region with no role record: PAIRED, EPOCH 0, OWNER equal to OWNER_SIDE (R288). -/
def Dev.defaultRole (d : Dev) (n : Nat) : RoleRec :=
  let c := (d.regionCfgs[n]?).getD ⟨0, 0, 0, 0, 0⟩
  let t := match d.swg.cfg.weld with | some w => w.twinId | none => 0
  { solo := false, owner := c.ownerSide, epoch := 0, splitHeat := 0, ackedHeat := 0, twinId := t }

/-- MIRROR of a region (R61). -/
def Dev.mirror (d : Dev) (n : Nat) : Nat := ((d.regionCfgs[n]?).map (·.mirror)).getD 0

/-- A region's run-time state: a mirrored one is FENCED until a role is decided; without a mirror it is SOLO on its OWNER_SIDE (R287). -/
def Dev.region (d : Dev) (n : Nat) : Region :=
  tgetD d.rht.regions n
    { role := if d.mirror n = 0 ∧ (d.defaultRole n).owner = d.side ∧ n < d.regionCfgs.length then .solo else .fenced, record := d.defaultRole n, mirroring := false, twinSolo := false, resync := [], resyncFull := false,
      resyncHeat := 0, resyncSent := 0, resyncAt := 0, incomplete := false, handingOver := false, claimed := false, handover := none }

def Dev.setRegion (d : Dev) (n : Nat) (r : Region) : Dev := { d with rht := { d.rht with regions := tset d.rht.regions n r } }

/-- The mirrored regions. -/
def Dev.mirrored (d : Dev) : List Nat := (List.range d.regionCfgs.length).filter (fun n => decide (d.mirror n ≠ 0))

/-- Whether a region's role is served (R81, R287). -/
def Role.served : Role → Bool
  | .owner => true
  | .solo => true
  | _ => false

/-- The role code of registers and events (R299). -/
def Role.code : Role → Nat
  | .owner => 0
  | .shadow => 1
  | .solo => 2
  | .rejoining => 3
  | .fenced => 4

/-- Whether a region is under a backing hold (R292). -/
def Dev.backHeld (d : Dev) (n : Nat) : Bool := d.fb RHT_REGION_STATUS.BACKING_HELD 0 n

/-- Whether the destage engine may select slabs of a range: OWNER, SOLO without a backing hold, or in no region (R139). -/
def Dev.mayDestage (d : Dev) (slab : Nat) : Bool :=
  match d.regionOf slab with
  | none => true
  | some n => match (d.region n).role with
    | .owner => true
    | .solo => !d.backHeld n
    | _ => false

/-- The pair's state (R312): 0 LOST, 1 UP, 2 STALL. -/
def Dev.pair (d : Dev) : Nat := d.f WELD_PAIR_STATUS.STATE

/-- The usable links, in (die, link) order (R311). -/
def Dev.usable (d : Dev) : List (Nat × Nat) :=
  (d.dies.map fun die => [(die, 0), (die, 1)]).flatten.filter fun l => decide (d.f WELD_LINK_STATUS.STATE l.1 l.2 = 2)

/-- HEAT_CURRENT (R180). -/
def Dev.openHeat (d : Dev) : Nat := d.f HEAT_CURRENT.HEAT

/-- The heat an 8-bit HEAT stands for: the most recent one at or before the open heat with these low bits (R126). -/
def Dev.heatOf (d : Dev) (h8 : Nat) : Nat := d.openHeat - (d.openHeat + 256 - h8 % 256) % 256

/-- Whether the twin holds a slab whose newest heat is h (R161). -/
def Dev.twinHoldsAt (d : Dev) (slab h : Nat) : Bool :=
  match d.regionOf slab with
  | none => false
  | some n => decide (d.mirror n ≠ 0 ∧ (d.region n).role = .owner ∧ (d.region n).mirroring = true ∧ d.pair = 1 ∧ d.usable ≠ []) &&
      !d.fb RHT_REGION_STATUS.RESYNC 0 n && !d.fb RST_STATUS.COMPAT &&
      (decide (d.mirror n = 2) || decide (h ≤ tgetD d.weld.ackGot n 0))

/-! ### Tags (R117 to R126, R134 to R137) -/

/-- The cache set of a slab (R72, R73). -/
def Dev.setOf (d : Dev) (slab : Nat) : SetKey :=
  let p := d.place slab
  ⟨p.die, p.chan, p.rank, p.group, p.bank, p.set⟩

/-- The current generation (R119). -/
def Dev.gen (d : Dev) : Nat := d.f CRUC_MODE.GENERATION

/-- Whether a tag is valid (R119). -/
def Dev.validTag (d : Dev) (t : Tag) : Bool := decide (t.gen = d.gen ∧ t.state ≠ .invalid)

/-- The valid tags. -/
def Dev.validTags (d : Dev) : Tab Frame Tag := d.cru.tags.filter (fun e => d.validTag e.2)

/-- The valid tag of a slab, with its frame: a hit (R119). -/
def Dev.lookup (d : Dev) (slab : Nat) : Option (Frame × Tag) :=
  d.cru.tags.find? fun e => decide (e.1.set = d.setOf slab ∧ e.2.slab = slab) && d.validTag e.2

/-- The state of a slab; INVALID for any slab that misses (R142). -/
def Dev.stateOf (d : Dev) (slab : Nat) : SlabState := match d.lookup slab with | some e => e.2.state | none => .invalid

def Dev.setCru (d : Dev) (f : CruState → CruState) : Dev := { d with cru := f d.cru }

def Dev.setPkg (d : Dev) (f : PkgState → PkgState) : Dev := { d with pkg := f d.pkg }

def Dev.setCeil (d : Dev) (f : CeilState → CeilState) : Dev := { d with ceil := f d.ceil }

def Dev.setTag (d : Dev) (fr : Frame) (t : Tag) : Dev := d.setCru fun c => { c with tags := tset c.tags fr t }

/-- A slab's tag changed; nothing happens to a slab that misses. -/
def Dev.modTag (d : Dev) (slab : Nat) (f : Tag → Tag) : Dev :=
  match d.lookup slab with
  | some (fr, t) => d.setTag fr (f t)
  | none => d

/-- The sectors of a mask, as a number of set bits. -/
def popcount (m : Mask) : Nat := ((List.range 64).filter (fun i => m.getLsbD i)).length

/-- The mask of one sector or byte. -/
def bitMask (i : Nat) : Mask := BitVec.ofNat 64 (2 ^ i)

/-- All ones. -/
def fullMask : Mask := BitVec.allOnes 64

/-- The frame contents and byte-enable masks of a slab dropped. -/
def Dev.dropLines (d : Dev) (slab : Nat) : Dev :=
  d.setCru fun c => { c with dram := c.dram.filter (fun e => decide (e.1.1 ≠ slab)), be := c.be.filter (fun e => decide (e.1.1 ≠ slab)) }

/-- A slab's tag written INVALID; PINNED is cleared with it (R125, R142). -/
def Dev.invalidate (d : Dev) (slab : Nat) : Dev :=
  match d.lookup slab with
  | some (fr, _) =>
    let d := d.setCru fun c => { c with tags := tdel c.tags fr, fills := tdel c.fills slab, destages := tdel c.destages slab }
    (d.setCru fun c => { c with idleDue := c.idleDue.filter (fun x => decide (x ≠ slab)) }).dropLines slab
  | none => d

/-- Whether a slab is reheat-pending (R276). -/
def Dev.isPending (d : Dev) (slab : Nat) : Bool := (tget d.rht.pending slab).isSome

/-- Whether a die serves although its index pass has not ended (R281). -/
def Dev.indexRuns (d : Dev) (die : Nat) : Bool := d.fb RHT_DIE_STATUS.INDEX_PARTIAL die && !d.fb RHT_DIE_STATUS.INDEX_DONE die

/-- The namespace of a slab (R347). -/
def Dev.nsOf (d : Dev) (slab : Nat) : Nat := slab / d.swg.cfg.backing.stripe % d.swg.cfg.backing.nss.length

/-- A namespace's run-time state: ABSENT until its first attach attempt (R343). -/
def Dev.ns (d : Dev) (n : Nat) : Ns :=
  tgetD d.back.ns n { state := .absent, tried := false, failsRow := 0, labelGen := 0, dsm := false, reported := 0, detached := 0, lba := 4096 }

/-- Whether commands of a namespace go out now: ONLINE or DETACHING (R343). -/
def Dev.nsServes (d : Dev) (n : Nat) : Bool := decide ((d.ns n).state = .online ∨ (d.ns n).state = .detaching)

/-- Whether commands of a namespace wait for its attach to end: ATTACHING, BLANK, or not attempted yet (R343). -/
def Dev.nsWaits (d : Dev) (n : Nat) : Bool :=
  decide ((d.ns n).state = .attaching ∨ (d.ns n).state = .blank) || (decide ((d.ns n).state = .absent) && !(d.ns n).tried)

/-- Whether the destage engine may select a DIRTY slab (R139, R278, R358). -/
def Dev.selectable (d : Dev) (slab : Nat) : Bool := d.mayDestage slab && d.nsServes (d.nsOf slab) && !d.isPending slab

/-- The valid tags of a set, by way. -/
def Dev.setTags (d : Dev) (k : SetKey) : List (Nat × Tag) :=
  (d.cru.tags.filter (fun e => decide (e.1.set = k) && d.validTag e.2)).map (fun e => (e.1.way, e.2))

/-- The entry with the highest AGE, lowest way on a tie (R134). -/
def oldestWay : List (Nat × Tag) → Option (Nat × Tag)
  | [] => none
  | e :: es => match oldestWay es with
    | none => some e
    | some f => if f.2.age < e.2.age ∨ (f.2.age = e.2.age ∧ e.1 < f.1) then some e else some f

/-- What a miss finds in its set (R134, R135, R137). -/
inductive Alloc
  /-- a way to take, with the CLEAN slab it replaces -/
  | way (w : Nat) (victim : Option Nat)
  /-- a set stall: the slab that is destaged -/
  | stall (victim : Nat)
  /-- no way; whether the set is blocked -/
  | none (blocked : Bool)
  deriving DecidableEq, Repr

/-- The choice of R134. A way whose destage is in flight will become CLEAN and stalls like a selectable one (assumption 6). -/
def Dev.choose (d : Dev) (k : SetKey) : Alloc :=
  let ts := d.setTags k
  match (List.range 16).find? (fun w => !(ts.any fun e => decide (e.1 = w))) with
  | some w => .way w .none
  | .none =>
    match oldestWay (ts.filter fun e => decide (e.2.state = .clean) && !e.2.pinned) with
    | some e => .way e.1 (some e.2.slab)
    | .none =>
      match oldestWay (ts.filter fun e => decide (e.2.state = .dirty) && !e.2.pinned && d.selectable e.2.slab) with
      | some e => .stall e.2.slab
      | .none => match oldestWay (ts.filter fun e => decide (e.2.state = .destaging) && !e.2.pinned) with
        | some e => .stall e.2.slab
        | .none => .none (ts.all fun e => e.2.pinned || decide (e.2.state = .poisoned))

/-- A frame allocated: SLAB_INDEX, GEN, an empty DIRTY_MASK and a state; the AGE of the set's other valid ways rises (R136). -/
def Dev.allocate (d : Dev) (slab w : Nat) (victim : Option Nat) (st : SlabState) : Dev :=
  let k := d.setOf slab
  let d := match victim with | some v => d.invalidate v | none => d
  let d := d.setCru fun c => { c with tags := c.tags.map fun e =>
      if e.1.set = k ∧ e.2.gen = d.gen then (e.1, { e.2 with age := Nat.min (e.2.age + 1) 15 }) else e }
  d.setTag ⟨k, w⟩ { slab := slab, mask := 0, state := st, gen := d.gen, heat := 0, age := 0, pinned := false }

/-- Every hit sets the way's AGE to 0 (R136). -/
def Dev.touch (d : Dev) (slab : Nat) : Dev := d.modTag slab fun t => { t with age := 0 }

/-- The line of a sector; a line that nothing has written is a free value (assumption 3). -/
def Dev.line (d : Dev) (slab sector : Nat) : Line :=
  match tget d.cru.dram (slab, sector) with
  | some l => l
  | none => BitVec.ofNat 512 (Config.freeValue (d.free + slab * 64 + sector))

def Dev.setLine (d : Dev) (slab sector : Nat) (l : Line) : Dev := d.setCru fun c => { c with dram := tset c.dram (slab, sector) l }

/-- The lines of a slab, sector 0 first. -/
def Dev.lines (d : Dev) (slab : Nat) : List Line := (List.range 64).map (d.line slab)

/-- The bytes of `new` whose enable bit is set, over `old` (R138). -/
def mergeLine (old new : Line) (en : Mask) : Line :=
  (List.range 64).foldl (fun acc i => if en.getLsbD i then
      (acc &&& ~~~((0xFF#512) <<< (8 * i))) ||| (new &&& ((0xFF#512) <<< (8 * i))) else acc) old

/-! ### The poison list (R106, R158, R160) -/

/-- Sectors added to the poison list; beyond 4,096 entries the overflow is kept as a SEQ (R106). -/
def Dev.addPoison (d : Dev) (slab : Nat) (m : Mask) : Dev :=
  let new := ((List.range 64).filter (fun i => m.getLsbD i && !d.cru.poison.contains (slab, i))).map (fun i => (slab, i))
  let d := d.setCru fun c => { c with poison := c.poison ++ new }
  if 4096 < (dedup (d.cru.poison.map (·.1))).length ∧ d.mbox.poisonOvf = none then
    { d with mbox := { d.mbox with poisonOvf := some d.evt.nextSeq } } else d

def Dev.delPoison (d : Dev) (slab : Nat) (m : Mask) : Dev :=
  d.setCru fun c => { c with poison := c.poison.filter (fun e => decide (e.1 ≠ slab) || !m.getLsbD e.2) }

/-- A maximal run of poisoned sectors of one slab is one entry: slab, first sector, sectors (R160). -/
def poisonRuns (ss : List (Nat × Nat)) : List (Nat × Nat × Nat) :=
  (sortBy (fun e => e.1 * 64 + e.2) ss).foldl (fun acc e => match acc.getLast? with
    | some (s, f, n) => if s = e.1 ∧ f + n = e.2 then acc.dropLast ++ [(s, f, n + 1)] else acc ++ [(e.1, e.2, 1)]
    | none => [(e.1, e.2, 1)]) []

/-! ### D, S_d, W and the ceiling state (R124, R202, R210, R211) -/

/-- Whether a slab's channel is frozen (R389, R392). -/
def Dev.frozenSlab (d : Dev) (slab : Nat) : Bool :=
  let p := d.place slab
  decide (d.f CHAN_STATUS.STATE p.die p.chan = 3)

/-- D / 64: the set DIRTY_MASK bits of the valid tags, and 64 sectors for each staging buffer (R124). -/
def Dev.dirtySectors (d : Dev) : Nat := sumOf (d.validTags.map fun e => popcount e.2.mask) + 64 * d.cru.staging.length

/-- D in bytes (R124). -/
def Dev.D (d : Dev) : Nat := 64 * d.dirtySectors

/-- S_d (R202). -/
def Dev.dirtySlabs (d : Dev) : Nat := (d.validTags.filter fun e => decide (e.2.mask ≠ 0)).length + d.cru.staging.length

/-- The footprint W (R202). -/
def Dev.W (d : Dev) : Nat := d.D + 16 * d.dirtySlabs

/-- The footprint and dirty bytes of one die (R239). -/
def Dev.dieW (d : Dev) (die : Nat) : Nat :=
  let ts := d.validTags.filter fun e => decide (e.1.set.die = die)
  let st := d.cru.staging.filter fun e => decide ((d.place e.2.slab).die = die)
  64 * (sumOf (ts.map fun e => popcount e.2.mask) + 64 * st.length) + 16 * ((ts.filter fun e => decide (e.2.mask ≠ 0)).length + st.length)

/-- The part's hard cap C_cap in bytes (R2). -/
def Part.cap : Part → Nat
  | .ogl2d => 768 * 2 ^ 30
  | .ogl4d => 1536 * 2 ^ 30
  | .ogl8d => 3 * 2 ^ 40

/-- "D ≥ C" (R210). -/
def Dev.atCeiling (d : Dev) : Bool := decide (d.f CEIL_W_LIMIT.W_LIM ≤ d.W) || decide (d.pkg.part.cap ≤ d.D)

/-- "D ≤ C − h" (R210). -/
def Dev.belowHyst (d : Dev) : Bool :=
  decide (d.W + d.ceil.hyst ≤ d.f CEIL_W_LIMIT.W_LIM) && decide (d.D + d.ceil.hyst ≤ d.pkg.part.cap)

/-- The ceiling state: 0 NORMAL, 1 PRIORITY, 2 OVER_CEILING. -/
def Dev.ceilState (d : Dev) : Nat := d.f CEIL_STATUS.STATE

/-- The destage engine starts at START_PCT percent of C and stops at STOP_PCT percent (R139, R168). -/
def Dev.engineCheck (d : Dev) : Dev :=
  let start := d.f CRUC_DESTAGE_CTRL.START_PCT
  let stop := Nat.min (d.f CRUC_DESTAGE_CTRL.STOP_PCT) (start - 1)
  let c := d.f CEIL_C.C
  { d with cru := { d.cru with engine := decide (start * c ≤ 100 * d.D) || (d.cru.engine && decide (stop * c < 100 * d.D)) } }

/-- Enabled quench-flash channels of a die (R53). -/
def Dev.enabledChans (d : Dev) (die : Nat) : Nat := (bitsOf 8 (d.swg.cfg.quench.chanEnable.getD (die - 1) 0)).length

/-- N_ch (R204). -/
def Dev.nch (d : Dev) : Nat := sumOf (d.dies.map d.enabledChans)

/-- n_d: 0 where no enabled channel of the die is in service (R239). -/
def Dev.nd (d : Dev) (die : Nat) : Nat :=
  if (List.range 8).any fun c => decide (d.f QFL_CHAN_STATUS.STATE die c = 2) then d.enabledChans die else 0

/-- SHARE_FULL of a die (R239). -/
def Dev.shareFull (d : Dev) (die : Nat) : Bool := d.fb QNCH_DIE_STATUS.SHARE_FULL die

/-- SHARE_FULL follows the die's footprint (R239). -/
def Dev.shareCheck (d : Dev) (die : Nat) : Dev :=
  let w := d.dieW die
  let wd := d.f QNCH_DIE_SHARE.W_D die
  if wd ≤ w then
    if d.shareFull die then d else (d.setB QNCH_DIE_STATUS.SHARE_FULL true die).raise .QNCH_DIE_SHARE die [p1 die, p8 wd, p8 w]
  else if d.shareFull die && decide (w + d.ceil.hyst * d.nd die / d.nch ≤ wd) then d.setB QNCH_DIE_STATUS.SHARE_FULL false die
  else d

/-- The check of R211, and those of the destage engine and the die shares; none before the first computation (R214). -/
def Dev.ceilCheck (d : Dev) : Dev :=
  if !d.ceil.computed || d.quenching then d else
  let d := d.forEach d.diesUp Dev.shareCheck
  let d := d.engineCheck
  let st := d.ceilState
  let c := d.f CEIL_C.C
  if st ≠ 2 ∧ d.atCeiling then
    let d := (d.setF CEIL_STATUS.STATE 2).incF CEIL_OVER_COUNT.COUNT
    let d := d.setCeil fun c => { c with overAt := d.now, overWt := d.f CEIL_WT_WRITES.COUNT }
    d.raiseB .CEIL_OVER_ENTER [p8 c, p8 d.D, p8 d.W, p1 (d.f CEIL_STATUS.BINDING)]
  else if st = 0 ∧ d.belowHyst = false then (d.setF CEIL_STATUS.STATE 1).raiseB .CEIL_PRIORITY [p1 0, p8 c, p8 d.D]
  else if st = 1 ∧ d.belowHyst then (d.setF CEIL_STATUS.STATE 0).raiseB .CEIL_PRIORITY [p1 1, p8 c, p8 d.D]
  else if st = 2 ∧ d.belowHyst then
    let ms := (d.now - d.ceil.overAt) / 1000000
    let d := (d.setF CEIL_STATUS.STATE 0).addF CEIL_OVER_MS.MS ms
    d.raiseB .CEIL_OVER_EXIT [p4 ms, p4 (d.f CEIL_WT_WRITES.COUNT - d.ceil.overWt)]
  else d

/-! ### The journal (R186 to R193) -/

/-- The heat directory of a die. -/
def Dev.dirOf (d : Dev) (die : Nat) : List Entry := tgetD d.heat.dirs die []

def Dev.setDir (d : Dev) (die : Nat) (es : List Entry) : Dev := { d with heat := { d.heat with dirs := tset d.heat.dirs die es } }

/-- Pages of an entry: 504 records a page (R186). -/
def Entry.pages (e : Entry) : Nat := (e.written.length + e.buffered.length + 503) / 504

/-- Free record pages of a die (HEAT_JRNL_FREE). -/
def Dev.freePages (d : Dev) (die : Nat) : Nat := d.f HEAT_JRNL_PAGES.TOTAL die - sumOf ((d.dirOf die).map (·.pages))

/-- Whether the journal reserve of a die is reached: the last 1/32 of its record pages (R193). -/
def Dev.atReserve (d : Dev) (die : Nat) : Bool := decide (d.freePages die ≤ d.f HEAT_JRNL_PAGES.TOTAL die / 32)

/-- The order of directory entries: by HEAT, local before receive-side (R188). -/
def Entry.key (e : Entry) : Nat := 2 * e.heat + b2n e.receive

/-- A record appended to a die's journal, in the entry of its heat, which its first record creates (R188, R189, R192). -/
def Dev.append (d : Dev) (die slab kind heat : Nat) (receive : Bool) : Dev :=
  let es := d.dirOf die
  let has := es.any fun e => decide (e.heat = heat ∧ e.receive = receive)
  let es := if has then es else insertBy Entry.key ⟨heat, receive, if receive && decide (heat < d.openHeat) then .closing else .opened, [], []⟩ es
  d.setDir die (es.map fun e => if e.heat = heat ∧ e.receive = receive then { e with buffered := e.buffered ++ [⟨slab, kind⟩] } else e)

/-- Whether a write in a heat needs an append (R126): an empty DIRTY_MASK before it, or a HEAT that differs. -/
def needsAppend (t : Option Tag) (heat : Nat) : Bool :=
  match t with
  | some t => decide (t.mask = 0 ∨ t.heat ≠ heat % 256)
  | none => true

/-! ### Encryption at rest (R353, R354) -/

/-- The ciphertext of a slab's 64 lines. -/
def Dev.encrypt (d : Dev) (slab : Nat) (ls : List Line) : List Line :=
  (List.range 64).map fun i => Config.xtsEncrypt d.back.xtsKey slab i (ls.getD i 0)

/-- The plaintext of a slab read from the backing tier: 4,096 bytes all 0x00 or all 0xFF are zeros (R354). -/
def Dev.decrypt (d : Dev) (slab : Nat) (ls : List Line) : List Line :=
  if ls.all (fun l => decide (l = 0)) || ls.all (fun l => decide (l = BitVec.allOnes 512)) then List.replicate 64 0
  else (List.range 64).map fun i => Config.xtsDecrypt d.back.xtsKey slab i (ls.getD i 0)

/-! ### Mirroring (R313, R325, R328) -/

/-- The region of a slab when this side mirrors it now. -/
def Dev.mirrorsSlab (d : Dev) (slab : Nat) : Option Nat :=
  match d.regionOf slab with
  | some n => if (d.region n).mirroring ∧ d.pair = 1 then some n else none
  | none => none

def Dev.setWeld (d : Dev) (f : WeldState → WeldState) : Dev := { d with weld := f d.weld }

/-! ### Weld links: sending (R305 to R313, R325, R334) -/

/-- A link beside its registers; a link that has not trained has sent and received nothing. Its SEQ starts at 0 (assumption 11). -/
def Dev.link (d : Dev) (l : Nat × Nat) : Link :=
  tgetD d.weld.links l
    { txSeq := 0, txAck := 0, sent := [], rxNext := 0, rx := [], nak := false, rxCount := 0, hello := false, refusedAt := none,
      lastRx := 0, lastTx := 0, roll := none, rollFailedAt := none, txSwitch := none, rxSwitch := none }

def Dev.setLink (d : Dev) (l : Nat × Nat) (k : Link) : Dev := d.setWeld fun w => { w with links := tset w.links l k }

def Dev.modLink (d : Dev) (l : Nat × Nat) (f : Link → Link) : Dev := d.setLink l (f (d.link l))

/-- STATE of a link: 0 down, 1 training, 2 up, 3 KEY_STALL (R337). -/
def Dev.linkState (d : Dev) (l : Nat × Nat) : Nat := d.f WELD_LINK_STATUS.STATE l.1 l.2

/-- The bit of a link in LINKS and LINK_MASK (R314). -/
def linkBit (l : Nat × Nat) : Nat := 2 * (l.1 - 1) + l.2

/-- LINKS: the usable links as bits (R314). -/
def Dev.linksMask (d : Dev) : Nat := maskOf (d.usable.map linkBit)

/-- The link that a slab is bound to (R313). -/
def Dev.boundLink (d : Dev) (slab : Nat) : Option (Nat × Nat) :=
  let mine := d.weld.bindLinks.filter fun l => decide (l.1 = (d.place slab).die)
  if mine.isEmpty then d.weld.bindLinks[slab % d.weld.bindLinks.length]? else mine[slab % mine.length]?

/-- Whether protocol version 1 runs: COMPAT (R336). -/
def Dev.version1 (d : Dev) : Bool := d.fb RST_STATUS.COMPAT

/-- The frames of a message (R307, R318 to R320, R336). -/
def Dev.framesOf (d : Dev) (m : Msg) : Nat :=
  let v1 := d.version1
  match m with
  | .keyRoll _ _ _ => if v1 then 4 else 2
  | .join _ _ _ _ _ _ => if v1 then 7 else 4
  | .rejoinReq _ _ slabs _ => let k := if v1 then 19 else 44; Nat.max 1 ((slabs.length + k - 1) / k)
  | .resyncData _ _ _ _ _ lines => if v1 then Nat.max 1 lines.length else Nat.max 1 ((lines.length + 2) / 3)
  | _ => 1

/-- Whether a message may still be sent after this device's T0 (R334). -/
def Msg.afterT0 : Msg → Bool
  | .mirrorWrite _ _ _ => true
  | .mirrorAck _ => true
  | .heartbeat _ _ _ _ => true
  | .quenchNotice _ _ _ _ _ => true
  | _ => false

/-- Whether a link in KEY_STALL sends a message (R323). -/
def Msg.inStall : Msg → Bool
  | .heartbeat _ _ _ _ => true
  | .keyRoll _ _ _ => true
  | .quenchNotice _ _ _ _ _ => true
  | _ => false

/-- Whether a link under training sends a message: KEY_ROLL alone, under the all-zero key (R306). -/
def Msg.isKeyRoll : Msg → Bool
  | .keyRoll _ _ _ => true
  | _ => false

/-- Whether a link may send a new message now: its state, the window of 2,048 frames (R309), and a SWITCH_SEQ whose key is not in
place (R322). -/
def Dev.canSend (d : Dev) (l : Nat × Nat) (m : Msg) : Bool :=
  let k := d.link l
  let n := d.framesOf m
  let st := d.linkState l
  (decide (st = 2) || (decide (st = 3) && m.inStall) || (decide (st = 1) && m.isKeyRoll && k.hello)) &&
    decide ((k.txSeq + 2 ^ 32 - k.txAck) % 2 ^ 32 + n ≤ 2048) && (!d.quenching || m.afterT0) &&
    (match k.roll with | some r => decide (n ≤ (r.switchSeq + 2 ^ 32 - k.txSeq) % 2 ^ 32) || decide (st = 1) | none => true)

/-- Whether a request has passed its Tongs lock: what ACK counts as admitted (R309). -/
def Dev.admitted (d : Dev) (rid : Nat) : Bool := d.cru.reqs.all fun r => decide (r.rid ≠ rid)

/-- ACK of a link: the SEQ of the oldest frame from the peer that is not fully admitted (R305, R309, R310). -/
def Dev.ackOf (d : Dev) (l : Nat × Nat) : Nat :=
  let k := d.link l
  match k.rx.find? fun x => x.refused || !(x.rids.all d.admitted) with
  | some x => x.seq
  | none => k.rxNext

/-- A frame counter restarts at SWITCH_SEQ (R322). -/
def countAfter (count seq n : Nat) (sw : Option Nat) : Nat :=
  match sw with
  | some q => let past := (seq + n + 2 ^ 32 - q) % 2 ^ 32; if past < 2 ^ 31 ∧ past ≤ n then past else count + n
  | none => count + n

/-- A new message sent on a link: it takes the next SEQ values, carries the current ACK, is kept until it is acknowledged, and is
counted (R305, R306, R308, R309). -/
def Dev.sendMsg (d : Dev) (l : Nat × Nat) (slab : Option Nat) (m : Msg) : Dev :=
  let k := d.link l
  let n := d.framesOf m
  let ack := d.ackOf l
  let d := d.setF WELD_TX_COUNTER.COUNT (countAfter (d.f WELD_TX_COUNTER.COUNT l.1 l.2) k.txSeq n k.txSwitch) l.1 l.2
  let d := d.addF WELD_FRAMES_SENT.COUNT n l.1 l.2
  let d := d.setLink l { k with txSeq := (k.txSeq + n) % 2 ^ 32, sent := k.sent ++ [⟨k.txSeq, n, slab, m⟩], nak := false, lastTx := d.now }
  d.emit (.weldFrame l.1 l.2 k.txSeq (ack % 2 ^ 16) k.nak m)

/-- The transmit queue of a die (R325). -/
def Dev.txq (d : Dev) (die : Nat) : List TxItem := tgetD d.weld.txq die []

/-- Whether the 2,048 frames of the transmit queue that a slab's entries take are used up (R325). -/
def Dev.txFull (d : Dev) (slab : Nat) : Bool :=
  match d.boundLink slab with
  | some l => decide (2048 ≤ (d.txq l.1).length)
  | none => false

/-- One pass over a die's transmit queue: every message whose link can send it goes out, the messages of one link in their order
(R325). After T0 the messages that R334 does not name are not sent. -/
def Dev.pump (d : Dev) (die : Nat) : Dev :=
  let start : Dev × List TxItem × List (Nat × Nat) := (d, [], [])
  let r := (d.txq die).foldl (fun (acc : Dev × List TxItem × List (Nat × Nat)) x =>
      if d.quenching && !x.msg.afterT0 then acc
      else if !acc.2.2.contains x.link && acc.1.canSend x.link x.msg then (acc.1.sendMsg x.link x.slab x.msg, acc.2.1, acc.2.2)
      else (acc.1, acc.2.1 ++ [x], acc.2.2 ++ [x.link])) start
  r.1.setWeld fun w => { w with txq := tset w.txq die r.2.1 }

/-- A message put into the transmit queue of its link's die, and sent as soon as the link can. -/
def Dev.queueOn (d : Dev) (l : Nat × Nat) (slab : Option Nat) (m : Msg) : Dev :=
  (d.setWeld fun w => { w with txq := tset w.txq l.1 (tgetD w.txq l.1 [] ++ [⟨l, slab, m⟩]) }).pump l.1

/-- A message of a slab, on its bound link (R313). Without a usable link nothing is sent. -/
def Dev.enqueue (d : Dev) (slab : Nat) (m : Msg) : Dev :=
  match d.boundLink slab with
  | some l => d.queueOn l (some slab) m
  | none => d

/-- A message that belongs to no slab, on the lowest usable link (R329). -/
def Dev.sendGeneral (d : Dev) (m : Msg) : Dev :=
  match d.usable with
  | l :: _ => d.queueOn l none m
  | [] => d

/-- A mirror entry queued: it takes the next write ID of its die (R315). -/
def Dev.queueEntry (d : Dev) (slab heat : Nat) (e : MirrorEntry) (rid : Option Nat) : Dev :=
  let die := (d.place slab).die
  let id := tgetD d.weld.nextId die 0
  let d := d.setWeld fun w => { w with nextId := tset w.nextId die ((id + 1) % 2 ^ 32), unacked := w.unacked ++ [⟨die, id, slab, rid⟩] }
  d.enqueue slab (.mirrorWrite heat id [e])

/-- An entry of a slab that waits for its fill joins those that wait. -/
def Dev.holdEntry (d : Dev) (slab : Nat) (e : HeldEntry) : Dev :=
  d.setWeld fun w => { w with heldMirror := tset w.heldMirror slab (tgetD w.heldMirror slab [] ++ [e]) }

/-- A line entry of a sector as it stands, or, while the sector waits for its fill or entries of the slab wait, held (R325). -/
def Dev.mirrorLine (d : Dev) (slab sector heat : Nat) (rid : Option Nat) : Dev :=
  if (tget d.cru.be (slab, sector)).isSome || (tget d.weld.heldMirror slab).isSome then d.holdEntry slab ⟨sector, heat, 0, rid⟩
  else d.queueEntry slab heat ⟨slab, sector, false, d.line slab sector⟩ rid

/-- A clean entry with its CLEANED mask (R325). -/
def Dev.mirrorClean (d : Dev) (slab heat : Nat) (cleaned : Mask) : Dev :=
  if (tget d.weld.heldMirror slab).isSome then d.holdEntry slab ⟨64, heat, cleaned.toNat, none⟩
  else d.queueEntry slab heat ⟨slab, 0, true, BitVec.ofNat 512 cleaned.toNat⟩ none

/-- The entries of a slab that waited for its fill are queued in slab order (R325). -/
def Dev.releaseMirror (d : Dev) (slab : Nat) : Dev :=
  let es := tgetD d.weld.heldMirror slab []
  let d := d.setWeld fun w => { w with heldMirror := tdel w.heldMirror slab }
  if (d.mirrorsSlab slab).isNone then d
  else d.forEach es fun d e =>
    if e.sector = 64 then d.queueEntry slab e.heat ⟨slab, 0, true, BitVec.ofNat 512 e.cleaned⟩ none
    else d.queueEntry slab e.heat ⟨slab, e.sector, false, d.line slab e.sector⟩ e.rid

/-! ### What the twin is given of a slab (R294, R331) -/

/-- RESYNC_DATA of a slab as it stands (R294): DATA, POISONED or ABSENT. -/
def Dev.resyncMsg (d : Dev) (slab region : Nat) : Msg :=
  match d.lookup slab with
  | some (_, t) =>
    if t.state = .poisoned then
      .resyncData slab 4 t.mask.toNat (d.heatOf t.heat) region
        ((List.range 64).map fun i => (i, if t.mask.getLsbD i then d.line slab i else 0))
    else .resyncData slab 0 t.mask.toNat (d.heatOf t.heat) region ((List.range 64).map fun i => (i, d.line slab i))
  | none =>
    if d.cru.frameless.contains slab then .resyncData slab 4 0 0 region ((List.range 64).map fun i => (i, 0))
    else .resyncData slab 1 0 0 region []

/-- The answer to a FETCH of a slab as it stands (R331): FETCH_DATA of a valid tag that is not POISONED, else FETCH_MISS. -/
def Dev.fetchMsg (d : Dev) (slab region : Nat) : Msg :=
  match d.lookup slab with
  | some (_, t) =>
    if t.state = .poisoned then .resyncData slab 3 0 0 region []
    else .resyncData slab 2 t.mask.toNat (d.heatOf t.heat) region ((List.range 64).map fun i => (i, d.line slab i))
  | none => .resyncData slab 3 0 0 region []

/-- RESYNC_DATA of a slab sent (R294, R295). -/
def Dev.sendResync (d : Dev) (slab : Nat) : Dev :=
  match d.regionOf slab with
  | none => d
  | some n =>
    let r := d.region n
    (d.setRegion n { r with resyncHeat := d.openHeat, resyncSent := r.resyncSent + 1 }).enqueue slab (d.resyncMsg slab n)

/-- A fill or a restore of a slab has ended: what the twin waits for is sent (R294, R331). -/
def Dev.answerOwed (d : Dev) (slab : Nat) : Dev :=
  let d := if d.weld.resyncOwed.contains slab then
      (d.setWeld fun w => { w with resyncOwed := w.resyncOwed.filter fun x => decide (x ≠ slab) }).sendResync slab
    else d
  if d.weld.fetchOwed.contains slab then
    (d.setWeld fun w => { w with fetchOwed := w.fetchOwed.filter fun x => decide (x ≠ slab) }).enqueue slab
      (d.fetchMsg slab ((d.regionOf slab).getD 0))
  else d

/-! ### Requests and their completions (R81, R90, R92, R328) -/

def Dev.req (d : Dev) (rid : Nat) : Option Req := d.cru.reqs.find? fun r => decide (r.rid = rid)

def Dev.setReq (d : Dev) (r : Req) : Dev :=
  d.setCru fun c => { c with reqs := c.reqs.map fun q => if q.rid = r.rid then r else q }

def Dev.endReq (d : Dev) (rid : Nat) : Dev := d.setCru fun c => { c with reqs := c.reqs.filter fun q => decide (q.rid ≠ rid) }

/-- A request made to wait for a reason. -/
def Dev.hold (d : Dev) (r : Req) (w : Wait) : Dev := d.setReq { r with wait := w }

/-- The messages of a port that have not been taken by a slice. -/
def Dev.ingress (d : Dev) (die port : Nat) : Nat :=
  (d.cru.reqs.filter fun r => decide (r.wait = .arrival) && match r.src with
    | .port dd pp _ _ => decide (dd = die ∧ pp = port)
    | _ => false).length

/-- DevLoad of a port (R90): the ingress queue against its 384 messages, and OVER_CEILING. -/
def Dev.devLoad (d : Dev) (die port : Nat) : Nat :=
  let n := d.ingress die port
  if 384 * 90 < n * 100 then 3
  else if 384 * 75 < n * 100 ∨ d.ceilState = 2 then 2
  else if 384 * 25 ≤ n * 100 then 1
  else 0

/-- Whether a port can still send completions: its link is up (R92). -/
def Dev.portUp (d : Dev) (die port : Nat) : Bool := d.fb FAB_PORT_STATUS.LINK_UP die port

/-- A read response to a host (R81, R90). -/
def Dev.respond (d : Dev) (src : Src) (tag : Nat) (l : Line) (poison : Bool) : Dev :=
  match src with
  | .port die port host _ =>
    if d.portUp die port then
      let dl := d.devLoad die port
      (d.setF FAB_PORT_STATUS.DEVLOAD dl die port).emit (.drs die port host tag l poison dl)
    else d
  | _ => d

/-- A write completion to a host. -/
def Dev.complete (d : Dev) (src : Src) (tag : Nat) : Dev :=
  match src with
  | .port die port host _ =>
    if d.portUp die port then
      let dl := d.devLoad die port
      (d.setF FAB_PORT_STATUS.DEVLOAD dl die port).emit (.ndr die port host tag dl)
    else d
  | _ => d

/-- A credit returned once the slice has taken the message under its Tongs lock (R88). -/
def Dev.returnCredit (d : Dev) (r : Req) : Dev :=
  match r.src, r.kind with
  | .port die port _ _, .read _ => d.setF FAB_PORT_CREDITS.REQ_FREE (Nat.min 256 (d.f FAB_PORT_CREDITS.REQ_FREE die port + 1)) die port
  | .port die port _ _, .write => d.setF FAB_PORT_CREDITS.RWD_FREE (Nat.min 128 (d.f FAB_PORT_CREDITS.RWD_FREE die port + 1)) die port
  | _, _ => d

/-- Whether a SYNC write still waits: for its MIRROR_ACK, or for the end of a stall or the entry into SOLO; during a resync it
completes locally (R294, R324, R328). -/
def Dev.awaitsAck (d : Dev) (r : Req) : Bool :=
  match d.regionOf r.slab with
  | none => false
  | some n => decide (d.mirror n = 2 ∧ (d.region n).role = .owner) && !d.fb RHT_REGION_STATUS.RESYNC 0 n &&
      (decide (d.pair ≠ 1) || d.weld.notice.isSome || d.weld.unacked.any (fun u => decide (u.rid = some r.rid)) ||
        d.weld.heldMirror.any (fun h => h.2.any fun e => decide (e.rid = some r.rid)))

/-- A write's completion after its effect: at once, or after MIRROR_ACK in a SYNC region whose entry was queued (R328). -/
def Dev.finishWrite (d : Dev) (r : Req) (acked : Bool) : Dev :=
  if acked then d.hold r .mirrorAck else (d.complete r.src r.tag).endReq r.rid

/-- A line whose value the manual leaves open: a free value (assumption 3). -/
def Dev.anyLine (d : Dev) : Line := BitVec.ofNat 512 d.freeVal

/-- A read served with a line or with poison; a line on the poison list reads as poison in any state (R106); the data beside poison is a
free value. -/
def Dev.finishRead (d : Dev) (r : Req) (poison : Bool) : Dev :=
  if poison || d.cru.poison.contains (r.slab, r.sector) then (d.tick.respond r.src r.tag d.anyLine true).endReq r.rid
  else (d.respond r.src r.tag (d.line r.slab r.sector) false).endReq r.rid

/-- Whether a read of a sector of a FILLING slab is served from DRAM: the sector is masked and holds no byte-enable mask (R138). -/
def Dev.sectorHeld (d : Dev) (t : Tag) (sector : Nat) : Bool := t.mask.getLsbD sector && (tget d.cru.be (t.slab, sector)).isNone

/-- The source Hearth of a slab's Crucible events: its slice (R171). -/
def Dev.raiseC (d : Dev) (e : Ev) (slab : Nat) (payload : Fields) : Dev := d.raise e (d.owner slab) payload

/-- Written-through writes of a slab complete (R141). -/
def Dev.completeThrough (d : Dev) (slab : Nat) (rids : Option (List Nat)) : Dev :=
  d.forEach (d.cru.reqs.filter fun r => decide (r.slab = slab ∧ r.wait = .destage) &&
      (match rids with | some l => l.contains r.rid | none => true)) fun d r =>
    d.finishWrite r (d.awaitsAck r)

/-! ### Fills (R138, R142, R343, R358) -/

/-- The FETCH requests of a die that are outstanding (R331). -/
def Dev.fetchesOf (d : Dev) (die : Nat) : Nat := tcount d.weld.fetches fun x sent => sent && decide ((d.place x).die = die)

/-- The next FETCH requests of a die go out while fewer than 64 are outstanding (R331); version 1 sends none (R336). -/
def Dev.sendFetches (d : Dev) (die : Nat) : Dev :=
  d.forEach (d.weld.fetches.filter fun e => !e.2 && decide ((d.place e.1).die = die)) fun d e =>
    if 64 ≤ d.fetchesOf die then d
    else
      let d := (d.setWeld fun w => { w with fetches := tset w.fetches e.1 true }).incF WELD_FETCHES.COUNT die
      if d.version1 then d else d.enqueue e.1 (.fetch e.1 ((d.regionOf e.1).getD 0))

/-- A FETCH asks the twin for a slab: at most one a slab and 64 a die (R331). -/
def Dev.fetch (d : Dev) (slab : Nat) : Dev :=
  if (tget d.weld.fetches slab).isSome then d
  else (d.setWeld fun w => { w with fetches := w.fetches ++ [(slab, false)] }).sendFetches (d.place slab).die

/-- The reads of a slab that wait for its fill, for a sector that it does not hold, get poison (R142). -/
def Dev.poisonWaiting (d : Dev) (slab : Nat) : Dev :=
  d.forEach (d.cru.reqs.filter fun r => decide (r.slab = slab ∧ (r.wait = .fill ∨ r.wait = .fetch))) fun d r => d.finishRead r true

/-- The held mirror entries of a slab whose fill has failed: those of a lost sector can never carry their line, so their writes
no longer wait for an acknowledgement (assumption 7); the others are queued. -/
def Dev.failMirror (d : Dev) (slab : Nat) (lost : Mask) : Dev :=
  let es := tgetD d.weld.heldMirror slab []
  let isGone := fun (e : HeldEntry) => decide (e.sector < 64) && lost.getLsbD e.sector
  let d := d.setWeld fun w => { w with heldMirror := tset w.heldMirror slab (es.filter fun e => !isGone e) }
  let d := d.releaseMirror slab
  d.forEach ((es.filter isGone).filterMap (·.rid)) fun d rid => match d.req rid with
    | some r => if r.wait = .mirrorAck && !d.awaitsAck r then (d.complete r.src r.tag).endReq rid else d
    | none => d

/-- A FILLING slab whose fill has failed with no twin copy (R138, R142): INVALID with an empty mask, else POISONED. -/
def Dev.loseFill (d : Dev) (slab status : Nat) : Dev :=
  match d.lookup slab with
  | none => d
  | some (_, t) =>
    let partials := (d.cru.be.filter fun e => decide (e.1.1 = slab)).map (fun e => bitMask e.1.2)
    let lost := partials.foldl (· ||| ·) (~~~t.mask)
    let mask := t.mask &&& ~~~lost
    let d := d.setCru fun c => { c with fills := tdel c.fills slab }
    let d := d.poisonWaiting slab
    if mask = 0 then
      let d := if t.mask = 0 then d.invalidate slab
        else ((d.modTag slab fun t => { t with mask := 0, state := .poisoned }).addPoison slab lost)
      let d := d.raiseC .CRUC_FILL_FAIL slab [p5 slab, p2 status, p1 (if t.mask = 0 then 2 else 1)]
      if t.mask = 0 then d
      else ((d.raiseC .CRUC_SLAB_POISONED slab [p5 slab, p4 64, p1 0]).failMirror slab lost).completeThrough slab none
    else
      let d := (d.modTag slab fun t => { t with mask := mask, state := .poisoned }).addPoison slab lost
      let d := d.setCru fun c => { c with be := c.be.filter fun e => decide (e.1.1 ≠ slab) }
      let d := d.raiseC .CRUC_FILL_FAIL slab [p5 slab, p2 status, p1 1]
      ((d.raiseC .CRUC_SLAB_POISONED slab [p5 slab, p4 (popcount lost), p1 0]).failMirror slab lost).completeThrough slab none

/-- A fill that has failed here, with what the twin waits for. -/
def Dev.failFillHere (d : Dev) (slab status : Nat) : Dev := (d.loseFill slab status).answerOwed slab

/-- A fill fails: the twin is asked where it holds the slab (R161, R356), else R142. -/
def Dev.failFill (d : Dev) (slab status : Nat) : Dev :=
  match d.lookup slab with
  | none => d.setCru fun c => { c with fills := tdel c.fills slab }
  | some (_, t) =>
    if t.state ≠ .filling then d
    else if d.twinHoldsAt slab (d.heatOf t.heat) ∧ tget d.cru.fills slab ≠ some true then
      let d := (d.setCru fun c => { c with fills := tset c.fills slab true }).fetch slab
      d.raiseC .CRUC_FILL_FAIL slab [p5 slab, p2 status, p1 0]
    else d.failFillHere slab status

/-- A fill issued: the backing read goes out, waits for the namespace, or fails at once (R138, R343, R358). -/
def Dev.issueFill (d : Dev) (slab : Nat) : Dev :=
  if (tget d.cru.fills slab).isSome || d.quenching then d
  else
    let n := d.nsOf slab
    let d := d.setCru fun c => { c with fills := tset c.fills slab false }
    if d.nsServes n then d.emit (.nvmeRead n slab) else if d.nsWaits n then d else d.failFill slab 0

/-- A demand for the segments of a pending slab (R280). -/
def Dev.demand (d : Dev) (slab : Nat) : Dev :=
  let new := (tgetD d.rht.pending slab []).filter fun g => !d.rht.demands.contains g
  let d := d.addF RHT_DEMANDS.COUNT new.length
  { d with rht := { d.rht with demands := d.rht.demands ++ new } }

/-- Reads that wait for a slab's fill and can be served now, in slab order. -/
def Dev.serveWaiting (d : Dev) (slab : Nat) : Dev :=
  d.forEach (d.cru.reqs.filter fun r => decide (r.slab = slab ∧ r.wait = .fill)) fun d r =>
    match d.lookup slab with
    | some (_, t) => match t.state with
      | .filling => if d.sectorHeld t r.sector then d.finishRead r false else d
      | .poisoned => d.finishRead r (!t.mask.getLsbD r.sector)
      | _ => d.finishRead r false
    | none => d.finishRead r true

/-- A destage entered: DESTAGING with an empty redirty mask, and the NVMe Write with FUA issued. The written-through writes of the
slab that wait precede its read. -/
def Dev.startDestage (d : Dev) (slab : Nat) : Dev :=
  let waiting := (d.cru.reqs.filter fun r => decide (r.slab = slab ∧ r.wait = .destage)).map (·.rid)
  let d := d.modTag slab fun t => { t with state := .destaging }
  let d := d.setCru fun c => { c with destages := tset c.destages slab ⟨0, waiting⟩, idleDue := c.idleDue.filter fun x => decide (x ≠ slab) }
  d.emit (.nvmeWrite (d.nsOf slab) slab (d.encrypt slab (d.lines slab)))

/-- A fill lands (R138): unmasked sectors, and the bytes of partially written sectors whose enable bit is clear, are written; the
slab becomes CLEAN or DIRTY, waiting reads are served and held mirror entries are queued. -/
def Dev.landFill (d : Dev) (slab : Nat) (ls : List Line) : Dev :=
  match d.lookup slab with
  | none => d.setCru fun c => { c with fills := tdel c.fills slab }
  | some (_, t) =>
    let d := d.forEach (List.range 64) fun d i =>
      match tget d.cru.be (slab, i) with
      | some en => d.setLine slab i (mergeLine (ls.getD i 0) (d.line slab i) en)
      | none => if t.mask.getLsbD i then d else d.setLine slab i (ls.getD i 0)
    let d := d.setCru fun c => { c with fills := tdel c.fills slab, be := c.be.filter fun e => decide (e.1.1 ≠ slab) }
    let d := d.modTag slab fun t => { t with state := if t.mask = 0 then .clean else .dirty }
    let d := ((d.serveWaiting slab).releaseMirror slab).answerOwed slab
    if t.mask ≠ 0 ∧ d.cru.reqs.any (fun r => decide (r.slab = slab ∧ r.wait = .destage)) ∧ d.selectable slab then d.startDestage slab else d

/-! ### Destage (R139 to R141) -/

/-- A slab destaged while its namespace detaches is counted (R364). -/
def Dev.countDetached (d : Dev) (slab : Nat) : Dev :=
  let n := d.nsOf slab
  if (d.ns n).state = .detaching then
    { d with back := { d.back with ns := tset d.back.ns n { d.ns n with detached := (d.ns n).detached + 1 } } }
  else d

/-- A destage completes (R140): DIRTY_MASK becomes the redirty mask; a clean entry is mirrored; the written-through writes that
precede its read complete. -/
def Dev.endDestage (d : Dev) (slab : Nat) : Dev :=
  match tget d.cru.destages slab, d.lookup slab with
  | some g, some (_, t) =>
    let cleaned := t.mask &&& ~~~g.redirty
    let d := d.modTag slab fun t => { t with mask := g.redirty, state := if g.redirty = 0 then .clean else .dirty }
    let d := d.countDetached slab
    let d := d.setCru fun c => { c with destages := tdel c.destages slab, notBefore := tdel c.notBefore slab }
    let d := if (d.mirrorsSlab slab).isSome then d.mirrorClean slab (d.heatOf t.heat) cleaned else d
    let d := (d.completeThrough slab (some g.rids)).ceilCheck
    if d.cru.reqs.any (fun r => decide (r.slab = slab ∧ r.wait = .destage)) then d.startDestage slab else d
  | _, _ => d

/-- A destage fails (R140): the slab returns to DIRTY with DIRTY_MASK unchanged and is not selected again for 1 s. -/
def Dev.failDestage (d : Dev) (slab status : Nat) : Dev :=
  match tget d.cru.destages slab with
  | some _ =>
    let d := d.modTag slab fun t => { t with state := .dirty }
    let d := d.setCru fun c => { c with destages := tdel c.destages slab, notBefore := tset c.notBefore slab (d.now + 1000000000) }
    d.raiseC .CRUC_DESTAGE_FAIL slab [p5 slab, p2 status]
  | none => d

/-! ### Back-invalidation (R82 to R85) -/

/-- The hosts that HDM decoders bind to the HDM-DB ranges of a slab; none outside HDM-DB (R82, R84). -/
def Dev.hdmHosts (d : Dev) (slab : Nat) : Option (List Nat) :=
  match d.fab.hdmDb.filter fun r => decide (r.start ≤ slab * 4096 ∧ slab * 4096 < r.start + r.size) with
  | [] => none
  | rs => some (dedup (rs.map (·.hosts)).flatten)

/-- The hosts that must be invalidated before an access of a host to a line: its sharers, or every bound host under broadcast. -/
def Dev.biTargets (d : Dev) (slab sector host : Nat) : List Nat :=
  match d.hdmHosts slab with
  | none => []
  | some hosts =>
    let line := slab * 64 + sector
    let bc := match d.regionOf slab with | some n => d.fab.biBroadcast.contains n | none => false
    let ss := match tget d.fab.dir line with
      | some e => if e.broadcast || bc then hosts else e.sharers
      | none => if bc then hosts else []
    ss.filter fun h => decide (h ≠ host)

/-- A line that no host holds any more leaves the directory (R82, R84). -/
def Dev.dirDrop (d : Dev) (line : Nat) : Dev :=
  let was := match tget d.fab.dir line with | some e => e.broadcast | none => false
  let d := { d with fab := { d.fab with dir := tdel d.fab.dir line } }
  if was then
    let die := (d.place (line / 64)).die
    d.raise .FAB_BI_BROADCAST die [p1 die, p1 1]
  else d

/-- Entries of a die's snoop directory (R82). -/
def Dev.dirCount (d : Dev) (die : Nat) : Nat := tcount d.fab.dir fun l _ => decide ((d.place (l / 64)).die = die)

/-- BISnpInv sent to hosts for a line; their BIRsp is awaited. -/
def Dev.sendSnoops (d : Dev) (line : Nat) (hosts : List Nat) : Dev :=
  let hs := hosts.filter fun h => !d.fab.snoops.contains (line, h)
  let d := d.emits (hs.map (Out.biSnp line))
  { d with fab := { d.fab with snoops := d.fab.snoops ++ hs.map fun h => (line, h) } }

/-- Whether no BIRsp of a list of lines is missing. -/
def Dev.snoopsDone (d : Dev) (lines : List Nat) : Bool := !(d.fab.snoops.any fun e => lines.contains e.1)

/-- The entry that a full directory gives up for a new line of a die: its oldest (R84). -/
def Dev.dirVictim (d : Dev) (line : Nat) : Option (Nat × DirEntry) :=
  let die := (d.place (line / 64)).die
  if (tget d.fab.dir line).isSome || decide (d.dirCount die < 4194304) then none
  else d.fab.dir.find? fun e => decide ((d.place (e.1 / 64)).die = die)

/-- A host recorded as a sharer of a line: a 33rd sharer turns the entry to broadcast (R82, R84). -/
def Dev.dirAdd (d : Dev) (line host : Nat) : Dev :=
  let die := (d.place (line / 64)).die
  match tget d.fab.dir line with
  | some e =>
    if e.sharers.contains host || e.broadcast then d
    else if e.sharers.length < 32 then { d with fab := { d.fab with dir := tset d.fab.dir line { e with sharers := e.sharers ++ [host] } } }
    else ({ d with fab := { d.fab with dir := tset d.fab.dir line { e with broadcast := true } } }).raise .FAB_BI_BROADCAST die [p1 die, p1 0]
  | none => { d with fab := { d.fab with dir := d.fab.dir ++ [(line, ⟨[host], false⟩)] } }

/-- A host's BIRsp: it no longer shares the line; an entry without sharers leaves the directory (R82 to R84). A broadcast entry
has no sharer once no answer is missing. -/
def Dev.dirRemove (d : Dev) (line host : Nat) : Dev :=
  let d := { d with fab := { d.fab with snoops := d.fab.snoops.filter fun e => decide (e ≠ (line, host)) } }
  match tget d.fab.dir line with
  | none => d
  | some e =>
    let ss := e.sharers.filter fun h => decide (h ≠ host)
    let empty := if e.broadcast then d.snoopsDone [line] else ss.isEmpty
    if empty then d.dirDrop line
    else { d with fab := { d.fab with dir := tset d.fab.dir line { e with sharers := ss } } }

/-- Writes that a fence gate accepts are counted for its requester (R232). -/
def Dev.countAccepted (d : Dev) (die r n : Nat) : Dev := d.addF QNCH_GATE_ACCEPTED.COUNT n die r

/-! ### The access that is not served (R19, R81) -/

/-- The DPA of an access: an LD's own space starts at its allocation (R79). None outside the allocation. -/
def Dev.dpaOf (d : Dev) (die port : Nat) (ld : Option Nat) (dpa : Nat) : Option Nat :=
  match ld with
  | none => some dpa
  | some l => match tget d.fab.lds (die, port, l) with
    | some (start, size) => if dpa < size then some (start + dpa) else none
    | none => none

/-- The cause, by its place in the list of R81, for which an access at a DPA is not served. A source port that a GFAM port has
not enabled counts as outside its allocation (R80). -/
def Dev.unserved (d : Dev) (dpa : Nat) : Option Nat :=
  let slab := slabOf dpa
  if d.swg.cfg.dram.dpaLimit ≤ dpa then some 0
  else if (d.fab.dcRegions.any fun r => decide (r.start ≤ dpa ∧ dpa < r.start + r.size)) &&
      !(d.fab.extents.any fun e => decide (e.start ≤ dpa ∧ dpa < e.start + e.size ∧ e.state = 1)) then some 2
  else if (match d.regionOf slab with | some n => !(d.region n).role.served | none => false) then some 3
  else if (match d.mbox.background with | some (.sanitize, _) => true | _ => false) then some 4
  else if !d.inService (d.place slab).die then some 5
  else none

/-- An access that is not served is counted and raised (R81). The LD item of a port without LDs is a free value (assumption 3). -/
def Dev.countUnserved (d : Dev) (die port : Nat) (ld : Option Nat) (dpa : Nat) (write : Bool) (cause : Nat) : Dev :=
  (d.tick.incF FAB_UNMAPPED_COUNT.COUNT).raise .FAB_UNMAPPED_ACCESS die [p1 port, p4 (ld.getD d.freeVal), p8 dpa, pB write, p1 cause]

end Sys2Proof.Machine
end

