-- ==== Sys2Proof/Machine/Admit.lean ====
section
/-! DEFINITION. Admission at the Tongs lock: which holds keep a request waiting, and the effect of a read, a write, a Weld receive
entry and a BYPASS or uncached write (R127 to R144, R159 to R163, R193, R212, R239, R281, R292, R325, R326, R358). -/

namespace Sys2Proof.Machine

open Sys2Proof

/-! ### Who waits behind whom -/

/-- Whether a waiting request keeps the slab's lock, so that later requests of the slab wait behind it: every wait before its
effect, but for a read that waits for a fill. -/
def Wait.holdsLock : Wait → Bool
  | .fill => false
  | .destage => false
  | .mirrorAck => false
  | _ => true

/-- The requests accepted before a request. -/
def Dev.earlier (d : Dev) (rid : Nat) : List Req := d.cru.reqs.takeWhile fun q => decide (q.rid ≠ rid)

/-- Whether a request is a read. -/
def Req.isRead (r : Req) : Bool :=
  match r.kind with
  | .read _ => true
  | _ => false

/-- Whether a request of its slab stands before a request in slab order without having taken effect, or an EVICT holds the slab
exclusively (R127, R131, R149), or the slab waits for the twin (R160). From T0 on no write waits behind a read or an EVICT (R162, R164). -/
def Dev.behind (d : Dev) (r : Req) : Bool :=
  ((d.cru.evicting.contains r.slab || d.cru.recover.any fun e => decide (e.1 = r.slab)) && !d.quenching) ||
    (d.earlier r.rid).any fun q => decide (q.slab = r.slab) && q.wait.holdsLock && !(d.quenching && q.isRead)

/-- The slabs with a lock-table entry in a slice, in the order of their first request (R132). -/
def Dev.lockSlabs (d : Dev) (slice : Nat) : List Nat :=
  dedup ((d.cru.reqs.filter fun q => decide (d.owner q.slab = slice)).map (·.slab) ++
    (d.cru.be.filter fun e => decide (d.owner e.1.1 = slice)).map (·.1.1))

/-- Whether the die switch still holds a request, because the lock table or its slab's wait queue is full (R132). -/
def Dev.atSwitch (d : Dev) (r : Req) : Bool :=
  !((d.lockSlabs (d.owner r.slab)).take 2048).contains r.slab ||
    decide (64 ≤ ((d.earlier r.rid).filter fun q => decide (q.slab = r.slab)).length)

/-- A slice that holds back the die switch reports it at most once a second (R132). -/
def Dev.reportLockFull (d : Dev) (slice : Nat) : Dev :=
  let d := d.setB CRUC_SLICE_STATUS.LOCK_FULL true slice
  let due := match tget d.cru.lockFullAt slice with | some t => decide (t + 1000000000 ≤ d.now) | none => true
  if due then
    let n := (d.cru.reqs.filter fun q => decide (d.owner q.slab = slice) && d.atSwitch q).length
    ({ d with cru := { d.cru with lockFullAt := tset d.cru.lockFullAt slice d.now } }).raise .CRUC_LOCK_TABLE_FULL slice
      [p4 (Nat.min 2048 (d.lockSlabs slice).length), p4 n]
  else d

/-- A request joins the die switch's queue for the owning slice; the answer of the lock table is noted. -/
def Dev.arrive (d : Dev) (src : Src) (kind : ReqKind) (slab sector : Nat) (data : Line) (be : Mask) (tag heat : Nat) : Dev :=
  let r : Req := { rid := d.cru.nextRid, src := src, kind := kind, slab := slab, sector := sector, data := data, be := be, tag := tag,
                   heat := heat, wait := .arrival, since := d.now }
  let d := d.setCru fun c => { c with reqs := c.reqs ++ [r], nextRid := c.nextRid + 1 }
  if d.atSwitch r then d.reportLockFull (d.owner slab) else d.setB CRUC_SLICE_STATUS.LOCK_FULL false (d.owner slab)

/-! ### The pieces of an admission -/

/-- A request waits; `stalled` counts it in CRUC_SET_STALLS (R134, R135). -/
def Dev.holdAs (d : Dev) (r : Req) (w : Wait) (stalled : Bool) : Dev :=
  (if stalled then d.incF CRUC_SET_STALLS.COUNT (d.owner r.slab) else d).hold r w

/-- Whether a host write is written through: WRITE_THROUGH and DRAINING, or a write that sets a clear mask bit over the ceiling or
with its die's share full (R141, R143, R211, R239). -/
def Dev.throughBy (d : Dev) (slab : Nat) (sets : Bool) : Bool × Bool :=
  let mode := d.f CRUC_MODE.CURRENT
  let ceil := sets && (decide (d.ceilState = 2) || d.shareFull (d.place slab).die)
  (decide (mode = 1 ∨ mode = 3) || ceil, ceil)

/-- Whether a namespace counts as FAILED for its slabs: it neither serves nor waits (R343, R358). -/
def Dev.nsFailed (d : Dev) (slab : Nat) : Bool := !d.nsServes (d.nsOf slab) && !d.nsWaits (d.nsOf slab)

/-- A set without an allocatable way: every reheat-pending way raises its demand (R135), and a blocked set is reported (R137). -/
def Dev.noWay (d : Dev) (slab : Nat) (blocked : Bool) : Dev :=
  let k := d.setOf slab
  let ts := d.setTags k
  let d := d.forEach (ts.filter fun e => d.isPending e.2.slab) fun d e => d.demand e.2.slab
  if blocked then
    (d.setB CRUC_SLICE_STATUS.SET_BLOCKED true (d.owner slab)).raiseC .CRUC_SET_BLOCKED slab
      [p4 k.set, p4 (ts.filter fun e => e.2.pinned).length, p4 (ts.filter fun e => decide (e.2.state = .poisoned)).length]
  else d

/-- A line written into its sector: whole, or its enabled bytes, with the byte-enable mask of a sector that still waits for its
fill (R138). -/
def Dev.putLine (d : Dev) (slab sector : Nat) (data : Line) (be : Mask) (unfilled : Bool) : Dev :=
  if be = fullMask then
    (d.setLine slab sector data).setCru fun c => { c with be := tdel c.be (slab, sector) }
  else
    let d := d.setLine slab sector (mergeLine (d.line slab sector) data be)
    if unfilled then
      d.setCru fun c => { c with be := tset c.be (slab, sector) (be ||| tgetD c.be (slab, sector) 0) }
    else d

/-- The state a write leaves (R142). -/
def stateAfterWrite (s : SlabState) (mask : Mask) : SlabState :=
  match s with
  | .clean => .dirty
  | .poisoned => if mask = fullMask then .dirty else .poisoned
  | s => s

/-- How a write takes effect. -/
structure Take where
  /-- the way to allocate, with the slab it replaces -/
  alloc : Option (Nat × Option Nat)
  /-- a frameless slab's full line: the slab becomes POISONED and no fill is issued (R158) -/
  frameless : Bool
  through : Bool
  /-- released by T0: no completion, no fill (R163) -/
  released : Bool
  /-- a MIRROR_WRITE entry is queued -/
  mirror : Bool

/-- The stranded slabs of a namespace: its dirty slabs while it neither serves nor waits (R358, R362). -/
def Dev.stranded (d : Dev) (n : Nat) : Nat :=
  if d.nsServes n || d.nsWaits n then 0
  else (d.validTags.filter fun e => decide (e.2.mask ≠ 0) && decide (d.nsOf e.2.slab = n)).length

/-- The die and the root port of a namespace (R60). -/
def Dev.nsPort (d : Dev) (n : Nat) : Nat × Nat := match d.swg.cfg.backing.nss[n]? with | some c => (c.die, c.port) | none => (0, 0)

/-- BACK_STRANDED again at every 10 % growth of a namespace's stranded slabs (R358). -/
def Dev.strandCheck (d : Dev) (n : Nat) : Dev :=
  let c := d.stranded n
  let x := d.ns n
  if x.reported < c ∧ 11 * x.reported ≤ 10 * c then
    ({ d with back := { d.back with ns := tset d.back.ns n { x with reported := c } } }).raise .BACK_STRANDED (d.nsPort n).1 [p4 n, p4 c]
  else d

/-- The effect of a host write or a line entry on its slab (R126, R138, R142, R325, R326). -/
def Dev.takeEffect (d : Dev) (r : Req) (w : Take) : Dev :=
  let recv := match r.kind with | .mirrorLine _ _ => true | _ => false
  let heat := if recv then r.heat else d.openHeat
  let before := (d.lookup r.slab).map (·.2)
  let die := (d.place r.slab).die
  let d := match w.alloc with
    | some (way, v) => d.allocate r.slab way v (if w.frameless then .poisoned else .filling)
    | none => d
  match d.lookup r.slab with
  | none => d
  | some (_, t) =>
    let masked := t.mask.getLsbD r.sector
    let unfilled := decide (t.state = .filling) && (!masked || (tget d.cru.be (r.slab, r.sector)).isSome)
    let mask := t.mask ||| bitMask r.sector
    let st := stateAfterWrite t.state mask
    let d := d.putLine r.slab r.sector r.data r.be unfilled
    let d := d.modTag r.slab fun t => { t with mask := mask, heat := heat % 256, age := 0, state := st }
    let d := d.setCru fun c => { c with destages := tmod c.destages r.slab fun g => { g with redirty := g.redirty ||| bitMask r.sector },
                                        idleDue := c.idleDue.filter fun x => decide (x ≠ r.slab) }
    let d := if needsAppend before heat then d.append die r.slab (b2n recv) heat recv else d
    let d := if decide (t.state = .poisoned) && !masked then
        (d.delPoison r.slab (bitMask r.sector)).raiseC .CRUC_POISON_CLEARED r.slab [p5 r.slab, p1 r.sector, pB (decide (st = .dirty))]
      else if r.be = fullMask then d.delPoison r.slab (bitMask r.sector) else d
    let d := if recv || w.released || w.frameless then d
      else if w.alloc.isSome then d.issueFill r.slab
      else if unfilled && decide (r.be ≠ fullMask) && !d.isPending r.slab then d.issueFill r.slab
      else d
    let d := if w.mirror && !recv && (d.mirrorsSlab r.slab).isSome then d.mirrorLine r.slab r.sector heat (some r.rid) else d
    (d.strandCheck (d.nsOf r.slab)).ceilCheck

/-- A write ID added to a batch of runs: it extends the last run where it follows it (R316). -/
def addAck (runs : List AckRun) (a : AckRun) : List AckRun :=
  match runs.getLast? with
  | some r => if r.die = a.die ∧ r.notHeld = a.notHeld ∧ (r.first + r.count) % 2 ^ 32 = a.first ∧ r.count < 65535
      then runs.dropLast ++ [{ r with count := r.count + 1 }] else runs ++ [a]
  | none => runs ++ [a]

/-- An acknowledgement of a receive entry joins the batch of its die (R326). -/
def Dev.ackEntry (d : Dev) (r : Req) (notHeld : Bool) : Dev :=
  let die := (d.place r.slab).die
  match r.kind with
  | .mirrorLine id src => d.setWeld fun w => { w with acks := tset w.acks die (addAck (tgetD w.acks die []) ⟨id, 1, src, notHeld⟩) }
  | .mirrorClean id src => d.setWeld fun w => { w with acks := tset w.acks die (addAck (tgetD w.acks die []) ⟨id, 1, src, notHeld⟩) }
  | _ => d

/-- The end of a write's admission after its effect: a receive entry is acknowledged; a released write sends no completion; a
written-through write waits for a destage that follows it; a SYNC write waits for its acknowledgement (R141, R163, R328). -/
def Dev.endWrite (d : Dev) (r : Req) (w : Take) : Dev :=
  let d := d.returnCredit r
  match r.kind with
  | .mirrorLine _ _ => (d.ackEntry r false).endReq r.rid
  | _ =>
    if w.released then d.endReq r.rid
    else if w.through then
      match d.lookup r.slab with
      | some (_, t) =>
        if t.state = .dirty then (d.hold r .destage).startDestage r.slab
        else if t.state = .poisoned then d.finishWrite r (d.awaitsAck r)
        else d.hold r .destage
      | none => d.finishWrite r (d.awaitsAck r)
    else d.finishWrite r (d.awaitsAck r)

/-- A partial write to a lost sector: completed and not stored (R142, R158). -/
def Dev.dropPartial (d : Dev) (r : Req) : Dev :=
  let d := (d.incF CRUC_POISON_PARTIAL.COUNT).returnCredit r
  match r.kind with
  | .mirrorLine _ _ => (d.ackEntry r false).endReq r.rid
  | _ => (d.complete r.src r.tag).endReq r.rid

/-! ### BYPASS and uncached writes (R135, R144) and the buffers of T0 (R163) -/

/-- A line put into a staging buffer: its valid bit, and its byte-enable mask while it is partial. -/
def Staging.put (g : Staging) (sector : Nat) (data : Line) (be : Mask) : Staging :=
  let old := tgetD g.lines sector 0
  let part := be ≠ fullMask ∧ (g.valid.getLsbD sector = false ∨ (tget g.be sector).isSome)
  { g with valid := g.valid ||| bitMask sector, wrote := g.wrote ||| bitMask sector,
           lines := tset g.lines sector (if be = fullMask then data else mergeLine old data be),
           be := if part then tset g.be sector (be ||| tgetD g.be sector 0) else if be = fullMask then tdel g.be sector else g.be }

/-- The staging buffer of a slab, with the request that it belongs to. -/
def Dev.stagingOf (d : Dev) (slab : Nat) : Option (Nat × Staging) := d.cru.staging.find? fun e => decide (e.2.slab = slab)

def Dev.setStaging (d : Dev) (rid : Nat) (g : Staging) : Dev := d.setCru fun c => { c with staging := tset c.staging rid g }

/-- The backing read or write that a staging buffer asks for now: it goes out while the namespace serves (R144). -/
def Dev.runStaging (d : Dev) (rid : Nat) (g : Staging) : Dev :=
  let n := d.nsOf g.slab
  if !d.nsServes n || d.quenching then d.setStaging rid { g with phase := 2 }
  else if g.valid = fullMask ∧ g.be.isEmpty then
    (d.setStaging rid { g with phase := 1 }).emit (.nvmeWrite n g.slab (d.encrypt g.slab ((List.range 64).map fun i => tgetD g.lines i 0)))
  else (d.setStaging rid { g with phase := 0 }).emit (.nvmeRead n g.slab)

/-- A BYPASS or uncached write holds its slab's lock in a staging buffer that D counts (R135, R144). -/
def Dev.stageWrite (d : Dev) (r : Req) : Dev :=
  let g : Staging := { slab := r.slab, valid := 0, lines := [], be := [], phase := 0, wrote := 0 }
  (((d.hold r .staging).returnCredit r).runStaging r.rid (g.put r.sector r.data r.be)).ceilCheck

/-- A write that finds no way at T0 is placed in a staging buffer of its slab, and dumped (R163). -/
def Dev.stageAtT0 (d : Dev) (r : Req) : Dev :=
  let g : Staging := { slab := r.slab, valid := 0, lines := [], be := [], phase := 3, wrote := 0 }
  ((d.setStaging r.rid (g.put r.sector r.data r.be)).returnCredit r).endReq r.rid

/-- A write behind a staging buffer of its slab merges into it at T0 (R163). -/
def Dev.mergeAtT0 (d : Dev) (r : Req) (rid : Nat) (g : Staging) : Dev :=
  ((d.setStaging rid (g.put r.sector r.data r.be)).returnCredit r).endReq r.rid

/-! ### Back-invalidation at admission (R83) -/

/-- BISnpInv of a line to hosts, with the request held until each has answered. -/
def Dev.snoop (d : Dev) (r : Req) (line : Nat) (hosts : List Nat) : Dev := (d.sendSnoops line hosts).hold r (.birsp [line])

/-! ### Writes -/

/-- Whether a write is a full line. -/
def Req.isFull (r : Req) : Bool := decide (r.be = fullMask)

/-- The journal reserve keeps a write waiting (R193): JOURNAL_STALL is set and JRNL_STALL raised. -/
def Dev.holdJournal (d : Dev) (r : Req) : Dev :=
  let die := (d.place r.slab).die
  let d := (d.hold r .journal).setB HEAT_STATUS.JOURNAL_STALL true
  let n := (d.cru.reqs.filter fun q => decide (q.wait = .journal) && decide ((d.place q.slab).die = die)).length
  d.raise .JRNL_STALL die [p4 (d.freePages die), p4 n]

/-- A receive entry held by the ceiling or the die share, reported at most once a second (R212). -/
def Dev.holdReceive (d : Dev) (r : Req) : Dev :=
  let die := (d.place r.slab).die
  let d := d.hold r .ceiling
  let due := match d.ceil.heldAt with | some t => decide (t + 1000000000 ≤ d.now) | none => true
  if due then
    let n := (d.cru.reqs.filter fun q => decide (q.wait = .ceiling)).length
    (d.setCeil fun c => { c with heldAt := some d.now }).raiseB .CEIL_RECEIVE_HELD [p1 die, p4 n, pB (decide (d.ceilState ≠ 2))]
  else d

/-- The conditions that follow the allocation choice, in one Tongs step: the journal reserve, the receive hold, the transmit
queue, and what a written-through write needs (R141, R193, R212, R292, R325, R358). At T0 every hold ends (R163). -/
def Dev.admitChosen (d : Dev) (r : Req) (alloc : Option (Nat × Option Nat)) (frameless : Bool) : Dev :=
  let recv := match r.kind with | .mirrorLine _ _ => true | _ => false
  let t := (d.lookup r.slab).map (·.2)
  let heat := if recv then r.heat else d.openHeat
  let sets := match t with | some t => !t.mask.getLsbD r.sector | none => true
  let die := (d.place r.slab).die
  let (through, byCeil) := if recv then (false, false) else d.throughBy r.slab sets
  let failed := d.nsFailed r.slab
  let held := match d.regionOf r.slab with | some n => d.backHeld n | none => false
  let waitsNs := through && (held || d.nsWaits (d.nsOf r.slab))
  let waitsFailed := failed && !recv && sets && decide (d.ceilState = 2)
  let go (released through mirror : Bool) : Dev :=
    let w : Take := ⟨alloc, frameless, through, released, mirror⟩
    let d := if byCeil && through then d.incF CEIL_WT_WRITES.COUNT else d
    (d.takeEffect r w).endWrite r w
  let full := !recv && (d.mirrorsSlab r.slab).isSome && d.txFull r.slab
  let stall := needsAppend t heat && d.atReserve die
  let recvHeld := recv && sets && (decide (d.ceilState = 2) || d.shareFull die)
  if d.quenching then go (stall || full || through) false (!full)
  else if stall then d.holdJournal r
  else if recvHeld then d.holdReceive r
  else if full then d.hold r .txRoom
  else if waitsNs || waitsFailed then d.hold r .backing
  else go false (through && !failed) true

/-- A write that misses (R134, R135, R137, R281). -/
def Dev.admitMiss (d : Dev) (r : Req) (frameless : Bool) : Dev :=
  let recv := match r.kind with | .mirrorLine _ _ => true | _ => false
  let die := (d.place r.slab).die
  if d.indexRuns die && !d.quenching then d.hold r .index
  else match d.choose (d.setOf r.slab) with
    | .way w v => d.admitChosen r (some (w, v)) frameless
    | .stall v =>
      if d.quenching then d.stageAtT0 r
      else
        let d := d.holdAs r (.setStall v) true
        let busy := (tget d.cru.destages v).isSome || decide (d.now < tgetD d.cru.notBefore v 0)
        if busy then d else d.startDestage v
    | .none blocked =>
      if d.quenching then d.stageAtT0 r
      else
        let d := d.noWay r.slab blocked
        if recv || frameless || d.nsFailed r.slab then d.holdAs r (.way d.now) true
        else (d.incF CRUC_UNCACHED.COUNT (d.owner r.slab)).stageWrite r

/-- Admission of a host write or a line entry once its back-invalidation is done. -/
def Dev.admitWrite (d : Dev) (r : Req) : Dev :=
  let mode := d.f CRUC_MODE.CURRENT
  let recv := match r.kind with | .mirrorLine _ _ => true | _ => false
  match (if d.quenching then d.stagingOf r.slab else none) with
  | some (rid, g) => d.mergeAtT0 r rid g
  | none =>
    if (mode = 2 ∨ mode = 4) ∧ recv = false then
      let held := match d.regionOf r.slab with | some n => d.backHeld n | none => false
      if d.quenching then d.stageAtT0 r else if held then d.hold r .backing else d.stageWrite r
    else if d.cru.frameless.contains r.slab then
      if !r.isFull then d.dropPartial r
      else
        let d' := d.admitMiss r true
        if (d'.lookup r.slab).isSome then
          (d'.setCru fun c => { c with frameless := c.frameless.filter fun x => decide (x ≠ r.slab) }).delPoison r.slab (bitMask r.sector)
        else d'
    else match d.lookup r.slab with
      | some (_, t) =>
        if t.state = .poisoned ∧ t.mask.getLsbD r.sector = false ∧ r.isFull = false then d.dropPartial r
        else d.admitChosen r none false
      | none => d.admitMiss r false

/-- A clean entry (R326): the CLEANED bits are cleared; a slab whose mask becomes empty is CLEAN when every sector is filled, and
INVALID otherwise. -/
def Dev.admitClean (d : Dev) (r : Req) : Dev :=
  let cleaned : Mask := BitVec.ofNat 64 r.data.toNat
  let d := match d.lookup r.slab with
    | none => d
    | some (_, t) =>
      let mask := t.mask &&& ~~~cleaned
      if mask ≠ 0 then d.modTag r.slab fun t => { t with mask := mask }
      else if t.state = SlabState.filling ∨ t.state = SlabState.poisoned then (d.invalidate r.slab).delPoison r.slab fullMask
      else d.modTag r.slab fun t => { t with mask := 0, state := .clean }
  (((d.ackEntry r false).ceilCheck)).endReq r.rid

/-- A receive entry for a region whose role is neither SHADOW nor REJOINING: discarded, counted and acknowledged with NOT_HELD
(R326). -/
def Dev.strayEntry (d : Dev) (r : Req) : Dev := ((d.incF WELD_STRAY.COUNT).ackEntry r true).endReq r.rid

/-! ### RESYNC_DATA (R294) -/

/-- A reheat-pending slab withdrawn from the index: its sectors count as retired (R279, R293, R294). -/
def Dev.withdraw (d : Dev) (slab : Nat) : Dev :=
  let segs := tgetD d.rht.pending slab []
  let mark := fun (g : RSeg) =>
    if segs.contains (g.die, g.num) && !g.gone.contains slab then
      let gone := g.gone ++ [slab]
      { g with gone := gone, retired := g.retired || (g.indexed && !g.damaged && g.named.all gone.contains) }
    else g
  let rht := { d.rht with pending := tdel d.rht.pending slab, restore := d.rht.restore.map (fun (x : Restore) => { x with segs := x.segs.map mark }),
                          judge := d.rht.judge.filter (fun x => decide (x ≠ slab)), poisoned := d.rht.poisoned.filter (fun x => decide (x ≠ slab)) }
  let d := ({ d with rht := rht }).setF RHT_PENDING.COUNT rht.pending.length
  d.setF RHT_RETIRED.COUNT (match d.rht.restore with | some r => (r.segs.filter (·.retired)).length | none => d.f RHT_RETIRED.COUNT)

/-- The slabs of a region's running resync that are left, with their register (R300). -/
def Dev.setResync (d : Dev) (n : Nat) (slabs : List Nat) : Dev :=
  (d.setRegion n { d.region n with resync := slabs }).setF RHT_RESYNC_LEFT.SLABS slabs.length 0 n

/-- RESYNC_DATA of a slab has arrived and needs no more of it. -/
def Dev.resyncHere (d : Dev) (slab : Nat) : Dev :=
  match d.regionOf slab with
  | some n => d.setResync n ((d.region n).resync.filter fun x => decide (x ≠ slab))
  | none => d

/-- RESYNC_DATA written into the slab's frame (R294): the sectors, the winner's mask, DIRTY, CLEAN or POISONED, the poison list, and
the journal record in the carried heat. -/
def Dev.writeResync (d : Dev) (r : Req) (kind : Nat) (mask : Mask) (ls : List Line) (way : Option (Nat × Option Nat)) : Dev :=
  let before := (d.lookup r.slab).map (·.2)
  let d := match way with | some (w, v) => d.allocate r.slab w v .filling | none => d
  let d := d.setCru fun c => { c with be := c.be.filter fun e => decide (e.1.1 ≠ r.slab), fills := tdel c.fills r.slab,
                                      destages := tdel c.destages r.slab }
  let d := d.forEach ((List.range 64).filter fun i => decide (kind = 0) || mask.getLsbD i) fun d i => d.setLine r.slab i (ls.getD i 0)
  let st : SlabState := if kind = 4 then .poisoned else if mask = 0 then .clean else .dirty
  let d := d.modTag r.slab fun t => { t with mask := mask, heat := r.heat % 256, age := 0, state := st }
  let d := d.delPoison r.slab fullMask
  let d := if kind = 4 then d.addPoison r.slab (~~~mask) else d
  let d := if needsAppend before r.heat then d.append (d.place r.slab).die r.slab 1 r.heat true else d
  (((d.resyncHere r.slab).endReq r.rid).serveWaiting r.slab).ceilCheck

/-- RESYNC_DATA at its Tongs lock (R294). From T0 on one that finds no way is kept in a staging buffer, as R163 keeps a write. -/
def Dev.admitResync (d : Dev) (r : Req) (kind : Nat) (mask : Mask) (ls : List Line) : Dev :=
  let d := d.withdraw r.slab
  let d := d.setCru fun c => { c with frameless := c.frameless.filter fun x => decide (x ≠ r.slab) }
  if kind = 1 then ((((d.invalidate r.slab).delPoison r.slab fullMask).resyncHere r.slab).endReq r.rid).ceilCheck
  else if needsAppend ((d.lookup r.slab).map (·.2)) r.heat && d.atReserve (d.place r.slab).die && !d.quenching then d.holdJournal r
  else match d.lookup r.slab with
    | some _ => d.writeResync r kind mask ls none
    | none => match d.choose (d.setOf r.slab) with
      | .way w v => d.writeResync r kind mask ls (some (w, v))
      | .stall v =>
        if d.quenching then (d.setStaging r.rid ⟨r.slab, mask, (List.range 64).map fun i => (i, ls.getD i 0), [], 3, 0⟩).endReq r.rid
        else
          let d := d.holdAs r (.setStall v) true
          let busy := (tget d.cru.destages v).isSome || decide (d.now < tgetD d.cru.notBefore v 0)
          if busy then d else d.startDestage v
      | .none blocked =>
        if d.quenching then (d.setStaging r.rid ⟨r.slab, mask, (List.range 64).map fun i => (i, ls.getD i 0), [], 3, 0⟩).endReq r.rid
        else (d.noWay r.slab blocked).holdAs r (.way d.now) true

/-- Whether a region's resync goes on at this side, the loser. -/
def Dev.takesResync (d : Dev) (slab : Nat) : Bool :=
  match d.regionOf slab with
  | some n => decide ((d.region n).role = .rejoining)
  | none => false

/-- Whether a region takes mirror entries here. -/
def Dev.takesMirror (d : Dev) (slab : Nat) : Bool :=
  match d.regionOf slab with
  | some n => decide ((d.region n).role = .shadow ∨ (d.region n).role = .rejoining)
  | none => false

/-! ### Reads -/

/-- A read that reaches the backing tier without allocating (R135, R143): it waits for its namespace, goes out, or gets poison. -/
def Dev.readUncached (d : Dev) (r : Req) : Dev :=
  let n := d.nsOf r.slab
  if d.quenching then (d.hold r .uncached).returnCredit r
  else if d.nsServes n then ((d.hold r .uncached).returnCredit r).emit (.nvmeRead n r.slab)
  else if d.nsWaits n then (d.hold r .uncached).returnCredit r
  else (d.returnCredit r).finishRead r true

/-- A FILLING slab's read of a sector that it does not hold waits; a pending slab's read raises the demand for its segments, and a
slab with no fill in flight gets one (R142, R278, R280, R327). -/
def Dev.waitFill (d : Dev) (r : Req) : Dev :=
  let d := (d.hold r .fill).returnCredit r
  if d.isPending r.slab then d.demand r.slab else d.issueFill r.slab

/-- A sector lost in a masked sector of a slab (R160): its mask bit is cleared, the slab becomes POISONED, and written-through
writes that wait for its destage complete (R141). `cause` 1 is data. -/
def Dev.poisonSector (d : Dev) (slab sector cause : Nat) : Dev :=
  let d := d.modTag slab fun t => { t with mask := t.mask &&& ~~~bitMask sector, state := .poisoned }
  let d := d.addPoison slab (bitMask sector)
  let d := d.raiseC .CRUC_SLAB_POISONED slab [p5 slab, p4 1, p1 cause]
  (d.completeThrough slab none).ceilCheck

/-- A hit with good data. -/
def Dev.readHit (d : Dev) (r : Req) (t : Tag) : Dev :=
  match t.state with
  | .filling => if d.sectorHeld t r.sector then (d.returnCredit r).finishRead r false else d.waitFill r
  | .poisoned => (d.returnCredit r).finishRead r (!t.mask.getLsbD r.sector)
  | _ => (d.returnCredit r).finishRead r false

/-- A masked sector with uncorrectable data is asked from the twin (R160, R161). -/
def Dev.recover (d : Dev) (slab sector : Nat) : Dev :=
  (d.setCru fun c => { c with recover := if c.recover.contains (slab, sector) then c.recover else c.recover ++ [(slab, sector)] }).fetch slab

/-- A read that meets uncorrectable data (R142, R159, R160): an unmasked sector is refetched by a fill, a masked one is recovered
from the twin or poisoned. A request to a slab in DESTAGING or FILLING waits for that to end. -/
def Dev.readBad (d : Dev) (r : Req) (t : Tag) : Dev :=
  let masked := t.mask.getLsbD r.sector
  if t.state = .destaging ∨ t.state = .filling then d
  else if !masked then
    if t.state = .poisoned then (d.returnCredit r).finishRead r true
    else
      let d := d.modTag r.slab fun t => { t with state := .filling }
      (d.raiseC .CRUC_DATA_UE_REFETCHED r.slab [p5 r.slab, p1 r.sector]).waitFill r
  else if d.twinHoldsAt r.slab (d.heatOf t.heat) && !d.quenching then (((d.recover r.slab r.sector).hold r .fetch).returnCredit r)
  else ((d.poisonSector r.slab r.sector 1).returnCredit r).finishRead r true

/-- Admission of a read. -/
def Dev.admitRead (d : Dev) (r : Req) (bad : Bool) : Dev :=
  let mode := d.f CRUC_MODE.CURRENT
  if mode = 2 ∨ mode = 4 then d.readUncached r
  else if d.cru.frameless.contains r.slab then (d.returnCredit r).finishRead r true
  else match d.lookup r.slab with
    | some (_, t) => let d := d.touch r.slab; if bad then d.readBad r t else d.readHit r t
    | none =>
      if d.indexRuns (d.place r.slab).die then d.hold r .index
      else match d.choose (d.setOf r.slab) with
        | .way w v => ((((d.allocate r.slab w v .filling).hold r .fill).returnCredit r).issueFill r.slab)
        | .stall v =>
          let d := d.holdAs r (.setStall v) true
          let busy := (tget d.cru.destages v).isSome || decide (d.now < tgetD d.cru.notBefore v 0)
          if busy || d.quenching then d else d.startDestage v
        | .none blocked => ((d.noWay r.slab blocked).incF CRUC_UNCACHED.COUNT (d.owner r.slab)).readUncached r

/-! ### One request at its lock -/

/-- Admission without a new tag lookup's counts: a first admission after its checks, and every retry of a held request. -/
def Dev.admitReq (d : Dev) (r : Req) (bad : Bool) : Dev :=
  match r.kind with
  | .read _ => d.admitRead r bad
  | .write => d.admitWrite r
  | .mirrorLine _ _ => if d.takesMirror r.slab then d.admitWrite r else d.strayEntry r
  | .mirrorClean _ _ => if d.takesMirror r.slab then d.admitClean r else d.strayEntry r
  | .resync kind mask ls => if d.takesResync r.slab then d.admitResync r kind mask ls else d.endReq r.rid

/-- The requests that wait for a reason are admitted again, in their order; one that stands behind another of its slab stays. -/
def Dev.retryAll (d : Dev) (p : Req → Bool) : Dev :=
  d.forEach ((d.cru.reqs.filter p).map (·.rid)) fun d rid => match d.req rid with
    | some r => if p r && !d.behind r then d.admitReq r false else d
    | none => d

/-- What a tag lookup shows (R120, R155 to R157): a tag-cache hit or miss, a corrected bit, an error in the tag cache whose DRAM
copy is good, or lost ways in DRAM. -/
def Dev.countLookup (d : Dev) (r : Req) : Dev :=
  let s := d.owner r.slab
  let hit := (d.lookup r.slab).isSome
  match r.kind with
  | .read _ => if hit then d.incF CRUC_READ_HITS.COUNT s else d.incF CRUC_READ_MISSES.COUNT s
  | .write => if hit then d.incF CRUC_WRITE_HITS.COUNT s else d.incF CRUC_WRITE_MISSES.COUNT s
  | _ => d

/-- The heats of a die's journal records of a slab. -/
def Dev.journalHeats (d : Dev) (slab : Nat) : List Nat :=
  ((d.dirOf (d.place slab).die).filter fun e => (e.written ++ e.buffered).any fun r => decide (r.slab = slab)).map (·.heat)

/-- The candidates of a rebuild (R157): slabs of the set in journal records of unretired heats that no surviving tag names. -/
def Dev.candidates (d : Dev) (k : SetKey) (lost : List Nat) : List Nat :=
  let survivors := ((d.setTags k).filter fun e => !lost.contains e.1).map (·.2.slab)
  let named := dedup (((d.dirOf k.die).map fun e => (e.written ++ e.buffered).map (·.slab)).flatten)
  named.filter fun x => decide (d.setOf x = k) && !survivors.contains x

/-- A set whose tags are lost starts its rebuild: the candidates that the twin holds are fetched, and requests to the set wait
(R157). From T0 on no twin is asked (R162). -/
def Dev.startRebuild (d : Dev) (slab : Nat) (lost : List Nat) : Dev :=
  let k := d.setOf slab
  let d := d.incF CRUC_TAG_ERRORS.COUNT (d.owner slab)
  let d := d.setB CRUC_SLICE_STATUS.REBUILDING true (d.owner slab)
  let d := d.setCru fun c => { c with rebuilds := tset c.rebuilds k (dedup (tgetD c.rebuilds k [] ++ lost)) }
  if d.quenching then d
  else d.forEach ((d.candidates k lost).filter fun x => d.twinHoldsAt x (maxOf (d.journalHeats x))) fun d x => d.fetch x

/-- Whether a slab's set is under rebuild. -/
def Dev.rebuilding (d : Dev) (slab : Nat) : Bool := (tget d.cru.rebuilds (d.setOf slab)).isSome

/-- The hosts whose copies an access must invalidate (R83): a write, or a request for exclusive ownership, invalidates the other
sharers. -/
def Dev.invalidateFor (d : Dev) (r : Req) : List Nat :=
  match r.src, r.kind with
  | .port _ _ host _, .write => d.biTargets r.slab r.sector host
  | .port _ _ host _, .read 2 => d.biTargets r.slab r.sector host
  | _, _ => []

/-- Whether a read takes a directory entry: it asks for ownership in an HDM-DB range. -/
def Dev.takesEntry (d : Dev) (r : Req) : Bool :=
  match r.kind with
  | .read own => decide (own ≠ 0) && (d.hdmHosts r.slab).isSome
  | _ => false

/-- The directory's step of an admission (R83, R84): a conflicting access waits for the sharers' answers; a new line that finds the
directory full waits for those of the entry it takes; else the request's host is recorded and the request goes on. At T0 a write
does not wait (R163). -/
def Dev.coherent (d : Dev) (r : Req) (bad : Bool) : Dev :=
  let line := r.slab * 64 + r.sector
  let hosts := d.invalidateFor r
  if !hosts.isEmpty && !d.quenching then d.snoop r line hosts
  else if d.takesEntry r then
    match r.src with
    | .port _ _ host _ =>
      match d.dirVictim line with
      | some (v, e) =>
        let hs := if e.broadcast then (d.hdmHosts (v / 64)).getD [] else e.sharers
        (({ d with fab := { d.fab with dir := tdel d.fab.dir v } }).sendSnoops v hs).hold r (.birsp [v])
      | none => (d.dirAdd line host).admitReq r bad
    | _ => d.admitReq r bad
  else d.admitReq r bad

/-- The requests whose last awaited BIRsp has come go on (R83). -/
def Dev.afterSnoops (d : Dev) : Dev :=
  d.forEach (d.cru.reqs.filter fun r => match r.wait with | .birsp ls => d.snoopsDone ls | _ => false) fun d r =>
    match d.req r.rid with
    | some q => d.coherent { q with wait := .arrival } false
    | none => d

end Sys2Proof.Machine
end

