-- ==== Sys2Proof/Machine/MailOps.lean ====
section
/-! DEFINITION. The command processor (R100 to R105, R110): which paths are served, the order of commands, the checks before one
runs, and its completion. -/

namespace Sys2Proof.Machine

open Sys2Proof

/-- What a command asks before it runs: its opcode, its class, its scope, whether it is a vendor command, and the sizes of input
that it takes (R103, R105, R106, R110). -/
structure MbSpec where
  opcode : Nat
  mgmt : Bool
  pkg : Bool
  vendor : Bool
  lo : Nat
  hi : Nat
  deriving DecidableEq, Repr

/-- Whether a path reaches the command processor: the firmware runs and no quench does; a port's configuration level is reached
(R64, R96, R100). -/
def Dev.mbReady (d : Dev) (p : Path) : Bool :=
  let ph := d.f RST_STATUS.PHASE
  decide (ph ≠ 0 ∧ ph ≠ 8) && !d.quenching && match p with
    | .sideband => true
    | .port die port ld => d.inService die && d.swg.cfg.hasPort die port && d.fb FAB_PORT_STATUS.CFG_READY die port &&
        (match ld with | some l => decide (l = 0xFFFF ∨ l < 16) && decide (d.swg.cfg.portMode die port = 1) | none => decide (d.swg.cfg.portMode die port ≠ 1))

/-- The greatest input of a path in bytes (R100). -/
def pathLimit : Path → Nat
  | .sideband => 4096
  | .port _ _ _ => 32768

/-- Whether a path runs package-scope commands: not an LD other than the FM-owned one (R105). -/
def pathPackage : Path → Bool
  | .port _ _ (some l) => decide (l = 0xFFFF)
  | _ => true

/-- A completion on its path. -/
def Dev.mbReply (d : Dev) (p : Path) (opcode : Nat) (ret : Ret) (st : Status) (out : Fields) : Dev :=
  let r : Resp := ⟨opcode, ret, st, out⟩
  ({ d with mbox := { d.mbox with resp := some r } }).emit (.mailbox p r)

/-- A vendor command's completion: Busy when STATUS is BUSY, else Success (R110). -/
def Dev.mbVendor (d : Dev) (p : Path) (opcode : Nat) (st : Status) (out : Fields) : Dev :=
  d.mbReply p opcode (if st = .busy then .busy else .success) st out

/-- A standard command's completion with Success. -/
def Dev.mbOk (d : Dev) (p : Path) (opcode : Nat) (out : Fields) : Dev := d.mbReply p opcode .success .ok out

/-- Why an authority is refused: 0 none shown, 1 a bad token, 2 a count mismatch (R104, R116); none when it holds. -/
def Dev.authReason (d : Dev) (a : Auth) (opcode : Nat) : Option Nat :=
  match a with
  | .none => some 0
  | .session id => if d.sec.sessions.any fun s => decide (s.id = id) && s.finished && s.management then none else some 0
  | .token t =>
    if !(decide (t.opcode = opcode ∧ t.packageId = d.pkg.packageId) && t.argsHashOk && t.signatureOk && d.sec.ownerHash.isSome) then some 1
    else if t.authCount ≠ d.f FAB_AUTH_COUNT.COUNT then some 2
    else if d.f FAB_AUTH_COUNT.COUNT = 0xFFFFFFFF then some 1
    else none

/-- A valid token is used up before its command runs (R104). -/
def Dev.useAuth (d : Dev) (a : Auth) : Dev :=
  match a with
  | .token _ => (d.incF FAB_AUTH_COUNT.COUNT).saveCounters
  | _ => d

/-- The authority of an accepted command: 0 SPDM session, 1 token (R512). -/
def authCode : Auth → Nat
  | .token _ => 1
  | _ => 0

/-- A MGMT command without authority (R103): STATUS ACCESS_DENIED and FAB_AUTH_REFUSED, whose path item is 0 for a mailbox and 1
for the sideband (assumption 8). The return code of a standard command is a free value (assumption 3). -/
def Dev.refuseAuth (d : Dev) (mb : Mb) (c : MbSpec) (reason : Nat) : Dev :=
  let ret : Ret := if c.vendor then .success else .unstated d.freeVal
  let path := match mb.path with | .sideband => 1 | .port _ _ _ => 0
  (d.tick.raiseR .FAB_AUTH_REFUSED [p2 c.opcode, p4 path, p1 reason]).mbReply mb.path c.opcode ret .accessDenied []

/-- The checks before a command runs, then the command (R100, R103 to R105, R110). -/
def Dev.mbRun (d : Dev) (mb : Mb) (c : MbSpec) (f : Dev → Dev) : Dev :=
  if !d.mbReady mb.path then d
  else if c.pkg && !pathPackage mb.path then d.mbReply mb.path c.opcode .unsupported .unsupported []
  else if pathLimit mb.path < mb.size ∨ mb.size < c.lo ∨ c.hi < mb.size then d.mbReply mb.path c.opcode .invalidPayloadLength .lengthError []
  else if !c.mgmt then f d
  else match d.authReason mb.auth c.opcode with
    | some n => d.refuseAuth mb c n
    | none => f (d.useAuth mb.auth)

/-- A command goes on running after its meaning. -/
def Dev.mbHold (d : Dev) (p : Path) (opcode : Nat) : Dev := { d with mbox := { d.mbox with running := some ⟨p, opcode, true⟩ } }

/-- The running command ends; its completion is delivered unless a function-level reset has discarded it (R553). -/
def Dev.mbEnd (d : Dev) (ret : Ret) (st : Status) (out : Fields) : Dev :=
  match d.mbox.running with
  | none => d
  | some r =>
    let d := { d with mbox := { d.mbox with running := none } }
    if r.deliver then d.mbReply r.path r.opcode ret st out else d

/-- A standard command of OPEN class. -/
def mbOpen (opcode lo hi : Nat) : MbSpec := ⟨opcode, false, false, false, lo, hi⟩

/-- A vendor command of OPEN class with a fixed input size. -/
def mbVend (opcode size : Nat) : MbSpec := ⟨opcode, false, false, true, size, size⟩

/-- A MGMT command of package scope. -/
def mbMgmt (opcode lo hi : Nat) (vendor : Bool) : MbSpec := ⟨opcode, true, true, vendor, lo, hi⟩

end Sys2Proof.Machine
end

