-- ==== Sys2Proof/Machine/SecOps.lean ====
section
/-! DEFINITION. The key vault and the SPDM sessions: writing, shadowing, erasing and counting keys (R531, R533 to R536). -/

namespace Sys2Proof.Machine

open Sys2Proof

/-- A slot's cell; a slot that has never held a key is EMPTY with generation 0 (R534). -/
def Dev.cell (d : Dev) (s : KeySlot) : KeyCell := tgetD d.sec.cells s ⟨none, 0, 0, 0, none⟩

/-- The number of a slot in its bank (R533). -/
def KeySlot.number : KeySlot → Nat
  | .package n => n
  | .ide _ port set sub => (port * 2 + set) * 8 + sub
  | .weld _ link prev => 256 + 2 * link + b2n prev

/-- The die whose link bank holds a slot; 0 for a package slot. -/
def KeySlot.die : KeySlot → Nat
  | .package _ => 0
  | .ide die _ _ _ => die
  | .weld die _ _ => die

/-- The registers of a slot as its cell stands (R551). -/
def Dev.showCell (d : Dev) (s : KeySlot) : Dev :=
  let c := d.cell s
  match s with
  | .package n =>
    let d := (((d.setF SEC_SLOT.ALG c.alg 0 n).setB SEC_SLOT.SHADOW c.shadow.isSome 0 n).setF SEC_SLOT.GEN c.gen 0 n)
    (d.setF SEC_SLOT_USERS.USERS c.users 0 n).setF SEC_SLOT_USERS.SHADOW_USERS (match c.shadow with | some x => x.2.2 | none => 0) 0 n
  | s => d.setF SEC_LINK_STATUS.OCCUPIED (tcount d.sec.cells fun k c => decide (k.die = s.die) && decide (c.alg ≠ 0)) s.die

def Dev.setSec (d : Dev) (f : SecState → SecState) : Dev := { d with sec := f d.sec }

/-- A cell written, with its registers. -/
def Dev.setCell (d : Dev) (s : KeySlot) (c : KeyCell) : Dev := (d.setSec fun x => { x with cells := tset x.cells s c }).showCell s

/-- The next generation: never 0, wrapping from 0xFFFF to 1 (R534). -/
def nextGen (g : Nat) : Nat := if g % 0x10000 = 0xFFFF then 1 else g % 0x10000 + 1

/-- A new key written into a slot (R534, R535): the old key becomes the shadow while jobs hold it. Answers whether it was taken; a
slot whose shadow still has users refuses with BUSY. -/
def Dev.writeKey (d : Dev) (s : KeySlot) (alg key : Nat) : Dev × Bool :=
  let c := d.cell s
  if (match c.shadow with | some x => decide (x.2.2 ≠ 0) | none => false) then (d, false)
  else
    let sh := match c.key with | some k => if c.users ≠ 0 then some (c.gen, k, c.users) else none | none => none
    (d.setCell s ⟨some key, alg, nextGen c.gen, 0, sh⟩, true)

/-- A key reloaded from its blob with the generation that the blob records (R534). -/
def Dev.reloadKey (d : Dev) (s : KeySlot) (alg key gen : Nat) : Dev := d.setCell s ⟨some key, alg, gen, 0, none⟩

/-- A slot erased: key and shadow zeroized, tag EMPTY, generation kept; every job of either generation ends with KEY_ERASED (R536). -/
def Dev.eraseKey (d : Dev) (s : KeySlot) : Dev :=
  let c := d.cell s
  let hit := d.sec.jobs.filter fun j => decide (j.slot = s)
  let d := d.setSec fun x => { x with jobs := x.jobs.filter fun j => decide (j.slot ≠ s) }
  let d := d.setCell s { c with key := none, alg := 0, users := 0, shadow := none }
  let d := d.emits (hit.map fun j => .cipherEnd j.id .keyErased)
  if hit.isEmpty then d else d.raise .SEC_KEY_ERASED_ABORT (if s.die = 0 then bellowsId else s.die) [p1 s.number, p4 hit.length]

/-- A key drawn from the DRBG: a free value (assumption 3, R537). -/
def Dev.drawKey (d : Dev) : Nat × Dev := (d.freeVal, d.tick)

/-- SEC_STATUS.SESSIONS as the sessions stand. -/
def Dev.showSessions (d : Dev) : Dev := d.setF SEC_STATUS.SESSIONS d.sec.sessions.length

/-- The four package slots of a session (R533). -/
def sessionSlots (id : Nat) : List KeySlot := (List.range 4).map fun i => .package (16 + 4 * id + i)

/-- A transport in an event: 0 DOE, 1 sideband, in the order of R529 (assumption 8). -/
def transportCode : Path → Nat
  | .sideband => 1
  | .port _ _ _ => 0

/-- A session ends and its slots are erased (R531, R536). Causes in the order of R531: 0 END_SESSION, 1 a message that fails
decryption, 2 a reset of its transport, 3 an alarm (assumption 8). -/
def Dev.endSession (d : Dev) (id cause : Nat) : Dev :=
  match d.sec.sessions.find? fun s => decide (s.id = id) with
  | none => d
  | some s =>
    let d := d.setSec fun x => { x with sessions := x.sessions.filter fun s => decide (s.id ≠ id) }
    let d := d.forEach (sessionSlots id) fun d k => d.eraseKey k
    d.showSessions.raiseB .SEC_SPDM_SESSION [p1 1, p4 (transportCode s.transport), p1 (b2n s.management), p1 cause]

/-- Every session of some transports ends. -/
def Dev.endSessions (d : Dev) (p : Path → Bool) (cause : Nat) : Dev :=
  d.forEach ((d.sec.sessions.filter fun s => p s.transport).map (·.id)) fun d id => d.endSession id cause

/-- The IDE slots of a port. -/
def ideSlots (die port : Nat) : List KeySlot :=
  ((List.range 2).map fun set => (List.range 8).map fun sub => KeySlot.ide die port set sub).flatten

/-- The IDE slots of a port erased: its streams become insecure (R532, R553). -/
def Dev.eraseIde (d : Dev) (die port : Nat) : Dev :=
  (d.forEach ((ideSlots die port).filter fun s => decide ((d.cell s).alg ≠ 0)) fun d s => d.eraseKey s).setB FAB_PORT_STATUS.IDE_SECURE false die port

end Sys2Proof.Machine
end

