-- ==== Sys2Proof/Machine/Fabric.lean ====
section
/-! DEFINITION. The meanings of the fabric ports' commands (R78 to R99): CXL.mem requests at the fence gate, back-invalidate
answers, links and per-port resets, GPF, and the fabric manager's allocations. -/

namespace Sys2Proof.Machine

open Sys2Proof

def Dev.setFab (d : Dev) (f : FabState → FabState) : Dev := { d with fab := f d.fab }

/-- Whether a port takes CXL.mem messages: it is configured, its link is up, Memory_Active is 1, and its stream is not in the
insecure state (R87, R99). -/
def Dev.portTakes (d : Dev) (die port : Nat) : Bool :=
  d.isDie die && d.swg.cfg.hasPort die port && d.portUp die port && d.fb FAB_PORT_STATUS.MEM_ACTIVE die port &&
    !d.fab.insecure.contains (die, port)

/-- The cause for which a port's access is not served, and its DPA in the package (R79 to R81): a GFAM port's source port ID that
is not enabled counts as outside the allocation. -/
def Dev.accessCause (d : Dev) (die port : Nat) (ld : Option Nat) (host dpa : Nat) : Option Nat × Nat :=
  if d.swg.cfg.portMode die port = 2 ∧ !d.fab.gfam.contains (die, port, host) then (some 1, dpa)
  else match d.dpaOf die port ld dpa with
    | none => (some 1, dpa)
    | some a => (d.unserved a, a)

/-- Whether the twin holds a slab's current data (R161): without a tag there is no heat to compare, and only SYNC counts. -/
def Dev.twinHolds (d : Dev) (slab : Nat) : Bool :=
  match d.lookup slab with
  | some (_, t) => d.twinHoldsAt slab (d.heatOf t.heat)
  | none => d.twinHoldsAt slab (2 ^ 64)

/-- A message takes a credit (R88). -/
def Dev.takeCredit (d : Dev) (F : Fld) (die port : Nat) : Dev := d.setF F (d.f F die port - 1) die port

/-- A credit given back at once. -/
def Dev.giveCredit (d : Dev) (F : Fld) (top die port : Nat) : Dev := d.setF F (Nat.min top (d.f F die port + 1)) die port

/-- MEM_WR (R91, R92): the fence gate accepts the write, which goes to its owning slice, or refuses it: no completion and no credit
back. An accepted write to an address that is not served is completed and not stored (R81). -/
def execMemWr (die port : Nat) (ld : Option Nat) (host dpa : Nat) (data : Line) (be : Mask) (tag : Nat) (s : State) :
    Host.Outcome State Fault Refusal :=
  s.on fun d =>
    if !d.portTakes die port || decide (d.f FAB_PORT_CREDITS.RWD_FREE die port = 0) then d
    else
      let d := d.takeCredit FAB_PORT_CREDITS.RWD_FREE die port
      if d.fence then d.incF FAB_PORT_REFUSED.COUNT die port
      else
        let d := d.countAccepted die port 1
        match d.accessCause die port ld host dpa with
        | (some cause, a) =>
          ((d.countUnserved die port ld a true cause).complete (.port die port host ld) tag).giveCredit FAB_PORT_CREDITS.RWD_FREE 128 die port
        | (none, a) => d.arrive (.port die port host ld) .write (slabOf a) (sectorOf a) data be tag 0

/-- A read of a slab of a die that is out of service goes to the twin (R19). -/
def Dev.readThroughTwin (d : Dev) (src : Src) (slab sector own tag : Nat) : Dev :=
  let r : Req := { rid := d.cru.nextRid, src := src, kind := .read own, slab := slab, sector := sector, data := 0, be := 0, tag := tag,
                   heat := 0, wait := .fetch, since := d.now }
  ((d.setCru fun c => { c with reqs := c.reqs ++ [r], nextRid := c.nextRid + 1 }).returnCredit r).fetch slab

/-- MEM_RD (R41, R81): a read is not gated; it goes to its owning slice, to the twin where R19 says so, or is answered with poison
where its address is not served. -/
def execMemRd (die port : Nat) (ld : Option Nat) (host dpa own tag : Nat) (s : State) : Host.Outcome State Fault Refusal :=
  s.on fun d =>
    if !d.portTakes die port || decide (d.f FAB_PORT_CREDITS.REQ_FREE die port = 0) then d
    else
      let d := d.takeCredit FAB_PORT_CREDITS.REQ_FREE die port
      let src := Src.port die port host ld
      match d.accessCause die port ld host dpa with
      | (some cause, a) =>
        if cause = 5 ∧ d.twinHolds (slabOf a) then d.readThroughTwin src (slabOf a) (sectorOf a) own tag
        else
          let d := d.countUnserved die port ld a false cause
          (d.tick.respond src tag d.anyLine true).giveCredit FAB_PORT_CREDITS.REQ_FREE 256 die port
      | (none, a) => d.arrive src (.read own) (slabOf a) (sectorOf a) 0 0 tag 0

/-- BIRSP (R83): a host's answer to a BISnpInv; requests whose last answer this was go on, and so do maintenance operations. An
answer that nobody awaits changes nothing. -/
def execBirsp (host line : Nat) (s : State) : Host.Outcome State Fault Refusal :=
  s.on fun d =>
    if d.fab.snoops.contains (line, host) then
      let d := (d.dirRemove line host).afterSnoops
      d.setCru fun c => { c with maints := c.maints.map fun m => { m with snooping := m.snooping.filter fun l => d.fab.snoops.any fun e => decide (e.1 = l) } }
    else d

/-- FAB_BI_RESET (R85). -/
def execFabBiReset (mask : Nat) (s : State) : Host.Outcome State Fault Refusal :=
  s.on fun d => d.setFab fun f => { f with biBroadcast := f.biBroadcast.filter fun n => !bit mask n }

/-- Whether a range of the package's DPA space holds dirty slabs. -/
def Dev.dirtyIn (d : Dev) (start size : Nat) : Bool :=
  d.validTags.any (fun e => decide (e.2.mask ≠ 0 ∧ start ≤ e.2.slab * 4096 ∧ e.2.slab * 4096 < start + size)) ||
    d.cru.staging.any fun e => decide (start ≤ e.2.slab * 4096 ∧ e.2.slab * 4096 < start + size)

/-- The logical devices of an MLD port (R50). -/
def SwgCfg.portLds (c : SwgCfg) (die port : Nat) : Nat := if c.portMode die port = 1 then bits (c.fabricQuad die port).flags 4 4 + 1 else 0

/-- FM_LD_ALLOCATE (R79): a size of 0 takes the allocation away. Refused, and nothing changes, when it is not in multiples of
256 MiB within DPA_LIMIT, meets another LD's allocation, or the affected ranges hold dirty slabs. -/
def execFmLdAllocate (die port ld start size : Nat) (s : State) : Host.Outcome State Fault Refusal :=
  s.on fun d =>
    let g := 2 ^ 28
    let old := tgetD d.fab.lds (die, port, ld) (0, 0)
    let meets := d.fab.lds.any fun e => decide (e.1 ≠ (die, port, ld) ∧ start < e.2.1 + e.2.2 ∧ e.2.1 < start + size)
    if !d.swg.cfg.hasPort die port || decide (d.swg.cfg.portLds die port ≤ ld) || decide (start % g ≠ 0 ∨ size % g ≠ 0) ||
        decide (d.swg.cfg.dram.dpaLimit < start + size) || meets || d.dirtyIn old.1 old.2 || d.dirtyIn start size then d
    else d.setFab fun f => { f with lds := if size = 0 then tdel f.lds (die, port, ld) else tset f.lds (die, port, ld) (start, size) }

/-- Whether an accepted write has not passed its Tongs lock yet. -/
def Req.notPassed (r : Req) : Bool := r.wait.holdsLock && decide (r.wait ≠ .staging)

/-- The accepted writes of a port that have not passed their Tongs lock (R94). -/
def Dev.waitingWrites (d : Dev) (die port : Nat) : List Nat :=
  (d.cru.reqs.filter fun r => r.notPassed && decide (r.kind = .write) && match r.src with
    | .port dd pp _ _ => decide (dd = die ∧ pp = port)
    | _ => false).map (·.rid)

/-- GPF_REQUEST (R94): the answer waits for the writes that the port has accepted so far. -/
def execGpfRequest (die port : Nat) (s : State) : Host.Outcome State Fault Refusal :=
  s.on fun d =>
    if !d.isDie die || !d.swg.cfg.hasPort die port || !d.portUp die port then d
    else
      (d.setFab fun f => { f with gpf := f.gpf ++ [⟨die, port, d.waitingWrites die port, d.now⟩] }).raise .FAB_GPF die [p1 1, p1 port, p4 0]

/-- GPF_PHASE2_RESPONSE (R94): sent once every such write has passed its lock. -/
def execGpfPhase2Response (die port : Nat) (s : State) : Host.Outcome State Fault Refusal :=
  s.on fun d =>
    match d.fab.gpf.find? fun g => decide (g.die = die ∧ g.port = port) with
    | none => d
    | some g =>
      if d.cru.reqs.any fun r => g.rids.contains r.rid && r.notPassed then d
      else
        let d := d.setFab fun f => { f with gpf := dropFirst (fun x => decide (x = g)) f.gpf }
        (d.emit (.gpfPhase2 die port)).raise .FAB_GPF die [p1 2, p1 port, p4 (d.now - g.at0)]

/-- Whether a session's transport is the DOE of a port. -/
def pathOnPort (die port : Nat) : Path → Bool
  | .port a b _ => decide (a = die ∧ b = port)
  | .sideband => false

/-- A port's link goes down: LINK_UP, WIDTH, RATE and Memory_Active read 0. -/
def Dev.linkOff (d : Dev) (die port : Nat) : Dev :=
  (((d.setB FAB_PORT_STATUS.LINK_UP false die port).setF FAB_PORT_STATUS.WIDTH 0 die port).setF FAB_PORT_STATUS.RATE 0 die port).setB
    FAB_PORT_STATUS.MEM_ACTIVE false die port

/-- Whether a request came in at a port. -/
def Req.ofPort (r : Req) (die port : Nat) : Bool :=
  match r.src with
  | .port a b _ _ => decide (a = die ∧ b = port)
  | _ => false

/-- A request of a port that is answered no more. -/
def Req.mute (r : Req) (die port : Nat) : Req := if r.ofPort die port then { r with src := .gone } else r

/-- The messages of a port in flight are gone: a read is dropped, an accepted write stays and is not answered (R93). -/
def Dev.dropPortMessages (d : Dev) (die port : Nat) : Dev :=
  d.setCru fun c => { c with reqs := (c.reqs.filter fun r => !(r.ofPort die port && r.isRead)).map fun r => r.mute die port }

/-- A port's credits as after reset (R88). -/
def Dev.resetCredits (d : Dev) (die port : Nat) : Dev := (d.setF FAB_PORT_CREDITS.REQ_FREE 256 die port).setF FAB_PORT_CREDITS.RWD_FREE 128 die port

/-- PERST_N (R93, R553, R556): the port's link, HDM decoders, credits and IDE streams are reset and its DOE's sessions end; the
fence and the persistence domain stay. Without effect during a package reset or a quench. -/
def execPerstN (die port : Nat) (s : State) : Host.Outcome State Fault Refusal :=
  s.on fun d =>
    if !d.inService die || !d.swg.cfg.hasPort die port || d.quenching then d
    else
      let d := ((d.linkOff die port).dropPortMessages die port).resetCredits die port
      let d := d.setFab fun f => { f with hdmDb := f.hdmDb.filter fun r => !(decide (r.die = die ∧ r.port = port)),
                                          insecure := f.insecure.filter fun x => decide (x ≠ (die, port)),
                                          gpf := f.gpf.filter fun g => !(decide (g.die = die ∧ g.port = port)) }
      let d := (d.eraseIde die port).endSessions (pathOnPort die port) 2
      d.raise .FAB_PERST die [p1 port]

/-- FLR (R553): the function's running mailbox command completes inside the device and its completion is discarded. -/
def execFlr (die port : Nat) (ld : Option Nat) (s : State) : Host.Outcome State Fault Refusal :=
  s.on fun d =>
    if !d.inService die || !d.swg.cfg.hasPort die port || d.quenching then d
    else
      let hit : Bool := match d.mbox.running with | some r => decide (r.path = .port die port ld) | none => false
      let code := match d.mbox.running with | some r => if hit then r.opcode else 0 | none => 0
      let d := { d with mbox := { d.mbox with running := d.mbox.running.map fun (r : Running) => { r with deliver := r.deliver && !hit } } }
      let d := d.endSessions (fun p => decide (p = .port die port ld)) 2
      (d.tick.raiseB .RST_FLR [p1 port, p4 (ld.getD d.freeVal), p4 code])

/-- IDE_CHECK_FAIL (R87): the stream becomes insecure; on the CXL.cachemem stream (0) every later message of the port is discarded
until it is secured again. -/
def execIdeCheckFail (die port stream keySlot : Nat) (s : State) : Host.Outcome State Fault Refusal :=
  s.on fun d =>
    if !d.isDie die || !d.swg.cfg.hasPort die port || !d.portUp die port then d
    else
      let d := (d.setB FAB_PORT_STATUS.IDE_SECURE false die port).setB FAB_PORT_STATUS.IDE_FAIL true die port
      let d := if stream = 0 ∧ !d.fab.insecure.contains (die, port) then d.setFab fun f => { f with insecure := f.insecure ++ [(die, port)] } else d
      d.raise .FAB_IDE_FAIL die [p1 port, p4 stream, p1 keySlot]

/-- A rate code in GT/s for an event; 2.5 GT/s has no whole number: its item is a free value (R614, assumption 3). -/
def Dev.rateGts (d : Dev) (code : Nat) : Nat := [d.freeVal % 256, 8, 16, 32, 64].getD code 0

/-- FAB_LINK_UP (R86, R99): the port trains to the highest rate that MAX_RATE allows; Memory_Active returns with the link once the
gates have reopened. No port trains in the no-image state (R64, R98). -/
def execFabLinkUp (die port width rate : Nat) (s : State) : Host.Outcome State Fault Refusal :=
  s.on fun d =>
    if !d.inService die || !d.swg.cfg.hasPort die port || d.quenching || !d.swg.loaded || d.portUp die port then d
    else
      let rate := Nat.min rate (d.swg.cfg.fabricQuad die port).rate
      let width := Nat.min width (4 * widthQuads (d.swg.cfg.fabricQuad die port).width)
      let d := ((d.setB FAB_PORT_STATUS.LINK_UP true die port).setF FAB_PORT_STATUS.WIDTH width die port).setF FAB_PORT_STATUS.RATE rate die port
      let d := d.setB FAB_PORT_STATUS.MEM_ACTIVE (!d.fence) die port
      d.tick.raise .FAB_LINK_UP die [p1 port, p1 width, p1 (d.rateGts rate)]

/-- FAB_LINK_DOWN (R86): lanes fail and the port goes on at a lower width, or its link is lost. -/
def execFabLinkDown (die port : Nat) (width : Option Nat) (ltssm : Nat) (s : State) : Host.Outcome State Fault Refusal :=
  s.on fun d =>
    if !d.isDie die || !d.swg.cfg.hasPort die port || !d.portUp die port then d
    else match width with
      | some w =>
        let old := d.f FAB_PORT_STATUS.WIDTH die port
        if w < old then (d.setF FAB_PORT_STATUS.WIDTH w die port).raise .FAB_WIDTH_CHANGED die [p1 port, p1 old, p1 w] else d
      | none =>
        let d := ((d.linkOff die port).dropPortMessages die port).resetCredits die port
        d.raise .FAB_LINK_DOWN die [p1 port, p4 ltssm]

/-- GFAM_ACCESS_TABLE_SET (R80): the table holds 1,024 entries; one more is not taken. -/
def execGfamAccessTableSet (die port spid : Nat) (enable : Bool) (s : State) : Host.Outcome State Fault Refusal :=
  s.on fun d =>
    if !d.isDie die || !d.swg.cfg.hasPort die port || decide (d.swg.cfg.portMode die port ≠ 2) then d
    else if !enable then d.setFab fun f => { f with gfam := f.gfam.filter fun e => decide (e ≠ (die, port, spid)) }
    else if d.fab.gfam.contains (die, port, spid) ||
        decide (1024 ≤ (d.fab.gfam.filter fun e => decide (e.1 = die ∧ e.2.1 = port)).length) then d
    else d.setFab fun f => { f with gfam := f.gfam ++ [(die, port, spid)] }

end Sys2Proof.Machine
end

