-- ==== Sys2Proof/Machine/LossOps.lean ====
section
/-! DEFINITION. What a restore loses (R95, R161, R283): the Dirty Shutdown Count, and the slabs of segments that failed. -/

namespace Sys2Proof.Machine

open Sys2Proof

def Dev.setRht (d : Dev) (f : RhtState → RhtState) : Dev := { d with rht := f d.rht }

/-! ### Slabs of failed segments (R95, R283) -/

/-- The preceding power-down lost data, with the place of its cause in R95's list: once a start-up, and where the stored Shutdown State
is dirty, the Dirty Shutdown Count moves (R95, R272). -/
def Dev.dscLoss (d : Dev) (cause : Nat) : Dev :=
  if d.rht.counted || !d.fb FAB_SHUTDOWN_STATE.DIRTY then d
  else
    let d := (d.setRht fun x => { x with counted := true }).incF FAB_DSC.COUNT
    d.saveCounters.raiseR .FAB_DSC_INCREMENTED [p4 (d.f FAB_DSC.COUNT), p1 cause]

/-- A slab leaves the reheat index. -/
def Dev.unpend (d : Dev) (slab : Nat) : Dev :=
  let p := tdel d.rht.pending slab
  (d.setRht fun x => { x with pending := p }).setF RHT_PENDING.COUNT p.length

/-- A slab of a failed segment with no twin copy (R283): POISONED where host writes have masked sectors of it, else INVALID and on the
poison list without a frame. -/
def Dev.loseRestored (d : Dev) (slab : Nat) : Dev :=
  let d := (d.setRht fun x => { x with judge := x.judge.filter fun y => decide (y ≠ slab) }).incF RHT_LOST_SLABS.COUNT
  let d := match d.lookup slab with
    | some (_, t) =>
      if t.mask ≠ 0 then d.loseFill slab 0
      else (d.poisonWaiting slab).invalidate slab
    | none => d
  let d := if (d.lookup slab).isSome then d
    else (d.addPoison slab fullMask).setCru fun c => { c with frameless := if c.frameless.contains slab then c.frameless else c.frameless ++ [slab] }
  (d.answerOwed slab).dscLoss 2

/-- The decision on a slab of a failed segment (R161, R283): fetched from a twin that holds it, else lost. A region that this side
holds as SHADOW or REJOINING is served by the twin. -/
def Dev.settleFailed (d : Dev) (slab : Nat) : Dev :=
  let d := d.unpend slab
  let byRole := match d.regionOf slab with
    | some n => match (d.region n).role with
      | .shadow => decide (d.pair = 1) && !d.usable.isEmpty && !d.version1
      | .rejoining => decide (d.pair = 1) && !d.usable.isEmpty && !d.version1
      | _ => d.twinHoldsAt slab (d.rht.lastHeat - tgetD d.rht.deltas slab 0)
    | none => false
  if byRole && (d.lookup slab).isSome then (d.setCru fun c => { c with fills := tset c.fills slab true }).fetch slab
  else d.loseRestored slab

/-- Whether the decision on a slab waits for the join: its region is mirrored and has no role yet (R283). -/
def Dev.waitsJoin (d : Dev) (slab : Nat) : Bool :=
  match d.regionOf slab with
  | some n => decide (d.mirror n ≠ 0) && decide ((d.region n).role = .fenced)
  | none => false

/-- The slabs of a region's failed segments are decided once the region has a role (R283); a split slab waits for its other segment. -/
def Dev.judgeRegion (d : Dev) (n : Nat) : Dev :=
  d.forEach (d.rht.judge.filter fun x => decide (d.regionOf x = some n ∧ tget d.rht.pending x = some [])) fun d x => d.settleFailed x

end Sys2Proof.Machine
end

