-- ==== Sys2Proof/Machine/CrucOps.lean ====
section
/-! DEFINITION. The Crucible's recovery steps and what the other engines call of it: a partial write that meets uncorrectable data,
the answer or the failure of a FETCH, the staging buffers' backing commands, retries of held requests, and the end of a set
rebuild (R131 to R144, R155 to R162, R331). -/

namespace Sys2Proof.Machine

open Sys2Proof

/-- What a tag lookup's outcome does before the request is admitted (R155 to R157). Answers whether the request goes on. -/
def Dev.takeLook (d : Dev) (r : Req) (look : TagLook) : Dev × Bool :=
  let s := d.owner r.slab
  match look with
  | .hit => (d, true)
  | .miss => (d.incF CRUC_TAGC_MISSES.COUNT s, true)
  | .corrected => (d.incF CRUC_TAG_CORRECTED.COUNT s, true)
  | .cacheError way => ((d.incF CRUC_TAG_ERRORS.COUNT s).raiseC .CRUC_TAG_PARITY r.slab [p4 (d.setOf r.slab).set, p1 way, p1 0], true)
  | .lost ways cacheWay =>
    let d := match cacheWay with
      | some w => d.raiseC .CRUC_TAG_PARITY r.slab [p4 (d.setOf r.slab).set, p1 w, p1 1]
      | none => d
    ((d.startRebuild r.slab ways).hold r .rebuild, false)

/-- A partial write that meets uncorrectable data in its sector (R142, R159, R160): an unmasked sector is refetched and the write
goes on over the FILLING slab; a masked one is recovered from the twin or poisoned first. -/
def Dev.writeBad (d : Dev) (r : Req) : Dev :=
  match d.lookup r.slab with
  | none => d.coherent r false
  | some (_, t) =>
    if t.state = .destaging ∨ t.state = .filling then d
    else if !t.mask.getLsbD r.sector then
      if t.state = .poisoned then d.coherent r false
      else
        let d := d.modTag r.slab fun t => { t with state := .filling }
        (d.raiseC .CRUC_DATA_UE_REFETCHED r.slab [p5 r.slab, p1 r.sector]).coherent r false
    else if d.twinHoldsAt r.slab (d.heatOf t.heat) && !d.quenching then (d.recover r.slab r.sector).hold r .fetch
    else (d.poisonSector r.slab r.sector 1).coherent r false

/-- Whether a request may take its turn at its Tongs lock now. -/
def Dev.mayAdmit (d : Dev) (r : Req) : Bool :=
  decide (r.wait = .arrival) && !d.behind r && !d.atSwitch r && !d.rebuilding r.slab &&
    !(d.fab.d2d.any fun l => decide (l.1 = (d.place r.slab).die))

/-- An access to a frozen channel (R389): a read is served through the twin where it holds the slab, and else gets poison, the slab's
state and the poison list unchanged; everything else is held at its lock. -/
def Dev.admitFrozen (d : Dev) (r : Req) : Dev :=
  if !r.isRead then d
  else if d.twinHoldsAt r.slab 0 then ((d.returnCredit r).hold r .fetch).fetch r.slab
  else (d.returnCredit r).finishRead r true

/-- One request admitted: WRITE_ADMIT and READ_ADMIT (R127 to R144). -/
def Dev.admitOne (d : Dev) (r : Req) (look : TagLook) (bad : Bool) : Dev :=
  if !d.mayAdmit r then d
  else if d.frozenSlab r.slab then d.admitFrozen r
  else
    let (d, go) := d.takeLook r look
    if !go then d
    else
      let d := d.countLookup r
      if bad && !r.isRead && !r.isFull then d.writeBad r else d.coherent r bad

/-- Whether a held request's allocation may be retried with an outcome (R134, R135). -/
def Dev.mayRetry (d : Dev) (r : Req) : Bool :=
  match r.wait with
  | .setStall v =>
    let st := d.stateOf v
    decide (st ≠ SlabState.dirty ∧ st ≠ SlabState.destaging)
  | .way _ =>
    match d.choose (d.setOf r.slab) with
    | .way _ _ => true
    | .stall _ => false
    | .none _ => decide (r.kind = .write) && !d.cru.frameless.contains r.slab && !d.nsFailed r.slab
  | _ => false

/-! ### The twin's answers (R331) -/

/-- Whether a request that waits for the twin stands on a slab with a valid tag here. -/
def Dev.waitsHere (d : Dev) (r : Req) : Bool :=
  (d.lookup r.slab).isSome && d.inService (d.place r.slab).die && !d.frozenSlab r.slab

/-- The requests of a slab that wait for the twin, once its lines are known: a slab without a frame here is answered from them and
not written; the others go on over the rewritten sectors (R19, R135, R160). -/
def Dev.serveFetched (d : Dev) (slab : Nat) (ls : List Line) : Dev :=
  d.forEach (d.cru.reqs.filter fun r => decide (r.slab = slab ∧ r.wait = .fetch)) fun d r =>
    if d.waitsHere r then d.coherent { r with wait := .arrival } false
    else if r.isRead then (d.respond r.src r.tag (ls.getD r.sector 0) false).endReq r.rid
    else d

/-- A staging buffer takes the lines it still misses; its write goes out, and its lines are mirrored (R144, R325). -/
def Dev.fillStaging (d : Dev) (rid : Nat) (g : Staging) (ls : List Line) : Dev :=
  let lines := (List.range 64).map fun i =>
    match tget g.be i with
    | some en => (i, mergeLine (ls.getD i 0) (tgetD g.lines i 0) en)
    | none => if g.valid.getLsbD i then (i, tgetD g.lines i 0) else (i, ls.getD i 0)
  let g := { g with valid := fullMask, lines := lines, be := [] }
  let d := d.runStaging rid g
  match d.regionOf g.slab with
  | some n =>
    if (d.region n).mirroring ∧ d.pair = 1 then
      d.forEach ((List.range 64).filter fun i => g.wrote.getLsbD i) fun d i =>
        d.queueEntry g.slab d.openHeat ⟨g.slab, i, false, tgetD g.lines i 0⟩ (some rid)
    else d
  | none => d

/-- FETCH_DATA lands (R331): as a fill of a FILLING slab, in a staging buffer, in a set under rebuild, over sectors that wait for it,
or as the answer of a request. -/
def Dev.fetchLands (d : Dev) (slab : Nat) (ls : List Line) : Dev :=
  let d := if tget d.cru.fills slab = some true then d.landFill slab ls else d
  let d := if d.rebuilding slab then d.setCru fun c => { c with fetched := tset c.fetched slab ls } else d
  let heat := match d.lookup slab with | some (_, t) => d.heatOf t.heat | none => 0
  let here := d.cru.recover.filter fun e => decide (e.1 = slab)
  let d := d.setCru fun c => { c with recover := c.recover.filter fun e => decide (e.1 ≠ slab) }
  let d := d.forEach here fun d e =>
    (d.setLine slab e.2 (ls.getD e.2 0)).raiseC .CRUC_DATA_UE_RECOVERED slab [p5 slab, p1 e.2, p8 heat]
  let d := match d.stagingOf slab with
    | some (rid, g) => if g.valid = fullMask ∨ g.phase = 3 then d else d.fillStaging rid g ls
    | none => d
  d.serveFetched slab ls

/-- A FETCH has failed: the twin does not hold the slab (R161, R331). -/
def Dev.fetchFails (d : Dev) (slab : Nat) : Dev :=
  let d := if d.rht.judge.contains slab then d.loseRestored slab
    else if tget d.cru.fills slab = some true then d.failFillHere slab 0 else d
  let here := d.cru.recover.filter fun e => decide (e.1 = slab)
  let d := d.setCru fun c => { c with recover := c.recover.filter fun e => decide (e.1 ≠ slab) }
  let d := d.forEach here fun d e => d.poisonSector slab e.2 1
  d.forEach (d.cru.reqs.filter fun r => decide (r.slab = slab ∧ r.wait = .fetch)) fun d r =>
    if d.waitsHere r then d.coherent { r with wait := .arrival } false
    else if r.isRead then d.finishRead r true else d

/-! ### The ends of backing commands (R135, R140, R144) -/

/-- A maintenance operation that has started the destage of a slab is done with it (R149). -/
def Dev.cleanDone (d : Dev) (slab : Nat) : Dev :=
  d.setCru fun c => { c with maints := c.maints.map fun m =>
    if m.next = slab ∧ m.cleaning ∧ m.op = .clean then { m with cleaning := false, next := m.next + 1 } else m }

/-- A staging buffer's command has failed: it is issued again no sooner than 1 s later (R144). -/
def Dev.stagingFailed (d : Dev) (rid : Nat) (g : Staging) (status : Nat) : Dev :=
  let d := (d.setStaging rid { g with phase := 2 }).raiseC .CRUC_DESTAGE_FAIL g.slab [p5 g.slab, p2 status]
  d.setCru fun c => { c with notBefore := tset c.notBefore g.slab (d.now + 1000000000) }

/-- An uncached read's backing read ends (R135, R143): the line is returned; a failed read goes to the twin where it holds the slab,
else it gets poison (R356). -/
def Dev.uncachedDone (d : Dev) (rid : Nat) (ok : Bool) (data : List Line) : Dev :=
  match d.req rid with
  | none => d
  | some r =>
    if r.wait ≠ .uncached ∨ d.quenching then d
    else if ok && !d.cru.poison.contains (r.slab, r.sector) then
      (d.respond r.src r.tag ((d.decrypt r.slab data).getD r.sector 0) false).endReq rid
    else if ok then d.finishRead r true
    else if d.twinHolds r.slab then (d.hold r .fetch).fetch r.slab
    else d.finishRead r true

/-- A staging buffer's backing read ends (R144): the read merges and the write goes out; after a failure the missing sectors come from
the twin where it holds the slab, else the command is retried. -/
def Dev.stageReadDone (d : Dev) (rid : Nat) (ok : Bool) (status : Nat) (data : List Line) : Dev :=
  match tget d.cru.staging rid with
  | none => d
  | some g =>
    if g.phase ≠ 0 ∨ d.quenching then d
    else if ok then d.fillStaging rid g (d.decrypt g.slab data)
    else
      let d := d.stagingFailed rid g status
      if d.twinHolds g.slab then d.fetch g.slab else d

/-- A staging buffer's backing write ends (R144): the buffer is freed, a clean entry is mirrored, and the write completes. -/
def Dev.stageWriteDone (d : Dev) (rid : Nat) (ok : Bool) (status : Nat) : Dev :=
  match tget d.cru.staging rid, d.req rid with
  | some g, some r =>
    if g.phase ≠ 1 ∨ d.quenching then d
    else if ok then
      let d := d.setCru fun c => { c with staging := tdel c.staging rid, notBefore := tdel c.notBefore g.slab }
      let d := if r.be = fullMask then d.delPoison g.slab (bitMask r.sector) else d
      let d := if (d.mirrorsSlab g.slab).isSome then d.mirrorClean g.slab d.openHeat g.wrote else d
      (d.finishWrite r (d.awaitsAck r)).ceilCheck
    else d.stagingFailed rid g status
  | _, _ => d

/-! ### Destage selection (R139) -/

/-- A set stall or a written-through write waits for a slab's destage: it takes precedence (R134, R139). -/
def Dev.prior (d : Dev) (slab : Nat) : Bool :=
  d.cru.reqs.any fun r => decide (r.wait = .setStall slab ∨ (r.wait = .destage ∧ r.slab = slab))

/-- The DIRTY slabs that the destage engine may select now: it runs, the ceiling or DRAINING asks for it, a set stall waits, or the
slab is due by IDLE_MS (R139, R140, R143, R211). -/
def Dev.wanted (d : Dev) (t : Tag) : Bool :=
  decide (t.state = .dirty) && d.selectable t.slab && !d.frozenSlab t.slab && decide (tgetD d.cru.notBefore t.slab 0 ≤ d.now) &&
    (d.cru.engine || decide (d.ceilState ≠ 0 ∨ d.f CRUC_MODE.CURRENT = 3) || d.cru.idleDue.contains t.slab || d.prior t.slab ||
      d.cru.first.contains t.slab || decide ((d.ns (d.nsOf t.slab)).state = .detaching))

/-- Whether the engine selects a slab next: out of turn where something waits for it or it is due (R139), or its namespace detaches
(R360); then the slabs that were stranded (R359), and else the oldest heat. -/
def Dev.selects (d : Dev) (slab : Nat) : Bool :=
  match d.lookup slab with
  | none => false
  | some (_, t) =>
    d.wanted t && (d.prior slab || d.cru.idleDue.contains slab || decide ((d.ns (d.nsOf slab)).state = .detaching) ||
      d.validTags.all fun e => !d.wanted e.2 || (d.cru.first.contains slab && !d.cru.first.contains e.2.slab) ||
        (decide (d.cru.first.contains slab = d.cru.first.contains e.2.slab) && decide (d.heatOf t.heat ≤ d.heatOf e.2.heat)))

/-- A destage read that meets uncorrectable data ends the destage without a write (R142): unmasked sectors are refetched, masked
ones recovered from the twin or poisoned. -/
def Dev.destageBad (d : Dev) (slab : Nat) (bad : Mask) : Dev :=
  match d.lookup slab with
  | none => d
  | some (_, t) =>
    let hit := (List.range 64).filter fun i => bad.getLsbD i
    let masked := hit.filter fun i => t.mask.getLsbD i
    let plain := hit.filter fun i => !t.mask.getLsbD i
    let d := if d.twinHoldsAt slab (d.heatOf t.heat) then d.forEach masked fun d i => d.recover slab i
      else d.forEach masked fun d i => d.poisonSector slab i 1
    let d := d.setCru fun c => { c with idleDue := c.idleDue.filter fun x => decide (x ≠ slab), notBefore := tset c.notBefore slab (d.now + 1000000000) }
    if plain.isEmpty || decide (d.stateOf slab = .poisoned) then d
    else
      let d := d.modTag slab fun t => { t with state := .filling }
      let d := d.forEach plain fun d i => d.raiseC .CRUC_DATA_UE_REFETCHED slab [p5 slab, p1 i]
      d.issueFill slab

/-- A set rebuild ends (R157): the lost tags are INVALID; each candidate is DIRTY with the twin's lines, POISONED, or, without a
free way, on the poison list without a frame; the requests of the set go on. -/
def Dev.endRebuild (d : Dev) (k : SetKey) (lost : List Nat) : Dev :=
  let cands := d.candidates k lost
  let slice := match cands ++ (d.setTags k).map (·.2.slab) with | x :: _ => d.owner x | [] => sliceId k.die 0
  let gone := ((d.setTags k).filter fun e => lost.contains e.1).map (·.2.slab)
  let d := d.setCru fun c => { c with reqs := c.reqs.map fun r => if gone.contains r.slab ∧ r.wait = .fill then { r with wait := .rebuild } else r }
  let d := d.forEach gone fun d x => d.invalidate x
  let place (d : Dev) (x : Nat) : Dev :=
    let heat := maxOf (d.journalHeats x)
    match d.choose k with
    | .way w .none =>
      match tget d.cru.fetched x with
      | some ls =>
        let d := (d.allocate x w .none .dirty).modTag x fun t => { t with mask := fullMask, heat := heat % 256 }
        d.forEach (List.range 64) fun d i => d.setLine x i (ls.getD i 0)
      | none => ((d.allocate x w .none .poisoned).addPoison x fullMask).raiseC .CRUC_SLAB_POISONED x [p5 x, p4 64, p1 2]
    | _ => ((d.setCru fun c => { c with frameless := c.frameless ++ [x] }).addPoison x fullMask).raiseC .CRUC_SLAB_POISONED x [p5 x, p4 64, p1 2]
  let rec' := (cands.filter fun x => (tget d.cru.fetched x).isSome).length
  let d := d.forEach cands place
  let d := d.setCru fun c => { c with rebuilds := tdel c.rebuilds k, fetched := c.fetched.filter fun e => !cands.contains e.1 }
  let d := d.setB CRUC_SLICE_STATUS.REBUILDING (d.cru.rebuilds.any fun e => decide (e.1.die = k.die ∧ e.1 ≠ k)) slice
  let d := (d.raise .CRUC_TAG_LINE_LOST slice [p4 k.set, p2 (maskOf lost), p4 cands.length, p4 rec', p4 (cands.length - rec')]).ceilCheck
  let d := d.forEach cands fun d x => d.completeThrough x none
  d.forEach (d.cru.reqs.filter fun r => decide (d.setOf r.slab = k) && decide (r.wait = .rebuild)) fun d r =>
    (d.countLookup r).coherent { r with wait := .arrival } false

end Sys2Proof.Machine
end

