-- ==== Sys2Proof/Machine/Crucible.lean ====
section
/-! DEFINITION. The meanings of the Crucible's own steps (R127 to R144, R155 to R162): admission at the Tongs lock, fills, destages,
set stalls, uncached and BYPASS accesses, and the end of a set rebuild. -/

namespace Sys2Proof.Machine

open Sys2Proof

/-- WRITE_ADMIT (R142): a host write or a Weld receive entry takes its turn at its slab's lock. -/
def execWriteAdmit (rid : Nat) (look : TagLook) (bad : Bool) (s : State) : Host.Outcome State Fault Refusal :=
  s.on fun d =>
    match d.req rid with
    | some r => if r.isRead then d else d.admitOne r look bad
    | none => d

/-- READ_ADMIT (R142): a read takes its turn at its slab's lock; `bad`: the Anvil code finds its sector uncorrectable. -/
def execReadAdmit (rid : Nat) (look : TagLook) (bad : Bool) (s : State) : Host.Outcome State Fault Refusal :=
  s.on fun d =>
    match d.req rid with
    | some r => if r.isRead then d.admitOne r look bad else d
    | none => d

/-- FILL_LANDS (R138): the backing read of a fill in flight has come, as ciphertext. A fill that T0 has abandoned never lands
(R164), and a frozen channel holds it (R389). -/
def execFillLands (slab : Nat) (data : List Line) (s : State) : Host.Outcome State Fault Refusal :=
  s.on fun d => if tget d.cru.fills slab = some false ∧ !d.quenching ∧ !d.frozenSlab slab then d.landFill slab (d.decrypt slab data) else d

/-- FILL_FAIL (R142), with the NVMe status. -/
def execFillFail (slab status : Nat) (s : State) : Host.Outcome State Fault Refusal :=
  s.on fun d => if tget d.cru.fills slab = some false ∧ !d.quenching then d.failFill slab status else d

/-- DESTAGE_SELECT (R139, R140): `bad` names the sectors that the destage read finds uncorrectable. -/
def execDestageSelect (slab : Nat) (bad : Mask) (s : State) : Host.Outcome State Fault Refusal :=
  s.on fun d =>
    if !d.selects slab || d.quenching then d
    else if bad = 0 then d.startDestage slab else d.destageBad slab bad

/-- IDLE_DESTAGE_TIMER (R139): a DIRTY slab not written for IDLE_MS is due; 0 disables idle destage. -/
def execIdleDestageTimer (slab : Nat) (s : State) : Host.Outcome State Fault Refusal :=
  s.on fun d =>
    if d.stateOf slab = .dirty ∧ d.f CRUC_DESTAGE_CTRL.IDLE_MS ≠ 0 ∧ !d.cru.idleDue.contains slab then
      d.setCru fun c => { c with idleDue := c.idleDue ++ [slab] }
    else d

/-- DESTAGE_COMPLETE (R140): a CLEAN that started this destage is done with the slab (R149). -/
def execDestageComplete (slab : Nat) (s : State) : Host.Outcome State Fault Refusal :=
  s.on fun d => if (tget d.cru.destages slab).isSome ∧ !d.quenching then (d.endDestage slab).cleanDone slab else d

/-- DESTAGE_FAIL (R140). -/
def execDestageFail (slab status : Nat) (s : State) : Host.Outcome State Fault Refusal :=
  s.on fun d => if d.quenching then d else d.failDestage slab status

/-- SET_STALL_RETRY (R134, R135): the request retries its allocation once the victim of its stall has been cleaned, or a way or the
namespace has come. -/
def execSetStallRetry (rid : Nat) (s : State) : Host.Outcome State Fault Refusal :=
  s.on fun d =>
    match d.req rid with
    | some r => if d.mayRetry r && !d.quenching then d.admitReq r false else d
    | none => d

/-- Why no way of a set can be taken, by the place in CRUC_SET_STALL_HELD's list: SHADOW ranges, a backing hold, stranded slabs,
reheat-pending slabs. -/
def Dev.heldCause (d : Dev) (k : SetKey) : Nat :=
  let dirty := ((d.setTags k).filter fun e => decide (e.2.state = .dirty ∨ e.2.state = .filling)).map (·.2.slab)
  let inHold (x : Nat) : Bool := match d.regionOf x with | some n => d.backHeld n | none => false
  let shadow (x : Nat) : Bool := match d.regionOf x with | some n => !(d.region n).role.served | none => false
  if dirty.any shadow then 0 else if dirty.any inHold then 1 else if dirty.any d.isPending then 3 else 2

/-- The requests that wait for a way of a set (R135). -/
def Dev.wayWaiters (d : Dev) (k : SetKey) : Nat :=
  (d.cru.reqs.filter fun q => decide (d.setOf q.slab = k) && match q.wait with | .way _ => true | _ => false).length

/-- SET_STALL_HELD_TIMER (R135): a wait of 1 ms is reported, at most once per set per second. -/
def execSetStallHeldTimer (rid : Nat) (s : State) : Host.Outcome State Fault Refusal :=
  s.on fun d =>
    match d.req rid with
    | none => d
    | some r =>
      match r.wait with
      | .way _ =>
        let k := d.setOf r.slab
        let due : Bool := match tget d.cru.heldAt k with | some t => decide (t + 1000000000 ≤ d.now) | none => true
        if due then
          (d.setCru fun c => { c with heldAt := tset c.heldAt k d.now }).raiseC .CRUC_SET_STALL_HELD r.slab
            [p4 k.set, p1 (d.heldCause k), p4 (d.wayWaiters k)]
        else d
      | _ => d

/-- UNCACHED_READ_DONE (R135, R143). -/
def execUncachedReadDone (rid : Nat) (ok : Bool) (data : List Line) (s : State) : Host.Outcome State Fault Refusal :=
  s.on fun d => d.uncachedDone rid ok data

/-- BYPASS_BACKING_READ_DONE (R144). -/
def execBypassBackingReadDone (rid : Nat) (ok : Bool) (status : Nat) (data : List Line) (s : State) : Host.Outcome State Fault Refusal :=
  s.on fun d => d.stageReadDone rid ok status data

/-- BYPASS_BACKING_WRITE_DONE (R144). -/
def execBypassBackingWriteDone (rid : Nat) (ok : Bool) (status : Nat) (s : State) : Host.Outcome State Fault Refusal :=
  s.on fun d => d.stageWriteDone rid ok status

/-- BYPASS_RETRY (R144): the failed command is issued again. -/
def execBypassRetry (rid : Nat) (s : State) : Host.Outcome State Fault Refusal :=
  s.on fun d =>
    match tget d.cru.staging rid with
    | some g => if g.phase = 2 ∧ !d.quenching then d.runStaging rid g else d
    | none => d

/-- SET_REBUILD_DONE (R157), of the set of a slab: the twin's answers have come, or T0 has put poison in their place (R162). -/
def execSetRebuildDone (slab : Nat) (s : State) : Host.Outcome State Fault Refusal :=
  s.on fun d =>
    let k := d.setOf slab
    match tget d.cru.rebuilds k with
    | none => d
    | some lost => if (d.candidates k lost).any (fun x => (tget d.weld.fetches x).isSome) && !d.quenching then d else d.endRebuild k lost

end Sys2Proof.Machine
end

