-- ==== Sys2Proof/Machine/Modes.lean ====
section
/-! DEFINITION. The cache modes (R143 to R148, R165). -/

namespace Sys2Proof.Machine

open Sys2Proof

/-- A mode is entered: CRUC_MODE_CHANGED with the old mode, the new one and the generation (R171). -/
def Dev.enterMode (d : Dev) (mode : Nat) : Dev :=
  let old := d.f CRUC_MODE.CURRENT
  let d := ((d.setF CRUC_MODE.CURRENT mode).setF CRUC_MODE.TARGET mode).setB CRUC_MODE.DRAIN_BLOCKED false
  d.raiseR .CRUC_MODE_CHANGED [p1 old, p1 mode, p4 d.gen]

/-- DRAINING or SWEEPING toward a mode. -/
def Dev.headFor (d : Dev) (mode target : Nat) : Dev := (d.setF CRUC_MODE.CURRENT mode).setF CRUC_MODE.TARGET target

/-- A mode request (R145): 0 WRITE_BACK, 1 WRITE_THROUGH, 2 BYPASS. Answers BUSY during a sweep. -/
def Dev.modeRequest (d : Dev) (m : Nat) : Dev × Status :=
  let cur := d.f CRUC_MODE.CURRENT
  if cur = 4 then (d, .busy)
  else if cur = 3 then
    if m = 0 then ((d.headFor 0 0).setB CRUC_MODE.DRAIN_BLOCKED false, .ok) else (d.setF CRUC_MODE.TARGET m, .ok)
  else if cur = m then (d, .ok)
  else if cur = 2 then
    if d.gen < 15 then ((d.setF CRUC_MODE.GENERATION (d.gen + 1)).enterMode m, .ok)
    else ((((d.headFor 4 m).setF CRUC_SWEEP.PERMILLE 0).raiseR .CRUC_GEN_SWEEP [p1 0, p1 m]), .ok)
  else if m = 0 then (d.headFor 0 0, .ok)
  else (d.headFor 3 m, .ok)

/-- CRUC_MODE_REQUEST (R145, R167): REQUEST value 3 is reserved and changes nothing; mode requests stop at T0 (R165). -/
def execCrucModeRequest (request : Nat) (s : State) : Host.Outcome State Fault Refusal :=
  s.on fun d =>
    if d.quenching ∨ 2 < request then d
    else
      let (d, st) := d.modeRequest request
      if st = Status.busy then d.setB CRUC_MODE.REQ_REFUSED true else d

/-- The number of POISONED slabs. -/
def Dev.poisonedSlabs (d : Dev) : Nat := (d.validTags.filter fun e => decide (e.2.state = .poisoned)).length

/-- DRAIN_EXIT_CHECK (R145, R146): a POISONED slab blocks the drain; without one, D = 0 and no written-through write in flight end
it. -/
def execDrainExitCheck (s : State) : Host.Outcome State Fault Refusal :=
  s.on fun d =>
    if d.f CRUC_MODE.CURRENT ≠ 3 ∨ d.quenching then d
    else
      let n := d.poisonedSlabs
      if n ≠ 0 then
        if d.fb CRUC_MODE.DRAIN_BLOCKED then d
        else (d.setB CRUC_MODE.DRAIN_BLOCKED true).raiseR .CRUC_DRAIN_BLOCKED [p4 n]
      else
        let d := d.setB CRUC_MODE.DRAIN_BLOCKED false
        if d.D = 0 ∧ !(d.cru.reqs.any fun r => decide (r.wait = .destage)) then d.enterMode (d.f CRUC_MODE.TARGET) else d

/-- GENERATION_SWEEP_DONE (R145, R147): every tag is INVALID with GEN 0, and the target mode is entered. -/
def execGenerationSweepDone (s : State) : Host.Outcome State Fault Refusal :=
  s.on fun d =>
    if d.f CRUC_MODE.CURRENT ≠ 4 ∨ d.quenching then d
    else
      let target := d.f CRUC_MODE.TARGET
      let d := d.setCru fun c => { c with tags := [], dram := c.dram.filter fun e => c.staging.any fun g => decide (g.2.slab = e.1.1) }
      let d := ((d.setF CRUC_MODE.GENERATION 0).setF CRUC_SWEEP.PERMILLE 1000).raiseR .CRUC_GEN_SWEEP [p1 1, p1 target]
      d.enterMode target

end Sys2Proof.Machine
end

