-- ==== Sys2Proof/Machine/MaintOps.lean ====
section
/-! DEFINITION. Maintenance by address (R149 to R154, R169, R587): a request is a range of slabs; each of its operations acts on one
slab at its Tongs lock. -/

namespace Sys2Proof.Machine

open Sys2Proof

def Dev.maint (d : Dev) (id : Nat) : Option Maint := d.cru.maints.find? fun m => decide (m.id = id)

def Dev.setMaint (d : Dev) (m : Maint) : Dev := d.setCru fun c => { c with maints := c.maints.map fun x => if x.id = m.id then m else x }

/-- The code of an operation (R110, R169). -/
def maintOpOf (n : Nat) : Option MaintOp := [MaintOp.clean, .invalidate, .evict, .pin, .unpin, .fillAhead][n]?

/-- A maintenance request enters. -/
def Dev.addMaint (d : Dev) (origin : MaintFrom) (first count : Nat) (op : MaintOp) (discard : Bool) (owners : Option (List Nat)) (base top : Nat) : Dev :=
  let m : Maint := { id := d.cru.nextMaint, origin := origin, first := first, count := count, op := op, discard := discard, owners := owners,
                     base := base, top := top, next := first, ended := none, cleaning := false, snooped := false, snooping := [] }
  d.setCru fun c => { c with maints := c.maints ++ [m], nextMaint := c.nextMaint + 1 }

/-- The dies on which a request keeps others waiting (R169, R587); the mailbox's requests keep to their own order. -/
def Maint.onDie (m : Maint) : Option Nat :=
  match m.origin with
  | .mailbox => none
  | .smith die => some die
  | .hcb _ slice => some (slice / 16)

/-- Whether an earlier request of its die is still running: one runs at a time per die (R169, R587); the slices of one HCB command
run together. -/
def Dev.maintWaits (d : Dev) (m : Maint) : Bool :=
  match m.onDie with
  | none => false
  | some die => (d.cru.maints.takeWhile fun x => decide (x.id ≠ m.id)).any fun x =>
      decide (x.ended = none) && decide (x.onDie = some die) && match x.origin, m.origin with
        | .hcb a _, .hcb b _ => decide (a ≠ b)
        | _, _ => true

/-- The first slab at or after `next` that the request acts on; the end of its range if there is none (R154). -/
def Dev.maintSlab (d : Dev) (m : Maint) : Nat :=
  match m.owners with
  | none => m.next
  | some os => match (List.range (m.first + m.count - m.next)).find? fun i => os.contains (d.owner (m.next + i)) with
    | some i => m.next + i
    | none => m.first + m.count

/-- The first descendant in child-table order that did not end with OK, and its status, else 0xFF and OK (R35, R586). -/
def firstFailure (order : List Nat) (ms : List (Nat × Status)) : Nat × Status :=
  match (order.filterMap fun h => ms.find? fun e => decide (e.1 = h)).find? fun e => decide (e.2 ≠ Status.ok) with
  | some e => e
  | none => (0xFF, .ok)

/-- A request ends with a status: the mailbox command completes (R110, R114), the die's registers show it (R169), or, once every
slice of its HCB command has ended, the Hearth's status does (R35, R587). -/
def Dev.endMaint (d : Dev) (m : Maint) (st : Status) : Dev :=
  let done := m.next - m.first
  let dpa := if st = .ok then 0 else m.next * 4096
  let drop (d : Dev) : Dev := d.setCru fun c => { c with maints := c.maints.filter fun x => decide (x.id ≠ m.id) }
  let d := d.setCru fun c => { c with evicting := if m.op = .evict then c.evicting.filter fun x => decide (x ≠ m.next) else c.evicting }
  match m.origin with
  | .mailbox =>
    (drop d).mbEnd (if st = .busy then .busy else .success) st
      [(4, done), (1, st.code), (3, 0), (8, if st = .ok then 0 else (m.next - m.base) * 4096)]
  | .smith die =>
    let d := ((drop d).setB CRUC_MAINT_STATUS.BUSY false die).setB CRUC_MAINT_STATUS.DONE true die
    ((d.setF CRUC_MAINT_STATUS.STATUS st.code die).setF CRUC_MAINT_DONE.SLABS_DONE done die).setF CRUC_MAINT_FAIL_DPA.DPA dpa die
  | .hcb h _ =>
    let d := d.setMaint { m with ended := some st }
    let mine := d.cru.maints.filter fun x => match x.origin with | .hcb a _ => decide (a = h) | _ => false
    if mine.any fun x => decide (x.ended = none) then d
    else
      let ended := mine.filterMap fun x => match x.origin, x.ended with | .hcb _ s, some e => some (s, e) | _, _ => none
      let failed := mine.filter fun x => decide (x.ended ≠ some Status.ok)
      let low := minOf (failed.map (·.next)) (m.first + m.count)
      let d := d.setCru fun c => { c with maints := c.maints.filter fun x => match x.origin with | .hcb a _ => decide (a ≠ h) | _ => true }
      let d := (d.setB HCB_CMD_STATUS.BUSY false h).setB HCB_CMD_STATUS.DONE true h
      let (src, st) := firstFailure (d.subtree 5 h) ended
      let d := (d.setF HCB_CMD_STATUS.STATUS st.code h).setF HCB_CMD_STATUS.FAIL_SOURCE src h
      (d.setF HCB_CMD_DONE.SLABS_DONE (low - m.first) h).setF HCB_CMD_FAIL_DPA.DPA (if failed.isEmpty then 0 else low * 4096) h

/-- The slab's operation is done: the request goes to its next slab, or ends. -/
def Dev.maintNext (d : Dev) (m : Maint) : Dev :=
  let d := d.setCru fun c => { c with evicting := if m.op = .evict then c.evicting.filter fun x => decide (x ≠ m.next) else c.evicting }
  let m := { m with next := m.next + 1, cleaning := false, snooped := false, snooping := [] }
  if d.maintSlab m < m.first + m.count then d.setMaint m else d.endMaint { m with next := m.first + m.count } .ok

/-- The lines of a slab whose sharers must answer before its tag is written, with them (R83, R150). -/
def Dev.slabSharers (d : Dev) (slab : Nat) : List (Nat × List Nat) :=
  ((List.range 64).map fun i => (slab * 64 + i, d.biTargets slab i (2 ^ 16))).filter fun e => !e.2.isEmpty

/-- What a request's operation finds. -/
inductive MaintStep
  /-- it waits, with what it has started -/
  | waits (d : Dev)
  | done (d : Dev)
  | fails (d : Dev) (st : Status)

/-- A back-invalidation before the tag is written (R83): sent once, then its answers are awaited. -/
def Dev.maintSnoop (d : Dev) (m : Maint) (slab : Nat) (go : Dev → MaintStep) : MaintStep :=
  if m.snooped then (if m.snooping.isEmpty then go d else .waits d)
  else match d.slabSharers slab with
    | [] => go d
    | es =>
      let d := d.forEach es fun d e => d.sendSnoops e.1 e.2
      .waits (d.setMaint { m with snooped := true, snooping := es.map (·.1) })

/-- A slab that fills: the operation waits behind the fill, which is issued, or demanded, where none is in flight (R150, R280, R327). -/
def Dev.waitsFill (d : Dev) (slab : Nat) : MaintStep := .waits (if d.isPending slab then d.demand slab else d.issueFill slab)

/-- The destage of CLEAN and EVICT (R149, R292). -/
def Dev.maintDestage (d : Dev) (m : Maint) (slab : Nat) : MaintStep :=
  let st := (d.ns (d.nsOf slab)).state
  let held := match d.regionOf slab with | some n => d.backHeld n | none => false
  if st = .failed ∨ st = .refused ∨ st = .absent then .fails d .dirtyPresent
  else if held then .waits d
  else if d.isPending slab then .waits (d.demand slab)
  else if !d.selectable slab || decide (d.now < tgetD d.cru.notBefore slab 0) then .waits d
  else .waits ((d.startDestage slab).setMaint { m with cleaning := true })

/-- The requester of CRUC_DISCARD: the Smith cores, or the port of the mailbox; the sideband has no number: a free value
(assumption 3). -/
def Dev.discarder (d : Dev) (m : Maint) : Nat :=
  match m.origin, d.mbox.running with
  | .mailbox, some r => match r.path with | .port _ port _ => port | .sideband => d.freeVal
  | _, _ => 30

/-- A dirty or POISONED slab discarded (R142, R151): its written-through writes complete (R141). -/
def Dev.discardSlab (d : Dev) (m : Maint) (slab : Nat) (t : Tag) : Dev :=
  let who := d.discarder m
  let d := ((d.invalidate slab).delPoison slab fullMask).tick.raiseC .CRUC_DISCARD slab [p5 slab, p4 (popcount t.mask), p1 who]
  (d.completeThrough slab none).ceilCheck

/-- CLEAN at its slab. -/
def Dev.maintClean (d : Dev) (m : Maint) (slab : Nat) : MaintStep :=
  match d.lookup slab with
  | none => .done d
  | some (_, t) =>
    match t.state with
    | .filling => d.waitsFill slab
    | .destaging => .waits d
    | .poisoned => .fails d .eccUncorrectable
    | .dirty => d.maintDestage m slab
    | _ => .done d

/-- INVALIDATE at its slab. -/
def Dev.maintInvalidate (d : Dev) (m : Maint) (slab : Nat) : MaintStep :=
  match d.lookup slab with
  | none =>
    if m.discard then .done ((d.setCru fun c => { c with frameless := c.frameless.filter fun x => decide (x ≠ slab) }).delPoison slab fullMask)
    else .done d
  | some (_, t) =>
    match t.state with
    | .filling => d.waitsFill slab
    | .destaging => .waits d
    | .dirty => if m.discard then d.maintSnoop m slab fun d => .done (d.discardSlab m slab t) else .fails d .dirtyPresent
    | .poisoned => if m.discard then d.maintSnoop m slab fun d => .done (d.discardSlab m slab t) else .fails d .dirtyPresent
    | _ => d.maintSnoop m slab fun d => .done (d.invalidate slab)

/-- EVICT at its slab: it holds the lock exclusively from its admission on. -/
def Dev.maintEvict (d : Dev) (m : Maint) (slab : Nat) : MaintStep :=
  let d := if d.cru.evicting.contains slab then d else d.setCru fun c => { c with evicting := c.evicting ++ [slab] }
  match d.lookup slab with
  | none => .done d
  | some (_, t) =>
    match t.state with
    | .filling => d.waitsFill slab
    | .destaging => .waits d
    | .poisoned => .fails d .eccUncorrectable
    | .dirty => d.maintDestage m slab
    | _ => d.maintSnoop m slab fun d => .done (d.invalidate slab)

/-- The pinned ways of a slab's set. -/
def Dev.pinnedIn (d : Dev) (slab : Nat) : Nat := ((d.setTags (d.setOf slab)).filter fun e => e.2.pinned).length

/-- A miss of PIN or FILL_AHEAD (R149): a way is allocated and filled, a set stall is waited for, and without a way `alone` answers.
A slab on the poison list without a frame allocates nothing (assumption 9). -/
def Dev.maintAllocate (d : Dev) (slab : Nat) (pin : Bool) (alone : Dev → MaintStep) : MaintStep :=
  if d.indexRuns (d.place slab).die then .waits d
  else if d.cru.frameless.contains slab then alone d
  else match d.choose (d.setOf slab) with
    | .way w v => .done (((d.allocate slab w v .filling).modTag slab fun t => { t with pinned := pin }).issueFill slab)
    | .stall v => .waits (if (tget d.cru.destages v).isSome || decide (d.now < tgetD d.cru.notBefore v 0) then d else d.startDestage v)
    | .none blocked => alone (d.noWay slab blocked)

/-- PIN at its slab (R125, R149). -/
def Dev.maintPin (d : Dev) (slab : Nat) : MaintStep :=
  let pinLimit (d : Dev) : MaintStep := .fails (d.raiseC .CRUC_PIN_LIMIT slab [p5 slab, p4 (d.setOf slab).set]) .quota
  match d.lookup slab with
  | some (_, t) =>
    if t.state = .filling then d.waitsFill slab
    else if t.state = .destaging then .waits d
    else if t.pinned then .done d
    else if 12 ≤ d.pinnedIn slab then pinLimit d
    else .done (d.modTag slab fun t => { t with pinned := true })
  | none => if 12 ≤ d.pinnedIn slab then pinLimit d else d.maintAllocate slab true fun d => .fails d .busy

/-- UNPIN at its slab. -/
def Dev.maintUnpin (d : Dev) (slab : Nat) : MaintStep :=
  match d.lookup slab with
  | some (_, t) =>
    if t.state = .filling then d.waitsFill slab
    else if t.state = .destaging then .waits d
    else .done (d.modTag slab fun t => { t with pinned := false })
  | none => .done d

/-- FILL_AHEAD at its slab: only a hint. -/
def Dev.maintFillAhead (d : Dev) (slab : Nat) : MaintStep :=
  match d.lookup slab with
  | some (_, t) => if t.state = .destaging then .waits d else if t.state = .filling then d.waitsFill slab else .done d
  | none => d.maintAllocate slab false fun d => .done d

/-- Why a slab's operation is refused before its lock (R152, R153). -/
def Dev.maintRefused (d : Dev) (m : Maint) (slab : Nat) : Option Status :=
  let mode := d.f CRUC_MODE.CURRENT
  if m.top ≤ slab then some .accessDenied
  else if mode = 2 ∨ mode = 4 then some .unsupported
  else if mode = 3 ∧ (m.op = .pin ∨ m.op = .fillAhead) then some .busy
  else if (d.unserved (slab * 4096)).isSome then some .accessDenied
  else none

/-- Whether requests of the slab stand before the operation at its lock (R127). -/
def Dev.lockBusy (d : Dev) (slab : Nat) : Bool :=
  d.cru.reqs.any (fun q => decide (q.slab = slab) && q.wait.holdsLock && !decide (q.wait = .arrival)) || d.rebuilding slab ||
    d.cru.recover.any (fun e => decide (e.1 = slab)) || d.fab.d2d.any fun l => decide (l.1 = (d.place slab).die)

/-- One operation of a request takes its turn at its slab; nothing happens while it waits, from T0 on, or where the request is of
another operation. -/
def Dev.maintStep (d : Dev) (id : Nat) (op : MaintOp) (act : Dev → Maint → Nat → MaintStep) : Dev :=
  match d.maint id with
  | none => d
  | some m =>
    if m.op ≠ op ∨ m.ended ≠ none ∨ d.quenching ∨ d.maintWaits m then d
    else
      let slab := d.maintSlab m
      let m := { m with next := slab }
      if m.first + m.count ≤ slab then d.endMaint m .ok
      else match d.maintRefused m slab with
        | some st => d.endMaint m st
        | none =>
          if d.lockBusy slab || d.frozenSlab slab || (d.cru.evicting.contains slab && decide (op ≠ .evict)) then d
          else match act (d.setMaint m) m slab with
            | .waits d => d
            | .done d => d.maintNext m
            | .fails d st => d.endMaint m st

/-- Every maintenance request in progress ends with ABORTED_BY_QUENCH (R164). -/
def Dev.abortMaints (d : Dev) : Dev :=
  d.forEach (d.cru.maints.filter fun m => decide (m.ended = none)) fun d m => d.endMaint m .abortedByQuench

end Sys2Proof.Machine
end

