-- ==== Sys2Proof/Machine/RoleOps.lean ====
section
/-! DEFINITION. Region roles (R274, R287 to R297): the role records of the reheat ring, the transitions that wait for one, the
backing hold, and the reclaim at a boundary. -/

namespace Sys2Proof.Machine

open Sys2Proof

/-- A role record in the reheat ring (R274). -/
def Dev.storeRole (d : Dev) (n : Nat) (r : RoleRec) : Dev :=
  d.record [reheatRing] (some reheatKind) magicWROL
    [p1 n, p1 (b2n r.solo), p1 r.owner, p1 0, p4 r.epoch, p8 (if r.solo then r.splitHeat else 0), p8 (if r.solo then r.ackedHeat else 0), p8 r.twinId]

/-- The newest role record of a region, or the default of R288. -/
def Dev.storedRole (d : Dev) (n : Nat) : RoleRec :=
  match d.newest [reheatRing] (fun r => decide (r.magic = magicWROL ∧ r.at 16 1 = n)) with
  | some r => ⟨decide (r.at 17 1 = 1), r.at 18 1, r.at 20 4, r.at 24 8, r.at 32 8, r.at 40 8⟩
  | none => d.defaultRole n

/-- A region's record as it now stands, with its register. -/
def Dev.putRecord (d : Dev) (n : Nat) (r : RoleRec) : Dev :=
  (d.setRegion n { d.region n with record := r }).setF RHT_REGION_EPOCH.EPOCH r.epoch 0 n

/-- The requests of a region that wait for the end of its backing hold go on (R292). -/
def Dev.releaseBacking (d : Dev) (n : Nat) : Dev :=
  d.retryAll fun r => decide (r.wait = .backing) && decide (d.regionOf r.slab = some n)

/-- The backing hold of a region ends (R292): cause 0 confirm, 1 join, 2 role change. -/
def Dev.endHold (d : Dev) (n cause : Nat) : Dev :=
  if d.backHeld n then
    ((d.setB RHT_REGION_STATUS.BACKING_HELD false 0 n).raiseB .RHT_BACKING_HELD [p1 n, p1 1, p1 cause]).releaseBacking n
  else d

/-- The backing hold of a region starts (R292); the cause item names no cause then: a free value (assumption 3). -/
def Dev.startHold (d : Dev) (n : Nat) : Dev :=
  d.tick.setB RHT_REGION_STATUS.BACKING_HELD true 0 n |>.raiseB .RHT_BACKING_HELD [p1 n, p1 0, p1 d.freeVal]

/-- The SYNC writes of a region that wait for no acknowledgement any more complete (R294, R324, R328). -/
def Dev.completeAcked (d : Dev) : Dev :=
  d.forEach (d.cru.reqs.filter fun r => decide (r.wait = .mirrorAck)) fun d r =>
    if d.awaitsAck r then d else (d.complete r.src r.tag).endReq r.rid

/-- A region changes its role: RHT_ROLE_CHANGED, and a region that leaves SOLO has no backing hold (R289, R292, R297). -/
def Dev.setRole (d : Dev) (n : Nat) (new : Role) : Dev :=
  let r := d.region n
  if r.role = new then d
  else
    let d := d.setRegion n { r with role := new }
    let d := if r.role = .solo then d.endHold n 2 else d
    let d := d.raiseB .RHT_ROLE_CHANGED [p1 n, p1 r.role.code, p1 new.code, p4 r.record.epoch]
    if new = .fenced then d else d.judgeRegion n

/-- A role record is to be programmed before its transition (R288). From T0 on none is started (R334). -/
def Dev.addPend (d : Dev) (n : Nat) (r : RoleRec) (next : Role) (cause : RoleCause) : Dev :=
  if d.quenching then d
  else d.setRht fun x => { x with pends := (x.pends.filter fun p => decide (p.region ≠ n)) ++ [⟨n, r, next, cause, false⟩] }

/-- The SOLO record of a split (R288): EPOCH + 1, the open heat, and the last heat acknowledged by this side as SHADOW, or by the
twin when this side was OWNER. -/
def Dev.soloRecord (d : Dev) (n : Nat) : RoleRec :=
  let r := d.region n
  { r.record with solo := true, owner := d.side, epoch := r.record.epoch + 1, splitHeat := d.openHeat,
                  ackedHeat := if r.role = .shadow then tgetD d.weld.ackSent n 0 else tgetD d.weld.ackGot n 0 }

/-- The PAIRED record of a region with an owner side. -/
def Dev.pairedRecord (d : Dev) (n owner epoch : Nat) : RoleRec :=
  { (d.region n).record with solo := false, owner := owner, epoch := epoch, splitHeat := 0, ackedHeat := 0 }

/-- The boundary that opens heat b (R296): an OWNER that has accepted a ROLE_CLAIM stops serving, sends HANDOVER, and records PAIRED
with EPOCH + 1 and the twin as owner. -/
def Dev.handoverAt (d : Dev) (b : Nat) : Dev :=
  d.forEach (d.mirrored.filter fun n => (d.region n).handingOver) fun d n =>
    let r := d.region n
    let d := d.setRegion n { r with handingOver := false }
    if r.role ≠ .owner then d
    else
      let d := d.addPend n (d.pairedRecord n (1 - d.side) (r.record.epoch + 1)) .shadow .reclaim
      (d.setRole n .shadow).sendGeneral (.roleClaim 1 n r.record.epoch b)

end Sys2Proof.Machine
end

