-- ==== Sys2Proof/Machine/HeatOps.lean ====
section
/-! DEFINITION. Heats and the dirty journal (R172 to R200): boundaries, the reservation, sealing, compaction and retention. -/

namespace Sys2Proof.Machine

open Sys2Proof

def Dev.setHeat (d : Dev) (f : HeatState → HeatState) : Dev := { d with heat := f d.heat }

/-! ### The heat reservation (R181, R182) -/

/-- The two sectors of the reservation records (R181). -/
def hrsvSector (copy : Nat) : Nat := 0x1F80000 + 0x1000 * copy

/-- "HRSV". -/
def magicHRSV : Nat := magicOf 0x48 0x52 0x53 0x56

/-- A reservation record (R181). -/
def hrsvBytes (r : Nat) : List Byte := leBytes 4 magicHRSV ++ leBytes 4 (crc32 (leBytes 8 r)) ++ leBytes 8 r

/-- A reservation read from a slot whose MAGIC and CHECK are correct. -/
def Dev.hrsvAt (d : Dev) (a : Nat) : Option Nat :=
  let bs := d.tmpRange a 16
  if leAt bs 0 4 = magicHRSV ∧ leAt bs 4 4 = crc32 (bs.drop 8) then some (leAt bs 8 8) else none

/-- The slots of a sector that hold something. -/
def Dev.hrsvUsed (d : Dev) (copy : Nat) : List Nat :=
  if (d.tmp.mem.any fun c => decide (d.phys (hrsvSector copy) ≤ c.1 ∧ c.1 < d.phys (hrsvSector copy) + 4096)) then
    (List.range 256).filter fun i => !((d.tmpRange (hrsvSector copy + 16 * i) 16).all fun b => decide (b = erasedByte))
  else []

/-- The valid reservations of a sector. -/
def Dev.hrsvValid (d : Dev) (copy : Nat) : List Nat := (d.hrsvUsed copy).filterMap fun i => d.hrsvAt (hrsvSector copy + 16 * i)

/-- The valid reservation: the highest of both sectors, 0 for none (R181). -/
def Dev.storedReservation (d : Dev) : Nat := maxOf (d.hrsvValid 0 ++ d.hrsvValid 1)

/-- A reservation record programmed into the next blank slot of the sector in use; when that is full, the other sector is erased
and used (R181). -/
def Dev.programReservation (d : Dev) (r : Nat) : Dev :=
  let copy := if maxOf (d.hrsvValid 0) < maxOf (d.hrsvValid 1) then 1 else 0
  let next := match (d.hrsvUsed copy).getLast? with | some i => i + 1 | none => 0
  let d := if next < 256 then d.tmpPut (hrsvSector copy + 16 * next) (hrsvBytes r)
    else (d.tmpEraseSector (hrsvSector (1 - copy) / 4096)).tmpPut (hrsvSector (1 - copy)) (hrsvBytes r)
  d.setF HEAT_RESERVATION.R r

/-! ### Retention (R194 to R196) -/

/-- The records of a die held for a region. -/
def Dev.heldRecords (d : Dev) (die n : Nat) : Nat :=
  ((d.dirOf die).map fun e => ((e.written ++ e.buffered).filter fun r => decide (d.regionOf r.slab = some n)).length).foldl (· + ·) 0

/-- Whether a slab lies in a region that retains. -/
def Dev.retains (d : Dev) (slab : Nat) : Bool := match d.regionOf slab with | some n => (tget d.heat.retaining n).isSome | none => false

/-- A region splits: retention begins from its split heat, once for every die in service (R194, R200). -/
def Dev.startRetention (d : Dev) (n h : Nat) : Dev :=
  let d := (d.setHeat fun x => { x with retaining := tset x.retaining n h }).setB HEAT_STATUS.RETAINING true
  d.forEach d.diesUp fun d die => d.raise .JRNL_RETAIN_START die [p1 n, p8 h]

/-- Retention ends for a region, with each die's count (R194, R200). -/
def Dev.endRetention (d : Dev) (n : Nat) : Dev :=
  if (tget d.heat.retaining n).isNone then d
  else
    let d := d.forEach d.diesUp fun d die => d.raise .JRNL_RETAIN_END die [p1 n, p4 (d.heldRecords die n)]
    let d := d.setHeat fun x => { x with retaining := tdel x.retaining n }
    d.setB HEAT_STATUS.RETAINING (!d.heat.retaining.isEmpty)

/-- Retained records over half a die's record pages end retention for the region with the most of them (R196). -/
def Dev.retainCheck (d : Dev) (die : Nat) : Dev :=
  let ns := d.heat.retaining.map fun e => (e.1, d.heldRecords die e.1)
  let total := sumOf (ns.map (·.2))
  if total ≤ 504 * (d.f HEAT_JRNL_PAGES.TOTAL die / 2) then d
  else match ns.find? fun e => decide (e.2 = maxOf (ns.map (·.2))) with
    | none => d
    | some (n, k) =>
      let d := (d.setHeat fun x => { x with noIncremental := if x.noIncremental.contains n then x.noIncremental else x.noIncremental ++ [n] })
      (d.raise .JRNL_RETAIN_OVERFLOW die [p1 n, p4 k]).endRetention n

/-! ### The directory (R188, R193) -/

/-- The panic of the journal writer follows the directory's and the pages' use; JRNL_COMPACT_URGENT tells its start (R193). -/
def Dev.panicCheck (d : Dev) (die : Nat) : Dev :=
  let n := (d.dirOf die).length
  let urgent := decide (896 < n) || decide (d.freePages die * 8 < d.f HEAT_JRNL_PAGES.TOTAL die)
  let was := d.fb HEAT_JRNL_STATUS.PANIC die
  let d := d.setB HEAT_JRNL_STATUS.PANIC urgent die
  if urgent && !was then d.raise .JRNL_COMPACT_URGENT die [p4 n, p4 (d.freePages die)] else d

/-- Whether background compaction runs on a die (R193). -/
def Dev.compacts (d : Dev) (die : Nat) : Bool :=
  decide (d.f HEAT_JRNL_CTRL.DIR_TARGET die < (d.dirOf die).length) ||
    decide (d.freePages die * 100 < d.f HEAT_JRNL_CTRL.FREE_TARGET die * d.f HEAT_JRNL_PAGES.TOTAL die) ||
    (d.dirOf die).any fun e => decide (e.state = .compacting)

/-! ### Boundaries (R172 to R185, R330) -/

/-- L in ns (R177). -/
def Dev.heatNs (d : Dev) : Nat := 1000 * d.f HEAT_CTRL.LENGTH_US

/-- The heat that the next boundary opens: the join's number, or the twin's highest shown heat while the pair is UP, or the next one
(R184, R330). -/
def Dev.nextHeat (d : Dev) : Nat :=
  let own := d.openHeat + 1
  match d.heat.joinHeat with
  | some h => Nat.max own h
  | none => if d.pair = 1 then Nat.max own (d.f WELD_TWIN_HEAT.HEAT) else own

/-- A heat opened: the directory's entries of older heats close, T_exp moves, HEAT_SYNC_OUT pulses, and jumps and wraps are told
(R177, R179, R182, R184, R185, R190, R192, R330). -/
def Dev.openHeatAt (d : Dev) (h : Nat) : Dev :=
  let old := d.openHeat
  let join := d.heat.joinHeat.isSome
  let d := d.setF HEAT_CURRENT.HEAT h
  let d := if d.pair = 1 then d.setWeld fun w => { w with toClose := w.toClose ++ [old] } else d
  let d := d.handoverAt h
  let d := d.setHeat fun x => { x with opened := true, last := d.now, tExp := d.now + d.heatNs, deferred := none, joinHeat := none,
                                       dirs := x.dirs.map fun e => (e.1, e.2.map fun g =>
                                         if g.state = .opened ∧ g.heat < h then { g with state := .closing } else g) }
  let d := d.setB HEAT_STATUS.CLOSE_DEFERRED false
  let d := if d.fb HEAT_CTRL.SYNC_OUT_EN then d.emits [.pin "HEAT_SYNC_OUT" 0 1, .pin "HEAT_SYNC_OUT" 0 0] else d
  let d := if h ≤ old + 1 then d
    else if join then d.raiseR .HEAT_JUMP [p8 old, p8 h, p1 1]
    else d.incF WELD_HEAT_CATCHUP.COUNT
  let d := if old / 2 ^ 32 < h / 2 ^ 32 then d.raiseR .HEAT_LOW_WRAP [p8 h] else d
  let r := d.f HEAT_RESERVATION.R
  if r ≤ h + 2 ^ 23 ∧ d.heat.reserve = none then d.setHeat fun x => { x with reserve := some (r + 2 ^ 24) } else d

/-- A boundary deferred, with its cause: 0 reservation, 1 directory (R182, R193). -/
def Dev.deferBoundary (d : Dev) (h cause : Nat) : Dev :=
  if d.heat.deferred.isSome then d
  else
    let d := (d.setHeat fun x => { x with deferred := some h }).setB HEAT_STATUS.CLOSE_DEFERRED true
    d.raiseR .HEAT_CLOSE_DEFERRED [p8 h, p1 cause]

/-- A boundary: it opens the next heat, or is deferred for a full directory, or for the reservation that a jump needs or that could
not be programmed (R182, R184, R193). A boundary requested while one is deferred merges with it. -/
def Dev.boundary (d : Dev) : Dev :=
  if !d.heat.opened || d.quenching then d
  else
    let h := d.nextHeat
    let r := d.f HEAT_RESERVATION.R
    if d.diesUp.any fun die => decide (1024 ≤ (d.dirOf die).length) then d.deferBoundary h 1
    else if d.openHeat + 1 < h ∧ r ≤ h + 2 ^ 23 then
      (d.setHeat fun x => { x with reserve := some (Nat.max r h + 2 ^ 24) }).deferBoundary h 0
    else if r ≤ h then (d.setHeat fun x => { x with reserve := some (r + 2 ^ 24) }).deferBoundary h 0
    else d.openHeatAt h

/-- A deferred boundary taken once its reservation and a directory entry are there. -/
def Dev.retryBoundary (d : Dev) : Dev :=
  match d.heat.deferred with
  | none => d
  | some _ => if d.heat.reserve.isSome then d else (d.setHeat fun x => { x with deferred := none }).boundary

/-- The clock moved on to a time that an event says has come (assumption 2). -/
def Dev.until (d : Dev) (t : Nat) : Dev := { d with now := Nat.max d.now t }

/-- HEAT_CTRL written (R177, R179): the length only within 50 to 1,000,000 and, while a region is mirrored, only unchanged. -/
def Dev.writeHeatCtrl (d : Dev) (len : Nat) (syncEn syncOut : Bool) (path : Nat) : Dev :=
  let cur := d.f HEAT_CTRL.LENGTH_US
  let refused := decide (len ≠ cur) && (decide (len < 50 ∨ 1000000 < len) || !d.mirrored.isEmpty)
  let d := if refused then d.setB HEAT_STATUS.CTRL_REFUSED true
    else if len = cur then d
    else (d.setF HEAT_CTRL.LENGTH_US len).raiseR .HEAT_LENGTH_CHANGED [p4 cur, p4 len, p4 path]
  let d := (d.setB HEAT_CTRL.SYNC_EN syncEn).setB HEAT_CTRL.SYNC_OUT_EN syncOut
  if syncEn then d else d.setB HEAT_STATUS.LOCKED false

/-! ### HEAT_SYNC (R178) -/

/-- An edge ignored (R178). An offset before T_exp has no unsigned encoding: a free value (assumption 3). -/
def Dev.ignoreEdge (d : Dev) (offset : Int) : Dev :=
  (d.tick.incF HEAT_SYNC_IGNORED.COUNT).raiseR .HEAT_SYNC_EDGE_IGNORED [p8 d.openHeat, p4 (if offset < 0 then d.freeVal else offset.toNat)]

/-- The timer locks. -/
def Dev.lockSync (d : Dev) (offset : Int) : Dev :=
  let d := (d.setB HEAT_STATUS.LOCKED true).setHeat fun x => { x with edgeSeen := true, missedRow := 0 }
  d.tick.raiseR .HEAT_SYNC_LOCKED [p8 d.openHeat, p4 (if offset < 0 then d.freeVal else offset.toNat)]

/-- A rising edge on HEAT_SYNC_IN now (R178). -/
def Dev.syncEdge (d : Dev) : Dev :=
  if !d.fb HEAT_CTRL.SYNC_EN then d.incF HEAT_SYNC_IGNORED.COUNT
  else
    let q := d.heatNs / 4
    let off : Int := (d.now : Int) - (d.heat.tExp : Int)
    let since := d.now - d.heat.last
    if d.fb HEAT_STATUS.LOCKED then
      if d.heat.tExp ≤ d.now + q ∧ d.now ≤ d.heat.tExp + q then
        (d.setHeat fun x => { x with edgeSeen := true, missedRow := 0 }).boundary
      else d.ignoreEdge off
    else if d.heat.tExp ≤ d.now + q ∧ d.now ≤ d.heat.tExp + q then (d.lockSync off).boundary
    else if since ≤ q ∧ !d.heat.edgeSeen then
      (d.lockSync since).setHeat fun x => { x with tExp := d.now + d.heatNs }
    else d.ignoreEdge off

/-- A locked timer without an edge until T_exp + L/4 (R178): a boundary, and after the eighth such heat in a row no lock. -/
def Dev.syncMiss (d : Dev) : Dev :=
  if !d.fb HEAT_STATUS.LOCKED then d
  else
    let d := (d.until (d.heat.tExp + d.heatNs / 4)).incF HEAT_SYNC_MISSED.COUNT
    let d := d.setHeat fun x => { x with edgeSeen := false, missedRow := x.missedRow + 1 }
    let d := if 8 ≤ d.heat.missedRow then
        ((d.setB HEAT_STATUS.LOCKED false).setHeat fun x => { x with missedRow := 0 }).raiseR .HEAT_SYNC_LOST [p8 d.openHeat]
      else d
    d.boundary

/-! ### Sealing and compaction (R189 to R193, R197) -/

def Dev.modEntry (d : Dev) (die heat : Nat) (receive : Bool) (f : Entry → Entry) : Dev :=
  d.setDir die ((d.dirOf die).map fun e => if e.heat = heat ∧ e.receive = receive then f e else e)

/-- Buffered records of an entry written to both copies (R189). -/
def Dev.writePages (d : Dev) (die heat : Nat) (receive : Bool) : Dev :=
  d.modEntry die heat receive fun e => { e with written := e.written ++ e.buffered, buffered := [] }

/-- Every buffered page of every die written: at T0 (R189). -/
def Dev.flushJournal (d : Dev) : Dev :=
  d.setHeat fun x => { x with dirs := x.dirs.map fun e => (e.1, e.2.map fun (g : Entry) => { g with written := g.written ++ g.buffered, buffered := [] }) }

/-- Whether HEAT_CLOSE of a receive-side heat has come on every link that it must, or none can come any more (R192, R329). -/
def Dev.closeCome (d : Dev) (heat : Nat) : Bool :=
  decide (d.pair ≠ 1) || match tget d.weld.closes heat with
    | some (mask, come) => (bitsOf 16 mask).all fun i => come.contains i
    | none => false

/-- An entry becomes SEALED (R190, R192). -/
def Dev.sealEntry (d : Dev) (die heat : Nat) (receive : Bool) : Dev :=
  d.modEntry die heat receive fun e =>
    if e.state = .closing ∧ e.buffered = [] ∧ (!receive || d.closeCome heat) then { e with state := .isSealed } else e

/-- Whether a heat is sealed on every die in service: no entry of it is still open or closing. -/
def Dev.sealedAll (d : Dev) (heat : Nat) (receive : Bool) : Bool :=
  d.diesUp.all fun die => (d.dirOf die).all fun e => decide (e.heat ≠ heat ∨ e.receive ≠ receive) || decide (e.state = .isSealed ∨ e.state = .compacting)

/-- The entry that compaction works on: the one under way, else the oldest SEALED one. -/
def Dev.compactEntry (d : Dev) (die : Nat) : Option Entry :=
  match (d.dirOf die).find? fun e => decide (e.state = .compacting) with
  | some e => some e
  | none => (d.dirOf die).find? fun e => decide (e.state = .isSealed)

/-- The carry test of R191 for a record of an entry, in the slab's Tongs step: dropped, or carried to the open local heat. -/
def Dev.carryOrDrop (d : Dev) (die : Nat) (e : Entry) (r : JRec) : Dev :=
  let t := (d.lookup r.slab).map (·.2)
  let carry := match t with
    | some t => decide (t.heat = e.heat % 256) && (decide (t.mask ≠ 0) || d.retains r.slab)
    | none => d.retains r.slab
  if carry then
    let d := (d.append die r.slab 3 d.openHeat false).incF HEAT_JRNL_CARRIED.COUNT die
    d.modTag r.slab fun t => { t with heat := d.openHeat % 256 }
  else d

/-- One record of a compaction (R191): its lock is taken, so it waits while a request of its slab holds it; an entry without records
is freed. -/
def Dev.compactRecord (d : Dev) (die : Nat) : Dev :=
  match d.compactEntry die with
  | none => d
  | some e =>
    match e.written with
    | [] => (d.setDir die ((d.dirOf die).filter fun x => decide (x.heat ≠ e.heat ∨ x.receive ≠ e.receive))).retryBoundary
    | r :: rs =>
      if d.lockBusy r.slab then d
      else
        let d := (d.carryOrDrop die e r).modEntry die e.heat e.receive fun x => { x with state := .compacting, written := rs }
        if rs = [] then (d.setDir die ((d.dirOf die).filter fun x => decide (x.heat ≠ e.heat ∨ x.receive ≠ e.receive))).retryBoundary else d

/-- Both copies of a page are lost, or its records do not match it (R197): its records are gone and the die walks its tags. The page
number is a free value: the manual does not place pages (assumption 3). -/
def Dev.losePage (d : Dev) (die : Nat) : Dev :=
  match d.compactEntry die with
  | none => d
  | some e =>
    let n := Nat.min 504 e.written.length
    let d := (d.modEntry die e.heat e.receive fun x => { x with written := x.written.drop 504 }).setB HEAT_JRNL_STATUS.TAG_WALK true die
    d.tick.raise .JRNL_PAGE_LOST die [p4 d.freeVal, p8 e.heat, p4 n]

/-- The end of a tag walk (R197): every slab with a dirty sector, and every slab of a retaining region, is in the open local heat. -/
def Dev.endTagWalk (d : Dev) (die : Nat) : Dev :=
  let mine := d.validTags.filter fun e => decide (e.1.set.die = die) && (decide (e.2.mask ≠ 0) || d.retains e.2.slab)
  let d := d.forEach mine fun d e => (d.append die e.2.slab 3 d.openHeat false).modTag e.2.slab fun t => { t with heat := d.openHeat % 256 }
  d.setB HEAT_JRNL_STATUS.TAG_WALK false die

end Sys2Proof.Machine
end

