-- ==== Sys2Proof/Machine/PairOps.lean ====
section
/-! DEFINITION. The pair and its links (R287 to R336): a link's loss and its coming up, the pair's states, what a loss, a stall or a
join does to the regions, resyncs, and heat acknowledgements. -/

namespace Sys2Proof.Machine

open Sys2Proof

/-! ### Resyncs (R293 to R295) -/

/-- The kind of a region's running resync: 0 none, 1 incremental, 2 full (R300). -/
def Dev.resyncKind (d : Dev) (n : Nat) : Nat := d.f RHT_REGION_STATUS.RESYNC 0 n

/-- A resync abandoned (R289). -/
def Dev.abortResync (d : Dev) (n : Nat) : Dev :=
  if d.resyncKind n = 0 then d
  else
    let left := (d.region n).resync.length
    let d := (d.setF RHT_REGION_STATUS.RESYNC 0 0 n).setResync n []
    let d := d.setWeld fun w => { w with resyncOwed := w.resyncOwed.filter fun x => decide (d.regionOf x ≠ some n) }
    (d.setRegion n { d.region n with mirroring := false }).raiseB .RHT_RESYNC_ABORT [p1 n, p4 left]

/-- Every slab of a region discarded: written, restored and pending ones, with their journal records and poison entries (R293). -/
def Dev.discardRegion (d : Dev) (n : Nat) : Dev :=
  let inIt := fun (x : Nat) => decide (d.regionOf x = some n)
  let d := d.forEach ((d.rht.pending.map (·.1)).filter inIt) fun d x => d.withdraw x
  let d := d.forEach ((d.validTags.map (·.2.slab)).filter inIt) fun d x => d.invalidate x
  let keep := fun (r : JRec) => !inIt r.slab
  let trim := fun (e : Entry) => { e with written := e.written.filter keep, buffered := e.buffered.filter keep }
  let d := d.setHeat fun x => { x with dirs := x.dirs.map fun e => (e.1, e.2.map trim) }
  let d := d.setCru fun c => { c with poison := c.poison.filter fun e => !inIt e.1, frameless := c.frameless.filter fun x => !inIt x }
  d.ceilCheck

/-- The loser's part of an incremental set (R293): the slabs of the Ingot whose heat, LAST_HEAT − HEAT_DELTA, is above the winner's
ACKED_HEAT. -/
def Dev.loserSet (d : Dev) (n acked : Nat) : List Nat :=
  (d.rht.deltas.filter fun e => decide (d.regionOf e.1 = some n) &&
    (if e.2 = 0xFFFF then decide (acked + 65535 < d.rht.lastHeat) else decide (acked < d.rht.lastHeat - e.2))).map (·.1)

/-- A region becomes REJOINING and asks the winner for its resync (R289, R293, R318). -/
def Dev.beginRejoin (d : Dev) (n : Nat) (incremental : Bool) (acked : Nat) : Dev :=
  let slabs := if incremental then d.loserSet n acked else []
  let d := if incremental then d else d.discardRegion n
  let d := (d.setF RHT_REGION_STATUS.RESYNC (if incremental then 1 else 2) 0 n).setResync n slabs
  let d := d.setRegion n { d.region n with mirroring := false }
  let d := (d.setRole n .rejoining).raiseB .RHT_RESYNC_START [p1 n, p1 (if incremental then 0 else 1), p4 slabs.length]
  d.sendGeneral (.rejoinReq n (if incremental then 1 else 2) slabs true)

/-- The winner's set (R293, R195): the slabs with a record of the region at or after the split heat, with those that the loser
names; or the dirty slabs of the region. -/
def Dev.winnerSet (d : Dev) (n : Nat) (incremental : Bool) (named : List Nat) : List Nat :=
  if incremental then
    let split := (d.region n).record.splitHeat
    let recs := (d.diesUp.map fun die => ((d.dirOf die).filter fun e => decide (split ≤ e.heat)).map fun e => e.written ++ e.buffered).flatten.flatten
    dedup ((recs.map (·.slab)).filter (fun x => decide (d.regionOf x = some n)) ++ named)
  else ((d.validTags.filter fun e => decide (e.2.mask ≠ 0)).map (·.2.slab)).filter fun x => decide (d.regionOf x = some n)

/-- RESYNC_DATA of a slab, or, while it is reheat-pending or FILLING, the promise of it (R294). -/
def Dev.startResyncSlab (d : Dev) (slab : Nat) : Dev :=
  let owe (d : Dev) : Dev := d.setWeld fun w => { w with resyncOwed := w.resyncOwed ++ [slab] }
  if d.isPending slab then (owe d).demand slab
  else match d.lookup slab with
    | some (_, t) => if t.state = .filling then (owe d).issueFill slab else d.sendResync slab
    | none => d.sendResync slab

/-- REJOIN_REQ at the winner (R289, R294, R324): the set is fixed and sent, and new writes are mirrored to the twin. -/
def Dev.startResync (d : Dev) (n : Nat) (incremental : Bool) (named : List Nat) : Dev :=
  let set := d.winnerSet n incremental named
  let d := (d.setF RHT_REGION_STATUS.RESYNC (if incremental then 1 else 2) 0 n).setResync n set
  let d := d.setRegion n { d.region n with mirroring := true, resyncFull := !incremental, resyncHeat := d.openHeat, resyncSent := 0, resyncAt := d.now }
  let d := (d.raiseB .RHT_RESYNC_START [p1 n, p1 (if incremental then 0 else 1), p4 set.length]).completeAcked
  d.forEach set fun d x => d.startResyncSlab x

/-- Whether a resync is complete (R295): at the winner every slab is sent and acknowledged and the loser has acknowledged the heat of
the last one; at the loser every slab that it has named has arrived. -/
def Dev.resyncDone (d : Dev) (n : Nat) : Bool :=
  let r := d.region n
  decide (d.resyncKind n ≠ 0) && r.resync.isEmpty && decide (d.pair = 1) &&
    (decide (r.role = .rejoining) || decide (r.resyncHeat ≤ tgetD d.weld.ackGot n 0))

/-- The end of a resync, once its PAIRED record is programmed (R289, R295): roles, and the end of retention. -/
def Dev.endResync (d : Dev) (n : Nat) (next : Role) : Dev :=
  let r := d.region n
  let d := (d.setF RHT_REGION_STATUS.RESYNC 0 0 n).setRole n next
  let d := d.setRegion n { d.region n with mirroring := decide (next = .owner) }
  let d := (d.setHeat fun x => { x with noIncremental := x.noIncremental.filter fun y => decide (y ≠ n) }).endRetention n
  d.raiseB .RHT_RESYNC_DONE [p1 n, p4 r.resyncSent, p4 ((d.now - r.resyncAt) / 1000000)]

/-! ### Splits (R289, R292, R324, R332) -/

/-- A region enters SOLO: it splits, with retention from its split heat, and its waiting SYNC writes complete (R194, R289, R328). -/
def Dev.enterSolo (d : Dev) (n : Nat) (hold : Bool) : Dev :=
  let d := d.setRole n .solo
  let d := d.setRegion n { d.region n with mirroring := false }
  let d := d.startRetention n (d.region n).record.splitHeat
  (if hold then d.startHold n else d).completeAcked

/-- The SOLO records of the regions that a loss splits start their program, and nothing is mirrored any more (R332, R333). -/
def Dev.splitRecords (d : Dev) : Dev :=
  d.forEach d.mirrored fun d n =>
    let r := d.region n
    let d := d.setRegion n { r with mirroring := false }
    if r.role = .owner ∨ r.role = .shadow then d.addPend n (d.soloRecord n) .solo .loss else d

/-- What a loss does besides the splits (R289): a loser is FENCED again, a winner's resync is abandoned, and claims end. -/
def Dev.lossRoles (d : Dev) : Dev :=
  d.forEach d.mirrored fun d n =>
    let d := d.abortResync n
    let r := d.region n
    let d := d.setRegion n { r with handingOver := false, claimed := false, handover := none, twinSolo := false, mirroring := false }
    if r.role = .rejoining then d.setRole n .fenced else d

/-- The receive-side entries when the pair leaves UP (R192): each becomes CLOSING, and SEALED once its records are written. -/
def Dev.sealReceive (d : Dev) : Dev :=
  let step := fun (e : Entry) =>
    if e.receive then
      (if e.state = .opened ∨ e.state = .closing then { e with state := if e.buffered = [] then .isSealed else .closing } else e)
    else e
  d.setHeat fun x => { x with dirs := x.dirs.map fun e => (e.1, e.2.map step) }

/-! ### The pair's states (R312) -/

/-- The time of the last authentic frame on any link. -/
def Dev.lastFrame (d : Dev) : Nat := maxOf (d.weld.links.map fun e => e.2.lastRx)

/-- The pair is LOST (R312, R332, R335); `code` is LAST_LOSS (R338). After this device's own T0 no role changes (R334). -/
def Dev.losePair (d : Dev) (code : Nat) : Dev :=
  let us := (d.now - d.lastFrame) / 1000
  let d := (d.setF WELD_PAIR_STATUS.STATE 0).setF WELD_PAIR_STATUS.LAST_LOSS code
  let d := d.raiseR .WELD_PAIR_LOST [p1 code, p4 us, p8 (d.f WELD_TWIN_HEAT.HEAT)]
  let split := d.weld.notice.isNone
  let d := if split && !d.quenching then (d.setWeld fun w => { w with lossAt := some (d.now, false) }).splitRecords else d
  let d := if d.quenching then d else d.lossRoles
  let d := d.setWeld fun w => { w with unacked := [], heldMirror := [], toClose := [], closed := [], acks := [], fetchOwed := [],
                                       resyncOwed := [], joinSent := false,
                                       txq := w.txq.map fun e => (e.1, e.2.filter fun x => x.slab.isNone) }
  let d := d.sealReceive
  d.setWeld fun w => { w with closes := [] }

/-- The pair enters STALL (R289, R324). -/
def Dev.stallPair (d : Dev) : Dev :=
  let d := d.setF WELD_PAIR_STATUS.STATE 2
  let d := if d.quenching then d else d.forEach d.mirrored fun d n =>
    let r := d.region n
    let d := if d.resyncKind n = 0 then d.setRegion n { r with mirroring := false } else d
    if r.role = .shadow then d.setRole n .fenced
    else if r.role = .owner ∧ ((d.regionCfgs[n]?).map (·.stallPolicy)).getD 0 = 1 then d.addPend n (d.soloRecord n) .solo .stall
    else d
  d.sealReceive

/-- The pair returns from STALL to UP (R324): withheld writes complete, and a region that this side had as SHADOW asks for a full
resync. -/
def Dev.resumePair (d : Dev) : Dev :=
  let d := (d.setF WELD_PAIR_STATUS.STATE 1).setWeld fun w => { w with bindLinks := d.usable, unacked := [] }
  let d := d.completeAcked
  if d.quenching then d
  else d.forEach d.mirrored fun d n =>
    let r := d.region n
    if r.role = .fenced ∧ r.record.solo = false ∧ r.record.owner ≠ d.side then d.beginRejoin n false 0 else d

/-- The pair after a change of its links (R312, R338). -/
def Dev.pairCheck (d : Dev) (code : Nat) : Dev :=
  let d := d.setF WELD_PAIR_STATUS.USABLE d.usable.length
  let stalled := d.dies.any fun die => decide (d.linkState (die, 0) = 3 ∨ d.linkState (die, 1) = 3)
  if d.pair = 1 then (if d.usable ≠ [] then d else if stalled then d.stallPair else d.losePair code)
  else if d.pair = 2 then (if d.usable ≠ [] then d.resumePair else if stalled then d else d.losePair code)
  else d

/-- The drain window of R333 ends: that is the loss (R312). -/
def Dev.endWindow (d : Dev) : Dev :=
  match d.weld.notice with
  | none => d
  | some w =>
    if w.ended then d
    else
      let d := if d.pair = 0 then d else d.losePair 2
      d.setWeld fun x => { x with notice := some { w with ended := true } }

/-! ### Bindings and the loss of a link (R311, R313, R329) -/

/-- New bindings take effect once every frame of the old ones is acknowledged (R313). -/
def Dev.rebind (d : Dev) : Dev :=
  let open' := (d.weld.links.any fun e => e.2.sent.any fun x => x.slab.isSome) || d.weld.txq.any fun e => e.2.any fun x => x.slab.isSome
  if d.pair = 1 ∧ d.weld.bindLinks ≠ d.usable ∧ open' = false then d.setWeld fun w => { w with bindLinks := d.usable } else d

/-- HEAT_CLOSE of a heat on every usable link, naming them (R329). -/
def Dev.sendHeatClose (d : Dev) (h : Nat) : Dev :=
  let mask := d.linksMask
  d.forEach d.usable fun d l => d.queueOn l none (.heatClose h mask)

/-- Whether a message is sent again on another link when its own is lost: the link's own heartbeats and key rolls are not, JOIN is
made anew, and HEAT_CLOSE is sent again after the entries (R313, R329). -/
def Msg.moves : Msg → Bool
  | .heartbeat _ _ _ _ => false
  | .keyRoll _ _ _ => false
  | .join _ _ _ _ _ _ => false
  | .heatClose _ _ => false
  | _ => true

/-- A link without its trained state: its sequence, its window and its peer are gone; it trains again, or stays down while DISABLE
is set (R311, R337). -/
def Dev.linkDown (d : Dev) (l : Nat × Nat) (state : Nat) : Dev :=
  let k := d.link l
  let d := d.setF WELD_LINK_STATUS.STATE state l.1 l.2
  let d := ((d.setF WELD_LINK_STATUS.WIDTH 0 l.1 l.2).setF WELD_LINK_STATUS.RATE 0 l.1 l.2).setB WELD_LINK_STATUS.SPARE_QUAD false l.1 l.2
  let d := ((d.setF WELD_LINK_STATUS.PEER_DIE 0 l.1 l.2).setF WELD_LINK_STATUS.PEER_LINK 0 l.1 l.2).setB WELD_LINK_STATUS.ROLL_PENDING false l.1 l.2
  let d := d.setWeld fun w => { w with links := tdel w.links l, bindLinks := w.bindLinks.filter fun x => decide (x ≠ l),
                                       txq := w.txq.map fun e => (e.1, e.2.filter fun x => decide (x.link ≠ l)) }
  d.modLink l fun x => { x with lastRx := k.lastRx, lastTx := k.lastTx }

/-- The state that a link which goes down takes: training again, or down under DISABLE. -/
def Dev.downState (d : Dev) (l : Nat × Nat) : Nat := if d.fb WELD_LINK_CTRL.DISABLE l.1 l.2 then 0 else 1

/-- LAST_LOSS of a link's loss (R338); causes in the order of WELD_LINK_LOST: heartbeat, electrical, protocol, disabled, key
exhaustion. -/
def lossCode (cause : Nat) : Nat := [1, 6, 3, 4, 5].getD cause 0

/-- A link is lost (R311, R313, R329): its unacknowledged entries are sent again as new frames on their new links before any newer
frame, and then HEAT_CLOSE again for every closed heat that is not acknowledged. -/
def Dev.linkLost (d : Dev) (l : Nat × Nat) (cause : Nat) : Dev :=
  let st := d.linkState l
  if st ≠ 2 ∧ st ≠ 3 then (if st = 0 then d else d.linkDown l (d.downState l))
  else
    let k := d.link l
    let items := (k.sent.filter fun x => x.msg.moves).map fun x => (x.slab, x.msg)
    let queued := ((d.txq l.1).filter fun x => decide (x.link = l) && x.msg.moves).map fun x => (x.slab, x.msg)
    let n := sumOf ((k.sent.filter fun x => x.msg.moves).map (·.frames))
    let wasJoin := d.weld.joinSent
    let d := (d.linkDown l (d.downState l)).incF WELD_LOSSES.COUNT l.1 l.2
    let d := d.raise .WELD_LINK_LOST l.1 [p1 l.1, p1 l.2, p1 cause]
    let d := if d.weld.bindLinks.isEmpty then d.setWeld fun w => { w with bindLinks := d.usable } else d
    let d := d.pairCheck (lossCode cause)
    if d.pair = 0 then d.setWeld fun w => { w with joinSent := wasJoin && !d.usable.isEmpty }
    else
      let rest := (d.weld.txq.map fun e => e.2).flatten
      let d := d.setWeld fun w => { w with txq := [] }
      let d := d.forEach (items ++ queued) fun d x => match x.1 with
        | some slab => d.enqueue slab x.2
        | none => d.sendGeneral x.2
      let d := d.forEach rest fun d x => d.queueOn x.link x.slab x.msg
      let d := if n = 0 then d
        else (d.addF WELD_RESENT.COUNT n l.1 l.2).raise .WELD_RESEND l.1 [p1 l.1, p1 l.2, p4 n, p1 1]
      d.forEach d.weld.closed fun d h => d.sendHeatClose h

/-- The resend of R308: every message with a frame at or after the one that ACK names, in order. -/
def Dev.resend (d : Dev) (l : Nat × Nat) : Dev :=
  let k := d.link l
  let n := sumOf (k.sent.map fun x => Nat.min x.frames ((x.seq + x.frames + 2 ^ 32 - k.txAck) % 2 ^ 32))
  let ack := d.ackOf l
  if n = 0 then d
  else
    let d := d.emits (k.sent.map fun x => .weldFrame l.1 l.2 x.seq (ack % 2 ^ 16) false x.msg)
    let d := (d.modLink l fun k => { k with lastTx := d.now }).addF WELD_RESENT.COUNT n l.1 l.2
    d.raise .WELD_RESEND l.1 [p1 l.1, p1 l.2, p4 n, p1 0]

/-! ### Heat acknowledgements (R329, R296) -/

/-- The claimant becomes OWNER once it has acknowledged heat b − 1: it records PAIRED with EPOCH + 1 first (R288, R296). -/
def Dev.claimDone (d : Dev) (n : Nat) : Dev :=
  let r := d.region n
  match r.handover with
  | some b =>
    if r.role = .shadow ∧ b ≤ tgetD d.weld.ackSent n 0 + 1 ∧ (d.rht.pends.any fun p => decide (p.region = n)) = false then
      d.addPend n (d.pairedRecord n d.side (r.record.epoch + 1)) .owner .reclaim
    else d
  | none => d

/-- HEAT_ACK in ascending heat order for the heats whose HEAT_CLOSE has come on every link and that are SEALED on every die (R329). -/
def Dev.ackHeatsFrom : List Nat → Dev → Dev
  | [], d => d
  | h :: hs, d =>
    if d.closeCome h && d.sealedAll h true && decide (d.pair = 1) && !d.quenching then
      let ns := d.mirrored.filter fun n => decide ((d.region n).role = .shadow ∨ (d.region n).role = .rejoining)
      let d := d.setWeld fun w => { w with closes := tdel w.closes h, ackSent := ns.foldl (fun t n => tset t n h) w.ackSent }
      Dev.ackHeatsFrom hs (d.sendGeneral (.heatAck h (maskOf ns)))
    else d

/-- See ackHeatsFrom; then the claims that waited for an acknowledgement. -/
def Dev.ackHeats (d : Dev) : Dev :=
  let d := Dev.ackHeatsFrom (sortBy id (d.weld.closes.map (·.1))) d
  d.forEach d.mirrored fun d n => d.claimDone n

/-- HEAT_CLOSE of the heats that are sealed on every die, in ascending order (R190, R329). -/
def Dev.closeHeatsFrom : List Nat → Dev → Dev
  | [], d => d
  | h :: hs, d =>
    if d.sealedAll h false && decide (d.pair = 1) && !d.quenching then
      Dev.closeHeatsFrom hs ((d.setWeld fun w => { w with toClose := hs, closed := w.closed ++ [h] }).sendHeatClose h)
    else d

/-- See closeHeatsFrom. -/
def Dev.closeHeats (d : Dev) : Dev := Dev.closeHeatsFrom d.weld.toClose d

/-! ### Join (R289 to R291, R321) -/

/-- Who wins a region at a join (R290). -/
inductive Verdict
  | here (incremental : Bool)
  | twin (incremental : Bool)
  | conflict
  deriving DecidableEq, Repr

/-- The rows of R290 in their order, with the mirror cases. `retains` and `tRetains`: whether each side still retains the region. -/
def joinVerdict (side : Nat) (local' : RoleRec) (retains : Bool) (t : JoinRole) : Verdict :=
  if local'.solo ∧ t.solo = false ∧ t.epoch + 1 = local'.epoch ∧ t.owner ≠ side then .here retains
  else if local'.solo = false ∧ t.solo ∧ local'.epoch + 1 = t.epoch ∧ local'.owner = side then .twin t.retaining
  else if t.epoch < local'.epoch then .here false
  else if local'.epoch < t.epoch then .twin false
  else if local'.solo = false ∧ t.solo = false then
    (if local'.owner ≠ t.owner then .conflict else if local'.owner = side then .here false else .twin false)
  else if local'.solo ∧ t.solo = false then .here false
  else if local'.solo = false ∧ t.solo then .twin false
  else .conflict

/-- Whether this side has accepted writes of a region since its split heat; a side that no longer retains counts as having (R291). -/
def Dev.wroteSince (d : Dev) (n : Nat) : Bool :=
  (tget d.heat.retaining n).isNone ||
    d.diesUp.any fun die => (d.dirOf die).any fun e => decide ((d.region n).record.splitHeat ≤ e.heat) && !e.receive &&
      (e.written ++ e.buffered).any fun r => decide (d.regionOf r.slab = some n ∧ (r.kind = 0 ∨ r.kind = 3))

/-- A conflict (R289 to R291): CONFLICT and RHT_ROLE_CONFLICT. -/
def Dev.roleConflict (d : Dev) (n twinEpoch : Nat) : Dev :=
  (d.setB RHT_REGION_STATUS.CONFLICT true 0 n).raiseB .RHT_ROLE_CONFLICT [p1 n, p4 (d.region n).record.epoch, p4 twinEpoch]

/-- Both sides run a region as SOLO with one EPOCH (R291). -/
def Dev.soloSolo (d : Dev) (n : Nat) (t : JoinRole) : Dev :=
  let mine := d.wroteSince n
  let ownerSide := ((d.regionCfgs[n]?).map (·.ownerSide)).getD 0
  if mine && t.wrote then
    let d := if d.side = ownerSide then d else d.setRole n .fenced
    d.roleConflict n t.epoch
  else if (!mine && t.wrote) || (!mine && !t.wrote && decide (d.side ≠ ownerSide)) then d.beginRejoin n false 0
  else d

/-- A region decided at a join (R289 to R291). The identity of the twin is the TWIN_ID of the image, which the key exchange has
checked (R321). -/
def Dev.joinRegion (d : Dev) (t : JoinRole) : Dev :=
  let n := t.region
  let r := d.region n
  if d.mirror n = 0 then d
  else
    let d := (d.setB RHT_REGION_STATUS.CONFLICT false 0 n).setRegion n { r with twinSolo := t.solo }
    let d := d.endHold n 1
    let local' := r.record
    let same := decide (local'.twinId = (d.defaultRole n).twinId ∧ t.twinId = d.pkg.packageId)
    if r.role = .solo ∧ t.running ∧ local'.solo ∧ t.solo ∧ local'.epoch = t.epoch ∧ same then d.soloSolo n t
    else match (if same then joinVerdict d.side local' ((tget d.heat.retaining n).isSome && !d.heat.noIncremental.contains n) t else .conflict) with
      | .conflict => d.roleConflict n t.epoch
      | .here _ =>
        let d := if r.incomplete && t.incomplete then d.tick.raiseB .RHT_UNNAMED_LOSS [p1 n, p4 d.freeVal, p1 d.freeVal] else d
        (d.setRole n .solo).completeAcked
      | .twin incremental => d.beginRejoin n (incremental && !r.incomplete) t.ackedHeat

/-- This side's JOIN (R320, R321). -/
def Dev.joinMsg (d : Dev) : Msg :=
  let c := d.swg.cfg
  let entry := fun (n : Nat) =>
    let r := d.region n
    (⟨n, decide (r.role = .solo), d.wroteSince n, r.record.solo, r.record.owner, r.incomplete, (tget d.heat.retaining n).isSome, r.record.epoch,
      r.record.splitHeat, r.record.ackedHeat, r.record.twinId⟩ : JoinRole)
  .join d.openHeat (d.f HEAT_CTRL.LENGTH_US) d.side d.regionCfgs.length
    (Config.mapDigest ([c.dram.dpaLimit, c.dram.dieBits, c.dram.rankBits, c.dram.dpc, c.dram.speed, c.dram.uePolicy, c.dram.chanFlags, c.dram.sets]
      ++ c.dram.masks ++ (d.regionCfgs.map fun r => [r.start, r.size, r.ownerSide, r.mirror, r.stallPolicy]).flatten))
    ((List.range d.regionCfgs.length).map entry)

/-- JOIN goes out once per pair-up on a link that is up while the pair is LOST (R307, R321). -/
def Dev.sendJoin (d : Dev) (l : Nat × Nat) : Dev :=
  if d.pair = 0 ∧ d.weld.joinSent = false ∧ d.quenching = false then
    (d.setWeld fun w => { w with joinSent := true }).queueOn l none d.joinMsg
  else d

end Sys2Proof.Machine
end

