-- ==== Sys2Proof/Machine/WeldOps.lean ====
section
/-! DEFINITION. The Weld engines' reception (R305 to R331): what every frame goes through before its message takes effect, key rolls,
and the drain window. -/

namespace Sys2Proof.Machine

open Sys2Proof

/-- Whether the image configures a Weld link on a die (R50, R303). -/
def Dev.hasLink (d : Dev) (l : Nat × Nat) : Bool := d.isDie l.1 && decide (l.2 < Nat.min 2 (d.swg.cfg.weldLinks l.1).length)

/-- A carried heat extended against the open heat; none at d = 2^31 (R183). A number below heat 0 counts as heat 0 (assumption 12). -/
def Dev.extend (d : Dev) (w : Nat) : Option Nat :=
  let x := (w % 2 ^ 32 + 2 ^ 32 - d.openHeat % 2 ^ 32) % 2 ^ 32
  if x < 2 ^ 31 then some (d.openHeat + x) else if x = 2 ^ 31 then none else some (d.openHeat - (2 ^ 32 - x))

/-- A protocol error (R307): the link goes down at once and trains again. -/
def Dev.protocolError (d : Dev) (l : Nat × Nat) (type cause : Nat) : Dev :=
  (d.linkLost l 2).raise .WELD_PROTOCOL_ERROR l.1 [p1 l.1, p1 l.2, p4 type, p1 cause]

/-- Frames that an ACK acknowledges (R309): the window moves, resync frames count as acknowledged (R295), the old link key is
zeroized once nothing sent under it is outstanding (R322), and waiting messages go out. -/
def Dev.takeAck (d : Dev) (l : Nat × Nat) (ack16 : Nat) : Dev :=
  let k := d.link l
  let out := (k.txSeq + 2 ^ 32 - k.txAck) % 2 ^ 32
  let by' := (ack16 % 2 ^ 16 + 2 ^ 16 - k.txAck % 2 ^ 16) % 2 ^ 16
  if by' = 0 ∨ out < by' then d
  else
    let done := fun (x : SentFrame) => decide ((x.seq + x.frames + 2 ^ 32 - k.txAck) % 2 ^ 32 ≤ by')
    let slabs := (k.sent.filter done).filterMap fun x => match x.msg with
      | .resyncData s kind _ _ _ _ => if kind = 0 ∨ kind = 1 ∨ kind = 4 then some s else none
      | _ => none
    let newAck := (k.txAck + by') % 2 ^ 32
    let past := match k.txSwitch with | some q => decide ((newAck + 2 ^ 32 - q) % 2 ^ 32 < 2 ^ 31) | none => false
    let d := d.setLink l { k with txAck := newAck, sent := k.sent.filter (fun x => !done x), txSwitch := if past then none else k.txSwitch }
    let d := if past then d.eraseKey (.weld l.1 l.2 true) else d
    let d := d.forEach slabs fun d s => match d.regionOf s with
      | some n => if (d.region n).role = .rejoining then d else d.resyncHere s
      | none => d
    d.rebind.pump l.1

/-- What a frame of `n` frames and a TYPE meets at its link (R306 to R309): answers whether it is taken. A frame that fails
authentication or comes after the expected one is discarded and NAKed, one that comes before it is a duplicate, and one that breaks
the protocol takes the link down. `ok` says that the message is allowed now and its heat extends. -/
def Dev.takeFrame (d : Dev) (h : Head) (type n : Nat) (keyRoll : Bool) (allowed heatOk : Bool) : Dev × Bool :=
  let l := (h.die, h.link)
  let st := d.linkState l
  let k := d.link l
  if !d.hasLink l || !(decide (st = 2 ∨ st = 3) || (decide (st = 1) && k.hello && keyRoll)) then (d, false)
  else if !h.auth then ((d.incF WELD_AUTH_FAILS.COUNT l.1 l.2).modLink l fun k => { k with nak := true }, false)
  else
    let d := d.modLink l fun k => { k with lastRx := d.now }
    let x := (h.seq % 2 ^ 32 + 2 ^ 32 - k.rxNext) % 2 ^ 32
    if x = 2 ^ 31 then (d.protocolError l type 5, false)
    else if 2 ^ 31 < x then (d, false)
    else if x ≠ 0 then (d.modLink l fun k => { k with nak := true }, false)
    else match h.breach with
      | some c => (d.protocolError l type c, false)
      | none =>
        if !allowed then (d.protocolError l type 2, false)
        else if !heatOk then (d.protocolError l type 4, false)
        else
          let d := d.modLink l fun k => { k with rxNext := (k.rxNext + n) % 2 ^ 32, rxCount := countAfter k.rxCount k.rxNext n k.rxSwitch }
          ((d.addF WELD_FRAMES_RECEIVED.COUNT n l.1 l.2).takeAck l h.ack, true)

/-- A taken frame whose entries are not all admitted yet (R309), or which the fence gate has refused (R310). -/
def Dev.noteFrame (d : Dev) (h : Head) (rids : List Nat) (refused : Bool) : Dev :=
  d.modLink (h.die, h.link) fun k => { k with rx := (k.rx.filter fun x => x.refused || !(x.rids.all d.admitted)) ++ [⟨h.seq % 2 ^ 32, rids, refused⟩] }

/-- The heat that the twin shows (R330, R338). -/
def Dev.showTwinHeat (d : Dev) (h : Nat) : Dev := d.setF WELD_TWIN_HEAT.HEAT (Nat.max h (d.f WELD_TWIN_HEAT.HEAT))

/-- Whether the pair is UP and the twin has sent no NOTICE: the state in which most messages are allowed (R307). -/
def Dev.upNow (d : Dev) : Bool := decide (d.pair = 1) && d.weld.notice.isNone

/-! ### Heartbeats -/

/-- A HEARTBEAT on a link, with STALL while it is in KEY_STALL (R314, R323). A link whose counter would reach 2^48 − 1 goes down. -/
def Dev.sendHeartbeat (d : Dev) (l : Nat × Nat) : Dev :=
  let m : Msg := .heartbeat d.openHeat d.linksMask d.pair (decide (d.linkState l = 3))
  if 2 ^ 48 - 1 ≤ d.f WELD_TX_COUNTER.COUNT l.1 l.2 + 1 then d.linkLost l 4
  else if d.canSend l m then d.sendMsg l none m else d

/-! ### Keys (R321 to R323) -/

/-- The peer's hello block is refused, or a check of the first exchange fails: the link stays down (R304, R321). -/
def Dev.refuseLink (d : Dev) (l : Nat × Nat) (cause : Nat) : Dev :=
  let d := (d.linkDown l 0).modLink l fun k => { k with refusedAt := some d.now }
  (d.pairCheck 6).raise .WELD_JOIN_REFUSED l.1 [p1 l.1, p1 l.2, p1 cause]

/-- A KEY_ROLL OFFER goes out (R321, R322). ROLL_ID and the SWITCH_SEQ, a SEQ ahead, are free values (assumption 3). -/
def Dev.startRoll (d : Dev) (l : Nat × Nat) : Dev :=
  let k := d.link l
  let st := d.linkState l
  let id := d.freeVal % 2 ^ 32
  let sw := (k.txSeq + 4 + d.tick.freeVal % 2 ^ 30) % 2 ^ 32
  let d := d.tick.tick
  let m : Msg := .keyRoll false id sw
  if k.roll.isSome || !d.canSend l m then d
  else
    let d := d.sendMsg l none m
    let d := d.modLink l fun k => { k with roll := some ⟨id, d.now, sw⟩, rollFailedAt := none }
    if st = 1 then d else d.setB WELD_LINK_STATUS.ROLL_PENDING true l.1 l.2

/-- A roll fails (R322): cause 0 no answer, 1 identity, 2 signature. -/
def Dev.failRoll (d : Dev) (l : Nat × Nat) (cause : Nat) : Dev :=
  let d := d.modLink l fun k => { k with roll := none, rollFailedAt := some d.now }
  let d := d.setB WELD_LINK_STATUS.ROLL_PENDING false l.1 l.2
  d.raise .WELD_KEY_ROLL_FAIL l.1 [p1 l.1, p1 l.2, p1 cause, p4 (d.f WELD_TX_COUNTER.COUNT l.1 l.2)]

/-- The link key is derived and put into the vault: the current key becomes the previous one (R321, R322, R533). The key itself is a
free value (assumption 3). -/
def Dev.putLinkKey (d : Dev) (l : Nat × Nat) : Dev :=
  let (key, d) := d.drawKey
  let d := match (d.cell (.weld l.1 l.2 false)).key with
    | some old => (d.writeKey (.weld l.1 l.2 true) (d.cell (.weld l.1 l.2 false)).alg old).1
    | none => d
  (d.writeKey (.weld l.1 l.2 false) 1 key).1

/-- A link is up (R311, R321). -/
def Dev.linkUp (d : Dev) (l : Nat × Nat) : Dev :=
  let d := (d.setF WELD_LINK_STATUS.STATE 2 l.1 l.2).setF WELD_TX_COUNTER.COUNT 0 l.1 l.2
  let d := d.modLink l fun k => { k with roll := none, rxCount := 0, txSwitch := none, rxSwitch := none, lastRx := d.now, lastTx := d.now }
  let lanes := 4 * d.f WELD_LINK_STATUS.WIDTH l.1 l.2
  let gts := if d.fb WELD_LINK_STATUS.RATE l.1 l.2 then 64 else 32
  let d := d.raise .WELD_LINK_UP l.1 [p1 l.1, p1 l.2, p1 lanes, p1 gts, p4 (if d.version1 then 1 else 2)]
  ((d.pairCheck 0).sendJoin l).rebind

/-- A key exchange has succeeded: the first one brings the link up; a later one is a roll, which ends a KEY_STALL (R321 to R323).
`own` and `peer` are the SWITCH_SEQ values of the two directions. -/
def Dev.keyInPlace (d : Dev) (l : Nat × Nat) (id own peer : Nat) : Dev :=
  let st := d.linkState l
  let d := d.putLinkKey l
  if st = 1 then d.linkUp l
  else
    let d := d.modLink l fun k => { k with roll := none, rollFailedAt := none, txSwitch := some own, rxSwitch := some peer }
    let d := (d.setB WELD_LINK_STATUS.ROLL_PENDING false l.1 l.2).incF WELD_KEY_ROLLS.COUNT l.1 l.2
    let d := d.raise .WELD_KEY_ROLLED l.1 [p1 l.1, p1 l.2, p4 id]
    if st = 3 then
      let d := (d.setF WELD_LINK_STATUS.STATE 2 l.1 l.2).raise .WELD_KEY_STALL l.1 [p1 l.1, p1 l.2, p1 1, p4 (b2n (decide (d.pair = 2)))]
      (d.pairCheck 0).rebind.pump l.1
    else d.pump l.1

/-- A link enters KEY_STALL (R323): at this end, which shows it in a HEARTBEAT, or at the peer. -/
def Dev.enterStall (d : Dev) (l : Nat × Nat) : Dev :=
  let d := (d.setF WELD_LINK_STATUS.STATE 3 l.1 l.2).setWeld fun w => { w with bindLinks := w.bindLinks.filter fun x => decide (x ≠ l) }
  let d := if d.weld.bindLinks.isEmpty then d.setWeld fun w => { w with bindLinks := d.usable } else d
  let d := d.pairCheck 5
  d.raise .WELD_KEY_STALL l.1 [p1 l.1, p1 l.2, p1 0, p4 (b2n (decide (d.pair = 2)))]

/-! ### The receive gate (R26, R230, R310) -/

/-- A mirror entry as a request at its slice, admitted at once where its lock is free (R326). -/
def Dev.arriveEntry (d : Dev) (h : Head) (heat id : Nat) (e : MirrorEntry) : Dev :=
  let src := (d.place e.slab).die
  let kind : ReqKind := if e.clean then .mirrorClean id src else .mirrorLine id src
  let rid := d.cru.nextRid
  let d := d.arrive (.weld h.die h.link) kind e.slab e.sector e.data fullMask 0 heat
  match d.req rid with
  | some r => d.admitOne r .hit false
  | none => d

/-- Whether MIRROR_WRITE is allowed on a link (R307, R333). -/
def Dev.mirrorAllowed (d : Dev) (l : Nat × Nat) : Bool :=
  match d.weld.notice with
  | none => decide (d.pair = 1)
  | some w => !w.drained.contains l

/-- Whether the drain window of a quenching twin has ended: nothing of it is admitted any more (R333). -/
def Dev.windowEnded (d : Dev) : Bool := match d.weld.notice with | some w => w.ended | none => false

/-- A FETCH answered, or promised (R331). A FILLING slab whose sectors are all here counts as filled; a side without backing accesses
cannot complete a fill (R351). -/
def Dev.answerFetch (d : Dev) (slab region : Nat) : Dev :=
  let owe (d : Dev) : Dev := d.setWeld fun w => { w with fetchOwed := if w.fetchOwed.contains slab then w.fetchOwed else w.fetchOwed ++ [slab] }
  if d.isPending slab then (owe d).demand slab
  else match d.lookup slab with
    | some (_, t) =>
      let whole := decide (t.mask = fullMask) && !(d.cru.be.any fun e => decide (e.1.1 = slab))
      let backs := match d.regionOf slab with | some n => (d.region n).role.served | none => true
      if t.state = SlabState.filling && !whole then
        (if backs then (owe d).issueFill slab else d.enqueue slab (.resyncData slab 3 0 0 region []))
      else d.enqueue slab (d.fetchMsg slab region)
    | none => d.enqueue slab (d.fetchMsg slab region)

/-- A FETCH ends (R331): it leaves the table, and the die's next one goes out. -/
def Dev.endFetch (d : Dev) (slab : Nat) : Dev :=
  (d.setWeld fun w => { w with fetches := tdel w.fetches slab }).sendFetches (d.place slab).die

/-- A FETCH fails (R331): cause 0 miss, 1 timeout, 2 version 1. -/
def Dev.failFetch (d : Dev) (slab cause : Nat) : Dev :=
  let die := (d.place slab).die
  let d := ((d.endFetch slab).incF WELD_FETCH_FAILS.COUNT die).raise .WELD_FETCH_FAIL die [p5 slab, p1 cause]
  d.fetchFails slab

end Sys2Proof.Machine
end

