-- ==== Sys2Proof/Machine/Weld.lean ====
section
/-! DEFINITION. The meanings of the Weld family's commands: links, keys, the pair, mirrored writes, heats, resync data and fetches
(R303 to R339). -/

namespace Sys2Proof.Machine

open Sys2Proof

/-! ### Links and keys (R304, R311, R320 to R323) -/

/-- A link finishes training and sends its hello block (R304, R337). -/
def Dev.trainLink (d : Dev) (l : Nat × Nat) (width rate : Nat) (spare : Bool) : Dev :=
  let d := (d.linkDown l 1).setF WELD_LINK_STATUS.WIDTH (if width = 8 then 2 else 1) l.1 l.2
  let d := (d.setB WELD_LINK_STATUS.RATE (decide (rate = 64)) l.1 l.2).setB WELD_LINK_STATUS.SPARE_QUAD spare l.1 l.2
  let d := d.setB WELD_LINK_STATUS.VERSION1 d.version1 l.1 l.2
  d.emit (.weldHello l.1 l.2 (if d.version1 then 1 else 2) d.side)

/-- WELD_LINK_TRAINED (R303, R304): width 4 or 8, rate 32 or 64 GT/s. -/
def execWeldLinkTrained (die link width rate : Nat) (spareQuad : Bool) (s : State) : Host.Outcome State Fault Refusal :=
  s.on fun d =>
    if !d.hasLink (die, link) || !d.inService die || !d.swg.loaded || d.quenching || decide (1 < d.linkState (die, link)) ||
        d.fb WELD_LINK_CTRL.DISABLE die link then d
    else d.trainLink (die, link) width rate spareQuad

/-- WELD_HELLO (R304): the link goes on to the key exchange when the versions and the dies are equal and the sides differ; the
SIDE 0 end then sends its OFFER (R321). -/
def execWeldHello (die link version side peerDie peerLink : Nat) (s : State) : Host.Outcome State Fault Refusal :=
  s.on fun d =>
    let l := (die, link)
    if !d.hasLink l || decide (d.linkState l ≠ 1) || (d.link l).hello then d
    else if version ≠ (if d.version1 then 1 else 2) then d.refuseLink l 0
    else if side = d.side then d.refuseLink l 1
    else if peerDie ≠ die then d.refuseLink l 2
    else
      let d := (d.setF WELD_LINK_STATUS.PEER_DIE peerDie die link).setF WELD_LINK_STATUS.PEER_LINK peerLink die link
      let d := d.modLink l fun k => { k with hello := true, lastRx := d.now }
      if d.side = 0 then d.startRoll l else d

/-- WELD_HELLO_RETRY (R304): one second after a refusal. -/
def execWeldHelloRetry (die link : Nat) (s : State) : Host.Outcome State Fault Refusal :=
  s.on fun d =>
    let l := (die, link)
    match (d.link l).refusedAt with
    | some t =>
      if decide (d.linkState l ≠ 0) || d.fb WELD_LINK_CTRL.DISABLE die link || d.quenching then d
      else
        let d := d.until (t + 1000000000)
        let d := (d.linkDown l 1).setF WELD_LINK_STATUS.STATE 1 die link
        d.emit (.weldHello die link (if d.version1 then 1 else 2) d.side)
    | none => d

/-- KEY_ROLL_OFFER (R320 to R322): checked and answered; where both ends have offered, the SIDE 0 offer stands. From T0 on no KEY_ROLL
is sent (R334). -/
def execKeyRollOffer (h : Head) (rollId switchSeq : Nat) (identOk sigOk : Bool) (s : State) : Host.Outcome State Fault Refusal :=
  s.on fun d =>
    let l := (h.die, h.link)
    let (d, ok) := d.takeFrame h 0x0A (d.framesOf (.keyRoll false 0 0)) true true true
    if !ok || d.quenching || (decide (d.side = 0) && (d.link l).roll.isSome) then d
    else if !(identOk && sigOk) then
      (if d.linkState l = 1 then d.refuseLink l 3 else d.failRoll l (if identOk then 2 else 1))
    else
      let k := d.link l
      let sw := (k.txSeq + 4 + d.freeVal % 2 ^ 30) % 2 ^ 32
      let d := d.tick.modLink l fun k => { k with roll := none }
      let m : Msg := .keyRoll true rollId sw
      if d.canSend l m then (d.sendMsg l none m).keyInPlace l rollId sw switchSeq else d

/-- KEY_ROLL_ANSWER (R321, R322): the answer to this end's OFFER. -/
def execKeyRollAnswer (h : Head) (rollId switchSeq : Nat) (identOk sigOk : Bool) (s : State) : Host.Outcome State Fault Refusal :=
  s.on fun d =>
    let l := (h.die, h.link)
    let (d, ok) := d.takeFrame h 0x0A (d.framesOf (.keyRoll true 0 0)) true true true
    match (d.link l).roll with
    | some r =>
      if !ok || decide (r.id ≠ rollId) then d
      else if !(identOk && sigOk) then
        (if d.linkState l = 1 then d.refuseLink l 3 else d.failRoll l (if identOk then 2 else 1))
      else d.keyInPlace l rollId r.switchSeq switchSeq
    | none => d

/-- KEY_ROLL_ANSWER_TIMEOUT (R322): no ANSWER within 10 ms. -/
def execKeyRollAnswerTimeout (die link : Nat) (s : State) : Host.Outcome State Fault Refusal :=
  s.on fun d =>
    match (d.link (die, link)).roll with
    | some r => (d.until (r.start + 10000000)).failRoll (die, link) 0
    | none => d

/-- KEY_ROLL_COUNTER (R322): either direction's counter has reached 2^47. -/
def execKeyRollCounter (die link : Nat) (s : State) : Host.Outcome State Fault Refusal :=
  s.on fun d =>
    let l := (die, link)
    if decide (d.linkState l = 2) && !d.quenching &&
        decide (2 ^ 47 ≤ d.f WELD_TX_COUNTER.COUNT die link ∨ 2 ^ 47 ≤ (d.link l).rxCount) then d.startRoll l else d

/-- KEY_ROLL_RETRY (R322): one second after a failed roll. -/
def execKeyRollRetry (die link : Nat) (s : State) : Host.Outcome State Fault Refusal :=
  s.on fun d =>
    match (d.link (die, link)).rollFailedAt with
    | some t => if d.quenching then d else (d.until (t + 1000000000)).startRoll (die, link)
    | none => d

/-- WELD_KEY_ROLL_NOW (R322, R337). -/
def execWeldKeyRollNow (die link : Nat) (s : State) : Host.Outcome State Fault Refusal :=
  s.on fun d => if decide (d.linkState (die, link) = 2 ∨ d.linkState (die, link) = 3) && !d.quenching then d.startRoll (die, link) else d

/-- KEY_STALL_ENTER (R323): a direction's counter has reached 2^48 − 2^16 before a roll has succeeded. -/
def execKeyStallEnter (die link : Nat) (s : State) : Host.Outcome State Fault Refusal :=
  s.on fun d =>
    let l := (die, link)
    if decide (d.linkState l = 2) && decide (2 ^ 48 - 2 ^ 16 ≤ d.f WELD_TX_COUNTER.COUNT die link ∨ 2 ^ 48 - 2 ^ 16 ≤ (d.link l).rxCount) then
      (d.enterStall l).sendHeartbeat l
    else d

/-- LINK_HEARTBEAT_LOSS (R311): no authentic frame for 200 µs, or 10 ms in KEY_STALL. -/
def execLinkHeartbeatLoss (die link : Nat) (s : State) : Host.Outcome State Fault Refusal :=
  s.on fun d =>
    let l := (die, link)
    let st := d.linkState l
    if st = 2 ∨ st = 3 then (d.until ((d.link l).lastRx + if st = 3 then 10000000 else 200000)).linkLost l 0 else d

/-- LINK_ELECTRICAL_LOSS (R311). -/
def execLinkElectricalLoss (die link : Nat) (s : State) : Host.Outcome State Fault Refusal :=
  s.on fun d => if d.hasLink (die, link) then d.linkLost (die, link) 1 else d

/-- WELD_LINK_DISABLE (R311, R337): a write of DISABLE; 1 holds the link down, 0 lets it train. -/
def execWeldLinkDisable (die link : Nat) (disable : Bool) (s : State) : Host.Outcome State Fault Refusal :=
  s.on fun d =>
    let l := (die, link)
    if !d.hasLink l then d
    else
      let d := d.setB WELD_LINK_CTRL.DISABLE disable die link
      if disable then d.linkLost l 3 else if d.linkState l = 0 then d.setF WELD_LINK_STATUS.STATE 1 die link else d

/-- WELD_LINK_RETRAIN (R337): the link goes down and trains again; it has lost its trained state. -/
def execWeldLinkRetrain (die link : Nat) (s : State) : Host.Outcome State Fault Refusal :=
  s.on fun d => if d.hasLink (die, link) then d.linkLost (die, link) 1 else d

/-- WELD_NAK (R308): every frame from the one that ACK names is sent again. A frame that carries NAK is given as this command for its
NAK and ACK and as its row's command for its message (assumption 14). -/
def execWeldNak (die link ack : Nat) (s : State) : Host.Outcome State Fault Refusal :=
  s.on fun d =>
    let l := (die, link)
    if d.linkState l = 2 ∨ d.linkState l = 3 then (d.takeAck l ack).resend l else d

/-! ### Heartbeats -/

/-- HEARTBEAT (R307, R311, R314, R323). -/
def execHeartbeat (h : Head) (heat _links _pair : Nat) (stall : Bool) (s : State) : Host.Outcome State Fault Refusal :=
  s.on fun d =>
    let x := d.extend heat
    let (d, ok) := d.takeFrame h 0x01 1 false true x.isSome
    if !ok then d
    else
      let d := d.showTwinHeat (x.getD 0)
      if stall ∧ d.linkState (h.die, h.link) = 2 then d.enterStall (h.die, h.link) else d

/-- HEARTBEAT_SEND (R311): 20 µs after the last frame, or 1 ms in KEY_STALL. -/
def execHeartbeatSend (die link : Nat) (s : State) : Host.Outcome State Fault Refusal :=
  s.on fun d =>
    let l := (die, link)
    let st := d.linkState l
    if st = 2 ∨ st = 3 then (d.until ((d.link l).lastTx + if st = 3 then 1000000 else 20000)).sendHeartbeat l else d

/-- ACK_HEARTBEAT (R309). -/
def execAckHeartbeat (die link : Nat) (s : State) : Host.Outcome State Fault Refusal :=
  s.on fun d => if d.linkState (die, link) = 2 ∨ d.linkState (die, link) = 3 then d.sendHeartbeat (die, link) else d

/-! ### Join (R321) -/

/-- JOIN: the pair is UP and every mirrored region is decided, or the join is refused and the link goes down. -/
def execJoin (h : Head) (heat length _side regions : Nat) (digestOk : Bool) (roles : List JoinRole) (s : State) :
    Host.Outcome State Fault Refusal :=
  s.on fun d =>
    let l := (h.die, h.link)
    let (d, ok) := d.takeFrame h 0x0B (d.framesOf (.join 0 0 0 0 0 [])) false (decide (d.pair = 0) && decide (d.linkState l = 2)) true
    if !ok then d
    else if !digestOk then d.refuseLink l 4
    else if length ≠ d.f HEAT_CTRL.LENGTH_US then d.refuseLink l 5
    else if regions ≠ d.regionCfgs.length then d.refuseLink l 6
    else if d.quenching then d
    else
      let d := ((d.setF WELD_PAIR_STATUS.STATE 1).setB WELD_PAIR_STATUS.JOINED true).showTwinHeat heat
      let d := d.setWeld fun w => { w with bindLinks := d.usable, notice := none, lossAt := none, joinSent := false, toClose := [], closed := [] }
      let d := d.setHeat fun x => { x with joinHeat := some (Nat.max d.openHeat heat + 1) }
      let d := d.raiseR .WELD_PAIR_UP [p4 d.usable.length, p8 heat]
      d.forEach roles fun d t => d.joinRegion t

/-! ### Mirrored writes (R325, R326, R328) -/

/-- MIRROR_WRITE (R307, R310, R326): the fence gate decides the frame whole; its entries go to their slices. After the drain window
nothing is admitted (R333). -/
def execMirrorWrite (h : Head) (heat firstId : Nat) (entries : List MirrorEntry) (s : State) : Host.Outcome State Fault Refusal :=
  s.on fun d =>
    let x := d.extend heat
    let fits := decide (entries.length ≤ (if d.version1 then 1 else 3)) && entries.all fun e => decide (e.sector < 64)
    let h' := if h.breach.isNone && !fits then { h with breach := some 3 } else h
    let (d, ok) := d.takeFrame h' 0x02 1 false (d.mirrorAllowed (h.die, h.link)) x.isSome
    if !ok then d
    else
      let heat := x.getD 0
      let d := d.showTwinHeat heat
      if d.fence || d.windowEnded then d.noteFrame h [] true
      else
        let d := d.countAccepted h.die (24 + h.link) entries.length
        let first := d.cru.nextRid
        let d := d.forEach (List.zip (List.range entries.length) entries) fun d e => d.arriveEntry h heat ((firstId + e.1) % 2 ^ 32) e.2
        d.noteFrame h ((List.range entries.length).map (first + ·)) false

/-- WELD_TX_ROOM (R325): writes that wait for the transmit queue go on. -/
def execWeldTxRoom (die : Nat) (s : State) : Host.Outcome State Fault Refusal :=
  s.on fun d =>
    let d := d.pump die
    d.retryAll fun r => decide (r.wait = .txRoom ∧ (d.place r.slab).die = die) && !d.txFull r.slab

/-- One run of a MIRROR_ACK: the SYNC writes it covers complete; NOT_HELD raises WELD_PROTOCOL_ERROR, cause 6 (R316, assumption 8). -/
def Dev.ackRun (d : Dev) (h : Head) (a : AckRun) : Dev :=
  let hit := fun (u : Unacked) => decide (u.die = a.die ∧ (u.id + 2 ^ 32 - a.first % 2 ^ 32) % 2 ^ 32 < a.count)
  let mine := d.weld.unacked.filter hit
  let d := d.setWeld fun w => { w with unacked := w.unacked.filter fun u => !hit u }
  let d := d.forEach (dedup (mine.filterMap (·.rid))) fun d rid => match d.req rid with
    | some r => if r.wait = .mirrorAck && !d.awaitsAck r then (d.complete r.src r.tag).endReq rid else d
    | none => d
  if a.notHeld && !mine.isEmpty then d.raise .WELD_PROTOCOL_ERROR h.die [p1 h.die, p1 h.link, p4 0x03, p1 6] else d

/-- MIRROR_ACK (R316, R326, R328): the SYNC writes that it covers complete; one acknowledged with NOT_HELD completes too and raises
WELD_PROTOCOL_ERROR, cause 6 (assumption 8). -/
def execMirrorAck (h : Head) (runs : List AckRun) (s : State) : Host.Outcome State Fault Refusal :=
  s.on fun d =>
    let (d, ok) := d.takeFrame h 0x03 1 false (decide (d.pair = 1) || d.quenching || d.weld.notice.isSome) true
    if ok then d.forEach runs fun d a => d.ackRun h a else d

/-- MIRROR_ACK_BATCH_TIMER (R316, R326): the batch of a die goes out, up to 27 runs (12 in version 1) in a message. -/
def execMirrorAckBatchTimer (die : Nat) (s : State) : Host.Outcome State Fault Refusal :=
  s.on fun d =>
    let runs := tgetD d.weld.acks die []
    let k := if d.version1 then 12 else 27
    if runs.isEmpty || d.usable.isEmpty then d
    else
      let d := d.setWeld fun w => { w with acks := tset w.acks die (runs.drop k) }
      match d.usable.find? fun l => decide (l.1 = die) with
      | some l => d.queueOn l none (.mirrorAck (runs.take k))
      | none => d.sendGeneral (.mirrorAck (runs.take k))

/-! ### Heats (R329) -/

/-- HEAT_CLOSE (R192, R329): noted for its link; a new LINK_MASK starts the count of links again (assumption 15). -/
def execHeatClose (h : Head) (heat linkMask : Nat) (s : State) : Host.Outcome State Fault Refusal :=
  s.on fun d =>
    let x := d.extend heat
    let (d, ok) := d.takeFrame h 0x04 1 false d.upNow x.isSome
    if !ok then d
    else
      let heat := x.getD 0
      let d := d.showTwinHeat heat
      let come := match tget d.weld.closes heat with | some (m, c) => if m = linkMask then c else [] | none => []
      let d := d.setWeld fun w => { w with closes := tset w.closes heat (linkMask, come ++ [linkBit (h.die, h.link)]) }
      (d.forEach d.diesUp fun d die => d.sealEntry die heat true).ackHeats

/-- HEAT_ACK (R161, R329): the acknowledged heat of the regions named rises. -/
def execHeatAck (h : Head) (heat regionMask : Nat) (s : State) : Host.Outcome State Fault Refusal :=
  s.on fun d =>
    let x := d.extend heat
    let (d, ok) := d.takeFrame h 0x05 1 false d.upNow x.isSome
    if !ok then d
    else
      let heat := x.getD 0
      let up := fun (t : Tab Nat Nat) (n : Nat) => tset t n (Nat.max heat (tgetD t n 0))
      let d := d.setWeld fun w => { w with ackGot := (bitsOf 16 regionMask).foldl up w.ackGot, closed := w.closed.filter fun y => decide (y ≠ heat) }
      d.setF WELD_ACKED_HEAT.HEAT (Nat.max heat (d.f WELD_ACKED_HEAT.HEAT))

/-! ### QUENCH_NOTICE (R317, R333, R334) -/

/-- QUENCH_NOTICE_NOTICE: the drain window opens, the SOLO records start their program, and no new entry goes to the twin. -/
def execQuenchNoticeNotice (h : Head) (heat _cause generation : Nat) (s : State) : Host.Outcome State Fault Refusal :=
  s.on fun d =>
    let x := d.extend heat
    let (d, ok) := d.takeFrame h 0x06 1 false true x.isSome
    if !ok || d.weld.notice.isSome then d
    else
      let d := d.raiseR .WELD_QUENCH_NOTICE_RX [p1 0, p8 (x.getD 0), p4 generation, p1 0]
      let d := d.setWeld fun w => { w with notice := some ⟨d.now, d.usable, [], decide (d.pair = 0), false⟩ }
      if d.pair = 0 then d
      else if d.quenching then d.setWeld fun w => { w with lossAt := none }
      else (d.setWeld fun w => { w with lossAt := some (d.now, true) }).splitRecords

/-- QUENCH_NOTICE_DRAINED: it ends the window once it has come on every link that was usable. -/
def execQuenchNoticeDrained (h : Head) (heat _cause generation : Nat) (s : State) : Host.Outcome State Fault Refusal :=
  s.on fun d =>
    let l := (h.die, h.link)
    let x := d.extend heat
    let (d, ok) := d.takeFrame h 0x06 1 false d.weld.notice.isSome x.isSome
    match d.weld.notice with
    | some w =>
      if !ok then d
      else
        let d := if w.drained.isEmpty then d.raiseR .WELD_QUENCH_NOTICE_RX [p1 1, p8 (x.getD 0), p4 generation, p1 0] else d
        let w := { w with drained := if w.drained.contains l then w.drained else w.drained ++ [l] }
        let d := d.setWeld fun y => { y with notice := some w }
        if w.waiting.all fun y => w.drained.contains y then d.endWindow else d
    | none => d

/-- QUENCH_NOTICE_FINAL: FLAGS bit 0 commit pointer programmed, bit 1 Ingot committed. -/
def execQuenchNoticeFinal (h : Head) (heat flags _cause generation : Nat) (s : State) : Host.Outcome State Fault Refusal :=
  s.on fun d =>
    let x := d.extend heat
    let (d, ok) := d.takeFrame h 0x06 1 false d.weld.notice.isSome x.isSome
    match d.weld.notice with
    | some w =>
      if !ok || w.final then d
      else (d.setWeld fun y => { y with notice := some { w with final := true } }).raiseR .WELD_QUENCH_NOTICE_RX
        [p1 2, p8 (x.getD 0), p4 generation, p1 flags]
    | none => d

/-- DRAIN_WINDOW_END (R333): 100 µs after NOTICE. -/
def execDrainWindowEnd (s : State) : Host.Outcome State Fault Refusal :=
  s.on fun d => match d.weld.notice with
    | some w => if w.ended then d else (d.until (w.start + 100000)).endWindow
    | none => d

/-! ### Reclaim messages (R296, R317) -/

/-- ROLE_CLAIM_CLAIM: the OWNER hands over at its next boundary; a claim on a region that this side does not own, or that its EPOCH or
a resync contradicts, is answered with REFUSE (assumption 16). -/
def execRoleClaimClaim (h : Head) (region epoch : Nat) (s : State) : Host.Outcome State Fault Refusal :=
  s.on fun d =>
    let (d, ok) := d.takeFrame h 0x07 1 false d.upNow true
    if !ok || d.quenching then d
    else
      let r := d.region region
      if r.role = .owner ∧ r.record.epoch = epoch ∧ d.resyncKind region = 0 then d.setRegion region { r with handingOver := true }
      else d.sendGeneral (.roleClaim 2 region r.record.epoch 0)

/-- ROLE_CLAIM_HANDOVER: the claimant becomes OWNER once it has acknowledged heat b − 1. -/
def execRoleClaimHandover (h : Head) (region _epoch heat : Nat) (s : State) : Host.Outcome State Fault Refusal :=
  s.on fun d =>
    let x := d.extend heat
    let (d, ok) := d.takeFrame h 0x07 1 false d.upNow x.isSome
    let r := d.region region
    if !ok || !r.claimed || d.quenching then d
    else (d.setRegion region { r with handover := x, claimed := false }).claimDone region

/-- ROLE_CLAIM_REFUSE: the reclaim does not take place. -/
def execRoleClaimRefuse (h : Head) (region _epoch : Nat) (s : State) : Host.Outcome State Fault Refusal :=
  s.on fun d =>
    let (d, ok) := d.takeFrame h 0x07 1 false d.upNow true
    if ok then d.setRegion region { d.region region with claimed := false } else d

/-! ### Resync and fetch (R294, R318, R319, R331) -/

/-- REJOIN_REQ: the winner, SOLO or an OWNER after a stall, starts the resync (R289, R324). -/
def execRejoinReq (h : Head) (region : Nat) (incremental : Bool) (slabs : List Nat) (s : State) : Host.Outcome State Fault Refusal :=
  s.on fun d =>
    let (d, ok) := d.takeFrame h 0x08 (d.framesOf (.rejoinReq region 0 slabs true)) false d.upNow true
    let r := d.region region
    if !ok || d.quenching || decide (d.mirror region = 0) || decide (d.resyncKind region ≠ 0) then d
    else if r.role = .solo ∨ (r.role = .owner ∧ r.mirroring = false) then d.startResync region incremental slabs
    else d

/-- RESYNC_DATA, kinds 0 DATA, 1 ABSENT and 4 POISONED: the fence gate decides it, and the loser applies it under the slab's lock. -/
def execResyncData (h : Head) (slab kind : Nat) (mask : Mask) (heat region : Nat) (lines : List Line) (s : State) :
    Host.Outcome State Fault Refusal :=
  s.on fun d =>
    let x := d.extend heat
    let n := d.framesOf (.resyncData slab kind 0 0 region (if kind = 1 then [] else (List.range 64).map fun i => (i, 0)))
    let h' := if h.breach.isNone && !(decide (kind = 0 ∨ kind = 1 ∨ kind = 4)) then { h with breach := some 3 } else h
    let (d, ok) := d.takeFrame h' 0x09 n false d.upNow x.isSome
    if !ok then d
    else if d.fence then d.noteFrame h [] true
    else
      let d := d.countAccepted h.die (24 + h.link) 1
      let rid := d.cru.nextRid
      let d := d.arrive (.weld h.die h.link) (.resync kind mask lines) slab 0 0 0 0 (x.getD 0)
      let d := match d.req rid with | some r => d.admitOne r .hit false | none => d
      d.noteFrame h [rid] false

/-- FETCH: the twin answers on the slab's bound link. -/
def execFetch (h : Head) (slab region : Nat) (s : State) : Host.Outcome State Fault Refusal :=
  s.on fun d =>
    let (d, ok) := d.takeFrame h 0x0C 1 false (d.upNow && !d.version1) true
    if !ok || d.quenching then d else d.answerFetch slab region

/-- FETCH_DATA: lands as a fill or serves what waits for it; a slab of a failed segment is thereby recovered from the twin (R283). -/
def execFetchData (h : Head) (slab : Nat) (_mask : Mask) (heat region : Nat) (lines : List Line) (s : State) :
    Host.Outcome State Fault Refusal :=
  s.on fun d =>
    let x := d.extend heat
    let n := d.framesOf (.resyncData slab 2 0 0 region ((List.range 64).map fun i => (i, 0)))
    let (d, ok) := d.takeFrame h 0x09 n false d.upNow x.isSome
    if !ok then d
    else if d.fence then d.noteFrame h [] true
    else if tget d.weld.fetches slab ≠ some true then d
    else
      let d := d.endFetch slab
      let d := if d.rht.judge.contains slab then
          ((d.setRht fun r => { r with judge := r.judge.filter fun y => decide (y ≠ slab) }).incF RHT_TWIN_SLABS.COUNT).raise .RHT_TWIN_RECOVERED
            (d.place slab).die [p1 (d.place slab).die, p5 slab]
        else d
      d.fetchLands slab lines

/-- FETCH_MISS: the fetch has failed. -/
def execFetchMiss (h : Head) (slab _region : Nat) (s : State) : Host.Outcome State Fault Refusal :=
  s.on fun d =>
    let (d, ok) := d.takeFrame h 0x09 1 false d.upNow true
    if !ok then d
    else if d.fence then d.noteFrame h [] true
    else if tget d.weld.fetches slab = some true then d.failFetch slab 0 else d

/-- FETCH_TIMEOUT: no answer within 1 ms; in version 1 every fetch fails (R336). -/
def execFetchTimeout (slab : Nat) (s : State) : Host.Outcome State Fault Refusal :=
  s.on fun d => if tget d.weld.fetches slab = some true then d.failFetch slab (if d.version1 then 2 else 1) else d

end Sys2Proof.Machine
end

