-- ==== Sys2Proof/Machine/Roles.lean ====
section
/-! DEFINITION. The meanings of the role commands (R288 to R296, R332): the writes of RHT_REGION_CTRL, a role record's program, the
end of a resync, and a promotion. -/

namespace Sys2Proof.Machine

open Sys2Proof

/-- FORCE_SOLO (R289): on a FENCED region while no Weld link is up; the region enters SOLO once its record is programmed (R288). -/
def execForceSolo (region : Nat) (s : State) : Host.Outcome State Fault Refusal :=
  s.on fun d =>
    let r := d.region region
    if decide (d.mirror region = 0) || decide (r.role ≠ .fenced) || !d.usable.isEmpty then d
    else
      let old := if r.record.solo then r.record.ackedHeat else 0
      let new := { r.record with solo := true, owner := d.side, epoch := r.record.epoch + 1, splitHeat := d.openHeat, ackedHeat := old }
      d.addPend region new .solo .forced

/-- YIELD (R289): on a FENCED region whose twin runs it as SOLO, with the link up; a full resync. -/
def execYield (region : Nat) (s : State) : Host.Outcome State Fault Refusal :=
  s.on fun d =>
    let r := d.region region
    if decide (d.mirror region = 0) || decide (r.role ≠ .fenced) || !r.twinSolo || decide (d.pair ≠ 1) || d.quenching then d
    else d.beginRejoin region false 0

/-- RECLAIM (R289, R296): on the OWNER_SIDE's SHADOW, with the link up. -/
def execReclaim (region : Nat) (s : State) : Host.Outcome State Fault Refusal :=
  s.on fun d =>
    let r := d.region region
    let ownerSide := ((d.regionCfgs[region]?).map (·.ownerSide)).getD 0
    if decide (d.mirror region = 0) || decide (r.role ≠ .shadow) || decide (ownerSide ≠ d.side) || decide (d.pair ≠ 1) || d.quenching || r.claimed then d
    else (d.setRegion region { r with claimed := true }).sendGeneral (.roleClaim 0 region r.record.epoch 0)

/-- CONFIRM_SOLE (R292): it ends a backing hold. -/
def execConfirmSole (region : Nat) (s : State) : Host.Outcome State Fault Refusal := s.on fun d => d.endHold region 0

/-- A role record programmed, and the transition that waited for it (R288, R289, R295, R296, R324). The split of a loss waits for the
end of the drain window as well (R333). -/
def Dev.recordDone (d : Dev) (p : RolePend) : Dev :=
  let n := p.region
  let keep := p.cause = .loss
  let f := fun (q : RolePend) => if q = p then { q with done := true } else q
  let d := d.setRht fun x => { x with pends := if keep then x.pends.map f else x.pends.filter fun q => decide (q ≠ p) }
  let d := (d.storeRole n p.record).putRecord n p.record
  match p.cause with
  | .loss => d
  | .stall => d.enterSolo n false
  | .forced => (d.enterSolo n false).raiseB .RHT_FORCED_SOLO [p1 n, p4 p.record.epoch]
  | .resync => d.endResync n p.next
  | .reclaim =>
    let d := d.setRole n p.next
    d.setRegion n { d.region n with mirroring := decide (p.next = .owner), handover := none, claimed := false }

/-- A role record that could not be programmed (R288): the transition does not take place, and a region that was leaving OWNER or
SHADOW is FENCED. -/
def Dev.recordFails (d : Dev) (p : RolePend) (status : Nat) : Dev :=
  let n := p.region
  let d := d.setRht fun x => { x with pends := x.pends.filter fun q => decide (q ≠ p) }
  let d := if p.cause = .loss ∨ p.cause = .stall ∨ p.cause = .reclaim then d.setRole n .fenced else d
  d.raiseB .RHT_ROLE_RECORD_FAIL [p1 n, p1 status]

/-- ROLE_RECORD_DONE (R288): status 0 is OK. A record in progress at T0 runs to its end, and no role changes then (R334). -/
def execRoleRecordDone (region status : Nat) (s : State) : Host.Outcome State Fault Refusal :=
  s.on fun d =>
    match d.rht.pends.find? fun p => decide (p.region = region) && !p.done with
    | none => d
    | some p =>
      if d.quenching then
        let d := d.setRht fun x => { x with pends := x.pends.filter fun q => decide (q ≠ p) }
        if status = 0 then (d.storeRole region p.record).putRecord region p.record else d
      else if status = 0 then d.recordDone p else d.recordFails p status

/-- RESYNC_COMPLETE (R289, R295): the PAIRED record starts its program; the roles follow it. -/
def execResyncComplete (region : Nat) (s : State) : Host.Outcome State Fault Refusal :=
  s.on fun d =>
    let r := d.region region
    if !d.resyncDone region || d.rht.pends.any fun p => decide (p.region = region) then d
    else if r.role = .rejoining then d.addPend region (d.pairedRecord region (1 - d.side) r.record.epoch) .shadow .resync
    else d.addPend region (d.pairedRecord region d.side r.record.epoch) .owner .resync

/-- PROMOTION (R292, R332, R333, R335): the pair is lost, the drain window has ended and every SOLO record is programmed or has
failed: the regions are served. One that was SHADOW and was not told by QUENCH_NOTICE has a backing hold. -/
def execPromotion (s : State) : Host.Outcome State Fault Refusal :=
  s.on fun d =>
    let mine := d.rht.pends.filter fun p => decide (p.cause = .loss)
    match d.weld.lossAt with
    | none => d
    | some (t, notice) =>
      if decide (d.pair ≠ 0) || mine.any (fun p => !p.done) || d.quenching then d
      else
        let us := (d.now - t) / 1000
        let d := d.setRht fun x => { x with pends := x.pends.filter fun p => decide (p.cause ≠ .loss) }
        let d := d.forEach mine fun d p => d.enterSolo p.region (!notice && decide ((d.region p.region).role = .shadow))
        let d := d.setWeld fun w => { w with lossAt := none }
        if mine.isEmpty then d else (d.setF WELD_PROMOTE_US.US us).raiseR .WELD_PROMOTED [p4 mine.length, p4 us]

end Sys2Proof.Machine
end

