-- ==== Sys2Proof/Machine/Heats.lean ====
section
/-! DEFINITION. The meanings of the heat and journal commands (R172 to R200). -/

namespace Sys2Proof.Machine

open Sys2Proof

/-- HEAT_BOUNDARY (R172, R177): an unlocked timer reaches T_exp. -/
def execHeatBoundary (s : State) : Host.Outcome State Fault Refusal :=
  s.on fun d =>
    if !d.heat.opened || d.fb HEAT_STATUS.LOCKED || d.quenching then d
    else ((d.until d.heat.tExp).setHeat fun x => { x with edgeSeen := false }).boundary

/-- HEAT_SYNC_IN_EDGE (R178): a rising edge, `after` ns from now. -/
def execHeatSyncInEdge (after : Nat) (s : State) : Host.Outcome State Fault Refusal :=
  s.on fun d => (d.until (d.now + after)).syncEdge

/-- HEAT_SYNC_MISS (R178). -/
def execHeatSyncMiss (s : State) : Host.Outcome State Fault Refusal := s.on fun d => d.syncMiss

/-- HEAT_CTRL_WRITE (R177, R179): a register write of the length and the sync enables. -/
def execHeatCtrlWrite (lengthUs : Nat) (syncEn syncOut : Bool) (s : State) : Host.Outcome State Fault Refusal :=
  s.on fun d => d.writeHeatCtrl lengthUs syncEn syncOut 1

/-- HEAT_CTRL_CLOSE_NOW (R179). -/
def execHeatCtrlCloseNow (s : State) : Host.Outcome State Fault Refusal := s.on fun d => d.boundary

/-- HEAT_RESERVATION_DONE (R182): the record is programmed, and a boundary deferred for it is taken; a failed program is told and
stays due. -/
def execHeatReservationDone (ok : Bool) (status : Nat) (s : State) : Host.Outcome State Fault Refusal :=
  s.on fun d =>
    match d.heat.reserve with
    | none => d
    | some r =>
      if ok && !d.aonLow then ((d.programReservation r).setHeat fun x => { x with reserve := none }).retryBoundary
      else d.raiseR .HEAT_RESERVATION_FAIL [p8 r, p1 status]

/-- JOURNAL_PAGE_WRITE (R189): the buffered records of an entry reach both copies. -/
def execJournalPageWrite (die heat : Nat) (receive : Bool) (s : State) : Host.Outcome State Fault Refusal :=
  s.on fun d => ((d.writePages die heat receive).retainCheck die).panicCheck die

/-- HEAT_SEAL (R190, R192, R329): an entry becomes SEALED on a die; the heat's HEAT_CLOSE or HEAT_ACK goes out once it is sealed on
every die. -/
def execHeatSeal (die heat : Nat) (receive : Bool) (s : State) : Host.Outcome State Fault Refusal :=
  s.on fun d =>
    let d := d.sealEntry die heat receive
    if receive then d.ackHeats else d.closeHeats

/-- COMPACT_RECORD (R191, R193, R197): compaction takes a record, or finds its page lost. -/
def execCompactRecord (die : Nat) (lost : Bool) (s : State) : Host.Outcome State Fault Refusal :=
  s.on fun d =>
    if !d.inService die || !d.compacts die || d.quenching then d
    else (if lost then d.losePage die else d.compactRecord die).panicCheck die

/-- JOURNAL_STALL_RELEASE (R193): the writes held at the reserve make their appends once pages are free again. -/
def execJournalStallRelease (s : State) : Host.Outcome State Fault Refusal :=
  s.on fun d =>
    let d := d.retryAll fun r => decide (r.wait = .journal) && !d.atReserve (d.place r.slab).die
    if d.cru.reqs.any fun r => decide (r.wait = .journal) then d else d.setB HEAT_STATUS.JOURNAL_STALL false

/-- TAG_WALK_DONE (R197). -/
def execTagWalkDone (die : Nat) (s : State) : Host.Outcome State Fault Refusal :=
  s.on fun d => if d.fb HEAT_JRNL_STATUS.TAG_WALK die then d.endTagWalk die else d

end Sys2Proof.Machine
end

