-- ==== Sys2Proof/Machine/BackOps.lean ====
section
/-! DEFINITION. The backing tier's operations (R340 to R361): attaching a controller's namespaces, the states of a namespace, and the
outcomes of the commands that move slabs. -/

namespace Sys2Proof.Machine

open Sys2Proof

def Dev.setBack (d : Dev) (f : BackState → BackState) : Dev := { d with back := f d.back }

/-- The code of a namespace's state (R362). -/
def NsState.code : NsState → Nat
  | .absent => 0
  | .attaching => 1
  | .blank => 2
  | .online => 3
  | .detaching => 4
  | .failed => 5
  | .refused => 6

/-- A namespace written, with its register. -/
def Dev.setNs (d : Dev) (n : Nat) (x : Ns) : Dev :=
  (d.setBack fun b => { b with ns := tset b.ns n x }).setF BACK_NS_STATUS.STATE x.state.code 0 n

/-- The namespaces of the image, of a controller, and of a controller in a state. -/
def Dev.allNs (d : Dev) : List Nat := List.range d.swg.cfg.backing.nss.length

def Dev.nsOn (d : Dev) (p : Nat × Nat) : List Nat := d.allNs.filter fun n => decide (d.nsPort n = p)

def Dev.nsIn (d : Dev) (p : Nat × Nat) (st : NsState → Bool) : List Nat := (d.nsOn p).filter fun n => st (d.ns n).state

/-- Whether the image gives a die a root port (R50). -/
def Dev.hasRoot (d : Dev) (p : Nat × Nat) : Bool := d.isDie p.1 && decide (p.2 < (d.swg.cfg.rootPorts p.1).length)

/-- The source Hearth of a namespace's events: the die of its root port (R364). -/
def Dev.raiseN (d : Dev) (e : Ev) (n : Nat) (payload : Fields) : Dev := d.raise e (d.nsPort n).1 payload

/-! ### The commands that move slabs (R341, R349, R356) -/

/-- The command of a slab that is outstanding at its drive. -/
inductive BackCmd
  | fill | destage
  | uncached (rid : Nat)
  | stageRead (rid : Nat)
  | stageWrite (rid : Nat)
  deriving DecidableEq, Repr

/-- The command of a slab: at most one at a time (R349). -/
def Dev.command (d : Dev) (slab : Nat) : Option BackCmd :=
  if tget d.cru.fills slab = some false then some .fill
  else if (tget d.cru.destages slab).isSome then some .destage
  else match d.stagingOf slab with
    | some (rid, g) => if g.phase = 0 then some (.stageRead rid) else if g.phase = 1 then some (.stageWrite rid) else none
    | none => (d.cru.reqs.find? fun r => decide (r.slab = slab ∧ r.wait = .uncached)).map fun r => .uncached r.rid

/-- Whether it is outstanding: its namespace serves, no retry delay runs, and no quench has abandoned it (R164, R361). -/
def Dev.outstanding (d : Dev) (slab : Nat) : Option BackCmd :=
  if d.nsServes (d.nsOf slab) && !d.back.delayed.contains slab && !d.quenching then d.command slab else none

/-- Whether a command is a Read. -/
def BackCmd.reads : BackCmd → Bool
  | .fill => true
  | .uncached _ => true
  | .stageRead _ => true
  | _ => false

/-- The NVMe opcode of a command: Read 0x02, Write 0x01. -/
def BackCmd.opcode (c : BackCmd) : Nat := if c.reads then 2 else 1

/-- The slabs of a namespace with a command. -/
def Dev.commandSlabs (d : Dev) (n : Nat) : List Nat :=
  (dedup (d.cru.fills.map (·.1) ++ d.cru.destages.map (·.1) ++ d.cru.staging.map (·.2.slab) ++
    (d.cru.reqs.filter fun r => decide (r.wait = .uncached)).map (·.slab))).filter fun x => decide (d.nsOf x = n) && (d.command x).isSome

/-- A slab's command goes out again. -/
def Dev.reissue (d : Dev) (slab : Nat) : Dev :=
  let n := d.nsOf slab
  match d.command slab with
  | none => d
  | some c => match c with
    | .destage => d.emit (.nvmeWrite n slab (d.encrypt slab (d.lines slab)))
    | .stageWrite rid => match tget d.cru.staging rid with
      | some g => d.emit (.nvmeWrite n slab (d.encrypt slab ((List.range 64).map fun i => tgetD g.lines i 0)))
      | none => d
    | _ => d.emit (.nvmeRead n slab)

/-- A slab's command leaves the retry bookkeeping. -/
def Dev.forget (d : Dev) (slab : Nat) : Dev :=
  d.setBack fun b => { b with retries := tdel b.retries slab, delayed := b.delayed.filter fun x => decide (x ≠ slab),
                              reissued := b.reissued.filter fun x => decide (x ≠ slab) }

/-- The end of a slab's command for the Crucible. -/
def Dev.endCommand (d : Dev) (slab : Nat) (c : BackCmd) (ok : Bool) (status : Nat) (data : List Line) : Dev :=
  let d := d.forget slab
  match c with
  | .fill => if ok then d.landFill slab (d.decrypt slab data) else d.failFill slab status
  | .destage => if ok then (d.endDestage slab).cleanDone slab else d.failDestage slab status
  | .uncached rid => d.uncachedDone rid ok data
  | .stageRead rid => d.stageReadDone rid ok status data
  | .stageWrite rid => d.stageWriteDone rid ok status

/-! ### The states of a namespace (R343, R357, R358) -/

/-- The fills and accesses of a namespace that has become neither serving nor waiting fail, its destages in flight fail, and the
written-through writes that wait for them complete (R343, R358). -/
def Dev.dropCommands (d : Dev) (n : Nat) : Dev :=
  let d := d.forEach (d.commandSlabs n) fun d x => match d.command x with
    | some .fill => (d.forget x).failFill x 0
    | some .destage => ((d.forget x).failDestage x 0).completeThrough x none
    | some (.uncached rid) => (d.forget x).uncachedDone rid false []
    | some (.stageRead rid) => (d.forget x).stageReadDone rid false 0 []
    | some (.stageWrite rid) => (d.forget x).stageWriteDone rid false 0
    | none => d
  d.retryAll fun r => decide (r.wait = .backing) && decide (d.nsOf r.slab = n)

/-- A namespace is ONLINE (R343, R346, R359): what waited for it goes on, and its stranded slabs come first. -/
def Dev.nsOnline (d : Dev) (n : Nat) : Dev :=
  let x := d.ns n
  let dirty := ((d.validTags.filter fun e => decide (e.2.mask ≠ 0) && decide (d.nsOf e.2.slab = n)).map (·.2.slab))
  let d := (d.setNs n { x with state := .online, tried := true, failsRow := 0, reported := 0 }).setF BACK_NS_STATUS.CAUSE 0 0 n
  let d := if x.tried then d.setCru fun c => { c with first := dedup (c.first ++ dirty) } else d
  let p := d.nsPort n
  let d := d.raiseN .BACK_NS_ONLINE n [p4 n, p1 p.1, p1 p.2, p2 x.lba, p4 (d.f BACK_NS_STATUS.QUEUES 0 n)]
  let d := d.forEach (d.commandSlabs n) fun d s => d.reissue s
  let d := d.forEach (d.cru.staging.filter fun e => decide (e.2.phase = 2) && decide (d.nsOf e.2.slab = n)) fun d e => d.runStaging e.1 e.2
  d.retryAll fun r => decide (r.wait = .backing) && decide (d.nsOf r.slab = n)

/-- A namespace is REFUSED (R342). -/
def Dev.nsRefuse (d : Dev) (n cause step : Nat) : Dev :=
  let d := (d.setNs n { d.ns n with state := .refused, tried := true }).setF BACK_NS_STATUS.CAUSE cause 0 n
  (d.raiseN .BACK_NS_REFUSED n [p4 n, p1 cause, p4 step]).dropCommands n

/-- A namespace FAILED (R357, R358), from ONLINE or DETACHING. -/
def Dev.nsFail (d : Dev) (n cause : Nat) : Dev :=
  let x := d.ns n
  if x.state ≠ .online ∧ x.state ≠ .detaching then d
  else
    let d := (d.setNs n { x with state := .failed, failsRow := 0 }).setF BACK_NS_STATUS.CAUSE cause 0 n
    let c := d.stranded n
    let d := d.raiseN .BACK_NS_FAILED n [p4 n, p1 cause, p4 c]
    let d := (d.setNs n { d.ns n with reported := c }).raiseN .BACK_STRANDED n [p4 n, p4 c]
    d.dropCommands n

/-- Every namespace of a controller fails. -/
def Dev.ctrlFail (d : Dev) (p : Nat × Nat) (cause : Nat) : Dev := d.forEach (d.nsOn p) fun d n => d.nsFail n cause

/-- A command ended as failed is counted; 64 in a row fail the namespace (R356, R357, R362). -/
def Dev.countFailed (d : Dev) (n : Nat) : Dev :=
  let d := d.incF BACK_NS_ERRORS.COUNT 0 n
  let d := d.setNs n { d.ns n with failsRow := (d.ns n).failsRow + 1 }
  if 64 ≤ (d.ns n).failsRow then d.nsFail n 15 else d

/-- The log pages read after an error status (R341). -/
def Dev.readLogs (d : Dev) (n : Nat) : Dev :=
  d.emits [.nvmeCmd "Get Log Page 02h" n 0 0, .nvmeCmd "Get Log Page 01h" n 0 0]

/-- An outcome of a slab's command (R356). `status` is SCT in bits 10:8 and SC in bits 7:0; 0 is success. -/
def Dev.ioOutcome (d : Dev) (slab : Nat) (c : BackCmd) (status : Nat) (dnr : Bool) (data : List Line) (errorLog : Nat) : Dev :=
  let n := d.nsOf slab
  let p := d.nsPort n
  if status = 0 then
    let d := if c.reads then d.incF BACK_PORT_READS.COUNT p.1 p.2 else d.incF BACK_PORT_WRITES.COUNT p.1 p.2
    (d.setNs n { d.ns n with failsRow := 0 }).endCommand slab c true 0 data
  else
    let d := d.readLogs n
    if c.reads ∧ status = 0x281 then
      ((d.raiseN .BACK_READ_ERROR n [p4 n, p5 slab, p8 errorLog]).endCommand slab c false status []).countFailed n
    else if !c.reads ∧ status = 0x280 then
      ((d.raiseN .BACK_WRITE_ERROR n [p4 n, p5 slab, p8 errorLog]).endCommand slab c false status []).countFailed n
    else
      let k := tgetD d.back.retries slab 0
      if !dnr ∧ k < 3 then
        let d := d.setBack fun b => { b with retries := tset b.retries slab (k + 1), delayed := b.delayed ++ [slab] }
        (d.incF BACK_PORT_RETRIES.COUNT p.1 p.2).raiseN .BACK_CMD_RETRY n [p4 n, p2 c.opcode, p2 status]
      else
        ((d.raiseN .BACK_CMD_ERROR n [p4 n, p2 c.opcode, p2 status, p5 slab]).endCommand slab c false status []).countFailed n

/-! ### Attach (R342) -/

def Dev.setAttach (d : Dev) (p : Nat × Nat) (a : Attach) : Dev := d.setBack fun b => { b with attach := tset b.attach p a }

/-- The attach of a controller has no namespace left to answer for. -/
def Dev.endAttach (d : Dev) (p : Nat × Nat) : Dev := d.setBack fun b => { b with attach := tdel b.attach p }

/-- The command that a step of R342 issues. -/
def stepName (step : Nat) : String :=
  match step with
  | 3 => "Identify 01h"
  | 4 => "Identify 00h"
  | 5 => "Set Features 06h"
  | 6 => "Set Features 07h"
  | 7 => "Set Features 02h"
  | 8 => "Get Log Page 02h"
  | 9 => "Create I/O Queues"
  | 10 => "Read label"
  | _ => "CC.EN"

/-- A step begins (R342): steps 4 and 10 once for each namespace still attaching, the others once for the controller. Step 5 is skipped
where no volatile write cache is reported. -/
def Dev.beginStep (d : Dev) (p : Nat × Nat) (step : Nat) : Dev :=
  let mine := d.nsIn p fun s => decide (s = .attaching)
  let a := tgetD d.back.attach p ⟨0, [], false, 0⟩
  let step := if step = 5 ∧ a.cache = false then 6 else step
  if mine.isEmpty then d.endAttach p
  else
    let d := d.setAttach p { a with step := step, todo := if step = 4 ∨ step = 10 then mine else [] }
    if step = 4 ∨ step = 10 then d.emits (mine.map fun n => .nvmeCmd (stepName step) n 0 0)
    else d.emit (.nvmeCmd (stepName step) (mine.headD 0) 0 0)

/-- A check that fails for a whole controller (R342). -/
def Dev.refuseAll (d : Dev) (p : Nat × Nat) (cause step : Nat) : Dev :=
  (d.forEach (d.nsIn p fun s => decide (s = .attaching)) fun d n => d.nsRefuse n cause step).endAttach p

/-- A namespace's own step answered; the next step follows the last namespace's. -/
def Dev.nsAnswered (d : Dev) (p : Nat × Nat) (n step : Nat) : Dev :=
  match tget d.back.attach p with
  | none => d
  | some a =>
    let todo := a.todo.filter fun x => decide (x ≠ n)
    if todo.isEmpty then (if step = 10 then d.endAttach p else d.beginStep p (step + 1)) else d.setAttach p { a with todo := todo }

/-- The label that this package writes and looks for (R344, R345). -/
def Dev.labelFields (d : Dev) (n gen : Nat) : LabelRead :=
  let b := d.swg.cfg.backing
  let digest := Config.backingDigest (b.stripe :: (b.nss.map fun c => [c.die, c.port, c.nsid, c.slabs]).flatten) % 2 ^ 128
  { magic := magicOf 0x42 0x4B 0x4C 0x42, format := 1, nsIndex := n, digest := digest, keyCheck := Config.keyCheck d.back.xtsKey % 2 ^ 64,
    nsSlabs := ((b.nss[n]?).map (·.slabs)).getD 0, stripe := b.stripe, gen := gen, reservedOk := true, digestOk := true }

/-- Whether a label matches (R345): LABEL_GEN may be any. -/
def Dev.labelMatches (d : Dev) (n : Nat) (l : LabelRead) : Bool := decide (l = d.labelFields n l.gen)

/-- A label written with FUA, the rest of its area zeroed, and a Flush (R344, R346). LABEL_ID is drawn: a free value (assumption 3).
Causes: 0 adopt, 1 sanitize. -/
def Dev.writeLabel (d : Dev) (n gen cause : Nat) : Dev :=
  let l := d.labelFields n gen
  let id := d.freeVal
  let d := d.tick.setNs n { d.ns n with labelGen := gen }
  let d := d.emit (.nvmeLabel n [(4, l.magic), (2, l.format), (2, n), (8, id), (16, l.digest), (8, l.keyCheck), (8, l.nsSlabs), (4, l.stripe),
    (4, gen), (8, d.openHeat), (8, d.pkg.packageId)])
  d.raiseN .BACK_LABEL_WRITTEN n [p4 n, p4 gen, p1 cause]

/-- The attach of a namespace begins (R343): it waits for its link, or goes on with step 2. -/
def Dev.startAttach (d : Dev) (n : Nat) : Dev :=
  let p := d.nsPort n
  let d := d.setNs n { d.ns n with state := .attaching }
  if d.fb BACK_PORT_STATUS.LINK_UP p.1 p.2 then d.beginStep p 2 else d.setAttach p ⟨1, [], false, 0⟩

/-- An attach command's answer (R342). -/
def Dev.attachAnswer (d : Dev) (p : Nat × Nat) (n : Nat) (a : Attach) (r : AdminResult) : Dev :=
  match a.step, r with
  | 3, .identifyController ver wz wc =>
    if ver < 0x10400 then d.refuseAll p 2 3
    else if !wz then d.refuseAll p 10 3
    else (d.setAttach p { a with cache := wc }).beginStep p 4
  | 4, .identifyNamespace active lba md dps nsze atomic nabspf dlfeat =>
    if !a.todo.contains n then d
    else
      let slabs := ((d.swg.cfg.backing.nss[n]?).map (·.slabs)).getD 0
      let bad := if !active then 5
        else if !(decide (lba = 512 ∨ lba = 4096) && decide (md = 0 ∧ dps = 0)) then 6
        else if nsze * lba < 65536 + slabs * 4096 then 7
        else if atomic < 4096 ∨ nabspf % 4096 ≠ 0 then 9
        else 0
      if bad ≠ 0 then (d.nsRefuse n bad 4).nsAnswered p n 4
      else
        let d := d.setNs n { d.ns n with lba := lba, dsm := decide (dlfeat = 1 ∨ dlfeat = 2) }
        (d.setB BACK_NS_STATUS.LBA512 (decide (lba = 512)) 0 n).nsAnswered p n 4
  | 5, .cacheDisabled ok => if ok then d.beginStep p 6 else d.refuseAll p 8 5
  | 6, .queues sq cq =>
    let g := Nat.min 64 (Nat.min sq cq)
    if g < 4 then d.refuseAll p 4 6 else (d.setAttach p { a with granted := g }).beginStep p 7
  | 7, .power ok => if ok then d.beginStep p 8 else d.refuseAll p 1 7
  | 8, .smart w used =>
    let mine := d.nsIn p fun s => decide (s = .attaching)
    let d := d.forEach mine fun d n => d.setF BACK_NS_STATUS.SMART_WARN w 0 n
    let d := if bit w 0 || bit w 2 then d.forEach mine fun d n => d.raiseN .BACK_SMART_WARNING n [p4 n, p1 w, p1 used] else d
    if bit w 3 || bit w 4 then d.refuseAll p 12 8 else d.beginStep p 9
  | 9, .ioQueues pairs mqes =>
    if pairs < Nat.min a.granted 64 ∨ Nat.min (mqes + 1) 1024 < 64 then d.refuseAll p 4 9
    else
      let d := d.forEach (d.nsIn p fun s => decide (s = .attaching)) fun d n => d.setF BACK_NS_STATUS.QUEUES pairs 0 n
      (d.setB BACK_PORT_STATUS.CTRL_READY true p.1 p.2).beginStep p 10
  | 10, .label l =>
    if !a.todo.contains n then d
    else match l with
      | none => ((d.setNs n { d.ns n with state := .blank, tried := true }).raiseN .BACK_NS_BLANK n [p4 n]).nsAnswered p n 10
      | some l =>
        if d.labelMatches n l then ((d.setNs n { d.ns n with labelGen := l.gen }).nsOnline n).nsAnswered p n 10
        else (d.nsRefuse n 11 10).nsAnswered p n 10
  | _, _ => d

/-- The shutdown sequence of a controller (R360, R361). -/
def Dev.shutdownCtrl (d : Dev) (p : Nat × Nat) : Dev :=
  let n := (d.nsOn p).headD 0
  (d.emits [.nvmeCmd "Flush" n 0 0, .nvmeCmd "CC.SHN 01b" n 0 0]).setB BACK_PORT_STATUS.CTRL_READY false p.1 p.2

/-- The critical warnings of a SMART log (R341, R342, R357). -/
def Dev.smartLog (d : Dev) (p : Nat × Nat) (w used : Nat) : Dev :=
  let d := d.forEach (d.nsOn p) fun d n => d.setF BACK_NS_STATUS.SMART_WARN w 0 n
  let d := if bit w 0 || bit w 2 then d.forEach (d.nsOn p) fun d n => d.raiseN .BACK_SMART_WARNING n [p4 n, p1 w, p1 used] else d
  if bit w 3 || bit w 4 then d.ctrlFail p 12 else d

end Sys2Proof.Machine
end

