-- ==== Sys2Proof/Machine/Backing.lean ====
section
/-! DEFINITION. The meanings of the backing tier's commands (R340 to R361). -/

namespace Sys2Proof.Machine

open Sys2Proof

/-- NVME_LINK_UP (R343): with AUTO_ATTACH the namespaces of the port attach; an attach that waited for the link goes on. -/
def execNvmeLinkUp (die port width rate : Nat) (s : State) : Host.Outcome State Fault Refusal :=
  s.on fun d =>
    let p := (die, port)
    if !d.hasRoot p || !d.inService die || d.quenching || d.fb BACK_PORT_STATUS.LINK_UP die port then d
    else
      let d := ((d.setB BACK_PORT_STATUS.LINK_UP true die port).setF BACK_PORT_STATUS.WIDTH width die port).setF BACK_PORT_STATUS.RATE rate die port
      let d := d.setBack fun b => { b with downAt := tdel b.downAt p }
      let idle := fun (s : NsState) => decide (s = .absent ∨ s = .failed ∨ s = .refused)
      let d := if d.fb BACK_CTRL.AUTO_ATTACH then d.forEach (d.nsIn p idle) fun d n => d.setNs n { d.ns n with state := .attaching } else d
      let fresh := match tget d.back.attach p with | some a => decide (a.step ≤ 1) | none => true
      if fresh then d.beginStep p 2 else d

/-- NVME_LINK_DOWN (R357): the 1 s count starts. -/
def execNvmeLinkDown (die port : Nat) (s : State) : Host.Outcome State Fault Refusal :=
  s.on fun d =>
    if d.fb BACK_PORT_STATUS.LINK_UP die port then
      let d := ((d.setB BACK_PORT_STATUS.LINK_UP false die port).setF BACK_PORT_STATUS.WIDTH 0 die port).setF BACK_PORT_STATUS.RATE 0 die port
      d.setBack fun b => { b with downAt := tset b.downAt (die, port) d.now }
    else d

/-- NVME_LINK_DOWN_TIMEOUT (R342, R357): cause 13; an attach under way is refused with it. -/
def execNvmeLinkDownTimeout (die port : Nat) (s : State) : Host.Outcome State Fault Refusal :=
  s.on fun d =>
    let p := (die, port)
    match tget d.back.downAt p with
    | some t =>
      let d := (d.until (t + 1000000000)).setBack fun b => { b with downAt := tdel b.downAt p }
      (((d.setB BACK_PORT_STATUS.CTRL_READY false die port).refuseAll p 13 1).ctrlFail p 13)
    | none => d

/-- NVME_CONTROLLER_FATAL (R357): CSTS.CFS is set; cause 14. -/
def execNvmeControllerFatal (die port : Nat) (s : State) : Host.Outcome State Fault Refusal :=
  s.on fun d => if d.hasRoot (die, port) then d.ctrlFail (die, port) 14 else d

/-- NVME_CONTROLLER_READY (R342, step 2). -/
def execNvmeControllerReady (die port : Nat) (ready cssOk pageOk : Bool) (s : State) : Host.Outcome State Fault Refusal :=
  s.on fun d =>
    let p := (die, port)
    match tget d.back.attach p with
    | some a =>
      if a.step ≠ 2 then d
      else if !cssOk then d.refuseAll p 2 2
      else if !pageOk then d.refuseAll p 3 2
      else if !ready then d.refuseAll p 1 2
      else d.beginStep p 3
    | none => d

/-- NVME_ATTACH_LINK_TIMEOUT (R342, step 1). -/
def execNvmeAttachLinkTimeout (die port : Nat) (s : State) : Host.Outcome State Fault Refusal :=
  s.on fun d =>
    match tget d.back.attach (die, port) with
    | some a => if a.step = 1 then d.refuseAll (die, port) 13 1 else d
    | none => d

/-- NVME_ADMIN_COMPLETE (R342). -/
def execNvmeAdminComplete (die port ns : Nat) (result : AdminResult) (s : State) : Host.Outcome State Fault Refusal :=
  s.on fun d =>
    match tget d.back.attach (die, port) with
    | some a => d.attachAnswer (die, port) ns a result
    | none => d

/-- NS_ATTACH (R343, R362): ignored in ATTACHING, BLANK, ONLINE and DETACHING. -/
def execNsAttach (ns : Nat) (s : State) : Host.Outcome State Fault Refusal :=
  s.on fun d =>
    let st := (d.ns ns).state
    if ns < d.swg.cfg.backing.nss.length ∧ (st = .absent ∨ st = .failed ∨ st = .refused) ∧ d.quenching = false then d.startAttach ns else d

/-- NS_ADOPT (R346, R362): ignored unless BLANK. -/
def execNsAdopt (ns : Nat) (s : State) : Host.Outcome State Fault Refusal :=
  s.on fun d => if (d.ns ns).state = .blank ∧ d.quenching = false then (d.writeLabel ns 1 0).nsOnline ns else d

/-- NS_DETACH (R360, R362): ignored unless ONLINE. -/
def execNsDetach (ns : Nat) (s : State) : Host.Outcome State Fault Refusal :=
  s.on fun d => if (d.ns ns).state = .online then d.setNs ns { d.ns ns with state := .detaching, detached := 0 } else d

/-- DETACH_COMPLETE (R343, R360): no dirty slab and no command of the namespace is left. -/
def execDetachComplete (ns : Nat) (s : State) : Host.Outcome State Fault Refusal :=
  s.on fun d =>
    let dirty := (d.validTags.any fun e => decide (e.2.mask ≠ 0) && decide (d.nsOf e.2.slab = ns)) ||
      d.cru.staging.any fun e => decide (d.nsOf e.2.slab = ns)
    if (d.ns ns).state ≠ .detaching ∨ dirty ∨ d.commandSlabs ns ≠ [] then d
    else
      let p := d.nsPort ns
      let d := d.setNs ns { d.ns ns with state := .absent, tried := true }
      let d := d.raiseN .BACK_NS_DETACHED ns [p4 ns, p4 (d.ns ns).detached]
      let d := if (d.nsIn p fun s => decide (s = .online)).isEmpty then d.shutdownCtrl p else d
      d.dropCommands ns

/-- NVME_IO_COMPLETE (R356): a completion of a slab's command, with its status (0 is success) and DNR, the data of a Read as ciphertext,
and bytes 0 to 7 of the error log entry. -/
def execNvmeIoComplete (slab status : Nat) (dnr : Bool) (data : List Line) (errorLog : Nat) (s : State) : Host.Outcome State Fault Refusal :=
  s.on fun d => match d.outstanding slab with
    | some c => d.ioOutcome slab c status dnr data errorLog
    | none => d

/-- NVME_RETRY (R356): a retry delay has run out. -/
def execNvmeRetry (slab : Nat) (s : State) : Host.Outcome State Fault Refusal :=
  s.on fun d =>
    if d.back.delayed.contains slab && !d.quenching then
      (d.setBack fun b => { b with delayed := b.delayed.filter fun x => decide (x ≠ slab) }).reissue slab
    else d

/-- NVME_IO_TIMEOUT (R356): the controller is reset; a command that has been reissued ends as failed. The status item of its
BACK_CMD_ERROR names no status: a free value (assumption 3). -/
def execNvmeIoTimeout (slab : Nat) (s : State) : Host.Outcome State Fault Refusal :=
  s.on fun d => match d.outstanding slab with
    | none => d
    | some c =>
      let n := d.nsOf slab
      let p := d.nsPort n
      let sIn := slab / d.swg.cfg.backing.stripe / d.swg.cfg.backing.nss.length * d.swg.cfg.backing.stripe + slab % d.swg.cfg.backing.stripe
      let queue := sIn % d.f BACK_NS_STATUS.QUEUES 0 n
      let d := (d.incF BACK_PORT_TIMEOUTS.COUNT p.1 p.2).raiseN .BACK_CMD_TIMEOUT n [p4 n, p2 c.opcode, p1 queue]
      let d := if d.back.reissued.contains slab then
          ((d.tick.raiseN .BACK_CMD_ERROR n [p4 n, p2 c.opcode, p2 d.freeVal, p5 slab]).endCommand slab c false 0 []).countFailed n
        else d
      let d := d.setB BACK_PORT_STATUS.CTRL_READY false p.1 p.2
      if d.back.resetting.contains p then d
      else (d.setBack fun b => { b with resetting := b.resetting ++ [p] }).emit (.nvmeCmd "CC.EN 0" n 0 0)

/-- CONTROLLER_RESET_DONE (R356): outcome 0 done, 1 failed (assumption 8). -/
def execControllerResetDone (die port : Nat) (ok : Bool) (s : State) : Host.Outcome State Fault Refusal :=
  s.on fun d =>
    let p := (die, port)
    if !d.back.resetting.contains p then d
    else
      let d := (d.setBack fun b => { b with resetting := b.resetting.filter fun x => decide (x ≠ p) }).incF BACK_PORT_RESETS.COUNT die port
      let d := d.raise .BACK_CTRL_RESET die [p1 port, p4 (b2n (!ok))]
      if !ok then d.ctrlFail p 14
      else
        let d := d.setB BACK_PORT_STATUS.CTRL_READY true die port
        d.forEach (((d.nsOn p).map d.commandSlabs).flatten.filter fun x => (d.outstanding x).isSome && !d.back.reissued.contains x) fun d x =>
          (d.setBack fun b => { b with reissued := b.reissued ++ [x] }).reissue x

/-- SMART_POLL (R341, R357): the SMART log of a controller, every 60 s. -/
def execSmartPoll (die port warning used : Nat) (s : State) : Host.Outcome State Fault Refusal :=
  s.on fun d =>
    if d.hasRoot (die, port) && d.fb BACK_PORT_STATUS.CTRL_READY die port && !d.quenching then
      (d.emit (.nvmeCmd "Get Log Page 02h" ((d.nsOn (die, port)).headD 0) 0 0)).smartLog (die, port) warning used
    else d

end Sys2Proof.Machine
end

