-- ==== Sys2Proof/Machine/ChanOps.lean ====
section
/-! DEFINITION. The Hearth channels (R365 to R391): the queues and the priority rules, the command of a slot, row-hammer tables,
refresh, the Anvil code's results, alerts, freeze and thaw. What DDR5 timing allows at a slot is outside the manual: it comes with
the command. -/

namespace Sys2Proof.Machine

open Sys2Proof

/-- A channel beside its registers; before its SPD is read it has no rank. Every credit starts at 0 (assumption 17). -/
def Dev.chan (d : Dev) (die c : Nat) : Chan :=
  tgetD d.chans (die, c)
    { ranks := [], map := [], spare := none, density := 0, raaimt := 0, nextId := 0, queue := [], held := [], flying := [], credit := [],
      throttled := [], panic := [], tables := [], raa := [], rfm := [], rows := [], busWrite := false, must := [], fine := [],
      lastReq := [], exiting := [], tempFails := [], tempLost := [], cmds := [], log := [], trace := [], rewrites := [], scrubPos := 0,
      scrubCorrected := 0, scrubBad := 0, scrubStart := 0, alert := none, lastAlert := none, frozenAt := 0, freezeLine := none,
      freezeRead := none, thawWait := none, rowCe := [], ceTimes := [], copy := none, inForce := [], lkg := [], run := none,
      runWait := none, cycle := none, cand := none, lastCycle := [], passed := [] }

def Dev.setChan (d : Dev) (die c : Nat) (x : Chan) : Dev := { d with chans := tset d.chans (die, c) x }

def Dev.modChan (d : Dev) (die c : Nat) (f : Chan → Chan) : Dev := d.setChan die c (f (d.chan die c))

/-- The global channel (R395): four a die. -/
def gchan (die c : Nat) : Nat := 4 * (die - 1) + c

/-- STATE of a channel (R392). -/
def Dev.chanState (d : Dev) (die c : Nat) : Nat := d.f CHAN_STATUS.STATE die c

/-- The QOS values of a requester (R55). -/
def Dev.qos (d : Dev) (r : Nat) : ReqCfg := d.swg.cfg.qos.reqs.getD r ⟨0, 0, 0, 0⟩

/-- SOURCE of a log or trace entry (R394). -/
def sourceByte (r srcDie : Nat) : Nat := r % 32 + 32 * ((srcDie - 1) % 8)

/-- The channel island's clock in MHz: half the DRAM clock (R21). -/
def Dev.chanMhz (d : Dev) : Nat := [1600, 1400, 1200].getD d.swg.cfg.dram.speed 1600

/-! ### Commands on the bus (R374, R394) -/

/-- A command issued: it joins the last 256. -/
def Dev.issue (d : Dev) (die c cmd rank bank row line source : Nat) (req : Option CReq) : Dev :=
  d.modChan die c fun x =>
    let l := x.cmds ++ [⟨cmd, rank, bank, source, row, line, d.now, req⟩]
    { x with cmds := l.drop (l.length - 256) }

/-- The open row of a bank. -/
def Chan.openRow (x : Chan) (rank bank : Nat) : Option OpenRow := x.rows.find? fun r => decide (r.rank = rank ∧ r.bank = bank)

/-- PREab of a rank. -/
def Dev.preAll (d : Dev) (die c rank : Nat) : Dev :=
  (d.issue die c 5 rank 0 0 0 0 none).modChan die c fun x => { x with rows := x.rows.filter fun r => decide (r.rank ≠ rank) }

/-- A count of ACTs falls by RAAIMT at a refresh or an RFM (R380; by DDR5, assumption 18). -/
def Chan.ease (x : Chan) (p : Nat × Nat → Bool) : Chan :=
  { x with raa := x.raa.map fun e => if p e.1 then (e.1, e.2 - x.raaimt) else e }

/-- One owed refresh issued: REFab, or in fine-granularity mode REFsb to the four bank addresses (R381). -/
def Dev.oneRefresh (d : Dev) (die c rank : Nat) : Dev :=
  let d := if (d.chan die c).fine.contains rank && decide (d.chanState die c ≠ 3) then
      d.forEach (List.range 4) fun d b => d.issue die c 7 rank b 0 0 0 none
    else d.issue die c 6 rank 0 0 0 0 none
  (d.setF CHAN_RANK_STATUS.OWED (d.f CHAN_RANK_STATUS.OWED die c rank - 1) die c rank).modChan die c fun x => x.ease fun k => decide (k.1 = rank)

/-- Every owed refresh of a rank issued, its rows closed first (R381, R383). A frozen channel issues REFab alone (R389). -/
def Dev.issueOwed (d : Dev) (die c rank : Nat) : Dev :=
  let n := d.f CHAN_RANK_STATUS.OWED die c rank
  let hasRow := (d.chan die c).rows.any fun r => decide (r.rank = rank)
  let d := if n ≠ 0 && hasRow && decide (d.chanState die c ≠ 3) then d.preAll die c rank else d
  let d := d.forEach (List.range n) fun d _ => d.oneRefresh die c rank
  d.modChan die c fun x => { x with must := x.must.filter fun r => decide (r ≠ rank) }

/-- An RFM to a bank, its row closed first (R379, R380). -/
def Dev.issueRfm (d : Dev) (die c rank bank : Nat) : Dev :=
  let d := match (d.chan die c).openRow rank bank with
    | some _ => (d.issue die c 4 rank bank 0 0 0 none).modChan die c fun x =>
        { x with rows := x.rows.filter fun r => decide (r.rank ≠ rank ∨ r.bank ≠ bank) }
    | none => d
  ((d.issue die c 9 rank bank 0 0 0 none).incF CHAN_RFM.COUNT die c).modChan die c fun x =>
    { x.ease fun k => decide (k = (rank, bank)) with rfm := x.rfm.filter fun k => decide (k ≠ (rank, bank)) }

/-- Whether a rank has a queued request. -/
def Chan.busy (x : Chan) (rank : Nat) : Bool := x.queue.any fun r => decide (r.rank = rank)

/-- Whether refreshes of a rank may be postponed now (R381 to R383). -/
def Dev.mayPostpone (d : Dev) (die c rank : Nat) : Bool :=
  d.fb CHAN_REF_CTRL.POSTPONE_EN die c && !d.fb CHAN_RANK_STATUS.POSTPONE_OFF die c rank

/-- When a rank's queue is empty, every owed refresh is issued (R381). -/
def Dev.idleRefresh (d : Dev) (die c rank : Nat) : Dev :=
  if (d.chan die c).busy rank || decide (d.f CHAN_RANK_STATUS.OWED die c rank = 0) || d.fb CHAN_RANK_STATUS.SELF_REFRESH die c rank then d
  else d.issueOwed die c rank

/-- The refresh of a rank falls due (R381): in self-refresh the rank refreshes itself. -/
def Dev.refreshDue (d : Dev) (die c rank : Nat) : Dev :=
  if d.fb CHAN_RANK_STATUS.SELF_REFRESH die c rank then d
  else
    let n := d.f CHAN_RANK_STATUS.OWED die c rank
    let d := d.setF CHAN_RANK_STATUS.OWED (n + 1) die c rank
    if !(d.chan die c).busy rank then d.issueOwed die c rank
    else if n + 1 < 5 && d.mayPostpone die c rank then d
    else if d.chanState die c = 3 then d.issueOwed die c rank
    else d.modChan die c fun x => { x with must := if x.must.contains rank then x.must else x.must ++ [rank] }

/-! ### Row-hammer tables (R378, R379) -/

/-- An ACT of a requester to a row changes the bank's table. -/
def rhActivate (t : List RhEntry) (row r : Nat) : List RhEntry :=
  if t.any fun e => decide (e.row = row) then
    t.map fun e =>
      if e.row ≠ row then e
      else if e.cand = r then { e with count := saturate 16 (e.count + 1), conf := Nat.min 15 (e.conf + 1) }
      else if e.conf ≤ 1 then { e with count := saturate 16 (e.count + 1), cand := r, conf := 1 }
      else { e with count := saturate 16 (e.count + 1), conf := e.conf - 1 }
  else if t.length < 16 then t ++ [⟨row, 1, r, 1⟩]
  else (t.map fun e => { e with count := e.count - 1 }).filter fun e => decide (e.count ≠ 0)

/-- Whether a requester is throttled now: not while it is in panic, and never after T0 (R379). -/
def Dev.isThrottled (d : Dev) (die c r : Nat) : Bool :=
  let x := d.chan die c
  (tget x.throttled r).isSome && !x.panic.contains r && !d.quenching

/-- CHAN_THROTTLED.MASK as the throttled requesters are. -/
def Dev.showThrottled (d : Dev) (die c : Nat) : Dev := d.setF CHAN_THROTTLED.MASK (maskOf ((d.chan die c).throttled.map (·.1))) die c

/-- A row has reached RH_THRESHOLD (R379). -/
def Dev.rhTrigger (d : Dev) (die c rank bank row : Nat) : Dev :=
  let x := d.chan die c
  let t := tgetD x.tables (rank, bank) []
  match t.find? fun e => decide (e.row = row ∧ d.swg.cfg.qos.rhThreshold ≤ e.count) with
  | none => d
  | some e =>
    let cool := d.swg.cfg.qos.rhCooldown
    let d := d.modChan die c fun x =>
      { x with tables := tset x.tables (rank, bank) (t.map fun e => if e.row = row then { e with count := 0 } else e),
               rfm := if x.rfm.contains (rank, bank) then x.rfm else x.rfm ++ [(rank, bank)],
               throttled := if d.quenching then x.throttled else tset x.throttled e.cand (d.now + 1000 * cool) }
    ((d.showThrottled die c).incF CHAN_RH_TRIGGERS.COUNT die c).raise .CHAN_RH_THROTTLE die
      [p1 (gchan die c), p1 rank, p1 bank, p4 row, p1 e.cand, p4 cool]

/-- An ACT for a request: the row opens, and the tracking tables and the rolling count follow (R378 to R380). -/
def Dev.activate (d : Dev) (die c : Nat) (r : CReq) : Dev :=
  let d := d.issue die c 1 r.rank r.bank r.row 0 (sourceByte r.requester r.srcDie) none
  let d := d.modChan die c fun x =>
    let n := tgetD x.raa (r.rank, r.bank) 0 + 1
    { x with rows := x.rows ++ [⟨r.rank, r.bank, r.row, d.now⟩],
             tables := tset x.tables (r.rank, r.bank) (rhActivate (tgetD x.tables (r.rank, r.bank) []) r.row r.requester),
             raa := tset x.raa (r.rank, r.bank) n,
             rfm := if x.raaimt ≠ 0 ∧ x.raaimt ≤ n ∧ !x.rfm.contains (r.rank, r.bank) then x.rfm ++ [(r.rank, r.bank)] else x.rfm }
  d.rhTrigger die c r.rank r.bank r.row

/-! ### Requests (R373, R376, R377) -/

/-- A requester's pressure: it enters panic at PANIC_LEVEL and leaves it at PANIC_LEVEL − 2 or at 0 (R376). -/
def Dev.pressure (d : Dev) (die c r p : Nat) : Dev :=
  let lvl := (d.qos r).panic
  d.modChan die c fun x =>
    if lvl = 0 then x
    else if lvl ≤ p then { x with panic := if x.panic.contains r then x.panic else x.panic ++ [r] }
    else if p = 0 ∨ p + 2 ≤ lvl then { x with panic := x.panic.filter fun q => decide (q ≠ r) }
    else x

/-- The place of a request in the order of arrival. -/
def enqueueReq (q : List CReq) (r : CReq) : List CReq := insertBy CReq.id r q

/-- Held requests enter while their queue has room for 128 (R373). -/
def Dev.takeHeld (d : Dev) (die c : Nat) : Dev :=
  d.modChan die c fun x =>
    x.held.foldl (fun (x : Chan) r =>
      if (x.queue.filter fun q => decide (q.write = r.write)).length < 128 ∧ !(x.held.takeWhile (fun h => decide (h.id ≠ r.id))).any (fun h => decide (h.write = r.write)) then
        { x with queue := x.queue ++ [r], held := x.held.filter fun h => decide (h.id ≠ r.id) }
      else x) x

/-- A request reaches the channel (R373). A frozen channel answers a read with poison and holds a write (R389). -/
def Dev.chanRequest (d : Dev) (die c : Nat) (q : ChanReq) : Dev :=
  let x := d.chan die c
  if !x.ranks.contains q.rank || decide (d.chanState die c = 0) then d
  else
    let r : CReq := ⟨x.nextId, q.requester, q.srcDie, q.write, q.rank, q.bank % 32, q.row, q.line % 256, d.now, false, false, false, false⟩
    let d := d.modChan die c fun x => { x with nextId := x.nextId + 1, lastReq := tset x.lastReq q.rank d.now }
    let d := d.pressure die c q.requester q.pressure
    if d.chanState die c = 3 ∧ !q.write then d.emit (.chanRead die c r.id true)
    else (d.modChan die c fun x => { x with held := x.held ++ [r] }).takeHeld die c

/-- AGE_LIMIT of a requester in ns: longer by THROTTLE_DIV while it is throttled (R377). -/
def Dev.ageLimit (d : Dev) (die c r : Nat) : Nat :=
  100 * (d.qos r).age * (if d.isThrottled die c r then 2 ^ d.f CHAN_RH_CTRL.THROTTLE_DIV die c else 1)

/-- A request and every earlier one of its source become urgent (R377). -/
def Dev.makeUrgent (d : Dev) (die c : Nat) (r : CReq) : Dev :=
  let hit (q : CReq) : Bool := decide (q.requester = r.requester ∧ q.srcDie = r.srcDie ∧ q.id ≤ r.id ∧ q.urgent = false)
  let n := ((d.chan die c).queue.filter hit).length
  (d.addF CHAN_URGENT.COUNT n die c).modChan die c fun x => { x with queue := x.queue.map fun q => if hit q then { q with urgent := true } else q }

/-! ### The scheduler (R374) -/

/-- The next command that a request needs. -/
inductive NextCmd
  | srx | act | pre | column
  deriving DecidableEq, Repr

def Dev.nextCmd (d : Dev) (die c : Nat) (r : CReq) : NextCmd :=
  if d.fb CHAN_RANK_STATUS.SELF_REFRESH die c r.rank then .srx
  else match (d.chan die c).openRow r.rank r.bank with
    | none => .act
    | some o => if o.row = r.row then .column else .pre

/-- The oldest unissued request of each source alone is a candidate for a column command (R373, R374). -/
def Chan.isHead (x : Chan) (r : CReq) : Bool :=
  x.queue.all fun q => decide (r.id ≤ q.id) || !decide (q.requester = r.requester ∧ q.srcDie = r.srcDie)

/-- Whether a request yields a command now: legal under DDR5 timing (`illegal` names those that are not), in its source's order, and
no ACT before the refreshes or the RFM that come first (R379, R381, R383). -/
def Dev.yields (d : Dev) (die c : Nat) (illegal : List Nat) (r : CReq) : Bool :=
  let x := d.chan die c
  !illegal.contains r.id && match d.nextCmd die c r with
    | .column => x.isHead r
    | .act => !x.must.contains r.rank && !x.rfm.contains (r.rank, r.bank)
    | _ => true

/-- Whether a requester holds credit: a whole line (R375). -/
def Chan.hasCredit (x : Chan) (r : Nat) : Bool := decide (128 ≤ tgetD x.credit r 0)

/-- Higher CLASS first, then the bus direction, then the oldest (R374); the list is in the order of arrival. -/
def Dev.bestOf (d : Dev) (busWrite : Bool) (l : List CReq) : Option CReq :=
  let top := maxOf (l.map fun r => (d.qos r.requester).cls)
  let l := l.filter fun r => decide ((d.qos r.requester).cls = top)
  match l.find? fun r => decide (r.write = busWrite) with
  | some r => some r
  | none => l.head?

/-- The bus direction at this slot (R374). -/
def Dev.busTurn (d : Dev) (die c : Nat) : Bool :=
  let x := d.chan die c
  let cand (w : Bool) : Bool := x.queue.any fun r => decide (r.write = w) && x.isHead r && (x.hasCredit r.requester || !d.isThrottled die c r.requester)
  let writes := (x.queue.filter fun r => r.write).length
  if x.busWrite then !(decide (writes ≤ 32) || !cand true) else decide (96 ≤ writes) || !cand false

/-- The request of rules 2 to 6, and whether rule 2 gave it (R374). -/
def Dev.schedule (d : Dev) (die c : Nat) (illegal : List Nat) (busWrite : Bool) : Option (CReq × Bool) :=
  let x := d.chan die c
  let ok := x.queue.filter (d.yields die c illegal)
  match ok.find? fun r => x.panic.contains r.requester with
  | some r => some (r, true)
  | none =>
    match ok.find? (·.urgent) with
    | some r => some (r, false)
    | none =>
      let hit (r : CReq) : Bool := decide (d.nextCmd die c r = .column)
      let rich (r : CReq) : Bool := x.hasCredit r.requester
      let poor (r : CReq) : Bool := !x.hasCredit r.requester && !d.isThrottled die c r.requester
      let pick (p : CReq → Bool) : Option CReq := d.bestOf busWrite (ok.filter p)
      match pick (fun r => rich r && hit r) with
      | some r => some (r, false)
      | none => match pick rich with
        | some r => some (r, false)
        | none => match pick (fun r => poor r && hit r) with
          | some r => some (r, false)
          | none => (pick poor).map fun r => (r, false)

/-- The repeat of an alert ends with the last repeated command (R386). -/
def Dev.repeatCheck (d : Dev) (die c : Nat) : Dev :=
  match (d.chan die c).alert with
  | some a =>
    if a.low || !a.ids.isEmpty then d
    else ((d.modChan die c fun x => { x with alert := none }).incF CHAN_CA_RETRIES.COUNT die c).raise .CHAN_CA_RETRY die
      [p1 (gchan die c), p4 a.dimm, p4 a.count]
  | none => d

/-- A column command of a request (R373 to R376): it spends a credit, a read's data is awaited, a write is reported as issued. -/
def Dev.column (d : Dev) (die c : Nat) (r : CReq) (byPanic : Bool) : Dev :=
  let src := sourceByte r.requester r.srcDie
  let d := d.issue die c (if r.write then 3 else 2) r.rank r.bank r.row r.line src (some r)
  let d := match (d.chan die c).copy, (d.chan die c).spare with
    | some k, some p => if r.write ∧ k.rank = r.rank then d.issue die c 3 p r.bank r.row r.line src none else d
    | _, _ => d
  let d := d.when byPanic (·.incF CHAN_PANIC.COUNT die c)
  let d := d.modChan die c fun x =>
    { x with queue := x.queue.filter fun q => decide (q.id ≠ r.id),
             flying := if r.write then x.flying else x.flying ++ [r],
             credit := tset x.credit r.requester (tgetD x.credit r.requester 0 - 128),
             rows := x.rows.map fun o => if o.rank = r.rank ∧ o.bank = r.bank then { o with last := d.now } else o,
             alert := x.alert.map fun a => { a with ids := a.ids.filter fun i => decide (i ≠ r.id) } }
  let d := d.when (r.write && !r.told) (·.emit (.chanWrite die c r.id true))
  ((d.takeHeld die c).repeatCheck die c).idleRefresh die c r.rank

/-- The maintenance command of rule 1 that has fallen due: for the rank under training alone while a step runs (R374, R404). -/
def Dev.maintenance (d : Dev) (die c : Nat) : Option (Dev) :=
  let x := d.chan die c
  let here (rank : Nat) : Bool := match x.run with | some r => decide (r.rank = rank) | none => true
  match x.must.find? here with
  | some rank =>
    if x.rows.any fun r => decide (r.rank = rank) then some (d.preAll die c rank)
    else
      let d := d.oneRefresh die c rank
      some (if d.f CHAN_RANK_STATUS.OWED die c rank = 0 then d.modChan die c fun x => { x with must := x.must.filter fun r => decide (r ≠ rank) } else d)
  | none => (x.rfm.find? fun k => here k.1).map fun k => d.issueRfm die c k.1 k.2

/-- A command slot (R374): the first rule that yields a legal command. `maintenance`: DDR5 timing allows the due maintenance command. -/
def Dev.slot (d : Dev) (die c : Nat) (illegal : List Nat) (maintenance : Bool) (pressure : Nat) : Dev :=
  let x := d.chan die c
  let low : Bool := match x.alert with | some a => a.low | none => false
  if low || !(decide (d.chanState die c = 2) || decide (d.chanState die c = 4) || decide (d.chanState die c = 1)) then d
  else match (if maintenance then d.maintenance die c else none) with
    | some d' => d'
    | none =>
      if x.run.isSome then d
      else
        let bus := d.busTurn die c
        let d := d.modChan die c fun x => { x with busWrite := bus }
        match d.schedule die c illegal bus with
        | none => d
        | some (r, byPanic) =>
          let d := d.modChan die c fun x => { x with exiting := x.exiting.filter fun k => decide (k ≠ r.rank) }
          match d.nextCmd die c r with
          | .srx => ((d.issue die c 11 r.rank 0 0 0 0 none).setB CHAN_RANK_STATUS.SELF_REFRESH false die c r.rank).modChan die c fun x =>
              { x with exiting := x.exiting ++ [r.rank] }
          | .act => d.activate die c r
          | .pre => (d.issue die c 4 r.rank r.bank 0 0 0 none).modChan die c fun x =>
              { x with rows := x.rows.filter fun o => decide (o.rank ≠ r.rank ∨ o.bank ≠ r.bank) }
          | .column => (d.column die c r byPanic).pressure die c r.requester pressure

/-! ### Rows for repair and corrected errors (R372, R394, R573) -/

/-- A row becomes pending for repair (R573): recorded in a PPRQ record, at most 128 per package. -/
def Dev.pprAdd (d : Dev) (die c rank bank row : Nat) : Dev :=
  let e : PprRow := ⟨gchan die c, rank, bank, row⟩
  if d.ppr.contains e then d
  else if 128 ≤ d.ppr.length then d.incF SVC_PPR_LOST.COUNT
  else
    let d := { d with ppr := d.ppr ++ [e] }
    let d := d.counterRecord magicPPRQ [p1 e.gchan, p1 rank, p1 bank, p1 0, p4 row, p1 0]
    d.raise .SVC_PPR_PENDING die [p1 e.gchan, p1 rank, p1 bank, p4 row]

/-- An entry of the syndrome log at CHAN_LOG_HEAD.NEXT (R394). -/
def Dev.logAdd (d : Dev) (die c : Nat) (e : LogEntry) : Dev :=
  let n := d.f CHAN_LOG_HEAD.NEXT die c
  let d := (d.modChan die c fun x => { x with log := tset x.log n e }).setF CHAN_LOG_HEAD.NEXT ((n + 1) % 16) die c
  if n = 15 then d.setB CHAN_LOG_HEAD.WRAPPED true die c else d

/-- A corrected beat (R372): counted for the channel, the rank and the device, logged, and, in the same symbol of its row for the
16th time in 24 h, a reason to repair the row (R573). -/
def Dev.correctedBeat (d : Dev) (die c : Nat) (r : CReq) (beat symbol syndrome : Nat) : Dev :=
  let d := ((d.incF CHAN_CE.COUNT die c).incF CHAN_RANK_CE.COUNT die c r.rank).incF CHAN_RANK_CE_INT.COUNT die c r.rank
  let d := d.incF CHAN_DEVICE_CE.COUNT die c (20 * r.rank + symbol)
  let d := d.logAdd die c ⟨r.rank, r.bank, 0, symbol, r.row, r.line, syndrome, sourceByte r.requester r.srcDie, beat⟩
  let k := (r.rank, r.bank, r.row, symbol)
  let ts := (tgetD (d.chan die c).rowCe k []).filter (fun t => decide (d.now < t + 86400000000000)) ++ [d.now]
  let d := d.modChan die c fun x => { x with rowCe := tset x.rowCe k ts }
  if 16 ≤ ts.length then d.pprAdd die c r.rank r.bank r.row else d

/-- The corrected beats of a line. -/
def Dev.correctedBeats (d : Dev) (die c : Nat) (r : CReq) (beats : List Beat) : Dev :=
  d.forEach (List.range beats.length) fun d i => match beats[i]? with
    | some (.corrected s y) => d.correctedBeat die c r i s y
    | _ => d

def hasBad (beats : List Beat) : Bool := beats.any fun b => match b with | .bad _ => true | _ => false
def hasCorrected (beats : List Beat) : Bool := beats.any fun b => match b with | .corrected _ _ => true | _ => false

/-- A line queued for its rewrite (R372). -/
def Dev.queueRewrite (d : Dev) (die c : Nat) (r : CReq) : Dev :=
  d.modChan die c fun x =>
    let k := (r.rank, r.bank, r.row, r.line)
    { x with rewrites := if x.rewrites.contains k then x.rewrites else x.rewrites ++ [k] }

/-! ### Training: settings and the end of a step (R401 to R407) -/

/-- The settings of a rank in force. -/
def Chan.setting (x : Chan) (rank : Nat) : Setting := tgetD x.inForce rank []

/-- The rank's LKG is in force again (R401). -/
def Dev.restoreLkg (d : Dev) (die c rank : Nat) : Dev :=
  d.modChan die c fun x => { x with inForce := tset x.inForce rank (tgetD x.lkg rank []) }

/-- The running step ends with a RESULT (R405, R408); `us` is its pause. -/
def Dev.endStep (d : Dev) (die c result us : Nat) : Dev :=
  match (d.chan die c).run with
  | none => d
  | some r =>
    let d := (((d.setB TRN_STATUS.ACTIVE false die c).setB TRN_STATUS.DONE true die c).setF TRN_STATUS.RESULT result die c).setF
      TRN_STATUS.ELAPSED_US (saturate 16 us) die c
    d.modChan die c fun x =>
      { x with run := none, cycle := x.cycle.map fun k => if k.rank = r.rank then { k with lastEnd := d.now, pause := k.pause + us } else k }

/-- A cycle has ended without a pass: counted, and its LKG restored (R401, R408). -/
def Dev.failCycle (d : Dev) (die c : Nat) : Dev :=
  match (d.chan die c).cycle with
  | none => d
  | some k =>
    let d := ((d.restoreLkg die c k.rank).incF TRN_CYCLES.COUNT die c).incF TRN_CYCLE_FAILS.COUNT die c
    (d.setF TRN_RANK.CAUSE 0 die c k.rank).modChan die c fun x => { x with cycle := none, lastCycle := tset x.lastCycle k.rank (d.now, true) }

/-- The running step is aborted (R401, R406): by a freeze (0), a quench (1) or firmware (2). T0 restores the settings in force at
its START, the others the LKG. -/
def Dev.abortStep (d : Dev) (die c cause : Nat) : Dev :=
  match (d.chan die c).run with
  | none => d
  | some r =>
    let us := (d.now - r.start) / 1000
    let d := (d.endStep die c 3 us).failCycle die c
    let d := if cause = 1 then d.modChan die c fun x => { x with inForce := tset x.inForce r.rank r.before } else d.restoreLkg die c r.rank
    d.raise .TRN_ABORTED die [p1 (gchan die c), p1 r.rank, p4 r.step, p1 cause]

/-- A rank becomes pending for retraining; triggers merge into a pending state or a cycle (R402). -/
def Dev.trnTrigger (d : Dev) (die c rank cause : Nat) : Dev :=
  let inCycle : Bool := match (d.chan die c).cycle with | some k => decide (k.rank = rank) | none => false
  if d.quenching || inCycle || d.fb TRN_RANK.PENDING die c rank || (decide (cause ≠ 3) && !d.fb TRN_RETRAIN_CTRL.AUTO_EN die c) then d
  else (d.setB TRN_RANK.PENDING true die c rank).setF TRN_RANK.CAUSE cause die c rank

/-! ### Freeze and thaw (R387 to R391) -/

/-- The policy for an error at a line: poison from T0 on, and at the line that caused the last freeze (R387, R390, R391). -/
def Dev.freezes (d : Dev) (die c : Nat) (line : Option (Nat × Nat × Nat × Nat)) : Bool :=
  d.fb CHAN_STATUS.POLICY_FREEZE die c && !d.quenching && (decide (line = none) || decide (line ≠ (d.chan die c).freezeLine))

/-- The channel freezes (R389, R406): cause 0 a data error, 1 a command error, 2 FREEZE_NOW (the list's two `command` items). A
training step is aborted first; the reads it has are answered with poison, the writes held. -/
def Dev.freeze (d : Dev) (die c cause : Nat) : Dev :=
  let d := d.abortStep die c 0
  let x := d.chan die c
  let mhz := d.chanMhz
  let tr := x.cmds.map fun k => (⟨k.cmd, k.rank, k.bank, k.source, k.row, k.line, saturate 32 ((d.now - k.at0) * mhz / 1000)⟩ : TraceEntry)
  let reads := x.flying ++ x.queue.filter fun r => !r.write
  let d := d.emits (reads.map fun r => Out.chanRead die c r.id true)
  let d := d.modChan die c fun x =>
    { x with trace := tr, frozenAt := d.now, flying := [], queue := x.queue.filter (·.write), held := x.held.filter (·.write), alert := none, runWait := none }
  let d := d.emits ((x.held.filter fun r => !r.write).map fun r => Out.chanRead die c r.id true)
  ((d.setF CHAN_STATUS.STATE 3 die c).incF CHAN_FREEZES.COUNT die c).raise .CHAN_FROZEN die [p1 (gchan die c), p1 cause, p4 tr.length]

/-- Requests that a freeze holds at their Tongs locks and in the channel (CHAN_STATUS.HELD, R389). -/
def Dev.heldByFreeze (d : Dev) (die c : Nat) : Nat :=
  if d.f CHAN_STATUS.STATE die c ≠ 3 then 0
  else (d.cru.reqs.filter fun r => decide (r.wait = .arrival ∧ (d.place r.slab).die = die ∧ (d.place r.slab).chan = c)).length +
    (d.chan die c).queue.length

/-- The channel thaws (R390): PREab, the RCD error status cleared, ZQ calibration, every owed refresh; the held requests go on, and the
sector whose read froze it is read again. A thaw waits for a training step (R406). -/
def Dev.thaw (d : Dev) (die c cause : Nat) : Dev :=
  if d.chanState die c ≠ 3 then d
  else if (d.chan die c).run.isSome then d.modChan die c fun x => { x with thawWait := some cause }
  else
    let ms := (d.now - (d.chan die c).frozenAt) / 1000000
    let held := d.heldByFreeze die c
    let d := d.setF CHAN_STATUS.STATE (if d.quenching then 4 else 2) die c
    let d := d.forEach (d.chan die c).ranks fun d p => (d.preAll die c p).issue die c 14 p 0 0 0 0 none
    let d := d.forEach (d.chan die c).ranks fun d p => d.issueOwed die c p
    let d := d.modChan die c fun x =>
      { x with thawWait := none, freezeRead := none,
               queue := match x.freezeRead with | some r => r :: x.queue | none => x.queue }
    d.raise .CHAN_THAWED die [p1 (gchan die c), p1 cause, p4 ms, p4 held]

/-! ### Uncorrectable data (R159, R160, R372, R385 to R389) -/

/-- The frame or tag line that a line of a mapped rank belongs to (R117, R368): its set and its way and sector, or the first of the
four ways of a tag line. -/
def Dev.lineOwner (d : Dev) (die c rank bank row line : Nat) : Option (SetKey × (Nat × Nat ⊕ Nat)) :=
  let x := d.chan die c
  match (List.range x.map.length).find? fun i => decide (x.map[i]? = some rank) with
  | none => none
  | some m =>
    let b := row * 16384 + line * 64
    let k : SetKey := ⟨die, c, m, bank / 4, bank % 4, b / 65792⟩
    if d.swg.cfg.dram.sets ≤ k.set then none
    else
      let o := b % 65792
      some (k, if o < 65536 then .inl (o / 4096, o % 4096 / 64) else .inr ((o - 65536) / 64 * 4))

/-- The owner of a line acts on its uncorrectable data (R156, R157, R159, R160): a frame's sector is refetched, recovered from the twin
or poisoned; a tag line's ways are rebuilt. -/
def Dev.ownerActs (d : Dev) (die c rank bank row line : Nat) : Dev :=
  match d.lineOwner die c rank bank row line with
  | none => d
  | some (k, .inl (way, sector)) =>
    (match (d.setTags k).find? fun e => decide (e.1 = way) with
     | none => d
     | some (_, t) =>
       if t.mask.getLsbD sector then
         (if d.twinHoldsAt t.slab (d.heatOf t.heat) && !d.quenching then d.recover t.slab sector else d.poisonSector t.slab sector 1)
       else if t.state = .clean ∨ t.state = .dirty then
         let d := d.modTag t.slab fun t => { t with state := .filling }
         (d.raiseC .CRUC_DATA_UE_REFETCHED t.slab [p5 t.slab, p1 sector]).issueFill t.slab
       else d)
  | some (k, .inr way) =>
    match (d.setTags k).map (·.2.slab) with
    | slab :: _ => d.startRebuild slab [way, way + 1, way + 2, way + 3]
    | [] => d

/-- The first uncorrectable beat of a line: its number and syndrome. -/
def firstBad (beats : List Beat) : Nat × Nat :=
  match (List.range beats.length).find? fun i => match beats[i]? with | some (.bad _) => true | _ => false with
  | some i => (i, match beats[i]? with | some (.bad y) => y | _ => 0)
  | none => (0, 0)

/-- An uncorrectable data error (R387 to R389): logged and counted, the row pending for repair (R573); then the policy. A scrub or
thaw read's owner acts on it here; another request's owner acts when it takes the answer. -/
def Dev.dataError (d : Dev) (die c : Nat) (r : CReq) (beats : List Beat) (scrub : Bool) : Dev :=
  let (beat, y) := firstBad beats
  let src := sourceByte r.requester r.srcDie
  let d := (d.logAdd die c ⟨r.rank, r.bank, 1, 0xFF, r.row, r.line, y, src, beat⟩).incF CHAN_UE.COUNT die c
  let d := d.pprAdd die c r.rank r.bank r.row
  let k := (r.rank, r.bank, r.row, r.line)
  if d.freezes die c (some k) then
    let d := d.modChan die c fun x => { x with freezeLine := some k, freezeRead := some { r with id := x.nextId, thaw := true, reread := false, urgent := false }, nextId := x.nextId + 1 }
    let d := d.when (!scrub && !r.thaw) (·.emit (.chanRead die c r.id true))
    d.freeze die c 0
  else
    let d := d.raise .CHAN_UE die [p1 (gchan die c), p1 r.rank, p1 r.bank, p4 r.row, p4 r.line, p1 src, p1 0]
    if scrub || r.thaw then d.ownerActs die c r.rank r.bank r.row r.line else d.emit (.chanRead die c r.id true)

/-- Read data returns and is decoded (R372): a line with an uncorrectable beat is read once more. -/
def Dev.readDecode (d : Dev) (die c id : Nat) (beats : List Beat) : Dev :=
  match (d.chan die c).flying.find? fun r => decide (r.id = id) with
  | none => d
  | some r =>
    let d := d.modChan die c fun x => { x with flying := x.flying.filter fun q => decide (q.id ≠ id) }
    let d := d.correctedBeats die c r beats
    if hasBad beats then
      if r.reread then d.dataError die c r beats false
      else d.modChan die c fun x => { x with queue := enqueueReq x.queue { r with reread := true } }
    else
      let d := d.when (hasCorrected beats) (·.queueRewrite die c r)
      let d := d.when r.reread fun d => ((d.incF CHAN_CE.COUNT die c).incF CHAN_RANK_CE.COUNT die c r.rank).incF CHAN_RANK_CE_INT.COUNT die c r.rank
      d.when (!r.thaw) (·.emit (.chanRead die c id false))

/-! ### CA parity alerts (R386) -/

/-- An uncorrectable command error (R386 to R389): under the poison policy every read that could not complete is poisoned and every
write reported as failed. -/
def Dev.commandError (d : Dev) (die c dimm : Nat) (rs : List CReq) : Dev :=
  let d := (d.logAdd die c ⟨4 * dimm, 0, 3, 0xFF, 0, 0, 0, 0, 0⟩).incF CHAN_CA_FAILS.COUNT die c
  if d.freezes die c none then d.freeze die c 1
  else
    let d := d.modChan die c fun x =>
      { x with queue := x.queue.filter (fun q => !rs.any fun r => decide (r.id = q.id)),
               flying := x.flying.filter fun q => !rs.any fun r => decide (r.id = q.id) }
    let d := d.emits (rs.map fun r => if r.write then Out.chanWrite die c r.id false else Out.chanRead die c r.id true)
    match rs with
    | r :: _ => d.raise .CHAN_UE die [p1 (gchan die c), p1 r.rank, p1 r.bank, p4 r.row, p4 r.line, p1 (sourceByte r.requester r.srcDie), p1 0]
    | [] => d

/-- ALERT_n falls (R386): `failed` counts the commands issued at or after the one that the RCD reports as failed. Their requests are
issued again; a second alert during the repeat, or within 1 ms of the first, is an uncorrectable command error. -/
def Dev.caAlert (d : Dev) (die c dimm failed : Nat) : Dev :=
  let x := d.chan die c
  let recent := (x.cmds.drop (x.cmds.length - failed)).filterMap (·.req)
  let rs := recent.filter fun r => r.write || x.flying.any fun q => decide (q.id = r.id)
  let again := x.queue.filter fun r => match x.alert with | some a => a.ids.contains r.id | none => false
  let soon : Bool := match x.lastAlert with | some t => decide (d.now < t + 1000000) | none => false
  let d := d.modChan die c fun x => { x with lastAlert := some d.now }
  if x.alert.isSome || soon then
    (d.commandError die c dimm (again ++ rs.filter fun r => !again.any fun q => decide (q.id = r.id))).modChan die c fun x =>
      if d.freezes die c none then x else { x with alert := some ⟨dimm, true, [], 0⟩ }
  else
    let d := d.logAdd die c ⟨4 * dimm, 0, 2, 0xFF, 0, 0, 0, 0, 0⟩
    d.modChan die c fun x =>
      { x with alert := some ⟨dimm, true, rs.map (·.id), Nat.min failed x.cmds.length⟩,
               flying := x.flying.filter fun q => !rs.any fun r => decide (r.id = q.id),
               queue := rs.foldl (fun q r => enqueueReq q { r with told := r.told || r.write }) x.queue }

/-- ALERT_n is high again (R386): the RCD's error status is cleared, PREab is issued, and the repeat begins. -/
def Dev.alertHigh (d : Dev) (die c : Nat) : Dev :=
  match (d.chan die c).alert with
  | none => d
  | some a =>
    if !a.low then d
    else
      let d := d.forEach (d.chan die c).ranks fun d p => d.preAll die c p
      if a.count = 0 then d.modChan die c fun x => { x with alert := none }
      else (d.modChan die c fun x => { x with alert := some { a with low := false } }).repeatCheck die c

/-! ### Temperature (R382, R383) and the scrubber (R385) -/

/-- The ranks of a DIMM (R368). -/
def Chan.ranksOf (x : Chan) (dimm : Nat) : List Nat := x.ranks.filter fun p => decide (p / 4 = dimm)

/-- REF_DOUBLED and POSTPONE_OFF of the channel as its ranks are (R392). -/
def Dev.showRefresh (d : Dev) (die c : Nat) : Dev :=
  let rs := (d.chan die c).ranks
  (d.setB CHAN_STATUS.REF_DOUBLED (rs.any fun p => d.fb CHAN_RANK_STATUS.DOUBLED die c p) die c).setB CHAN_STATUS.POSTPONE_OFF
    (rs.any fun p => d.fb CHAN_RANK_STATUS.POSTPONE_OFF die c p) die c

/-- A temperature as its eight register bits, and back. -/
def temp8 (t : Int) : Nat := (BitVec.ofInt 8 t).toNat
def tempOf (v : Nat) : Int := (BitVec.ofNat 8 v).toInt

/-- A rank moves to the doubled rate (R383). -/
def Dev.crossing (d : Dev) (die c rank : Nat) : Dev :=
  let owed := d.f CHAN_RANK_STATUS.OWED die c rank
  let t := d.f CHAN_RANK_STATUS.T_DRAM die c rank
  let d := (d.setB CHAN_RANK_STATUS.DOUBLED true die c rank).setB CHAN_RANK_STATUS.POSTPONE_OFF true die c rank
  let d := d.raise .CHAN_REF_CROSSING die [p1 (gchan die c), p1 rank, p1 t, p4 owed]
  let d := d.raise .CHAN_REF_RATE die [p1 (gchan die c), p1 rank, p1 0, p1 t]
  if owed = 0 then d
  else if !(d.chan die c).busy rank || decide (d.chanState die c = 3) then d.issueOwed die c rank
  else d.modChan die c fun x => { x with must := if x.must.contains rank then x.must else x.must ++ [rank] }

/-- A valid reading for a rank (R382, R383, R402); `lost`: its DIMM's readings had failed. -/
def Dev.rankReading (d : Dev) (die c rank : Nat) (t : Int) (lost : Bool) : Dev :=
  let was := d.fb CHAN_RANK_STATUS.DOUBLED die c rank
  let d := d.setF CHAN_RANK_STATUS.T_DRAM (temp8 t) die c rank
  let d := if !was ∧ t > 85 then d.crossing die c rank
    else if was ∧ t ≤ 83 ∧ (!lost ∨ t ≤ 80) then
      (d.setB CHAN_RANK_STATUS.DOUBLED false die c rank).raise .CHAN_REF_RATE die [p1 (gchan die c), p1 rank, p1 1, pT t]
    else d
  let d := d.when (decide (t ≤ 80)) (·.setB CHAN_RANK_STATUS.POSTPONE_OFF false die c rank)
  let d := d.when (decide (t ≥ 95)) (·.raise .CHAN_OVERTEMP die [p1 (gchan die c), p1 rank, pT t])
  let ref := tempOf (d.f TRN_RANK.T_REF die c rank)
  if d.fb TRN_RANK.LKG_VALID die c rank ∧ (t - ref).natAbs > d.f TRN_RETRAIN_CTRL.TEMP_DELTA die c then d.trnTrigger die c rank 1 else d

/-- A DIMM's reading, the highest of its sensors, or none when it has failed (R382). -/
def Dev.tempRead (d : Dev) (die c dimm : Nat) (reading : Option Int) (sensor : Nat) : Dev :=
  let x := d.chan die c
  match reading with
  | some t =>
    let lost := x.tempLost.contains dimm
    let d := d.forEach (x.ranksOf dimm) fun d p => d.rankReading die c p t lost
    let d := d.modChan die c fun x => { x with tempFails := tdel x.tempFails dimm, tempLost := if t ≤ 80 then x.tempLost.filter (fun k => decide (k ≠ dimm)) else x.tempLost }
    d.showRefresh die c
  | none =>
    let n := tgetD x.tempFails dimm 0 + 1
    let d := d.modChan die c fun x => { x with tempFails := tset x.tempFails dimm n }
    if n = 3 then
      let d := d.modChan die c fun x => { x with tempLost := if x.tempLost.contains dimm then x.tempLost else x.tempLost ++ [dimm] }
      let d := d.forEach (x.ranksOf dimm) fun d p =>
        if d.fb CHAN_RANK_STATUS.DOUBLED die c p then d.setB CHAN_RANK_STATUS.POSTPONE_OFF true die c p else d.crossing die c p
      (d.showRefresh die c).raise .CHAN_TEMP_SENSOR die [p1 (gchan die c), p4 dimm, p4 sensor]
    else d

/-- Rows of a bank by the device density in Gb: 16,384 a quarter of 4 Gb (by DDR5, assumption 18). -/
def Chan.rowCount (x : Chan) : Nat := x.density * 4096

/-- The ranks that the scrubber reads: the mapped ranks and the spare rank, ascending (R385). -/
def Chan.scrubRanks (x : Chan) : List Nat := sortBy id (x.map ++ x.spare.toList)

/-- The lines of a pass. -/
def Chan.scrubTotal (x : Chan) : Nat := x.scrubRanks.length * 32 * x.rowCount * 256

/-- The scrubber's next line as a read of requester 30 (R385). -/
def Dev.scrubReq (d : Dev) (die c : Nat) : CReq :=
  let x := d.chan die c
  let n := x.scrubPos
  let rows := n / 256
  ⟨0, 30, die, false, x.scrubRanks.getD (rows / x.rowCount / 32) 0, rows / x.rowCount % 32, rows % x.rowCount, n % 256, d.now, false, true, false, true⟩

/-- The scrubber reads its next line (R385); the line's owner rewrites corrected lines, and those that R372 has queued. -/
def Dev.scrubRead (d : Dev) (die c : Nat) (beats : List Beat) : Dev :=
  let x := d.chan die c
  if x.scrubTotal = 0 then d
  else
    let r := d.scrubReq die c
    let d := d.modChan die c fun x =>
      { x with scrubPos := x.scrubPos + 1, rewrites := [], scrubCorrected := x.scrubCorrected + b2n (hasCorrected beats && !hasBad beats),
               scrubBad := x.scrubBad + b2n (hasBad beats) }
    let d := d.correctedBeats die c r beats
    let d := d.when (hasBad beats) (·.dataError die c r beats true)
    let y := d.chan die c
    let d := d.setF CHAN_SCRUB_POS.PERMILLE (y.scrubPos % x.scrubTotal * 1000 / x.scrubTotal) die c
    if y.scrubPos < x.scrubTotal then d
    else
      let hours := (d.now - y.scrubStart) / 3600000000000
      let d := d.modChan die c fun x => { x with scrubPos := 0, scrubCorrected := 0, scrubBad := 0, scrubStart := d.now }
      d.raise .CHAN_SCRUB_PASS die [p1 (gchan die c), p4 y.scrubCorrected, p4 y.scrubBad, p4 hours]

/-! ### Corrected-error rate and the spare rank (R372, R402, R574) -/

/-- The copy of a rank to the spare rank starts (R574), with its cause by R576: 4 the corrected-error rate, 8 a command. -/
def Dev.startCopy (d : Dev) (die c rank cause : Nat) : Dev :=
  let d := d.modChan die c fun x => { x with copy := some ⟨rank, cause, d.now⟩ }
  let d := (d.setF SVC_RANK_COPY.PERMILLE 0 die c).setF SVC_RANK_COPY.RANK rank die c
  d.raise .SVC_RANK_COPY_START die [p1 (gchan die c), p1 rank, p1 cause]

/-- Whether a mapped rank can be copied to a spare rank now. -/
def Dev.canSpare (d : Dev) (die c rank : Nat) : Bool :=
  let x := d.chan die c
  x.map.contains rank && x.spare.isSome && x.copy.isNone && !d.quenching

/-- The device of a rank with the most corrections, the lowest on a tie (R395). -/
def Dev.worstDevice (d : Dev) (die c rank : Nat) : Nat :=
  let n (j : Nat) : Nat := d.f CHAN_DEVICE_CE.COUNT die c (20 * rank + j)
  (List.range 20).foldl (fun b j => if n b < n j then j else b) 0

/-- CHAN_CE_RATE of a rank: it becomes pending for retraining, and the third time within 24 h the spare rank is brought in. -/
def Dev.ceRate (d : Dev) (die c rank : Nat) : Dev :=
  let d := d.raise .CHAN_CE_RATE die [p1 (gchan die c), p1 rank, p4 (d.f CHAN_RANK_CE_INT.COUNT die c rank), p4 (d.worstDevice die c rank)]
  let d := d.trnTrigger die c rank 2
  let ts := (tgetD (d.chan die c).ceTimes rank []).filter (fun t => decide (d.now < t + 86400000000000)) ++ [d.now]
  let d := d.modChan die c fun x => { x with ceTimes := tset x.ceTimes rank ts }
  if 3 ≤ ts.length ∧ d.fb SVC_CTRL.AUTO_RANK ∧ d.canSpare die c rank then d.startCopy die c rank 4 else d

/-- The 60 s interval ends (R372). -/
def Dev.ceInterval (d : Dev) (die c : Nat) : Dev :=
  d.forEach (d.chan die c).ranks fun d p =>
    let d := d.when (decide (d.f CHAN_CE_LIMIT.BEATS die c ≤ d.f CHAN_RANK_CE_INT.COUNT die c p)) (·.ceRate die c p)
    d.setF CHAN_RANK_CE_INT.COUNT 0 die c p

/-- Self-refresh of a rank without requests (R384). -/
def Dev.selfRefresh (d : Dev) (die c rank : Nat) : Dev :=
  let d := d.issueOwed die c rank
  let d := d.when ((d.chan die c).rows.any fun r => decide (r.rank = rank)) (·.preAll die c rank)
  (d.issue die c 10 rank 0 0 0 0 none).setB CHAN_RANK_STATUS.SELF_REFRESH true die c rank

/-- A rank copy that T0 cuts off is kept for the next start-up (R574). -/
def Dev.keepCopy (d : Dev) (die c : Nat) : Dev :=
  match (d.chan die c).copy with
  | some k => { d with svc := { d.svc with owed := d.svc.owed ++ [⟨die, c, k.rank, k.cause⟩] } }
  | none => d

/-- T0 at a channel (R379, R391, R406, R574): throttles end, pending retraining and the running step, cycle and copy are dropped; a
frozen channel thaws. -/
def Dev.chanT0 (d : Dev) (die c : Nat) : Dev :=
  let d := (d.abortStep die c 1).keepCopy die c
  let d := d.modChan die c fun x => { x with throttled := [], runWait := none, cycle := none, copy := none }
  let d := d.showThrottled die c
  let d := d.forEach (List.range 8) fun d p => (d.setB TRN_RANK.PENDING false die c p).setF TRN_RANK.CAUSE 0 die c p
  if d.chanState die c = 3 then d.thaw die c 2 else if d.chanState die c = 2 then d.setF CHAN_STATUS.STATE 4 die c else d

end Sys2Proof.Machine
end

