-- ==== Sys2Proof/Machine/TrnOps.lean ====
section
/-! DEFINITION. DRAM training and retraining (R396 to R407): the start of a step, its result, cycles, and DEGRADED. Firmware's algorithm
and the medium's answers come with the commands. -/

namespace Sys2Proof.Machine

open Sys2Proof

/-- Whether a step may start now: none runs, no T0 has passed, and in service steps 0 and 1 only with FULL on a frozen channel
(R399, R403, R406). STEP 7 is reserved. -/
def Dev.mayStep (d : Dev) (die c step rank : Nat) : Bool :=
  let st := d.chanState die c
  decide (step ≤ 6) && (d.chan die c).ranks.contains rank && (d.chan die c).run.isNone && !d.quenching && !d.smithDead die &&
    (decide (st = 1) || (decide (st = 2) && decide (2 ≤ step)) || (decide (st = 3) && (decide (2 ≤ step) || d.fb TRN_CTRL.FULL die c)))

/-- Whether a step that has been started waits: a rank of an ACTIVE channel leaves self-refresh, or a CA parity repeat runs (R405). -/
def Dev.stepWaits (d : Dev) (die c : Nat) : Bool :=
  decide (d.chanState die c = 2) && !(d.chan die c).exiting.isEmpty || (d.chan die c).alert.isSome

/-- A step starts on a rank (R399, R408): TRN_ERR_COUNT is cleared. -/
def Dev.beginTrn (d : Dev) (die c step rank : Nat) : Dev :=
  if !d.mayStep die c step rank then d
  else if d.stepWaits die c then d.modChan die c fun x => { x with runWait := some (step, rank) }
  else
    let d := (d.setB TRN_STATUS.ACTIVE true die c).setF TRN_STATUS.STEP step die c
    let d := d.forEach (List.range 80) fun d l => d.setF TRN_ERR_COUNT.COUNT 0 die c l
    d.modChan die c fun x => { x with runWait := none, run := some ⟨step, rank, d.now, x.setting rank⟩ }

/-- A step that waits is tried again. -/
def Dev.retryStep (d : Dev) (die c : Nat) : Dev :=
  match (d.chan die c).runWait with
  | some (step, rank) => if d.stepWaits die c then d else d.beginTrn die c step rank
  | none => d

/-- A retraining cycle starts with step 2, or with step 0 under FULL on a frozen channel (R403). -/
def Dev.beginCycle (d : Dev) (die c rank : Nat) : Dev :=
  let first := if d.fb TRN_CTRL.FULL die c ∧ d.chanState die c = 3 then 0 else 2
  let cause := d.f TRN_RANK.CAUSE die c rank
  let d := d.setB TRN_RANK.PENDING false die c rank
  (d.modChan die c fun x => { x with cycle := some ⟨rank, cause, first + 1, d.now, 0⟩ }).beginTrn die c first rank

/-- Whether the pending rank's cycle may start at a time (R402, R403, R406): 1 s after its last cycle, 60 s after a failed one;
RETRAIN_NOW is exempt. Automatic cycles wait while the channel is frozen; a rank in self-refresh stays pending. -/
def Dev.cycleDue (d : Dev) (die c rank : Nat) : Nat :=
  if d.f TRN_RANK.CAUSE die c rank = 3 then d.now
  else match tget (d.chan die c).lastCycle rank with
    | some (t, failed) => t + (if failed then 60000000000 else 1000000000)
    | none => d.now

def Dev.mayCycle (d : Dev) (die c rank : Nat) : Bool :=
  let st := d.chanState die c
  d.fb TRN_RANK.PENDING die c rank && (d.chan die c).cycle.isNone && (d.chan die c).run.isNone && !d.quenching &&
    (decide (st = 2) || (decide (st = 3 ∧ d.f TRN_RANK.CAUSE die c rank = 3))) && !d.fb CHAN_RANK_STATUS.SELF_REFRESH die c rank

/-- Whether a lane is left out of comparisons (R396). -/
def Dev.laneMasked (d : Dev) (die c l : Nat) : Bool :=
  if l < 64 then bit (d.f TRN_CMP_MASK0.MASK die c) l else bit (d.f TRN_CMP_MASK1.MASK die c) (l - 64)

/-- The width of a lane's run in codes. -/
def eyeWidth (e : Eye) : Nat := if e.found then e.right + 1 - e.left else 0

/-- The margin that a scan asks for (R397). -/
def Dev.margin (d : Dev) (die c : Nat) (s : TrnScan) : Nat :=
  if s.vref then d.f TRN_MIN_MARGIN.VREF_CODES die c else d.f TRN_MIN_MARGIN.CODES die c

/-- The unmasked lane with the narrowest run of a scan, with its width; none where every lane is masked. -/
def Dev.worstLane (d : Dev) (die c : Nat) (s : TrnScan) : Option (Nat × Nat) :=
  ((List.range 80).filter fun l => !d.laneMasked die c l).foldl (fun (b : Option (Nat × Nat)) l =>
    let w := match s.eyes[l]? with | some e => eyeWidth e | none => 0
    match b with
    | some (_, v) => if w < v then some (l, w) else b
    | none => some (l, w)) none

/-- Whether every unmasked lane passes a scan (R397). -/
def Dev.scanPasses (d : Dev) (die c : Nat) (s : TrnScan) : Bool :=
  match d.worstLane die c s with
  | some (_, w) => decide (d.margin die c s ≤ w)
  | none => true

/-- The center of a lane's run (R397), rounded down (assumption 19). -/
def eyeCenter (e : Eye) : Nat := (e.left + e.right) / 2

/-- The Vref code with the largest minimum width, the lower code on a tie (R397). -/
def bestVref (ps : List SweepPoint) : Option Nat :=
  (ps.foldl (fun (b : Option SweepPoint) p => match b with
    | some q => if q.width < p.width ∨ (q.width = p.width ∧ p.code < q.code) then some p else b
    | none => some p) none).map (·.code)

/-- A scan's results in the registers (R396, R408). -/
def Dev.showScan (d : Dev) (die c : Nat) (s : TrnScan) : Dev :=
  let d := d.forEach (List.range 80) fun d l =>
    match s.eyes[l]? with
    | some e => (((d.setF TRN_EYE.LEFT e.left die c l).setF TRN_EYE.RIGHT e.right die c l).setF TRN_EYE.CENTER (eyeCenter e) die c l).setB
        TRN_EYE.FOUND e.found die c l
    | none => d
  let d := d.forEach ((List.range 80).filter fun l => !d.laneMasked die c l) fun d l => d.addF TRN_ERR_COUNT.COUNT (s.errors.getD l 0) die c l
  d.forEach (List.range (Nat.min 64 s.sweep.length)) fun d k =>
    match s.sweep[k]? with
    | some p => ((d.setF TRN_VSWEEP.CODE p.code die c k).setF TRN_VSWEEP.MIN_WIDTH p.width die c k).setF TRN_VSWEEP.WORST_LANE p.lane die c k
    | none => d

/-- The candidate of a passed step: its lanes' centers, and the Vref code of a sweep (R397). -/
def candidateOf (scans : List TrnScan) : List Nat × Option Nat :=
  let eyes := match (scans.filter fun s => !s.vref).getLast? with | some s => s.eyes.map eyeCenter | none => []
  (eyes, (scans.filter fun s => !s.sweep.isEmpty).getLast?.bind fun s => bestVref s.sweep)

/-- Codes applied to a rank for a step. -/
def Dev.apply (d : Dev) (die c rank step : Nat) (codes : List Nat × Option Nat) : Dev :=
  d.modChan die c fun x => { x with inForce := tset x.inForce rank (tset (x.setting rank) step codes) }

/-- DEGRADED is cleared once every rank has passed a cycle since it was set (R407). -/
def Dev.degradedCheck (d : Dev) (die c rank : Nat) : Dev :=
  let d := d.modChan die c fun x => { x with passed := if x.passed.contains rank then x.passed else x.passed ++ [rank] }
  let x := d.chan die c
  if d.fb CHAN_STATUS.DEGRADED die c ∧ x.ranks.all x.passed.contains then
    (d.setB CHAN_STATUS.DEGRADED false die c).raise .TRN_DEGRADED die [p1 (gchan die c), p1 1, p1 rank]
  else d

/-- A cycle in which every step has passed (R401, R402, R407). -/
def Dev.passCycle (d : Dev) (die c : Nat) : Dev :=
  match (d.chan die c).cycle with
  | none => d
  | some k =>
    let d := d.modChan die c fun x => { x with lkg := tset x.lkg k.rank (x.setting k.rank), cycle := none, lastCycle := tset x.lastCycle k.rank (d.now, false) }
    let d := (d.setB TRN_RANK.LKG_VALID true die c k.rank).setF TRN_RANK.T_REF (d.f CHAN_RANK_STATUS.T_DRAM die c k.rank) die c k.rank
    let d := ((d.setB TRN_RANK.NO_SETTING false die c k.rank).setF TRN_RANK.CAUSE 0 die c k.rank).incF TRN_CYCLES.COUNT die c
    (d.raise .TRN_RETRAIN_DONE die [p1 (gchan die c), p1 k.rank, p1 k.cause, p4 k.pause]).degradedCheck die c k.rank

/-- A step finds no setting that passes (R407). -/
def Dev.noSetting (d : Dev) (die c : Nat) (r : TrnRun) (worst : Nat × Nat) : Dev :=
  let inCycle := (d.chan die c).cycle.isSome
  let d := (d.failCycle die c).restoreLkg die c r.rank
  let d := d.setB TRN_RANK.NO_SETTING true die c r.rank
  let d := d.raise .TRN_NO_SETTING die [p1 (gchan die c), p1 r.rank, p4 r.step, p4 worst.1, p4 worst.2]
  if inCycle && decide (d.chanState die c ≠ 1) then
    ((d.setB CHAN_STATUS.DEGRADED true die c).modChan die c fun x => { x with passed := [] }).raise .TRN_DEGRADED die [p1 (gchan die c), p1 0, p1 r.rank]
  else d

/-- What follows the end of a step: a thaw that has waited for it (R406). -/
def Dev.afterStep (d : Dev) (die c : Nat) : Dev :=
  match (d.chan die c).thawWait with
  | some cause => d.thaw die c cause
  | none => d

/-- A step ends with the results of its scans (R397, R401, R403, R407). -/
def Dev.stepEnd (d : Dev) (die c us : Nat) (scans : List TrnScan) : Dev :=
  match (d.chan die c).run with
  | none => d
  | some r =>
    let d := d.forEach scans fun d s => d.showScan die c s
    match scans.find? fun s => !d.scanPasses die c s with
    | some s =>
      let worst := (d.worstLane die c s).getD (0, 0)
      ((d.endStep die c 1 us).noSetting die c r worst).afterStep die c
    | none =>
      let codes := candidateOf scans
      let d := (d.endStep die c 0 us).modChan die c fun x => { x with cand := some (r.rank, r.step, codes) }
      let d := match (d.chan die c).cycle with
        | some k =>
          if k.rank = r.rank then
            let d := d.apply die c r.rank r.step codes
            if r.step = 6 then d.passCycle die c else d
          else d
        | none => d
      d.afterStep die c

end Sys2Proof.Machine
end

