-- ==== Sys2Proof/Machine/Channels.lean ====
section
/-! DEFINITION. The meanings of the Hearth channels' commands (R372 to R390) and of training's (R399 to R408). -/

namespace Sys2Proof.Machine

open Sys2Proof

/-- CHAN_REQUEST (R373). -/
def execChanRequest (die chan : Nat) (req : ChanReq) (s : State) : Host.Outcome State Fault Refusal :=
  s.on fun d => d.chanRequest die chan req

/-- CHAN_COMMAND_ISSUE (R374): one command slot. A step that waited for a self-refresh exit or a repeat may start after it (R405). -/
def execChanCommandIssue (die chan : Nat) (illegal : List Nat) (maintenance : Bool) (pressure : Nat) (s : State) : Host.Outcome State Fault Refusal :=
  s.on fun d => (d.slot die chan illegal maintenance pressure).retryStep die chan

/-- CHAN_READ_DECODE (R372). -/
def execChanReadDecode (die chan id : Nat) (beats : List Beat) (s : State) : Host.Outcome State Fault Refusal :=
  s.on fun d => d.readDecode die chan id beats

/-- REFRESH_DUE (R381). -/
def execRefreshDue (die chan rank : Nat) (s : State) : Host.Outcome State Fault Refusal :=
  s.on fun d => if (d.chan die chan).ranks.contains rank then d.refreshDue die chan rank else d

/-- CREDIT_REFILL (R375): by WEIGHT, and by WEIGHT / 2^THROTTLE_DIV for a throttled requester, up to 4 × WEIGHT. -/
def execCreditRefill (die chan : Nat) (s : State) : Host.Outcome State Fault Refusal :=
  s.on fun d => d.forEach (List.range 32) fun d r =>
    let w := 128 * (d.qos r).weight
    let add := if d.isThrottled die chan r then w / 2 ^ d.f CHAN_RH_CTRL.THROTTLE_DIV die chan else w
    d.modChan die chan fun x => { x with credit := tset x.credit r (Nat.min (4 * w) (tgetD x.credit r 0 + add)) }

/-- REQUEST_URGENT (R377): the clock has come to the request's age limit. -/
def execRequestUrgent (die chan id : Nat) (s : State) : Host.Outcome State Fault Refusal :=
  s.on fun d => match (d.chan die chan).queue.find? fun r => decide (r.id = id) with
    | some r => if r.urgent then d else (d.until (r.arrived + d.ageLimit die chan r.requester)).makeUrgent die chan r
    | none => d

/-- RH_WINDOW_CLEAR (R378): the rank's tables are cleared; CHAN_REF_CTRL.MODE takes effect (R393). -/
def execRhWindowClear (die chan rank : Nat) (s : State) : Host.Outcome State Fault Refusal :=
  s.on fun d =>
    let fine := d.fb CHAN_REF_CTRL.MODE die chan
    d.modChan die chan fun x =>
      { x with tables := x.tables.filter fun e => decide (e.1.1 ≠ rank),
               fine := if fine then (if x.fine.contains rank then x.fine else x.fine ++ [rank]) else x.fine.filter fun p => decide (p ≠ rank) }

/-- RH_COOLDOWN_END (R379). -/
def execRhCooldownEnd (die chan requester : Nat) (s : State) : Host.Outcome State Fault Refusal :=
  s.on fun d => match tget (d.chan die chan).throttled requester with
    | some t => ((d.until t).modChan die chan fun x => { x with throttled := tdel x.throttled requester }).showThrottled die chan
    | none => d

/-- ROW_CLOSE_TIMER (R374): 100 ns after its last column command an open row is closed. -/
def execRowCloseTimer (die chan rank bank : Nat) (s : State) : Host.Outcome State Fault Refusal :=
  s.on fun d => match (d.chan die chan).openRow rank bank with
    | some o =>
      if d.chanState die chan = 3 then d
      else ((d.until (o.last + 100)).issue die chan 4 rank bank 0 0 0 none).modChan die chan fun x =>
        { x with rows := x.rows.filter fun k => decide (k.rank ≠ rank ∨ k.bank ≠ bank) }
    | none => d

/-- DRAM_TEMP_READ (R382, R383). -/
def execDramTempRead (die chan dimm : Nat) (reading : Option Int) (sensor : Nat) (s : State) : Host.Outcome State Fault Refusal :=
  s.on fun d => d.tempRead die chan dimm reading sensor

/-- SELF_REFRESH_IDLE (R384). -/
def execSelfRefreshIdle (die chan rank : Nat) (s : State) : Host.Outcome State Fault Refusal :=
  s.on fun d =>
    let x := d.chan die chan
    if !x.ranks.contains rank || x.busy rank || d.fb CHAN_RANK_STATUS.SELF_REFRESH die chan rank || decide (d.chanState die chan ≠ 2) ||
      x.run.isSome || x.flying.any (fun r => decide (r.rank = rank)) then d
    else (d.until (tgetD x.lastReq rank 0 + d.swg.cfg.qos.srIdle)).selfRefresh die chan rank

/-- PATROL_SCRUB_READ (R385): the scrubber reads through an ACTIVE channel. -/
def execPatrolScrubRead (die chan : Nat) (beats : List Beat) (s : State) : Host.Outcome State Fault Refusal :=
  s.on fun d => if d.chanState die chan = 2 then d.scrubRead die chan beats else d

/-- CA_PARITY_ALERT (R386). -/
def execCaParityAlert (die chan dimm : Nat) (failed : Nat) (s : State) : Host.Outcome State Fault Refusal :=
  s.on fun d => if d.chanState die chan = 2 ∨ d.chanState die chan = 4 then d.caAlert die chan dimm failed else d

/-- ALERT_N_HIGH (R386). -/
def execAlertNHigh (die chan : Nat) (s : State) : Host.Outcome State Fault Refusal := s.on fun d => (d.alertHigh die chan).retryStep die chan

/-- CE_RATE_INTERVAL (R372). -/
def execCeRateInterval (die chan : Nat) (s : State) : Host.Outcome State Fault Refusal := s.on fun d => d.ceInterval die chan

/-- CHAN_THAW (R390): ignored unless FROZEN. -/
def execChanThaw (die chan : Nat) (s : State) : Host.Outcome State Fault Refusal := s.on fun d => d.thaw die chan 0

/-- CHAN_AUTO_THAW (R390): AUTO_THAW_MS after the freeze; 0 disables it. -/
def execChanAutoThaw (die chan : Nat) (s : State) : Host.Outcome State Fault Refusal :=
  s.on fun d =>
    let ms := d.f CHAN_CTRL.AUTO_THAW_MS die chan
    if ms = 0 ∨ d.chanState die chan ≠ 3 then d else (d.until ((d.chan die chan).frozenAt + 1000000 * ms)).thaw die chan 1

/-- CHAN_FREEZE_NOW (R390): ignored unless ACTIVE. -/
def execChanFreezeNow (die chan : Nat) (s : State) : Host.Outcome State Fault Refusal :=
  s.on fun d => if d.chanState die chan = 2 then d.freeze die chan 2 else d

/-- TRN_START (R399): ignored while ACTIVE. -/
def execTrnStart (die chan step rank : Nat) (s : State) : Host.Outcome State Fault Refusal :=
  s.on fun d => ((d.setF TRN_CTRL.STEP step die chan).setF TRN_CTRL.RANK rank die chan).beginTrn die chan (step % 8) (rank % 8)

/-- TRN_ABORT (R401). -/
def execTrnAbort (die chan : Nat) (s : State) : Host.Outcome State Fault Refusal := s.on fun d => (d.abortStep die chan 2).afterStep die chan

/-- TRN_COMMIT (R408): the candidate of the passed step is applied. -/
def execTrnCommit (die chan : Nat) (s : State) : Host.Outcome State Fault Refusal :=
  s.on fun d => match (d.chan die chan).cand with
    | some (rank, step, codes) => if d.fb TRN_STATUS.ACTIVE die chan then d else d.apply die chan rank step codes
    | none => d

/-- TRN_RETRAIN_NOW (R402, R406): on a frozen channel the cycle runs at once. -/
def execTrnRetrainNow (die chan rank : Nat) (full : Bool) (s : State) : Host.Outcome State Fault Refusal :=
  s.on fun d =>
    let d := (d.setF TRN_CTRL.RANK rank die chan).setB TRN_CTRL.FULL full die chan
    if !(d.chan die chan).ranks.contains rank then d
    else
      let d := d.trnTrigger die chan rank 3
      if d.chanState die chan = 3 ∧ d.mayCycle die chan rank then d.beginCycle die chan rank else d

/-- TRN_AUTO_CYCLE_START (R402, R403). -/
def execTrnAutoCycleStart (die chan rank : Nat) (s : State) : Host.Outcome State Fault Refusal :=
  s.on fun d => if d.mayCycle die chan rank then (d.until (d.cycleDue die chan rank)).beginCycle die chan rank else d

/-- TRN_SUBSTEP_END (R404): every refresh and RFM that has fallen due is issued, to the rank under training. -/
def execTrnSubstepEnd (die chan : Nat) (s : State) : Host.Outcome State Fault Refusal :=
  s.on fun d => match (d.chan die chan).run with
    | some r =>
      let d := d.issueOwed die chan r.rank
      d.forEach ((d.chan die chan).rfm.filter fun k => decide (k.1 = r.rank)) fun d k => d.issueRfm die chan k.1 k.2
    | none => d

/-- TRN_STEP_END (R403), after a pause of `us` µs: in service a step still running at 190 µs times out instead (R405). -/
def execTrnStepEnd (die chan us : Nat) (scans : List TrnScan) (s : State) : Host.Outcome State Fault Refusal :=
  s.on fun d =>
    match (d.chan die chan).run with
    | some r => if d.chanState die chan = 2 ∧ 190 ≤ us then d else (d.until (r.start + 1000 * us)).stepEnd die chan us scans
    | none => d

/-- TRN_GAP_ELAPSED (R403): the cycle's next step starts GAP_MS after its last. -/
def execTrnGapElapsed (die chan : Nat) (s : State) : Host.Outcome State Fault Refusal :=
  s.on fun d =>
    match (d.chan die chan).cycle with
    | some k =>
      if (d.chan die chan).run.isSome ∨ (d.chan die chan).runWait.isSome then d
      else
        let d := d.until (k.lastEnd + 1000000 * d.f TRN_RETRAIN_CTRL.GAP_MS die chan)
        (d.modChan die chan fun x => { x with cycle := some { k with next := k.next + 1 } }).beginTrn die chan k.next k.rank
    | none => d

/-- TRN_STEP_TIMEOUT (R405): 190 µs after START the step is abandoned; not on a frozen channel (R406). -/
def execTrnStepTimeout (die chan : Nat) (s : State) : Host.Outcome State Fault Refusal :=
  s.on fun d =>
    match (d.chan die chan).run with
    | some r =>
      if d.chanState die chan = 3 then d
      else
        let d := (((d.until (r.start + 190000)).endStep die chan 2 190).failCycle die chan).restoreLkg die chan r.rank
        (d.raise .TRN_STEP_TIMEOUT die [p1 (gchan die chan), p1 r.rank, p4 r.step]).afterStep die chan
    | none => d

end Sys2Proof.Machine
end

