-- ==== Sys2Proof/Machine/QflOps.lean ====
section
/-! DEFINITION. Quench flash (R410 to R434): the quads of a NAND die, spares and retirement, the block table and its log, the media
terms, and the descriptors of the firmware queue. -/

namespace Sys2Proof.Machine

open Sys2Proof

/-! ### Spares and the slag list (R568, R576) -/

/-- A unit retired for good (R576): kept in a SLAG record; its SEQ_LOW is that of the event that is raised next. -/
def Dev.slagAdd (d : Dev) (kind owner index cause : Nat) : Dev :=
  let e : Slag := ⟨kind, owner, index, cause, d.evt.nextSeq % 2 ^ 32⟩
  let d := { d with slag := d.slag ++ [e] }
  d.counterRecord magicSLAG [p1 kind, p1 owner, p1 index, p1 cause, p4 e.seqLow]

/-- A kind of spare becomes exhausted (R568). -/
def Dev.exhaust (d : Dev) (kind die : Nat) : Dev :=
  let m := d.f SVC_SPARE_STATUS.EXHAUSTED
  if bit m kind then d
  else (d.setF SVC_SPARE_STATUS.EXHAUSTED (m ||| 1 <<< kind)).raiseR .SVC_SPARE_EXHAUSTED [p1 kind, p1 die]

/-- An output pin's level (R238, R413). -/
def Dev.setPin (d : Dev) (name : String) (index level : Nat) : Dev :=
  { d with pins := tset d.pins (name, index) level, out := d.out ++ [.pin name index level] }

/-! ### Geometry (R410, R414, R415) -/

def Dev.setQfl (d : Dev) (f : QflState → QflState) : Dev := { d with qfl := f d.qfl }

/-- QUENCH in force (R53). -/
def Dev.qcfg (d : Dev) : QuenchCfg := d.swg.cfg.quench

/-- S_p (R414). -/
def Dev.spareCount (d : Dev) : Nat := (d.qcfg.blocks * d.qcfg.sparePct + 99) / 100

/-- Rated quads of a NAND die (R414). -/
def Dev.ratedQuads (d : Dev) : Nat := d.qcfg.blocks - d.spareCount

def Dev.qchan (d : Dev) (die c : Nat) : QChan :=
  tgetD d.qfl.chans (die, c) { attached := [], log := none, dirty := [], oldGeometry := false, fresh := false, tabled := false }

def Dev.setQchan (d : Dev) (die c : Nat) (x : QChan) : Dev := d.setQfl fun q => { q with chans := tset q.chans (die, c) x }

def Dev.modQchan (d : Dev) (die c : Nat) (f : QChan → QChan) : Dev := d.setQchan die c (f (d.qchan die c))

/-- Whether CHAN_ENABLE enables a channel (R53). -/
def Dev.qEnabled (d : Dev) (die c : Nat) : Bool := decide (c < 8) && bit (d.qcfg.chanEnable.getD (die - 1) 0) c

/-- Whether a NAND die is in service (R435). -/
def Dev.nandUp (d : Dev) (n : Nand) : Bool := decide (d.f QFL_NAND_STATUS.STATE n.die n.chan n.nand = 2)

/-- The NAND dies in service of a channel. -/
def Dev.nandsOf (d : Dev) (die c : Nat) : List Nand :=
  ((List.range 8).map fun k => (⟨die, c, k⟩ : Nand)).filter d.nandUp

/-- The channels of a die that are in service. -/
def Dev.qchansOf (d : Dev) (die : Nat) : List (Nat × Nat) :=
  ((List.range 8).map fun c => (die, c)).filter fun c => decide (d.f QFL_CHAN_STATUS.STATE c.1 c.2 = 2)

/-- The channels of the package in service, in (die, channel) order. -/
def Dev.qchansAll (d : Dev) : List (Nat × Nat) := (d.dies.map d.qchansOf).flatten

def QKey.on (k : QKey) : Nand := ⟨k.die, k.chan, k.nand⟩
def Nand.q (n : Nand) (quad : Nat) : QKey := ⟨n.die, n.chan, n.nand, quad⟩

/-- A quad: one that is not listed has never been written since its channel's format, or is STALE. -/
def Dev.quad (d : Dev) (k : QKey) : Quad :=
  let fresh := (d.qchan k.die k.chan).fresh
  tgetD d.qfl.quads k
    { state := if fresh then .ready else .stale, pe := 0, blocks := [k.quad, k.quad, k.quad, k.quad],
      order := if fresh then k.quad else 0, ptr := 0, marked := false }

def Dev.setQuad (d : Dev) (k : QKey) (q : Quad) : Dev := d.setQfl fun x => { x with quads := tset x.quads k q }

/-- A state change that the table logs (R421). -/
def Dev.logQuad (d : Dev) (k : QKey) (q : Quad) : Dev :=
  (d.setQuad k q).modQchan k.die k.chan fun x =>
    { x with dirty := if x.dirty.contains (k.nand, k.quad) then x.dirty else x.dirty ++ [(k.nand, k.quad)] }

/-- The quads of a NAND die. -/
def Dev.quadsOf (d : Dev) (n : Nand) : List QKey := (List.range d.ratedQuads).map n.q

/-- The quads of a NAND die in a state. -/
def Dev.quadsIn (d : Dev) (n : Nand) (p : QState → Bool) : List QKey := (d.quadsOf n).filter fun k => p (d.quad k).state

def QState.isStale : QState → Bool
  | .stale => true
  | .erasing => true
  | .erased => true
  | _ => false

def QState.isReady (s : QState) : Bool := decide (s = .ready)

/-- The ready queue of a NAND die, in its order (R420). -/
def Dev.readyQueue (d : Dev) (n : Nand) : List QKey := sortBy (fun k => (d.quad k).order) (d.quadsIn n QState.isReady)

/-- The free spare blocks of a plane, ascending (R414). -/
def Dev.sparesOf (d : Dev) (n : Nand) (plane : Nat) : List Nat :=
  match tget d.qfl.spares (n, plane) with
  | some l => l
  | none => ((List.range d.spareCount).map (· + d.ratedQuads)).filter fun b => !d.qfl.badBlocks.contains (n, plane, b)

def Dev.setSpares (d : Dev) (n : Nand) (plane : Nat) (l : List Nat) : Dev :=
  d.setQfl fun x => { x with spares := tset x.spares (n, plane) l }

/-- Bytes of a quad. -/
def Dev.quadBytes (d : Dev) : Nat := d.qcfg.pages * 65536

/-! ### The media terms (R424) -/

/-- Whether a NAND die's quads count: in service, on a channel whose table has the loaded geometry (R421). -/
def Dev.counts (d : Dev) (n : Nand) : Bool := d.nandUp n && !(d.qchan n.die n.chan).oldGeometry && (d.qchan n.die n.chan).tabled

/-- The NAND dies of the package that count. -/
def Dev.countedNands (d : Dev) : List Nand := ((d.qchansAll.map fun c => d.nandsOf c.1 c.2).flatten).filter d.counts

def Dev.readyOf (d : Dev) (n : Nand) : Nat := (d.quadsIn n QState.isReady).length

/-- B_erased. -/
def Dev.bErased (d : Dev) : Nat := sumOf (d.countedNands.map d.readyOf) * d.quadBytes - 294912 * d.diesUp.length

/-- B_die. -/
def Dev.bDie (d : Dev) : Nat := maxOf (d.countedNands.map d.readyOf) * d.quadBytes

/-- N_q: the NAND dies in service (R412). -/
def Dev.nq (d : Dev) : Nat := ((d.dies.map fun die => ((List.range 8).map fun c => d.nandsOf die c).flatten).flatten).length

/-! ### Retirement (R414, R415, R428, R431) -/

/-- Spare capacity of quench flash is exhausted (R431). -/
def Dev.qflExhausted (d : Dev) (n : Nand) (plane : Nat) : Dev :=
  let d := (d.setB QFL_PKG_STATUS.SPARE_EXHAUSTED true).raise .QFL_SPARE_EXHAUSTED n.die [p1 n.chan, p1 n.nand, p1 plane]
  d.exhaust 6 n.die

/-- The highest rated quad of a NAND die that is not reserved, for a reserved one that is retired (R415). -/
def Dev.nextReserved (d : Dev) (n : Nand) : Option QKey :=
  (d.quadsOf n).reverse.find? fun k => match (d.quad k).state with
    | .scratch _ => false
    | .table => false
    | .retired => false
    | _ => true

/-- A quad retired (R414): its good blocks join the spare pools of their planes; a reserved quad is replaced (R415). -/
def Dev.retireQuad (d : Dev) (k : QKey) (badPlane : Option Nat) : Dev :=
  let q := d.quad k
  let n := k.on
  let d := d.forEach (List.range 4) fun d p =>
    if badPlane = some p then d else d.setSpares n p (sortBy id (d.sparesOf n p ++ [q.blocks.getD p 0]))
  let d := (d.logQuad k { q with state := .retired }).raise .QFL_QUAD_RETIRED n.die [p1 n.chan, p1 n.nand, p1 k.quad]
  match q.state, d.nextReserved n with
  | .scratch _, some r => d.logQuad r { d.quad r with state := .scratch false }
  | .table, some r => d.logQuad r { d.quad r with state := .table }
  | _, _ => d

/-- A plane block of a quad retired (R414, R428): the lowest good spare of its plane replaces it, or the whole quad is retired.
Causes: 0 program, 1 erase, 2 ECC, 3 quench (R437). -/
def Dev.retireBlock (d : Dev) (k : QKey) (plane cause : Nat) : Dev :=
  let q := d.quad k
  let n := k.on
  let b := q.blocks.getD plane 0
  let sp := d.sparesOf n plane
  let d := d.setSpares n plane (sp.drop 1)
  let d := d.setQfl fun x => { x with badBlocks := x.badBlocks ++ [(n, plane, b)] }
  let d := d.raise .QFL_BLOCK_RETIRED n.die [p1 n.chan, p1 n.nand, p1 plane, p4 b, p1 cause, p4 (sp.length - 1)]
  match sp with
  | s :: _ => d.logQuad k { q with blocks := q.blocks.set plane s }
  | [] => (d.retireQuad k (some plane)).qflExhausted n plane

/-- A NAND die retired for good (R430, R431, R576); its cause by R576. -/
def Dev.retireNand (d : Dev) (n : Nand) (cause : Nat) : Dev :=
  let d := d.setF QFL_NAND_STATUS.STATE 3 n.die n.chan n.nand
  let m := d.f QFL_CHAN_STATUS.IN_SERVICE n.die n.chan
  let d := d.setF QFL_CHAN_STATUS.IN_SERVICE (m - (if bit m n.nand then 2 ^ n.nand else 0)) n.die n.chan
  let d := d.setQfl fun x => { x with lostNands := if x.lostNands.contains n then x.lostNands else x.lostNands ++ [n] }
  let d := (d.slagAdd 5 n.die (8 * n.chan + n.nand) cause).raise .QFL_NAND_RETIRED n.die [p1 n.chan, p1 n.nand, p1 cause]
  d.qflExhausted n 0

/-- A channel whose NAND dies have all failed goes out of service (R412, R430). -/
def Dev.channelCheck (d : Dev) (die c : Nat) : Dev :=
  if d.f QFL_CHAN_STATUS.STATE die c = 2 ∧ (d.nandsOf die c).isEmpty then
    let lost := ((List.range 8).filter fun k => decide (d.f QFL_NAND_STATUS.STATE die c k = 3)).length
    (d.setF QFL_CHAN_STATUS.STATE 3 die c).raise .QFL_CHANNEL_DOWN die [p1 c, p4 lost]
  else d

/-! ### Attach (R411 to R413) -/

/-- The check that a NAND die fails, by its place in R412; 0 for no answer. -/
def Dev.nandFails (d : Dev) (n : Nand) (l : NandLook) : Option Nat :=
  if !l.answers then some 0
  else if !l.slc then some 1
  else if l.pageSize ≠ 16384 ∨ l.spare < 2048 then some 2
  else if l.planes ≠ 4 ∨ !l.freeBlocks then some 3
  else if l.pages ≠ d.qcfg.pages then some 4
  else if l.blocks < d.qcfg.blocks then some 5
  else if !l.rateOk then some 6
  else if d.qfl.lostNands.contains n then some 0
  else none

/-- A NAND die is attached or refused (R412). The end of a channel's attach drives WP_n inactive (R413). -/
def Dev.nandAttach (d : Dev) (n : Nand) (l : NandLook) : Dev :=
  if !d.qEnabled n.die n.chan || decide (d.qcfg.diesPerChan ≤ n.nand) || (d.qchan n.die n.chan).attached.contains n.nand then d
  else
    let d := d.modQchan n.die n.chan fun x => { x with attached := x.attached ++ [n.nand] }
    let d := if d.f QFL_CHAN_STATUS.STATE n.die n.chan = 0 then d.setF QFL_CHAN_STATUS.STATE 1 n.die n.chan else d
    let d := match d.nandFails n l with
      | some p =>
        (d.setF QFL_NAND_STATUS.STATE (if d.qfl.lostNands.contains n then 3 else 1) n.die n.chan n.nand).raise .QFL_NAND_REFUSED n.die
          [p1 n.chan, p1 n.nand, p4 p]
      | none =>
        let d := d.setF QFL_NAND_STATUS.STATE 2 n.die n.chan n.nand
        let m := d.f QFL_CHAN_STATUS.IN_SERVICE n.die n.chan
        let d := d.setF QFL_CHAN_STATUS.IN_SERVICE (m ||| 1 <<< n.nand) n.die n.chan
        d.raise .QFL_NAND_UP n.die [p1 n.chan, p1 n.nand, p4 d.ratedQuads]
    if (d.qchan n.die n.chan).attached.length < d.qcfg.diesPerChan then d
    else
      let up := !(d.nandsOf n.die n.chan).isEmpty
      (d.setF QFL_CHAN_STATUS.STATE (if up then 2 else 3) n.die n.chan).setPin "WP_n" (8 * (n.die - 1) + n.chan) 1

/-! ### The table (R415, R421, R422) -/

/-- The reserved quads of a channel at its format (R415): table quads, then scratch quads round-robin from the highest rated ones. -/
def Dev.reservedQuads (d : Dev) (die c : Nat) : List (QKey × QState) :=
  let ns := d.nandsOf die c
  let tables : List QKey := match ns with
    | [] => []
    | [n] => (List.range 4).map n.q
    | n :: m :: _ => [n.q 0, n.q 1, m.q 0, m.q 1]
  let scratch := (List.range d.qcfg.scratch).filterMap fun i =>
    (ns[i % ns.length]?).map fun n => n.q (d.ratedQuads - 1 - i / ns.length)
  tables.map (fun k => (k, .table)) ++ scratch.map fun k => (k, .scratch true)

/-- The listed quads of a channel as table records (R422). -/
def Dev.tableRecords (d : Dev) (die c : Nat) : List QLog :=
  (d.qfl.quads.filter fun e => decide (e.1.die = die ∧ e.1.chan = c)).map fun e => ⟨e.1.nand, e.1.quad, e.2⟩

/-- Pages of a checkpoint: 680 records a part (R422). -/
def partsOf (rs : List QLog) : Nat := Nat.max 1 ((rs.length + 679) / 680)

/-- Delta records applied over a base. -/
def applyDeltas (base : List QLog) (ds : List QLog) : List QLog :=
  ds.foldl (fun b r => (b.filter fun x => decide (x.nand ≠ r.nand ∨ x.quad ≠ r.quad)) ++ [r]) base

/-- A checkpoint of the whole table at the start of an erased table quad (R421). -/
def Dev.checkpoint (d : Dev) (die c : Nat) : Dev :=
  let rs := d.tableRecords die c
  d.modQchan die c fun x =>
    let seq := match x.log with | some l => l.seq | none => 0
    { x with log := some ⟨seq + partsOf rs, d.qcfg, x.fresh, rs, []⟩, dirty := [] }

/-- An erased quad becomes READY, behind the others of its NAND die (R419). -/
def Dev.readyErased (d : Dev) (k : QKey) : Dev :=
  let q := d.quad k
  if q.state = .erased then
    let last := maxOf ((d.quadsIn k.on QState.isReady).map fun j => (d.quad j).order)
    d.setQuad k { q with state := .ready, order := last + 1, ptr := 0 }
  else d

/-- A delta page is programmed with the queued records (R419, R421): erased quads become READY, in their order. When the table quad is
full, the other one takes the next checkpoint. -/
def Dev.tableDelta (d : Dev) (die c : Nat) : Dev :=
  let x := d.qchan die c
  let d := d.forEach x.dirty fun d e => d.readyErased ⟨die, c, e.1, e.2⟩
  let recs := x.dirty.map fun e => (⟨e.1, e.2, d.quad ⟨die, c, e.1, e.2⟩⟩ : QLog)
  match x.log with
  | none => d.checkpoint die c
  | some l =>
    if partsOf l.base + l.deltas.length < d.qcfg.pages then
      d.modQchan die c fun y => { y with log := some { l with seq := l.seq + 1, deltas := l.deltas ++ [recs] }, dirty := [] }
    else d.checkpoint die c

/-- The units of a channel dropped. -/
def Dev.dropUnits (d : Dev) (p : QKey → Bool) : Dev := d.setQfl fun x => { x with units := x.units.filter fun e => !p e.1.1 }

/-- The channel is formatted (R421): factory marks are read, every quad is erased, a checkpoint is written. Causes: 0 blank,
1 geometry. -/
def Dev.formatChan (d : Dev) (die c cause : Nat) (marks : List (Nat × Nat × Nat)) : Dev :=
  let d := d.dropUnits fun k => decide (k.die = die ∧ k.chan = c)
  let d := d.setQfl fun x =>
    { x with quads := x.quads.filter (fun e => decide (e.1.die ≠ die ∨ e.1.chan ≠ c)),
             spares := x.spares.filter (fun e => decide (e.1.1.die ≠ die ∨ e.1.1.chan ≠ c)),
             badBlocks := x.badBlocks.filter (fun e => decide (e.1.die ≠ die ∨ e.1.chan ≠ c)) ++ marks.map fun m => (⟨die, c, m.1⟩, m.2.1, m.2.2) }
  let d := d.modQchan die c fun x => { x with fresh := true, oldGeometry := false, tabled := true, log := none }
  let d := d.forEach (d.reservedQuads die c) fun d e => d.setQuad e.1 { d.quad e.1 with state := e.2 }
  let d := d.forEach (marks.filter fun m => decide (m.2.2 < d.ratedQuads)) fun d m =>
    let k : QKey := ⟨die, c, m.1, m.2.2⟩
    match d.sparesOf k.on m.2.1 with
    | s :: l => (d.setSpares k.on m.2.1 l).setQuad k { d.quad k with blocks := (d.quad k).blocks.set m.2.1 s }
    | [] => d.retireQuad k (some m.2.1)
  (d.checkpoint die c).raise .QFL_FORMAT die [p1 c, p1 cause, p4 marks.length]

/-- The generation and the Ingot slot that a unit at a quad's first page names (R420, R421). -/
def Dev.quadHolds (d : Dev) (k : QKey) : Option (Nat × Option Nat) :=
  match tget d.qfl.units (k, 0) with
  | some (.header h) => some (h.gen, some h.slot)
  | some (.seg s) => some (s.gen, none)
  | some (.trailer t) => some (t.gen, none)
  | some (.commit x) => some (x.gen, some x.slot)
  | some (.raw _) => some (0, none)
  | some .undef => some (0, none)
  | none => none

/-- The slot of a generation: a header or a commit record that names it. -/
def Dev.slotOfGen (d : Dev) (g : Nat) : Nat :=
  (d.qfl.units.filterMap fun e => match e.2 with
    | .header h => if h.gen = g then some h.slot else none
    | .commit x => if x.gen = g then some x.slot else none
    | _ => none).headD 0

/-- The start-up scan of a channel's ready queues (R420): a ready quad that reads as programmed becomes TAKEN. -/
def Dev.scanReady (d : Dev) (die c : Nat) : Dev :=
  d.forEach (d.nandsOf die c) fun d n =>
    d.forEach ((d.readyQueue n).takeWhile fun k => (d.quadHolds k).isSome) fun d k =>
      let g := match d.quadHolds k with | some (g, some s) => (g, s) | some (g, none) => (g, d.slotOfGen g) | none => (0, 0)
      d.logQuad k { d.quad k with state := .taken g.2, ptr := d.qcfg.pages }

/-- The generations that valid commit pointers and claims name (R255, R421). -/
def Dev.namedGens (d : Dev) : List Nat :=
  ((d.ringRecords commitRing).filter fun r => decide (r.magic = magicQPTR ∨ r.magic = magicGCLM)).map fun r => r.at 16 4

/-- A channel's table is recovered, rebuilt or formatted at start-up (R421). -/
def Dev.tableRecover (d : Dev) (die c : Nat) (look : TableLook) : Dev :=
  let x := d.qchan die c
  if x.tabled || decide (d.f QFL_CHAN_STATUS.STATE die c ≠ 2) then d
  else match look, x.log with
    | .recovered copy n, some l =>
      let recs := applyDeltas l.base (l.deltas.take n).flatten
      let listed : Tab QKey Quad := recs.map fun r => (⟨die, c, r.nand, r.quad⟩, r.data)
      let d := d.setQfl fun q => { q with quads := q.quads.filter (fun e => decide (e.1.die ≠ die ∨ e.1.chan ≠ c)) ++ listed }
      let d := d.setQchan die c
        { x with tabled := true, fresh := l.fresh, oldGeometry := decide (l.quench ≠ d.qcfg), dirty := [],
                 log := some { l with deltas := l.deltas.take n } }
      (d.raise .QFL_TABLE_RECOVERED die [p1 c, p1 copy, p8 (l.seq - (l.deltas.length - n)), p4 (Nat.min n l.deltas.length)]).scanReady die c
    | .blank marks, _ => d.formatChan die c 0 marks
    | _, old =>
      let pe := maxOf (match old with | some l => (applyDeltas l.base l.deltas.flatten).map fun r => r.data.pe | none => [])
      let gens := d.namedGens
      let ks := ((d.nandsOf die c).map d.quadsOf).flatten
      let isTaken (k : QKey) : Bool := match d.quadHolds k with | some (g, _) => gens.contains g | none => false
      let d := d.setQfl fun q => { q with quads := q.quads.filter (fun e => decide (e.1.die ≠ die ∨ e.1.chan ≠ c)) }
      let d := d.setQchan die c { x with tabled := true, fresh := false, oldGeometry := false, dirty := [] }
      let d := d.forEach ks fun d k =>
        if isTaken k then d.setQuad k { d.quad k with state := .taken (match d.quadHolds k with | some (_, some s) => s | some (g, none) => d.slotOfGen g | none => 0), pe := pe, ptr := d.qcfg.pages }
        else if pe = 0 then d else d.setQuad k { d.quad k with pe := pe }
      let d := d.forEach (d.reservedQuads die c) fun d e => d.setQuad e.1 { d.quad e.1 with state := match e.2 with | .scratch _ => .scratch false | s => s }
      let n := (ks.filter isTaken).length
      (d.checkpoint die c).raise .QFL_TABLE_REBUILT die [p1 c, p4 n, p4 (ks.length - n)]

/-! ### Erases (R419, R424, R426) -/

/-- Whether a NAND die holds an unretired unit of the Ingot that is held or under restore (R426). -/
def Dev.ingotOn (d : Dev) (n : Nand) : Bool :=
  let live (g : Nat) (e : (QKey × Nat) × Unit) : Bool := decide (e.1.1.on = n) && match e.2 with
    | .seg s => decide (s.gen = g) && (match d.rht.restore with
        | some r => r.segs.any fun x => decide (x.gen = s.gen ∧ x.die = s.die ∧ x.num = s.num) && !x.retired
        | none => true)
    | .header h => decide (h.gen = g)
    | .trailer t => decide (t.gen = g)
    | _ => false
  let of (r : Option Restore) : Bool := match r with
    | some r => d.qfl.units.any (live r.generation) || (match r.pred with | some p => d.qfl.units.any (live p.1) | none => false)
    | none => false
  of d.rht.restore || of d.rht.held

/-- Whether a dry quench window is open (R218). -/
def Dev.dryOpen (d : Dev) : Bool := match d.ceil.dry with | some r => r.openedAt.isSome | none => false

/-- The STALE quad with the lowest P/E count, the lowest number on a tie (R424). -/
def Dev.eraseChoice (d : Dev) (n : Nand) : Option QKey :=
  (d.quadsIn n fun s => decide (s = .stale)).foldl (fun (b : Option QKey) k => match b with
    | some j => if (d.quad k).pe < (d.quad j).pe then some k else b
    | none => some k) none

/-- The erase scheduler issues an erase (R419, R424, R426): one at a time per NAND die. A quad whose P/E count reaches
QFL_PE_LIMIT is retired. -/
def Dev.eraseIssue (d : Dev) (n : Nand) : Dev :=
  if !d.counts n || d.quenching || d.dryOpen || d.ingotOn n || !(d.quadsIn n fun s => decide (s = .erasing)).isEmpty then d
  else match d.eraseChoice n with
    | none => d
    | some k =>
      let q := d.quad k
      let pe := q.pe + 1
      if d.f QFL_PE_LIMIT.CYCLES n.die ≤ pe then
        ((d.setQuad k { q with pe := pe }).raise .QFL_PE_LIMIT n.die [p1 n.chan, p1 n.nand, p1 k.quad, p4 pe]).retireQuad k none
      else d.setQuad k { q with state := .erasing, pe := pe }

/-- An erase ends (R419): `failed` names the plane whose block fails. -/
def Dev.eraseDone (d : Dev) (n : Nand) (failed : Option Nat) : Dev :=
  match d.quadsIn n fun s => decide (s = .erasing) with
  | [] => d
  | k :: _ =>
    match failed with
    | none => (d.dropUnits fun j => decide (j = k)).logQuad k { d.quad k with state := .erased, ptr := 0 }
    | some p => (d.logQuad k { d.quad k with state := .stale }).retireBlock k p 1

/-- A quad TAKEN goes STALE when its Ingot is released, or is retired where R418 marked it (R419). -/
def Dev.releaseQuads (d : Dev) (slot : Nat) : Dev :=
  d.forEach (d.qfl.quads.filter fun e => decide (e.2.state = .taken slot)) fun d e =>
    if e.2.marked then (d.retireQuad e.1 none).dropUnits fun j => decide (j = e.1) else d.logQuad e.1 { e.2 with state := .stale, ptr := 0 }

/-! ### The firmware queue (R432 to R434) -/

/-- A descriptor of the quench-flash queue (R432). -/
structure QDesc where
  opcode : Nat
  flags : Nat
  chan : Nat
  nand : Nat
  quad : Nat
  page : Nat
  plane : Nat
  feature : Nat
  length : Nat
  handle : Nat
  tag : Nat
  deriving DecidableEq, Repr

/-- The descriptor at HEAD. -/
def Dev.qdesc (d : Dev) (die : Nat) : QDesc :=
  let w (i : Nat) : Nat := d.f QFL_DESC.WORD die (4 * d.f QFL_Q_HEAD.HEAD die + i)
  { opcode := bits (w 0) 0 8, flags := bits (w 0) 8 8, chan := bits (w 0) 16 8, nand := bits (w 0) 24 8, quad := bits (w 0) 32 16,
    page := bits (w 0) 48 16, plane := bits (w 1) 0 8, feature := bits (w 1) 8 8, length := bits (w 1) 16 16, handle := bits (w 1) 32 32,
    tag := w 2 }

/-- The completion of the descriptor at HEAD (R434). -/
def Dev.qComplete (d : Dev) (die : Nat) (st : Status) (onfi done maxCorr flags corr tag : Nat) : Dev :=
  let t := d.f QFL_CQ_TAIL.TAIL die
  let d := d.setQfl fun x => { x with corrected := x.corrected + corr }
  let w0 := st.code + 2 ^ 8 * (onfi % 256) + 2 ^ 16 * (done % 65536) + 2 ^ 32 * (Nat.min maxCorr 255) + 2 ^ 40 * flags + 2 ^ 48 * (corr % 65536)
  let d := (d.setF QFL_CPL.WORD w0 die (2 * t)).setF QFL_CPL.WORD tag die (2 * t + 1)
  (d.setF QFL_CQ_TAIL.TAIL (t + 1) die).setF QFL_Q_HEAD.HEAD (d.f QFL_Q_HEAD.HEAD die + 1) die

/-- Units that an operation moves at most (R433): a page of 256, 1,024 with MULTI_PLANE, page and spare for READ_RAW. The spare area is
taken as 2,048 bytes (assumption 21). -/
def qLimit (op : Nat) (multi : Bool) : Nat :=
  if op = 2 then 288 else if multi then 1024 else 256

/-- Whether an opcode moves data through the buffer. -/
def qMoves (op : Nat) : Bool := decide (op = 1 ∨ op = 2 ∨ op = 3 ∨ op = 5 ∨ op = 6)

/-- The length rule of R433 and R499, made before the handle's checks: against the buffer of the handle's class, or 65,536 bytes. -/
def qLengthOk (e : QDesc) : Bool :=
  let c := handleClass e.handle
  let top := if qMoves e.opcode ∧ c ≤ 3 then classSize c else 65536
  decide (e.length ≠ 0 ∧ 64 * e.length ≤ top) && (!qMoves e.opcode || decide (e.length ≤ qLimit e.opcode (bit e.flags 1)))

/-- The checks of R433 for a descriptor of an opcode: the buffer it moves data through, or the completion of its refusal. -/
def Dev.qCheck (d : Dev) (die : Nat) (e : QDesc) : Except Dev (Option BufKey) :=
  let fail (d : Dev) (st : Status) : Except Dev (Option BufKey) := .error (d.qComplete die st 0 0 0 0 0 e.tag)
  if !qLengthOk e then fail d .lengthError
  else
    match (if qMoves e.opcode then (d.checkHandle e.handle).map some else .ok none) with
    | .error n => fail (d.badHandle (handleDie e.handle) 30 die e.handle n) .badHandle
    | .ok k =>
      if (match k with | some b => d.quarantined b.die 30 | none => false) then fail d .accessDenied
      else if e.opcode = 3 ∨ e.opcode = 4 then
        match (d.quad ⟨die, e.chan, e.nand, e.quad⟩).state with
        | .scratch _ => if d.ceil.dry.isSome then fail d .busy else .ok k
        | _ => fail d .accessDenied
      else .ok k

/-- Whether the LUN of a descriptor is erasing (R425). -/
def Dev.qErasing (d : Dev) (n : Nand) : Bool := !(d.quadsIn n fun s => decide (s = .erasing)).isEmpty

/-- A descriptor command: it acts when the queue's next descriptor has the opcode; a descriptor whose LUN erases waits, or completes
with BUSY under FAIL_FAST (R425). -/
def Dev.qCommand (d : Dev) (die op : Nat) (act : Dev → QDesc → QKey → Option BufKey → Dev) : Dev :=
  let e := d.qdesc die
  if d.f QFL_Q_TAIL.TAIL die = d.f QFL_Q_HEAD.HEAD die ∨ d.quenching then d
  else if e.opcode ≠ op then d
  else match d.qCheck die e with
    | .error d => d
    | .ok k =>
      let key : QKey := ⟨die, e.chan, e.nand, e.quad⟩
      if d.qErasing key.on then (if bit e.flags 0 then d.qComplete die .busy 0 0 0 0 0 e.tag else d)
      else act d e key k

/-- The corrections of a read (R418): WARN, QFL_ECC_HIGH, and the quad's mark. -/
def Dev.qWarn (d : Dev) (key : QKey) (page : Nat) (m : NandMedium) : Dev × Bool :=
  let top := maxOf m.corrected
  if d.f QFL_ECC_CTRL.WARN key.die < top then
    ((d.setQuad key { d.quad key with marked := true }).raise .QFL_ECC_HIGH key.die [p1 key.chan, p1 key.nand, p1 key.quad, p4 page, p4 top], true)
  else (d, false)

/-- The words that a page reads as: what firmware programmed there, all ones where it is erased, else what the medium shows. -/
def Dev.qWords (d : Dev) (key : QKey) (page n : Nat) (m : NandMedium) : List Word :=
  match tget d.qfl.units (key, page) with
  | some (.raw ws) => (List.range n).map fun i => ws.getD i 0
  | none => if page < (d.quad key).ptr then (List.range n).map fun i => m.words.getD i 0 else List.replicate n (BitVec.allOnes 64)
  | _ => (List.range n).map fun i => m.words.getD i 0

/-- READ (R417, R418, R433): the codewords before an uncorrectable one reach the buffer. -/
def Dev.qRead (d : Dev) (e : QDesc) (key : QKey) (k : Option BufKey) (m : NandMedium) : Dev :=
  let n := match m.bad with | some b => Nat.min e.length (32 * b) | none => e.length
  let d := match k with
    | some b => { d with pool := { d.pool with data := tset d.pool.data b (d.qWords key e.page (8 * n) m) } }
    | none => d
  let (d, warn) := d.qWarn key e.page m
  d.qComplete key.die (if m.bad.isSome then .eccUncorrectable else .ok) m.onfi n (maxOf m.corrected) (b2n warn + 2 * b2n m.retry)
    (m.corrected.filter fun c => decide (c ≠ 0)).length e.tag

/-- READ_RAW, READ_PARAM and GET_FEATURE: what the NAND gives goes to the buffer. -/
def Dev.qFetch (d : Dev) (e : QDesc) (key : QKey) (k : Option BufKey) (m : NandMedium) : Dev :=
  let d := match k with
    | some b => { d with pool := { d.pool with data := tset d.pool.data b ((List.range (8 * e.length)).map fun i => m.words.getD i 0) } }
    | none => d
  d.qComplete key.die .ok m.onfi e.length 0 0 0 e.tag

/-- PROGRAM of a scratch quad at its write pointer (R423, R433); the LUN's FAIL status retires the plane block (R428). -/
def Dev.qProgram (d : Dev) (e : QDesc) (key : QKey) (k : Option BufKey) (m : NandMedium) : Dev :=
  let q := d.quad key
  let erased := match q.state with | .scratch b => b | _ => false
  if e.page ≠ q.ptr ∨ !erased ∧ q.ptr = 0 ∨ d.qcfg.pages ≤ q.ptr then d.qComplete key.die .notErased m.onfi 0 0 0 0 e.tag
  else
    let ws := match k with | some b => (List.range (8 * e.length)).map fun i => d.bufWord b i | none => []
    let bad := bit m.onfi 0
    let d := d.setQfl fun x => { x with units := tset x.units (key, e.page) (if bad then .undef else .raw ws) }
    let d := d.logQuad key { q with state := .scratch false, ptr := q.ptr + 1 }
    let d := if bad then d.retireBlock key (e.plane % 4) 0 else d
    d.qComplete key.die (if bad then .programFail else .ok) m.onfi (if bad then 0 else e.length) 0 0 0 e.tag

/-- ERASE_QUAD of a scratch quad (R423, R433). -/
def Dev.qErase (d : Dev) (e : QDesc) (key : QKey) (m : NandMedium) : Dev :=
  let q := d.quad key
  let bad := bit m.onfi 0
  let d := if bad then (d.logQuad key { q with pe := q.pe + 1, state := .scratch false }).retireBlock key (e.plane % 4) 1
    else (d.dropUnits fun j => decide (j = key)).logQuad key { q with pe := q.pe + 1, state := .scratch true, ptr := 0 }
  d.qComplete key.die (if bad then .eraseFail else .ok) m.onfi 0 0 0 0 e.tag

/-- BLANK_CHECK of a quad (R434). -/
def Dev.qBlank (d : Dev) (e : QDesc) (key : QKey) (m : NandMedium) : Dev :=
  let blank := !(d.qfl.units.any fun x => decide (x.1.1 = key)) && decide ((d.quad key).ptr = 0)
  d.qComplete key.die .ok m.onfi 0 0 (4 * b2n blank) 0 e.tag

end Sys2Proof.Machine
end

