-- ==== Sys2Proof/Machine/BellOps.lean ====
section
/-! DEFINITION. The Bellows (R438 to R461): strings, their switches, the count and its anchors, resistance, learning discharges,
authentication, and the learned-values records. -/

namespace Sys2Proof.Machine

open Sys2Proof

/-! ### A string (R443 to R446, R459) -/

def Dev.setBell (d : Dev) (f : BellState → BellState) : Dev := { d with bell := f d.bell }

/-- A string; one that has not been seen is ABSENT. -/
def Dev.bstr (d : Dev) (n : Nat) : BStr :=
  tgetD d.bell.strs n
    { present := false, known := false, missed := 0, raw := 0, rep := 0, thru := 0, sinceFull := none, highI := 0, lowV := 0, faults := [],
      lastMeas := none, lastLearn := 0, learnCause := 0, waitSaid := false, learnAt := 0, rependAt := none, auth := none }

def Dev.modBstr (d : Dev) (n : Nat) (f : BStr → BStr) : Dev := d.setBell fun b => { b with strs := tset b.strs n (f (d.bstr n)) }

/-- The strings of ENERGY (R54). -/
def Dev.strings (d : Dev) : List Nat := List.range d.swg.cfg.energy.strings.length

def Dev.strCfg (d : Dev) (n : Nat) : StringCfg := d.swg.cfg.energy.strings.getD n ⟨0, 0, 0, 0, 0, 0⟩

/-- BELL_LIFE_S now (R461). -/
def Dev.lifeS (d : Dev) : Nat := d.bell.lifeBase + (d.now - d.bell.lifeAt) / 1000000000

/-- Whether a string's capacity is learned. -/
def Dev.learned (d : Dev) (n : Nat) : Bool := d.fb BELL_STR_STATUS.LEARNED 0 n

/-- Q_ref in mC (R445). -/
def Dev.qref (d : Dev) (n : Nat) : Nat := if d.learned n then d.f BELL_STR_CAP.MC 0 n else (d.strCfg n).capacity * 3600

/-- A signed register value. -/
def signedOf (w v : Nat) : Int := (BitVec.ofNat w v).toInt

/-- A value as a two's-complement field. -/
def fieldOf (w : Nat) (v : Int) : Nat := (BitVec.ofInt w v).toNat

/-- A temperature register in 0.1 °C; 0x8000 is invalid (R463). -/
def Dev.ntc (d : Dev) (F : Fld) (n : Nat) : Option Int := if d.f F 0 n = 0x8000 then none else some (signedOf 16 (d.f F 0 n))

/-- T_hot in 0.1 °C (R444). -/
def Dev.tHot (d : Dev) (n : Nat) : Option Int :=
  match d.ntc BELL_STR_TEMP.NTC_A n, d.ntc BELL_STR_TEMP.NTC_B n with
  | some a, some b => some (if a < b then b else a)
  | some a, none => some a
  | none, b => b

/-- I in mA. -/
def Dev.strI (d : Dev) (n : Nat) : Int := signedOf 32 (d.f BELL_STR_I.MA 0 n)

/-- T_hot as an event item in °C. -/
def Dev.tHotItem (d : Dev) (n : Nat) : Nat × Nat := pT (((d.tHot n).getD 0) / 10)

/-- Q_i in µC (R450). -/
def Dev.qUsed (d : Dev) (n : Nat) : Nat := let s := d.bstr n; if s.rep < s.raw then s.rep.toNat else s.raw.toNat

/-- FEC (R445). -/
def Dev.fec (d : Dev) (n : Nat) : Nat := if d.qref n = 0 then 0 else (d.bstr n).thru / (1000 * d.qref n)

/-- The LEARN state: 0 none, 1 PENDING, 2 DISCHARGING, 3 RECHARGING (R463). -/
def Dev.learnState (d : Dev) (n : Nat) : Nat := d.f BELL_STR_STATUS.LEARN 0 n

/-- The switch state of a string without a dry quench (R441, R442): 0 ISOLATED, 1 STANDBY, 2 HOLD, 3 CARRY. -/
def Dev.switchAlone (d : Dev) (n : Nat) : Nat :=
  let s := d.bstr n
  if d.fb BELL_STR_CTRL.FORCE_ISOLATE 0 n || !s.present then 0
  else if d.quenching then 2
  else if d.learnState n = 2 then 3
  else if s.faults.contains 1 then 2
  else if !d.fb BELL_STR_STATUS.AUTHENTICATED 0 n && !bit d.swg.cfg.secPolicy 0 then 2
  else 1

/-- Whether a string is counted (R459). -/
def Dev.strCounted (d : Dev) (n : Nat) : Bool :=
  let s := d.bstr n
  s.present && decide (d.switchAlone n ≠ 0) && d.fb BELL_STR_STATUS.AUTHENTICATED 0 n && !d.fb BELL_STR_STATUS.UNKNOWN 0 n &&
    decide (d.learnState n ≠ 2) && (match d.tHot n with | some t => decide (t < 700) | none => false)

/-- The switch state (R442). -/
def Dev.switchOf (d : Dev) (n : Nat) : Nat :=
  let a := d.switchAlone n
  if decide (a ≠ 0) && !d.quenching && d.dryOpen && d.strCounted n then 3 else a

/-- The numerator of E_i over 10^24 (R205): µC × mV and the three derates. -/
def Dev.energyNum (d : Dev) (n : Nat) : Nat :=
  let c := d.strCfg n
  let t := ((d.tHot n).getD 0 - 250).toNat
  d.qUsed n * c.vEod * (100000 - c.tempDerate * t) * (1000000 - c.ageDerate * d.fec n) * (if d.learned n then 10000 else 100 * (100 - c.newDerate))

/-- The counted strings but those left out. -/
def Dev.countedBut (d : Dev) (out : List Nat) : List Nat := d.strings.filter fun n => d.strCounted n && !out.contains n

/-- E_usable in J (R205), with strings left out. -/
def Dev.eUsable (d : Dev) (out : List Nat) : Nat :=
  let es := (d.countedBut out).map d.energyNum
  (sumOf es - maxOf es) / 10 ^ 24

/-- STATE of a string (R459): 0 ABSENT, 1 ONLINE, 2 LEARNING, 3 FAULT, 4 ISOLATED. -/
def Dev.strState (d : Dev) (n : Nat) : Nat :=
  if !(d.bstr n).present then 0 else if d.switchOf n = 0 then 4 else if d.learnState n = 2 then 2 else if !(d.bstr n).faults.isEmpty then 3 else 1

/-- A dry quench notices a string that changes state in its window (R219). -/
def Dev.dryChanged (d : Dev) : Dev :=
  d.setCeil fun c => { c with dry := d.ceil.dry.map fun (r : DryRun) => if r.openedAt.isSome then { r with changed := true } else r }

/-- The registers and switch outputs of a string as it stands (R441, R463). -/
def Dev.showStr (d : Dev) (n : Nat) : Dev :=
  let s := d.bstr n
  let sw := d.switchOf n
  let st := d.strState n
  let d := if st ≠ d.f BELL_STR_STATUS.STATE 0 n ∨ sw ≠ d.f BELL_STR_STATUS.SWITCH 0 n then d.dryChanged else d
  let d := if sw ≠ d.f BELL_STR_STATUS.SWITCH 0 n then (d.setPin "STR_SW0" n (sw % 2)).setPin "STR_SW1" n (sw / 2) else d
  let d := ((d.setF BELL_STR_STATUS.STATE st 0 n).setF BELL_STR_STATUS.SWITCH sw 0 n).setB BELL_STR_STATUS.COUNTED (d.strCounted n) 0 n
  let d := d.setF BELL_STR_STATUS.FAULT (s.faults.headD 0) 0 n
  let d := (d.setF BELL_STR_Q_RAW.MC (fieldOf 48 (s.raw / 1000)) 0 n).setF BELL_STR_Q_REP.MC (fieldOf 48 (s.rep / 1000)) 0 n
  let d := (d.setF BELL_STR_THRU.MC (saturate 48 (s.thru / 1000)) 0 n).setF BELL_STR_FEC.CYCLES (saturate 16 (d.fec n)) 0 n
  d.setF BELL_STR_E.J (if d.strCounted n then saturate 32 (d.energyNum n / 10 ^ 24) else 0) 0 n

/-- Every string shown. -/
def Dev.showStrs (d : Dev) : Dev := d.forEach d.strings fun d n => d.showStr n

/-- The count of a string becomes UNKNOWN (R446). -/
def Dev.unknown (d : Dev) (n : Nat) : Dev :=
  (d.setB BELL_STR_STATUS.UNKNOWN true 0 n).modBstr n fun s => { s with raw := 0, rep := 0, sinceFull := none }

/-- SERIAL of a module as stored (BELL_STR_SERIAL, R463). -/
def Dev.strSerial (d : Dev) (n : Nat) : Nat := d.f BELL_STR_SERIAL.WORD 0 n 0 + 2 ^ 64 * d.f BELL_STR_SERIAL.WORD 0 n 1

def Dev.setSerial (d : Dev) (n v : Nat) : Dev := (d.setF BELL_STR_SERIAL.WORD (v % 2 ^ 64) 0 n 0).setF BELL_STR_SERIAL.WORD (v / 2 ^ 64) 0 n 1

/-! ### Learned values (R460) -/

/-- A string record (R460). -/
def Dev.lvRecord (d : Dev) (n : Nat) : Dev :=
  let s := d.bstr n
  let flags := b2n (d.learned n) + 2 * b2n (d.fb BELL_STR_STATUS.AUTHENTICATED 0 n) + 4 * b2n (decide (d.learnState n = 1)) +
    8 * b2n (d.fb BELL_STR_STATUS.CONFLICT 0 n)
  let d := d.record lvRings (some lvKind) magicLVRS
    [p1 n, p1 flags, p2 0, p4 d.lifeS, (16, d.strSerial n), p8 (d.f BELL_STR_CAP.MC 0 n), p8 (s.thru / 1000), p4 (d.f BELL_STR_R_EST.UOHM 0 n), p4 s.lastLearn]
  d.setF BELL_JOURNAL_SEQ.SEQ (d.ringSeq lvRings - 1)

/-- The dry-quench record (R216, R460). -/
def Dev.dryRecord (d : Dev) (e r : Nat) : Dev :=
  let d := d.record lvRings (some lvKind) magicLVDQ [p1 0xFF, p1 1, p2 0, p4 d.lifeS, p4 e, p4 r]
  d.setF BELL_JOURNAL_SEQ.SEQ (d.ringSeq lvRings - 1)

/-! ### Learning discharges (R454, R455) -/

/-- The LEARN state written, with BELL_LEARN_STATUS. -/
def Dev.setLearn (d : Dev) (n st : Nat) : Dev :=
  let d := d.setF BELL_STR_STATUS.LEARN st 0 n
  let d := d.setBell fun b => { b with pending := if st = 1 then (if b.pending.contains n then b.pending else b.pending ++ [n])
                                                   else b.pending.filter fun x => decide (x ≠ n) }
  let d := d.setF BELL_LEARN_STATUS.PENDING (maskOf d.bell.pending)
  match d.strings.find? fun k => decide (d.learnState k = 2) with
  | some k => (d.setB BELL_LEARN_STATUS.ACTIVE true).setF BELL_LEARN_STATUS.STRING k
  | none => (d.setB BELL_LEARN_STATUS.ACTIVE false).setF BELL_LEARN_STATUS.STRING 0

/-- Whether a learning discharge of a string can be scheduled (R454). -/
def Dev.mayLearn (d : Dev) (n : Nat) : Bool :=
  bit d.swg.cfg.energy.flags 0 && d.strings.contains n && (d.bstr n).present && d.fb BELL_STR_STATUS.AUTHENTICATED 0 n

/-- A string becomes PENDING (R454); causes in that rule's order: 0 BATTERY_LEARN, 1 LEARN, 2 a module change, 3 an anchor, 4 the period. -/
def Dev.schedule' (d : Dev) (n cause : Nat) : Dev :=
  if !bit d.swg.cfg.energy.flags 0 || decide (d.learnState n ≠ 0) then d
  else (d.setLearn n 1).modBstr n fun s => { s with learnCause := cause, waitSaid := false, rependAt := none }

/-- A discharge is aborted (R455); causes in that row's order: 0 T0, 1 cancel, 2 ceiling, 3 T_hot, 4 current, 5 24 h, 6 module removed. -/
def Dev.abortLearn (d : Dev) (n cause : Nat) : Dev :=
  if d.learnState n ≠ 2 then d
  else
    let again := if cause = 1 then none else some (d.now + 86400000000000)
    (((d.setLearn n 0).modBstr n fun s => { s with rependAt := again }).raiseB .BELL_LEARN_ABORT [p1 n, p1 cause]).showStr n

/-- The string in a learning discharge. -/
def Dev.discharging (d : Dev) : Option Nat := d.strings.find? fun n => decide (d.learnState n = 2)

/-- A learning discharge reaches its empty anchor (R455): charge removed in µC. -/
def Dev.learnDone (d : Dev) (n removed : Nat) : Dev :=
  let nominal := (d.strCfg n).capacity * 3600000
  let ok := decide (nominal ≤ 2 * removed ∧ 10 * removed ≤ 11 * nominal)
  let d := d.setLearn n 3
  let d := if ok then
      ((d.setF BELL_STR_CAP.MC (removed / 1000) 0 n).setB BELL_STR_STATUS.LEARNED true 0 n).modBstr n fun s => { s with lastLearn := d.lifeS }
    else d.modBstr n fun s => { s with rependAt := some (d.now + 86400000000000) }
  d.raiseB .BELL_LEARN_DONE [p1 n, p6 (Int.ofNat (removed / 3600000)), p1 (b2n !ok)]

/-! ### Anchors (R447 to R449) -/

/-- R_a in µΩ (R448). -/
def Dev.rAnchor (d : Dev) (n : Nat) : Nat :=
  let e := d.f BELL_STR_R_EST.UOHM 0 n
  match (d.bstr n).lastMeas with | some m => Nat.min e m | none => e

/-- V + I × R_a in nV (R448). -/
def Dev.restV (d : Dev) (n : Nat) : Int := 1000000 * Int.ofNat (d.f BELL_STR_V.MV 0 n) + d.strI n * Int.ofNat (d.rAnchor n)

/-- An item of four bytes: a voltage in mV from nV. -/
def pMv (nv : Int) : Nat × Nat := (4, fieldOf 32 (nv / 1000000))

/-- A full anchor (R447, R455). -/
def Dev.fullAnchor (d : Dev) (n : Nat) : Dev :=
  let before := (d.bstr n).raw / 1000
  let full := d.qref n
  let d := (d.setB BELL_STR_STATUS.UNKNOWN false 0 n).setB BELL_STR_STATUS.CONFLICT false 0 n
  let d := d.modBstr n fun s => { s with raw := 1000 * full, sinceFull := some 0 }
  let d := d.raiseB .BELL_FULL_ANCHOR [p1 n, p6 before, p6 full]
  let d := if d.learnState n = 3 then d.setLearn n 0 else d
  (d.showStr n).lvRecord n

/-- An empty anchor (R448, R455). -/
def Dev.emptyAnchor (d : Dev) (n : Nat) : Dev :=
  let raw := (d.bstr n).raw
  let full : Int := 1000 * d.qref n
  let d := d.raiseB .BELL_EMPTY_ANCHOR [p1 n, p6 (raw / 1000), p2 (d.f BELL_STR_V.MV 0 n), pI (d.strI n)]
  let early := decide (full < 10 * raw)
  let d := if early then d.raiseB .BELL_EARLY_EMPTY [p1 n, p6 (raw / 1000)] else d
  let learning := decide (d.learnState n = 2)
  let d := if learning then d.learnDone n (full - raw).toNat else d
  let d := (d.setB BELL_STR_STATUS.UNKNOWN false 0 n).modBstr n fun s => { s with raw := 0, lowV := 0 }
  let d := if early then d.schedule' n 3 else d
  (d.showStr n).lvRecord n

/-- The count says empty and the voltage does not (R449). -/
def Dev.conflictCheck (d : Dev) (n : Nat) : Dev :=
  if d.fb BELL_STR_STATUS.UNKNOWN 0 n || d.fb BELL_STR_STATUS.CONFLICT 0 n || decide (0 < (d.bstr n).raw) ||
      decide (d.restV n < 1000000 * Int.ofNat ((d.strCfg n).vEod + 200)) then d
  else
    let d := (d.setB BELL_STR_STATUS.CONFLICT true 0 n).raiseB .BELL_ANCHOR_CONFLICT [p1 n, pMv (d.restV n), p6 ((d.bstr n).raw / 1000)]
    d.schedule' n 3

/-! ### Samples (R443 to R450) -/

/-- A FAULT is entered (R444): 1 temperature, 2 sensor, 3 range. -/
def Dev.enterFault (d : Dev) (n fault : Nat) : Dev :=
  if (d.bstr n).faults.contains fault then d
  else (d.modBstr n fun s => { s with faults := s.faults ++ [fault] }).raiseB .BELL_STRING_FAULT [p1 n, p1 fault, d.tHotItem n, pI (d.strI n)]

/-- Whether the condition of a FAULT holds now (R444). -/
def Dev.faultHolds (d : Dev) (n fault : Nat) : Bool :=
  match fault with
  | 1 => match d.tHot n with | some t => decide (600 ≤ t) | none => false
  | 2 => (d.tHot n).isNone
  | 3 => decide (100 ≤ (d.bstr n).highI)
  | _ => false

/-- A temperature reading: outside −30 to 90 °C it is invalid (R444). -/
def ntcField (t : Int) : Nat := if t < -300 ∨ 900 < t then 0x8000 else fieldOf 16 t

/-- The charge of one sample of 1 ms moved (R445, R450): Q_rep follows, and converges to Q_raw by at most 0.2 % of Q_ref a second. -/
def BStr.charge (s : BStr) (ma : Int) (qref : Nat) : BStr :=
  let raw := s.raw - ma
  let rep := s.rep - ma
  let step : Int := (2 * qref / 1000 : Nat)
  let rep := if rep + step < raw then rep + step else if raw < rep - step then rep - step else raw
  { s with raw := raw, rep := rep, thru := s.thru + ma.toNat, sinceFull := s.sinceFull.map (· + ma.toNat) }

/-- A current beyond 50 A (R444). -/
def highCurrent (ma : Int) : Bool := decide (50000 < ma) || decide (ma < -50000)

/-- The count of one sample (R445, R450). -/
def Dev.countStr (d : Dev) (n : Nat) (ma : Int) : Dev :=
  let q := d.qref n
  d.modBstr n fun s =>
    let s := s.charge ma q
    { s with highI := if highCurrent ma then s.highI + 1 else 0 }

/-- The FAULT conditions of a sample (R444). -/
def Dev.faultsOf (d : Dev) (n : Nat) : Dev :=
  let d := if d.faultHolds n 2 then d.enterFault n 2 else d
  let d := if d.faultHolds n 1 then d.enterFault n 1 else d
  if (d.bstr n).highI = 100 then (d.enterFault n 3).unknown n else d

/-- The empty anchor's ten samples, or the check of R449. -/
def Dev.anchorCheck (d : Dev) (n : Nat) : Dev :=
  let low := decide (d.restV n < 1000000 * Int.ofNat (d.strCfg n).vEod)
  let d := d.modBstr n fun s => { s with lowV := if low then s.lowV + 1 else 0 }
  if (d.bstr n).lowV = 10 then d.emptyAnchor n else d.conflictCheck n

/-- One string's sample (R443 to R450). -/
def Dev.sampleStr (d : Dev) (n : Nat) (x : StrSample) : Dev :=
  let d := (d.setF BELL_STR_V.MV x.mv 0 n).setF BELL_STR_I.MA (fieldOf 32 x.ma) 0 n
  let d := (d.setF BELL_STR_TEMP.NTC_A (ntcField x.ntcA) 0 n).setF BELL_STR_TEMP.NTC_B (ntcField x.ntcB) 0 n
  if !(d.bstr n).present then d
  else
    let d := ((d.countStr n x.ma).faultsOf n).anchorCheck n
    let hot := match d.tHot n with | some t => decide (550 ≤ t) | none => false
    let d := if hot then d.abortLearn n 3 else d
    let d := if d.faultHolds n 3 then d.abortLearn n 4 else d
    d.showStr n

/-- The energy of one sample joins an open dry quench window, in nJ (R219). -/
def Dev.dryEnergy (d : Dev) (xs : List StrSample) : Dev :=
  let e := (xs.take d.strings.length).foldl (fun (a : Int) x => a + x.mv * x.ma) 0
  d.setCeil fun c => { c with dry := d.ceil.dry.map fun (r : DryRun) => if r.openedAt.isSome then { r with energy := r.energy + e } else r }

/-- The sample of every string, 1 ms after the last one (R443). A ceiling state that has left NORMAL ends a discharge (R455). -/
def Dev.sampleAll (d : Dev) (xs : List StrSample) : Dev :=
  let t := d.bell.sampleAt + 1000000
  let d := d.until t
  let d := (d.setBell fun b => { b with sampleAt := d.now }).dryEnergy xs
  let d := d.forEach (xs.zipIdx.filter fun x => d.strings.contains x.2) fun d x => d.sampleStr x.2 x.1
  match d.discharging with
  | some n => if d.ceilState ≠ 0 then d.abortLearn n 2 else d
  | none => d

/-! ### Resistance (R451 to R453) -/

/-- A calibration step starts on a string (R452). -/
def Dev.calStart (d : Dev) (n : Nat) : Dev :=
  ((d.setBell fun b => { b with cal := some n, lastCal := some n }).setPin "CAL_SEL" 0 n).setPin "CAL_LOAD" 0 1

/-- The next string of the periodic steps, in ascending order (R452). -/
def Dev.calNext (d : Dev) : Option Nat :=
  let ns := d.strings.filter fun n => d.strCounted n || decide (d.learnState n = 2)
  match d.bell.lastCal with
  | some k => match ns.find? fun n => decide (k < n) with | some n => some n | none => ns.head?
  | none => ns.head?

/-- The step's result in µΩ (R453), from three means of five samples as sums in mV and mA; none when it is rejected. -/
def calResult (v1 i1 v2 i2 v3 i3 : Int) : Option Nat :=
  let a := v1 - v2
  let b := i2 - i1
  let c := v3 - v2
  let e := i2 - i3
  let gap := a * e - c * b
  if b < 10000 ∨ e < 10000 ∨ a * e + c * b < 10 * gap ∨ a * e + c * b < -10 * gap then none
  else some (((a * e + c * b) * 1000000) / (2 * b * e)).toNat

/-- A calibration step ends (R453). -/
def Dev.calEnd (d : Dev) (n : Nat) (r : Option Nat) : Dev :=
  let d := (d.setBell fun b => { b with cal := none }).setPin "CAL_LOAD" 0 0
  match r with
  | none =>
    let d := d.incF BELL_STR_STATUS.CAL_REJECTS 0 n
    if d.f BELL_STR_STATUS.CAL_REJECTS 0 n = 60 then d.raiseB .BELL_REST_STALE [p1 n, p4 60] else d
  | some m =>
    let e := d.f BELL_STR_R_EST.UOHM 0 n
    let v := ((e : Int) + ((m : Int) - e) / 8).toNat
    let dflt := (d.strCfg n).rEst
    let w := if 4 * v < dflt then dflt / 4 else if 4 * dflt < v then 4 * dflt else v
    let d := ((d.setF BELL_STR_STATUS.CAL_REJECTS 0 0 n).setF BELL_STR_R_EST.UOHM w 0 n).modBstr n fun s => { s with lastMeas := some m }
    if w ≠ v then d.raiseB .BELL_REST_RANGE [p1 n, p4 m, p4 w] else d

/-! ### Modules (R456 to R458) -/

/-- A nonce sent to a module (R456): random, a free value. -/
def Dev.sendNonce (d : Dev) (n : Nat) : Dev := d.tick.emit (.battery n 0x80 (d.freeVal % 2 ^ 256))

/-- Authentication of a module starts (R457). -/
def Dev.startAuth (d : Dev) (n : Nat) : Dev :=
  if d.quenching || !(d.bstr n).present then d else (d.modBstr n fun s => { s with auth := some ⟨0, false⟩ }).sendNonce n

/-- The outcome of a try (R457): none authenticates it; else 0 no answer, 1 root, 2 certificate, 3 response. -/
def Dev.authResult (d : Dev) (n : Nat) (failed : Option Nat) : Dev :=
  match (d.bstr n).auth, failed with
  | none, _ => d
  | some _, none =>
    let d := (d.modBstr n fun s => { s with auth := none }).setB BELL_STR_STATUS.AUTHENTICATED true 0 n
    (d.raiseB .BELL_AUTH_OK [p1 n, p4 (d.strSerial n % 2 ^ 32)]).showStr n
  | some a, some cause =>
    if a.waits then d
    else if a.tries < 2 then d.modBstr n fun s => { s with auth := some ⟨a.tries + 1, true⟩ }
    else
      let d := (d.modBstr n fun s => { s with auth := none }).setB BELL_STR_STATUS.AUTHENTICATED false 0 n
      (d.raiseB .BELL_AUTH_FAIL [p1 n, p1 cause]).showStr n

/-- A module change (R458): learned capacity, R_est, THRU and last learning return to their defaults, and a learning is scheduled. -/
def Dev.moduleChanged (d : Dev) (n serial : Nat) : Dev :=
  let old := d.strSerial n
  let d := d.abortLearn n 6
  let d := ((d.setSerial n serial).setF BELL_STR_CAP.MC 0 0 n).setB BELL_STR_STATUS.LEARNED false 0 n
  let d := (d.setF BELL_STR_R_EST.UOHM (d.strCfg n).rEst 0 n).modBstr n fun s => { s with thru := 0, lastLearn := 0, lastMeas := none }
  let d := (d.unknown n).raiseB .BELL_MODULE_CHANGED [p1 n, p4 (old % 2 ^ 32), p4 (serial % 2 ^ 32)]
  ((d.schedule' n 2).startAuth n).lvRecord n

/-- A poll of a module's SERIAL (R458). -/
def Dev.pollStr (d : Dev) (n : Nat) (answer : Option Nat) : Dev :=
  let s := d.bstr n
  match answer with
  | none =>
    let d := d.modBstr n fun s => { s with missed := s.missed + 1 }
    if s.present ∧ 3 ≤ s.missed + 1 ∧ d.f BELL_STR_V.MV 0 n < 1000 then
      let d := d.abortLearn n 6
      let d := (d.modBstr n fun s => { s with present := false, auth := none, faults := [] }).setB BELL_STR_STATUS.AUTHENTICATED false 0 n
      (d.raiseB .BELL_STRING_ABSENT [p1 n]).showStr n
    else d
  | some serial =>
    let d := d.modBstr n fun s => { s with missed := 0 }
    let changed := s.known && decide (serial ≠ d.strSerial n)
    let d := if s.known then d else (d.setSerial n serial).modBstr n fun s => { s with known := true }
    if !s.present then
      let d := ((d.modBstr n fun s => { s with present := true }).unknown n).raiseB .BELL_STRING_PRESENT [p1 n, p4 (serial % 2 ^ 32)]
      (if changed then d.moduleChanged n serial else d.startAuth n).showStr n
    else if changed then (d.moduleChanged n serial).showStr n
    else d

end Sys2Proof.Machine
end

