-- ==== Sys2Proof/Machine/VaultOps.lean ====
section
/-! DEFINITION. The key blobs, their loading and their provisioning, and the roll of the Ingot keys (R538 to R542, R615). -/

namespace Sys2Proof.Machine

open Sys2Proof

/-- The Ingot-key rings and the other-key rings, copies A and B (R538). -/
def ingotKeyRings : List RingArea := [⟨0x0F01000, 8, 64⟩, ⟨0x0F09000, 8, 64⟩]
def otherKeyRings : List RingArea := [⟨0x0F11000, 8, 64⟩, ⟨0x0F19000, 8, 64⟩]

def magicKBLB : Nat := magicOf 0x4B 0x42 0x4C 0x42

/-- The wrapping key of a slot's blob: KEK_I of the present BLOB_EPOCH for an Ingot key, KEK_B for a backing key (R539). -/
def Dev.kekOf (d : Dev) (slot : Nat) : Nat := if slot < 4 then 1 + d.sec.epoch else 0

/-- The rings of a slot's blobs. -/
def blobRings (slot : Nat) : List RingArea := if slot < 4 then ingotKeyRings else otherKeyRings

/-- The key of a blob, where its unwrap succeeds (R539). -/
def Dev.unwrap (d : Dev) (r : Rec) : Option Nat :=
  (d.sec.wrapped.find? fun w => decide (w.kek = d.kekOf (r.at 16 1) ∧ w.text = r.at 24 40)).map (·.key)

/-- The blobs of a slot in its rings. -/
def Dev.blobs (d : Dev) (slot : Nat) : List Rec := (d.ringsRecords (blobRings slot)).filter fun r => decide (r.magic = magicKBLB ∧ r.at 16 1 = slot)

/-- The newest blob of a slot whose unwrap succeeds (R539). -/
def Dev.usableBlob (d : Dev) (slot : Nat) : Option Rec := newestRec ((d.blobs slot).filter fun r => (d.unwrap r).isSome)

/-- A slot's key wrapped and programmed in both copies of its ring (R538). -/
def Dev.storeBlob (d : Dev) (slot role roll : Nat) : Dev :=
  let c := d.cell (.package slot)
  match c.key with
  | none => d
  | some key =>
    let kek := d.kekOf slot
    let text := Config.kwWrap kek key % 2 ^ 320
    let d := d.setSec fun x => { x with wrapped := if x.wrapped.contains ⟨kek, key, text⟩ then x.wrapped else x.wrapped ++ [⟨kek, key, text⟩] }
    d.record (blobRings slot) (some fun r => r.at 16 1) magicKBLB
      [p1 slot, p1 c.alg, p2 c.gen, p1 (if slot < 4 then d.sec.epoch else 0), p1 role, p2 (roll % 0x10000), (40, text)]

/-- The slot of each role: current, next, reserve, previous (R540). -/
def Dev.roleSlots (d : Dev) : List Nat :=
  [d.f SEC_INGOT_ROLES.CURRENT, d.f SEC_INGOT_ROLES.NEXT, d.f SEC_INGOT_ROLES.RESERVE, d.f SEC_INGOT_ROLES.PREVIOUS]

def Dev.setRoles (d : Dev) (cur next reserve prev roll : Nat) : Dev :=
  let d := ((d.setF SEC_INGOT_ROLES.CURRENT cur).setF SEC_INGOT_ROLES.NEXT next).setF SEC_INGOT_ROLES.RESERVE reserve
  (d.setF SEC_INGOT_ROLES.PREVIOUS prev).setF SEC_INGOT_ROLES.ROLL (roll % 0x10000)

/-- The four records of the present roll, programmed together (R541). -/
def Dev.storeRoll (d : Dev) : Dev :=
  d.forEach (List.range 4) fun d role => d.storeBlob (d.roleSlots.getD role 0) role (d.f SEC_INGOT_ROLES.ROLL)

/-- The slot of the current Ingot key. -/
def Dev.currentKey (d : Dev) : Nat := d.f SEC_INGOT_ROLES.CURRENT

/-- SEC_INGOT_ROLLED (R552): cause 0 claim, 1 sanitize, 2 provision. -/
def Dev.raiseRolled (d : Dev) (cause : Nat) : Dev :=
  d.raiseB .SEC_INGOT_ROLLED [p2 (d.f SEC_INGOT_ROLES.ROLL), p1 d.currentKey, p2 (d.cell (.package d.currentKey)).gen, p1 cause]

/-- A new key drawn into a package slot (R533, R537). -/
def Dev.drawInto (d : Dev) (slot alg : Nat) : Dev :=
  let (k, d) := d.drawKey
  (d.writeKey (.package slot) alg k).1

/-- The records of the present roll are programmed, or they cannot be (R541). -/
def Dev.stageReserve (d : Dev) (ok : Bool) (status : Nat) : Dev :=
  if ok && !d.aonLow then (d.storeRoll.setB SEC_STATUS.RESERVE_STAGED true).setSec fun x => { x with reserveRetry := false }
  else
    let d := (d.setB SEC_STATUS.RESERVE_STAGED false).setSec fun x => { x with reserveRetry := true }
    d.raiseB .SEC_RESERVE_FAIL [p1 (d.f SEC_INGOT_ROLES.RESERVE), p1 status]

/-- A roll of the Ingot keys for a claim (R541). -/
def Dev.rollKeys (d : Dev) (ok : Bool) (status : Nat) : Dev :=
  match d.roleSlots with
  | [cur, next, reserve, prev] =>
    let d := (d.eraseKey (.package prev)).drawInto prev 1
    let d := d.setRoles next reserve prev cur (d.f SEC_INGOT_ROLES.ROLL + 1)
    (d.stageReserve ok status).raiseRolled 0
  | _ => d

/-- Every sector of a ring that is not blank is erased. -/
def Dev.eraseRings (d : Dev) (gs : List RingArea) : Dev :=
  d.forEach gs fun d g => d.forEach (List.range g.sectors) fun d i =>
    if (d.sectorUnits (g.base / 4096 + i) g.slot).isEmpty then d else d.tmpEraseSector (g.base / 4096 + i)

/-- Fresh Ingot keys in their first roles, with the roll after the highest found (R615, R542). -/
def Dev.freshIngotKeys (d : Dev) (roll cause : Nat) : Dev :=
  let d := d.forEach (List.range 4) fun d n => d.drawInto n 1
  let d := (d.setRoles 0 1 2 3 (roll + 1)).storeRoll
  (d.setB SEC_STATUS.RESERVE_STAGED true).raiseRolled cause

/-- A fresh backing key pair (R542, R615). -/
def Dev.freshBackingKeys (d : Dev) : Dev :=
  let d := (d.drawInto 4 2).drawInto 5 3
  let d : Dev := { d with back := { d.back with xtsKey := (d.cell (.package 4)).key.getD 0 } }
  (d.storeBlob 4 0 0).storeBlob 5 0 0

/-- The highest ROLL of the Ingot-key rings. -/
def Dev.highestRoll (d : Dev) : Nat :=
  maxOf (((d.ringsRecords ingotKeyRings).filter fun r => decide (r.magic = magicKBLB)).map fun r => r.at 22 2)

/-- The roles of the highest ROLL for which all four slots have a valid record (R540). -/
def Dev.loadRoles (d : Dev) : Dev :=
  let rs := (d.ringsRecords ingotKeyRings).filter fun r => decide (r.magic = magicKBLB) && (d.unwrap r).isSome
  let slotOf (roll role : Nat) : Option Nat := (rs.find? fun r => decide (r.at 22 2 = roll ∧ r.at 21 1 = role)).map fun r => r.at 16 1
  let whole := (dedup (rs.map fun r => r.at 22 2)).filter fun roll =>
    (List.range 4).all fun s => rs.any fun r => decide (r.at 22 2 = roll ∧ r.at 16 1 = s)
  if whole.isEmpty then d
  else
    let roll := maxOf whole
    let at' (role : Nat) := (slotOf roll role).getD 0
    (d.setRoles (at' 0) (at' 1) (at' 2) (at' 3) roll).setB SEC_STATUS.RESERVE_STAGED true

/-- A slot is loaded from its blob; without a usable one it stays EMPTY (R539). -/
def Dev.loadSlot (d : Dev) (slot : Nat) : Dev :=
  match d.usableBlob slot with
  | some r => d.reloadKey (.package slot) (r.at 17 1) ((d.unwrap r).getD 0) (r.at 18 2)
  | none => d.raiseB .SEC_BLOB_LOAD_FAIL [p1 slot, p1 (if (d.blobs slot).isEmpty then 0 else 1)]

/-- The key of the backing tier is the data key of slot 4 (R353). -/
def Dev.showBackingKey (d : Dev) : Dev := { d with back := { d.back with xtsKey := (d.cell (.package 4)).key.getD 0 } }

/-- The load at a start of the Bellows die, with the first draw of keys on a part with OWNER_LOCK (R539, R615). -/
def Dev.loadBlobs (d : Dev) : Dev :=
  let may := d.fb SEC_STATUS.OWNER_LOCK && d.fb SEC_DRBG_STATUS.HEALTHY && !d.aonLow
  let ingot := (List.range 4).any fun s => (d.usableBlob s).isSome
  let d : Dev :=
    if !ingot && may then
      let roll := d.highestRoll
      (d.eraseRings ingotKeyRings).freshIngotKeys roll 2
    else (d.forEach (List.range 4) fun d s => d.loadSlot s).loadRoles
  let blank := otherKeyRings.all fun g => (d.ringUsed g).isEmpty
  if blank && may then d.freshBackingKeys
  else (d.forEach [4, 5] fun d s => d.loadSlot s).showBackingKey

/-- One fuse of BLOB_EPOCH burnt (R539, R542): the fuse count stands in bits 7:2 of SEC_STATUS, its sixth bit as EPOCH_EXHAUSTED. -/
def Dev.burnEpoch (d : Dev) : Dev :=
  if 32 ≤ d.sec.epoch then d
  else
    let d := d.setSec fun x => { x with epoch := x.epoch + 1 }
    let d := d.setF SEC_STATUS.BLOB_EPOCH (d.sec.epoch % 32)
    if d.sec.epoch = 32 then (d.setB SEC_STATUS.EPOCH_EXHAUSTED true).raiseB .SEC_EPOCH_EXHAUSTED [] else d

end Sys2Proof.Machine
end

