-- ==== Sys2Proof/Machine/CeilOps.lean ====
section
/-! DEFINITION. The energy-bounded dirty ceiling (R201 to R214) and the dry quench (R215 to R221). -/

namespace Sys2Proof.Machine

open Sys2Proof

/-! ### The terms (R201 to R209) -/

/-- Q_0 (R203). -/
def Dev.qZero (d : Dev) : Nat := 2 ^ 21 * (d.pkg.part.dies + 1)

/-- R_nom in bytes a second (R209). -/
def Dev.rNom (d : Dev) : Nat := d.nch * d.qcfg.onfiRate * 1000000

/-- The age of the applied result in s (R216). -/
def Dev.dryAge (d : Dev) : Option Nat := d.ceil.applied.map fun a => d.lifeS - a.2.2

/-- Whether the applied result is stale (R215). -/
def Dev.dryIsStale (d : Dev) : Bool := match d.dryAge with | some a => decide (2 * d.swg.cfg.energy.dryPeriod ≤ a) | none => false

/-- e_byte in pJ (R208). -/
def Dev.eByte (d : Dev) : Nat :=
  let dflt := d.swg.cfg.energy.eByteDefault
  match d.ceil.applied with
  | some (e, _, _) => if d.dryIsStale then Nat.max e dflt else e
  | none => dflt

/-- R_q in bytes a second (R209). -/
def Dev.rQ (d : Dev) : Nat :=
  match d.ceil.applied with
  | some (_, r, _) => if d.dryIsStale then Nat.min (r * 1000000) (d.rNom / 2) else Nat.min d.rNom (r * 1000000)
  | none => d.rNom / 2

/-- A budget after the share of one failed NAND die (R204). -/
def Dev.lessOneNand (d : Dev) (b : Nat) : Nat := b * (d.nq - 1) / d.nq

/-- A budget as a footprint limit (R203, R204). -/
def Dev.asFootprint (d : Dev) (b : Nat) : Nat := (b - d.qZero) * 1000 / 1002

/-- W_energy with an E_usable in J (R204). -/
def Dev.wEnergy (d : Dev) (usable : Nat) : Nat :=
  d.asFootprint (d.lessOneNand ((usable - d.swg.cfg.energy.eFixed - d.swg.cfg.energy.eMargin) * 10 ^ 12 / d.eByte))

/-- W_media (R204). -/
def Dev.wMedia (d : Dev) : Nat := d.asFootprint (d.bErased - d.bDie)

/-- W_time (R204). -/
def Dev.wTime (d : Dev) : Nat :=
  d.asFootprint (d.lessOneNand (d.rQ * (d.nch - 1) * (d.swg.cfg.energy.holdMax - 200) / (1000 * d.nch)))

/-- A footprint limit as dirty bytes, in multiples of 64 (R201, R204). -/
def Dev.asDirty (d : Dev) (w : Nat) : Nat := (w - 16 * d.dirtySlabs) / 64 * 64

/-- C, and the term equal to it: 0 energy, 1 media, 2 time, 3 cap (R201, R222). -/
def Dev.ceilingOf (d : Dev) (usable : Nat) : Nat × Nat :=
  let ts := [d.asDirty (d.wEnergy usable), d.asDirty d.wMedia, d.asDirty d.wTime, d.pkg.part.cap]
  let c := minOf ts 0
  (c, (ts.findIdx? fun x => decide (x = c)).getD 0)

/-- h for a ceiling (R210). -/
def Dev.hystOf (d : Dev) (c : Nat) : Nat := d.swg.cfg.energy.hyst * c / 10000 / 64 * 64

/-- CEIL_E_BYTE, CEIL_RATE and the state of the applied result (R216, R222). -/
def Dev.showDry (d : Dev) : Dev :=
  let d := (d.setF CEIL_E_BYTE.PJ (saturate 32 d.eByte)).setF CEIL_RATE.MBPS (saturate 32 (d.rQ / 1000000))
  let d := (d.setB CEIL_STATUS.DEFAULTS d.ceil.applied.isNone).setB CEIL_STATUS.DRY_STALE (d.fb CEIL_STATUS.DRY_STALE && d.dryIsStale)
  d.setF CEIL_DRY_AGE.S (match d.dryAge with | some a => saturate 32 a | none => 0xFFFFFFFF)

/-- A computation of the ceiling and the die shares (R201, R204, R210, R239); its cause is the place in R201's list, 0 for the 10 ms
period. -/
def Dev.compute (d : Dev) (cause : Nat) : Dev :=
  let usable := d.eUsable []
  let old := d.f CEIL_C.C
  let (c, binding) := d.ceilingOf usable
  let we := d.wEnergy usable
  let lim := Nat.min we (Nat.min d.wMedia d.wTime)
  let was := d.ceil.computed
  let d := d.setCeil fun x => { x with wEnergy := we, wMedia := d.wMedia, wTime := d.wTime, hyst := d.hystOf c, computed := true }
  let d := (((d.setF CEIL_C.C c).setF CEIL_C_ENERGY.VALUE (d.asDirty we)).setF CEIL_C_MEDIA.VALUE (d.asDirty d.wMedia)).setF CEIL_C_TIME.VALUE (d.asDirty d.wTime)
  let d := ((d.setF CEIL_C_CAP.VALUE d.pkg.part.cap).setF CEIL_W.W d.W).setF CEIL_W_LIMIT.W_LIM lim
  let d := ((d.setF CEIL_DIRTY_SLABS.S_D d.dirtySlabs).setF CEIL_STATUS.BINDING binding).setF CEIL_E_USABLE.J (saturate 32 usable)
  let d := d.showDry
  let d := d.forEach d.diesUp fun d die => (d.setF QNCH_DIE_SHARE.W_D (lim * d.nd die / d.nch) die).setF QNCH_DIE_W.W (d.dieW die) die
  let d := if was && decide (10 * c < 9 * old) then d.raiseB .CEIL_DROP [p8 old, p8 c, p1 binding, p1 cause] else d
  d.ceilCheck

/-- Held receive entries go on once OVER_CEILING and the share of their die have ended (R212). -/
def Dev.releaseReceive (d : Dev) : Dev :=
  d.retryAll fun r => decide (r.wait = .ceiling) && decide (d.ceilState ≠ 2) && !d.shareFull (d.place r.slab).die

/-! ### Dry quench (R215 to R221) -/

/-- The scratch quads of the NAND dies in service (R218). -/
def Dev.scratchQuads (d : Dev) : List QKey :=
  (d.countedNands.map fun n => d.quadsIn n fun s => match s with | .scratch _ => true | _ => false).flatten

/-- Scratch capacity in MiB. -/
def Dev.scratchMib (d : Dev) : Nat := d.scratchQuads.length * d.quadBytes / 2 ^ 20

/-- Why a dry quench is refused (R217). -/
def Dev.dryRefusal (d : Dev) (mib : Nat) : Option Status :=
  if mib = 0 ∨ d.scratchMib < mib then some .lengthError
  else if d.ceil.dry.isSome || d.discharging.isSome || decide (d.f CRUC_MODE.CURRENT = 4) then some .busy
  else if (d.countedBut []).isEmpty || !d.fb BELL_SUPPLY_STATUS.MAIN_ABOVE || !d.fb BELL_SUPPLY_STATUS.HOLD_ABOVE ||
      !d.fb BELL_SUPPLY_STATUS.PFN_LEVEL then some .unsupported
  else none

/-- An accepted dry quench starts (R218). -/
def Dev.dryStart (d : Dev) (mib : Nat) (update auto : Bool) : Dev :=
  let d := d.setCeil fun c => { c with dry := some ⟨mib, update, auto, none, 0, false⟩ }
  (d.setB CEIL_STATUS.DRY_RUNNING true).raiseB .DRY_START [p4 mib, p1 (b2n auto)]

/-- The dry quench leaves the block, with QUENCH_TEST completed where it is one (R101, R221). -/
def Dev.dryLeave (d : Dev) (ret : Ret) (st : Status) : Dev :=
  let auto := match d.ceil.dry with | some r => r.auto | none => false
  let d := d.setCeil fun c => { c with dry := none, nextAuto := if auto then some (d.now + 3600000000000) else d.ceil.nextAuto }
  let d := ((d.setB CEIL_STATUS.DRY_RUNNING false).eraseKey (.package 6)).showStrs
  match d.mbox.background with
  | some (.quenchTest, _) => ({ d with mbox := { d.mbox with background := none } }).emit (.backgroundDone 0xC000 ret st)
  | _ => d

/-- A running dry quench stops and its result is discarded (R221); causes 0 quench, 1 string loss. -/
def Dev.abortDry (d : Dev) (cause : Nat) : Dev :=
  if d.ceil.dry.isNone then d
  else (d.raiseB .DRY_ABORTED [p1 cause]).dryLeave (if cause = 0 then Ret.abortedByQuench else .unstated d.freeVal) (if cause = 0 then Status.abortedByQuench else .busy)

/-- A result is rejected (R219); reasons in R223's order. -/
def Dev.rejectDry (d : Dev) (reason e r : Nat) : Dev := (d.raiseB .DRY_REJECTED [p1 reason, p4 e, p4 r]).dryLeave .success .ok

/-- The window opens: the scratch quads are erased and programmed, the test key is drawn, and the counted strings carry (R218). Without a
key the dry quench ends with DRY_REJECTED (R537), whose reason and measured values are then free values (assumption 3). -/
def Dev.dryOpenNow (d : Dev) : Dev :=
  match d.ceil.dry with
  | none => d
  | some r =>
    if r.openedAt.isSome then d
    else if !d.fb SEC_DRBG_STATUS.HEALTHY then d.tick.rejectDry d.freeVal d.freeVal d.freeVal
    else
      let d := d.drawInto 6 1
      let need := (r.sampleMib * 2 ^ 20 + d.quadBytes - 1) / d.quadBytes
      let d := d.forEach (d.scratchQuads.take need) fun d k =>
        (d.dropUnits fun j => decide (j = k)).setQuad k { d.quad k with state := .scratch false, pe := (d.quad k).pe + 1, ptr := d.qcfg.pages }
      let d := (d.setCeil fun c => { c with dry := some { r with openedAt := some d.now } }).showStrs
      d.setCeil fun c => { c with dry := d.ceil.dry.map fun (x : DryRun) => { x with changed := false } }

/-- The window closes after a time in ms: the result is rejected, or accepted and perhaps applied (R216, R219). -/
def Dev.dryClose (d : Dev) (ms : Nat) : Dev :=
  match d.ceil.dry with
  | none => d
  | some r => match r.openedAt with
    | none => d
    | some t =>
      let d := d.until (t + 1000000 * ms)
      let bytes := r.sampleMib * 2 ^ 20
      let e := r.energy.toNat * 1000 / bytes
      let rate := bytes * 1000 / ms
      let mb := rate / 1000000
      let d := (d.setF CEIL_DRY_E_MEAS.PJ (saturate 32 e)).setF CEIL_DRY_R_MEAS.MBPS (saturate 32 mb)
      if ms < 200 then d.rejectDry 0 e mb
      else if 2 * e < d.swg.cfg.energy.eByteDefault then d.rejectDry 1 e mb
      else if d.rNom < rate then d.rejectDry 2 e mb
      else if r.changed then d.rejectDry 3 e mb
      else
        let apply := r.update || r.auto
        let d := d.raiseB .DRY_DONE [p4 e, p4 mb, p4 ms, p1 (b2n apply)]
        let d := d.dryLeave .success .ok
        if apply then
          let d := (d.setCeil fun c => { c with applied := some (e, mb, d.lifeS), nextAuto := none }).dryRecord e mb
          (d.setB CEIL_STATUS.DRY_STALE false).setB CEIL_STATUS.DEFAULTS false
        else d

/-- Whether an automatic dry quench is due (R215). -/
def Dev.dryDue (d : Dev) : Bool :=
  d.fb CEIL_DRY_CTRL.AUTO_EN && decide (d.f CEIL_DRY_CTRL.AUTO_MIB ≠ 0) && d.ceil.computed && !d.quenching && d.ceil.dry.isNone &&
    (match d.ceil.nextAuto with | some t => decide (t ≤ d.now) | none => true) &&
    (match d.dryAge with | some a => decide (d.swg.cfg.energy.dryPeriod ≤ a) | none => true)

/-- The moment at which BELL_LIFE_S reaches a value. -/
def Dev.untilLife (d : Dev) (s : Nat) : Dev := d.until (d.bell.lifeAt + 1000000000 * (s - d.bell.lifeBase))

/-- An automatic start, or its deferral by an hour (R215). -/
def Dev.dryAuto (d : Dev) : Dev :=
  let d := match d.ceil.nextAuto, d.ceil.applied with
    | some t, _ => d.until t
    | none, some a => d.untilLife (a.2.2 + d.swg.cfg.energy.dryPeriod)
    | none, none => d
  if !d.dryDue then d
  else
    let mib := Nat.min (d.f CEIL_DRY_CTRL.AUTO_MIB) d.scratchMib
    match d.dryRefusal mib with
    | none => d.dryStart mib true true
    | some st => (d.setCeil fun c => { c with nextAuto := some (d.now + 3600000000000) }).raiseB .DRY_DEFERRED [p1 st.code]

/-- The applied result becomes stale (R215). -/
def Dev.dryStale (d : Dev) : Dev :=
  match d.ceil.applied with
  | none => d
  | some a =>
    if d.fb CEIL_STATUS.DRY_STALE then d
    else
      let d := d.untilLife (a.2.2 + 2 * d.swg.cfg.energy.dryPeriod)
      (d.setB CEIL_STATUS.DRY_STALE true).raiseB .DRY_STALE [p4 (d.lifeS - a.2.2)]

end Sys2Proof.Machine
end

