-- ==== Sys2Proof/Machine/Bellows.lean ====
section
/-! DEFINITION. The meanings of the Bellows' commands (R438 to R461). -/

namespace Sys2Proof.Machine

open Sys2Proof

/-- STRING_SAMPLE (R443 to R450). -/
def execStringSample (strings : List StrSample) (s : State) : Host.Outcome State Fault Refusal := s.on fun d => d.sampleAll strings

/-- FULL_ANCHOR (R447): CHG_DONE has been high for 60 s, and the string is not in CARRY and charges below C/50. -/
def execFullAnchor (n : Nat) (s : State) : Host.Outcome State Fault Refusal :=
  s.on fun d =>
    if !d.strings.contains n || !(d.bstr n).present || decide (d.switchOf n = 3) || decide (Int.ofNat (d.qref n) ≤ -180000 * d.strI n) then d
    else d.fullAnchor n

/-- FAULT_CLEAR (R444): a FAULT's condition has been absent for 60 s. -/
def execFaultClear (n fault : Nat) (s : State) : Host.Outcome State Fault Refusal :=
  s.on fun d =>
    if d.faultHolds n fault then d
    else (d.modBstr n fun s => { s with faults := s.faults.filter fun x => decide (x ≠ fault) }).showStr n

/-- CAL_STEP_START (R452). -/
def execCalStepStart (s : State) : Host.Outcome State Fault Refusal :=
  s.on fun d =>
    if !d.fb BELL_CAL_CTRL.EN || d.bell.cal.isSome || d.quenching then d
    else match d.calNext with
      | some n => d.calStart n
      | none => d

/-- CAL_STEP_END (R453): the three means as sums of five samples, in mV and mA. -/
def execCalStepEnd (v1 i1 v2 i2 v3 i3 : Int) (s : State) : Host.Outcome State Fault Refusal :=
  s.on fun d => match d.bell.cal with
    | some n => d.calEnd n (calResult v1 i1 v2 i2 v3 i3)
    | none => d

/-- The first condition that keeps a pending string waiting (R455), by its place there: 0 full anchor, 1 other learning or its turn, 2 dry
quench or quench, 3 no other string counted, 4 the ceiling. -/
def Dev.learnWaits (d : Dev) (n : Nat) : Option Nat :=
  let s := d.bstr n
  let (c, _) := d.ceilingOf (d.eUsable [n])
  let h := d.hystOf c
  let fresh := match s.sinceFull with | some x => decide (200 * x ≤ 1000 * d.qref n) | none => false
  if !fresh then some 0
  else if d.discharging.isSome || decide (d.bell.pending.head? ≠ some n) then some 1
  else if d.ceil.dry.isSome || d.quenching then some 2
  else if (d.countedBut [n]).isEmpty then some 3
  else if d.ceilState ≠ 0 ∨ c < d.D + h then some 4
  else none

/-- LEARN_CHECK (R455). -/
def execLearnCheck (s : State) : Host.Outcome State Fault Refusal :=
  s.on fun d => d.forEach d.bell.pending fun d n => match d.learnWaits n with
    | none =>
      let (c, _) := d.ceilingOf (d.eUsable [n])
      let d := ((d.calStart n).setLearn n 2).modBstr n fun s => { s with learnAt := d.now }
      (d.raiseB .BELL_LEARN_START [p1 n, p1 (d.bstr n).learnCause, p8 c]).showStr n
    | some w =>
      if (d.bstr n).waitSaid then d
      else (d.modBstr n fun s => { s with waitSaid := true }).raiseB .BELL_LEARN_WAIT [p1 n, p4 w]

/-- LEARN_TIMEOUT (R455): the discharge has run for 24 h. -/
def execLearnTimeout (n : Nat) (s : State) : Host.Outcome State Fault Refusal :=
  s.on fun d => if d.learnState n = 2 then (d.until ((d.bstr n).learnAt + 86400000000000)).abortLearn n 5 else d

/-- LEARN_REPEND (R455): 24 h after a rejected or aborted learning. -/
def execLearnRepend (n : Nat) (s : State) : Host.Outcome State Fault Refusal :=
  s.on fun d => match (d.bstr n).rependAt with
    | some t =>
      let cause := (d.bstr n).learnCause
      let d := d.until t
      (d.modBstr n fun s => { s with rependAt := none }).schedule' n cause
    | none => d

/-- LEARN_PERIOD (R454): PERIOD_D days of life time have passed since a string's last learning. -/
def execLearnPeriod (n : Nat) (s : State) : Host.Outcome State Fault Refusal :=
  s.on fun d =>
    if !d.fb BELL_LEARN_CTRL.AUTO_EN || !d.strings.contains n || decide (d.learnState n ≠ 0) then d
    else (d.untilLife ((d.bstr n).lastLearn + 86400 * d.f BELL_LEARN_CTRL.PERIOD_D)).schedule' n 4

/-- AUTH_RESPONSE (R457): the outcome of a try. -/
def execAuthResponse (n : Nat) (failed : Option Nat) (s : State) : Host.Outcome State Fault Refusal :=
  s.on fun d => if d.quenching then d else d.authResult n failed

/-- AUTH_RETRY (R457): one second after a failed try. -/
def execAuthRetry (n : Nat) (s : State) : Host.Outcome State Fault Refusal :=
  s.on fun d => match (d.bstr n).auth with
    | some a => if a.waits && !d.quenching then (d.modBstr n fun s => { s with auth := some { a with waits := false } }).sendNonce n else d
    | none => d

/-- AUTH_PERIODIC (R457). -/
def execAuthPeriodic (n : Nat) (s : State) : Host.Outcome State Fault Refusal := s.on fun d => d.startAuth n

/-- SERIAL_POLL (R458): what each string's module answers; a counted string lost in a dry quench ends it (R223). -/
def execSerialPoll (answers : List (Option Nat)) (s : State) : Host.Outcome State Fault Refusal :=
  s.on fun d =>
    if d.quenching then d
    else
      let before := d.countedBut []
      let d := d.forEach (answers.zipIdx.filter fun x => d.strings.contains x.2) fun d x => d.pollStr x.2 x.1
      if before.any fun n => !(d.bstr n).present then d.abortDry 1 else d

/-- LV_RECORD_WRITE (R460, R461): `failed` names the strings whose program fails, with the Temper store's status. -/
def execLvRecordWrite (failed : List Nat) (status : Nat) (s : State) : Host.Outcome State Fault Refusal :=
  s.on fun d => d.forEach d.strings fun d n => if failed.contains n then d.raiseB .BELL_JOURNAL_FAIL [p1 0, p1 status] else d.lvRecord n

/-- AON_SENSE_LOW: the pin has stood at a voltage in mV for a time in ns (R440). -/
def execAonSenseLow (mv ns : Nat) (s : State) : Host.Outcome State Fault Refusal :=
  s.on fun d =>
    if 400 + 4 * d.f BELL_AON_CTRL.THRESH ≤ mv ∨ ns < 32 ∨ d.aonLow then d
    else
      let d := ((d.setB BELL_SUPPLY_STATUS.AON_ABOVE false).setB BELL_SUPPLY_STATUS.AON_LOW true).setB BELL_SUPPLY_STATUS.AON_LOW_SEEN true
      d.setBell fun b => { b with aonAt := d.now }

/-- AON_SENSE_RISE (R440): programs and erases that waited go on. -/
def execAonSenseRise (mv : Nat) (s : State) : Host.Outcome State Fault Refusal :=
  s.on fun d =>
    if mv < 400 + 4 * d.f BELL_AON_CTRL.THRESH ∨ d.aonLow = false then d
    else
      let d := (d.setB BELL_SUPPLY_STATUS.AON_ABOVE true).setB BELL_SUPPLY_STATUS.AON_LOW false
      (d.raiseB .BELL_AON_LOW [p4 ((d.now - d.bell.aonAt) / 1000000)]).tmpProceed

/-- BELL_STR_FORCE_ISOLATE (R442). -/
def execBellStrForceIsolate (n : Nat) (value : Bool) (s : State) : Host.Outcome State Fault Refusal :=
  s.on fun d => if d.strings.contains n then (d.setB BELL_STR_CTRL.FORCE_ISOLATE value 0 n).showStr n else d

/-- BELL_STR_LEARN (R454). -/
def execBellStrLearn (n : Nat) (s : State) : Host.Outcome State Fault Refusal :=
  s.on fun d => if d.mayLearn n then d.schedule' n 1 else d

/-- A pending learning is dropped, a running one aborted (R455). -/
def Dev.cancelLearn (d : Dev) (n : Nat) : Dev :=
  match d.learnState n with
  | 1 => d.setLearn n 0
  | 2 => d.abortLearn n 1
  | _ => d

/-- BELL_STR_CANCEL (R455). -/
def execBellStrCancel (n : Nat) (s : State) : Host.Outcome State Fault Refusal := s.on fun d => d.cancelLearn n

/-- BELL_STR_REAUTH (R457). -/
def execBellStrReauth (n : Nat) (s : State) : Host.Outcome State Fault Refusal := s.on fun d => d.startAuth n

end Sys2Proof.Machine
end

