-- ==== Sys2Proof/Machine/Ceiling.lean ====
section
/-! DEFINITION. The meanings of the ceiling's commands (R201 to R221). -/

namespace Sys2Proof.Machine

open Sys2Proof

/-- CEILING_COMPUTE (R201, R214): none from T0 on. -/
def execCeilingCompute (cause : Nat) (s : State) : Host.Outcome State Fault Refusal :=
  s.on fun d => if d.quenching || !d.swg.loaded then d else d.compute cause

/-- RECEIVE_HOLD_RELEASE (R212). -/
def execReceiveHoldRelease (s : State) : Host.Outcome State Fault Refusal := s.on fun d => d.releaseReceive

/-- DRY_QUENCH_AUTO_START (R215). -/
def execDryQuenchAutoStart (s : State) : Host.Outcome State Fault Refusal := s.on fun d => d.dryAuto

/-- DRY_QUENCH_WINDOW_OPEN (R218). -/
def execDryQuenchWindowOpen (s : State) : Host.Outcome State Fault Refusal := s.on fun d => d.dryOpenNow

/-- DRY_QUENCH_WINDOW_CLOSE: the window's length in ms (R219). -/
def execDryQuenchWindowClose (ms : Nat) (s : State) : Host.Outcome State Fault Refusal := s.on fun d => d.dryClose ms

/-- DRY_STALE (R215). -/
def execDryStale (s : State) : Host.Outcome State Fault Refusal := s.on fun d => d.dryStale

end Sys2Proof.Machine
end

