-- ==== Sys2Proof/Machine/Maintain.lean ====
section
/-! DEFINITION. The meanings of the maintenance operations and of the Smith cores' maintenance requests (R149 to R154, R169). -/

namespace Sys2Proof.Machine

open Sys2Proof

/-- MAINT_CLEAN (R149). -/
def execMaintClean (id : Nat) (s : State) : Host.Outcome State Fault Refusal :=
  s.on fun d => d.maintStep id .clean fun d m slab => d.maintClean m slab

/-- MAINT_INVALIDATE (R149, R151). -/
def execMaintInvalidate (id : Nat) (s : State) : Host.Outcome State Fault Refusal :=
  s.on fun d => d.maintStep id .invalidate fun d m slab => d.maintInvalidate m slab

/-- MAINT_EVICT (R149). -/
def execMaintEvict (id : Nat) (s : State) : Host.Outcome State Fault Refusal :=
  s.on fun d => d.maintStep id .evict fun d m slab => d.maintEvict m slab

/-- MAINT_PIN (R125, R149). -/
def execMaintPin (id : Nat) (s : State) : Host.Outcome State Fault Refusal :=
  s.on fun d => d.maintStep id .pin fun d _ slab => d.maintPin slab

/-- MAINT_UNPIN (R149). -/
def execMaintUnpin (id : Nat) (s : State) : Host.Outcome State Fault Refusal :=
  s.on fun d => d.maintStep id .unpin fun d _ slab => d.maintUnpin slab

/-- MAINT_FILL_AHEAD (R149). -/
def execMaintFillAhead (id : Nat) (s : State) : Host.Outcome State Fault Refusal :=
  s.on fun d => d.maintStep id .fillAhead fun d _ slab => d.maintFillAhead slab

/-- A die's maintenance registers show an end. -/
def Dev.smithEnd (d : Dev) (die : Nat) (st : Status) : Dev :=
  let d := ((d.setB CRUC_MAINT_STATUS.BUSY false die).setB CRUC_MAINT_STATUS.DONE true die).setF CRUC_MAINT_STATUS.STATUS st.code die
  (d.setF CRUC_MAINT_DONE.SLABS_DONE 0 die).setF CRUC_MAINT_FAIL_DPA.DPA (if st = .ok then 0 else d.f CRUC_MAINT_DPA.SLAB die * 4096) die

/-- CRUC_MAINT_GO (R169): Smith core firmware writes the die's registers with GO. It is ignored while BUSY. -/
def execCrucMaintGo (die slab count op : Nat) (discard : Bool) (s : State) : Host.Outcome State Fault Refusal :=
  s.on fun d =>
    if !d.inService die || d.smithDead die || d.fb CRUC_MAINT_STATUS.BUSY die || d.quenching then d
    else
      let d := ((d.setF CRUC_MAINT_DPA.SLAB slab die).setF CRUC_MAINT_CTRL.COUNT count die).setF CRUC_MAINT_CTRL.OP op die
      let d := (d.setB CRUC_MAINT_CTRL.DISCARD discard die).setB CRUC_MAINT_STATUS.DONE false die
      let n := d.f CRUC_MAINT_CTRL.COUNT die
      if n = 0 ∨ 65536 < n then d.smithEnd die .lengthError
      else match maintOpOf (d.f CRUC_MAINT_CTRL.OP die) with
        | none => d.smithEnd die .unsupported
        | some o =>
          let d := (d.setB CRUC_MAINT_STATUS.BUSY true die).setF CRUC_MAINT_STATUS.STATUS 0 die
          d.addMaint (.smith die) (d.f CRUC_MAINT_DPA.SLAB die) n o discard (some ((List.range 9).map (sliceId die))) 0 (2 ^ 52)

end Sys2Proof.Machine
end

