-- ==== Sys2Proof/Machine/RegMap.lean ====
section
/-! DEFINITION. The register map of BAR2 (R583, R584, R591, R592): where each register lies, which register an offset names, and a
write to a register by its fields' types and ranges (R8). -/

namespace Sys2Proof.Machine

open Sys2Proof

/-- The kinds of block that BAR2 holds (R583): an HCB, or the unit block of the root, the Bellows Hearth or a die. -/
inductive RegBlk
  | hcb | root | bellows | die
  deriving DecidableEq, Repr

/-- A register's place: its block, the offset there, its size in bytes, and the stride and count of its one or two indexes. -/
structure RegPlace where
  reg : Reg
  blk : RegBlk
  off : Nat
  bytes : Nat
  stride1 : Nat
  count1 : Nat
  stride2 : Nat
  count2 : Nat
  deriving DecidableEq, Repr

/-- Placement of the SWG registers (R591 to R593 and the block's own chapter). -/
def placesSWG : List RegPlace := [
  ⟨.SWG_STATUS, .bellows, 0, 4, 0, 1, 0, 1⟩,
  ⟨.SWG_SERIAL, .bellows, 4, 4, 0, 1, 0, 1⟩,
  ⟨.SWG_CHECK, .bellows, 8, 4, 0, 1, 0, 1⟩,
  ⟨.SWG_HASH, .bellows, 0x40, 4, 4, 12, 0, 1⟩,
  ⟨.SWG_MAP_MASK, .bellows, 0x100, 8, 8, 16, 0, 1⟩]

/-- Placement of the FAB registers (R591 to R593 and the block's own chapter). -/
def placesFAB : List RegPlace := [
  ⟨.FAB_PORT_STATUS, .die, 0, 4, 0x10, 16, 0, 1⟩,
  ⟨.FAB_PORT_REFUSED, .die, 4, 4, 0x10, 16, 0, 1⟩,
  ⟨.FAB_PORT_CREDITS, .die, 8, 4, 0x10, 16, 0, 1⟩,
  ⟨.FAB_AUTH_COUNT, .root, 0, 4, 0, 1, 0, 1⟩,
  ⟨.FAB_DSC, .root, 4, 4, 0, 1, 0, 1⟩,
  ⟨.FAB_SHUTDOWN_STATE, .root, 8, 4, 0, 1, 0, 1⟩,
  ⟨.FAB_UNMAPPED_COUNT, .root, 0x10, 8, 0, 1, 0, 1⟩,
  ⟨.FAB_BI_RESET, .root, 0x18, 4, 0, 1, 0, 1⟩]

/-- Placement of the CRUC registers (R591 to R593 and the block's own chapter). -/
def placesCRUC : List RegPlace := [
  ⟨.CRUC_MODE, .root, 0x1000, 4, 0, 1, 0, 1⟩,
  ⟨.CRUC_DIRTY_SECTORS, .root, 0x1008, 8, 0, 1, 0, 1⟩,
  ⟨.CRUC_SWEEP, .root, 0x1010, 4, 0, 1, 0, 1⟩,
  ⟨.CRUC_DESTAGE_CTRL, .root, 0x1018, 4, 0, 1, 0, 1⟩,
  ⟨.CRUC_POISONED_SLABS, .root, 0x1020, 4, 0, 1, 0, 1⟩,
  ⟨.CRUC_PINNED_SLABS, .root, 0x1024, 4, 0, 1, 0, 1⟩,
  ⟨.CRUC_POISON_PARTIAL, .root, 0x1028, 4, 0, 1, 0, 1⟩,
  ⟨.CRUC_MAINT_DPA, .die, 0x1000, 8, 0, 1, 0, 1⟩,
  ⟨.CRUC_MAINT_CTRL, .die, 0x1008, 4, 0, 1, 0, 1⟩,
  ⟨.CRUC_MAINT_STATUS, .die, 0x100c, 4, 0, 1, 0, 1⟩,
  ⟨.CRUC_MAINT_DONE, .die, 0x1010, 4, 0, 1, 0, 1⟩,
  ⟨.CRUC_MAINT_FAIL_DPA, .die, 0x1018, 8, 0, 1, 0, 1⟩,
  ⟨.CRUC_SLICE_STATUS, .hcb, 0x800, 4, 0, 1, 0, 1⟩,
  ⟨.CRUC_READ_HITS, .hcb, 0x808, 8, 0, 1, 0, 1⟩,
  ⟨.CRUC_READ_MISSES, .hcb, 0x810, 8, 0, 1, 0, 1⟩,
  ⟨.CRUC_WRITE_HITS, .hcb, 0x818, 8, 0, 1, 0, 1⟩,
  ⟨.CRUC_WRITE_MISSES, .hcb, 0x820, 8, 0, 1, 0, 1⟩,
  ⟨.CRUC_TAGC_MISSES, .hcb, 0x828, 8, 0, 1, 0, 1⟩,
  ⟨.CRUC_SET_STALLS, .hcb, 0x830, 8, 0, 1, 0, 1⟩,
  ⟨.CRUC_TAG_CORRECTED, .hcb, 0x838, 8, 0, 1, 0, 1⟩,
  ⟨.CRUC_TAG_ERRORS, .hcb, 0x840, 8, 0, 1, 0, 1⟩,
  ⟨.CRUC_DIRTY_SECTORS_SLICE, .hcb, 0x848, 8, 0, 1, 0, 1⟩,
  ⟨.CRUC_UNCACHED, .hcb, 0x850, 8, 0, 1, 0, 1⟩]

/-- Placement of the HEAT registers (R591 to R593 and the block's own chapter). -/
def placesHEAT : List RegPlace := [
  ⟨.HEAT_CURRENT, .root, 0x2000, 8, 0, 1, 0, 1⟩,
  ⟨.HEAT_CTRL, .root, 0x2008, 4, 0, 1, 0, 1⟩,
  ⟨.HEAT_STATUS, .root, 0x200c, 4, 0, 1, 0, 1⟩,
  ⟨.HEAT_SYNC_IGNORED, .root, 0x2010, 4, 0, 1, 0, 1⟩,
  ⟨.HEAT_SYNC_MISSED, .root, 0x2014, 4, 0, 1, 0, 1⟩,
  ⟨.HEAT_WRAP, .root, 0x2018, 4, 0, 1, 0, 1⟩,
  ⟨.HEAT_RESERVATION, .root, 0x2020, 8, 0, 1, 0, 1⟩,
  ⟨.HEAT_JRNL_OLDEST, .die, 0x2000, 8, 0, 1, 0, 1⟩,
  ⟨.HEAT_JRNL_STATUS, .die, 0x2008, 4, 0, 1, 0, 1⟩,
  ⟨.HEAT_JRNL_PAGES, .die, 0x200c, 4, 0, 1, 0, 1⟩,
  ⟨.HEAT_JRNL_FREE, .die, 0x2010, 4, 0, 1, 0, 1⟩,
  ⟨.HEAT_JRNL_CTRL, .die, 0x2014, 4, 0, 1, 0, 1⟩,
  ⟨.HEAT_JRNL_RETAINED, .die, 0x2018, 4, 0, 1, 0, 1⟩,
  ⟨.HEAT_JRNL_CARRIED, .die, 0x2020, 8, 0, 1, 0, 1⟩]

/-- Placement of the CEIL registers (R591 to R593 and the block's own chapter). -/
def placesCEIL : List RegPlace := [
  ⟨.CEIL_C, .root, 0x3000, 8, 0, 1, 0, 1⟩,
  ⟨.CEIL_C_ENERGY, .root, 0x3008, 8, 0, 1, 0, 1⟩,
  ⟨.CEIL_C_MEDIA, .root, 0x3010, 8, 0, 1, 0, 1⟩,
  ⟨.CEIL_C_TIME, .root, 0x3018, 8, 0, 1, 0, 1⟩,
  ⟨.CEIL_C_CAP, .root, 0x3020, 8, 0, 1, 0, 1⟩,
  ⟨.CEIL_W, .root, 0x3028, 8, 0, 1, 0, 1⟩,
  ⟨.CEIL_W_LIMIT, .root, 0x3030, 8, 0, 1, 0, 1⟩,
  ⟨.CEIL_DIRTY_SLABS, .root, 0x3038, 8, 0, 1, 0, 1⟩,
  ⟨.CEIL_STATUS, .root, 0x3040, 4, 0, 1, 0, 1⟩,
  ⟨.CEIL_E_BYTE, .root, 0x3044, 4, 0, 1, 0, 1⟩,
  ⟨.CEIL_RATE, .root, 0x3048, 4, 0, 1, 0, 1⟩,
  ⟨.CEIL_E_USABLE, .root, 0x304c, 4, 0, 1, 0, 1⟩,
  ⟨.CEIL_DRY_CTRL, .root, 0x3050, 4, 0, 1, 0, 1⟩,
  ⟨.CEIL_DRY_E_MEAS, .root, 0x3054, 4, 0, 1, 0, 1⟩,
  ⟨.CEIL_DRY_R_MEAS, .root, 0x3058, 4, 0, 1, 0, 1⟩,
  ⟨.CEIL_DRY_AGE, .root, 0x305c, 4, 0, 1, 0, 1⟩,
  ⟨.CEIL_OVER_COUNT, .root, 0x3060, 4, 0, 1, 0, 1⟩,
  ⟨.CEIL_OVER_MS, .root, 0x3064, 4, 0, 1, 0, 1⟩,
  ⟨.CEIL_WT_WRITES, .root, 0x3068, 8, 0, 1, 0, 1⟩]

/-- Placement of the QNCH registers (R591 to R593 and the block's own chapter). -/
def placesQNCH : List RegPlace := [
  ⟨.QNCH_TRIG_CTRL, .root, 0x4000, 4, 0, 1, 0, 1⟩,
  ⟨.QNCH_STATUS, .root, 0x4004, 4, 0, 1, 0, 1⟩,
  ⟨.QNCH_LAST_GEN, .root, 0x4008, 4, 0, 1, 0, 1⟩,
  ⟨.QNCH_LAST_MS, .root, 0x400c, 4, 0, 1, 0, 1⟩,
  ⟨.QNCH_LAST_BYTES, .root, 0x4010, 8, 0, 1, 0, 1⟩,
  ⟨.QNCH_LAST_HEAT, .root, 0x4018, 8, 0, 1, 0, 1⟩,
  ⟨.QNCH_NEXT_GEN, .root, 0x4020, 4, 0, 1, 0, 1⟩,
  ⟨.QNCH_IGNORED, .root, 0x4024, 4, 0, 1, 0, 1⟩,
  ⟨.QNCH_RING_SEQ, .root, 0x4028, 8, 0, 1, 0, 1⟩,
  ⟨.QNCH_DIE_STATUS, .die, 0x3000, 4, 0, 1, 0, 1⟩,
  ⟨.QNCH_DIE_SHARE, .die, 0x3008, 8, 0, 1, 0, 1⟩,
  ⟨.QNCH_DIE_W, .die, 0x3010, 8, 0, 1, 0, 1⟩,
  ⟨.QNCH_DIE_SEGMENTS, .die, 0x3018, 4, 0, 1, 0, 1⟩,
  ⟨.QNCH_DIE_REWRITTEN, .die, 0x301c, 4, 0, 1, 0, 1⟩,
  ⟨.QNCH_GATE_ACCEPTED, .die, 0x3100, 8, 8, 32, 0, 1⟩,
  ⟨.QNCH_FENCE_ACCEPTED, .die, 0x3200, 8, 8, 32, 0, 1⟩]

/-- Placement of the RHT registers (R591 to R593 and the block's own chapter). -/
def placesRHT : List RegPlace := [
  ⟨.RHT_STATUS, .root, 0x5000, 4, 0, 1, 0, 1⟩,
  ⟨.RHT_CTRL, .root, 0x5004, 4, 0, 1, 0, 1⟩,
  ⟨.RHT_GENERATION, .root, 0x5008, 4, 0, 1, 0, 1⟩,
  ⟨.RHT_SEGMENTS, .root, 0x5010, 8, 0, 1, 0, 1⟩,
  ⟨.RHT_RETIRED, .root, 0x5018, 8, 0, 1, 0, 1⟩,
  ⟨.RHT_PENDING, .root, 0x5020, 8, 0, 1, 0, 1⟩,
  ⟨.RHT_TWIN_SLABS, .root, 0x5028, 8, 0, 1, 0, 1⟩,
  ⟨.RHT_LOST_SLABS, .root, 0x5030, 8, 0, 1, 0, 1⟩,
  ⟨.RHT_DEMANDS, .root, 0x5038, 8, 0, 1, 0, 1⟩,
  ⟨.RHT_REGION_STATUS, .root, 0x5100, 4, 0x10, 16, 0, 1⟩,
  ⟨.RHT_REGION_EPOCH, .root, 0x5104, 4, 0x10, 16, 0, 1⟩,
  ⟨.RHT_REGION_CTRL, .root, 0x5108, 4, 0x10, 16, 0, 1⟩,
  ⟨.RHT_RESYNC_LEFT, .root, 0x510c, 4, 0x10, 16, 0, 1⟩,
  ⟨.RHT_DIE_STATUS, .die, 0x4000, 4, 0, 1, 0, 1⟩]

/-- Placement of the WELD registers (R591 to R593 and the block's own chapter). -/
def placesWELD : List RegPlace := [
  ⟨.WELD_LINK_STATUS, .die, 0x5000, 4, 0x80, 2, 0, 1⟩,
  ⟨.WELD_LINK_CTRL, .die, 0x5004, 4, 0x80, 2, 0, 1⟩,
  ⟨.WELD_TX_COUNTER, .die, 0x5008, 8, 0x80, 2, 0, 1⟩,
  ⟨.WELD_FRAMES_SENT, .die, 0x5010, 8, 0x80, 2, 0, 1⟩,
  ⟨.WELD_FRAMES_RECEIVED, .die, 0x5018, 8, 0x80, 2, 0, 1⟩,
  ⟨.WELD_RESENT, .die, 0x5020, 8, 0x80, 2, 0, 1⟩,
  ⟨.WELD_AUTH_FAILS, .die, 0x5028, 8, 0x80, 2, 0, 1⟩,
  ⟨.WELD_LOSSES, .die, 0x5030, 4, 0x80, 2, 0, 1⟩,
  ⟨.WELD_KEY_ROLLS, .die, 0x5034, 4, 0x80, 2, 0, 1⟩,
  ⟨.WELD_DIE_STATUS, .die, 0x5100, 4, 0, 1, 0, 1⟩,
  ⟨.WELD_STRAY, .die, 0x5108, 8, 0, 1, 0, 1⟩,
  ⟨.WELD_FETCHES, .die, 0x5110, 4, 0, 1, 0, 1⟩,
  ⟨.WELD_FETCH_FAILS, .die, 0x5114, 4, 0, 1, 0, 1⟩,
  ⟨.WELD_PAIR_STATUS, .root, 0x6000, 4, 0, 1, 0, 1⟩,
  ⟨.WELD_TWIN_HEAT, .root, 0x6008, 8, 0, 1, 0, 1⟩,
  ⟨.WELD_ACKED_HEAT, .root, 0x6010, 8, 0, 1, 0, 1⟩,
  ⟨.WELD_HEAT_CATCHUP, .root, 0x6018, 4, 0, 1, 0, 1⟩,
  ⟨.WELD_PROMOTE_US, .root, 0x601c, 4, 0, 1, 0, 1⟩]

/-- Placement of the BACK registers (R591 to R593 and the block's own chapter). -/
def placesBACK : List RegPlace := [
  ⟨.BACK_CTRL, .root, 0x7000, 4, 0, 1, 0, 1⟩,
  ⟨.BACK_STATUS, .root, 0x7004, 4, 0, 1, 0, 1⟩,
  ⟨.BACK_STRANDED_SLABS, .root, 0x7008, 8, 0, 1, 0, 1⟩,
  ⟨.BACK_KEY_CHECK, .root, 0x7010, 8, 0, 1, 0, 1⟩,
  ⟨.BACK_DIGEST, .root, 0x7018, 8, 8, 2, 0, 1⟩,
  ⟨.BACK_NS_STATUS, .root, 0x7100, 4, 0x10, 64, 0, 1⟩,
  ⟨.BACK_NS_CTRL, .root, 0x7104, 4, 0x10, 64, 0, 1⟩,
  ⟨.BACK_NS_ERRORS, .root, 0x7108, 4, 0x10, 64, 0, 1⟩,
  ⟨.BACK_NS_STRANDED, .root, 0x710c, 4, 0x10, 64, 0, 1⟩,
  ⟨.BACK_PORT_STATUS, .die, 0x6000, 4, 0x40, 8, 0, 1⟩,
  ⟨.BACK_PORT_READS, .die, 0x6008, 8, 0x40, 8, 0, 1⟩,
  ⟨.BACK_PORT_WRITES, .die, 0x6010, 8, 0x40, 8, 0, 1⟩,
  ⟨.BACK_PORT_RETRIES, .die, 0x6018, 4, 0x40, 8, 0, 1⟩,
  ⟨.BACK_PORT_TIMEOUTS, .die, 0x601c, 4, 0x40, 8, 0, 1⟩,
  ⟨.BACK_PORT_RESETS, .die, 0x6020, 4, 0x40, 8, 0, 1⟩,
  ⟨.BACK_PORT_OUTSTANDING, .die, 0x6024, 4, 0x40, 8, 0, 1⟩]

/-- Placement of the CHAN registers (R591 to R593 and the block's own chapter). -/
def placesCHAN : List RegPlace := [
  ⟨.CHAN_STATUS, .die, 0x8000, 4, 0x2000, 4, 0, 1⟩,
  ⟨.CHAN_CTRL, .die, 0x8004, 4, 0x2000, 4, 0, 1⟩,
  ⟨.CHAN_REF_CTRL, .die, 0x8008, 4, 0x2000, 4, 0, 1⟩,
  ⟨.CHAN_RH_CTRL, .die, 0x800c, 4, 0x2000, 4, 0, 1⟩,
  ⟨.CHAN_RH_THRESHOLD, .die, 0x8010, 4, 0x2000, 4, 0, 1⟩,
  ⟨.CHAN_RH_COOLDOWN, .die, 0x8014, 4, 0x2000, 4, 0, 1⟩,
  ⟨.CHAN_SR_IDLE, .die, 0x8018, 4, 0x2000, 4, 0, 1⟩,
  ⟨.CHAN_SCRUB_CTRL, .die, 0x801c, 4, 0x2000, 4, 0, 1⟩,
  ⟨.CHAN_SCRUB_POS, .die, 0x8020, 4, 0x2000, 4, 0, 1⟩,
  ⟨.CHAN_CE_LIMIT, .die, 0x8024, 4, 0x2000, 4, 0, 1⟩,
  ⟨.CHAN_THROTTLED, .die, 0x8028, 4, 0x2000, 4, 0, 1⟩,
  ⟨.CHAN_LOG_HEAD, .die, 0x802c, 4, 0x2000, 4, 0, 1⟩,
  ⟨.CHAN_CE, .die, 0x8030, 8, 0x2000, 4, 0, 1⟩,
  ⟨.CHAN_UE, .die, 0x8038, 8, 0x2000, 4, 0, 1⟩,
  ⟨.CHAN_CA_RETRIES, .die, 0x8040, 4, 0x2000, 4, 0, 1⟩,
  ⟨.CHAN_CA_FAILS, .die, 0x8044, 4, 0x2000, 4, 0, 1⟩,
  ⟨.CHAN_RH_TRIGGERS, .die, 0x8048, 4, 0x2000, 4, 0, 1⟩,
  ⟨.CHAN_RFM, .die, 0x804c, 4, 0x2000, 4, 0, 1⟩,
  ⟨.CHAN_URGENT, .die, 0x8050, 8, 0x2000, 4, 0, 1⟩,
  ⟨.CHAN_PANIC, .die, 0x8058, 8, 0x2000, 4, 0, 1⟩,
  ⟨.CHAN_FREEZES, .die, 0x8060, 4, 0x2000, 4, 0, 1⟩,
  ⟨.CHAN_RANK_STATUS, .die, 0x8100, 4, 0x2000, 4, 16, 8⟩,
  ⟨.CHAN_RANK_CE_INT, .die, 0x8104, 4, 0x2000, 4, 16, 8⟩,
  ⟨.CHAN_RANK_CE, .die, 0x8108, 8, 0x2000, 4, 16, 8⟩,
  ⟨.CHAN_DEVICE_CE, .die, 0x8200, 4, 0x2000, 4, 4, 160⟩]

/-- Placement of the TRN registers (R591 to R593 and the block's own chapter). -/
def placesTRN : List RegPlace := [
  ⟨.TRN_CTRL, .die, 0x10000, 4, 0x400, 4, 0, 1⟩,
  ⟨.TRN_STATUS, .die, 0x10004, 4, 0x400, 4, 0, 1⟩,
  ⟨.TRN_PAT_CTRL, .die, 0x10008, 4, 0x400, 4, 0, 1⟩,
  ⟨.TRN_PAT_SEED, .die, 0x1000c, 4, 0x400, 4, 0, 1⟩,
  ⟨.TRN_PAT_FIXED, .die, 0x10010, 8, 0x400, 4, 0, 1⟩,
  ⟨.TRN_CMP_MASK0, .die, 0x10018, 8, 0x400, 4, 0, 1⟩,
  ⟨.TRN_CMP_MASK1, .die, 0x10020, 4, 0x400, 4, 0, 1⟩,
  ⟨.TRN_SCAN_CTRL, .die, 0x10028, 4, 0x400, 4, 0, 1⟩,
  ⟨.TRN_SCAN_BURSTS, .die, 0x1002c, 4, 0x400, 4, 0, 1⟩,
  ⟨.TRN_MIN_MARGIN, .die, 0x10030, 4, 0x400, 4, 0, 1⟩,
  ⟨.TRN_RETRAIN_CTRL, .die, 0x10034, 4, 0x400, 4, 0, 1⟩,
  ⟨.TRN_CYCLES, .die, 0x10038, 4, 0x400, 4, 0, 1⟩,
  ⟨.TRN_CYCLE_FAILS, .die, 0x1003c, 4, 0x400, 4, 0, 1⟩,
  ⟨.TRN_RANK, .die, 0x10040, 4, 0x400, 4, 4, 8⟩,
  ⟨.TRN_ERR_COUNT, .die, 0x11000, 4, 0x500, 4, 4, 80⟩,
  ⟨.TRN_EYE, .die, 0x11200, 4, 0x500, 4, 4, 80⟩,
  ⟨.TRN_VSWEEP, .die, 0x11400, 4, 0x500, 4, 4, 64⟩]

/-- Placement of the QFL registers (R591 to R593 and the block's own chapter). -/
def placesQFL : List RegPlace := [
  ⟨.QFL_CHAN_STATUS, .die, 0x14000, 4, 0x10, 8, 0, 1⟩,
  ⟨.QFL_CHAN_READY, .die, 0x14004, 4, 0x10, 8, 0, 1⟩,
  ⟨.QFL_CHAN_STALE, .die, 0x14008, 4, 0x10, 8, 0, 1⟩,
  ⟨.QFL_CHAN_RETIRED, .die, 0x1400c, 4, 0x10, 8, 0, 1⟩,
  ⟨.QFL_ECC_CTRL, .die, 0x14100, 4, 0, 1, 0, 1⟩,
  ⟨.QFL_PE_LIMIT, .die, 0x14104, 4, 0, 1, 0, 1⟩,
  ⟨.QFL_Q_TAIL, .die, 0x14110, 4, 0, 1, 0, 1⟩,
  ⟨.QFL_Q_HEAD, .die, 0x14114, 4, 0, 1, 0, 1⟩,
  ⟨.QFL_CQ_HEAD, .die, 0x14118, 4, 0, 1, 0, 1⟩,
  ⟨.QFL_CQ_TAIL, .die, 0x1411c, 4, 0, 1, 0, 1⟩,
  ⟨.QFL_NAND_STATUS, .die, 0x14200, 4, 0x20, 8, 4, 8⟩,
  ⟨.QFL_B_ERASED, .root, 0x9000, 8, 0, 1, 0, 1⟩,
  ⟨.QFL_B_DIE, .root, 0x9008, 8, 0, 1, 0, 1⟩,
  ⟨.QFL_PKG_STATUS, .root, 0x9010, 4, 0, 1, 0, 1⟩,
  ⟨.QFL_ERASE_BACKLOG, .root, 0x9018, 4, 0, 1, 0, 1⟩,
  ⟨.QFL_DESC, .die, 0x14800, 8, 8, 256, 0, 1⟩,
  ⟨.QFL_CPL, .die, 0x15000, 8, 8, 128, 0, 1⟩]

/-- Placement of the BELL registers (R591 to R593 and the block's own chapter). -/
def placesBELL : List RegPlace := [
  ⟨.BELL_SUPPLY_STATUS, .bellows, 0x1000, 4, 0, 1, 0, 1⟩,
  ⟨.BELL_AON_CTRL, .bellows, 0x1004, 4, 0, 1, 0, 1⟩,
  ⟨.BELL_LEARN_STATUS, .bellows, 0x1008, 4, 0, 1, 0, 1⟩,
  ⟨.BELL_LEARN_CTRL, .bellows, 0x100c, 4, 0, 1, 0, 1⟩,
  ⟨.BELL_CAL_CTRL, .bellows, 0x1010, 4, 0, 1, 0, 1⟩,
  ⟨.BELL_LIFE_S, .bellows, 0x1014, 4, 0, 1, 0, 1⟩,
  ⟨.BELL_JOURNAL_SEQ, .bellows, 0x1018, 8, 0, 1, 0, 1⟩,
  ⟨.BELL_STR_STATUS, .bellows, 0x1100, 4, 0x40, 8, 0, 1⟩,
  ⟨.BELL_STR_CTRL, .bellows, 0x1104, 4, 0x40, 8, 0, 1⟩,
  ⟨.BELL_STR_V, .bellows, 0x1108, 4, 0x40, 8, 0, 1⟩,
  ⟨.BELL_STR_I, .bellows, 0x110c, 4, 0x40, 8, 0, 1⟩,
  ⟨.BELL_STR_TEMP, .bellows, 0x1110, 4, 0x40, 8, 0, 1⟩,
  ⟨.BELL_STR_R_EST, .bellows, 0x1114, 4, 0x40, 8, 0, 1⟩,
  ⟨.BELL_STR_Q_RAW, .bellows, 0x1118, 8, 0x40, 8, 0, 1⟩,
  ⟨.BELL_STR_Q_REP, .bellows, 0x1120, 8, 0x40, 8, 0, 1⟩,
  ⟨.BELL_STR_CAP, .bellows, 0x1128, 8, 0x40, 8, 0, 1⟩,
  ⟨.BELL_STR_THRU, .bellows, 0x1130, 8, 0x40, 8, 0, 1⟩,
  ⟨.BELL_STR_E, .bellows, 0x1138, 4, 0x40, 8, 0, 1⟩,
  ⟨.BELL_STR_FEC, .bellows, 0x113c, 4, 0x40, 8, 0, 1⟩,
  ⟨.BELL_STR_SERIAL, .bellows, 0x1400, 8, 0x10, 8, 8, 2⟩]

/-- Placement of the TMP registers (R591 to R593 and the block's own chapter). -/
def placesTMP : List RegPlace := [
  ⟨.TMP_STATUS, .bellows, 0x2000, 4, 0, 1, 0, 1⟩,
  ⟨.TMP_CTRL, .bellows, 0x2004, 4, 0, 1, 0, 1⟩,
  ⟨.TMP_SPARES_FREE, .bellows, 0x2008, 4, 0, 1, 0, 1⟩,
  ⟨.TMP_REMAPPED, .bellows, 0x200c, 4, 0, 1, 0, 1⟩,
  ⟨.TMP_CORRECTED, .bellows, 0x2010, 8, 0, 1, 0, 1⟩,
  ⟨.TMP_UNCORRECTABLE, .bellows, 0x2018, 4, 0, 1, 0, 1⟩,
  ⟨.TMP_SCRUBS, .bellows, 0x201c, 4, 0, 1, 0, 1⟩,
  ⟨.TMP_PATROL_POS, .bellows, 0x2020, 4, 0, 1, 0, 1⟩,
  ⟨.TMP_PATROL_PASSES, .bellows, 0x2024, 4, 0, 1, 0, 1⟩,
  ⟨.TMP_DENIED, .bellows, 0x2028, 4, 0, 1, 0, 1⟩,
  ⟨.TMP_Q_TAIL, .bellows, 0x2100, 4, 0x10, 11, 0, 1⟩,
  ⟨.TMP_Q_HEAD, .bellows, 0x2104, 4, 0x10, 11, 0, 1⟩,
  ⟨.TMP_CQ_HEAD, .bellows, 0x2108, 4, 0x10, 11, 0, 1⟩,
  ⟨.TMP_CQ_TAIL, .bellows, 0x210c, 4, 0x10, 11, 0, 1⟩,
  ⟨.TMP_DESC, .bellows, 0x3000, 8, 0x400, 11, 8, 64⟩,
  ⟨.TMP_CPL, .bellows, 0x3200, 8, 0x400, 11, 8, 32⟩]

/-- Placement of the POOL registers (R591 to R593 and the block's own chapter). -/
def placesPOOL : List RegPlace := [
  ⟨.POOL_FREE, .die, 0x7000, 4, 0x10, 4, 0, 1⟩,
  ⟨.POOL_ALLOC, .die, 0x7004, 4, 0x10, 4, 0, 1⟩,
  ⟨.POOL_PENDING, .die, 0x7008, 4, 0x10, 4, 0, 1⟩,
  ⟨.POOL_EMPTY, .die, 0x700c, 4, 0x10, 4, 0, 1⟩,
  ⟨.POOL_BASE, .die, 0x7040, 4, 4, 4, 0, 1⟩,
  ⟨.POOL_QUARANTINE, .die, 0x7060, 4, 0, 1, 0, 1⟩,
  ⟨.POOL_VIOL_LIMIT, .die, 0x7064, 4, 0, 1, 0, 1⟩,
  ⟨.POOL_VIOLATIONS, .die, 0x7080, 4, 4, 32, 0, 1⟩,
  ⟨.POOL_HELD, .die, 0x7100, 4, 0x10, 32, 4, 4⟩,
  ⟨.POOL_CMD, .die, 0x7300, 4, 0, 1, 0, 1⟩,
  ⟨.POOL_CMD_HANDLE, .die, 0x7304, 4, 0, 1, 0, 1⟩,
  ⟨.POOL_CMD_STATUS, .die, 0x7308, 4, 0, 1, 0, 1⟩,
  ⟨.POOL_BELLOWS_FREE, .bellows, 0x9000, 4, 0, 1, 0, 1⟩]

/-- Placement of the EVT registers (R591 to R593 and the block's own chapter). -/
def placesEVT : List RegPlace := [
  ⟨.EVT_WIN_SEQ, .hcb, 0x400, 8, 0, 1, 0, 1⟩,
  ⟨.EVT_WIN_STATUS, .hcb, 0x408, 4, 0, 1, 0, 1⟩,
  ⟨.EVT_WIN_NEXT, .hcb, 0x40c, 4, 0, 1, 0, 1⟩,
  ⟨.EVT_WIN_RECORD, .hcb, 0x420, 8, 8, 4, 0, 1⟩,
  ⟨.EVT_STATUS, .bellows, 0x6000, 4, 0, 1, 0, 1⟩,
  ⟨.EVT_NEXT_SEQ, .bellows, 0x6008, 8, 0, 1, 0, 1⟩,
  ⟨.EVT_RESERVATION, .bellows, 0x6010, 8, 0, 1, 0, 1⟩,
  ⟨.EVT_PV_BASE, .bellows, 0x6018, 8, 0, 1, 0, 1⟩,
  ⟨.EVT_PV_COUNT, .bellows, 0x6020, 4, 0, 1, 0, 1⟩,
  ⟨.EVT_UNSEQ, .bellows, 0x6024, 4, 0, 1, 0, 1⟩,
  ⟨.EVT_SUPPRESSED, .bellows, 0x6028, 8, 0, 1, 0, 1⟩,
  ⟨.EVT_PV_OVF, .bellows, 0x6030, 4, 0x10, 4, 0, 1⟩,
  ⟨.EVT_PV_OVF_LAST, .bellows, 0x6038, 8, 0x10, 4, 0, 1⟩,
  ⟨.EVT_LEAF_STATUS, .bellows, 0x6100, 4, 0x10, 9, 0, 1⟩,
  ⟨.EVT_LEAF_DROPPED, .bellows, 0x6104, 4, 0x10, 9, 0, 1⟩,
  ⟨.EVT_LEAF_FIRST, .bellows, 0x6108, 8, 0x10, 9, 0, 1⟩,
  ⟨.EVT_DROP, .bellows, 0x6400, 4, 0x100, 9, 4, 64⟩]

/-- Placement of the SEC registers (R591 to R593 and the block's own chapter). -/
def placesSEC : List RegPlace := [
  ⟨.SEC_STATUS, .bellows, 0x7000, 4, 0, 1, 0, 1⟩,
  ⟨.SEC_ALARM_CAUSE, .bellows, 0x7004, 4, 0, 1, 0, 1⟩,
  ⟨.SEC_POLICY, .bellows, 0x7008, 4, 0, 1, 0, 1⟩,
  ⟨.SEC_INGOT_ROLES, .bellows, 0x700c, 4, 0, 1, 0, 1⟩,
  ⟨.SEC_DRBG_STATUS, .bellows, 0x7010, 4, 0, 1, 0, 1⟩,
  ⟨.SEC_SLOT, .bellows, 0x7100, 4, 8, 8, 0, 1⟩,
  ⟨.SEC_SLOT_USERS, .bellows, 0x7104, 4, 8, 8, 0, 1⟩,
  ⟨.SEC_LINK_STATUS, .die, 0x17000, 4, 0, 1, 0, 1⟩]

/-- Placement of the RST registers (R591 to R593 and the block's own chapter). -/
def placesRST : List RegPlace := [
  ⟨.RST_STATUS, .bellows, 0x8000, 4, 0, 1, 0, 1⟩,
  ⟨.RST_NQ_LEFT, .bellows, 0x8004, 4, 0, 1, 0, 1⟩,
  ⟨.RST_WARM_COUNT, .bellows, 0x8008, 4, 0, 1, 0, 1⟩,
  ⟨.RST_DIE_OUT, .bellows, 0x800c, 4, 0, 1, 0, 1⟩,
  ⟨.RST_GLITCHES, .bellows, 0x8010, 4, 0, 1, 0, 1⟩,
  ⟨.RST_STEP_MS, .bellows, 0x8020, 4, 4, 11, 0, 1⟩]

/-- Placement of the SVC registers (R591 to R593 and the block's own chapter). -/
def placesSVC : List RegPlace := [
  ⟨.SVC_LIFE, .root, 0xa000, 4, 0, 1, 0, 1⟩,
  ⟨.SVC_SPARE_STATUS, .root, 0xa004, 4, 0, 1, 0, 1⟩,
  ⟨.SVC_CTRL, .root, 0xa008, 4, 0, 1, 0, 1⟩,
  ⟨.SVC_WEIGHTED_S, .root, 0xa010, 8, 0, 1, 0, 1⟩,
  ⟨.SVC_PPR_LOST, .root, 0xa018, 4, 0, 1, 0, 1⟩,
  ⟨.SVC_DIE_STATUS, .die, 0x16000, 4, 0, 1, 0, 1⟩,
  ⟨.SVC_VDD, .die, 0x16004, 4, 0, 1, 0, 1⟩,
  ⟨.SVC_SRAM, .die, 0x16008, 4, 0, 1, 0, 1⟩,
  ⟨.SVC_D2D_RETRAINS, .die, 0x1600c, 4, 0, 1, 0, 1⟩,
  ⟨.SVC_CMD, .die, 0x16010, 4, 0, 1, 0, 1⟩,
  ⟨.SVC_CMD_STATUS, .die, 0x16014, 4, 0, 1, 0, 1⟩,
  ⟨.SVC_RANK_COPY, .die, 0x16020, 4, 4, 4, 0, 1⟩]

/-- Placement of the HCB registers (R591 to R593 and the block's own chapter). -/
def placesHCB : List RegPlace := [
  ⟨.HCB_ID, .hcb, 0, 4, 0, 1, 0, 1⟩,
  ⟨.HCB_PART, .hcb, 4, 4, 0, 1, 0, 1⟩,
  ⟨.HCB_UNIT_BASE, .hcb, 8, 4, 0, 1, 0, 1⟩,
  ⟨.HCB_UNIT_SIZE, .hcb, 0xc, 4, 0, 1, 0, 1⟩,
  ⟨.HCB_CAP0, .hcb, 0x10, 4, 0, 1, 0, 1⟩,
  ⟨.HCB_CAP1, .hcb, 0x14, 4, 0, 1, 0, 1⟩,
  ⟨.HCB_FRAME_BYTES, .hcb, 0x18, 8, 0, 1, 0, 1⟩,
  ⟨.HCB_KEY_ID, .hcb, 0x20, 8, 0, 1, 0, 1⟩,
  ⟨.HCB_CERT_SEL, .hcb, 0x80, 4, 0, 1, 0, 1⟩,
  ⟨.HCB_CERT_LEN, .hcb, 0x84, 4, 0, 1, 0, 1⟩,
  ⟨.HCB_CERT_DATA, .hcb, 0xc0, 8, 8, 8, 0, 1⟩,
  ⟨.HCB_STATUS, .hcb, 0x100, 4, 0, 1, 0, 1⟩,
  ⟨.HCB_TJ, .hcb, 0x104, 4, 0, 1, 0, 1⟩,
  ⟨.HCB_LIFE, .hcb, 0x108, 4, 0, 1, 0, 1⟩,
  ⟨.HCB_CMD_DPA, .hcb, 0x140, 8, 0, 1, 0, 1⟩,
  ⟨.HCB_CMD, .hcb, 0x148, 4, 0, 1, 0, 1⟩,
  ⟨.HCB_CMD_STATUS, .hcb, 0x14c, 4, 0, 1, 0, 1⟩,
  ⟨.HCB_CMD_DONE, .hcb, 0x150, 4, 0, 1, 0, 1⟩,
  ⟨.HCB_CMD_FAIL_DPA, .hcb, 0x158, 8, 0, 1, 0, 1⟩,
  ⟨.HCB_CHILD_COUNT, .hcb, 0x200, 4, 0, 1, 0, 1⟩,
  ⟨.HCB_CHILDREN, .hcb, 0x208, 8, 8, 8, 0, 1⟩,
  ⟨.HCB_POOL_FREE, .hcb, 0x600, 4, 0x10, 4, 0, 1⟩,
  ⟨.HCB_POOL_ALLOC, .hcb, 0x604, 4, 0x10, 4, 0, 1⟩,
  ⟨.HCB_POOL_PENDING, .hcb, 0x608, 4, 0x10, 4, 0, 1⟩,
  ⟨.HCB_POOL_EMPTY, .hcb, 0x60c, 4, 0x10, 4, 0, 1⟩,
  ⟨.HCB_POOL_QUARANTINED, .hcb, 0x640, 4, 0, 1, 0, 1⟩]

/-- Placement of the SLAG registers (R591 to R593 and the block's own chapter). -/
def placesSLAG : List RegPlace := [
  ⟨.SLAG_COUNT, .hcb, 0x178, 4, 0, 1, 0, 1⟩,
  ⟨.SLAG_ENTRY, .hcb, 0x180, 8, 8, 16, 0, 1⟩]

/-- Placement of the ROOT registers (R591 to R593 and the block's own chapter). -/
def placesROOT : List RegPlace := [
  ⟨.ROOT_STATUS, .root, 0xb000, 4, 0, 1, 0, 1⟩,
  ⟨.ROOT_RWL_IGNORED, .root, 0xb004, 4, 0, 1, 0, 1⟩]

/-- The register map of BAR2. -/
def places : List RegPlace :=
  placesSWG ++ placesFAB ++ placesCRUC ++ placesHEAT ++ placesCEIL ++ placesQNCH ++ placesRHT ++ placesWELD ++
    placesBACK ++ placesCHAN ++ placesTRN ++ placesQFL ++ placesBELL ++ placesTMP ++ placesPOOL ++ placesEVT ++
    placesSEC ++ placesRST ++ placesSVC ++ placesHCB ++ placesSLAG ++ placesROOT

/-- The block at a BAR2 offset, its Hearth ID or die (0 for the root and the Bellows), and the offset within it (R583). -/
def blockAt (offset : Nat) : Option (RegBlk × Nat × Nat) :=
  if offset < 0x100000 then some (.hcb, offset / 0x1000, offset % 0x1000)
  else if offset < 0x110000 then some (.root, 0, offset - 0x100000)
  else if offset < 0x120000 then some (.bellows, 0, offset - 0x110000)
  else if offset < 0x220000 then some (.die, (offset - 0x120000) / 0x20000 + 1, (offset - 0x120000) % 0x20000)
  else none

/-- A register instance of an access: the register, its two indexes, and the byte offset of the register within its block. -/
structure RegHit where
  place : RegPlace
  i : Nat
  j : Nat
  base : Nat
  deriving DecidableEq, Repr

/-- The instance of a placed register that a byte of its block belongs to. -/
def RegPlace.hit (p : RegPlace) (at' : Nat) : Option RegHit :=
  if at' < p.off then none
  else
    let x := at' - p.off
    let i := if p.stride1 = 0 then 0 else x / p.stride1
    let x := if p.stride1 = 0 then x else x % p.stride1
    let j := if p.stride2 = 0 then 0 else x / p.stride2
    let x := if p.stride2 = 0 then x else x % p.stride2
    if i < p.count1 ∧ j < p.count2 ∧ x < p.bytes then some ⟨p, i, j, at' - x⟩ else none

/-- The registers of a block that an aligned access touches, each once: 32-bit words are the map's smallest registers. -/
def hitsAt (blk : RegBlk) (rel bytes : Nat) : List RegHit :=
  dedup ((List.range (bytes / 4)).flatMap fun k => (places.filter fun p => decide (p.blk = blk)).filterMap fun p => p.hit (rel + 4 * k))

/-- An access of 32 or 64 bits that is naturally aligned (R584). -/
def goodAccess (offset width : Nat) : Bool :=
  (decide (width = 32) && decide (offset % 4 = 0)) || (decide (width = 64) && decide (offset % 8 = 0))

/-- Whether the registers of a block answer (R34, R584): the Hearth is there, and a die's registers only in service. -/
def Dev.blockThere (d : Dev) (blk : RegBlk) (a : Nat) : Bool :=
  match blk with
  | .hcb => d.hearthExists a && match dieOfHearth a with | some die => d.inService die | none => true
  | .root => true
  | .bellows => true
  | .die => d.inService a

/-- The fields that a BAR2 write reaches (R169, R393, R408, R486, R502, R579): of some blocks only a few. -/
def bar2Writes (F : Fld) : Bool :=
  match F.reg with
  | .CRUC_MAINT_DPA | .CRUC_MAINT_CTRL | .CRUC_MAINT_STATUS => false
  | .TRN_CTRL => decide (F = TRN_CTRL.FULL ∨ F = TRN_CTRL.RANK)
  | .TRN_STATUS | .TRN_PAT_CTRL | .TRN_PAT_SEED | .TRN_PAT_FIXED | .TRN_CMP_MASK0 | .TRN_CMP_MASK1 | .TRN_SCAN_CTRL | .TRN_SCAN_BURSTS => false
  | .TMP_Q_TAIL | .TMP_CQ_HEAD | .TMP_DESC => false
  | .POOL_CMD | .POOL_CMD_HANDLE | .POOL_CMD_STATUS => false
  | .SVC_CMD | .SVC_CMD_STATUS => false
  | _ => true

/-- The fields whose write has a behaviour of its own, which its own row gives: this write leaves them (assumption 24). -/
def ownRow (F : Fld) : Bool :=
  match F.reg with
  | .HEAT_CTRL | .QNCH_TRIG_CTRL | .POOL_QUARANTINE | .EVT_WIN_SEQ => true
  | _ => decide (F = BELL_STR_CTRL.FORCE_ISOLATE ∨ F = WELD_LINK_CTRL.DISABLE)

/-- Whether a value may be written to a field of a register instance (its table's description; R385 for DEGRADED_PERIOD_H). -/
def Dev.fieldTakes (d : Dev) (r : FieldRow) (v a b c : Nat) : Bool :=
  (match r.range with | some (lo, hi) => decide (lo ≤ v ∧ v ≤ hi) | none => true) &&
    (!decide (r.fld = CHAN_SCRUB_CTRL.DEGRADED_PERIOD_H) || decide (1 ≤ v ∧ v ≤ d.f CHAN_SCRUB_CTRL.PERIOD_H a b c))

/-- One field of a register written (R8): `mask` tells the written bits of the field, `v` their values. Answers whether a sealed RWL
field was written (R594). -/
def Dev.writeField (d : Dev) (r : FieldRow) (mask v a b c : Nat) : Dev × Bool :=
  let old := d.f r.fld a b c
  let new := (old ^^^ (old &&& mask)) ||| (v &&& mask)
  match r.access with
  | .RO => (d, false)
  | .WO => (d, false)
  | .W1C => (d.setF r.fld (old ^^^ (old &&& (v &&& mask))) a b c, false)
  | .RWL => if d.swg.sealed then (d, true) else (if d.fieldTakes r new a b c then d.setF r.fld new a b c else d, false)
  | .RW => (if d.fieldTakes r new a b c then d.setF r.fld new a b c else d, false)
  | .RWS => (if d.fieldTakes r new a b c then d.setF r.fld new a b c else d, false)

/-- The bits of a value as a register at byte offset `base` sees an access at byte offset `rel`. -/
def shiftTo (base rel v : Nat) : Nat := if base ≤ rel then v <<< (8 * (rel - base)) else v >>> (8 * (base - rel))

/-- A register instance written, field by field in the order of its table; a sealed RWL field is counted once (R594). -/
def Dev.writeHit (d : Dev) (bar2 : Bool) (a rel width value : Nat) (h : RegHit) : Dev :=
  let m := shiftTo h.base rel (2 ^ width - 1)
  let v := shiftTo h.base rel (value % 2 ^ width)
  let (b, c) := if h.place.blk = .hcb then (h.i, 0) else (h.i, h.j)
  let step := fun (x : Dev × Bool) (r : FieldRow) =>
    let mask := bits m r.fld.lo r.fld.width
    if mask = 0 ∨ ownRow r.fld ∨ (bar2 ∧ !bar2Writes r.fld) then x
    else
      let (d, s) := x.1.writeField r mask (bits v r.fld.lo r.fld.width) a b c
      (d, x.2 || s)
  let (d, locked) := h.place.reg.rows.foldl step (d, false)
  d.when locked (·.incF ROOT_RWL_IGNORED.COUNT)

/-- A write to the register map (R584): of the block's own agents where `bar2` is false, else through BAR2. -/
def Dev.writeReg (d : Dev) (bar2 : Bool) (offset width value : Nat) : Dev :=
  if !goodAccess offset width then d
  else match blockAt offset with
    | none => d
    | some (blk, a, rel) => if d.blockThere blk a then d.forEach (hitsAt blk rel (width / 8)) (·.writeHit bar2 a rel width value ·) else d

/-! ### The HCB command (R587) -/

/-- An HCB command ends at once with a status and no slab done. -/
def Dev.hcbEnd (d : Dev) (h : Nat) (st : Status) : Dev :=
  let d := ((d.setB HCB_CMD_STATUS.BUSY false h).setB HCB_CMD_STATUS.DONE true h).setF HCB_CMD_STATUS.STATUS st.code h
  let d := (d.setF HCB_CMD_STATUS.FAIL_SOURCE (if st = .ok then 0xFF else h) h).setF HCB_CMD_DONE.SLABS_DONE 0 h
  d.setF HCB_CMD_FAIL_DPA.DPA (if st = .ok then 0 else d.f HCB_CMD_DPA.SLAB h * 4096) h

/-- The slices of a subtree whose die is in service and which are in service themselves (R35, R154). -/
def Dev.slicesUnder (d : Dev) (h : Nat) : List Nat :=
  (d.subtree 5 h).filter fun x => decide (0x10 ≤ x) && match dieOfHearth x with
    | some die => d.inService die && d.fb HCB_STATUS.IN_SERVICE x
    | none => false

/-- HCB_CMD written with GO (R587): each slice of the subtree takes the request for the slabs it owns. -/
def Dev.hcbGo (d : Dev) (bar2 : Bool) (h count op : Nat) (discard : Bool) : Dev :=
  if !d.blockThere .hcb h || d.fb HCB_CMD_STATUS.BUSY h || d.quenching then d
  else
    let d := ((d.setF HCB_CMD.COUNT count h).setF HCB_CMD.OP op h).setB HCB_CMD.DISCARD discard h
    let d := d.setB HCB_CMD_STATUS.DONE false h
    let n := d.f HCB_CMD.COUNT h
    if h = bellowsId then d.hcbEnd h .unsupported
    else if bar2 && discard then d.hcbEnd h .accessDenied
    else if n = 0 ∨ 65536 < n then d.hcbEnd h .lengthError
    else match maintOpOf (d.f HCB_CMD.OP h), d.slicesUnder h with
      | none, _ => d.hcbEnd h .unsupported
      | some _, [] => (d.hcbEnd h .ok).setF HCB_CMD_DONE.SLABS_DONE n h
      | some o, s :: ss =>
        let d := (d.setB HCB_CMD_STATUS.BUSY true h).setF HCB_CMD_STATUS.STATUS 0 h
        d.forEach (s :: ss) fun d x => d.addMaint (.hcb h x) (d.f HCB_CMD_DPA.SLAB h) n o discard (some [x]) 0 (2 ^ 52)

end Sys2Proof.Machine
end

