-- ==== Sys2Proof/Machine/Registers.lean ====
section
/-! DEFINITION. The meanings of the register accesses that have no row of their own (R8, R584, R587). -/

namespace Sys2Proof.Machine

open Sys2Proof

/-- HCB_CMD_GO (R35, R36, R154, R587). -/
def execHcbCmdGo (bar2 : Bool) (hearth count op : Nat) (discard : Bool) (s : State) : Host.Outcome State Fault Refusal :=
  s.on fun d => d.hcbGo bar2 hearth count op discard

/-- BAR2_BAD_ACCESS (R584): an Unsupported Request; a write is dropped. -/
def execBar2BadAccess (die port : Nat) (write : Bool) (offset width : Nat) (s : State) : Host.Outcome State Fault Refusal :=
  s.on fun d => if goodAccess offset width then d else d.emit (.unsupportedRequest die port write)

/-- REGISTER_WRITE (R8, R9, R34, R65, R584, R594). -/
def execRegisterWrite (bar2 : Bool) (offset width value : Nat) (s : State) : Host.Outcome State Fault Refusal :=
  s.on fun d => d.writeReg bar2 offset width value

end Sys2Proof.Machine
end

