-- ==== Sys2Proof/Machine/Qflash.lean ====
section
/-! DEFINITION. The meanings of the quench flash's commands (R411 to R433). -/

namespace Sys2Proof.Machine

open Sys2Proof

/-- NAND_ATTACH (R412). -/
def execNandAttach (die chan nand : Nat) (look : NandLook) (s : State) : Host.Outcome State Fault Refusal :=
  s.on fun d => d.nandAttach ⟨die, chan, nand⟩ look

/-- QFL_ERASE_ISSUE (R424). -/
def execQflEraseIssue (die chan nand : Nat) (s : State) : Host.Outcome State Fault Refusal := s.on fun d => d.eraseIssue ⟨die, chan, nand⟩

/-- QFL_ERASE_DONE (R419). -/
def execQflEraseDone (die chan nand : Nat) (failed : Option Nat) (s : State) : Host.Outcome State Fault Refusal :=
  s.on fun d => d.eraseDone ⟨die, chan, nand⟩ failed

/-- QFL_TABLE_DELTA_DONE (R421): also the end of a table program that was in flight at T0. -/
def execQflTableDeltaDone (die chan : Nat) (s : State) : Host.Outcome State Fault Refusal :=
  s.on fun d => if (d.qchan die chan).dirty.isEmpty then d else d.tableDelta die chan

/-- QFL_ZQ_CALIBRATION (R411): nothing that the manual names changes; the NAND dies take the command at their channel. -/
def execQflZqCalibration (die chan : Nat) (s : State) : Host.Outcome State Fault Refusal :=
  s.on fun d => d.emits ((d.nandsOf die chan).map fun n => Out.nandZq n.die n.chan n.nand)

/-- QFL_TABLE_RECOVER (R421). -/
def execQflTableRecover (die chan : Nat) (look : TableLook) (s : State) : Host.Outcome State Fault Refusal :=
  s.on fun d => d.tableRecover die chan look

/-- QFL_FORMAT (R421): a channel of another geometry, once no Ingot is held or under restore. -/
def execQflFormat (die chan : Nat) (marks : List (Nat × Nat × Nat)) (s : State) : Host.Outcome State Fault Refusal :=
  s.on fun d =>
    if (d.qchan die chan).oldGeometry && d.rht.held.isNone && d.rht.restore.isNone && !d.quenching then d.formatChan die chan 1 marks else d

/-- QFL_READ (R433). -/
def execQflRead (die : Nat) (medium : NandMedium) (s : State) : Host.Outcome State Fault Refusal :=
  s.on fun d => d.qCommand die 1 fun d e key k => d.qRead e key k medium

/-- QFL_READ_RAW (R433). -/
def execQflReadRaw (die : Nat) (medium : NandMedium) (s : State) : Host.Outcome State Fault Refusal :=
  s.on fun d => d.qCommand die 2 fun d e key k => d.qFetch e key k medium

/-- QFL_PROGRAM (R433): `medium.words` is what the buffer holds. -/
def execQflProgram (die : Nat) (medium : NandMedium) (s : State) : Host.Outcome State Fault Refusal :=
  s.on fun d => d.qCommand die 3 fun d e key k =>
    let d := match k with | some b => { d with pool := { d.pool with data := tset d.pool.data b medium.words } } | none => d
    d.qProgram e key k medium

/-- QFL_ERASE_QUAD (R433). -/
def execQflEraseQuad (die : Nat) (medium : NandMedium) (s : State) : Host.Outcome State Fault Refusal :=
  s.on fun d => d.qCommand die 4 fun d e key _ => d.qErase e key medium

/-- QFL_READ_PARAM (R433). -/
def execQflReadParam (die : Nat) (medium : NandMedium) (s : State) : Host.Outcome State Fault Refusal :=
  s.on fun d => d.qCommand die 5 fun d e key k => d.qFetch e key k medium

/-- QFL_GET_FEATURE (R433). -/
def execQflGetFeature (die : Nat) (medium : NandMedium) (s : State) : Host.Outcome State Fault Refusal :=
  s.on fun d => d.qCommand die 6 fun d e key k => d.qFetch e key k medium

/-- QFL_BLANK_CHECK (R433). -/
def execQflBlankCheck (die : Nat) (medium : NandMedium) (s : State) : Host.Outcome State Fault Refusal :=
  s.on fun d => d.qCommand die 7 fun d e key _ => d.qBlank e key medium

/-- QFL_UNKNOWN_OPCODE (R433). -/
def execQflUnknownOpcode (die : Nat) (s : State) : Host.Outcome State Fault Refusal :=
  s.on fun d =>
    let e := d.qdesc die
    if d.f QFL_Q_TAIL.TAIL die = d.f QFL_Q_HEAD.HEAD die ∨ d.quenching ∨ (1 ≤ e.opcode ∧ e.opcode ≤ 7) then d
    else d.qComplete die .unsupported 0 0 0 0 0 e.tag

/-- QFL_OP_FAIL (R428): outside a quench a program or an erase of the part's own work fails. A scratch program ends the dry quench; the
items of its DRY_REJECTED, for which R223 lists no value, are free values. -/
def execQflOpFail (die chan nand quad plane : Nat) (program : Bool) (s : State) : Host.Outcome State Fault Refusal :=
  s.on fun d =>
    if d.quenching then d
    else
      let k : QKey := ⟨die, chan, nand, quad⟩
      let ends := program && d.dryOpen && (match (d.quad k).state with | .scratch _ => true | _ => false)
      let d := d.retireBlock k (plane % 4) (if program then 0 else 1)
      if ends then d.tick.rejectDry d.freeVal d.freeVal d.freeVal else d

/-- NAND_STATUS_TIMEOUT (R430): no answer before and after a RESET. -/
def execNandStatusTimeout (die chan nand : Nat) (s : State) : Host.Outcome State Fault Refusal :=
  s.on fun d => if d.nandUp ⟨die, chan, nand⟩ && !d.quenching then (d.retireNand ⟨die, chan, nand⟩ 6).channelCheck die chan else d

end Sys2Proof.Machine
end

