-- ==== Sys2Proof/Machine/QnchOps.lean ====
section
/-! DEFINITION. The quench (R224 to R265): the trip and what T0 ends, the walk and its packing, the placement of units on NAND dies,
block and NAND die failures, trailers, commit records and the commit pointer. -/

namespace Sys2Proof.Machine

open Sys2Proof

/-! ### Trips (R224 to R227) -/

/-- A filter code's time in ns (R225). -/
def filterNs (code : Nat) : Nat := [0, 2, 8, 32, 128].getD code 128

/-- A sense pin at a voltage in mV for a time in ns trips (R224, R225). -/
def Dev.senseTrips (d : Dev) (T F : Fld) (mv ns : Nat) : Bool := decide (mv < 400 + 4 * d.f T ∧ filterNs (d.f F) ≤ ns)

/-- The firmware descriptors of a die's quench-flash queue end with ABORTED_BY_QUENCH (R427). -/
def Dev.qflAbort : Nat → Dev → Nat → Dev
  | 0, d, _ => d
  | n + 1, d, die =>
    if d.f QFL_Q_TAIL.TAIL die = d.f QFL_Q_HEAD.HEAD die then d
    else Dev.qflAbort n (d.qComplete die .abortedByQuench 0 0 0 0 0 (d.qdesc die).tag) die

/-- Descriptors of a Temper queue, from HEAD on, end with ABORTED_BY_QUENCH. -/
def Dev.tmpAbortAll : Nat → Dev → Nat → Dev
  | 0, d, _ => d
  | n + 1, d, q => if d.queueHas q then Dev.tmpAbortAll n (d.tmpEnd q (d.headDesc q) .abortedByQuench) q else d

/-- The descriptors of Q1 to Q9 that have not started end with ABORTED_BY_QUENCH; a started one runs to its end (R484). -/
def Dev.tmpAbort (d : Dev) (q : Nat) : Dev :=
  if d.tmp.running.any fun r => decide (r.queue = some q) then
    let head := d.f TMP_Q_HEAD.HEAD 0 q
    let d := Dev.tmpAbortAll 64 (d.setF TMP_Q_HEAD.HEAD (head + 1) 0 q) q
    (d.setF TMP_Q_HEAD.HEAD head 0 q).setF TMP_Q_TAIL.TAIL (head + 1) 0 q
  else (Dev.tmpAbortAll 64 d q).setTmp fun t => { t with waiting := t.waiting.filter fun e => decide (e.1 ≠ q) }

/-- Whether a request's hold ends at T0 (R163): an accepted write that waits for anything but its own completion. -/
def Req.released (r : Req) : Bool :=
  !r.isRead && match r.wait with
    | .arrival => false
    | .destage => false
    | .mirrorAck => false
    | .staging => false
    | .rebuild => false
    | _ => true

/-- Every hold of an accepted write ends, in the order of the requests (R163). -/
def Dev.releaseHolds (d : Dev) : Dev :=
  d.forEach ((d.cru.reqs.filter Req.released).map (·.rid)) fun d rid => match d.req rid with
    | some r => d.coherent { r with wait := .arrival } false
    | none => d

/-- The NAND dies that join the round-robin later (R233): an erase is being aborted, or a scratch program of a dry quench runs. -/
def Dev.notReadyAtT0 (d : Dev) : List Nand :=
  d.countedNands.filter fun n => d.dryOpen || !(d.quadsIn n fun s => decide (s = .erasing)).isEmpty

/-- The slot of the next Ingot (R252). -/
def Dev.nextSlot (d : Dev) : Nat := match d.lastSlot with | some x => 1 - x % 2 | none => 0

/-- A running quench at its T0. -/
def Dev.newQuench (d : Dev) (cause : Nat) : Quench :=
  let c := d.claim.getD ⟨0, 0, 0⟩
  let dies := d.diesUp
  { cause := cause, t0 := d.now, lastHeat := d.openHeat,
    sanitize := match d.mbox.background with | some (.sanitize, _) => true | _ => false,
    empty := decide (d.D = 0), gen := c.gen, keySlot := c.keySlot, keyGen := c.keyGen, slot := d.nextSlot,
    chained := if d.version1 then none else d.rht.restore.map fun (r : Restore) => (r.generation, r.slot),
    packageMode := dies.any fun die => (d.qchansOf die).isEmpty,
    dies := dies, tagWalk := dies.filter fun die => d.fb HEAT_JRNL_STATUS.TAG_WALK die,
    parts := dies.map fun die => (die,
      { w0 := d.dieW die, waiting := [], placed := [], nextSeg := 0, maps := 0, rewritten := 0, bytes := 0, slabs := 0,
        reprograms := 0, lost := [], lastChan := none, lastNand := [], walked := false, trailer := none }),
    notReady := d.notReadyAtT0, lost := [], gone := [], fails := [], commit := none, drainSent := false, shed := [], kept := [],
    pointer := none }

/-- Segments of the Ingot under restore that are retired, of a die. -/
def Dev.retiredOf (d : Dev) (die : Nat) : List Nat :=
  match d.rht.restore with
  | some r => (r.segs.filter fun g => decide (g.gen = r.generation ∧ g.die = die) && g.retired).map (·.num)
  | none => []

/-- QUENCH_NOTICE of a phase on a link (R317, R334). -/
def Dev.notify (d : Dev) (q : Quench) (l : Nat × Nat) (phase flags : Nat) : Dev :=
  d.queueOn l none (.quenchNotice q.lastHeat phase flags q.cause q.gen)

/-- T0 (R163 to R165, R176, R189, R221, R224, R227, R233, R334, R379, R391, R427, R484). -/
def Dev.t0 (d : Dev) (cause : Nat) : Dev :=
  let q := d.newQuench cause
  let d := { d with quenching := true, fence := true, committed := false, quench := some q,
                    evt := { d.evt with quenchRecs := [], eventsLost := 0 } }
  let d := d.raiseB .QNCH_TRIGGER [p1 cause, p8 d.D, p8 (d.f CEIL_C.C), p8 d.W, p8 d.openHeat]
  let d := (d.setPin "QUENCH_OUT" 0 1).setPin "HEAT_SYNC_OUT" 0 0
  let d := (d.abortDry 0).abortMaints
  let d := (match d.discharging with | some n => d.abortLearn n 0 | none => d).showStrs
  let d := d.mbEnd .abortedByQuench .abortedByQuench []
  let d := d.setCru fun c => { c with fills := [], destages := [], recover := [] }
  let d := d.forEach d.diesUp fun d die => d.forEach (List.range 4) fun d c => d.chanT0 die c
  let d := d.releaseHolds.flushJournal
  let d := d.forEach d.diesUp fun d die => Dev.qflAbort 64 d die
  let d := d.forEach ((List.range 9).map (· + 1)) fun d k => d.tmpAbort k
  let d := d.forEach d.usable fun d l => d.notify q l 0 0
  match q.chained with
  | some (g, _) => d.raiseB .QNCH_CHAINED (p4 g :: d.diesUp.map fun die => p4 (d.retiredOf die).length)
  | none => d

/-- A trip (R224, R227, R228). -/
def Dev.trip (d : Dev) (cause : Nat) : Dev :=
  if d.poweredDown then d
  else if d.quenching then (d.incF QNCH_IGNORED.COUNT).raiseB .QNCH_TRIGGER_IGNORED [p1 cause]
  else if !d.heat.opened then { d with fence := true }
  else d.t0 cause

/-- A write of QNCH_TRIG_CTRL (R225, R226, R266). -/
def Dev.writeTrigCtrl (d : Dev) (v : Nat) : Dev :=
  if d.fb QNCH_TRIG_CTRL.LOCK then d
  else
    let d := (d.setF QNCH_TRIG_CTRL.MAIN_THRESH (bits v 0 8)).setF QNCH_TRIG_CTRL.HOLD_THRESH (bits v 8 8)
    let filter (d : Dev) (F : Fld) (code : Nat) : Dev := if code ≤ 4 then d.setF F code else d
    let d := filter (filter (filter d QNCH_TRIG_CTRL.MAIN_FILTER (bits v 16 3)) QNCH_TRIG_CTRL.HOLD_FILTER (bits v 19 3))
      QNCH_TRIG_CTRL.PFN_FILTER (bits v 22 3)
    let d := if bits v 25 3 = 0 then d
      else ((d.setB QNCH_TRIG_CTRL.MAIN_EN (bit v 25)).setB QNCH_TRIG_CTRL.HOLD_EN (bit v 26)).setB QNCH_TRIG_CTRL.PFN_EN (bit v 27)
    if bit v 31 then d.setB QNCH_TRIG_CTRL.LOCK true else d

/-! ### The drain (R162, R334) -/

/-- The slices of a die. -/
def slicesOf (die : Nat) : List Nat := (List.range 8).map (sliceId die)

def Dev.modQuench (d : Dev) (f : Quench → Quench) : Dev := { d with quench := d.quench.map f }

/-- Whether every accepted write of a slice has passed its Tongs lock, and no set of its die is under rebuild (R162). -/
def Dev.slicePassed (d : Dev) (die slice : Nat) : Bool :=
  !(d.cru.reqs.any fun r => !r.isRead && decide (d.owner r.slab = slice) && decide (r.wait ≠ .destage ∧ r.wait ≠ .mirrorAck ∧ r.wait ≠ .staging)) &&
    !(d.cru.rebuilds.any fun e => decide (e.1.die = die))

/-- Whether every slice of a die has reported FENCE_DRAINED. -/
def Dev.dieDrained (d : Dev) (die : Nat) : Bool := (slicesOf die).all d.cru.drained.contains

/-- The discard of a no-quench reset (R558): every slab that D counts, and every staging buffer, as INVALIDATE with DISCARD discards
them (R151); the Dirty Shutdown Count moves where the stored Shutdown State is dirty. The requester item of CRUC_DISCARD names no
requester then: a free value (assumption 3). -/
def Dev.discardAll (d : Dev) : Dev :=
  let slabs := d.dirtySlabs
  let bytes := d.D
  let d := d.forEach (d.validTags.filter fun e => decide (e.2.mask ≠ 0)) fun d e =>
    let d := (d.invalidate e.2.slab).delPoison e.2.slab fullMask
    (d.tick.raiseC .CRUC_DISCARD e.2.slab [p5 e.2.slab, p4 (popcount e.2.mask), p1 d.freeVal]).completeThrough e.2.slab none
  let d := d.setCru fun c => { c with staging := [] }
  let d : Dev := if d.fb FAB_SHUTDOWN_STATE.DIRTY then
      let d := (d.incF FAB_DSC.COUNT).saveCounters
      d.raiseR .FAB_DSC_INCREMENTED [p4 (d.f FAB_DSC.COUNT), p1 4]
    else d
  d.raiseB .RST_NQ_DISCARD [p4 slabs, p8 bytes]

/-- Whether every slice of every die that serves has drained. -/
def Dev.allDrained (d : Dev) (q : Quench) : Bool := (q.dies.filter d.inService).all d.dieDrained

/-- A slice reports FENCE_DRAINED (R162); once all have, QUENCH_NOTICE DRAINED follows the last entries on every link (R334). -/
def Dev.fenceDrained (d : Dev) (die slice : Nat) : Dev :=
  match d.quench with
  | none => d
  | some q =>
    let s := sliceId die slice
    if 8 ≤ slice ∨ !q.dies.contains die ∨ d.cru.drained.contains s ∨ !d.slicePassed die s then d
    else
      let d := d.setCru fun c => { c with drained := c.drained ++ [s] }
      if q.drainSent ∨ !d.allDrained q then d
      else
        let d := if d.rst.discard then d.discardAll else d
        (d.forEach d.usable fun d l => d.notify q l 1 0).modQuench fun q => { q with drainSent := true }

/-! ### Power shed (R235, R236) -/

/-- The Weld link of a die that stays up: its lowest usable one (R235). -/
def Dev.keptLink (d : Dev) (die : Nat) : Option (Nat × Nat) := d.usable.find? fun l => decide (l.1 = die)

/-- Whether a rank stays out of self-refresh in a quench (R236): it holds a masked sector, journal pages of an entry that is not FREE
(reserved area), or the ledger and the dump map (the lowest mapped rank). -/
def Dev.rankNeeded (d : Dev) (die c rank : Nat) : Bool :=
  let x := d.chan die c
  decide (x.map.head? = some rank) || !(d.dirOf die).isEmpty ||
    d.validTags.any fun e => decide (e.2.mask ≠ 0 ∧ e.1.set.die = die ∧ e.1.set.chan = c ∧ x.map[e.1.set.rank]? = some rank)

/-- A setpoint of VDD_CORE sent to a die's regulator (R577, R602): without an acknowledgement the last one stays. -/
def Dev.sendVdd (d : Dev) (die mv need island : Nat) (ack : Bool) : Dev :=
  let top := decide (850 < need) || !ack
  let was := d.fb SVC_DIE_STATUS.VDD_AT_LIMIT die
  let d := if ack then d.setF SVC_VDD.SETPOINT mv die else d
  if top && !was then (d.setB SVC_DIE_STATUS.VDD_AT_LIMIT true die).raise .SVC_VDD_LIMIT die [p1 die, p4 island, p2 need] else d

/-- The quench setpoint of a die (R602): the lowest voltage of the islands that run in a quench plus 10 mV, in steps of 5 mV, within the
regulator's range. -/
def quenchSetpoint (lowest : Nat) : Nat := Nat.max 650 (Nat.min 850 ((lowest + 10 + 4) / 5 * 5))

/-- A Hearth die sheds power at t_SHED (R236): SerDes down but the kept Weld link's, ranks into self-refresh, and each erase in
progress aborted (R233). -/
def Dev.shedDie (d : Dev) (die lowest : Nat) (ack : Bool) : Dev :=
  match d.quench with
  | none => d
  | some q =>
    if !q.dies.contains die ∨ q.shed.contains die then d
    else
      let kept := d.keptLink die
      let d := d.forEach (List.range (d.swg.cfg.fabricPorts die).length) fun d p => d.linkOff die p
      let d := d.forEach (List.range (d.swg.cfg.rootPorts die).length) fun d p =>
        (d.setB BACK_PORT_STATUS.LINK_UP false die p).setB BACK_PORT_STATUS.CTRL_READY false die p
      let d := d.forEach ([(die, 0), (die, 1)].filter fun l => decide (some l ≠ kept ∧ d.linkState l ≠ 0)) fun d l => d.linkDown l 0
      let d := d.forEach (((List.range 8).map fun c => d.nandsOf die c).flatten) fun d n =>
        d.forEach (d.quadsIn n fun s => decide (s = .erasing)) fun d k =>
          (d.setQuad k { d.quad k with state := .stale }).raise .QNCH_ERASE_ABORTED die [p1 die, p1 n.chan, p1 n.nand, p4 ((d.quad k).blocks.getD 0 0)]
      let d := d.forEach (List.range 4) fun d c => d.forEach ((d.chan die c).map.filter fun r => !d.rankNeeded die c r) fun d r =>
        d.setB CHAN_RANK_STATUS.SELF_REFRESH true die c r
      let d := d.tick.sendVdd die (quenchSetpoint lowest) (lowest + 10) d.freeVal ack
      d.modQuench fun q => { q with shed := q.shed ++ [die], kept := q.kept ++ kept.toList }

/-! ### Packing (R245, R251) -/

/-- Body bytes of a segment (R250). -/
def segBody : Nat := 65504

/-- The open segment of a walk: closed bodies, the open body, its bytes used, and the descriptors without CONT. -/
structure Pack where
  closed : List (List Desc)
  cur : List Desc
  used : Nat
  slabs : Nat
  deriving DecidableEq, Repr

/-- The open segment closed. -/
def Pack.close (p : Pack) : Pack := if p.cur.isEmpty then p else { p with closed := p.closed ++ [p.cur], cur := [], used := 0 }

/-- emit of R245 over the sectors that are left, each taking `unit` payload bytes. A slab whose sectors are all lost
has no descriptor. -/
def Pack.emit (x : Desc) (unit : Nat) : Nat → List Nat → Bool → Pack → Pack
  | 0, _, _, p => p
  | fuel + 1, left, cont, p =>
    if left.isEmpty then p
    else
      let room := (segBody - p.used - 16) / unit
      if segBody < p.used + 16 ∨ room = 0 then Pack.emit x unit fuel left cont p.close
      else
        let part := left.take room
        let rest := left.drop room
        let m : Mask := part.foldl (fun a i => a ||| bitMask i) 0
        let e : Desc := { x with mask := m, more := !rest.isEmpty, cont := cont, lines := x.lines.filter fun l => part.contains l.1,
                                 be := x.be.filter fun l => part.contains l.1 }
        let p := { p with cur := p.cur ++ [e], used := p.used + 16 + unit * part.length, slabs := p.slabs + b2n (!cont) }
        if rest.isEmpty then p else Pack.emit x unit fuel rest true p

/-- The sectors of a slab or a staging buffer to dump (R242, R245): whole ones, then the PARTIAL ones; under COMPAT the partial ones are
left out and the slab carries POISONED (R265). -/
def Pack.slab (p : Pack) (compat : Bool) (slab heatDelta : Nat) (staging poisoned : Bool) (m : Mask) (bad : List Nat) (line : Nat → Line)
    (be : Nat → Option Mask) : Pack :=
  let all := (List.range 64).filter fun i => m.getLsbD i
  let good := all.filter fun i => !bad.contains i
  let whole := good.filter fun i => (be i).isNone
  let part := good.filter fun i => (be i).isSome
  let lost := good.length < all.length || (compat && !part.isEmpty)
  let x : Desc := { slab := slab, mask := 0, heatDelta := if compat then 0 else Nat.min heatDelta 0xFFFF, more := false, cont := false,
                    staging := staging, poisoned := poisoned || lost, isPartial := false, lines := whole.map fun i => (i, line i), be := [] }
  let p := if whole.isEmpty && (!part.isEmpty && !compat) then p else Pack.emit x 64 4 whole false p
  if compat || part.isEmpty then p
  else
    let y : Desc := { x with isPartial := true, lines := part.map fun i => (i, line i), be := part.map fun i => (i, (be i).getD 0) }
    Pack.emit y 128 4 part false p

/-! ### The dirty walk (R240 to R243) -/

/-- What a walk carries: the packing, the dumped slabs (the dump map), and the sectors that read as uncorrectable. -/
structure Walk where
  pack : Pack
  dumped : List Nat
  ues : List (Nat × Nat)
  deriving DecidableEq, Repr

/-- A slab dumped from its frame (R242). -/
def Dev.walkSlab (d : Dev) (lastHeat : Nat) (bad : List (Nat × Nat)) (t : Tag) (w : Walk) : Walk :=
  let ue := (List.range 64).filter fun i => t.mask.getLsbD i && bad.contains (t.slab, i)
  { pack := w.pack.slab d.version1 t.slab (lastHeat - d.heatOf t.heat) false (decide (t.state = .poisoned)) t.mask ue (d.line t.slab)
      fun i => tget d.cru.be (t.slab, i)
    dumped := w.dumped ++ [t.slab], ues := w.ues ++ ue.map fun i => (t.slab, i) }

/-- The walk of a directory entry's records (R240, R241). -/
def Dev.walkEntry (d : Dev) (lastHeat : Nat) (bad : List (Nat × Nat)) (e : Entry) (w : Walk) : Walk :=
  (e.written ++ e.buffered).foldl (fun (w : Walk) r => match d.lookup r.slab with
    | some (_, t) => if t.mask = 0 ∨ t.heat ≠ e.heat % 256 ∨ w.dumped.contains r.slab then w else d.walkSlab lastHeat bad t w
    | none => w) w

/-- The whole walk of a die (R241), with the slabs that the tag walk alone has found (R243). -/
def Dev.walk (d : Dev) (q : Quench) (die : Nat) (bad : List (Nat × Nat)) : Walk × Nat :=
  let w := (d.dirOf die).foldl (fun (w : Walk) e => d.walkEntry q.lastHeat bad e w) ⟨⟨[], [], 0, 0⟩, [], []⟩
  let bufs := (d.cru.staging.map (·.2)).filter fun g => decide ((d.place g.slab).die = die)
  let w := bufs.foldl (fun (w : Walk) g =>
    { w with pack := w.pack.slab d.version1 g.slab 0 true false g.valid [] (fun i => tgetD g.lines i 0) fun i => tget g.be i }) w
  if q.tagWalk.contains die then
    let more := d.validTags.filter fun e => decide (e.1.set.die = die ∧ e.2.mask ≠ 0) && !w.dumped.contains e.2.slab
    (more.foldl (fun (w : Walk) e => d.walkSlab q.lastHeat bad e.2 w) w, more.length)
  else (w, 0)

/-! ### Placement (R244, R246) -/

/-- The running part of a die. -/
def Quench.part (q : Quench) (die : Nat) : Option QDie := tget q.parts die

def Quench.modPart (q : Quench) (die : Nat) (f : QDie → QDie) : Quench := { q with parts := tmod q.parts die f }

/-- The units placed by every die. -/
def Quench.placed (q : Quench) : List QPlaced := (q.parts.map fun e => e.2.placed).flatten

/-- The quad of a NAND die that takes its next unit (R420, R423): the one in use until it is full, else the next of the ready queue. -/
def Dev.qQuad (d : Dev) (q : Quench) (n : Nand) : Option QKey :=
  match (q.placed.map (·.key)).find? fun k => decide (k.on = n ∧ (d.quad k).ptr < d.qcfg.pages) with
  | some k => some k
  | none => (d.readyQueue n).head?

/-- Whether a program runs on a NAND die. -/
def Quench.busy (q : Quench) (n : Nand) : Bool := q.placed.any fun p => !p.done && decide (p.key.on = n)

/-- The NAND dies of a channel in the round-robin. -/
def Dev.qNands (d : Dev) (q : Quench) (c : Nat × Nat) : List Nand :=
  if q.gone.contains c then [] else (d.nandsOf c.1 c.2).filter fun n => d.counts n && !q.lost.contains n && !q.notReady.contains n

/-- The element after the last one taken, by key, wrapping. -/
def nextIn {α : Type} (key : α → Nat) (last : Option Nat) (l : List α) : Option α :=
  match last with
  | none => l.head?
  | some k => match l.find? fun x => decide (k < key x) with
    | some x => some x
    | none => l.head?

def chanKey (c : Nat × Nat) : Nat := 8 * c.1 + c.2

/-- The package switches to package mode (R246): causes 0 NAND die failure, 1 media. -/
def Dev.qSwitch (d : Dev) (cause : Nat) (c : Nat × Nat) : Dev :=
  match d.quench with
  | some q => if q.packageMode then d
      else (d.modQuench fun q => { q with packageMode := true }).raiseB .QNCH_PACKAGE_MODE [p1 cause, p1 c.1, p1 c.2]
  | none => d

/-- A unit's program starts on a quad (R423). `turn`: it has taken a turn of the round-robin. -/
def Dev.qStart (d : Dev) (die : Nat) (u : QUnit) (k : QKey) (turn : Bool) : Dev :=
  let x := d.quad k
  let slot := match d.quench with | some q => q.slot | none => 0
  let d := d.setQuad k { x with state := .taken slot, ptr := x.ptr + 1 }
  d.modQuench fun q => q.modPart die fun p =>
    { p with waiting := dropFirst (fun v => decide (v = u)) p.waiting, placed := p.placed ++ [⟨u, k, x.ptr, false⟩],
             lastChan := if turn then some (k.die, k.chan) else p.lastChan, lastNand := tset p.lastNand (k.die, k.chan) k.nand }

/-- The stage of a die's units that may be programmed now: header, then map, then data, then trailer, then commit record. -/
def QDie.stage (p : QDie) : Nat :=
  minOf (p.waiting.map (·.stage) ++ (p.placed.filter fun x => !x.done).map (·.unit.stage)) 0

/-- The next NAND die of a channel for a die's unit. -/
def Dev.qNand (d : Dev) (q : Quench) (p : QDie) (c : Nat × Nat) : Option Nand :=
  nextIn Nand.nand (tget p.lastNand c) ((d.qNands q c).filter fun n => (d.qQuad q n).isSome)

/-- A unit tried on a channel: none while its NAND die is busy. -/
def Dev.qTry (d : Dev) (q : Quench) (p : QDie) (die : Nat) (u : QUnit) (c : Nat × Nat) (turn : Bool) : Option Dev :=
  match d.qNand q p c with
  | none => none
  | some n => if q.busy n then none else (d.qQuad q n).map fun k => d.qStart die u k turn

/-- The channels of a die's round-robin (R246). -/
def Dev.qChans (d : Dev) (q : Quench) (die : Nat) : List (Nat × Nat) :=
  (if q.packageMode then d.qchansAll else d.qchansOf die).filter fun c => !(d.qNands q c).isEmpty

/-- One unit of a die placed in package mode: a channel without a READY quad is passed over. -/
def Dev.qPackage (d : Dev) (q : Quench) (p : QDie) (die : Nat) (u : QUnit) : Option Dev :=
  match nextIn chanKey (p.lastChan.map chanKey) ((d.qChans q die).filter fun c => (d.qNand q p c).isSome) with
  | some c => d.qTry q p die u c true
  | none => none

/-- One unit of a die placed, if it can be now (R246, R252 to R254, R257). In local mode a channel without a pre-erased block switches
the package. -/
def Dev.qPlace (d : Dev) (die : Nat) : Option Dev :=
  match d.quench with
  | none => none
  | some q => match q.part die with
    | none => none
    | some p => match p.waiting.find? fun u => decide (u.stage = p.stage) with
      | none => none
      | some u =>
        let switch (c : Nat × Nat) : Option Dev :=
          let d := d.qSwitch 1 c
          match d.quench with | some q => d.qPackage q p die u | none => none
        match u.chan with
        | some c =>
          if (d.qNands q c).isEmpty then none
          else if (d.qNand q p c).isNone then switch c
          else d.qTry q p die u c false
        | none =>
          if q.packageMode then d.qPackage q p die u
          else match nextIn chanKey (p.lastChan.map chanKey) (d.qChans q die) with
            | none => none
            | some c => if (d.qNand q p c).isNone then switch c else d.qTry q p die u c true

/-- The units of a die placed while one can be. -/
def Dev.qPumpDie : Nat → Dev → Nat → Dev
  | 0, d, _ => d
  | n + 1, d, die => match d.qPlace die with
    | some d' => Dev.qPumpDie n d' die
    | none => d

/-- The units of every die placed while they can be. -/
def Dev.qPump (d : Dev) : Dev :=
  match d.quench with
  | none => d
  | some q => if d.sec.reload then d else d.forEach q.parts fun d e => Dev.qPumpDie e.2.waiting.length d e.1

/-- The channels of a die's header, trailer and commit record (R252, R253). -/
def Dev.qHomes (d : Dev) (q : Quench) (die : Nat) : List (Nat × Nat) :=
  let own := d.qchansOf die
  let cs := if own.isEmpty then d.qchansAll else own
  let second := if 5 ≤ cs.length then 4 else 1
  let a := (cs ++ d.qchansAll).find? fun c => !q.gone.contains c
  let b := if cs.length < 2 then none else (cs.drop second ++ cs.take second ++ d.qchansAll).find? fun c => !q.gone.contains c && decide (some c ≠ a)
  a.toList ++ b.toList

/-- The units of a stage for each home of a die. -/
def Dev.homeUnits (d : Dev) (q : Quench) (die stage : Nat) (u : Unit) : List QUnit := (d.qHomes q die).map fun c => ⟨u, stage, some c⟩

/-- The segment number of a unit (R249). -/
def Unit.number : Unit → Nat
  | .seg x => x.num
  | .header _ => 0xFFFFFFFE
  | .trailer _ => 0xFFFFFFFF
  | .commit _ => 0xFFFFFFFD
  | _ => 0

/-- Bytes that a unit's program takes: four planes for a segment, one page for another unit (R246, R423). -/
def Unit.bytes : Unit → Nat
  | .seg _ => 65536
  | _ => 16384

/-- SWAGE_HASH (R46). -/
def Dev.swageHash (d : Dev) : List Nat := (List.range 12).map fun i => d.f SWG_HASH.HASH 0 i

/-- The oldest heat of a die's directory (HEAT_JRNL_OLDEST). -/
def Dev.oldestHeat (d : Dev) (die : Nat) : Nat := minOf ((d.dirOf die).map (·.heat)) 0

/-- Data segments of the predecessor's part for a die (PRED_SEGMENTS). -/
def Dev.predSegments (d : Dev) (die : Nat) : Nat :=
  match d.rht.restore with
  | some r => maxOf ((r.segs.filter fun g => decide (g.gen = r.generation ∧ g.die = die)).map fun g => g.num + 1)
  | none => 0

/-- The die header (R252). -/
def Dev.dieHeader (d : Dev) (q : Quench) (die : Nat) (p : QDie) : DieHeader :=
  { format1 := d.version1, die := die, chained := q.chained.isSome, tagWalk := q.tagWalk.contains die, empty := decide (p.w0 = 0),
    gen := q.gen, keySlot := q.keySlot, slot := q.slot, keyGen := q.keyGen, swageHash := d.swageHash, firstHeat := d.oldestHeat die,
    lastHeat := q.lastHeat, cause := q.cause, dies := q.dies.length, channels := maskOf ((d.qchansOf die).map (·.2)),
    predGen := (q.chained.map (·.1)).getD 0, predSlot := (q.chained.map (·.2)).getD 0,
    predSegments := if q.chained.isSome then d.predSegments die else 0, wDie := p.w0, c := d.f CEIL_C.C,
    accepted := if d.version1 then List.replicate 32 0 else (List.range 32).map fun r => d.f QNCH_GATE_ACCEPTED.COUNT die r }

/-- The map segments of a chained Ingot for a die (R257). -/
def Dev.mapSegments (d : Dev) (q : Quench) (die : Nat) : List ISeg :=
  if q.chained.isNone then []
  else (List.range ((d.predSegments die + 524031) / 524032)).map fun i =>
    { format1 := false, die := die, gen := q.gen, num := 0xF0000000 + i, keySlot := q.keySlot, isMap := true, rewrite := false, descs := [],
      retired := (d.retiredOf die).filter fun n => decide (n / 524032 = i) }

/-- The data segments of a walk, numbered from 0 (R245, R249). -/
def Dev.walkSegs (d : Dev) (q : Quench) (die : Nat) (w : Walk) : List ISeg :=
  w.pack.close.closed.zipIdx.map fun (b : List Desc × Nat) =>
    { format1 := d.version1, die := die, gen := q.gen, num := b.2, keySlot := q.keySlot, isMap := false, rewrite := false, descs := b.1, retired := [] }

/-- The units that a walk queues for its die: header, map segments, data segments (R246, R252, R257). -/
def Dev.walkUnits (d : Dev) (q : Quench) (die : Nat) (p : QDie) (w : Walk) : List QUnit :=
  d.homeUnits q die 0 (.header (d.dieHeader q die p)) ++ ((d.mapSegments q die).map fun (x : ISeg) => (⟨.seg x, 1, none⟩ : QUnit)) ++
    (d.walkSegs q die w).map fun (x : ISeg) => (⟨.seg x, 2, none⟩ : QUnit)

/-- The walk of a die starts: its header, map segments and data segments are queued (R240 to R245, R252, R257). -/
def Dev.walkStart (d : Dev) (die : Nat) (bad : List (Nat × Nat)) : Dev :=
  match d.quench with
  | none => d
  | some q => match q.part die with
    | none => d
    | some p =>
      if q.sanitize || p.walked || !d.dieDrained die || (d.rst.discard && !q.drainSent) then d
      else
        let (w, found) := d.walk q die bad
        let units := d.walkUnits q die p w
        let maps := (d.mapSegments q die).length
        let segs := (d.walkSegs q die w).length
        let d := d.modQuench fun q => q.modPart die fun p =>
          { p with waiting := units, nextSeg := segs, maps := maps, slabs := w.pack.slabs, walked := true }
        let d := d.forEach w.ues fun d e => d.raise .QNCH_SECTOR_UE die [p1 die, p5 e.1, p1 e.2]
        let d := if q.tagWalk.contains die then d.raise .QNCH_TAG_WALK die [p1 die, p4 found] else d
        d.qPump

/-! ### Ends of programs (R246, R258, R259) -/

/-- The unit that a NAND die programs now, with the die that it belongs to. -/
def Quench.running (q : Quench) (n : Nand) : Option (Nat × QPlaced) :=
  (q.parts.map fun e => (e.2.placed.filter fun p => !p.done && decide (p.key.on = n)).map fun p => (e.1, p)).flatten.head?

/-- A program completes. -/
def Dev.programDone (d : Dev) (n : Nand) : Dev :=
  match d.quench with
  | none => d
  | some q => match q.running n with
    | none => d
    | some (die, p) =>
      let d := d.setQfl fun x => { x with units := tset x.units (p.key, p.page) p.unit.unit }
      (d.modQuench fun q => q.modPart die fun g =>
        { g with placed := g.placed.map fun x => if x = p then { x with done := true } else x,
                 bytes := g.bytes + (match p.unit.unit with | .trailer _ => 0 | .commit _ => 0 | u => u.bytes) }).qPump

/-- A unit of a failed NAND die queued again (R259): a data segment takes a new number and REWRITE; a map segment stays as it is; another
unit goes to the next channel in service. -/
def Dev.rewriteUnit (d : Dev) (die : Nat) (u : QUnit) : Dev :=
  match d.quench with
  | none => d
  | some q => match q.part die with
    | none => d
    | some p => match u.unit with
      | .seg x =>
        let v : QUnit := if x.isMap then u else { u with unit := .seg { x with num := p.nextSeg, rewrite := true } }
        d.modQuench fun q => q.modPart die fun p =>
          { p with waiting := p.waiting ++ [{ v with chan := none }], nextSeg := if x.isMap then p.nextSeg else p.nextSeg + 1, rewritten := p.rewritten + 1 }
      | _ =>
        let others := (p.waiting ++ p.placed.map (·.unit)).filter fun (v : QUnit) => decide (v.unit = u.unit)
        let homes := d.qHomes q die
        let c := match homes.find? fun c => !(others.any fun v => decide (v.chan = some c)) with | some c => some c | none => homes.head?
        d.modQuench fun q => q.modPart die fun p => { p with waiting := p.waiting ++ [{ u with chan := c }] }

/-- A trailer that a rewritten segment has overtaken is withdrawn: TAG_HASH, LOST and REWRITTEN of the die change (R253, R259). -/
def QDie.dropTrailer (p : QDie) : QDie :=
  let keep (u : QUnit) : Bool := decide (u.stage < 3)
  { p with trailer := none, waiting := p.waiting.filter keep, placed := p.placed.filter fun x => keep x.unit }

/-- The commit records are to be built again: a trailer that they name has changed. -/
def Quench.dropCommit (q : Quench) : Quench :=
  { q with commit := none, parts := q.parts.map fun e => (e.1,
      { e.2 with waiting := e.2.waiting.filter fun (u : QUnit) => decide (u.stage < 4), placed := e.2.placed.filter fun (x : QPlaced) => decide (x.unit.stage < 4) }) }

/-- A NAND die fails in the quench (R259): its channel leaves the round-robin, the package switches, and its units are written again. -/
def Dev.qnchNandFail (d : Dev) (n : Nand) : Dev :=
  match d.quench with
  | none => d
  | some q =>
    if q.lost.contains n then d
    else
      let hit : List (Nat × QUnit) := (q.parts.map fun e => (e.2.placed.filter fun p => decide (p.key.on = n)).map fun p => (e.1, p.unit)).flatten
      let segs := (hit.filter fun h => match h.2.unit with | .seg _ => true | _ => false)
      let d := d.modQuench fun q =>
        { q with lost := q.lost ++ [n], gone := if q.gone.contains (n.die, n.chan) then q.gone else q.gone ++ [(n.die, n.chan)],
                 parts := q.parts.map fun e =>
                   let had := e.2.placed.any fun p => decide (p.key.on = n)
                   let g : QDie := { e.2 with placed := e.2.placed.filter (fun p => decide (p.key.on ≠ n)), lost := if had then e.2.lost ++ [n] else e.2.lost }
                   (e.1, if had && g.trailer.isSome then g.dropTrailer else g) }
      let d := if (q.commit.isSome && hit.any fun h => decide (h.2.stage ≤ 4)) = true then d.modQuench Quench.dropCommit else d
      let d := d.qSwitch 0 (n.die, n.chan)
      let d := d.forEach (hit.filter fun h => decide (h.2.stage < 3)) fun d h => d.rewriteUnit h.1 h.2
      let homeless := match d.quench with
        | some q => (q.parts.map fun e => (e.2.waiting.filter fun (u : QUnit) => match u.chan with | some c => q.gone.contains c | none => false).map fun u => (e.1, u)).flatten
        | none => []
      let d := d.forEach homeless fun d h =>
        (d.modQuench fun q => q.modPart h.1 fun p => { p with waiting := dropFirst (fun v => decide (v = h.2)) p.waiting }).rewriteUnit h.1 h.2
      (d.raise .QNCH_NAND_DIE_FAIL n.die [p1 n.die, p1 n.chan, p1 n.nand, p4 segs.length]).qPump

/-- A program fails on a block (R258): the unit goes to the next READY quad of the NAND die, or to the package round-robin; a third
failed block, or a ninth reprogramming on the Hearth die, fails the NAND die. The block is retired at the next start-up. -/
def Dev.qnchBlockFail (d : Dev) (n : Nand) (plane : Nat) : Dev :=
  match d.quench with
  | none => d
  | some q => match q.running n with
    | none => d
    | some (die, p) =>
      let x := d.quad p.key
      let fails := tgetD q.fails n 0 + 1
      let repro := match q.part n.die with | some g => g.reprograms | none => 0
      let d := d.setQfl fun y => { y with units := tset y.units (p.key, p.page) .undef }
      let d := d.setQuad p.key { x with ptr := d.qcfg.pages }
      let d := d.modQuench fun q => { q with fails := tset q.fails n fails }
      let d := d.raise .QNCH_BLOCK_FAIL n.die [p1 n.die, p1 n.chan, p1 n.nand, p4 (x.blocks.getD (plane % 4) 0), p4 p.unit.unit.number]
      if 3 ≤ fails ∨ 8 ≤ repro then d.qnchNandFail n
      else
        let d := d.modQuench fun q => (q.modPart n.die fun g => { g with reprograms := g.reprograms + 1 }).modPart die fun g =>
          { g with placed := dropFirst (fun y => decide (y = p)) g.placed }
        match d.quench with
        | none => d
        | some q => match d.qQuad q n with
          | some k => d.qStart die p.unit k false
          | none =>
            let d := d.qSwitch 1 (n.die, n.chan)
            (d.modQuench fun q => q.modPart die fun g => { g with waiting := { p.unit with chan := none } :: g.waiting }).qPump

/-! ### Trailers, commit records and the pointer (R253 to R256, R262, R263) -/

/-- Whether everything that a die has queued is programmed. -/
def QDie.idle (p : QDie) : Bool := p.waiting.isEmpty && p.placed.all (·.done)

/-- The trailer of a die (R253). -/
def Dev.trailerOf (d : Dev) (q : Quench) (die : Nat) (p : QDie) : Trailer :=
  { format1 := d.version1, die := die, packageMode := q.packageMode, gen := q.gen, dataSegments := p.nextSeg, mapSegments := p.maps,
    rewritten := p.rewritten, bytes := p.bytes, slabs := p.slabs, lost := p.lost.take 4,
    segs := sortBy id (p.placed.filterMap fun x => match x.unit.unit with | .seg s => some s.num | _ => none) }

/-- Every other program of a die has completed: its trailer is programmed (R253). -/
def Dev.trailerStart (d : Dev) (die : Nat) : Dev :=
  match d.quench with
  | none => d
  | some q => match q.part die with
    | none => d
    | some p =>
      if !p.walked || !p.idle || p.trailer.isSome then d
      else
        let t := d.trailerOf q die p
        (d.modQuench fun z => z.modPart die fun p => { p with trailer := some t, waiting := d.homeUnits q die 3 (.trailer t) }).qPump

/-- The dies of a quench that are still in service (R262). -/
def Dev.qDies (d : Dev) (q : Quench) : List Nat := q.dies.filter d.inService

/-- Every die in service has its trailer (R254). -/
def Dev.trailersDone (d : Dev) (q : Quench) : Bool :=
  (d.qDies q).all fun die => match q.part die with | some p => p.trailer.isSome && p.idle | none => false

/-- FLAGS of the commit record (R254). -/
def CommitRec.flags (c : CommitRec) : Nat := b2n c.chained + 2 * b2n c.empty + 4 * b2n c.packageMode + 8 * b2n c.tagWalk

/-- Milliseconds since T0. -/
def Dev.quenchMs (d : Dev) (q : Quench) : Nat := (d.now - q.t0) / 1000000

/-- The commit record of a quench as it stands, before its event records (R254). -/
def Dev.commitRec (d : Dev) (q : Quench) : CommitRec :=
  { format1 := d.version1, writer := 0, chained := q.chained.isSome, empty := q.empty, packageMode := q.packageMode,
    tagWalk := !q.tagWalk.isEmpty, gen := q.gen, keySlot := q.keySlot, slot := q.slot, keyGen := q.keyGen,
    firstHeat := minOf (q.dies.map d.oldestHeat) 0, lastHeat := q.lastHeat, swageHash := d.swageHash,
    predGen := (q.chained.map (·.1)).getD 0, predSlot := (q.chained.map (·.2)).getD 0, cause := q.cause, dies := q.dies.length,
    durationMs := d.quenchMs q, events := [], eventsLost := 0,
    entries := q.parts.map fun e => ⟨e.1, if d.inService e.1 then e.2.trailer else none⟩ }

/-- The decision to commit (R254): QNCH_DONE joins the records of the quench, and every die in service programs a commit record. -/
def Dev.commitStart (d : Dev) (ms : Nat) : Dev :=
  match d.quench with
  | none => d
  | some q =>
    if q.sanitize || q.commit.isSome || !d.trailersDone q then d
    else
      let d := d.until (q.t0 + 1000000 * ms)
      let c0 := d.commitRec q
      let bytes := sumOf (q.parts.map fun e => e.2.bytes)
      let d := d.raiseB .QNCH_DONE [p4 q.gen, p1 q.slot, p4 c0.durationMs, p8 bytes, p1 c0.flags]
      let c : CommitRec := if d.version1 then c0 else { c0 with events := d.evt.quenchRecs, eventsLost := d.evt.eventsLost }
      (d.modQuench fun z => { z with commit := some c, parts := z.parts.map fun e =>
        (e.1, if d.inService e.1 then { e.2 with waiting := d.homeUnits q e.1 4 (.commit { c with writer := e.1 }) } else e.2) }).qPump

/-- Whether every commit record is programmed. -/
def Dev.commitsDone (d : Dev) (q : Quench) : Bool :=
  q.commit.isSome && (d.qDies q).all fun die => match q.part die with
    | some p => p.idle && p.placed.any fun x => match x.unit.unit with | .commit _ => true | _ => false
    | none => false

/-- A place of the commit record (CMT of R255). -/
def Quench.commitPlace (q : Quench) : Option QPlaced := q.placed.find? fun x => match x.unit.unit with | .commit _ => x.done | _ => false

/-- Whether the Ingot is committed (R256, R262): every die's trailer stands in the commit record. -/
def Quench.isCommitted (q : Quench) : Bool := match q.commit with | some c => c.entries.all fun e => e.trailer.isSome | none => false

/-- The commit records as they stand take an event record (R263). -/
def Dev.addCommitEvents (d : Dev) : Dev :=
  d.setQfl fun x => { x with units := x.units.map fun e => match e.2 with
    | .commit c => match d.quench with
      | some q => if c.gen = q.gen ∧ c.keySlot = q.keySlot ∧ c.format1 = false then
          (e.1, .commit { c with events := d.evt.quenchRecs, eventsLost := d.evt.eventsLost }) else e
      | none => e
    | _ => e }

/-- The commit pointer is programmed, or its program fails with a status (R255, R263); FINAL goes out on the kept links (R235, R334). -/
def Dev.pointerStart (d : Dev) (ok : Bool) (status : Nat) : Dev :=
  match d.quench with
  | none => d
  | some q =>
    if q.pointer.isSome || !(q.sanitize || d.commitsDone q) then d
    else
      let place := q.commitPlace
      let k := match place with | some x => x.key | none => ⟨0, 0, 0, 0⟩
      let page := match place with | some x => x.page | none => 0
      let flags := b2n q.empty + 2 * b2n q.chained.isSome + 4 * b2n q.sanitize + 8 * b2n q.packageMode
      let ms := match q.commit with | some c => c.durationMs | none => d.quenchMs q
      let d :=
        if ok && !d.aonLow then d.record [commitRing] none magicQPTR
          [p4 q.gen, p1 q.keySlot, p1 flags, p2 q.keyGen, p8 q.lastHeat, p1 q.slot, p1 k.die, p1 k.chan, p1 k.nand,
           p4 (match place with | some x => (d.quad x.key).blocks.getD 0 0 | none => 0), p2 page, p2 0, p4 ms]
        else (d.raiseB .QNCH_PTR_FAIL [p1 status]).addCommitEvents
      let d := { d with committed := true, lastSlot := if q.isCommitted then some q.slot else d.lastSlot }
      let d := d.modQuench fun q => { q with pointer := some (ok && !d.aonLow) }
      d.forEach (q.kept.filter fun l => decide (d.linkState l = 2)) fun d l => d.notify q l 2 (b2n (ok && !d.aonLow) + 2 * b2n q.isCommitted)

end Sys2Proof.Machine
end

