-- ==== Sys2Proof/Machine/ReheatOps.lean ====
section
/-! DEFINITION. Reheat (R270 to R286): the choice of the Ingot, the completeness of its dies, the index pass, the application of a
segment, and the release. -/

namespace Sys2Proof.Machine

open Sys2Proof

/-! ### The scan (R256, R270, R271) -/

/-- An Ingot as the scan finds it: what its headers and its commit records show. -/
structure Ingot where
  gen : Nat
  keySlot : Nat
  keyGen : Nat
  slot : Nat
  lastHeat : Nat
  cause : Nat
  format1 : Bool
  chained : Bool
  predGen : Nat
  predSlot : Nat
  hash : List Nat
  commit : Option CommitRec
  headers : List DieHeader
  deriving DecidableEq, Repr

/-- A unit where the scan has found it. -/
abbrev Found := (QKey × Nat) × Unit

/-- Whether a unit can be read: its NAND die serves, its quad is taken, and its page reads and authenticates. -/
def Dev.unitReads (d : Dev) (bad : List FlashAt) (e : Found) : Bool :=
  d.nandUp e.1.1.on && !bad.contains ⟨e.1.1.die, e.1.1.chan, e.1.1.nand, e.1.1.quad, e.1.2⟩ &&
    match (d.quad e.1.1).state with
    | .taken _ => true
    | .retired => true
    | _ => false

def Dev.scanUnits (d : Dev) (bad : List FlashAt) : List Found := d.qfl.units.filter (d.unitReads bad)

/-- The generation and key slot that a header or a commit record names. -/
def Unit.ingot : Unit → Option (Nat × Nat)
  | .header h => some (h.gen, h.keySlot)
  | .commit c => some (c.gen, c.keySlot)
  | _ => none

/-- The headers and the commit records of an Ingot. -/
def headersOf (us : List Found) (g k : Nat) : List DieHeader :=
  us.filterMap fun e => match e.2 with | .header h => if h.gen = g ∧ h.keySlot = k then some h else none | _ => none

def commitsOf (us : List Found) (g k : Nat) : List CommitRec :=
  us.filterMap fun e => match e.2 with | .commit c => if c.gen = g ∧ c.keySlot = k then some c else none | _ => none

/-- An Ingot from its units (R252, R254). -/
def ingotFrom (us : List Found) (g k : Nat) : Option Ingot :=
  let hs := headersOf us g k
  match commitsOf us g k, hs with
  | c :: _, _ => some ⟨g, k, c.keyGen, c.slot, c.lastHeat, c.cause, c.format1, c.chained, c.predGen, c.predSlot, c.swageHash, some c, hs⟩
  | [], h :: _ => some ⟨g, k, h.keyGen, h.slot, h.lastHeat, h.cause, h.format1, h.chained, h.predGen, h.predSlot, h.swageHash, none, hs⟩
  | [], [] => none

/-- The Ingots of the scan. -/
def ingotsOf (us : List Found) : List Ingot := (dedup (us.filterMap fun e => e.2.ingot)).filterMap fun e => ingotFrom us e.1 e.2

/-- Whether the key that an Ingot names is there (R286). -/
def Dev.keyOk (d : Dev) (slot gen : Nat) : Bool := (d.cell (.package slot)).key.isSome && decide ((d.cell (.package slot)).gen = gen)

/-- Whether an Ingot is committed (R256): its commit record authenticates and names the trailer of every die. -/
def Dev.ingotCommitted (d : Dev) (x : Ingot) : Bool :=
  d.keyOk x.keySlot x.keyGen && match x.commit with
    | some c => decide (c.dies ≤ c.entries.length) && c.entries.all fun e => e.trailer.isSome
    | none => false

/-- The Ingot with the highest LAST_HEAT. -/
def highest : List Ingot → Option Ingot
  | [] => none
  | x :: xs => match highest xs with
    | some y => if x.lastHeat < y.lastHeat then some y else some x
    | none => some x

/-- A choice of R271: the kind as in RHT_STATUS.INGOT, the Ingot, whether the scan alone has found it, whether it is a redo, and the
Ingot that a redo ignores. -/
structure Choice where
  kind : Nat
  ingot : Option Ingot
  byScan : Bool
  ignored : Option Ingot
  deriving DecidableEq, Repr

/-- The newest commit pointer (R255). -/
def Dev.newestPointer (d : Dev) : Option Rec := d.newest [commitRing] fun r => decide (r.magic = magicQPTR)

/-- The newest restore record (R274). -/
def Dev.newestRestore (d : Dev) : Option Rec := d.newest [reheatRing] fun r => decide (r.magic = magicRHTP)

/-- Whether an Ingot's last heat lies above another's. -/
def above (x : Ingot) (y : Option Ingot) : Bool := match y with | some y => decide (y.lastHeat < x.lastHeat) | none => true

/-- The kind of an Ingot as it stands (R272). -/
def Dev.kindOf (d : Dev) (x : Ingot) : Nat :=
  if !d.keyOk x.keySlot x.keyGen then 5
  else if d.ingotCommitted x then (match x.commit with | some c => if c.empty then 3 else 1 | none => 1)
  else 2

/-- The choice by rules 1 to 3 of R271, with R256 for a pointer that names an older generation and R286 for an unavailable key. -/
def Dev.chooseFirst (d : Dev) (xs : List Ingot) : Option Ingot :=
  let base := highest (xs.filter d.ingotCommitted)
  let part := highest (xs.filter fun x => !d.ingotCommitted x && d.keyOk x.keySlot x.keyGen && !x.headers.isEmpty && above x base)
  let pick := match part with | some x => some x | none => base
  match highest (xs.filter fun x => !d.keyOk x.keySlot x.keyGen && above x pick) with
  | some x => some x
  | none => pick

/-- The Ingot that a redo restores again (R275): the newest restore record is STARTED and a newer Ingot has been chosen. -/
def Dev.redoOf (d : Dev) (xs : List Ingot) (x : Ingot) : Option Ingot :=
  match d.newestRestore with
  | some r =>
    if r.at 17 1 = 0 ∧ r.at 24 8 < x.lastHeat ∧ r.at 20 4 ≠ x.gen then xs.find? fun y => decide (y.gen = r.at 20 4 ∧ y.keySlot = r.at 48 1)
    else none
  | none => none

/-- The choice of the Ingot (R271, R272, R275, R286). -/
def Dev.chooseIngot (d : Dev) (us : List Found) : Choice :=
  let xs := ingotsOf us
  let ptr := d.newestPointer
  if (match ptr with | some p => bit (p.at 21 1) 2 | none => false) then ⟨4, none, false, none⟩
  else match d.chooseFirst xs with
    | none => ⟨0, none, false, none⟩
    | some x =>
      let byPtr (y : Ingot) : Bool := match ptr with | some p => decide (p.at 16 4 = y.gen ∧ p.at 20 1 = y.keySlot) | none => false
      match (if d.kindOf x = 5 then none else d.redoOf xs x) with
      | some y => ⟨d.kindOf y, some y, !byPtr y, some x⟩
      | none => ⟨d.kindOf x, some x, !byPtr x, none⟩

/-! ### What the last quench was (R267, R268) -/

/-- The newest trailer of each die of an Ingot, as its commit record or its trailer pages give it. -/
def trailersOf (us : List Found) (x : Ingot) : List Trailer :=
  match x.commit with
  | some c => c.entries.filterMap (·.trailer)
  | none => dedup (us.filterMap fun e => match e.2 with | .trailer t => if t.gen = x.gen then some t else none | _ => none)

/-- The channels that the last quench removed: every NAND die that they had in service was lost (R259). -/
def Dev.chansLost (d : Dev) (lost : List Nand) (die : Nat) : Nat :=
  maskOf ((List.range 8).filter fun c => lost.any (fun n => decide (n.die = die ∧ n.chan = c)) &&
    (d.nandsOf die c).all fun n => lost.contains n)

/-- The registers of the last quench, from the newest commit pointer, commit record or die header. -/
def Dev.showLastQuench (d : Dev) (us : List Found) : Dev :=
  let x := highest (ingotsOf us)
  let ptr := d.newestPointer
  let byPtr := match ptr, x with
    | some p, some x => decide (x.lastHeat < p.at 24 8 ∨ (x.gen = p.at 16 4 ∧ x.keySlot = p.at 20 1))
    | some _, none => true
    | none, _ => false
  let d := match ptr with
    | some p =>
      if byPtr then
        let f := p.at 21 1
        let d := (((d.setF QNCH_LAST_GEN.GENERATION (p.at 16 4)).setF QNCH_LAST_MS.MS (p.at 44 4)).setF QNCH_LAST_HEAT.HEAT (p.at 24 8))
        let d := ((d.setB QNCH_STATUS.LAST_EMPTY (bit f 0)).setB QNCH_STATUS.LAST_CHAINED (bit f 1)).setB QNCH_STATUS.LAST_SANITIZE (bit f 2)
        (d.setB QNCH_STATUS.LAST_PACKAGE_MODE (bit f 3)).setB QNCH_STATUS.LAST_COMMITTED (!bit f 2)
      else d
    | none => d
  match x with
  | none => d
  | some x =>
    if byPtr && (match ptr with | some p => decide (x.gen ≠ p.at 16 4) | none => false) then d
    else
      let ts := trailersOf us x
      let d := (d.setF QNCH_STATUS.LAST_CAUSE x.cause).setB QNCH_STATUS.LAST_COMMITTED (d.ingotCommitted x)
      let d := if byPtr then d else ((d.setF QNCH_LAST_GEN.GENERATION x.gen).setF QNCH_LAST_HEAT.HEAT x.lastHeat).setB QNCH_STATUS.LAST_CHAINED x.chained
      let d := match x.commit with
        | some c => ((d.setF QNCH_LAST_MS.MS c.durationMs).setB QNCH_STATUS.LAST_EMPTY c.empty).setB QNCH_STATUS.LAST_PACKAGE_MODE c.packageMode
        | none => d
      let tw := (match x.commit with | some c => c.tagWalk | none => false) || x.headers.any (·.tagWalk)
      let d := (d.setB QNCH_STATUS.LAST_TAG_WALK tw).setF QNCH_LAST_BYTES.BYTES (sumOf (ts.map (·.bytes)))
      let lost := (ts.map (·.lost)).flatten
      let d := d.forEach d.dies fun d die => d.setF QNCH_DIE_STATUS.CHAN_LOST (d.chansLost lost die) die
      d.forEach ts fun d t => (d.setF QNCH_DIE_SEGMENTS.COUNT t.dataSegments t.die).setF QNCH_DIE_REWRITTEN.COUNT t.rewritten t.die

/-- The planes of a quad whose block has an address. -/
def planesAt (q : Quad) (b : Nat) : List Nat := (List.range 4).filter fun p => decide (q.blocks.getD p 0 = b)

/-- The block that a QNCH_BLOCK_FAIL record names is retired (R429). The record does not name the plane: where a quad has that address
in more than one, which of them failed is a free value. -/
def Dev.retireNamed (d : Dev) (r : EvRec) : Dev :=
  let n : Nand := ⟨leAt r.payload 0 1, leAt r.payload 1 1, leAt r.payload 2 1⟩
  let b := leAt r.payload 3 4
  match (d.quadsOf n).find? fun k => !(planesAt (d.quad k) b).isEmpty && d.qfl.units.any fun e => decide (e.1.1 = k ∧ e.2 = .undef) with
  | none => d
  | some k =>
    let ps := planesAt (d.quad k) b
    d.tick.retireBlock k (ps.getD (d.freeVal % ps.length) 0) 3

/-- The failures of the last quench, dealt with at this start-up (R429): the blocks that its commit record names, and the NAND dies
that its trailers list in LOST. -/
def Dev.retireFailures (d : Dev) (us : List Found) : Dev :=
  match highest (ingotsOf us) with
  | none => d
  | some x =>
    let recs := match x.commit with | some c => c.events.filter fun r => decide (r.code = Ev.QNCH_BLOCK_FAIL.code) | none => []
    let d := d.forEach recs fun d r => d.retireNamed r
    let lost := dedup ((trailersOf us x).map (·.lost)).flatten
    d.forEach (lost.filter fun n => decide (d.f QFL_NAND_STATUS.STATE n.die n.chan n.nand ≠ 3)) fun d n => (d.retireNand n 6).channelCheck n.die n.chan

/-! ### Completeness (R284, R285) -/

/-- Whether any of a range of slabs lies on a die. -/
def Dev.anySlabOn (d : Dev) (die : Nat) : Nat → Nat → Bool
  | 0, _ => false
  | n + 1, x => decide ((d.place x).die = die) || d.anySlabOn die n (x + 1)

/-- Whether a region has slabs on a die (R285). -/
def Dev.regionOn (d : Dev) (n die : Nat) : Bool :=
  match d.regionCfgs[n]? with
  | some r => d.anySlabOn die (r.size / 4096) (r.start / 4096)
  | none => false

def Dev.modRestore (d : Dev) (f : Restore → Restore) : Dev := d.setRht fun x => { x with restore := x.restore.map f }

/-- A die's part of the Ingot is incomplete (R285), with the segments lost and the place of the cause in R302's list. -/
def Dev.dieIncomplete (d : Dev) (die lost cause : Nat) : Dev :=
  let d := (d.modRestore fun r => { r with incompleteDies := if r.incompleteDies.contains die then r.incompleteDies else r.incompleteDies ++ [die] })
  let d := ((d.setB RHT_DIE_STATUS.COMPLETE false die).setB RHT_STATUS.UNNAMED_LOSS true).raise .RHT_UNNAMED_LOSS die [p1 die, p4 lost, p1 cause]
  let d := d.forEach (d.mirrored.filter fun n => d.regionOn n die) fun d n => d.setRegion n { d.region n with incomplete := true }
  d.dscLoss 1

/-- The data and map segments of a generation that can be read, without those on NAND dies that the die's trailer names lost. -/
def segsFound (us : List Found) (g : Nat) (lost : List Nand) (die : Nat) : List ISeg :=
  dedup (us.filterMap fun e => match e.2 with
    | .seg s => if s.gen = g ∧ s.die = die ∧ lost.contains e.1.1.on = false then some s else none
    | _ => none)

/-- A die's trailer, when it authenticates and matches its entry of the commit record (R284). -/
def trailerAt (us : List Found) (x : Ingot) (die : Nat) : Option Trailer :=
  let entry := match x.commit with | some c => (c.entries.find? fun e => decide (e.die = die)).bind (·.trailer) | none => none
  match us.findSome? fun e => match e.2 with | .trailer t => if t.gen = x.gen ∧ t.die = die then some t else none | _ => none with
  | some t => if x.commit.isNone ∨ entry = some t then some t else none
  | none => none

/-- The dies that an Ingot names. -/
def Dev.ingotDies (d : Dev) (us : List Found) (x : Ingot) : List Nat :=
  let c := match x.commit with | some c => c.entries.map (·.die) | none => []
  let s := us.filterMap fun e => match e.2 with | .seg s => if s.gen = x.gen then some s.die else none | _ => none
  sortBy id ((dedup (c ++ x.headers.map (·.die) ++ s)).filter d.isDie)

/-- Completeness of a die as the scan shows it (R284). -/
def Dev.checkDie (d : Dev) (us : List Found) (x : Ingot) (kind die : Nat) : Dev :=
  if kind = 5 then d.tick.dieIncomplete die d.freeVal 3
  else
    let t := trailerAt us x die
    let lost := match t with | some t => t.lost | none => []
    let found : List Nat := sortBy id ((segsFound us x.gen lost die).map (·.num))
    let want : List Nat := match t with | some t => t.segs | none => []
    let d := d.setB RHT_DIE_STATUS.TRAILER_OK t.isSome die
    if (decide (kind = 1 ∨ kind = 3) && t.isSome && decide (found = want)) = true then d.setB RHT_DIE_STATUS.COMPLETE true die
    else if t.isSome then d.dieIncomplete die (want.filter fun n => !found.contains n).length (if kind = 2 then 0 else 2)
    else d.tick.dieIncomplete die d.freeVal 0

/-- The fence counts of the Ingot's die headers (R232, R298). -/
def Dev.showFence (d : Dev) (x : Ingot) : Dev :=
  d.forEach x.headers fun d h =>
    if h.format1 then d
    else
      let d := d.setB RHT_DIE_STATUS.FENCE_VALID true h.die
      d.forEach (List.range 32) fun d r => d.setF QNCH_FENCE_ACCEPTED.COUNT (h.accepted.getD r 0) h.die r

/-! ### The segments to restore (R257, R271, R277) -/

/-- A segment to restore. -/
def ISeg.toRestore (s : ISeg) (damaged : Bool) : RSeg := ⟨s.gen, s.die, s.num, [], false, false, damaged, false, []⟩

/-- The data segments of an Ingot, by die and number. -/
def Dev.dataSegs (us : List Found) (x : Ingot) (dies : List Nat) : List ISeg :=
  (dies.map fun die =>
    let lost := match trailerAt us x die with | some t => t.lost | none => []
    sortBy (·.num) ((segsFound us x.gen lost die).filter fun s => !s.isMap)).flatten

/-- The predecessor's segments that a chained Ingot leaves to restore (R257, R271). Where the map segments of a die do not all
authenticate, its predecessor's slabs are those of failed segments: such a segment is marked damaged. -/
def Dev.predSegs (d : Dev) (us : List Found) (x : Ingot) : List RSeg :=
  if !x.chained then []
  else
    let ofSlot := us.filter fun e => match (d.quad e.1.1).state with | .taken s => decide (s = x.predSlot) | _ => true
    (d.dies.map fun die =>
      let maps := (segsFound us x.gen [] die).filter (·.isMap)
      let want := match x.headers.find? fun h => decide (h.die = die) with | some h => (h.predSegments + 524031) / 524032 | none => 1
      let whole := decide (want ≤ maps.length)
      let retired := (maps.map (·.retired)).flatten
      let segs := sortBy (fun (s : ISeg) => s.num) ((segsFound ofSlot x.predGen [] die).filter fun s => !s.isMap)
      (segs.filter fun s => !(whole && retired.contains s.num)).map fun s => s.toRestore (!whole)).flatten

/-- LAST_HEAT of a generation, as its units show it. -/
def lastHeatOf (us : List Found) (g : Nat) (dflt : Nat) : Nat :=
  (us.findSome? fun e => match e.2 with
    | .header h => if h.gen = g then some h.lastHeat else none
    | .commit c => if c.gen = g then some c.lastHeat else none
    | _ => none).getD dflt

/-- The restore of a chosen Ingot as it begins (R275, R298). -/
def Dev.newRestore (d : Dev) (us : List Found) (x : Ingot) (redo : Bool) : Restore :=
  let dies := d.ingotDies us x
  { generation := x.gen, slot := x.slot, keySlot := x.keySlot, keyGen := x.keyGen, lastHeat := x.lastHeat, format1 := x.format1,
    lazy := !(x.format1 || d.version1 || x.chained || redo), pred := if x.chained then some (x.predGen, x.predSlot) else none, dies := dies,
    incompleteDies := [], segs := d.predSegs us x ++ (Dev.dataSegs us x dies).map fun s => s.toRestore false, servingAt := 0 }

/-- RHT_START (R302). -/
def Dev.raiseStart (d : Dev) (r : Restore) : Dev :=
  d.raiseB .RHT_START [p4 r.generation, p1 r.slot, p1 (d.f RHT_STATUS.INGOT), p4 (if r.format1 then 1 else 2), p1 (b2n (!r.lazy)),
    pB (d.fb RHT_STATUS.FOUND_BY_SCAN)]

/-- A key that is not there (R286): every die is incomplete, and nothing is restored. -/
def Dev.keyLost (d : Dev) (r : Restore) : Dev :=
  let d := (d.setF RHT_STATUS.INGOT 5).raiseStart { r with lazy := false }
  let d := d.raiseB .RHT_KEY_UNAVAILABLE [p1 r.keySlot, p2 r.keyGen]
  d.forEach r.dies fun d die => d.tick.dieIncomplete die d.freeVal 3

/-- A start-up step has failed, with the event that says so (R98). -/
def Dev.notReady (d : Dev) (e : Ev) : Dev :=
  let d := { d with fab := { d.fab with mediaError := true } }
  d.raiseR .FAB_MEMORY_NOT_READY [p2 e.code]

/-- The first four bytes of a hash (R614). -/
def hashPrefix (h : List Nat) : Nat := h.getD 0 0

/-- The end of the scan (R256, R271 to R273, R284 to R286, R429). -/
def Dev.ingotScan (d : Dev) (bad : List FlashAt) : Dev :=
  let us := d.scanUnits bad
  let ch := d.chooseIngot us
  let xs := ingotsOf us
  let ptrHeat := match d.newestPointer with | some p => p.at 24 8 | none => 0
  let com := highest (xs.filter d.ingotCommitted)
  let recHeat := Nat.max ptrHeat (match com with | some x => x.lastHeat | none => 0)
  let d := { d with lastSlot := match com, d.newestPointer with | some x, _ => some x.slot | none, some p => some (p.at 32 1) | none, none => none }
  let d := (d.showLastQuench us).setF QNCH_RING_SEQ.SEQ (maxOf ((d.ringRecords commitRing).map (·.seq)))
  let d := d.setRht fun x => { x with recHeat := recHeat }
  let d := (d.setF RHT_STATUS.INGOT ch.kind).setB RHT_STATUS.FOUND_BY_SCAN ch.byScan
  let d : Dev := match d.rht.lostBefore with | some c => (d.setRht fun x => { x with lostBefore := none }).dscLoss c | none => d
  match ch.ingot with
  | none => (d.retireFailures us).setRht fun x => { x with scanned := true }
  | some x =>
    let r := d.newRestore us x ch.ignored.isSome
    let d : Dev := match ch.ignored with
      | some y => (d.setB RHT_STATUS.REDO true).raiseB .RHT_REDO [p4 x.gen, p4 y.gen]
      | none => d
    let d := ((d.setB RHT_STATUS.FORMAT1 x.format1).setB RHT_STATUS.CHAINED x.chained).setF RHT_GENERATION.GENERATION x.gen
    if ch.kind = 5 then (((d.keyLost r).retireFailures us).setRht fun y => { y with scanned := true })
    else if (decide (ch.kind ≠ 3) && decide (x.hash ≠ d.swageHash)) = true then
      let d := (d.showFence x).setF RHT_STATUS.PHASE 7
      let d := d.raiseB .RHT_SWAGE_MISMATCH [p4 (hashPrefix x.hash), p4 (hashPrefix d.swageHash)]
      (d.setRht fun y => { y with held := some r }).notReady .RHT_SWAGE_MISMATCH
    else
      let d := (d.showFence x).raiseStart r
      let d := if ch.kind = 3 then d
        else (d.setRht fun y => { y with restore := some r, lastHeat := x.lastHeat }).setB RHT_STATUS.LAZY r.lazy
      let d := d.forEach r.dies fun d die => d.checkDie us x ch.kind die
      let d := d.setF RHT_SEGMENTS.COUNT (match d.rht.restore with | some r => r.segs.length | none => 0)
      (d.retireFailures us).setRht fun y => { y with scanned := true }

/-! ### The index pass (R276 to R278) -/

/-- A segment of the restore. -/
def Restore.seg (r : Restore) (g die num : Nat) : Option RSeg := r.segs.find? fun s => decide (s.gen = g ∧ s.die = die ∧ s.num = num)

def Dev.modSeg (d : Dev) (g die num : Nat) (f : RSeg → RSeg) : Dev :=
  d.modRestore fun r => { r with segs := r.segs.map fun s => if s.gen = g ∧ s.die = die ∧ s.num = num then f s else s }

/-- The segment as it stands on the flash, with its place. -/
def Dev.segUnit (d : Dev) (g die num : Nat) : Option (QKey × Nat × ISeg) :=
  d.qfl.units.findSome? fun e => match e.2 with
    | .seg s => if s.gen = g ∧ s.die = die ∧ s.num = num ∧ d.nandUp e.1.1.on = true then some (e.1.1, e.1.2, s) else none
    | _ => none

/-- A slab named by a segment becomes reheat-pending (R142, R276): its frame is allocated FILLING. False where no way can be
allocated: the restore waits (R135). -/
def Dev.namePending (d : Dev) (slab die num : Nat) : Dev × Bool :=
  let (d, ok) : Dev × Bool := match d.lookup slab with
    | some _ => (d, true)
    | none => match d.choose (d.setOf slab) with
      | .way w v => (d.allocate slab w v .filling, true)
      | _ => (d, false)
  if !ok then (d, false)
  else
    let at' := tgetD d.rht.pending slab []
    let p := tset d.rht.pending slab (if at'.contains (die, num) then at' else at' ++ [(die, num)])
    ((d.setRht fun x => { x with pending := p }).setF RHT_PENDING.COUNT p.length, true)

/-- The heat delta of a slab named by a descriptor: the newest one counts (R293). -/
def Dev.noteDelta (d : Dev) (slab delta : Nat) : Dev :=
  let m := match tget d.rht.deltas slab with | some y => Nat.min y delta | none => delta
  d.setRht fun x => { x with deltas := tset x.deltas slab m }

/-- Whether every segment of a die is indexed. -/
def Restore.dieIndexed (r : Restore) (die : Nat) : Bool := r.segs.all fun s => decide (s.die ≠ die) || s.indexed

/-- A die's index pass ends: the requests that wait for it go on (R281). -/
def Dev.indexEnds (d : Dev) (die : Nat) : Dev :=
  if d.fb RHT_DIE_STATUS.INDEX_DONE die then d
  else
    (d.setB RHT_DIE_STATUS.INDEX_DONE true die).retryAll fun r => decide (r.wait = .index ∧ (d.place r.slab).die = die)

/-- The structure check of a descriptor (R276). -/
def Dev.descOk (d : Dev) (die slab : Nat) : Bool := decide (slab < d.swg.cfg.dram.dpaLimit / 4096 ∧ (d.place slab).die = die)

/-- The index pass of one segment (R276): the slabs that its descriptors show, as stored or as the read shows them; a descriptor that
fails its check ends the pass of the segment. -/
def Dev.indexPass (d : Dev) (die num : Nat) (seen : Option (List Nat)) (broken : Bool) : Dev :=
  match d.rht.restore with
  | none => d
  | some r => match r.seg r.generation die num with
    | none => d
    | some g =>
      if !r.lazy || g.indexed || d.quenching then d
      else
        let descs := match d.segUnit r.generation die num with | some (_, _, s) => s.descs | none => []
        let slabs := match seen with | some l => l | none => descs.map (·.slab)
        let good := dedup (slabs.takeWhile (d.descOk die))
        let damaged := broken || good.length < (dedup slabs).length || (d.segUnit r.generation die num).isNone
        let (d, ok) := good.foldl (fun (a : Dev × Bool) x => let (d, b) := a.1.namePending x die num; (d, a.2 && b)) (d, true)
        let d := d.forEach (descs.filter fun x => good.contains x.slab) fun d x => d.noteDelta x.slab x.heatDelta
        let d := d.modSeg r.generation die num fun s => { s with named := good, indexed := ok, damaged := damaged }
        if !ok then d
        else
          let d := if damaged && !g.damaged then ((d.setF RHT_DIE_STATUS.DAMAGED (saturate 8 (d.f RHT_DIE_STATUS.DAMAGED die + 1)) die).dieIncomplete die 1 1) else d
          match d.rht.restore with
          | some r => if r.dieIndexed die then d.indexEnds die else d
          | none => d

/-! ### A slab whose segments have all been applied (R278, R279, R283) -/

/-- A restored slab that was dumped POISONED stays so: its unmasked and its partly written sectors are poison (R242, R251). -/
def Dev.staysPoisoned (d : Dev) (slab : Nat) : Dev :=
  match d.lookup slab with
  | none => d
  | some (_, t) =>
    let partials := (d.cru.be.filter fun e => decide (e.1.1 = slab)).map (fun e => bitMask e.1.2)
    let lost := partials.foldl (· ||| ·) (~~~t.mask)
    let d := (d.modTag slab fun t => { t with mask := t.mask &&& ~~~lost, state := .poisoned }).addPoison slab lost
    let d := d.setCru fun c => { c with be := c.be.filter fun e => decide (e.1.1 ≠ slab), fills := tdel c.fills slab }
    ((d.serveWaiting slab).failMirror slab lost).answerOwed slab

/-- The end of a slab's restore. -/
def Dev.slabRestored (d : Dev) (slab : Nat) : Dev :=
  if d.rht.judge.contains slab then (if d.waitsJoin slab then d else d.settleFailed slab)
  else
    let d := d.unpend slab
    match d.lookup slab with
    | none => d
    | some (_, t) =>
      if t.state ≠ SlabState.filling then d
      else if d.rht.poisoned.contains slab then d.staysPoisoned slab
      else if t.mask = fullMask ∧ (d.cru.be.all fun e => decide (e.1.1 ≠ slab)) = true then d.landFill slab []
      else (d.serveWaiting slab).issueFill slab

/-- A segment has been applied to a slab, or has failed for it. -/
def Dev.located (d : Dev) (slab die num : Nat) : Dev :=
  match tget d.rht.pending slab with
  | none => d
  | some l =>
    let left := l.filter fun e => decide (e ≠ (die, num))
    let d := d.setRht fun x => { x with pending := tset x.pending slab left }
    if left.isEmpty then d.slabRestored slab else d.serveWaiting slab

/-- A slab that only the unverified descriptors named (R279): it leaves the index, and its tag is written INVALID; one that holds host
writes since keeps them and is filled. -/
def Dev.indexMismatch (d : Dev) (slab die num : Nat) : Dev :=
  let d := d.raise .RHT_INDEX_MISMATCH die [p1 die, p4 num, p5 slab]
  match tget d.rht.pending slab with
  | none => d
  | some l =>
    let left := l.filter fun e => decide (e ≠ (die, num))
    if !left.isEmpty then d.setRht fun x => { x with pending := tset x.pending slab left }
    else
      let d := d.unpend slab
      let waiting := d.cru.reqs.filter fun r => decide (r.slab = slab ∧ r.wait = .fill)
      if (match d.lookup slab with | some (_, t) => decide (t.mask = 0) | none => true) then
        d.invalidate slab |>.forEach waiting fun d r => d.coherent { r with wait := .arrival } false
      else d.slabRestored slab

/-! ### A segment applied (R279, R280, R283) -/

/-- A sector of a descriptor written (R279). Where the sector is masked, a host write that follows the dump is kept; `over`: it holds
data of the predecessor, over which the newer Ingot goes (R257). -/
def Dev.applySector (d : Dev) (newer : Bool) (slab i : Nat) (line : Line) (en : Mask) : Dev :=
  match d.lookup slab with
  | none => d
  | some (_, t) =>
    let filling := decide (t.state = .filling)
    let put (d : Dev) (l : Line) (be : Option Mask) : Dev :=
      (d.setLine slab i l).setCru fun c => { c with be := match be with
        | some m => if m = fullMask then tdel c.be (slab, i) else tset c.be (slab, i) m
        | none => tdel c.be (slab, i) }
    if t.mask.getLsbD i then
      match tget d.cru.be (slab, i) with
      | some b =>
        let m := if newer then en else en &&& ~~~b
        put d (mergeLine (d.line slab i) line m) (some (b ||| en))
      | none => if newer then put d (mergeLine (d.line slab i) line en) none else d
    else if t.state = SlabState.poisoned ∧ en ≠ fullMask then d
    else
      let d := if en = fullMask then put d line none
        else put d (mergeLine (d.line slab i) line en) (if filling then some en else none)
      let d := if needsAppend (some t) d.openHeat then d.append (d.place slab).die slab 2 d.openHeat false else d
      let d := d.delPoison slab (bitMask i)
      d.modTag slab fun t =>
        let m := t.mask ||| bitMask i
        { t with mask := m, heat := d.openHeat % 256, state := stateAfterWrite t.state m }

/-- A descriptor applied under its slab's lock; false where no way can be allocated (R135, R279). -/
def Dev.applyDesc (d : Dev) (newer : Bool) (delta : Nat) (x : Desc) : Dev × Bool :=
  let (d, ok) : Dev × Bool := match d.lookup x.slab with
    | some _ => (d, true)
    | none => match d.choose (d.setOf x.slab) with
      | .way w v => (d.allocate x.slab w v .filling, true)
      | _ => (d, false)
  if !ok then (d, false)
  else
    let d := d.forEach ((List.range 64).filter fun i => x.mask.getLsbD i) fun d i =>
      d.applySector newer x.slab i (tgetD x.lines i 0) (if x.isPartial then tgetD x.be i 0 else fullMask)
    let d := if x.poisoned && !d.rht.poisoned.contains x.slab then d.setRht fun y => { y with poisoned := y.poisoned ++ [x.slab] } else d
    (d.noteDelta x.slab delta, true)

/-- A segment leaves the demands and is retired (R279). -/
def Dev.retireSeg (d : Dev) (g die num : Nat) (failed : Bool) : Dev :=
  let d := d.modSeg g die num fun s => { s with retired := true, failed := failed }
  let d := d.setRht fun x => { x with demands := x.demands.filter fun e => decide (e ≠ (die, num)) }
  d.setF RHT_RETIRED.COUNT (match d.rht.restore with | some r => (r.segs.filter (·.retired)).length | none => 0)

/-- A segment that authenticates (R279). -/
def Dev.segApply (d : Dev) (r : Restore) (g : RSeg) (s : ISeg) : Dev :=
  let newer := decide (g.gen = r.generation)
  let shift := if newer then 0 else r.lastHeat - lastHeatOf d.qfl.units g.gen r.lastHeat
  let descs := s.descs.filter fun x => !g.gone.contains x.slab
  let (d, ok) := descs.foldl (fun (a : Dev × Bool) x =>
    let (d, b) := a.1.applyDesc (r.pred.isSome && newer) (Nat.min 0xFFFF (x.heatDelta + shift)) x
    (d, a.2 && b)) (d, true)
  let names := dedup (descs.map (·.slab))
  if !ok then d.ceilCheck
  else
    let d := d.retireSeg g.gen g.die g.num false
    let d := d.modSeg g.gen g.die g.num fun y => { y with named := names }
    let d := if newer then d.setRht fun y => { y with judge := if r.pred.isSome then y.judge.filter fun z => !names.contains z else y.judge } else d
    if !r.lazy then d
    else
      let d := d.forEach (g.named.filter fun x => !names.contains x && !g.gone.contains x) fun d x => d.indexMismatch x g.die g.num
      let d := d.forEach names fun d x => if (tget d.rht.pending x).isSome then d.located x g.die g.num else d.slabRestored x
      d.ceilCheck

/-- A segment that fails authentication (R283): none of its sectors is written; its named slabs are recovered or lost. It counts as
retired with them. -/
def Dev.segFail (d : Dev) (g : RSeg) : Dev :=
  let d := d.raise .RHT_SEG_AUTH_FAIL g.die [p1 g.die, p4 g.num, p4 g.named.length]
  let d := (d.setF RHT_DIE_STATUS.AUTH_FAILS (saturate 8 (d.f RHT_DIE_STATUS.AUTH_FAILS g.die + 1)) g.die).dieIncomplete g.die 1 2
  let names := g.named.filter fun x => !g.gone.contains x
  let d := d.setRht fun x => { x with judge := dedup (x.judge ++ names) }
  let d := d.retireSeg g.gen g.die g.num true
  (d.forEach names fun d x => d.located x g.die g.num).ceilCheck

/-- A segment of a predecessor whose die's map is lost (R271): its slabs are those of a failed segment, unless a newer one names them. -/
def Dev.predLost (d : Dev) (r : Restore) (g : RSeg) (s : ISeg) : Dev :=
  let newer := (r.segs.filter fun y => decide (y.gen = r.generation) && y.retired && !y.failed).map (·.named) |>.flatten
  let names := (dedup (s.descs.map (·.slab))).filter fun x => !newer.contains x
  (d.setRht fun x => { x with judge := dedup (x.judge ++ names) }).retireSeg g.gen g.die g.num true

/-- A segment read completes (R279, R417, R418): the medium's corrections are dealt with, and the segment is applied where it
authenticates. A block that reads as uncorrectable is retired (R429). Restores stop at T0 (R257). -/
def Dev.segRestore (d : Dev) (gen die num : Nat) (auth : Bool) (m : NandMedium) : Dev :=
  match d.rht.restore with
  | none => d
  | some r => match r.seg gen die num with
    | none => d
    | some g =>
      if d.quenching || g.retired || (r.lazy && !g.indexed) || decide (d.f RHT_STATUS.PHASE < 3) then d
      else match d.segUnit gen die num with
        | none => d.segFail g
        | some (k, page, s) =>
          let d := (d.qWarn k page m).1
          let d := match m.bad with | some b => d.retireBlock k (b / 8 % 4) 3 | none => d
          if !auth || m.bad.isSome then d.segFail g
          else if g.damaged && decide (g.gen ≠ r.generation) then d.predLost r g s
          else d.segApply r g s

/-! ### The ends (R270, R275, R282) -/

/-- A restore record (R274): 0 STARTED, 1 SERVING, 2 DONE. -/
def Dev.restoreRecord (d : Dev) (r : Restore) (kind : Nat) : Dev :=
  d.record [reheatRing] (some reheatKind) magicRHTP
    [p1 0xFF, p1 kind, p1 0, p1 r.slot, p4 r.generation, p8 r.lastHeat, p8 0, p8 0, p1 r.keySlot]

/-- The blocks of every Ingot go to quench flash for erasure (R272, R282, R286). -/
def Dev.releaseIngots (d : Dev) : Dev :=
  let d := (d.releaseQuads 0).releaseQuads 1
  d.dropUnits fun k => decide ((d.quad k).state = .retired)

/-- A slab of a failed segment at the end of an eager restore (R271, R283): it takes a frame where it has none and its set has a way. -/
def Dev.eagerJudge (d : Dev) (slab : Nat) : Dev :=
  let d := match d.lookup slab with
    | some _ => d
    | none => match d.choose (d.setOf slab) with
      | .way w v => d.allocate slab w v .filling
      | _ => d
  let p := tset d.rht.pending slab []
  let d := (d.setRht fun x => { x with pending := p }).setF RHT_PENDING.COUNT p.length
  if d.waitsJoin slab then d else d.settleFailed slab

/-- An eager restore has applied every segment (R275): its slabs are completed or filled, and the index has nothing to do. -/
def Dev.eagerDone (d : Dev) : Dev :=
  match d.rht.restore with
  | none => d
  | some r =>
    if r.lazy || decide (d.f RHT_STATUS.PHASE ≠ 3) || d.quenching || !r.segs.all (·.retired) then d
    else
      let names := dedup (r.segs.map (·.named)).flatten
      let d := d.forEach (names.filter fun x => !d.rht.judge.contains x) fun d x => d.slabRestored x
      let d := d.forEach d.rht.judge fun d x => d.eagerJudge x
      let d := d.forEach d.dies fun d die => d.setB RHT_DIE_STATUS.INDEX_DONE true die
      (d.setF RHT_STATUS.PHASE 4).setRht fun x => { x with indexAt := d.now }

/-- Whether step 5 of R270 has ended: nothing to restore, or every die's index pass has ended or is marked INDEX_PARTIAL. -/
def Dev.mayServe (d : Dev) : Bool :=
  d.fence && d.rht.recorded && !d.quenching && d.rht.held.isNone &&
    (decide (d.f RHT_STATUS.PHASE = 6) || (decide (d.f RHT_STATUS.PHASE = 4) &&
      d.diesUp.all fun die => d.fb RHT_DIE_STATUS.INDEX_DONE die || d.fb RHT_DIE_STATUS.INDEX_PARTIAL die))

/-- The Ingot is released once every segment is retired (R282). -/
def Dev.ingotRelease (d : Dev) : Dev :=
  match d.rht.restore with
  | none => d
  | some r =>
    if d.fence || d.quenching || !r.segs.all (·.retired) then d
    else
      let d := (d.restoreRecord r 2).releaseIngots
      let d := (d.setRht fun x => { x with restore := none, demands := [] }).setF RHT_STATUS.PHASE 6
      d.raiseB .RHT_DONE [p4 r.generation, p4 r.segs.length, p4 ((d.now - r.servingAt) / 1000000)]

end Sys2Proof.Machine
end

