-- ==== Sys2Proof/Machine/Reheat.lean ====
section
/-! DEFINITION. The meanings of reheat's commands (R270 to R286): the steps of a start-up from P0 to the reopening of the gates, the
index pass, the restore of a segment, and the release. -/

namespace Sys2Proof.Machine

open Sys2Proof

/-- REHEAT_LOCATE: step 1 of R270: the commit pointer, the reheat ring and the heat reservation are read. -/
def execReheatLocate (s : State) : Host.Outcome State Fault Refusal :=
  s.on fun d =>
    if d.f RHT_STATUS.PHASE ≠ 1 ∨ d.quenching = true then d
    else
      let d := (d.setF HEAT_RESERVATION.R d.storedReservation).setF RHT_STATUS.PHASE 2
      d.forEach (List.range d.regionCfgs.length) fun d n => d.putRecord n (d.storedRole n)

/-- INGOT_SCAN: `bad` names the pages that do not authenticate or do not read (R270 to R273, R284 to R286). -/
def execIngotScan (bad : List FlashAt) (s : State) : Host.Outcome State Fault Refusal :=
  s.on fun d => if d.f RHT_STATUS.PHASE ≠ 2 ∨ d.rht.scanned = true ∨ d.quenching = true then d else d.ingotScan bad

/-- The highest generation that a valid claim or commit pointer names for the current Ingot key (R248). -/
def Dev.claimedGen (d : Dev) : Nat :=
  let gen := (d.cell (.package d.currentKey)).gen
  maxOf (((d.ringRecords commitRing).filter fun r =>
    decide ((r.magic = magicGCLM ∨ r.magic = magicQPTR) ∧ r.at 20 1 = d.currentKey ∧ r.at 22 2 = gen)).map fun r => r.at 16 4)

/-- Whether the old previous key is still named by an Ingot that is held or under restore, so that a roll is deferred (R541). -/
def Dev.rollDeferred (d : Dev) : Bool :=
  let names (r : Option Restore) : Bool := match r with | some r => decide (r.keySlot = d.f SEC_INGOT_ROLES.PREVIOUS) | none => false
  names d.rht.held || names d.rht.restore

/-- The generation claim (R248, R541): none where it cannot be programmed. -/
def Dev.claimNext (d : Dev) (claimOk reserveOk : Bool) (status : Nat) : Option Dev :=
  let rolls := decide (2 ^ 32 - 2 ^ 16 ≤ d.claimedGen + 1)
  if !claimOk || d.aonLow || (rolls && (d.rollDeferred || !d.fb SEC_DRBG_STATUS.HEALTHY)) then none
  else
    let d := if rolls then d.rollKeys reserveOk status else d
    let g := if rolls then 1 else d.claimedGen + 1
    let c := d.cell (.package d.currentKey)
    if c.key.isNone then none
    else
      let d := d.record [commitRing] none magicGCLM [p4 g, p1 d.currentKey, p1 0, p2 c.gen]
      let d := { d with claim := some ⟨g, d.currentKey, c.gen⟩ }
      let d := (d.setF QNCH_NEXT_GEN.GENERATION g).setB QNCH_STATUS.CLAIMED true
      some (d.setF QNCH_RING_SEQ.SEQ (maxOf ((d.ringRecords commitRing).map (·.seq))))

/-- The first heat of the start-up (R176, R182). -/
def Dev.firstHeat (d : Dev) : Dev :=
  let h := Nat.max (Nat.max (d.f HEAT_RESERVATION.R) (d.rht.recHeat + 1)) 1
  ((d.programReservation (h + 2 ^ 24)).setF HEAT_CURRENT.HEAT h).openHeatAt h

/-- After the records: nothing to restore, an eager restore (PHASE 3), or the index pass (PHASE 4). -/
def Dev.afterRecords (d : Dev) : Dev :=
  let d := d.setRht fun x => { x with recorded := true, indexAt := d.now }
  match d.rht.restore with
  | none => d.releaseIngots.setF RHT_STATUS.PHASE 6
  | some r =>
    if !r.lazy then d.setF RHT_STATUS.PHASE 3
    else d.forEach d.dies (fun d die => if r.dieIndexed die then d.indexEnds die else d) |>.setF RHT_STATUS.PHASE 4

/-- REHEAT_RECORDS_PROGRAM: step 3 of R270: the restore record, the generation claim and the reservation are programmed, and the
first heat opens. `claimOk` and `reserveOk`: the programs of the claim and of a roll's records pass; `status`: the Temper status
of one that does not. -/
def execReheatRecordsProgram (claimOk reserveOk : Bool) (status : Nat) (s : State) : Host.Outcome State Fault Refusal :=
  s.on fun d =>
    if !d.rht.scanned || d.rht.recorded || d.rht.held.isSome || d.quenching || decide (d.f HEAT_JRNL_PAGES.TOTAL (d.diesUp.headD 0) = 0) then d
    else match d.claimNext claimOk reserveOk status with
      | none => (d.raiseB .QNCH_CLAIM_FAIL [p1 status]).notReady .QNCH_CLAIM_FAIL
      | some d =>
        let d : Dev := match d.rht.restore with | some r => d.restoreRecord r 0 | none => d
        d.firstHeat.afterRecords

/-- EAGER_RESTORE_DONE: every segment of an eager restore has been applied (R275). -/
def execEagerRestoreDone (s : State) : Host.Outcome State Fault Refusal := s.on fun d => d.eagerDone

/-- INDEX_PASS_SEGMENT: the index pass reads a segment of a die: what its descriptors showed, where the unverified read differs from
what is stored, and whether a structure check failed (R276). -/
def execIndexPassSegment (die num : Nat) (seen : Option (List Nat)) (broken : Bool) (s : State) : Host.Outcome State Fault Refusal :=
  s.on fun d => if d.f RHT_STATUS.PHASE < 4 then d else d.indexPass die num seen broken

/-- INDEX_DEADLINE: 6 s after the start of the index pass a die's has not ended (R281). -/
def execIndexDeadline (die : Nat) (s : State) : Host.Outcome State Fault Refusal :=
  s.on fun d =>
    if d.f RHT_STATUS.PHASE ≠ 4 ∨ d.fb RHT_DIE_STATUS.INDEX_DONE die = true ∨ d.fb RHT_DIE_STATUS.INDEX_PARTIAL die = true ∨ d.isDie die = false ∨ d.quenching = true then d
    else
      let d := d.until (d.rht.indexAt + 6000000000)
      let n := match d.rht.restore with | some r => (r.segs.filter fun g => decide (g.die = die) && g.indexed).length | none => 0
      (d.setB RHT_DIE_STATUS.INDEX_PARTIAL true die).raise .RHT_INDEX_PARTIAL die [p1 die, p4 n]

/-- The gates open (R29, R96, R232): hosts are served. -/
def Dev.openGates (d : Dev) : Dev :=
  let d : Dev := { d with fence := false, cru := { d.cru with drained := [] } }
  let d := d.forEach d.diesUp fun d die =>
    let d := d.forEach (List.range 32) fun d r => d.setF QNCH_GATE_ACCEPTED.COUNT 0 die r
    d.forEach (List.range (d.swg.cfg.fabricPorts die).length) fun d p => if d.portUp die p then d.setB FAB_PORT_STATUS.MEM_ACTIVE true die p else d
  (d.setB ROOT_STATUS.MEM_ACTIVE true).raiseB .RST_READY [p1 2, p4 ((d.now - d.rst.startAt) / 1000000)]

/-- GATES_REOPEN: step 6 of R270: the first ceiling is computed before Memory_Active is set (R214), and the restore record becomes
SERVING (R275). -/
def execGatesReopen (s : State) : Host.Outcome State Fault Refusal :=
  s.on fun d =>
    if !d.mayServe then d
    else
      let d := if d.ceil.computed then d else d.compute 0
      let d := { d with fab := { d.fab with mediaError := false } }
      let d := (d.openGates.setF RST_STATUS.PHASE 6).setF ROOT_STATUS.PHASE 6
      let part := (d.diesUp.filter fun die => d.fb RHT_DIE_STATUS.INDEX_PARTIAL die).length
      let d : Dev := match d.rht.restore with
        | none => d
        | some r =>
          let d := (d.restoreRecord r 1).modRestore fun r => { r with servingAt := d.now }
          d.setF RHT_STATUS.PHASE (if r.lazy then 5 else 6)
      d.raiseB .RHT_SERVING [p4 ((d.now - d.rht.p0) / 1000000), p4 part]

/-- SEGMENT_RESTORE: a segment has been read in full: whether it authenticates, and what the medium showed (R278 to R280, R283). -/
def execSegmentRestore (gen die num : Nat) (auth : Bool) (m : NandMedium) (s : State) : Host.Outcome State Fault Refusal :=
  s.on fun d => if d.rht.recorded then d.segRestore gen die num auth m else d

/-- INGOT_RELEASE (R282). -/
def execIngotRelease (s : State) : Host.Outcome State Fault Refusal := s.on fun d => d.ingotRelease

/-- RHT_DISCARD: a write of RHT_CTRL.DISCARD discards a held Ingot (R273). -/
def execRhtDiscard (s : State) : Host.Outcome State Fault Refusal :=
  s.on fun d => match d.rht.held with
    | none => d
    | some r =>
      let d := (d.setRht fun x => { x with held := none, scanned := true }).keyLost r
      (d.setF RHT_STATUS.PHASE 2).releaseIngots

end Sys2Proof.Machine
end

