-- ==== Sys2Proof/Machine/RstOps.lean ====
section
/-! DEFINITION. The reset domains (R553 to R564): what a reset keeps, the waits of a package reset, and the release that starts the
block up. -/

namespace Sys2Proof.Machine

open Sys2Proof

def Dev.setRst (d : Dev) (f : RstState → RstState) : Dev := { d with rst := f d.rst }

def Dev.setSvc (d : Dev) (f : SvcState → SvcState) : Dev := { d with svc := f d.svc }

/-- RST_STATUS.PHASE, which ROOT_STATUS shows too (R565, R593). -/
def Dev.setPhase (d : Dev) (p : Nat) : Dev := (d.setF RST_STATUS.PHASE p).setF ROOT_STATUS.PHASE p

/-! ### What a reset keeps (R553, R565) -/

/-- Registers that show what the Temper store, the fuses or the counters of the Bellows die hold: they stand through every reset. -/
def storedRegs : List Reg :=
  [.FAB_AUTH_COUNT, .FAB_DSC, .FAB_SHUTDOWN_STATE, .SVC_LIFE, .SVC_WEIGHTED_S]

/-- Such fields. -/
def storedFlds : List Fld :=
  [SEC_STATUS.BLOB_EPOCH, SEC_STATUS.EPOCH_EXHAUSTED, SEC_STATUS.OWNER_LOCK, SEC_STATUS.DEBUG_LOCKED, SVC_VDD.BASE,
   SVC_DIE_STATUS.SLICE_REPLACED, SVC_DIE_STATUS.QUAD_REPLACED]

/-- Registers and fields that a package reset keeps besides, and cold power-on does not: RWS fields, the estimator's, the alarm latch,
and QNCH_IGNORED (R266, R438, R550, R553). -/
def warmRegs : List Reg := [.SEC_ALARM_CAUSE, .QNCH_IGNORED, .RST_WARM_COUNT, .RST_GLITCHES, .CEIL_E_BYTE, .CEIL_RATE]

def warmFlds : List Fld := [SEC_STATUS.ALARM, SEC_STATUS.TAMPER_CLASS, CEIL_STATUS.DRY_STALE, CEIL_STATUS.DEFAULTS]

/-- Whether a register field stands through a reset. -/
def keptReg (cold : Bool) (k : FKey) : Bool :=
  storedRegs.contains k.fld.reg || storedFlds.contains k.fld ||
    (!cold && (warmRegs.contains k.fld.reg || warmFlds.contains k.fld || rowsBELL.any fun r => decide (r.fld.reg = k.fld.reg)))

/-- The Temper store through a reset: its medium stays; a reset client's descriptors that have not started are gone (R484). -/
def TmpState.kept (t : TmpState) : TmpState :=
  { Dev.reset.tmp with mem := t.mem, undefWords := t.undefWords, undefSectors := t.undefSectors, remap := t.remap, retired := t.retired, spares := t.spares }

/-- A quench-flash channel through a reset: its table's log stays on the flash (R421). -/
def QChan.kept (c : QChan) : QChan := { attached := [], log := c.log, dirty := [], oldGeometry := false, fresh := c.fresh, tabled := false }

/-- Output pins that a package reset leaves as they are: the string switches (R438, R564). -/
def pinKept (p : String × Nat) : Bool := decide (p.1 = "STR_SW0") || decide (p.1 = "STR_SW1")

/-- The state right after a reset has taken effect, before it is released (R553, R564). Memory of the DIMMs is nowhere read again before it
is written; the tag store is written INVALID (R560). -/
def Dev.afterReset (d : Dev) (cold : Bool) : Dev :=
  let z := Dev.reset
  { z with
    now := d.now, free := d.free, out := d.out, regs := d.regs.filter fun e => keptReg cold e.1,
    pkg := { d.pkg with runningSlot := none },
    swg := if cold then z.swg else { z.swg with cfg := d.swg.cfg, energyBytes := d.swg.energyBytes },
    mbox := if cold then z.mbox else { z.mbox with timestamp := d.mbox.timestamp, timestampAt := d.mbox.timestampAt },
    evt := if cold then z.evt else { z.evt with queue := d.evt.queue, dropped := d.evt.dropped, fullSeen := d.evt.fullSeen },
    tmp := d.tmp.kept,
    ceil := { z.ceil with applied := if cold then none else d.ceil.applied },
    rht := { z.rht with lostBefore := d.rht.lostBefore },
    sec := { z.sec with tripping := d.sec.tripping, epoch := d.sec.epoch, ownerHash := d.sec.ownerHash, wrapped := d.sec.wrapped },
    rst := { d.rst with pending := none, window := none, discard := false, step := 0, enabled := [], good := [] },
    svc := { z.svc with weighted := d.svc.weighted, lifeStep := d.svc.lifeStep, serials := d.svc.serials },
    ppr := d.ppr, slag := d.slag,
    qfl := { d.qfl with chans := d.qfl.chans.map fun e => (e.1, e.2.kept), corrected := 0 },
    bell := if cold then z.bell else d.bell,
    pins := if cold then [] else d.pins.filter fun p => pinKept p.1 }

/-! ### The release (R559, R560) -/

/-- A start-up begins: the straps are latched, and the ROM runs. -/
def Dev.startUp (d : Dev) (st : Straps) : Dev :=
  let d := d.setRst fun r => { r with inReset := false, step := 2, startAt := d.now, stepAt := d.now, straps := st }
  let d := (d.setB RST_STATUS.COMPAT st.compat).setB ROOT_STATUS.COMPAT st.compat
  let d := (d.setF RST_STATUS.SB_ADDR (2 * b2n st.sb1 + b2n st.sb0)).setB RST_STATUS.RECOVERY st.recovery
  d.setPhase 0

/-- A step of R560 ends: its duration is kept and the next step comes. -/
def Dev.endStart (d : Dev) (k next : Nat) : Dev :=
  let d := d.setF RST_STEP_MS.MS (saturate 32 ((d.now - d.rst.stepAt) / 1000000)) 0 (k - 1)
  d.setRst fun r => { r with step := next, stepAt := d.now }

/-! ### A package reset (R555) -/

/-- The Hearth dies are powered down (R228, R601). -/
def Dev.diesDown (d : Dev) : Dev :=
  d.forEach d.dies fun d die =>
    let d := (d.setB HCB_STATUS.IN_SERVICE false die).emit (.pin "DIE_PWR_EN" die 0)
    d.setRst fun r => { r with enabled := r.enabled.filter (fun x => decide (x ≠ die)), good := r.good.filter fun x => decide (x ≠ die) }

/-- Step 5 of R555: the reset takes effect; where RESET_N has been released, start-up begins at once. -/
def Dev.takeReset (d : Dev) (p : PendingReset) (st : Straps) : Dev :=
  let d := (d.diesDown.afterReset false).incF RST_WARM_COUNT.COUNT
  let d := (d.setF RST_STATUS.LAST_CAUSE p.cause).setRst fun r => { r with inReset := true, dirty := p.dirty }
  if d.rst.asserted then d else d.startUp st

/-- The controllers of the drives that have not been shut down. -/
def Dev.controllersUp (d : Dev) : List (Nat × Nat) :=
  (d.diesUp.map fun die => (List.range (d.swg.cfg.rootPorts die).length).map fun p => (die, p)).flatten.filter fun p =>
    d.fb BACK_PORT_STATUS.CTRL_READY p.1 p.2

/-- A wait of the pending reset ends; its length is told after the reset (R555, R566). -/
def Dev.endWait (d : Dev) (p : PendingReset) : Dev :=
  d.setRst fun r => { r with deferred := r.deferred ++ [(p.waits, (d.now - p.since) / 1000000)] }

/-- The pending reset goes on: the drives are shut down unless a quench has run (R361), then the Temper store's operations end (R484), and
the reset takes effect. -/
def Dev.advanceReset (d : Dev) (drives : Bool) (st : Straps) : Dev :=
  match d.rst.pending with
  | none => d
  | some p =>
    let ctrls := d.controllersUp
    if drives && !ctrls.isEmpty then
      (d.forEach ctrls fun d c => d.shutdownCtrl c).setRst fun r => { r with pending := some { p with waits := 1, since := d.now } }
    else if !d.tmp.running.isEmpty then d.setRst fun r => { r with pending := some { p with waits := 2, since := d.now } }
    else d.takeReset p st

/-- The window of R557 ends. -/
def Dev.endNqWindow (d : Dev) : Dev := (d.setRst fun r => { r with window := none }).setB RST_STATUS.NQ_ARMED false

/-- A package reset is decided (R548, R555): cause 1 RESET_N, 4 an alarm. `tamper`: no quench runs (R548). -/
def Dev.decideReset (d : Dev) (cause : Nat) (tamper : Bool) (st : Straps) : Dev :=
  if d.rst.inReset || !d.rst.powered then d
  else
    let p : PendingReset := ⟨cause, d.D, 0, d.now⟩
    let armed := d.rst.window.isSome && decide (cause = 1)
    let d := if cause = 1 then d.endNqWindow else d
    let keep (d : Dev) (c : Nat) : Dev := d.setRst fun r => { r with pending := some (r.pending.getD { p with cause := c }) }
    let sanitizing : Bool := match d.mbox.background with | some (.sanitize, _) => true | _ => false
    if d.quenching then keep (d.trip 4) (if cause = 1 then 2 else cause)
    else if d.rst.pending.isSome then d
    else if !tamper && d.heat.opened && (decide (d.D ≠ 0) || sanitizing) then
      let d := keep (d.trip 4) (if armed && decide (d.D ≠ 0) then 3 else if cause = 1 then 2 else cause)
      if armed && decide (d.D ≠ 0) then
        (d.setRst fun r => { r with discard := true }).modQuench fun q => { q with empty := true }
      else d
    else
      let d := { d with fence := true }
      (keep d cause).advanceReset true st

/-! ### Cold power-on (R461, R553, R606) -/

/-- The learned values of a string from its newest record (R460, R461). -/
def Dev.loadString (d : Dev) (n : Nat) : Dev :=
  let d := d.setB BELL_STR_STATUS.UNKNOWN true 0 n
  match d.newest lvRings fun r => decide (r.magic = magicLVRS ∧ r.at 16 1 = n) with
  | none => d
  | some r =>
    let d := d.modBstr n fun s => { s with known := true, thru := 1000 * r.at 48 8, lastLearn := r.at 60 4 }
    let d := (d.setSerial n (r.at 24 16)).setB BELL_STR_STATUS.LEARNED (bit (r.at 17 1) 0) 0 n
    let d := d.setB BELL_STR_STATUS.CONFLICT (bit (r.at 17 1) 3) 0 n
    let d := (d.setF BELL_STR_CAP.MC (r.at 40 8) 0 n).setF BELL_STR_R_EST.UOHM (r.at 56 4) 0 n
    if bit (r.at 17 1) 2 then d.schedule' n 1 else d

/-- The estimator at Bellows POR: learned values and BELL_LIFE_S from the journal; no charge is known (R446, R461). -/
def Dev.loadLearned (d : Dev) : Dev :=
  let rs := (d.ringsRecords lvRings).filter fun r => decide (r.magic = magicLVRS ∨ r.magic = magicLVDQ)
  let d := d.setBell fun b => { b with lifeBase := maxOf (rs.map fun r => r.at 20 4), lifeAt := d.now }
  let d := (d.setF BELL_JOURNAL_SEQ.SEQ (maxOf (rs.map (·.seq)))).forEach (List.range 8) fun d n => d.loadString n
  match d.newest lvRings fun r => decide (r.magic = magicLVDQ) with
  | some r => d.setCeil fun c => { c with applied := some (r.at 24 4, r.at 28 4, r.at 20 4) }
  | none => d

/-- The counters and the weighted seconds that the counter rings hold (R466, R578). -/
def Dev.loadCounters (d : Dev) : Dev :=
  let d := match d.newest counterRings fun r => decide (r.magic = magicFCNT) with
    | some r => ((d.setF FAB_AUTH_COUNT.COUNT (r.at 16 4)).setF FAB_DSC.COUNT (r.at 20 4)).setF FAB_SHUTDOWN_STATE.DIRTY (r.at 24 1)
    | none => d
  d.setSvc fun s => { s with weighted := d.dies.filterMap fun die =>
    (d.newest counterRings fun r => decide (r.magic = magicLIFE ∧ r.at 16 8 = die)).map fun r => (die, r.at 24 8) }

/-- A Temper store operation cut off (R483): the words of the running group (128 words) of a program are undefined, those of later groups
are as before; of an erase, the whole sector. -/
def Dev.cutOff (d : Dev) (group : Nat) (r : TmpRun) : Dev :=
  if r.op = .eraseSector then
    d.setTmp fun t => { t with undefSectors := dedup (t.undefSectors ++ [d.physSector (r.addr / 4096)]) }
  else
    let first := 128 * group
    let ws := (List.range r.words).filter fun i => decide (first ≤ i ∧ i < first + 128)
    let after := first + 128
    let d := d.setTmp fun t => { t with undefWords := dedup (t.undefWords ++ ws.map fun i => d.phys (r.addr + 8 * i) / 8) }
    if r.words ≤ after then d else d.tmpPut (r.addr + 8 * after) (r.old.drop (8 * after))

/-- The end of a quench with its supplies gone (R228, R442): one learned-values record a string, every string ISOLATED, dies down. -/
def Dev.powerDown (d : Dev) : Dev :=
  let d := d.forEach d.strings fun d n => d.lvRecord n
  let d := d.forEach d.strings fun d n => ((d.setF BELL_STR_STATUS.SWITCH 0 0 n).setPin "STR_SW0" n 0).setPin "STR_SW1" n 0
  { d.diesDown with poweredDown := true }

end Sys2Proof.Machine
end

