-- ==== Sys2Proof/Machine/SvcOps.lean ====
section
/-! DEFINITION. Spares and wear (R567 to R580), and a die taken out of service (R19). -/

namespace Sys2Proof.Machine

open Sys2Proof

/-! ### A die out of service (R19, R262) -/

/-- The requests for the slabs of a die that goes out of service: a read is served through the twin where the twin holds the slab, and is
else answered with poison; a write that has not passed its lock is not stored and not completed; one that waits for MIRROR_ACK completes
with it. -/
def Dev.dropDieReqs (d : Dev) (die : Nat) : Dev :=
  d.forEach (d.cru.reqs.filter fun r => decide ((d.place r.slab).die = die ∧ r.wait ≠ .fetch ∧ r.wait ≠ .mirrorAck)) fun d r =>
    if r.isRead then (if d.twinHolds r.slab then (d.hold r .fetch).fetch r.slab else d.finishRead r true) else d.endReq r.rid

/-- What the slices of a die held is gone. -/
def Dev.dropDieSlabs (d : Dev) (die : Nat) : Dev :=
  let on := fun (slab : Nat) => decide ((d.place slab).die = die)
  d.setCru fun c =>
    { c with tags := c.tags.filter fun e => decide (e.1.set.die ≠ die), dram := c.dram.filter fun e => !on e.1.1,
             be := c.be.filter fun e => !on e.1.1, poison := c.poison.filter fun e => !on e.1,
             frameless := c.frameless.filter fun x => !on x, fills := c.fills.filter fun e => !on e.1,
             destages := c.destages.filter fun e => !on e.1, notBefore := c.notBefore.filter fun e => !on e.1,
             idleDue := c.idleDue.filter fun x => !on x, first := c.first.filter fun x => !on x,
             staging := c.staging.filter fun e => !on e.2.slab, evicting := c.evicting.filter fun x => !on x,
             rebuilds := c.rebuilds.filter fun e => decide (e.1.die ≠ die), fetched := c.fetched.filter fun e => !on e.1,
             recover := c.recover.filter fun e => !on e.1, maints := c.maints.filter fun m => decide (m.onDie ≠ some die) }

/-- The ports of a die are down. -/
def Dev.dropDiePorts (d : Dev) (die : Nat) : Dev :=
  let d := d.forEach (List.range (d.swg.cfg.fabricPorts die).length) fun d p => (d.linkOff die p).dropPortMessages die p
  let d := d.forEach (List.range (d.swg.cfg.rootPorts die).length) fun d p =>
    ((d.setB BACK_PORT_STATUS.LINK_UP false die p).setB BACK_PORT_STATUS.CTRL_READY false die p).ctrlFail (die, p) 13
  d.forEach ([(die, 0), (die, 1)].filter fun l => decide (d.linkState l ≠ 0)) fun d l => (d.linkLost l 1).linkDown l 0

/-- A die that fails in a quench (R262): what it had not programmed stays unwritten, and it has no trailer unless that stands already;
the units of other dies that its NAND dies were programming, or were to take, go elsewhere. -/
def Dev.dieInQuench (d : Dev) (die : Nat) : Dev :=
  match d.quench with
  | none => d
  | some q =>
    let hit := (q.parts.map fun e => (e.2.placed.filter fun p => !p.done && decide (p.key.die = die ∧ e.1 ≠ die)).map fun p => (e.1, p.unit)).flatten
    let gone := q.gone ++ (d.qchansOf die).filter fun c => !q.gone.contains c
    let stands (p : QDie) : Bool := p.placed.any fun x => match x.unit.unit with | .trailer _ => x.done | _ => false
    let d := d.modQuench fun q =>
      { q with gone := gone, parts := q.parts.map fun e => (e.1,
          if e.1 = die then { e.2 with waiting := [], placed := e.2.placed.filter (·.done), trailer := if stands e.2 then e.2.trailer else none }
          else { e.2 with placed := e.2.placed.filter fun p => p.done || decide (p.key.die ≠ die) }) }
    let d := d.forEach hit fun d h => d.rewriteUnit h.1 h.2
    let homeless := match d.quench with
      | some q => (q.parts.map fun e => (e.2.waiting.filter fun (u : QUnit) => match u.chan with | some c => decide (c.1 = die) | none => false).map
          fun u => (e.1, u)).flatten
      | none => []
    (d.forEach homeless fun d h =>
      (d.modQuench fun q => q.modPart h.1 fun p => { p with waiting := dropFirst (fun v => decide (v = h.2)) p.waiting }).rewriteUnit h.1 h.2).qPump

/-- A die is taken out of service (R19, R575): cause 0 its link, 1 a slice, 2 its self-test. The Dirty Shutdown Count moves at the next
start-up if it held dirty sectors that no twin holds (R95). `retire`: the die itself is retired for good (R576); else it comes back at the
next reset. -/
def Dev.dieOut (d : Dev) (die cause : Nat) (retire : Bool) : Dev :=
  if !d.inService die then d
  else
    let lost := d.validTags.any fun e => decide (e.1.set.die = die ∧ e.2.mask ≠ 0) && !d.twinHoldsAt e.2.slab (d.heatOf e.2.heat)
    let d := (d.setB HCB_STATUS.IN_SERVICE false die).setF HCB_STATUS.HEALTH 2 die
    let d := d.setF RST_DIE_OUT.OTHER (d.f RST_DIE_OUT.OTHER ||| 2 ^ (die - 1))
    let d : Dev :=
      if d.quenching then d.dieInQuench die
      else
        let d := if lost then d.setRht fun x => { x with lostBefore := some 3 } else d
        let d := (((d.dropDieReqs die).dropDieSlabs die).dropDiePorts die)
        let d := d.setHeat fun h => { h with dirs := tdel h.dirs die }
        { d with fab := { d.fab with d2d := d.fab.d2d.filter fun l => decide (l.1 ≠ die) } }
    let d := if retire then d.slagAdd 6 0 die ([6, 1, 7].getD cause 6) else d
    d.raise .SVC_DIE_OUT die [p1 die, p1 cause]

/-! ### Slices (R37, R569, R570) -/

/-- The spare slice of a die can take over: it has passed its self-test and replaces no slice. -/
def Dev.spareSlice (d : Dev) (die : Nat) : Bool :=
  d.fb SVC_DIE_STATUS.SPARE_SLICE_OK die && decide (d.f SVC_DIE_STATUS.SLICE_REPLACED die = 0xF)

/-- The spare slice takes over the ID, HCB and addresses of a slice; its former ID presents the failed one as RETIRED (R37). -/
def Dev.spareTakes (d : Dev) (die slice : Nat) : Dev :=
  let h := 16 * die + 8
  let d := (d.setF SVC_DIE_STATUS.SLICE_REPLACED slice die).setF HCB_STATUS.HEALTH 3 h
  (d.setB HCB_STATUS.SPARE_IDLE false h).setB HCB_STATUS.IN_SERVICE false h

/-- A slice has failed (R570), with its cause by R576; without a usable spare the die is taken out of service. -/
def Dev.sliceFails (d : Dev) (die slice cause : Nat) : Dev :=
  if !d.inService die || decide (8 ≤ slice) then d
  else if d.spareSlice die then
    let d := (d.spareTakes die slice).slagAdd 1 die slice cause
    (d.raise .SVC_SLICE_SPARED die [p1 slice, p1 cause]).exhaust 0 die
  else d.dieOut die 1 true

/-! ### Lane quads (R571) -/

/-- Quad 16 of a die can replace a quad. -/
def Dev.spareQuad (d : Dev) (die quad : Nat) : Bool :=
  d.inService die && decide (quad < 16) && bit (d.swg.cfg.die die).spareRoute quad && decide (d.f SVC_DIE_STATUS.QUAD_REPLACED die = 0x1F) &&
    !d.svc.quad16Bad.contains die && !d.quenching

/-- The role of a quad (R50). -/
def Dev.quadRole (d : Dev) (die quad : Nat) : Nat := ((d.swg.cfg.die die).quads.getD quad ⟨0, 0, 0, 0⟩).role

/-- The lowest quad of the port that a quad belongs to (R51). -/
def Dev.portBase (d : Dev) (die quad : Nat) : Nat :=
  quad - quad % widthQuads ((d.swg.cfg.die die).quads.getD quad ⟨0, 0, 0, 0⟩).width

/-- Quad 16 replaces a quad (R571), with its cause by R576: an NVMe port's link is down, and its interval counts from 2 s later at the
latest; a Weld link is lost and trains again. -/
def Dev.quadMoves (d : Dev) (die quad cause : Nat) : Dev :=
  let role := d.quadRole die quad
  let d := (d.setF SVC_DIE_STATUS.QUAD_REPLACED quad die).slagAdd 2 die quad cause
  let d := (d.raise .SVC_QUAD_SPARED die [p1 quad, p1 role, p1 cause]).exhaust 1 die
  if role = 4 then
    d.forEach ((List.range 2).filter fun l => decide ((d.swg.cfg.weldLinks die)[l]? = some (d.portBase die quad))) fun d l => d.linkLost (die, l) 1
  else
    let ports := (List.range (d.swg.cfg.rootPorts die).length).filter fun p => decide ((d.swg.cfg.rootPorts die)[p]? = some quad)
    d.forEach ports fun d p =>
      let d := ((d.setB BACK_PORT_STATUS.LINK_UP false die p).setF BACK_PORT_STATUS.WIDTH 0 die p).setF BACK_PORT_STATUS.RATE 0 die p
      d.setBack fun b => { b with downAt := tset b.downAt (die, p) (d.now + 2000000000) }

/-! ### Smith cores (R572) -/

/-- The buffers of a die's pool that its Smith cores own are freed as by their owner (R494, R572). -/
def Dev.freeSmithBufs (d : Dev) (die : Nat) : Dev :=
  d.forEach (d.pool.bufs.filter fun e => decide (e.1.die = die ∧ e.2.owner = 30 ∧ e.2.pending = false)) fun d e =>
    if e.2.share = 0 then d.dropBuf e.1 else d.setBuf e.1 { e.2 with pending := true }

/-- Whether the standby core of a die can take over. -/
def Dev.standby (d : Dev) (die : Nat) : Bool := d.inService die && d.fb SVC_DIE_STATUS.STANDBY_OK die

/-- The active Smith core has failed (R572), with its cause by R576. With no standby, both have. -/
def Dev.smithFails (d : Dev) (die cause : Nat) : Dev :=
  if !d.inService die || d.smithDead die then d
  else
    let a := d.f SVC_DIE_STATUS.SMITH_ACTIVE die
    let has := d.standby die
    let d := d.slagAdd 3 die a cause
    let d := d.forEach (List.range 4) fun d c => (d.abortStep die c 2).modChan die c fun x => { x with runWait := none }
    let d := d.freeSmithBufs die
    if has then
      ((d.setF SVC_DIE_STATUS.SMITH_ACTIVE (1 - a) die).setB SVC_DIE_STATUS.STANDBY_OK false die).raise .SVC_SMITH_SWITCH die [p4 a, p1 cause]
    else d.exhaust 2 die

/-! ### Ranks (R574) -/

/-- The mapping of a rank switches to the spare rank: the old rank is retired into self-refresh. -/
def Dev.rankSwitch (d : Dev) (die c rank cause ms : Nat) : Dev :=
  match (d.chan die c).spare with
  | none => d
  | some sp =>
    let d := d.modChan die c fun x => { x with map := x.map.map (fun r => if r = rank then sp else r), spare := none, copy := none }
    let d := ((d.setB CHAN_RANK_STATUS.MAPPED false die c rank).setB CHAN_RANK_STATUS.MAPPED true die c sp).setB CHAN_RANK_STATUS.SPARE false die c sp
    let d := d.setB CHAN_RANK_STATUS.SELF_REFRESH true die c rank
    let d := d.slagAdd 4 die (8 * c + rank) cause
    (d.raise .SVC_RANK_SPARED die [p1 (gchan die c), p1 rank, p4 ms]).exhaust 5 die

/-- The copy of a channel ends (R574); a freeze or a training step on either rank pauses it. -/
def Dev.copyDone (d : Dev) (die c : Nat) : Dev :=
  let x := d.chan die c
  match x.copy with
  | none => d
  | some k =>
    let training := match x.run with | some r => decide (r.rank = k.rank ∨ some r.rank = x.spare) | none => false
    if d.quenching || training || decide (d.chanState die c = 3) then d
    else (d.setF SVC_RANK_COPY.PERMILLE 1000 die c).rankSwitch die c k.rank k.cause ((d.now - k.start) / 1000000)

/-! ### SVC_CMD (R579) -/

/-- A command that Smith core firmware writes with GO: it ends with a status. It is ignored while BUSY, on a die without firmware, and
from power shed on (R236). -/
def Dev.svcCmd (d : Dev) (die op target : Nat) (act : Dev → Dev × Status) : Dev :=
  let shed : Bool := match d.quench with | some q => q.shed.contains die | none => false
  if !d.inService die || d.smithDead die || shed || d.fb SVC_CMD_STATUS.BUSY die then d
  else
    let d := ((d.setF SVC_CMD.OP op die).setF SVC_CMD.TARGET target die).setB SVC_CMD_STATUS.DONE false die
    let (d, st) := act d
    (d.setB SVC_CMD_STATUS.DONE true die).setF SVC_CMD_STATUS.STATUS st.code die

/-! ### Voltage and life (R577, R578, R602) -/

/-- The setpoint that a requirement asks for: steps of 5 mV within 0.65 to 0.85 V. -/
def vddTarget (need : Nat) : Nat := Nat.max 650 (Nat.min 850 ((need + 4) / 5 * 5))

/-- The voltage controller of a die reads its ring oscillators: `lowest` is the lowest voltage in mV at which every island meets its clock,
`island` the one that needs it, `ack` the regulator's answer. A step of 5 mV is made, downwards at most once per 10 s; between T0 and the
end of a quench the controller changes nothing. -/
def Dev.vddControl (d : Dev) (die lowest island : Nat) (ack : Bool) : Dev :=
  if !d.inService die || d.quenching then d
  else
    let need := lowest + 10
    let d := d.setF SVC_VDD.NEEDED (saturate 10 need) die
    let now := d.f SVC_VDD.SETPOINT die
    let mayFall := match tget d.svc.vddAt die with | some t => decide (t + 10000000000 ≤ d.now) | none => true
    if now < vddTarget need then d.sendVdd die (now + 5) need island ack
    else if vddTarget need < now && mayFall then
      (d.sendVdd die (now - 5) need island ack).setSvc fun s => { s with vddAt := tset s.vddAt die d.now }
    else d.sendVdd die now need island true

/-- 2^(k/10) in units of 2^-32, rounded down, for k = 0 to 9. -/
def tenths : List Nat :=
  [4294967296, 4603231970, 4933621867, 5287724991, 5667243323, 6074000999, 6509953083, 6977194956, 7477972397, 8014692369]

/-- The weight of a second at a junction temperature (R578): 2^((Tj − 95) / 10) in units of 2^-32 s. -/
def lifeWeight (tj : Int) : Nat :=
  let e := tj - 95
  let w := tenths.getD (e % 10).toNat 0
  if 0 ≤ e / 10 then w * 2 ^ (e / 10).toNat else w / 2 ^ (-(e / 10)).toNat

/-- 100 × L_T of a die, rounded down (R578). -/
def Dev.lifeT (d : Dev) (die : Nat) : Nat := 100 * tgetD d.svc.weighted die 0 / (788940000 * 2 ^ 32)

/-- 100 × L_V of a die, rounded down (R578). -/
def Dev.lifeV (d : Dev) (die : Nat) : Nat :=
  let base := d.f SVC_VDD.BASE die
  let need := d.f SVC_VDD.NEEDED die
  if need ≤ base then 0 else if 850 ≤ need then 100 else 100 * (need - base) / (850 - base)

/-- The life-used figures of the package (R578): the worst die in service. -/
def Dev.showLife (d : Dev) : Dev :=
  let lt := maxOf (d.diesUp.map d.lifeT)
  let lv := maxOf (d.diesUp.map d.lifeV)
  let used := Nat.min 100 (Nat.max lt lv)
  let d := ((d.setF SVC_LIFE.PERCENT used).setF SVC_LIFE.LT_PCT (saturate 8 lt)).setF SVC_LIFE.LV_PCT lv
  let d := d.setF SVC_WEIGHTED_S.S (maxOf (d.diesUp.map fun die => tgetD d.svc.weighted die 0) / 2 ^ 32)
  let d := if used / 10 = d.svc.lifeStep then d
    else (d.setSvc fun s => { s with lifeStep := used / 10 }).raiseR .SVC_LIFE_STEP [p1 used, p1 (saturate 8 lt), p1 lv]
  if used = 100 ∧ d.fb SVC_SPARE_STATUS.LIFE = false then
    (d.setB SVC_SPARE_STATUS.LIFE true).raiseR .SVC_SPARE_EXHAUSTED
      [p1 9, p1 ((d.diesUp.find? fun die => decide (100 ≤ Nat.max (d.lifeT die) (d.lifeV die))).getD 0)]
  else d

/-- A second of operation of a die at its highest junction reading (R578). -/
def Dev.lifeTick (d : Dev) (die : Nat) (tj : Int) : Dev :=
  if !d.inService die then d
  else
    let d := d.setF HCB_TJ.TJ (temp8 tj) die
    (d.setSvc fun s => { s with weighted := tset s.weighted die (tgetD s.weighted die 0 + lifeWeight tj) }).showLife

end Sys2Proof.Machine
end

