-- ==== Sys2Proof/Machine/Resets.lean ====
section
/-! DEFINITION. The meanings of the reset commands (R228, R553 to R558, R562, R606). The start-up steps stand in Machine/Startup.lean. -/

namespace Sys2Proof.Machine

open Sys2Proof

/-- RESET_N_ASSERT (R554, R555): RESET_N has been low for `lowNs`; a pulse below 1 µs is counted only. -/
def execResetNAssert (lowNs : Nat) (st : Straps) (s : State) : Host.Outcome State Fault Refusal :=
  s.on fun d =>
    if !d.rst.powered || d.rst.asserted then d
    else if lowNs < 1000 then d.incF RST_GLITCHES.COUNT
    else (d.setRst fun r => { r with asserted := true }).decideReset 1 false st

/-- RESET_N_RELEASE (R555, R559). -/
def execResetNRelease (st : Straps) (s : State) : Host.Outcome State Fault Refusal :=
  s.on fun d =>
    let d := d.setRst fun r => { r with asserted := false }
    if d.rst.inReset then d.startUp st else d

/-- NQ_WINDOW_EXPIRE (R557). -/
def execNqWindowExpire (s : State) : Host.Outcome State Fault Refusal :=
  s.on fun d => match d.rst.window with
    | some t => ((d.until t).raiseB .RST_NQ_EXPIRED []).endNqWindow
    | none => d

/-- The wait of a pending reset has ended (R555). -/
def Dev.resetProceeds (d : Dev) (st : Straps) : Dev :=
  match d.rst.pending with
  | none => d
  | some p =>
    if p.waits = 0 then (if d.quenching then d else (d.endWait p).advanceReset false st)
    else if p.waits = 1 then (d.endWait p).advanceReset false st
    else if d.tmp.running.isEmpty then (d.endWait p).takeReset p st
    else d

/-- RESET_PROCEED (R555): the drives are shut down, or their second has passed, or the Temper store's operations have ended. -/
def execResetProceed (st : Straps) (s : State) : Host.Outcome State Fault Refusal := s.on fun d => d.resetProceeds st

/-- The end of a quench (R228, R238, R442, R555): a reset that waits goes on; else the device starts up again where the supplies are
back, and powers its dies down where they are not. -/
def Dev.quenchEnds (d : Dev) (q : Quench) (supplies : Bool) (st : Straps) : Dev :=
  let d := { (d.setPin "QUENCH_OUT" 0 0) with quenching := false, quench := none }
  match d.rst.pending with
  | some p => (d.endWait p).advanceReset q.sanitize st
  | none =>
    if supplies then
      (d.setRst fun r => { r with pending := some ⟨5, d.D, 0, d.now⟩ }).advanceReset false st
    else d.powerDown

/-- QUENCH_END (R228): `mainOk`, `holdOk`: the supplies stand above their thresholds. A quench ends once its commit pointer has been
programmed or has failed (R255, R263). -/
def execQuenchEnd (mainOk holdOk : Bool) (st : Straps) (s : State) : Host.Outcome State Fault Refusal :=
  s.on fun d => match d.quench with
    | some q => if q.pointer.isSome then d.quenchEnds q (mainOk && holdOk) st else d
    | none => d

/-- VDD_AON falls (R483, R553, R606): a Temper store operation is cut off, and everything but the stored state is gone. Dirty data that
no commit record covers is lost (R95). -/
def Dev.aonFalls (d : Dev) (group : Nat) : Dev :=
  let lost := d.heat.opened && decide (d.D ≠ 0) && !d.poweredDown && !(d.quenching && d.committed)
  let d := d.forEach d.tmp.running fun d r => d.cutOff group r
  let d := (d.diesDown.afterReset true).setRst fun r => { r with powered := false, inReset := false, deferred := [], recovered := none }
  if lost then d.setRht fun x => { x with lostBefore := some 0 } else d

/-- VDD_AON_FALL (R606). -/
def execVddAonFall (group : Nat) (s : State) : Host.Outcome State Fault Refusal :=
  s.on fun d => if d.rst.powered then d.aonFalls group else d

/-- The start of the Bellows die (R461, R466, R553, R559): what the Temper store keeps is read, the straps are latched, and the ROM runs
unless RESET_N is low. The time that step 1 took is a free value below 3 ms (assumption 3). -/
def Dev.aonRises (d : Dev) (st : Straps) : Dev :=
  let d := (d.setRst fun r => { r with powered := true }).setF RST_STATUS.LAST_CAUSE 0
  let d := d.loadLearned.loadCounters
  let d := d.setB TMP_STATUS.SPARE_EXHAUSTED d.tmp.spares.isEmpty
  let d := d.tick.setF RST_STEP_MS.MS (d.freeVal % 3) 0 0
  if d.rst.asserted then d.setRst fun r => { r with inReset := true } else d.startUp st

/-- BELLOWS_POR (R606): a device that has not lost VDD_AON before loses it first. -/
def execBellowsPor (st : Straps) (s : State) : Host.Outcome State Fault Refusal :=
  s.on fun d => ((if d.rst.powered then d.aonFalls 0 else d).aonRises st)

/-- ROM_RESET_REQUEST (R562): the vendor opcode 0xC0FF in ROM recovery starts a package reset. -/
def execRomResetRequest (st : Straps) (s : State) : Host.Outcome State Fault Refusal :=
  s.on fun d =>
    if d.f RST_STATUS.PHASE = 8 ∧ d.rst.powered = true ∧ d.rst.inReset = false then
      let d := d.mbVendor .sideband 0xC0FF .ok []
      (d.setRst fun r => { r with pending := some ⟨6, 0, 0, d.now⟩ }).advanceReset false st
    else d

end Sys2Proof.Machine
end

