-- ==== Sys2Proof/Machine/Swage.lean ====
section
/-! DEFINITION. The meanings of the Swage copy checks (R63, R75, R76). The load at start-up stands in Machine/Startup.lean. -/

namespace Sys2Proof.Machine

open Sys2Proof

/-- The result field of a copy. -/
def resultField (copy : Nat) : Fld := if copy = 0 then SWG_STATUS.RESULT_A else SWG_STATUS.RESULT_B

/-- A copy's check begins: CHECK_BUSY, and NOT_CHECKED while it runs; ignored while a check is in progress (R76). -/
def Dev.startCheck (d : Dev) (copy : Nat) : Dev :=
  if d.fb SWG_CHECK.CHECK_BUSY then d
  else
    let d := (d.setB SWG_CHECK.CHECK_BUSY true).setF (resultField copy) 0xF
    { d with swg := { d.swg with checking := some copy } }

/-- The result of a copy's verification in its field; a copy that fails is reported (R77). -/
def Dev.copyResult (d : Dev) (copy code : Nat) : Dev :=
  let d := d.setF (resultField copy) code
  if code = 0 then d else d.raiseB .SWAGE_COPY_INVALID [p1 copy, p4 code]

/-- SWG_CHECK_A (R76). -/
def execSwgCheckA (s : State) : Host.Outcome State Fault Refusal := s.on fun d => d.startCheck 0

/-- SWG_CHECK_B (R76). -/
def execSwgCheckB (s : State) : Host.Outcome State Fault Refusal := s.on fun d => d.startCheck 1

/-- SWG_CHECK_DONE (R63, R76): the copy is verified as it stands; the signature's outcome and the bank capacity that the DIMMs'
SPD reports come with the command. -/
def execSwgCheckDone (signatureOk : Bool) (bank : Nat) (s : State) : Host.Outcome State Fault Refusal :=
  s.on fun d =>
    match d.swg.checking with
    | none => d
    | some copy =>
      let code := (verifyImage ⟨d.pkg.part, d.pkg.ownerKeyId, signatureOk, bank, none⟩ (d.copyRead copy)).1
      let d := (d.setB SWG_CHECK.CHECK_BUSY false).copyResult copy code
      { d with swg := { d.swg with checking := none } }

end Sys2Proof.Machine
end

