-- ==== Sys2Proof/Machine/Startup.lean ====
section
/-! DEFINITION. The meanings of the start-up steps (R559 to R563, R600): the ROM and its recovery, the supervisor's checks, the Swage load,
the fence-wire test, the power-up of the dies, the population check, initial training and the tag store. Reheat's steps stand in
Machine/Reheat.lean. -/

namespace Sys2Proof.Machine

open Sys2Proof

/-- Whether a step of R560 comes next. -/
def Dev.atStep (d : Dev) (k : Nat) : Bool := decide (d.rst.step = k) && d.rst.powered && !d.rst.inReset && d.rst.pending.isNone

/-- The start-up ends before P0 (R64, R98, R562, R563). -/
def Dev.stopAt (d : Dev) (phase : Nat) : Dev := (d.setPhase phase).setRst fun r => { r with step := 0 }

/-! ### The ROM (R525, R561, R562) -/

/-- The slot that the newest FWSL record names; slot A without one (R561). -/
def Dev.namedSlot (d : Dev) : Nat :=
  match d.newest counterRings fun r => decide (r.magic = magicFWSL) with
  | some r => r.at 16 1
  | none => 0

/-- The highest SEQ of the records that commit records hold (R508). -/
def Dev.commitHigh (d : Dev) : Nat :=
  maxOf (d.qfl.units.map fun e => match e.2 with | .commit c => maxOf (c.events.map (·.seq)) | _ => 0)

/-- The straps as one byte, in the order of RST_STATUS (R565). -/
def strapsByte (st : Straps) : Nat := b2n st.compat + 2 * (2 * b2n st.sb1 + b2n st.sb0) + 8 * b2n st.recovery

/-- The firmware starts: event numbering resumes, the leaves are scanned, and the events of the reset, of the store and of the ROM are told (R481, R508, R511,
R566). The slot item of RST_ROM_RECOVERY is a free value where recovery wrote none. -/
def Dev.firmwareStarts (d : Dev) (fallback : Option (Nat × Nat)) : Dev :=
  let d := d.seqStart d.commitHigh
  let d := d.forEach (List.range 9) fun d k => d.leafScan k
  let d := if d.f RST_STATUS.LAST_CAUSE = 0 then
      (d.raiseB .TMP_REMAP_RECOVERED [p4 (d.ringsRecords remapRings).length, p4 d.tmp.remap.length, p4 d.tmp.retired.length]).raiseB
        .RST_COLD_START [p1 (strapsByte d.rst.straps)]
    else d.raiseB .RST_RESET [p1 (d.f RST_STATUS.LAST_CAUSE), p8 d.rst.dirty]
  let d := d.forEach d.rst.deferred fun d e => d.raiseB .RST_RESET_DEFERRED [p1 e.1, p4 e.2]
  let d : Dev := match d.rst.recovered with
    | some (cause, slot) => d.tick.raiseB .RST_ROM_RECOVERY [p1 cause, p1 (slot.getD d.freeVal)]
    | none => d
  let d := d.setRst fun r => { r with deferred := [], recovered := none }
  match fallback with
  | some (slot, cause) => d.raiseB .RST_FW_FALLBACK [p1 slot, p1 cause]
  | none => d

/-- The ROM enters recovery, with its cause: 0 the strap, 1 both slots (R562). -/
def Dev.romRecovers (d : Dev) (cause : Nat) : Dev :=
  ((d.stopAt 8).setPkg fun x => { x with runningSlot := none }).setRst fun r => { r with recovered := some (cause, none) }

/-- Why a slot does not verify, if it does not (R525, R566): 0 signature, 1 length, 2 read. -/
def Dev.slotFails (d : Dev) (slot : Nat) (seen : Option Nat) : Option Nat :=
  match seen with
  | some c => some c
  | none => if ((d.rst.fw[slot]?).map (·.ok)).getD false then none else some 0

/-- The ROM runs a slot (R561). -/
def Dev.runSlot (d : Dev) (slot : Nat) (fallback : Option (Nat × Nat)) : Dev :=
  let d := d.setPkg fun x => { x with runningSlot := some slot }
  let d := (d.setF RST_STATUS.FW_SLOT slot).setB RST_STATUS.FW_FALLBACK fallback.isSome
  ((d.firmwareStarts fallback).setPhase 1).endStart 2 3

/-- STARTUP_ROM_VERIFY (R525, R561, R562): step 2 of R560. `failA`, `failB`: why a slot does not verify. -/
def execStartupRomVerify (failA failB : Option Nat) (s : State) : Host.Outcome State Fault Refusal :=
  s.on fun d =>
    if !d.atStep 2 then d
    else if d.rst.straps.recovery then d.romRecovers 0
    else
      let named := d.namedSlot % 2
      let fails (slot : Nat) : Option Nat := d.slotFails slot (if slot = 0 then failA else failB)
      match fails named with
      | none => d.runSlot named none
      | some cause => match fails (1 - named) with
        | none => d.runSlot (1 - named) (some (named, cause))
        | some _ => d.romRecovers 1

/-- Whether ROM recovery serves the sideband (R562). -/
def Dev.inRecovery (d : Dev) : Bool := decide (d.f RST_STATUS.PHASE = 8) && d.rst.powered && !d.rst.inReset

/-- The two firmware slots (R106): slots supported, the active and the staged slot, no online activation, and the revisions. -/
def Dev.fwInfo (d : Dev) : Fields :=
  let active := match d.pkg.runningSlot with | some k => k + 1 | none => 0
  let staged := if d.pkg.runningSlot = some (d.namedSlot % 2) then 0 else d.namedSlot % 2 + 1
  [(1, 2), (1, active + 8 * staged), (1, 0), (13, 0), (16, ((d.rst.fw[0]?).map (·.revision)).getD 0), (16, ((d.rst.fw[1]?).map (·.revision)).getD 0),
   (32, 0)]

/-- ROM_GET_FW_INFO (R562). -/
def execRomGetFwInfo (s : State) : Host.Outcome State Fault Refusal :=
  s.on fun d => if d.inRecovery then d.mbOk .sideband 0x0200 d.fwInfo else d

/-- ROM_TRANSFER_FW (R562): either slot is written and then verified. -/
def execRomTransferFw (slot revision : Nat) (verifies : Bool) (s : State) : Host.Outcome State Fault Refusal :=
  s.on fun d =>
    if !d.inRecovery then d
    else if 2 ≤ slot then d.mbReply .sideband 0x0201 .invalidSlot .ok []
    else
      let d := d.setRst fun r => { r with fw := r.fw.set slot ⟨revision, verifies⟩, recovered := r.recovered.map fun x => (x.1, some slot) }
      if verifies then d.mbOk .sideband 0x0201 [] else d.tick.mbReply .sideband 0x0201 (.unstated d.freeVal) .authFail []

/-- ROM_ACTIVATE_FW (R561, R562): the FWSL record that names the slot. -/
def execRomActivateFw (slot : Nat) (s : State) : Host.Outcome State Fault Refusal :=
  s.on fun d =>
    if !d.inRecovery then d
    else if 2 ≤ slot then d.mbReply .sideband 0x0202 .invalidSlot .ok []
    else (d.counterRecord magicFWSL [p1 slot]).mbOk .sideband 0x0202 []

/-! ### The supervisor's checks and the Swage load (R63 to R65, R526, R528, R539, R550, R563, R615) -/

/-- STARTUP_CHECKS (R526, R528, R550, R563): step 3. `differs`: a die whose identity is not in the binding; `tripping`: the alarm sources
that still trip. -/
def execStartupChecks (differs : Option Nat) (tripping : Nat) (s : State) : Host.Outcome State Fault Refusal :=
  s.on fun d =>
    if !d.atStep 3 then d
    else
      let d := d.setSec fun x => { x with tripping := tripping }
      match differs with
      | some die => (d.raiseB .SEC_BINDING_FAIL [p1 die]).stopAt 9
      | none =>
        let d := d.setB SEC_STATUS.BINDING_OK true
        if tripping ≠ 0 then d.stopAt 9
        else
          let d := d.loadBlobs
          if !d.fb SEC_STATUS.OWNER_LOCK then (d.setB SWG_STATUS.NO_IMAGE true).stopAt 9
          else ((if d.fb SEC_DRBG_STATUS.HEALTHY then d.drawInto 7 4 else d).setPhase 2).endStart 3 4

/-- The registers that show the configuration in force (R59, R61, R177, R362, R387, R393, R503, R526). -/
def Dev.showCfg (d : Dev) : Dev :=
  let c := d.swg.cfg
  let d := d.setF HEAT_CTRL.LENGTH_US (match c.weld with | some w => w.heatLength | none => 1000)
  let digest := Config.backingDigest (c.backing.stripe :: (c.backing.nss.map fun n => [n.die, n.port, n.nsid, n.slabs]).flatten) % 2 ^ 128
  let d := (d.setF BACK_DIGEST.DIGEST (bits digest 0 64) 0 0).setF BACK_DIGEST.DIGEST (bits digest 64 64) 0 1
  let d := (d.setF BACK_KEY_CHECK.VALUE (Config.keyCheck d.back.xtsKey % 2 ^ 64)).setF SEC_POLICY.POLICY c.secPolicy
  let freeze := if c.dram.uePolicy = 0xFF then decide (d.pkg.part = .ogl8d) else decide (c.dram.uePolicy = 1)
  d.forEach d.dies fun d die =>
    let d := d.forEach (List.range (c.fabricPorts die).length) fun d p => d.setF FAB_PORT_STATUS.MODE (c.portMode die p) die p
    d.forEach (List.range 4) fun d k =>
      let d := (d.setF CHAN_STATUS.SPEED c.dram.speed die k).setB CHAN_STATUS.DPC2 (decide (c.dram.dpc = 2)) die k
      (d.setB CHAN_STATUS.SPARE_RANK (bit c.dram.chanFlags 0) die k).setB CHAN_STATUS.POLICY_FREEZE freeze die k

/-- The registers that a partial image can change too (R66, R68, R393, R503). -/
def Dev.showPartial (d : Dev) : Dev :=
  let c := d.swg.cfg
  d.forEach d.dies fun d die =>
    let d := (d.forEach (List.range 4) fun d k => d.setF POOL_BASE.OFFSET (d.classBase die k) die k).setF POOL_VIOL_LIMIT.LIMIT c.pools.violLimit die
    d.forEach (List.range 4) fun d k =>
      ((d.setF CHAN_RH_THRESHOLD.ACTS c.qos.rhThreshold die k).setF CHAN_RH_COOLDOWN.US c.qos.rhCooldown die k).setF CHAN_SR_IDLE.NS c.qos.srIdle die k

/-- The estimated resistance of a string that has learned none is its default (R453, R461). -/
def Dev.defaultStrings (d : Dev) : Dev :=
  d.forEach (List.range 8) fun d n => match d.swg.cfg.energy.strings[n]? with
    | some x => if (d.bstr n).known then d else d.setF BELL_STR_R_EST.UOHM x.rEst 0 n
    | none => d

/-- A copy becomes the configuration in force (R46, R63, R65, R77). -/
def Dev.loadImage (d : Dev) (copy : Nat) (cfg : SwgCfg) (ss : List Sect) : Dev :=
  let rd := d.copyRead copy
  let value : List Byte := match ss.find? fun x => decide (x.ty = 5) with
    | some x => (List.range x.len).map fun i => BitVec.ofNat 8 (rd (x.off + i) 1)
    | none => []
  let len := rd 8 4
  let hash := Config.imageHash (rd 0 (len - 96)) (len - 96)
  let d := { d with swg := { cfg := cfg, loaded := true, sealed := cfg.sealImage, partialSeq := none, partialBusy := false, checking := none,
                             energyBytes := value } }
  let d := (d.setF SWG_STATUS.ACTIVE_COPY copy).setB SWG_STATUS.SEALED cfg.sealImage
  let d := (d.setF SWG_SERIAL.SERIAL cfg.serial).setB ROOT_STATUS.UNSEALED (!cfg.sealImage)
  let d := d.forEach (List.range 12) fun d i => d.setF SWG_HASH.HASH (bits hash (32 * i) 32) 0 i
  let d := d.forEach (List.range 16) fun d j => d.setF SWG_MAP_MASK.MASK (cfg.dram.masks.getD j 0) 0 j
  d.showCfg.showPartial.defaultStrings.raiseB .SWAGE_LOADED [p1 copy, p4 cfg.serial, pB cfg.sealImage]

/-- SWAGE_LOAD (R63, R64): step 4. Both copies are verified and the selected one is loaded, or the no-image state is entered; the outcomes
of the signatures and the bank capacity come with the command. -/
def execSwageLoad (signatureA signatureB : Bool) (bank : Nat) (s : State) : Host.Outcome State Fault Refusal :=
  s.on fun d =>
    if !d.atStep 4 then d
    else
      let check (copy : Nat) (ok : Bool) := verifyImage ⟨d.pkg.part, d.pkg.ownerKeyId, ok, bank, none⟩ (d.copyRead copy)
      let a := check 0 signatureA
      let b := check 1 signatureB
      let d := (d.copyResult 0 a.1).copyResult 1 b.1
      if a.1 = 0 ∧ (b.1 ≠ 0 ∨ b.2.1.serial ≤ a.2.1.serial) then ((d.loadImage 0 a.2.1 a.2.2).setPhase 3).endStart 4 5
      else if b.1 = 0 then ((d.loadImage 1 b.2.1 b.2.2).setPhase 3).endStart 4 5
      else
        ((d.setB SWG_STATUS.NO_IMAGE true).raiseB .SWAGE_NO_IMAGE [p1 a.1, p1 b.1]).stopAt 7

/-! ### The fence wires and the dies (R30, R569, R572, R576, R600) -/

/-- A bit of RST_DIE_OUT set for a die. -/
def Dev.keepOut (d : Dev) (F : Fld) (die : Nat) : Dev := d.setF F (d.f F ||| 2 ^ (die - 1))

/-- Whether a die is kept out of service. -/
def Dev.keptOut (d : Dev) (die : Nat) : Bool := bit (d.f RST_DIE_OUT.FENCE_WIRE ||| d.f RST_DIE_OUT.OTHER) (die - 1)

/-- A retired unit of a die (R576). -/
def Dev.retired (d : Dev) (kind owner index : Nat) : Bool := d.slag.any fun e => decide (e.kind = kind ∧ e.owner = owner ∧ e.index = index)

/-- FENCE_WIRE_TEST (R30): step 5. Retired dies stay out as well (R576). -/
def execFenceWireTest (failed : List WireFault) (s : State) : Host.Outcome State Fault Refusal :=
  s.on fun d =>
    if !d.atStep 5 then d
    else
      let d := d.forEach (failed.filter fun w => d.isDie w.die) fun d w =>
        (d.keepOut RST_DIE_OUT.FENCE_WIRE w.die).raiseB .RST_FENCE_WIRE_FAIL [p1 w.die, pB (!w.trunk), p4 w.wire]
      let d := d.forEach (d.dies.filter fun die => d.retired 6 0 die) fun d die => (d.keepOut RST_DIE_OUT.OTHER die).setF HCB_STATUS.HEALTH 2 die
      d.endStart 5 6

/-- DIE_POWER_ENABLE (R600): step 6. -/
def execDiePowerEnable (die : Nat) (s : State) : Host.Outcome State Fault Refusal :=
  s.on fun d =>
    if !d.atStep 6 || !d.isDie die || d.keptOut die || d.rst.enabled.contains die then d
    else (d.setRst fun r => { r with enabled := r.enabled ++ [die] }).emit (.pin "DIE_PWR_EN" die 1)

/-- Once every die is up or kept out, the link and configuration level and the mailbox level are reached (R96), and the population check
comes. -/
def Dev.diesSettle (d : Dev) : Dev :=
  if d.dies.all fun die => d.rst.good.contains die || d.keptOut die then
    let ms := (d.now - d.rst.startAt) / 1000000
    let d := d.raiseB .RST_READY [p1 0, p4 ms]
    ((d.raiseB .RST_READY [p1 1, p4 ms]).setPhase 4).endStart 6 8
  else d

/-- DIE_PWR_EN of a die is lowered. -/
def Dev.lowerPower (d : Dev) (die : Nat) : Dev :=
  (d.setRst fun r => { r with enabled := r.enabled.filter (fun x => decide (x ≠ die)), good := r.good.filter fun x => decide (x ≠ die) }).emit
    (.pin "DIE_PWR_EN" die 0)

/-- A die is kept out of service at its power-up (R600), with the cause item of SVC_DIE_OUT. -/
def Dev.dieStaysOut (d : Dev) (die cause : Nat) : Dev :=
  let d := ((d.lowerPower die).keepOut RST_DIE_OUT.OTHER die).setF HCB_STATUS.HEALTH 2 die
  d.raise .SVC_DIE_OUT die [p1 die, p1 cause]

/-- The slices of a die at its power-up (R569, R570): the spare's test, and the active slices that it replaces, now or before. Answers
whether every slice of the die works. -/
def Dev.testSlices (d : Dev) (die : Nat) (t : DieTest) : Dev × Bool :=
  let replaced := d.f SVC_DIE_STATUS.SLICE_REPLACED die
  let spareBad := t.badSlices.contains 8 || d.retired 1 die 8
  let d := if spareBad && !d.retired 1 die 8 then d.slagAdd 1 die 8 7 else d
  let d := (d.setB SVC_DIE_STATUS.SPARE_SLICE_OK (!spareBad) die).setB HCB_STATUS.SPARE_IDLE (!spareBad && decide (replaced = 0xF)) (16 * die + 8)
  let d := if spareBad || decide (replaced ≠ 0xF) then d.exhaust 0 die else d
  let bad := (List.range 8).filter fun k => t.badSlices.contains k && decide (k ≠ replaced)
  if replaced ≠ 0xF then (d.spareTakes die replaced, bad.isEmpty && !spareBad)
  else match bad with
    | [] => (d, true)
    | k :: rest =>
      if spareBad then (d, false)
      else
        let d := (d.spareTakes die k).slagAdd 1 die k 7
        ((d.raise .SVC_SLICE_SPARED die [p1 k, p1 7]).exhaust 0 die, rest.isEmpty)

/-- The rest of a die at its power-up (R567, R571, R572, R602): SRAM rows, quad 16, the Smith cores and the boot voltage. -/
def Dev.testDie (d : Dev) (die : Nat) (t : DieTest) : Dev :=
  let d := (d.setF SVC_SRAM.REPAIRED (saturate 16 t.rows) die).setF SVC_SRAM.SPARES_MIN (saturate 16 t.sparesLeft) die
  let d := if t.rows = 0 then d else d.raise .SVC_SRAM_REPAIR die [p4 t.rows, p4 t.sparesLeft]
  let d := if t.macroBad then d.exhaust 3 die else d
  let d := d.setSvc fun x => { x with quad16Bad := x.quad16Bad.filter (fun y => decide (y ≠ die)) ++ (if t.quad16Ok then [] else [die]) }
  let used := decide (d.f SVC_DIE_STATUS.QUAD_REPLACED die ≠ 0x1F) || !t.quad16Ok
  let d := if used && decide ((d.swg.cfg.die die).spareRoute ≠ 0) then d.exhaust 1 die else d
  let d := (d.setF SVC_DIE_STATUS.SMITH_ACTIVE (if d.retired 3 die 0 then 1 else 0) die).setB SVC_DIE_STATUS.STANDBY_OK
    (t.standbyOk && !d.retired 3 die 0 && !d.retired 3 die 1) die
  let d := if d.smithDead die then d.exhaust 2 die else d
  d.setF SVC_VDD.SETPOINT 750 die

/-- A die joins start-up: it and its slices are in service, and its ports answer configuration requests (R96). -/
def Dev.dieJoins (d : Dev) (die : Nat) : Dev :=
  let d := (d.setB HCB_STATUS.IN_SERVICE true die).setF HCB_STATUS.HEALTH 0 die
  let d := d.forEach (slicesOf die) fun d h => (d.setB HCB_STATUS.IN_SERVICE true h).setF HCB_STATUS.HEALTH 0 h
  d.forEach (List.range (d.swg.cfg.fabricPorts die).length) fun d p => d.setB FAB_PORT_STATUS.CFG_READY true die p

/-- DIE_PG_ASSERT (R569, R600): the die's self-tests run, and it joins start-up; a slice that fails with no spare keeps it out. -/
def execDiePgAssert (die : Nat) (bist : DieTest) (s : State) : Host.Outcome State Fault Refusal :=
  s.on fun d =>
    if !d.atStep 6 || !d.rst.enabled.contains die || d.rst.good.contains die then d
    else
      let d := d.setRst fun r => { r with good := r.good ++ [die] }
      let (d, ok) := d.testSlices die bist
      if ok then ((d.testDie die bist).dieJoins die).diesSettle
      else ((d.dieStaysOut die 2).slagAdd 6 0 die 7).diesSettle

/-- DIE_PG_TIMEOUT (R600): 50 ms without DIE_PG. The list of causes of SVC_DIE_OUT names none for it: a free value (assumption 3). -/
def execDiePgTimeout (die : Nat) (s : State) : Host.Outcome State Fault Refusal :=
  s.on fun d =>
    if !d.atStep 6 || !d.rst.enabled.contains die || d.rst.good.contains die then d
    else (d.tick.dieStaysOut die d.freeVal).diesSettle

/-- DIE_PG_FALL (R262, R601): a fall of 1 µs or longer while the die is enabled. -/
def execDiePgFall (die ns : Nat) (s : State) : Host.Outcome State Fault Refusal :=
  s.on fun d =>
    if !d.rst.enabled.contains die || !d.rst.good.contains die || decide (ns < 1000) then d
    else if d.quenching then d.tick.dieOut die d.freeVal false
    else (d.tick.dieOut die d.freeVal false).lowerPower die

/-! ### The population (R366 to R368, R576) -/

/-- The physical ranks of a channel in the order of R368. -/
def rankOrder (p : Population) : List Nat :=
  ((List.range p.ranks).map fun r => (List.range p.dimms).map fun m => 4 * m + r).flatten

/-- The fields in which a channel differs from the first one, or from the image (R367): 0 module type, 1 device width, 2 density, 3 rank
count, 4 speed bins, 5 SPEED, 6 DPC, 7 too few ranks. -/
def DramCfg.popFails (c : DramCfg) (a p : Population) : List Nat :=
  let need := 2 ^ c.rankBits + b2n (bit c.chanFlags 0)
  let fails : List (Nat × Bool) :=
    [(0, decide (p.moduleType ≠ a.moduleType) || !p.supported), (1, decide (p.width ≠ a.width)), (2, decide (p.density ≠ a.density)),
     (3, decide (p.ranks ≠ a.ranks)), (4, decide (p.bins ≠ a.bins)), (5, !p.speedOk), (6, decide (p.dimms ≠ c.dpc)),
     (7, decide (p.dimms * p.ranks < need))]
  (fails.filter (·.2)).map (·.1)

/-- A retired rank whose DIMM has another serial leaves the slag list (R576). -/
def Dev.dropOldRanks (d : Dev) (p : Population) : Dev :=
  let old := tgetD d.svc.serials (p.die, p.chan) []
  let changed (m : Nat) : Bool := decide (old ≠ []) && decide (old[m]? ≠ p.serials[m]?)
  let gone (rank : Nat) : Bool := changed (rank / 4)
  let d := { d with slag := d.slag.filter fun e => !(decide (e.kind = 4 ∧ e.owner = p.die ∧ e.index / 8 = p.chan) && gone (e.index % 8)) }
  d.setSvc fun x => { x with serials := tset x.serials (p.die, p.chan) p.serials,
                             owed := x.owed.filter fun o => !(decide (o.die = p.die ∧ o.chan = p.chan) && gone o.rank) }

/-- A channel takes its population (R368, R392, R576): the mapped ranks in their order, a retired one replaced by the spare rank. -/
def Dev.populate (d : Dev) (p : Population) : Dev :=
  let c := d.swg.cfg.dram
  let d := d.dropOldRanks p
  let all := rankOrder p
  let map0 := all.take (2 ^ c.rankBits)
  let spare0 := if bit c.chanFlags 0 then all[2 ^ c.rankBits]? else none
  let bad := map0.find? fun r => d.retired 4 p.die (8 * p.chan + r)
  let (map, spare) : List Nat × Option Nat := match bad, spare0 with
    | some b, some sp => (map0.map (fun r => if r = b then sp else r), none)
    | _, _ => (map0, spare0)
  let d := if bad.isSome then d.exhaust 5 p.die else d
  let d := d.modChan p.die p.chan fun x => { x with ranks := sortBy id all, map := map, spare := spare, density := p.density, raaimt := p.raaimt }
  let d := (d.setF CHAN_STATUS.RANKS (Nat.min all.length 8) p.die p.chan).setF CHAN_STATUS.STATE 1 p.die p.chan
  d.forEach all fun d r =>
    (d.setB CHAN_RANK_STATUS.MAPPED (map.contains r) p.die p.chan r).setB CHAN_RANK_STATUS.SPARE (decide (spare = some r)) p.die p.chan r

/-- The channels of the dies in service, each with what its SPD shows; one that shows nothing has no DIMM. -/
def Dev.popOf (d : Dev) (chans : List Population) : List Population :=
  (d.diesUp.map fun die => (List.range 4).map fun c =>
    (chans.find? fun p => decide (p.die = die ∧ p.chan = c)).getD ⟨die, c, 0, 0, 0, 0, 0, 0, false, false, 0, []⟩).flatten

/-- SPD_POPULATION_CHECK (R366, R367): step 8. A DIMM that differs is named by the lowest number, the others being compared with the first
channel as a whole. -/
def execSpdPopulationCheck (chans : List Population) (s : State) : Host.Outcome State Fault Refusal :=
  s.on fun d =>
    if !d.atStep 8 then d
    else
      let ps := d.popOf chans
      match ps with
      | [] => d
      | a :: _ =>
        let bad := (ps.map fun p => (d.swg.cfg.dram.popFails a p).map fun k => (p, k)).flatten
        if bad.isEmpty then (d.forEach ps fun d p => d.populate p).endStart 8 9
        else
          let d := d.forEach bad fun d e => d.raise .CHAN_POP_MISMATCH e.1.die [p1 (gchan e.1.die e.1.chan), p4 0, p4 e.2]
          (d.notReady .CHAN_POP_MISMATCH).setRst fun r => { r with step := 0 }

/-! ### Initial training and the tag store (R400, R401, R516, R517, R520, R560, R573, R574) -/

/-- A repair of a pending row (R573): the row is done, or stays without a resource. -/
def Dev.repairRow (d : Dev) (r : Repair) : Dev :=
  let row : PprRow := ⟨r.gchan, r.rank, r.bank, r.row⟩
  let die := r.gchan / 4 + 1
  if !d.ppr.contains row then d
  else if r.ok then
    let d := { d with ppr := d.ppr.filter fun x => decide (x ≠ row) }
    let d := d.counterRecord magicPPRQ [p1 r.gchan, p1 r.rank, p1 r.bank, p1 0, p4 r.row, p1 1]
    d.raise .SVC_PPR_DONE die [p1 r.gchan, p1 r.rank, p1 r.bank, p4 r.row]
  else
    let d := d.counterRecord magicPPRQ [p1 r.gchan, p1 r.rank, p1 r.bank, p1 0, p4 r.row, p1 2]
    (d.raise .SVC_PPR_NO_RESOURCE die [p1 r.gchan, p1 r.rank, p1 r.bank]).exhaust 4 die

/-- The repairs of a start-up: at most two rows a DIMM (R573). -/
def firstRepairs (rs : List Repair) : List Repair :=
  (rs.foldl (fun (acc : List Repair) r =>
    if 2 ≤ (acc.filter fun x => decide (x.gchan = r.gchan ∧ x.rank / 4 = r.rank / 4)).length then acc else acc ++ [r]) [])

/-- The events of the newest commit record go to their leaves with REPLAYED set (R520), and the view is rebuilt (R517). -/
def Dev.replayEvents (d : Dev) : Dev :=
  let high := d.commitHigh
  let newest := d.qfl.units.findSome? fun e => match e.2 with
    | .commit c => if high ≠ 0 ∧ maxOf (c.events.map (·.seq)) = high then some c else none
    | _ => none
  let rs := match newest with | some c => c.events | none => []
  let has (r : EvRec) : Bool := (d.leafRecords (leafOf r.source)).any fun x => decide (x.seq = r.seq)
  (d.forEach (rs.filter fun r => !has r) fun d r => d.leafProgram (leafOf r.source) { r with replayed := true }).pvRebuild

/-- The rank failures of initial training: a spare rank is lost, a mapped one stops the package (R400). -/
def Dev.rankFails (d : Dev) (t : RankTrain) : Dev :=
  if (d.chan t.die t.chan).spare = some t.rank then
    ((d.modChan t.die t.chan fun x => { x with spare := none }).setB CHAN_RANK_STATUS.SPARE false t.die t.chan t.rank).exhaust 5 t.die
  else d.raise .TRN_INIT_FAIL t.die [p1 (gchan t.die t.chan), p1 t.rank, p4 t.step, p4 t.lane, p4 t.width]

/-- A channel comes into service with its trained settings as the LKG (R401). -/
def Dev.chanUp (d : Dev) (die c : Nat) : Dev :=
  let x := d.chan die c
  let d := (d.setF CHAN_STATUS.STATE 2 die c).modChan die c fun x => { x with lkg := x.inForce, scrubStart := d.now }
  let d := d.raise .TRN_INIT_DONE die [p1 (gchan die c), p4 x.ranks.length, p4 ((d.now - d.rst.stepAt) / 1000000)]
  d.raise .CHAN_UP die [p1 (gchan die c), p1 d.swg.cfg.dram.speed, p1 d.swg.cfg.dram.dpc, p4 x.map.length, p1 x.density]

/-- INITIAL_TRAINING_DONE (R400, R573): step 9, whose end is P0. -/
def execInitialTrainingDone (failed : List RankTrain) (repairs : List Repair) (s : State) : Host.Outcome State Fault Refusal :=
  s.on fun d =>
    if !d.atStep 9 then d
    else
      let mapped := failed.any fun t => d.inService t.die && (d.chan t.die t.chan).map.contains t.rank
      let d := d.forEach (failed.filter fun t => d.inService t.die) fun d t => d.rankFails t
      if mapped then (d.notReady .TRN_INIT_FAIL).setRst fun r => { r with step := 0 }
      else
        let d := d.forEach d.diesUp fun d die => d.forEach (List.range 4) fun d c => d.chanUp die c
        let d := (d.forEach (firstRepairs repairs) fun d r => d.repairRow r).replayEvents
        let d := ((d.setPhase 5).setF RHT_STATUS.PHASE 1).setRht fun x => { x with p0 := d.now }
        d.endStart 9 10

/-- Pages of a copy of a die's journal (R186): the die's mapped bytes over 2^20. -/
def Dev.journalPages (d : Dev) (die : Nat) : Nat :=
  Nat.min 2097152 (sumOf ((List.range 4).map fun c => (d.chan die c).map.length * (d.chan die c).density * 2048))

/-- TAG_STORE_INIT (R186, R560, R574): step 10. Substitutions that T0 has cut off are made first, without a copy. -/
def execTagStoreInit (s : State) : Host.Outcome State Fault Refusal :=
  s.on fun d =>
    if !d.atStep 10 then d
    else
      let d := d.forEach d.svc.owed fun d o =>
        if (d.chan o.die o.chan).map.contains o.rank then d.rankSwitch o.die o.chan o.rank o.cause 0 else d
      let d := d.setSvc fun x => { x with owed := [] }
      let d := d.setCru fun c => { c with tags := [], dram := [] }
      (d.forEach d.diesUp fun d die => d.setF HEAT_JRNL_PAGES.TOTAL (d.journalPages die) die).endStart 10 11

end Sys2Proof.Machine
end

