-- ==== Sys2Proof/Machine/MboxOps.lean ====
section
/-! DEFINITION. What the mailbox commands do, once the command processor runs them (R106 to R114). Input sizes and output layouts of the
standard commands are those of CXL 3.1 (assumption 23); what the manual does not give of an output is a free value (assumption 3). -/

namespace Sys2Proof.Machine

open Sys2Proof

def Dev.setMbox (d : Dev) (f : MboxState → MboxState) : Dev := { d with mbox := f d.mbox }

/-- The greatest output of a path in bytes (R100). -/
def outLimit (p : Path) : Nat := pathLimit p

/-- A free value in an output field of some bytes, by its number in the output. -/
def Dev.open' (d : Dev) (size n : Nat) : Nat × Nat := (size, Config.freeValue (d.free + n) % 2 ^ (8 * size))

/-- Free values taken. -/
def Dev.ticks (d : Dev) (n : Nat) : Dev := { d with free := d.free + n }

/-- A standard command's end with a return code that the manual does not state. -/
def Dev.mbFails (d : Dev) (p : Path) (opcode : Nat) : Dev := d.tick.mbReply p opcode (.unstated d.freeVal) .ok []

/-- The package DPA of an address in a command's input (R105): none beyond DPA_LIMIT or the LD's allocation. -/
def Dev.mbDpa (d : Dev) (p : Path) (dpa : Nat) : Option Nat :=
  let a : Option Nat := match p with
    | .port die port (some l) => if l = 0xFFFF then some dpa else d.dpaOf die port (some l) dpa
    | _ => some dpa
  a.filter fun x => decide (x < d.swg.cfg.dram.dpaLimit)

/-- The start and the size in bytes of what a path addresses: its LD's allocation, or the package's DPA space. -/
def Dev.mbSpace (d : Dev) (p : Path) : Nat × Nat :=
  match p with
  | .port die port (some l) => if l = 0xFFFF then (0, d.swg.cfg.dram.dpaLimit) else tgetD d.fab.lds (die, port, l) (0, 0)
  | _ => (0, d.swg.cfg.dram.dpaLimit)

/-! ### Information and status (R106) -/

/-- Identify: the component type is a memory device (03h); the greatest message of the path as a power of two. -/
def Dev.doIdentify (d : Dev) (p : Path) : Dev :=
  let out := [d.open' 2 0, d.open' 2 1, d.open' 2 2, d.open' 2 3, d.open' 8 4, (1, if p = .sideband then 12 else 15), (1, 3)]
  (d.ticks 5).mbOk p 0x0001 out

/-- Background Operation Status: whether one runs, its percent complete, its opcode. -/
def Dev.doBackground (d : Dev) (p : Path) : Dev :=
  match d.mbox.background with
  | none => d.mbOk p 0x0002 [(1, 0), (1, 0), (2, 0), (2, 0), (2, 0)]
  | some (.quenchTest, _) => d.tick.mbOk p 0x0002 [(1, 1 + 2 * (d.freeVal % 100)), (1, 0), (2, 0xC000), (2, 0), (2, 0)]
  | some (.sanitize, pct) => d.mbOk p 0x0002 [(1, 1 + 2 * pct), (1, 0), (2, 0x4400), (2, 0), (2, 0)]

/-- Get FW Info. -/
def Dev.doGetFwInfo (d : Dev) (p : Path) : Dev := d.mbOk p 0x0200 d.fwInfo

/-- Transfer FW: to the inactive slot only. -/
def Dev.doTransferFw (d : Dev) (p : Path) (slot revision : Nat) (verifies : Bool) : Dev :=
  if 2 ≤ slot ∨ d.pkg.runningSlot = some slot then d.mbReply p 0x0201 .invalidSlot .ok []
  else (d.setRst fun r => { r with fw := r.fw.set slot ⟨revision, verifies⟩ }).mbOk p 0x0201 []

/-- Activate FW (R106, R561): at the next reset only. -/
def Dev.doActivateFw (d : Dev) (p : Path) (slot : Nat) (online : Bool) : Dev :=
  if online then d.mbReply p 0x0202 .unsupported .ok []
  else if 2 ≤ slot then d.mbReply p 0x0202 .invalidSlot .ok []
  else (d.counterRecord magicFWSL [p1 slot]).mbOk p 0x0202 []

/-- The timestamp as it stands: the last set value advanced by the Bellows timer; 0 while none has been set. -/
def Dev.timestampNow (d : Dev) : Nat := if d.mbox.timestamp = 0 then 0 else d.mbox.timestamp + (d.now - d.mbox.timestampAt)

/-- Set Timestamp (R519). -/
def Dev.doSetTimestamp (d : Dev) (p : Path) (v : Nat) : Dev :=
  let old := d.timestampNow
  let d := d.setMbox fun m => { m with timestamp := v % 2 ^ 64, timestampAt := d.now }
  (d.raiseB .EVT_TIME_MARKER [p8 (v % 2 ^ 64), p8 old]).mbOk p 0x0301 []

/-- The opcodes of the Command Effects Log (R106, R110). -/
def supportedOpcodes : List Nat :=
  [0x0001, 0x0002, 0x0100, 0x0101, 0x0102, 0x0103, 0x0200, 0x0201, 0x0202, 0x0300, 0x0301, 0x0400, 0x0401, 0x4000, 0x4200, 0x4201, 0x4202,
   0x4203, 0x4204, 0x4300, 0x4301, 0x4302, 0x4400, 0x4800, 0x4801, 0x4802, 0x4803] ++ (List.range 14).map (· + 0xC000)

/-- The UUID of the Command Effects Log in CXL 3.1, as the number that its bytes spell. -/
def celUuid : Nat :=
  leValue [0x0d, 0xa9, 0xc0, 0xb5, 0xbf, 0x41, 0x4b, 0x78, 0x8f, 0x79, 0x96, 0xb1, 0x62, 0x3b, 0x3f, 0x17]

/-- Get Supported Logs: the Command Effects Log and the vendor log "leaf summary", whose UUID and size the manual does not give. -/
def Dev.doSupportedLogs (d : Dev) (p : Path) : Dev :=
  let out := [(2, 2), (6, 0), (16, celUuid), (4, 4 * supportedOpcodes.length), d.open' 16 0, d.open' 4 1]
  (d.ticks 2).mbOk p 0x0400 out

/-- Get Log: some bytes of log 0, the Command Effects Log, or 1, the leaf summary; the effects of an opcode and the leaf summary's bytes
are free values. -/
def Dev.doGetLog (d : Dev) (p : Path) (log offset length : Nat) : Dev :=
  if 2 ≤ log ∨ outLimit p < length then d.mbFails p 0x0401
  else if log = 0 then
    let bytes := (supportedOpcodes.zipIdx.map fun e => leBytes 2 e.1 ++ leBytes 2 (d.open' 2 e.2).2).flatten
    if bytes.length < offset + length then d.mbFails p 0x0401
    else (d.ticks supportedOpcodes.length).mbOk p 0x0401 (((bytes.drop offset).take length).map fun b => (1, b.toNat))
  else d.tick.mbOk p 0x0401 [d.open' length 0]

/-- Identify Memory Device: capacities in 256 MiB; the poison list holds 4,096 entries. -/
def Dev.doIdentifyMemory (d : Dev) (p : Path) : Dev :=
  let c := (d.mbSpace p).2 / 2 ^ 28
  let out := [d.open' 16 0, (8, c), (8, 0), (8, c), (8, 0), d.open' 2 1, d.open' 2 2, d.open' 2 3, d.open' 2 4, (4, 0), (3, 4096), d.open' 2 5,
    d.open' 1 6, d.open' 1 7, d.open' 2 8]
  (d.ticks 9).mbOk p 0x4000 out

/-- Corrections since reset (R107): of the Anvil code and of quench-flash LDPC. -/
def Dev.correctedCount (d : Dev) : Nat :=
  sumOf (d.dies.map fun die => sumOf ((List.range 4).map fun c => d.f CHAN_CE.COUNT die c)) + d.qfl.corrected

/-- The highest junction temperature of any die in service, in °C. -/
def Dev.hottest (d : Dev) : Int := (d.diesUp.map fun die => signedOf 8 (d.f HCB_TJ.TJ die)).foldl max (-128)

/-- Whether a threshold of Set Alert Configuration is passed: bits 1:0 of a field of two bits, 1 a warning (CXL 3.1). -/
def alerted (v : Int) (threshold : Nat) : Nat := b2n (decide (threshold ≠ 0) && decide (Int.ofNat threshold ≤ v))

/-- Health Status (R107): bit 0 Maintenance Needed, bit 1 Performance Degraded, bit 2 Hardware Replacement Needed. -/
def Dev.healthStatus (d : Dev) : Nat :=
  let maintenance := d.strings.any fun n =>
    !d.fb BELL_STR_STATUS.AUTHENTICATED 0 n || d.fb BELL_STR_STATUS.CONFLICT 0 n || !d.learned n
  let degraded := decide (d.ceilState = 2) || d.diesUp.any fun die => (List.range 4).any fun c => decide (d.f CHAN_STATUS.STATE die c = 2)
  b2n maintenance + 2 * b2n degraded + 4 * b2n (decide (d.f SVC_SPARE_STATUS.EXHAUSTED ≠ 0))

/-- Get Health Info (R107): health, media status 1 (not ready) until Memory_Active, additional status, life used, temperature, the Dirty
Shutdown Count, and the corrected counts. -/
def Dev.doHealth (d : Dev) (p : Path) : Dev :=
  let life := d.f SVC_LIFE.PERCENT
  let t := d.hottest
  let ce := d.correctedCount
  let th (i : Nat) : Nat := d.mbox.alerts.getD i 0
  let more := alerted (Int.ofNat life) (th 0) + 4 * alerted t (th 1) + 32 * alerted (Int.ofNat ce) (th 2)
  d.mbOk p 0x4200 [(1, d.healthStatus), (1, b2n (!d.fb ROOT_STATUS.MEM_ACTIVE)), (1, more), (1, life), (2, fieldOf 16 t),
    (4, d.f FAB_DSC.COUNT), (4, 0), (4, saturate 32 ce)]

/-- Get Alert Configuration: which alerts are programmable (life used, over-temperature, corrected persistent errors), and their
thresholds. -/
def Dev.doGetAlerts (d : Dev) (p : Path) : Dev :=
  let th (i : Nat) : Nat := d.mbox.alerts.getD i 0
  let valid := b2n (decide (th 0 ≠ 0)) + 2 * b2n (decide (th 1 ≠ 0)) + 16 * b2n (decide (th 2 ≠ 0))
  let out := [(1, valid), (1, 0x13), d.open' 1 0, (1, th 0), d.open' 2 1, d.open' 2 2, (2, th 1), d.open' 2 3, d.open' 2 4, (2, th 2)]
  (d.ticks 5).mbOk p 0x4201 out

/-- Set Alert Configuration: `valid` names the thresholds that the command sets (bits 0 life used, 1 over-temperature, 4 corrected
persistent errors), `enable` those it enables; 0 disables one. -/
def Dev.doSetAlerts (d : Dev) (p : Path) (valid enable life temp ce : Nat) : Dev :=
  let one (i bitNo v : Nat) : Nat := if bit valid bitNo then (if bit enable bitNo then v else 0) else d.mbox.alerts.getD i 0
  (d.setMbox fun m => { m with alerts := [one 0 0 life, one 1 1 temp, one 2 4 ce] }).mbOk p 0x4202 []

/-- Set Shutdown State (R95): stored with both copies before the command completes. -/
def Dev.doSetShutdown (d : Dev) (p : Path) (dirty : Bool) : Dev :=
  ((d.setB FAB_SHUTDOWN_STATE.DIRTY dirty).saveCounters).mbOk p 0x4204 []

/-! ### Event records (R516 to R518) -/

/-- The UUID of Golinow's records (R518), as the number that its bytes spell. -/
def recordUuid : Nat :=
  leValue [0xb0, 0xc2, 0xa7, 0xe4, 0x1d, 0x3f, 0x4a, 0x6b, 0x9e, 0x21, 0x5c, 0x7d, 0x8f, 0x0a, 0x3b, 0x16]

/-- A record as a CXL Common Event Record (R518). -/
def commonRecord (h : Nat) (r : EvRec) : Fields :=
  [(16, recordUuid), (1, 128), (3, 0), (2, h), (2, 0), (8, 0), (1, 0), (15, 0), (32, leValue r.bytes), (48, 0)]

/-- The records of one log in the view, in SEQ order. -/
def Dev.logRecords (d : Dev) (log : Nat) : List (Nat × EvRec) := d.evt.view.filter fun x => decide (x.2.severity = log)

/-- Get Event Records (R516, R518): as many as the path's payload holds after 32 bytes. -/
def Dev.doGetEvents (d : Dev) (p : Path) (log : Nat) : Dev :=
  if 4 ≤ log then d.mbReply p 0x0100 .invalidInput .ok []
  else
    let all := if d.fb EVT_STATUS.PV_IN_SERVICE then d.logRecords log else []
    let rs := all.take ((outLimit p - 32) / 128)
    let ovf := d.f EVT_PV_OVF.COUNT 0 log
    let head := [(1, b2n (decide (ovf ≠ 0)) + 2 * b2n (decide (rs.length < all.length))), (1, 0), (2, saturate 16 ovf),
      (8, tgetD d.evt.ovfFirst log 0), (8, if ovf = 0 then 0 else d.f EVT_PV_OVF_LAST.SEQ 0 log), (2, rs.length), (10, 0)]
    d.mbOk p 0x0100 (head ++ (rs.map fun x => commonRecord x.1 x.2).flatten)

/-- Records leave the view, and PV_BASE follows (R517). -/
def Dev.viewDrop (d : Dev) (out : Nat × EvRec → Bool) : Dev :=
  let gone := (d.evt.view.filter out).map fun x => (x.2.seq, x.2.source)
  ({ d with evt := { d.evt with view := d.evt.view.filter fun x => !out x, gone := d.evt.gone ++ gone } }).pvRebase

/-- A clear of one log, with its event (R517, R524): the log, the records cleared, the new PV_BASE. -/
def Dev.viewClear (d : Dev) (log : Nat) (out : Nat × EvRec → Bool) : Dev :=
  let n := (d.evt.view.filter out).length
  let d := d.viewDrop out
  d.raiseB .EVT_PV_CLEARED [p1 log, p4 n, p8 d.evt.pvBase]

/-- Clear Event Records (R517): all of one log, or the named handles; a handle that names no record of the log clears nothing. -/
def Dev.doClearEvents (d : Dev) (p : Path) (log : Nat) (all : Bool) (handles : List Nat) : Dev :=
  if 4 ≤ log then d.mbReply p 0x0101 .invalidInput .ok []
  else if all then (d.viewClear log fun x => decide (x.2.severity = log)).mbOk p 0x0101 []
  else if handles.any fun h => !(d.logRecords log).any fun x => decide (x.1 = h) then d.mbReply p 0x0101 .invalidHandle .ok []
  else (d.viewClear log fun x => handles.contains x.1).mbOk p 0x0101 []

/-- Get Event Interrupt Policy: no interrupt, or MSI-X with the log's vector (R581). -/
def Dev.doGetPolicy (d : Dev) (p : Path) : Dev :=
  d.mbOk p 0x0102 ((List.range 4).map fun i => (1, if d.mbox.policy.getD i false then 1 + 16 * (i + 1) else 0))

/-- Set Event Interrupt Policy: MSI-X or none for each log. -/
def Dev.doSetPolicy (d : Dev) (p : Path) (info warning failure fatal : Bool) : Dev :=
  (d.setMbox fun m => { m with policy := [info, warning, failure, fatal] }).mbOk p 0x0103 []

/-! ### Poison (R106) -/

/-- Get Poison List: the entries in a range of lines, at most 4,096 for the package and as many as the payload holds; the source of an entry
is a free value. -/
def Dev.doPoisonList (d : Dev) (p : Path) (dpa lines : Nat) : Dev :=
  match d.mbDpa p dpa with
  | none => d.mbFails p 0x4300
  | some a =>
    let (start, size) := d.mbSpace p
    let hi := Nat.min (a + 64 * lines) (start + size)
    let inside := d.cru.poison.filter fun e => decide (a ≤ e.1 * 4096 + 64 * e.2 ∧ e.1 * 4096 + 64 * e.2 < hi)
    let all := (poisonRuns inside).take 4096
    let rs := all.take ((outLimit p - 32) / 16)
    let ovf := d.mbox.poisonOvf.isSome
    let head := [(1, b2n (decide (rs.length < all.length)) + 2 * b2n ovf), (1, 0), (8, d.mbox.poisonOvf.getD 0), (2, rs.length), (20, 0)]
    let entry (e : (Nat × Nat × Nat) × Nat) : Fields :=
      [(8, e.1.1 * 4096 + 64 * e.1.2.1 - start + (d.open' 1 e.2).2 % 8), (4, e.1.2.2), (4, 0)]
    (d.ticks rs.length).mbOk p 0x4300 (head ++ (rs.zipIdx.map entry).flatten)

/-- Inject Poison: one 64 B line joins the poison list. -/
def Dev.doInject (d : Dev) (p : Path) (dpa : Nat) : Dev :=
  match d.mbDpa p dpa with
  | none => d.mbFails p 0x4301
  | some a => (d.addPoison (slabOf a) (bitMask (a / 64 % 64))).mbOk p 0x4301 []

/-- Clear Poison: the supplied line goes to its slab's lock as a write of a full line, which clears the line's poison there. -/
def Dev.doClearPoison (d : Dev) (p : Path) (dpa : Nat) (data : Line) : Dev :=
  match d.mbDpa p dpa with
  | none => d.mbFails p 0x4302
  | some a =>
    if (d.unserved a).isSome then d.mbFails p 0x4302
    else
      let r : Req := { rid := d.cru.nextRid, src := .gone, kind := .write, slab := slabOf a, sector := a / 64 % 64, data := data, be := fullMask,
                       tag := 0, heat := 0, wait := .arrival, since := d.now }
      (d.setCru fun c => { c with reqs := c.reqs ++ [r], nextRid := c.nextRid + 1 }).mbOk p 0x4302 []

/-! ### Sanitize (R108, R542) -/

/-- Steps 1 and 2: no access is served, destages and fills end; what waits at a lock ends as an access that arrives now. -/
def Dev.sanitizeStop (d : Dev) : Dev :=
  let d := d.setMbox fun m => { m with background := some (.sanitize, 0) }
  let d := d.forEach d.cru.reqs fun d r => if r.isRead then d.finishRead r true else d.finishWrite r false
  d.setCru fun c => { c with fills := [], destages := [], staging := [], recover := [], rebuilds := [], fetched := [], notBefore := [] }

/-- Step 3 (R542): slots 0 to 5 erased, one BLOB_EPOCH fuse burnt, or with none left the rings erased; six fresh keys of ROLL + 1. -/
def Dev.sanitizeKeys (d : Dev) : Dev :=
  let roll := d.f SEC_INGOT_ROLES.ROLL
  let d := d.forEach (List.range 6) fun d n => d.eraseKey (.package n)
  let d := if d.sec.epoch < 32 then d.burnEpoch else (d.setB SEC_STATUS.EPOCH_EXHAUSTED true).eraseRings ingotKeyRings
  (d.freshIngotKeys roll 1).freshBackingKeys

/-- Step 4: every tag INVALID, the journal without a record, and nothing left of an Ingot under restore. -/
def Dev.sanitizeTags (d : Dev) : Dev :=
  let d := d.setCru fun c => { c with tags := [], dram := [], be := [], idleDue := [], first := [], evicting := [], engine := false }
  let d := d.setHeat fun x => { x with dirs := x.dirs.map fun e =>
    (e.1, (e.2.filter fun (n : Entry) => decide (n.state = .opened)).map fun (n : Entry) => { n with written := [], buffered := [] }) }
  let d := d.setRht fun x => { x with restore := none, held := none, pending := [], demands := [], judge := [], deltas := [], poisoned := [] }
  (d.setF RHT_PENDING.COUNT 0).ceilCheck

/-- Sanitize (R108): accepted while every Weld region is SOLO or FENCED. Steps 1 to 4 are done when it reports progress; the new current key
gets its generation claim (R248). Without a DRBG or VDD_AON no fresh key can be drawn and stored, and the command fails. -/
def Dev.doSanitize (d : Dev) (p : Path) : Dev :=
  let quiet := (List.range d.regionCfgs.length).all fun n => decide ((d.region n).role = .solo ∨ (d.region n).role = .fenced)
  if d.mbox.background.isSome then d.mbReply p 0x4400 .busy .ok []
  else if !quiet then d.mbReply p 0x4400 .invalidInput .ok []
  else if !d.fb SEC_DRBG_STATUS.HEALTHY || d.aonLow then d.mbFails p 0x4400
  else
    let d := d.sanitizeStop.sanitizeKeys.sanitizeTags
    let d := match d.claimNext true true 0 with | some d' => d' | none => d
    let pct := 1 + d.freeVal % 99
    (d.tick.setMbox fun m => { m with background := some (.sanitize, pct) }).mbReply p 0x4400 .backgroundStarted .ok []

/-- Step 5: every quench-flash block outside the bad-block table is erased. -/
def Dev.sanitizeFlash (d : Dev) : Dev :=
  let d := d.dropUnits fun _ => true
  let wiped (q : Quad) : Quad := match q.state with
    | .taken _ => { q with state := .stale, pe := q.pe + 1, ptr := 0 }
    | .ready => { q with pe := q.pe + 1, ptr := 0 }
    | _ => q
  let d := d.setQfl fun x => { x with quads := x.quads.map fun e => (e.1, wiped e.2) }
  d.forEach d.qchansAll fun d c => d.checkpoint c.1 c.2

/-- The name of the command that deallocates on a namespace (R354). -/
def Dev.deallocName (d : Dev) (n : Nat) : String := if (d.ns n).dsm then "Dataset Management AD" else "Write Zeroes"

/-- The namespaces that serve commands now. -/
def Dev.servingNs (d : Dev) : List Nat := (List.range d.swg.cfg.backing.nss.length).filter d.nsServes

/-- Steps 5 to 7, the new labels (R346), and the end of the background operation. -/
def Dev.sanitizeEnd (d : Dev) : Dev :=
  match d.mbox.background with
  | some (.sanitize, _) =>
    let d := d.sanitizeFlash
    let d := d.emits (d.servingNs.map fun n => .nvmeCmd (d.deallocName n) n 0 (((d.swg.cfg.backing.nss[n]?).map (·.slabs)).getD 0))
    let d := d.setCru fun c => { c with poison := [], frameless := [] }
    let d := d.forEach d.servingNs fun d n => d.writeLabel n ((d.ns n).labelGen + 1) 1
    (d.setMbox fun m => { m with background := none, poisonOvf := none }).emit (.backgroundDone 0x4400 .success .ok)
  | _ => d

/-! ### Dynamic Capacity (R78, R109) -/

/-- The slabs of a byte range. -/
def inRange (start size slab : Nat) : Bool := decide (start ≤ slab * 4096 ∧ slab * 4096 < start + size)

/-- The cached slabs of a range discarded, dirty ones too, with their poison (R109). -/
def Dev.discardRange (d : Dev) (start size : Nat) : Dev :=
  let d := d.forEach ((d.cru.tags.map (·.2.slab)).filter (inRange start size)) fun d x => (d.invalidate x).completeThrough x none
  (d.setCru fun c => { c with poison := c.poison.filter fun e => !inRange start size e.1,
                              frameless := c.frameless.filter fun x => !inRange start size x }).ceilCheck

/-- A command on the backing of a range, on every namespace that serves (R341, R354). -/
def Dev.onBacking (d : Dev) (start size : Nat) (name : Nat → String) : Dev :=
  d.emits (d.servingNs.map fun n => .nvmeCmd (name n) n (start / 4096) (size / 4096))

/-- The fabric manager adds capacity (R109): the region is taken up with its first extent; the extent is discarded, zeroed and offered. -/
def Dev.dcAdd (d : Dev) (g : DcRegion) (host start size : Nat) : Dev :=
  let known := d.fab.dcRegions.contains g
  let blockOk := (List.range 10).any fun i => decide (g.block = 2 ^ (21 + i))
  let clash := d.fab.dcRegions.any fun x => decide (g.start < x.start + x.size ∧ x.start < g.start + g.size)
  let may := blockOk && (known || (decide (d.fab.dcRegions.length < 8) && !clash)) && decide (g.start + g.size ≤ d.swg.cfg.dram.dpaLimit)
  let taken := d.fab.extents.any fun e => decide (start < e.start + e.size ∧ e.start < start + size)
  if !may || taken || decide (4096 ≤ d.fab.extents.length ∨ size = 0 ∨ start % g.block ≠ 0 ∨ size % g.block ≠ 0 ∨ start < g.start ∨
      g.start + g.size < start + size) || d.quenching then d
  else
    let d := (d.discardRange start size).onBacking start size fun _ => "Write Zeroes"
    let d := d.setFab fun f => { f with dcRegions := if known then f.dcRegions else f.dcRegions ++ [g],
                                        extents := f.extents ++ [(⟨start, size, host, 0⟩ : Extent)] }
    d.emit (.dcOffer host start size)

/-- Get Dynamic Capacity Configuration: the regions, and the extents supported and available. -/
def Dev.doDcConfig (d : Dev) (p : Path) (first count : Nat) : Dev :=
  let rs := (d.fab.dcRegions.drop first).take count
  let entry (i : DcRegion × Nat) : Fields :=
    [(8, i.1.start), (8, i.1.size / 2 ^ 28), (8, i.1.size), (8, i.1.block), d.open' 4 i.2, (1, 0), (3, 0)]
  let out := [(1, d.fab.dcRegions.length), (1, rs.length), (6, 0)] ++ (rs.zipIdx.map entry).flatten ++
    [(4, 4096), (4, 4096 - d.fab.extents.length), (4, 0), (4, 0)]
  (d.ticks rs.length).mbOk p 0x4800 out

/-- Get Dynamic Capacity Extent List: the extents that are added; the generation number and the tags are free values. -/
def Dev.doDcExtents (d : Dev) (p : Path) (first count : Nat) : Dev :=
  let all := d.fab.extents.filter fun e => decide (e.state = 1)
  let es := ((all.drop first).take count).take ((outLimit p - 16) / 40)
  let entry (i : Extent × Nat) : Fields := [(8, i.1.start), (8, i.1.size), d.open' 16 (i.2 + 1), (2, 0), (6, 0)]
  let out := [(4, es.length), (4, all.length), d.open' 4 0, (4, 0)] ++ (es.zipIdx.map entry).flatten
  (d.ticks (es.length + 1)).mbOk p 0x4801 out

/-- An extent with its state changed. -/
def Dev.setExtent (d : Dev) (e : Extent) (state : Nat) : Dev :=
  { d with fab := { d.fab with extents := d.fab.extents.map fun x => if x = e then { x with state := state } else x } }

/-- The extent of a range in a state. -/
def Dev.extentAt (d : Dev) (start size state : Nat) : Option Extent :=
  d.fab.extents.find? fun e => decide (e.start = start ∧ e.size = size ∧ e.state = state)

/-- Add Dynamic Capacity Response: the host accepts an offered extent. -/
def Dev.doDcAccept (d : Dev) (p : Path) (start size : Nat) : Dev :=
  match (d.mbDpa p start).bind fun a => d.extentAt a size 0 with
  | some e => (d.setExtent e 1).mbOk p 0x4802 []
  | none => d.mbReply p 0x4802 .invalidInput .ok []

/-- Release Dynamic Capacity: the extent is served no more; the command completes with RELEASE_DC_COMPLETE. -/
def Dev.doDcRelease (d : Dev) (p : Path) (start size : Nat) : Dev :=
  match (d.mbDpa p start).bind fun a => d.extentAt a size 1 with
  | some e => (d.setExtent e 2).mbHold p 0x4803
  | none => d.mbReply p 0x4803 .invalidInput .ok []

/-- Every accepted request of an extent that is being released has passed its lock (R109): it is discarded and deallocated, and the command
completes. -/
def Dev.dcReleased (d : Dev) : Dev :=
  match d.mbox.running, d.fab.extents.find? fun e => decide (e.state = 2) with
  | some r, some e =>
    if r.opcode ≠ 0x4803 ∨ d.quenching ∨ (d.cru.reqs.any fun q => inRange e.start e.size q.slab && q.notPassed) then d
    else
      let d := (d.discardRange e.start e.size).onBacking e.start e.size d.deallocName
      ({ d with fab := { d.fab with extents := d.fab.extents.filter fun x => decide (x ≠ e) } }).mbEnd .success .ok []
  | _, _ => d

/-! ### Vendor commands (R110 to R114) -/

/-- QUENCH_TEST (R101, R215, R217). -/
def Dev.doQuenchTest (d : Dev) (p : Path) (mib : Nat) (update : Bool) : Dev :=
  if d.mbox.background.isSome then d.mbReply p 0xC000 .busy .busy []
  else match d.dryRefusal mib with
    | some st => d.mbVendor p 0xC000 st []
    | none => ((d.dryStart mib update false).setMbox fun m => { m with background := some (.quenchTest, 0) }).mbReply p 0xC000 .backgroundStarted .ok []

/-- QUENCH_NOW (R111): a trip source that is always enabled; it never completes. -/
def Dev.doQuenchNow (d : Dev) (p : Path) (confirm : Nat) : Dev :=
  if confirm = 0x4E455551 then d.trip 5 else d.mbVendor p 0xC001 .unsupported []

/-- CEILING_QUERY (R112). -/
def Dev.doCeiling (d : Dev) (p : Path) : Dev :=
  let c := d.f CEIL_C.C
  let flags := b2n (decide (d.ceilState = 2)) + 2 * b2n (decide (c < d.D + d.hystOf c)) + 4 * b2n (d.fb CEIL_STATUS.DRY_RUNNING)
  d.mbVendor p 0xC002 .ok [(8, c), (8, d.D), (8, d.f CEIL_C_ENERGY.VALUE), (8, d.f CEIL_C_MEDIA.VALUE), (8, d.f CEIL_C_TIME.VALUE),
    (8, d.f CEIL_C_CAP.VALUE), (4, flags), (4, d.f CEIL_E_BYTE.PJ), (4, d.f CEIL_DRY_R_MEAS.MBPS),
    (4, match d.dryAge with | some a => saturate 32 a | none => 0xFFFFFFFF)]

/-- The output of HEAT_CONTROL. -/
def Dev.heatOut (d : Dev) : Fields := [(8, d.openHeat), (4, d.f HEAT_CTRL.LENGTH_US), (4, d.f HEAT_SYNC_IGNORED.COUNT)]

/-- HEAT_CONTROL with OP 1 (R114, R177): UNSUPPORTED while a region is mirrored, and for a length outside its range. -/
def Dev.doHeatLength (d : Dev) (p : Path) (len : Nat) : Dev :=
  if !d.mirrored.isEmpty || decide (len < 50 ∨ 1000000 < len) then d.mbVendor p 0xC003 .unsupported []
  else
    let d := d.writeHeatCtrl len (d.fb HEAT_CTRL.SYNC_EN) (d.fb HEAT_CTRL.SYNC_OUT_EN) 0
    d.mbVendor p 0xC003 .ok d.heatOut

/-- HEAT_CONTROL with OP 2 (R179). -/
def Dev.doHeatClose (d : Dev) (p : Path) : Dev :=
  let d := d.boundary
  d.mbVendor p 0xC003 .ok d.heatOut

/-- The output of CACHE_MODE (R148). -/
def Dev.modeOut (d : Dev) : Fields :=
  [(1, d.f CRUC_MODE.CURRENT), (1, d.f CRUC_MODE.TARGET), (1, d.gen), (5, 0),
   (8, (d.validTags.filter fun e => decide (e.2.mask ≠ 0)).length)]

/-- CACHE_MODE (R145, R148). -/
def Dev.doCacheMode (d : Dev) (p : Path) (mode : Nat) : Dev :=
  if 2 < mode then d.mbVendor p 0xC004 .unsupported []
  else
    let (d, st) := d.modeRequest mode
    if st = .ok then d.mbVendor p 0xC004 .ok d.modeOut else d.mbVendor p 0xC004 st []

/-- MAINT_BY_ADDR (R105, R114, R152): the command completes when its request ends. -/
def Dev.doMaint (d : Dev) (p : Path) (dpa count op : Nat) (discard : Bool) : Dev :=
  let (start, size) := d.mbSpace p
  let bad (st : Status) : Dev := d.mbVendor p 0xC005 st [(4, 0), (1, st.code), (3, 0), (8, dpa)]
  if dpa % 4096 ≠ 0 then bad .unsupported
  else if count = 0 ∨ 65536 < count then bad .lengthError
  else match maintOpOf op with
    | none => bad .unsupported
    | some o =>
      let first := (start + dpa) / 4096
      (d.addMaint .mailbox first count o discard none (start / 4096) ((start + size) / 4096)).mbHold p 0xC005

/-- A string's entry of ENERGY_STATUS (R459). -/
def Dev.stringEntry (d : Dev) (n : Nat) : Fields :=
  let s (F : Fld) : Nat := b2n (d.fb F 0 n)
  let flags := s BELL_STR_STATUS.AUTHENTICATED + 2 * s BELL_STR_STATUS.LEARNED + 4 * b2n (d.strCounted n) + 8 * s BELL_STR_STATUS.CONFLICT +
    16 * b2n (decide (d.learnState n = 1)) + 32 * s BELL_STR_STATUS.UNKNOWN
  [(1, n), (1, d.strState n), (1, flags), (1, d.switchOf n), (4, d.f BELL_STR_E.J 0 n), (6, d.qUsed n / 1000), (2, d.f BELL_STR_V.MV 0 n),
   (2, fieldOf 16 (d.strI n / 10)), (1, fieldOf 8 ((d.tHot n).getD 0 / 10)), (1, 0),
   (4, if d.learned n then d.f BELL_STR_CAP.MC 0 n / 3600 else 0), (4, d.f BELL_STR_R_EST.UOHM 0 n), (2, d.f BELL_STR_FEC.CYCLES 0 n), (2, 0)]

/-- ENERGY_STATUS (R110, R459). -/
def Dev.doEnergy (d : Dev) (p : Path) : Dev :=
  d.mbVendor p 0xC006 .ok ([(4, saturate 32 (d.eUsable [])), (1, d.strings.length), (11, 0)] ++ (d.strings.map d.stringEntry).flatten)

/-- BATTERY_LEARN with OP 0 (R454). -/
def Dev.doLearn (d : Dev) (p : Path) (n : Nat) : Dev :=
  if d.mayLearn n then (d.schedule' n 0).mbVendor p 0xC007 .ok [] else d.mbVendor p 0xC007 .unsupported []

/-- BATTERY_LEARN with OP 1 (R454, R455). -/
def Dev.doLearnCancel (d : Dev) (p : Path) (n : Nat) : Dev :=
  if d.mayLearn n then (d.cancelLearn n).mbVendor p 0xC007 .ok [] else d.mbVendor p 0xC007 .unsupported []

/-- The leaf that a Hearth ID names (R110): a die of the part, or the Bellows Hearth. -/
def Dev.leafNamed (d : Dev) (h : Nat) : Option Nat := if h = bellowsId ∨ d.isDie h then some (leafOf h) else none

/-- LOG_READ_LEAF (R114, R521). -/
def Dev.doReadLeaf (d : Dev) (p : Path) (leaf max start : Nat) : Dev :=
  match d.leafNamed leaf with
  | none => d.mbVendor p 0xC008 .unsupported []
  | some k =>
    if max = 0 ∨ 1020 < max then d.mbVendor p 0xC008 .lengthError []
    else
      let n := if p = .sideband then Nat.min max 127 else max
      let rs := ((sortBy (fun r : EvRec => r.seq) (d.leafRecords k)).filter fun r => decide (start ≤ r.seq)).take n
      let next := match rs.getLast? with | some r => r.seq + 1 | none => start
      d.mbVendor p 0xC008 .ok ([(4, rs.length), (4, 0), (8, next), (8, d.droppedTotal k)] ++ rs.map fun r => (32, leValue r.bytes))

/-- LOG_CLEAR_LEAF (R512): steps 1 to 3; the other sectors follow with LEAF_CLEAR_ERASE. BUSY while a clear runs, and while no clear record
can be numbered or programmed. -/
def Dev.doClearLeaf (d : Dev) (p : Path) (leaf : Nat) (authority : Nat) : Dev :=
  match d.leafNamed leaf with
  | none => d.mbVendor p 0xC009 .unsupported []
  | some k =>
    if !d.evt.clearing.isEmpty || decide (d.evt.reservation ≤ d.evt.nextSeq) || d.aonLow then d.mbVendor p 0xC009 .busy []
    else
      let n := (d.leafRecords k).length
      let count := if authority = 1 then d.f FAB_AUTH_COUNT.COUNT else 0
      let (r, d) := d.ownRecord .EVT_LOG_CLEARED [p1 k, p4 n, p4 (d.droppedTotal k), p1 authority, p4 count]
      let d := d.tmpEraseSector (leafBase k / 4096)
      let d := (((d.leafPointer k 0).leafProgram k r).viewAdd r).setB EVT_LEAF_STATUS.CLEARING true 0 k
      let d := { d with evt := { d.evt with dropped := tdel d.evt.dropped k, fullSeen := d.evt.fullSeen.filter fun x => decide (x ≠ k),
                                            clearing := tset d.evt.clearing k 1 } }
      d.mbVendor p 0xC009 .ok []

/-- POOL_STATUS (R110). -/
def Dev.doPoolStatus (d : Dev) (p : Path) (die : Nat) : Dev :=
  if !d.isDie die then d.mbVendor p 0xC00A .unsupported []
  else
    let cls (c : Nat) : Fields :=
      [(4, d.freeBufs die c), (4, d.f POOL_ALLOC.COUNT die c), (4, d.f POOL_PENDING.COUNT die c), (4, d.f POOL_EMPTY.COUNT die c)]
    d.mbVendor p 0xC00A .ok (((List.range 4).map cls).flatten ++ [(4, d.f POOL_QUARANTINE.MASK die), (8, 0)])

/-- A held buffer's key under other class counts: none when its address range would move to another class (R68). -/
def moveBuf (old new : Dev) (k : BufKey) : Option BufKey :=
  if k.die = 0 then some k
  else
    let a := old.classBase k.die k.cls + k.idx * classSize k.cls
    let base := new.classBase k.die k.cls
    if base ≤ a ∧ (a - base) % classSize k.cls = 0 ∧ (a - base) / classSize k.cls < new.classCount k.die k.cls then
      some ⟨k.die, k.cls, (a - base) / classSize k.cls⟩
    else none

/-- SWAGE_APPLY_PARTIAL (R66 to R70): the whole image is verified before anything changes. -/
def Dev.doPartial (d : Dev) (p : Path) (image : List Byte) (signatureOk : Bool) : Dev :=
  let rd (off size : Nat) : Nat := leAt image off size
  let seq := rd 28 4
  let refuse (st : Status) : Dev := (d.raiseB .SWAGE_PARTIAL_REFUSED [p4 seq, p1 st.code]).mbVendor p 0xC00B st []
  let (code, cfg, ss) := verifyImage ⟨d.pkg.part, d.pkg.ownerKeyId, signatureOk, 0, some (d.swg.cfg, d.swg.partialSeq, d.swg.energyBytes)⟩ rd
  if !d.swg.loaded then refuse .unsupported
  else if code = 4 ∨ code = 5 then refuse .authFail
  else if code ≠ 0 then refuse .unsupported
  else
    let n : Dev := { d with swg := { d.swg with cfg := cfg } }
    let moved := d.pool.bufs.map fun e => (e.1, moveBuf d n e.1)
    if moved.any fun e => e.2.isNone then refuse .busy
    else
      let key (k : BufKey) : BufKey := ((tget moved k).getD none).getD k
      let pool : PoolState := { d.pool with bufs := d.pool.bufs.map fun e => (key e.1, e.2), data := d.pool.data.map fun e => (key e.1, e.2) }
      let d := { d with swg := { d.swg with cfg := cfg, partialSeq := some seq }, pool := pool }
      let d := (d.setB SWG_STATUS.PARTIAL_ACTIVE true).setF SWG_STATUS.PARTIAL_SEQ seq
      (d.showPartial.raiseB .SWAGE_PARTIAL_APPLIED [p4 seq, p2 (maskOf (ss.map (·.ty)))]).mbVendor p 0xC00B .ok []

/-- RESET_NO_QUENCH (R557). -/
def Dev.doNoQuench (d : Dev) (p : Path) (confirm ms authority : Nat) : Dev :=
  if d.rht.held.isSome || d.rht.restore.isSome then d.mbVendor p 0xC00C .busy []
  else if confirm ≠ 0x54535752 ∨ ms = 0 ∨ 10000 < ms then d.mbVendor p 0xC00C .unsupported []
  else
    let d := (d.setRst fun r => { r with window := some (d.now + 1000000 * ms) }).setB RST_STATUS.NQ_ARMED true
    (d.raiseB .RST_NQ_ARMED [p4 ms, p1 authority]).mbVendor p 0xC00C .ok []

/-- A link's entry of WELD_STATUS (R113). -/
def Dev.linkEntry (d : Dev) (l : Nat × Nat) : Fields :=
  let st := [0, 0, 1, 2].getD (d.linkState l) 0
  let up := decide (d.linkState l ≠ 0)
  [(1, l.1), (1, l.2), (1, st), (1, 4 * d.f WELD_LINK_STATUS.WIDTH l.1 l.2),
   (1, if up then (if d.fb WELD_LINK_STATUS.RATE l.1 l.2 then 64 else 32) else 0), (3, 0), (8, d.f WELD_FRAMES_SENT.COUNT l.1 l.2)]

/-- A region's entry of WELD_STATUS (R113). -/
def Dev.regionEntry (d : Dev) (n : Nat) : Fields :=
  let r := d.region n
  let stall := decide (d.pair = 2 ∧ d.mirror n ≠ 0)
  [(1, n), (1, r.role.code), (1, d.mirror n), (1, b2n stall + 2 * b2n (d.fab.biBroadcast.contains n)), (4, 0),
   (8, r.record.splitHeat)]

/-- The Weld links of the package: those whose lanes the image assigns. -/
def Dev.weldLinks (d : Dev) : List (Nat × Nat) := (d.dies.map fun die => [(die, 0), (die, 1)]).flatten.filter fun l => d.hasLink l

/-- WELD_STATUS (R110, R113). -/
def Dev.doWeldStatus (d : Dev) (p : Path) : Dev :=
  d.mbVendor p 0xC00D .ok ([(1, d.side), (1, d.weldLinks.length), (1, d.regionCfgs.length), (5, 0), (8, d.openHeat)] ++
    (d.weldLinks.map d.linkEntry).flatten ++ ((List.range d.regionCfgs.length).map d.regionEntry).flatten)

end Sys2Proof.Machine
end

