-- ==== Sys2Proof/Machine/Mailbox.lean ====
section
/-! DEFINITION. The meanings of the mailbox commands (R100 to R114): each is rung, waits its turn at the one command processor, is checked,
and runs. -/

namespace Sys2Proof.Machine

open Sys2Proof

/-- What the command processor does with a command whose turn it is: the checks of its path, its size and its authority, then its effect.
Only mailbox commands come here. -/
def Dev.mbDo (d : Dev) (i : Instr) : Dev :=
  match i with
  | .identify mb => d.mbRun mb (mbOpen 0x0001 0 0) fun d => d.doIdentify mb.path
  | .backgroundOperationStatus mb => d.mbRun mb (mbOpen 0x0002 0 0) fun d => d.doBackground mb.path
  | .getEventRecords mb log => d.mbRun mb (mbOpen 0x0100 1 1) fun d => d.doGetEvents mb.path log
  | .clearEventRecords mb log all handles => d.mbRun mb (mbOpen 0x0101 6 65536) fun d => d.doClearEvents mb.path log all handles
  | .getEventInterruptPolicy mb => d.mbRun mb (mbOpen 0x0102 0 0) fun d => d.doGetPolicy mb.path
  | .setEventInterruptPolicy mb info warning failure fatal => d.mbRun mb (mbOpen 0x0103 4 4) fun d => d.doSetPolicy mb.path info warning failure fatal
  | .getFwInfo mb => d.mbRun mb (mbOpen 0x0200 0 0) fun d => d.doGetFwInfo mb.path
  | .transferFw mb slot revision verifies => d.mbRun mb ⟨0x0201, true, true, false, 128, 32768⟩ fun d => d.doTransferFw mb.path slot revision verifies
  | .activateFw mb slot online => d.mbRun mb ⟨0x0202, true, true, false, 2, 2⟩ fun d => d.doActivateFw mb.path slot online
  | .getTimestamp mb => d.mbRun mb (mbOpen 0x0300 0 0) fun d => d.mbOk mb.path 0x0300 [(8, d.timestampNow)]
  | .setTimestamp mb value => d.mbRun mb (mbOpen 0x0301 8 8) fun d => d.doSetTimestamp mb.path value
  | .getSupportedLogs mb => d.mbRun mb (mbOpen 0x0400 0 0) fun d => d.doSupportedLogs mb.path
  | .getLog mb log offset length => d.mbRun mb (mbOpen 0x0401 24 24) fun d => d.doGetLog mb.path log offset length
  | .identifyMemoryDevice mb => d.mbRun mb (mbOpen 0x4000 0 0) fun d => d.doIdentifyMemory mb.path
  | .getHealthInfo mb => d.mbRun mb (mbOpen 0x4200 0 0) fun d => d.doHealth mb.path
  | .getAlertConfiguration mb => d.mbRun mb (mbOpen 0x4201 0 0) fun d => d.doGetAlerts mb.path
  | .setAlertConfiguration mb valid enable life temp ce => d.mbRun mb (mbOpen 0x4202 12 12) fun d => d.doSetAlerts mb.path valid enable life temp ce
  | .getShutdownState mb => d.mbRun mb (mbOpen 0x4203 0 0) fun d => d.mbOk mb.path 0x4203 [(1, b2n (d.fb FAB_SHUTDOWN_STATE.DIRTY))]
  | .setShutdownState mb dirty => d.mbRun mb ⟨0x4204, true, true, false, 1, 1⟩ fun d => d.doSetShutdown mb.path dirty
  | .getPoisonList mb dpa lines => d.mbRun mb (mbOpen 0x4300 16 16) fun d => d.doPoisonList mb.path dpa lines
  | .injectPoison mb dpa => d.mbRun mb ⟨0x4301, true, false, false, 8, 8⟩ fun d => d.doInject mb.path dpa
  | .clearPoison mb dpa data => d.mbRun mb ⟨0x4302, true, false, false, 72, 72⟩ fun d => d.doClearPoison mb.path dpa data
  | .sanitize mb => d.mbRun mb ⟨0x4400, true, true, false, 0, 0⟩ fun d => d.doSanitize mb.path
  | .getDcConfiguration mb first count => d.mbRun mb (mbOpen 0x4800 2 2) fun d => d.doDcConfig mb.path first count
  | .getDcExtentList mb first count => d.mbRun mb (mbOpen 0x4801 8 8) fun d => d.doDcExtents mb.path first count
  | .addDcResponse mb start size => d.mbRun mb (mbOpen 0x4802 8 65536) fun d => d.doDcAccept mb.path start size
  | .releaseDc mb start size => d.mbRun mb (mbOpen 0x4803 8 65536) fun d => d.doDcRelease mb.path start size
  | .unsupportedCommand mb opcode =>
    if supportedOpcodes.contains opcode then d
    else d.mbRun mb ⟨opcode, false, false, decide (0xC000 ≤ opcode), 0, pathLimit mb.path⟩ fun d => d.mbReply mb.path opcode .unsupported .unsupported []
  | .quenchTest mb sampleMib update => d.mbRun mb (mbMgmt 0xC000 8 8 true) fun d => d.doQuenchTest mb.path sampleMib update
  | .quenchNow mb confirm => d.mbRun mb (mbMgmt 0xC001 8 8 true) fun d => d.doQuenchNow mb.path confirm
  | .ceilingQuery mb => d.mbRun mb (mbVend 0xC002 0) fun d => d.doCeiling mb.path
  | .heatControlRead mb => d.mbRun mb (mbMgmt 0xC003 8 8 true) fun d => d.mbVendor mb.path 0xC003 .ok d.heatOut
  | .heatControlSetLength mb lengthUs => d.mbRun mb (mbMgmt 0xC003 8 8 true) fun d => d.doHeatLength mb.path lengthUs
  | .heatControlCloseNow mb => d.mbRun mb (mbMgmt 0xC003 8 8 true) fun d => d.doHeatClose mb.path
  | .cacheMode mb mode => d.mbRun mb (mbMgmt 0xC004 8 8 true) fun d => d.doCacheMode mb.path mode
  | .cacheModeQuery mb => d.mbRun mb (mbMgmt 0xC004 8 8 true) fun d => d.mbVendor mb.path 0xC004 .ok d.modeOut
  | .maintByAddr mb dpaStart slabCount op discard => d.mbRun mb ⟨0xC005, discard, false, true, 16, 16⟩ fun d => d.doMaint mb.path dpaStart slabCount op discard
  | .energyStatus mb => d.mbRun mb (mbVend 0xC006 0) fun d => d.doEnergy mb.path
  | .batteryLearnSchedule mb string => d.mbRun mb (mbMgmt 0xC007 8 8 true) fun d => d.doLearn mb.path string
  | .batteryLearnCancel mb string => d.mbRun mb (mbMgmt 0xC007 8 8 true) fun d => d.doLearnCancel mb.path string
  | .logReadLeaf mb leaf maxRecords startSeq => d.mbRun mb (mbVend 0xC008 16) fun d => d.doReadLeaf mb.path leaf maxRecords startSeq
  | .logClearLeaf mb leaf => d.mbRun mb (mbMgmt 0xC009 8 8 true) fun d => d.doClearLeaf mb.path leaf (authCode mb.auth)
  | .poolStatus mb die => d.mbRun mb (mbVend 0xC00A 8) fun d => d.doPoolStatus mb.path die
  | .swageApplyPartial mb image signatureOk => d.mbRun mb ⟨0xC00B, false, false, true, 128, 4096⟩ fun d => d.doPartial mb.path image signatureOk
  | .resetNoQuench mb confirm windowMs => d.mbRun mb (mbMgmt 0xC00C 8 8 true) fun d => d.doNoQuench mb.path confirm windowMs (authCode mb.auth)
  | .weldStatus mb => d.mbRun mb (mbVend 0xC00D 0) fun d => d.doWeldStatus mb.path
  | _ => d

/-- The commands that wait, run in their order until one goes on running (R101). -/
def Dev.mbDrain : Nat → Dev → Dev
  | 0, d => d
  | n + 1, d => match d.mbox.running, d.mbox.held with
    | none, i :: rest => Dev.mbDrain n ((d.setMbox fun m => { m with held := rest }).mbDo i)
    | _, _ => d

/-- A doorbell (R101): the command runs after those rung before it, or waits while another runs. -/
def Dev.ring (d : Dev) (i : Instr) : Dev :=
  let d := Dev.mbDrain d.mbox.held.length d
  if d.mbox.running.isSome then d.setMbox fun m => { m with held := m.held ++ [i] } else d.mbDo i

/-- IDENTIFY (R106). -/
def execIdentify (mb : Mb) (s : State) : Host.Outcome State Fault Refusal := s.on fun d => d.ring (.identify mb)

/-- BACKGROUND_OPERATION_STATUS (R106). -/
def execBackgroundOperationStatus (mb : Mb) (s : State) : Host.Outcome State Fault Refusal := s.on fun d => d.ring (.backgroundOperationStatus mb)

/-- GET_EVENT_RECORDS (R516, R518). -/
def execGetEventRecords (mb : Mb) (log : Nat) (s : State) : Host.Outcome State Fault Refusal := s.on fun d => d.ring (.getEventRecords mb log)

/-- CLEAR_EVENT_RECORDS (R517). -/
def execClearEventRecords (mb : Mb) (log : Nat) (all : Bool) (handles : List Nat) (s : State) : Host.Outcome State Fault Refusal := s.on fun d => d.ring (.clearEventRecords mb log all handles)

/-- GET_EVENT_INTERRUPT_POLICY (R106). -/
def execGetEventInterruptPolicy (mb : Mb) (s : State) : Host.Outcome State Fault Refusal := s.on fun d => d.ring (.getEventInterruptPolicy mb)

/-- SET_EVENT_INTERRUPT_POLICY (R106). -/
def execSetEventInterruptPolicy (mb : Mb) (info warning failure fatal : Bool) (s : State) : Host.Outcome State Fault Refusal := s.on fun d => d.ring (.setEventInterruptPolicy mb info warning failure fatal)

/-- GET_FW_INFO (R106). -/
def execGetFwInfo (mb : Mb) (s : State) : Host.Outcome State Fault Refusal := s.on fun d => d.ring (.getFwInfo mb)

/-- TRANSFER_FW (R106). -/
def execTransferFw (mb : Mb) (slot revision : Nat) (verifies : Bool) (s : State) : Host.Outcome State Fault Refusal := s.on fun d => d.ring (.transferFw mb slot revision verifies)

/-- ACTIVATE_FW (R561). -/
def execActivateFw (mb : Mb) (slot : Nat) (online : Bool) (s : State) : Host.Outcome State Fault Refusal := s.on fun d => d.ring (.activateFw mb slot online)

/-- GET_TIMESTAMP (R106). -/
def execGetTimestamp (mb : Mb) (s : State) : Host.Outcome State Fault Refusal := s.on fun d => d.ring (.getTimestamp mb)

/-- SET_TIMESTAMP (R519). -/
def execSetTimestamp (mb : Mb) (value : Nat) (s : State) : Host.Outcome State Fault Refusal := s.on fun d => d.ring (.setTimestamp mb value)

/-- GET_SUPPORTED_LOGS (R106). -/
def execGetSupportedLogs (mb : Mb) (s : State) : Host.Outcome State Fault Refusal := s.on fun d => d.ring (.getSupportedLogs mb)

/-- GET_LOG (R106). -/
def execGetLog (mb : Mb) (log offset length : Nat) (s : State) : Host.Outcome State Fault Refusal := s.on fun d => d.ring (.getLog mb log offset length)

/-- IDENTIFY_MEMORY_DEVICE (R106). -/
def execIdentifyMemoryDevice (mb : Mb) (s : State) : Host.Outcome State Fault Refusal := s.on fun d => d.ring (.identifyMemoryDevice mb)

/-- GET_HEALTH_INFO (R107). -/
def execGetHealthInfo (mb : Mb) (s : State) : Host.Outcome State Fault Refusal := s.on fun d => d.ring (.getHealthInfo mb)

/-- GET_ALERT_CONFIGURATION (R106). -/
def execGetAlertConfiguration (mb : Mb) (s : State) : Host.Outcome State Fault Refusal := s.on fun d => d.ring (.getAlertConfiguration mb)

/-- SET_ALERT_CONFIGURATION (R106). -/
def execSetAlertConfiguration (mb : Mb) (valid enable life temp ce : Nat) (s : State) : Host.Outcome State Fault Refusal := s.on fun d => d.ring (.setAlertConfiguration mb valid enable life temp ce)

/-- GET_SHUTDOWN_STATE (R95). -/
def execGetShutdownState (mb : Mb) (s : State) : Host.Outcome State Fault Refusal := s.on fun d => d.ring (.getShutdownState mb)

/-- SET_SHUTDOWN_STATE (R95). -/
def execSetShutdownState (mb : Mb) (dirty : Bool) (s : State) : Host.Outcome State Fault Refusal := s.on fun d => d.ring (.setShutdownState mb dirty)

/-- GET_POISON_LIST (R106). -/
def execGetPoisonList (mb : Mb) (dpa lines : Nat) (s : State) : Host.Outcome State Fault Refusal := s.on fun d => d.ring (.getPoisonList mb dpa lines)

/-- INJECT_POISON (R106). -/
def execInjectPoison (mb : Mb) (dpa : Nat) (s : State) : Host.Outcome State Fault Refusal := s.on fun d => d.ring (.injectPoison mb dpa)

/-- CLEAR_POISON (R106). -/
def execClearPoison (mb : Mb) (dpa : Nat) (data : Line) (s : State) : Host.Outcome State Fault Refusal := s.on fun d => d.ring (.clearPoison mb dpa data)

/-- SANITIZE (R108, R542). -/
def execSanitize (mb : Mb) (s : State) : Host.Outcome State Fault Refusal := s.on fun d => d.ring (.sanitize mb)

/-- GET_DC_CONFIGURATION (R109). -/
def execGetDcConfiguration (mb : Mb) (first count : Nat) (s : State) : Host.Outcome State Fault Refusal := s.on fun d => d.ring (.getDcConfiguration mb first count)

/-- GET_DC_EXTENT_LIST (R109). -/
def execGetDcExtentList (mb : Mb) (first count : Nat) (s : State) : Host.Outcome State Fault Refusal := s.on fun d => d.ring (.getDcExtentList mb first count)

/-- ADD_DC_RESPONSE (R109). -/
def execAddDcResponse (mb : Mb) (start size : Nat) (s : State) : Host.Outcome State Fault Refusal := s.on fun d => d.ring (.addDcResponse mb start size)

/-- RELEASE_DC (R109). -/
def execReleaseDc (mb : Mb) (start size : Nat) (s : State) : Host.Outcome State Fault Refusal := s.on fun d => d.ring (.releaseDc mb start size)

/-- UNSUPPORTED_COMMAND (R106, R110). -/
def execUnsupportedCommand (mb : Mb) (opcode : Nat) (s : State) : Host.Outcome State Fault Refusal := s.on fun d => d.ring (.unsupportedCommand mb opcode)

/-- QUENCH_TEST (R215, R217). -/
def execQuenchTest (mb : Mb) (sampleMib : Nat) (update : Bool) (s : State) : Host.Outcome State Fault Refusal := s.on fun d => d.ring (.quenchTest mb sampleMib update)

/-- QUENCH_NOW (R111). -/
def execQuenchNow (mb : Mb) (confirm : Nat) (s : State) : Host.Outcome State Fault Refusal := s.on fun d => d.ring (.quenchNow mb confirm)

/-- CEILING_QUERY (R112). -/
def execCeilingQuery (mb : Mb) (s : State) : Host.Outcome State Fault Refusal := s.on fun d => d.ring (.ceilingQuery mb)

/-- HEAT_CONTROL_READ (R110). -/
def execHeatControlRead (mb : Mb) (s : State) : Host.Outcome State Fault Refusal := s.on fun d => d.ring (.heatControlRead mb)

/-- HEAT_CONTROL_SET_LENGTH (R114, R177). -/
def execHeatControlSetLength (mb : Mb) (lengthUs : Nat) (s : State) : Host.Outcome State Fault Refusal := s.on fun d => d.ring (.heatControlSetLength mb lengthUs)

/-- HEAT_CONTROL_CLOSE_NOW (R179). -/
def execHeatControlCloseNow (mb : Mb) (s : State) : Host.Outcome State Fault Refusal := s.on fun d => d.ring (.heatControlCloseNow mb)

/-- CACHE_MODE (R145). -/
def execCacheMode (mb : Mb) (mode : Nat) (s : State) : Host.Outcome State Fault Refusal := s.on fun d => d.ring (.cacheMode mb mode)

/-- CACHE_MODE_QUERY (R148). -/
def execCacheModeQuery (mb : Mb) (s : State) : Host.Outcome State Fault Refusal := s.on fun d => d.ring (.cacheModeQuery mb)

/-- MAINT_BY_ADDR (R105, R114, R151, R152). -/
def execMaintByAddr (mb : Mb) (dpaStart slabCount op : Nat) (discard : Bool) (s : State) : Host.Outcome State Fault Refusal := s.on fun d => d.ring (.maintByAddr mb dpaStart slabCount op discard)

/-- ENERGY_STATUS (R459). -/
def execEnergyStatus (mb : Mb) (s : State) : Host.Outcome State Fault Refusal := s.on fun d => d.ring (.energyStatus mb)

/-- BATTERY_LEARN_SCHEDULE (R454). -/
def execBatteryLearnSchedule (mb : Mb) (string : Nat) (s : State) : Host.Outcome State Fault Refusal := s.on fun d => d.ring (.batteryLearnSchedule mb string)

/-- BATTERY_LEARN_CANCEL (R455). -/
def execBatteryLearnCancel (mb : Mb) (string : Nat) (s : State) : Host.Outcome State Fault Refusal := s.on fun d => d.ring (.batteryLearnCancel mb string)

/-- LOG_READ_LEAF (R521). -/
def execLogReadLeaf (mb : Mb) (leaf maxRecords startSeq : Nat) (s : State) : Host.Outcome State Fault Refusal := s.on fun d => d.ring (.logReadLeaf mb leaf maxRecords startSeq)

/-- LOG_CLEAR_LEAF (R512). -/
def execLogClearLeaf (mb : Mb) (leaf : Nat) (s : State) : Host.Outcome State Fault Refusal := s.on fun d => d.ring (.logClearLeaf mb leaf)

/-- POOL_STATUS (R110). -/
def execPoolStatus (mb : Mb) (die : Nat) (s : State) : Host.Outcome State Fault Refusal := s.on fun d => d.ring (.poolStatus mb die)

/-- SWAGE_APPLY_PARTIAL (R66 to R70). -/
def execSwageApplyPartial (mb : Mb) (image : List Byte) (signatureOk : Bool) (s : State) : Host.Outcome State Fault Refusal := s.on fun d => d.ring (.swageApplyPartial mb image signatureOk)

/-- RESET_NO_QUENCH (R557). -/
def execResetNoQuench (mb : Mb) (confirm windowMs : Nat) (s : State) : Host.Outcome State Fault Refusal := s.on fun d => d.ring (.resetNoQuench mb confirm windowMs)

/-- WELD_STATUS (R113). -/
def execWeldStatus (mb : Mb) (s : State) : Host.Outcome State Fault Refusal := s.on fun d => d.ring (.weldStatus mb)

/-- SANITIZE_COMPLETE (R108, R346). -/
def execSanitizeComplete (s : State) : Host.Outcome State Fault Refusal := s.on fun d => d.sanitizeEnd

/-- RELEASE_DC_COMPLETE (R109). -/
def execReleaseDcComplete (s : State) : Host.Outcome State Fault Refusal :=
  s.on fun d => let d := d.dcReleased; Dev.mbDrain d.mbox.held.length d

/-- INITIATE_DC_ADD (R78, R109). -/
def execInitiateDcAdd (regionStart regionSize block host start size : Nat) (s : State) : Host.Outcome State Fault Refusal :=
  s.on fun d => d.dcAdd ⟨regionStart, regionSize, block⟩ host start size

end Sys2Proof.Machine
end

