-- ==== Sys2Proof/Machine/Pools.lean ====
section
/-! DEFINITION. The meanings of the buffer pool commands (R494 to R502). -/

namespace Sys2Proof.Machine

open Sys2Proof

/-- POOL_ALLOC (R496): step 1 to 5 at the class's own arbiter. A pool that is not there serves nobody. -/
def execPoolAlloc (die r srcDie cls : Nat) (noFallback : Bool) (s : State) : Host.Outcome State Fault Refusal :=
  s.on fun d =>
    if die = 0 then d.allocBellows r
    else if d.inService die ∧ cls ≤ 3 ∧ d.mayAlloc r then
      let d := if r = 30 ∧ srcDie = die then
          ((d.setF POOL_CMD.OP 1 die).setF POOL_CMD.CLASS cls die).setB POOL_CMD.NO_FALLBACK noFallback die else d
      d.allocAt die r srcDie cls noFallback
    else d

/-- POOL_ALLOC_FALLBACK (R496 step 4): the first request that waits on the die is retried at the next larger class. -/
def execPoolAllocFallback (die : Nat) (s : State) : Host.Outcome State Fault Refusal :=
  s.on fun d =>
    match d.pool.fallback.find? (fun q => decide (q.1 = die)) with
    | none => d
    | some (_, c, r, srcDie) =>
      let d := { d with pool := { d.pool with fallback := dropFirst (fun q => decide (q.1 = die)) d.pool.fallback } }
      d.allocAt die r srcDie c false

/-- POOL_FREE (R494). -/
def execPoolFree (r srcDie handle : Nat) (s : State) : Host.Outcome State Fault Refusal :=
  s.on fun d => (d.poolCmd (handleDie handle) r srcDie 2 handle).onBuf r srcDie handle fun d die k b =>
    if !b.ownedBy r srcDie then d.refuseBuf die r srcDie handle b .notOwner
    else if b.pending then d.refuseBuf die r srcDie handle b .doubleFree
    else if b.share = 0 then (d.dropBuf k).poolDone die r srcDie .ok handle
    else (d.setBuf k { b with pending := true }).poolDone die r srcDie .freePending handle

/-- POOL_SHARE (R494): by a requester other than the owner; 255 sharers at most. -/
def execPoolShare (r srcDie handle : Nat) (s : State) : Host.Outcome State Fault Refusal :=
  s.on fun d => (d.poolCmd (handleDie handle) r srcDie 3 handle).onBuf r srcDie handle fun d die k b =>
    if d.quarantined die r then d.poolDone die r srcDie .accessDenied handle
    else if b.pending then d.poolDone die r srcDie .freePending handle
    else if b.share < 255 then (d.setBuf k { b with share := b.share + 1 }).poolDone die r srcDie .ok handle
    else d.poolDone die r srcDie .quota handle

/-- POOL_RELEASE (R494). -/
def execPoolRelease (r srcDie handle : Nat) (s : State) : Host.Outcome State Fault Refusal :=
  s.on fun d => (d.poolCmd (handleDie handle) r srcDie 4 handle).onBuf r srcDie handle fun d die k b =>
    if b.share = 0 then d.refuseBuf die r srcDie handle b .doubleFree
    else if b.pending ∧ b.share = 1 then (d.dropBuf k).poolDone die r srcDie .ok handle
    else (d.setBuf k { b with share := b.share - 1 }).poolDone die r srcDie .ok handle

/-- POOL_HANDOFF (R494): the buffer and its quota charge move to another requester that is within its quota. -/
def execPoolHandoff (r srcDie handle newReq newDie : Nat) (s : State) : Host.Outcome State Fault Refusal :=
  s.on fun d => (d.poolCmd (handleDie handle) r srcDie 5 handle).onBuf r srcDie handle fun d die k b =>
    if d.quarantined die r then d.poolDone die r srcDie .accessDenied handle
    else if !b.ownedBy r srcDie then d.refuseBuf die r srcDie handle b .notOwner
    else if b.pending then d.poolDone die r srcDie .freePending handle
    else if d.held die newReq k.cls < d.quota newReq k.cls then
      (d.setBuf k { b with owner := newReq, ownerDie := newDie }).poolDone die r srcDie .ok handle
    else d.poolDone die r srcDie .quota handle

/-- POOL_CMD_UNSUPPORTED (R502): OP 0, 6 and 7. -/
def execPoolCmdUnsupported (die op : Nat) (s : State) : Host.Outcome State Fault Refusal :=
  s.on fun d =>
    if d.inService die ∧ (op = 0 ∨ op = 6 ∨ op = 7) ∧ d.fb POOL_CMD_STATUS.BUSY die = false then
      (d.setF POOL_CMD.OP op die).poolDone die 30 die .unsupported 0
    else d

/-- POOL_QUARANTINE_RELEASE (R501): each requester named leaves quarantine and its violation count is cleared. -/
def execPoolQuarantineRelease (die mask : Nat) (s : State) : Host.Outcome State Fault Refusal :=
  s.on fun d =>
    if d.inService die then
      d.forEach ((bitsOf 32 mask).filter (d.quarantined die)) fun d r =>
        let n := d.f POOL_VIOLATIONS.COUNT die r
        let d := d.setF POOL_QUARANTINE.MASK (d.f POOL_QUARANTINE.MASK die - 2 ^ r) die
        (d.setF POOL_VIOLATIONS.COUNT 0 die r).raise .POOL_QUARANTINE die [p1 r, p1 1, p4 n]
    else d

end Sys2Proof.Machine
end

