-- ==== Sys2Proof/Machine/Quench.lean ====
section
/-! DEFINITION. The meanings of the quench's commands (R162, R224 to R263); its end stands with the resets. -/

namespace Sys2Proof.Machine

open Sys2Proof

/-- MAIN_SENSE_TRIP: the pin has stood at a voltage in mV for a time in ns (R224). -/
def execMainSenseTrip (mv ns : Nat) (s : State) : Host.Outcome State Fault Refusal :=
  s.on fun d =>
    let d := d.setB BELL_SUPPLY_STATUS.MAIN_ABOVE (decide (400 + 4 * d.f QNCH_TRIG_CTRL.MAIN_THRESH ≤ mv))
    if d.fb QNCH_TRIG_CTRL.MAIN_EN && d.senseTrips QNCH_TRIG_CTRL.MAIN_THRESH QNCH_TRIG_CTRL.MAIN_FILTER mv ns then d.trip 1 else d

/-- HOLD_SENSE_TRIP (R224). -/
def execHoldSenseTrip (mv ns : Nat) (s : State) : Host.Outcome State Fault Refusal :=
  s.on fun d =>
    let d := d.setB BELL_SUPPLY_STATUS.HOLD_ABOVE (decide (400 + 4 * d.f QNCH_TRIG_CTRL.HOLD_THRESH ≤ mv))
    if d.fb QNCH_TRIG_CTRL.HOLD_EN && d.senseTrips QNCH_TRIG_CTRL.HOLD_THRESH QNCH_TRIG_CTRL.HOLD_FILTER mv ns then d.trip 2 else d

/-- PWR_FAIL_N_TRIP: the pin has been low for a time in ns (R224). -/
def execPwrFailNTrip (ns : Nat) (s : State) : Host.Outcome State Fault Refusal :=
  s.on fun d =>
    let d := d.setB BELL_SUPPLY_STATUS.PFN_LEVEL (decide (ns = 0))
    if d.fb QNCH_TRIG_CTRL.PFN_EN && decide (filterNs (d.f QNCH_TRIG_CTRL.PFN_FILTER) ≤ ns) then d.trip 3 else d

/-- QNCH_TRIG_CTRL_WRITE (R226). -/
def execQnchTrigCtrlWrite (value : Nat) (s : State) : Host.Outcome State Fault Refusal := s.on fun d => d.writeTrigCtrl value

/-- FENCE_DRAINED (R162). -/
def execFenceDrained (die slice : Nat) (s : State) : Host.Outcome State Fault Refusal := s.on fun d => d.fenceDrained die slice

/-- POWER_SHED (R236). -/
def execPowerShed (die lowest : Nat) (ack : Bool) (s : State) : Host.Outcome State Fault Refusal :=
  s.on fun d => d.shedDie die lowest ack

/-- DIRTY_WALK_START: `bad` names the sectors whose DRAM read is uncorrectable (R241, R242). -/
def execDirtyWalkStart (die : Nat) (bad : List (Nat × Nat)) (s : State) : Host.Outcome State Fault Refusal := s.on fun d => d.walkStart die bad

/-- SEGMENT_PROGRAM_DONE (R246): the program that the NAND die runs completes, a segment's or another unit's. -/
def execSegmentProgramDone (die chan nand : Nat) (s : State) : Host.Outcome State Fault Refusal := s.on fun d => d.programDone ⟨die, chan, nand⟩

/-- QUENCH_BLOCK_FAIL (R258). -/
def execQuenchBlockFail (die chan nand plane : Nat) (s : State) : Host.Outcome State Fault Refusal :=
  s.on fun d => d.qnchBlockFail ⟨die, chan, nand⟩ plane

/-- QUENCH_NAND_DIE_FAIL (R259). -/
def execQuenchNandDieFail (die chan nand : Nat) (s : State) : Host.Outcome State Fault Refusal :=
  s.on fun d => if d.nandUp ⟨die, chan, nand⟩ then d.qnchNandFail ⟨die, chan, nand⟩ else d

/-- QUENCH_NAND_DIE_READY (R233): a NAND die whose aborted erase or scratch program has ended joins the round-robin. -/
def execQuenchNandDieReady (die chan nand : Nat) (s : State) : Host.Outcome State Fault Refusal :=
  s.on fun d =>
    let n : Nand := ⟨die, chan, nand⟩
    if d.quench.isNone || !(d.quadsIn n fun s => decide (s = .erasing)).isEmpty then d
    else (d.modQuench fun q => { q with notReady := q.notReady.filter fun x => decide (x ≠ n) }).qPump

/-- TRAILER_PROGRAM (R253). -/
def execTrailerProgram (die : Nat) (s : State) : Host.Outcome State Fault Refusal := s.on fun d => d.trailerStart die

/-- COMMIT_RECORD_PROGRAM, `ms` after T0 (R254). -/
def execCommitRecordProgram (ms : Nat) (s : State) : Host.Outcome State Fault Refusal := s.on fun d => d.commitStart ms

/-- COMMIT_POINTER_PROGRAM: whether the program succeeds, and the Temper store's status where it does not (R255, R263). -/
def execCommitPointerProgram (ok : Bool) (status : Nat) (s : State) : Host.Outcome State Fault Refusal := s.on fun d => d.pointerStart ok status

end Sys2Proof.Machine
end

