-- ==== Sys2Proof/Machine/Recorder.lean ====
section
/-! DEFINITION. The meanings of the event recorder's commands (R507 to R522). -/

namespace Sys2Proof.Machine

open Sys2Proof

/-- EVENT_RAISE (R507): an event goes through the rate limit, takes a SEQ and is queued for its leaf and the view. -/
def execEventRaise (ev : Ev) (source : Nat) (payload : Fields) (s : State) : Host.Outcome State Fault Refusal :=
  s.on fun d => d.raise ev source payload

/-- LEAF_PROGRAM_DONE (R509): the oldest queued record whose slot is erased is in its leaf; one that finds its leaf full is
dropped. -/
def execLeafProgramDone (s : State) : Host.Outcome State Fault Refusal :=
  s.on fun d =>
    if d.aonLow then d else
    match d.evt.queue.find? (fun q => d.slotErased q.1 (d.f EVT_LEAF_STATUS.RECORDS 0 q.1)) with
    | none => d
    | some (k, r) =>
      let d := { d with evt := { d.evt with queue := dropFirst (fun q => decide (q = (k, r))) d.evt.queue } }
      if leafSlots ≤ d.f EVT_LEAF_STATUS.RECORDS 0 k then d.countDrop k r.code else d.leafProgram k r

/-- TOKEN_REFILL (R514, R515): a bucket below 8 gains a token; suppressed occurrences give one EVT_SUPPRESSED record. -/
def execTokenRefill (code : Nat) (s : State) : Host.Outcome State Fault Refusal :=
  s.on fun d =>
    let b := d.bucket code
    if 8 ≤ b.tokens then d
    else
      let d := d.setBucket code { b with tokens := b.tokens + 1, suppressed := 0 }
      if b.suppressed = 0 then d
      else d.raiseB .EVT_SUPPRESSED [p2 code, p4 b.suppressed, p1 b.firstSrc, p1 b.lastSrc, p8 b.lastSeq]

/-- SEQ_RESERVATION_DONE (R508): at RESERVATION − 2^19 and later a reservation of RESERVATION + 2^20 is programmed, or its
programming fails. A success after a stall lets numbering resume with one EVT_SEQ_RESERVE_FAIL record. -/
def execSeqReservationDone (ok : Bool) (s : State) : Host.Outcome State Fault Refusal :=
  s.on fun d =>
    if d.evt.nextSeq + 2 ^ 19 < d.evt.reservation ∨ ok = false then d
    else
      let d := ({ d with evt := { d.evt with reservation := d.evt.reservation + 2 ^ 20 } }).saveReservation
      if d.fb EVT_STATUS.SEQ_STALL then
        let n := d.f EVT_UNSEQ.COUNT
        (d.setB EVT_STATUS.SEQ_STALL false).raiseB .EVT_SEQ_RESERVE_FAIL [p4 n, p1 Status.programFail.code]
      else d

/-- LEAF_CLEAR_ERASE (R512): the next sector of a clearing leaf is erased; after sector 95 the clear has ended. -/
def execLeafClearErase (leaf : Nat) (s : State) : Host.Outcome State Fault Refusal :=
  s.on fun d =>
    match tget d.evt.clearing leaf with
    | none => d
    | some sector =>
      let d := d.tmpEraseSector (leafBase leaf / 4096 + sector)
      if sector < 95 then { d with evt := { d.evt with clearing := tset d.evt.clearing leaf (sector + 1) } }
      else
        let d := { d with evt := { d.evt with clearing := tdel d.evt.clearing leaf } }
        d.setB EVT_LEAF_STATUS.CLEARING false 0 leaf

/-- EVT_WIN_SEQ_WRITE (R522). -/
def execEvtWinSeqWrite (hearth seq : Nat) (s : State) : Host.Outcome State Fault Refusal :=
  s.on fun d => if d.hearthExists hearth then (d.setF EVT_WIN_SEQ.SEQ seq hearth).winStatus hearth else d

/-- EVT_WIN_NEXT (R522): SEQ becomes the presented record's SEQ + 1. -/
def execEvtWinNext (hearth : Nat) (s : State) : Host.Outcome State Fault Refusal :=
  s.on fun d =>
    match d.hearthExists hearth, d.winRecord hearth with
    | true, some r => (d.setF EVT_WIN_SEQ.SEQ (r.seq + 1) hearth).winStatus hearth
    | _, _ => d

end Sys2Proof.Machine
end

