-- ==== Sys2Proof/Machine/SecureOps.lean ====
section
/-! DEFINITION. The SPDM responder's state, cipher jobs and alarms (R529 to R536, R545 to R550). -/

namespace Sys2Proof.Machine

open Sys2Proof

/-! ### SPDM (R529 to R532) -/

/-- Whether a transport reaches the responder: a DOE instance of an SLD, of an FM-owned LD or of a GFAM port, or the sideband (R529). -/
def Dev.spdmReady (d : Dev) (t : Path) : Bool :=
  d.mbReady t && match t with
    | .port _ _ (some l) => decide (l = 0xFFFF)
    | _ => true

/-- A response on its transport. -/
def Dev.spdmReply (d : Dev) (t : Path) (name : String) (fields : Fields) : Dev := d.emit (.spdm t name fields)

/-- A request that is answered at once. -/
def Dev.spdmAnswer (d : Dev) (t : Path) (name : String) (fields : Fields) : Dev := if d.spdmReady t then d.spdmReply t name fields else d

/-- A signature by an identity's key: a free value (assumption 3). -/
def Dev.signature (d : Dev) : Nat × Nat := (96, d.freeVal % 2 ^ 768)

/-- SHA-384 over the package's certificate chain: identity 0 is the package (R527). -/
def chainDigest : Nat := Config.measure 0 % 2 ^ 384

/-- A number from fields, least significant first. -/
def joinFields (l : Fields) : Nat := leValue (fieldBytes l)

/-- The measurement records 1 to 5 (R530). -/
def Dev.measurements (d : Dev) : Fields :=
  let slot := d.pkg.runningSlot.getD 0
  let rev := (d.rst.fw.getD slot ⟨0, false⟩).revision
  let policy := joinFields [p4 d.swg.cfg.secPolicy, (48, d.sec.ownerHash.getD 0), p1 d.sec.epoch, pB (d.fb SEC_STATUS.DEBUG_LOCKED)]
  [(48, Config.measure 1 % 2 ^ 384), (48, Config.measure (4 + 2 * rev) % 2 ^ 384), (48, Config.measure (5 + 2 * rev) % 2 ^ 384),
   (48, joinFields (d.swageHash.map fun x => (4, x))), (48, Config.hash384 policy % 2 ^ 384)]

/-- A session opened by KEY_EXCHANGE (R531, R533): the lowest free number, its keys in its four slots. The cause item of the event names
none then: a free value. -/
def Dev.openSession (d : Dev) (t : Path) (byOwner : Bool) : Dev :=
  match (List.range 8).find? fun i => d.sec.sessions.all fun s => decide (s.id ≠ i) with
  | none => d.spdmReply t "ERROR SessionLimitExceeded" []
  | some id =>
    let d := d.setSec fun x => { x with sessions := x.sessions ++ [⟨id, t, byOwner, false, false⟩] }
    let d := d.forEach (sessionSlots id) fun d k => let (key, d) := d.drawKey; (d.writeKey k 1 key).1
    let d := (d.tick.showSessions).raiseB .SEC_SPDM_SESSION [p1 0, p4 (transportCode t), p1 0, p1 d.freeVal]
    d.spdmReply t "KEY_EXCHANGE_RSP" [(1, id)]

/-- A session that runs on a transport. -/
def Dev.sessionOn (d : Dev) (t : Path) (id : Nat) : Option Session := d.sec.sessions.find? fun s => decide (s.id = id ∧ s.transport = t)

/-- An IDE_KM message is taken inside a finished session on the DOE instance of the port that it names (R532). -/
def Dev.ideSession (d : Dev) (id die port : Nat) : Option Path :=
  match d.sec.sessions.find? fun s => decide (s.id = id) && s.finished with
  | some s => match s.transport with
    | .port a b _ => if a = die ∧ b = port ∧ d.spdmReady s.transport = true then some s.transport else none
    | .sideband => none
  | none => none

/-- The sub-stream slots of a port's key set that hold a key. -/
def Dev.ideHolds (d : Dev) (die port set : Nat) : Bool := (List.range 8).any fun sub => (d.cell (.ide die port set sub)).key.isSome

/-! ### Cipher jobs (R534 to R536, R545) -/

/-- A slot by its die (0: a package slot) and number. -/
def slotOf (die n : Nat) : KeySlot :=
  if die = 0 then .package n
  else if n < 256 then .ide die (n / 16) (n / 8 % 2) (n % 8)
  else .weld die ((n - 256) / 2 % 2) (decide (n % 2 = 1))

/-- Whether a vault has such a slot (R533). -/
def Dev.hasSlot (d : Dev) (die n : Nat) : Bool := if die = 0 then decide (n < 64) else d.isDie die && decide (n < 260)

/-- A stream whose saved context does not unwrap (R545): its job ends with AUTH_FAIL; an IDE stream becomes insecure, and a Weld link goes
down. -/
def Dev.contextFails (d : Dev) (s : KeySlot) (group stream : Nat) : Dev :=
  let job := tget d.sec.streams stream
  let d := d.setSec fun x => { x with streams := tdel x.streams stream, jobs := match job with
    | some j => x.jobs.filter fun y => decide (y.id ≠ j)
    | none => x.jobs }
  let d := match job with | some j => d.emit (.cipherEnd j .authFail) | none => d
  let d := d.raise .SEC_CONTEXT_AUTH_FAIL (if s.die = 0 then bellowsId else s.die) [p4 group, p4 stream]
  match s with
  | .ide die port _ _ =>
    let d := d.setB FAB_PORT_STATUS.IDE_SECURE false die port
    { d with fab := { d.fab with insecure := if d.fab.insecure.contains (die, port) then d.fab.insecure else d.fab.insecure ++ [(die, port)] } }
  | .weld die link _ => d.linkLost (die, link) 1
  | .package _ => d

/-- A cipher job starts (R534, R536). A stream's later job resumes its context and keeps its reference. -/
def Dev.startJob (d : Dev) (s : KeySlot) (stream : Option Nat) : Dev :=
  let c := d.cell s
  let id := d.sec.nextJob
  let d := d.setSec fun x => { x with nextJob := id + 1 }
  if c.key.isNone then d.emit (.cipherEnd id .keyErased)
  else
    let d := d.setSec fun x => { x with jobs := x.jobs ++ [⟨id, s, c.gen, stream.isSome⟩],
                                        streams := match stream with | some t => tset x.streams t id | none => x.streams }
    d.setCell s { c with users := c.users + 1 }

/-- A cipher job ends and releases its reference; a shadow without users is zeroized (R535). -/
def Dev.endJob (d : Dev) (id : Nat) : Dev :=
  match d.sec.jobs.find? fun j => decide (j.id = id) with
  | none => d
  | some j =>
    let d := d.setSec fun x => { x with jobs := x.jobs.filter fun y => decide (y.id ≠ id), streams := x.streams.filter fun e => decide (e.2 ≠ id) }
    let c := d.cell j.slot
    let c : KeyCell :=
      if c.gen = j.gen then { c with users := c.users - 1 }
      else match c.shadow with
        | some (g, k, n) => if g = j.gen then { c with shadow := if n ≤ 1 then none else some (g, k, n - 1) } else c
        | none => c
    (d.setCell j.slot c).emit (.cipherEnd id .ok)

/-! ### Alarms (R547 to R550) -/

/-- Every slot that holds something. -/
def Dev.occupied (d : Dev) : List KeySlot := tkeys d.sec.cells fun _ c => c.key.isSome || c.shadow.isSome

def KeySlot.isPackage : KeySlot → Bool
  | .package _ => true
  | _ => false

/-- Step 1 of R548: the vault zeroized, sessions ended, IDE streams insecure and Weld links down. The time since the trip is a free
value (assumption 3). -/
def Dev.zeroize (d : Dev) : Dev :=
  let all := d.occupied
  let d := d.endSessions (fun _ => true) 3
  let d := d.forEach d.occupied fun d s => d.eraseKey s
  let ports := (d.diesUp.map fun die => (List.range (d.swg.cfg.fabricPorts die).length).map fun p => (die, p)).flatten.filter fun p =>
    d.fb FAB_PORT_STATUS.IDE_SECURE p.1 p.2
  let d := d.forEach ports fun d p =>
    let d := d.setB FAB_PORT_STATUS.IDE_SECURE false p.1 p.2
    { d with fab := { d.fab with insecure := if d.fab.insecure.contains p then d.fab.insecure else d.fab.insecure ++ [p] } }
  let d := d.forEach d.usable fun d l => d.linkDown l (d.downState l)
  d.tick.raiseB .SEC_ZEROIZED [p4 (all.filter KeySlot.isPackage).length, p4 (all.filter fun s => !s.isPackage).length, p4 d.freeVal]

/-- One BLOB_EPOCH fuse burnt and the Ingot-key rings erased (R548): how the blobs were destroyed is 0 by fuse, 1 by erase. -/
def Dev.destroyBlobs (d : Dev) : Dev :=
  let by' := if d.sec.epoch < 32 then 0 else 1
  let d := d.burnEpoch
  (d.raiseB .SEC_BLOBS_DESTROYED [p4 d.sec.epoch, p1 by']).eraseRings ingotKeyRings

/-- A quench ends at once, without a commit pointer (R549). -/
def Dev.stopQuench (d : Dev) : Dev := { (d.setPin "QUENCH_OUT" 0 0) with quenching := false, quench := none }

/-- An alarm trips (R547 to R550): `src` is its field and `n` its bit in SEC_ALARM_CAUSE. -/
def Dev.alarm (d : Dev) (src : Fld) (n : Nat) (tamper : Bool) (st : Straps) : Dev :=
  if !d.rst.powered then d
  else
    let first := !d.fb SEC_STATUS.ALARM
    let d := (d.setB src true).setB SEC_STATUS.ALARM true
    let d := if first then d.setB SEC_STATUS.TAMPER_CLASS tamper else d
    let dirty := d.D
    let d := d.raiseB .SEC_ALARM [p1 (b2n tamper), p1 (2 ^ n), p8 dirty]
    let d := d.zeroize
    if tamper then
      let d := d.destroyBlobs
      let d := if dirty = 0 then d else d.setRht fun x => { x with lostBefore := some 0 }
      if d.quenching then
        let d := (d.decideReset 4 true st).stopQuench
        d.advanceReset false st
      else d.decideReset 4 true st
    else (d.setSec fun x => { x with reload := true }).decideReset 4 false st

/-- Whether SEC_POLICY puts a glitch source into the tamper class (R547). -/
def Dev.glitchTampers (d : Dev) (bitNo : Nat) : Bool := bit d.swg.cfg.secPolicy bitNo

end Sys2Proof.Machine
end

