-- ==== Sys2Proof/Machine/Secure.lean ====
section
/-! DEFINITION. The meanings of the SPDM and IDE_KM messages, the cipher jobs, the entropy source, the alarms and the owner key (R528 to
R550). -/

namespace Sys2Proof.Machine

open Sys2Proof

/-- SPDM_GET_VERSION: SPDM 1.2 (R529). -/
def execSpdmGetVersion (t : Path) (s : State) : Host.Outcome State Fault Refusal :=
  s.on fun d => d.spdmAnswer t "VERSION" [(1, 1), (2, 0x1200)]

/-- SPDM_GET_CAPABILITIES: CERT, CHAL, MEAS with signature, KEY_EX, ENCRYPT, MAC, MUT_AUTH and PUB_KEY_ID (R529), at the bits of SPDM 1.2
(PRESUMED, assumption 22). -/
def execSpdmGetCapabilities (t : Path) (s : State) : Host.Outcome State Fault Refusal :=
  s.on fun d => d.spdmAnswer t "CAPABILITIES" [(4, 0x103D6)]

/-- SPDM_NEGOTIATE_ALGORITHMS: measurement hash, BaseAsymAlgo, BaseHashAlgo, DHE and AEAD (R529), in the codes of SPDM 1.2 (PRESUMED,
assumption 22). -/
def execSpdmNegotiateAlgorithms (t : Path) (s : State) : Host.Outcome State Fault Refusal :=
  s.on fun d => d.spdmAnswer t "ALGORITHMS" [(4, 4), (4, 0x80), (4, 2), (2, 0x10), (2, 2)]

/-- SPDM_GET_DIGESTS: slot 0 alone (R529). -/
def execSpdmGetDigests (t : Path) (s : State) : Host.Outcome State Fault Refusal :=
  s.on fun d => d.spdmAnswer t "DIGESTS" [(1, 1), (48, chainDigest)]

/-- SPDM_GET_CERTIFICATE: a portion of the package chain in slot 0 (R527, R529). -/
def execSpdmGetCertificate (t : Path) (slot off len : Nat) (s : State) : Host.Outcome State Fault Refusal :=
  s.on fun d =>
    let n := Nat.min len (Config.certLen 0 - off)
    if slot ≠ 0 then d.spdmAnswer t "ERROR InvalidRequest" []
    else d.spdmAnswer t "CERTIFICATE" [(2, n), (2, Config.certLen 0 - off - n), (n, Config.certBytes 0 off n)]

/-- SPDM_CHALLENGE (R529). -/
def execSpdmChallenge (t : Path) (slot _nonce : Nat) (s : State) : Host.Outcome State Fault Refusal :=
  s.on fun d =>
    if slot ≠ 0 then d.spdmAnswer t "ERROR InvalidRequest" []
    else d.tick.spdmAnswer t "CHALLENGE_AUTH" [(48, chainDigest), d.signature]

/-- SPDM_GET_MEASUREMENTS: the five records, signed (R530). -/
def execSpdmGetMeasurements (t : Path) (_nonce : Nat) (s : State) : Host.Outcome State Fault Refusal :=
  s.on fun d => d.tick.spdmAnswer t "MEASUREMENTS" (d.measurements ++ [d.signature])

/-- SPDM_KEY_EXCHANGE; `ownerKey`: with mutual authentication under the provisioned owner key (R531). -/
def execSpdmKeyExchange (t : Path) (ownerKey : Bool) (s : State) : Host.Outcome State Fault Refusal :=
  s.on fun d => if d.spdmReady t then d.openSession t ownerKey else d

/-- SPDM_FINISH: the session is complete; it carries the management role where the owner key was used and its signature verified (R531). -/
def execSpdmFinish (t : Path) (session : Nat) (signatureOk : Bool) (s : State) : Host.Outcome State Fault Refusal :=
  s.on fun d => match d.sessionOn t session with
    | none => d
    | some x =>
      let role := x.byOwner && signatureOk && d.sec.ownerHash.isSome
      let d := d.setSec fun c => { c with sessions := c.sessions.map fun y => if y.id = session then { y with finished := true, management := role } else y }
      d.spdmReply t "FINISH_RSP" []

/-- SPDM_END_SESSION (R531). -/
def execSpdmEndSession (t : Path) (session : Nat) (s : State) : Host.Outcome State Fault Refusal :=
  s.on fun d => if (d.sessionOn t session).isSome then (d.spdmReply t "END_SESSION_ACK" []).endSession session 0 else d

/-- SPDM_UNSUPPORTED: any other request (R529). -/
def execSpdmUnsupported (t : Path) (s : State) : Host.Outcome State Fault Refusal :=
  s.on fun d => d.spdmAnswer t "ERROR UnsupportedRequest" []

/-- IDE_KM_QUERY (R532): the response gives the port, and which key sets hold keys. -/
def execIdeKmQuery (session die port : Nat) (s : State) : Host.Outcome State Fault Refusal :=
  s.on fun d => match d.ideSession session die port with
    | none => d
    | some t => d.spdmReply t "QUERY_RESP" [p1 port, pB (d.ideHolds die port 0), pB (d.ideHolds die port 1), pB (d.fb FAB_PORT_STATUS.IDE_SECURE die port)]

/-- IDE_KM_KEY_PROG writes a link slot of the port's die (R532, R534, R535). -/
def execIdeKmKeyProg (session die port stream set sub key : Nat) (s : State) : Host.Outcome State Fault Refusal :=
  s.on fun d => match d.ideSession session die port with
    | none => d
    | some t =>
      if 2 ≤ set ∨ 8 ≤ sub then d.spdmReply t "KP_ACK" [p1 Status.unsupported.code]
      else
        let (d, ok) := d.writeKey (.ide die port set sub) 1 key
        if ok then (d.raise .SEC_IDE_KEY die [p1 port, p4 stream, p4 set, p1 0]).spdmReply t "KP_ACK" [p1 Status.ok.code]
        else d.spdmReply t "KP_ACK" [p1 Status.busy.code]

/-- IDE_KM_K_SET_GO switches the stream to the named set; a secured stream takes messages again (R87, R532). -/
def execIdeKmKSetGo (session die port stream set : Nat) (s : State) : Host.Outcome State Fault Refusal :=
  s.on fun d => match d.ideSession session die port with
    | none => d
    | some t =>
      let d := d.raise .SEC_IDE_KEY die [p1 port, p4 stream, p4 set, p1 1]
      let d := d.setSec fun x => { x with ideSets := tset x.ideSets (die, port) (set % 2) }
      let d := if d.ideHolds die port (set % 2) then
          let d := d.setB FAB_PORT_STATUS.IDE_SECURE true die port
          { d with fab := { d.fab with insecure := d.fab.insecure.filter fun p => decide (p ≠ (die, port)) } }
        else d
      d.spdmReply t "K_GOSTOP_ACK" [p1 port]

/-- IDE_KM_K_SET_STOP erases the stream's slots, and the stream becomes insecure (R532, R536). -/
def execIdeKmKSetStop (session die port stream : Nat) (s : State) : Host.Outcome State Fault Refusal :=
  s.on fun d => match d.ideSession session die port with
    | none => d
    | some t =>
      let d := d.raise .SEC_IDE_KEY die [p1 port, p4 stream, p4 (tgetD d.sec.ideSets (die, port) 0), p1 2]
      let d := d.eraseIde die port
      let d := { d with fab := { d.fab with insecure := if d.fab.insecure.contains (die, port) then d.fab.insecure else d.fab.insecure ++ [(die, port)] } }
      d.spdmReply t "K_GOSTOP_ACK" [p1 port]

/-- IDE_KM_GETKEY returns an error (R532). -/
def execIdeKmGetkey (session die port : Nat) (s : State) : Host.Outcome State Fault Refusal :=
  s.on fun d => match d.ideSession session die port with
    | none => d
    | some t => d.spdmReply t "ERROR" []

/-- CIPHER_JOB_START: a job on a slot (die 0: a package slot); a stream's saved context unwraps first under slot 7 (R534, R536, R545). -/
def execCipherJobStart (die slot group : Nat) (stream : Option Nat) (unwrapOk : Bool) (s : State) : Host.Outcome State Fault Refusal :=
  s.on fun d =>
    if !d.hasSlot die slot || !d.rst.powered then d
    else
      let k := slotOf die slot
      match stream with
      | some t =>
        if (tget d.sec.streams t).isSome then
          (if unwrapOk && (d.cell (.package 7)).key.isSome then d else d.contextFails k group t)
        else d.startJob k (some t)
      | none => d.startJob k none

/-- CIPHER_JOB_END (R534, R535). -/
def execCipherJobEnd (job : Nat) (s : State) : Host.Outcome State Fault Refusal := s.on fun d => d.endJob job

/-- DRBG_HEALTH_FAIL (R537). -/
def execDrbgHealthFail (test : Nat) (s : State) : Host.Outcome State Fault Refusal :=
  s.on fun d => (((d.setB SEC_DRBG_STATUS.HEALTHY false).incF SEC_DRBG_STATUS.FAILS).raiseB .SEC_DRBG_FAIL [p4 test])

/-- DRBG_HEALTH_PASS (R537). -/
def execDrbgHealthPass (s : State) : Host.Outcome State Fault Refusal := s.on fun d => d.setB SEC_DRBG_STATUS.HEALTHY true

/-- TAMPER_N_ALARM: the pin has been low for a time in ns (R547). -/
def execTamperNAlarm (ns : Nat) (st : Straps) (s : State) : Host.Outcome State Fault Refusal :=
  s.on fun d => if ns < 50 then d else d.alarm SEC_ALARM_CAUSE.TAMPER_N 0 true st

/-- SHIELD_MESH_ALARM (R547). -/
def execShieldMeshAlarm (st : Straps) (s : State) : Host.Outcome State Fault Refusal :=
  s.on fun d => d.alarm SEC_ALARM_CAUSE.MESH 1 true st

/-- VOLTAGE_ALARM: a rail (0 VDD_AON, else VDD_CORE of a die) has stood at a voltage in mV for a time in ns (R547). -/
def execVoltageAlarm (rail mv ns : Nat) (st : Straps) (s : State) : Host.Outcome State Fault Refusal :=
  s.on fun d =>
    let v := d.f SVC_VDD.SETPOINT rail
    let out := if rail = 0 then decide (mv < 2800 ∨ 3800 < mv) else d.isDie rail && decide (mv + 100 < v ∨ v + 100 < mv)
    if out && decide (5 ≤ ns) then d.alarm SEC_ALARM_CAUSE.VOLTAGE 2 (d.glitchTampers 1) st else d

/-- CLOCK_ALARM: a period has been off its reference by a percentage for some cycles (R547). -/
def execClockAlarm (offPct cycles : Nat) (st : Straps) (s : State) : Host.Outcome State Fault Refusal :=
  s.on fun d => if 25 < offPct ∧ 2 ≤ cycles then d.alarm SEC_ALARM_CAUSE.CLOCK 3 (d.glitchTampers 2) st else d

/-- TEMPERATURE_ALARM: the Bellows junction in °C (R547). -/
def execTemperatureAlarm (tj : Int) (st : Straps) (s : State) : Host.Outcome State Fault Refusal :=
  s.on fun d => if 125 < tj ∨ tj < -40 then d.alarm SEC_ALARM_CAUSE.TEMPERATURE 4 (d.glitchTampers 3) st else d

/-- KEY_RELOAD: the current Ingot key is reloaded with its KEY_GEN after a glitch alarm, and the quench's units go on (R548, R549). -/
def execKeyReload (s : State) : Host.Outcome State Fault Refusal :=
  s.on fun d =>
    if !d.sec.reload then d
    else
      let slot := match d.quench with | some q => q.keySlot | none => d.currentKey
      let d := (d.setSec fun x => { x with reload := false }).loadSlot slot
      d.qPump

/-- RESERVE_RETRY: once a minute the records of a roll that could not be programmed are tried again (R541). -/
def execReserveRetry (ok : Bool) (status : Nat) (s : State) : Host.Outcome State Fault Refusal :=
  s.on fun d => if d.sec.reserveRetry && !d.quenching then d.stageReserve ok status else d

/-- OWNER_KEY_BURN: over the sideband, while OWNER_LOCK is blank; the key stands in sector 0 of the key-blob area (R528). -/
def execOwnerKeyBurn (key : Nat) (s : State) : Host.Outcome State Fault Refusal :=
  s.on fun d =>
    if !d.mbReady .sideband || d.sec.ownerHash.isSome || d.aonLow then d
    else
      let h := Config.hash384 key % 2 ^ 384
      let d := (d.setSec fun x => { x with ownerHash := some h }).setB SEC_STATUS.OWNER_LOCK true
      let d := d.setPkg fun x => { x with ownerKeyId := h % 2 ^ 64 }
      (d.tmpEraseSector (0x0F00000 / 4096)).tmpPut 0x0F00000 (leBytes 97 key)

end Sys2Proof.Machine
end

