-- ==== Sys2Proof/Machine/Service.lean ====
section
/-! DEFINITION. The meanings of the service commands (R19, R567 to R580): die-to-die links, spares, Smith cores, voltage and life. -/

namespace Sys2Proof.Machine

open Sys2Proof

/-- D2D_LINK_FAULT (R19): the link to a die retrains; the accesses that depend on it pause. -/
def execD2dLinkFault (die link : Nat) (s : State) : Host.Outcome State Fault Refusal :=
  s.on fun d =>
    if !d.inService die || d.fab.d2d.contains (die, link) then d
    else { d with fab := { d.fab with d2d := d.fab.d2d ++ [(die, link)] } }

/-- D2D_RETRAIN_DONE (R19, R575): accesses go on, or the die at the link's far end is taken out of service. -/
def execD2dRetrainDone (die link us : Nat) (ok : Bool) (s : State) : Host.Outcome State Fault Refusal :=
  s.on fun d =>
    if !d.fab.d2d.contains (die, link) then d
    else
      let d := { d with fab := { d.fab with d2d := d.fab.d2d.filter fun l => decide (l ≠ (die, link)) } }
      let d := (d.incF SVC_D2D_RETRAINS.COUNT die).raise .SVC_D2D_RETRAIN die [p1 die, p1 link, p4 us]
      if ok then d else d.dieOut die 0 false

/-- SVC_SLICE_SPARE (R570, R579). -/
def execSvcSliceSpare (die slice : Nat) (s : State) : Host.Outcome State Fault Refusal :=
  s.on fun d => d.svcCmd die 1 slice fun d =>
    if slice < 8 ∧ d.spareSlice die then (d.sliceFails die slice 8, .ok) else (d, .unsupported)

/-- SVC_QUAD_SPARE (R571, R579). -/
def execSvcQuadSpare (die quad : Nat) (s : State) : Host.Outcome State Fault Refusal :=
  s.on fun d => d.svcCmd die 2 quad fun d =>
    if d.spareQuad die quad then (d.quadMoves die quad 8, .ok) else (d, .unsupported)

/-- SVC_RANK_SPARE (R574, R579): the copy starts; BUSY while one runs on the die. -/
def execSvcRankSpare (die target : Nat) (s : State) : Host.Outcome State Fault Refusal :=
  s.on fun d => d.svcCmd die 3 target fun d =>
    let c := target / 8
    if (List.range 4).any fun c => (d.chan die c).copy.isSome then (d, .busy)
    else if d.canSpare die c (target % 8) then (d.startCopy die c (target % 8) 8, .ok) else (d, .unsupported)

/-- SVC_SMITH_SWITCH (R572, R579). -/
def execSvcSmithSwitch (die : Nat) (s : State) : Host.Outcome State Fault Refusal :=
  s.on fun d => d.svcCmd die 4 0 fun d => if d.standby die then (d.smithFails die 8, .ok) else (d, .unsupported)

/-- SVC_CMD_UNSUPPORTED (R579): an OP that R579 does not give. -/
def execSvcCmdUnsupported (die op target : Nat) (s : State) : Host.Outcome State Fault Refusal :=
  s.on fun d => if 1 ≤ op % 8 ∧ op % 8 ≤ 4 then d else d.svcCmd die op target fun d => (d, .unsupported)

/-- SLICE_PARITY_ERROR (R570). -/
def execSliceParityError (die slice : Nat) (s : State) : Host.Outcome State Fault Refusal := s.on fun d => d.sliceFails die slice 1

/-- SLICE_PROGRESS_TIMEOUT (R570). -/
def execSliceProgressTimeout (die slice : Nat) (s : State) : Host.Outcome State Fault Refusal := s.on fun d => d.sliceFails die slice 2

/-- QUAD_TRAIN_FAILURE (R571): the link of the port on a quad has failed twice within 10 s to train at its width. -/
def execQuadTrainFailure (die quad : Nat) (s : State) : Host.Outcome State Fault Refusal :=
  s.on fun d => if d.fb SVC_CTRL.AUTO_QUAD ∧ d.spareQuad die quad then d.quadMoves die quad 3 else d

/-- SMITH_WATCHDOG (R572). -/
def execSmithWatchdog (die : Nat) (s : State) : Host.Outcome State Fault Refusal := s.on fun d => d.smithFails die 2

/-- SMITH_MEMORY_UE (R572). -/
def execSmithMemoryUe (die : Nat) (s : State) : Host.Outcome State Fault Refusal := s.on fun d => d.smithFails die 5

/-- RANK_COPY_DONE (R574). -/
def execRankCopyDone (die chan : Nat) (s : State) : Host.Outcome State Fault Refusal := s.on fun d => d.copyDone die chan

/-- VDD_CONTROL (R577, R602). -/
def execVddControl (die lowest island : Nat) (ack : Bool) (s : State) : Host.Outcome State Fault Refusal :=
  s.on fun d => d.vddControl die lowest island ack

/-- LIFE_TICK (R578). -/
def execLifeTick (die : Nat) (tj : Int) (s : State) : Host.Outcome State Fault Refusal := s.on fun d => d.lifeTick die tj

/-- LIFE_RECORD (R578): the weighted seconds of every die go to the counter rings. -/
def execLifeRecord (s : State) : Host.Outcome State Fault Refusal :=
  s.on fun d => d.forEach d.diesUp fun d die => d.counterRecord magicLIFE [p8 die, p8 (tgetD d.svc.weighted die 0)]

end Sys2Proof.Machine
end

