-- ==== Sys2Proof/Machine/Temper.lean ====
section
/-! DEFINITION. The meanings of the Temper store commands (R468 to R482). A descriptor command acts on the descriptor at its
queue's HEAD; where the queue has no such descriptor, nothing happens. -/

namespace Sys2Proof.Machine

open Sys2Proof

/-- TMP_READ (R472). `medium` gives the words of the range that SECDED corrects (false) or cannot correct (true). -/
def execTmpRead (q : Nat) (medium : List (Nat × Bool)) (s : State) : Host.Outcome State Fault Refusal :=
  s.on fun d => d.tmpCommand q (some .read) ⟨medium, []⟩ none

/-- TMP_PROGRAM (R473, R477): the words that the client put into its buffer are programmed. -/
def execTmpProgram (q : Nat) (data : List Word) (s : State) : Host.Outcome State Fault Refusal :=
  s.on fun d => d.tmpCommand q (some .program) ⟨[], []⟩ (some data)

/-- TMP_PROGRAM_AND (R474). -/
def execTmpProgramAnd (q : Nat) (data : List Word) (s : State) : Host.Outcome State Fault Refusal :=
  s.on fun d => d.tmpCommand q (some .programAnd) ⟨[], []⟩ (some data)

/-- TMP_ERASE_SECTOR (R475). -/
def execTmpEraseSector (q : Nat) (s : State) : Host.Outcome State Fault Refusal :=
  s.on fun d => d.tmpCommand q (some .eraseSector) ⟨[], []⟩ none

/-- TMP_BLANK_CHECK (R475). -/
def execTmpBlankCheck (q : Nat) (s : State) : Host.Outcome State Fault Refusal :=
  s.on fun d => d.tmpCommand q (some .blankCheck) ⟨[], []⟩ none

/-- TMP_MARGIN_READ (R475): `diffs` gives, per word, the bits that differ from the normal read. -/
def execTmpMarginRead (q : Nat) (diffs : List Nat) (s : State) : Host.Outcome State Fault Refusal :=
  s.on fun d => d.tmpCommand q (some .marginRead) ⟨[], diffs⟩ none

/-- TMP_UNKNOWN_OPCODE (R470): an unknown opcode or a nonzero reserved field completes with UNSUPPORTED. -/
def execTmpUnknownOpcode (q : Nat) (s : State) : Host.Outcome State Fault Refusal :=
  s.on fun d => d.tmpCommand q none ⟨[], []⟩ none

/-- The verification failure of a program or erase on one logical sector (R480): with a free spare the sector is relocated, the
failed physical sector retired and the descriptor completes with REMAPPED; without one its content is undefined. -/
def Dev.tmpVerifyFail (d : Dev) (r : TmpRun) (l spare : Nat) : Dev × Status × Nat :=
  let old := d.physSector l
  let ev : Ev := if r.op = .eraseSector then .TMP_ERASE_FAIL else .TMP_PROGRAM_FAIL
  if d.tmp.spares.contains spare then
    let d := d.tmpMove l spare
    let d := d.setTmp fun t => { t with retired := t.retired ++ [old] }
    let d := d.remapRecord 1 0 old
    let d := d.raiseB ev [p4 l, p4 old, p1 0]
    ((d.raiseB .TMP_SECTOR_RETIRED [p4 old, p4 d.tmp.spares.length]).sparesCheck, .ok, 8)
  else
    let d := d.setTmp fun t => { t with undefSectors := t.undefSectors ++ [old] }
    (d.raiseB ev [p4 l, p4 old, p1 1], if r.op = .eraseSector then .eraseFail else .programFail, 0)

/-- TMP_OP_DONE (R476, R480): the running program or erase of a queue (none: the store's own work) ends; `fail` gives the logical
sector whose verification failed and the spare that takes it. The waiting descriptors of the bank proceed. -/
def execTmpOpDone (q : Option Nat) (fail : Option (Nat × Nat)) (s : State) : Host.Outcome State Fault Refusal :=
  s.on fun d =>
    match d.tmp.running.find? (fun r => decide (r.queue = q)) with
    | none => d
    | some r =>
      let d := (d.setTmp fun t => { t with running := dropFirst (fun x => decide (x.queue = q)) t.running }).tmpBusyBits
      let (d, st, flags) := match fail with
        | some (l, spare) => if (sectorsOf r.addr (8 * r.words)).contains l then d.tmpVerifyFail r l spare else (d, Status.ok, 0)
        | none => (d, Status.ok, 0)
      let d := if r.op = .eraseSector then d else
        d.setTmp fun t => { t with scrubs := t.scrubs.filter (fun l => !(sectorsOf r.addr (8 * r.words)).contains l) ++
                                             t.scrubs.filter (fun l => (sectorsOf r.addr (8 * r.words)).contains l) }
      let d := match q with
        | some q => d.tmpComplete q st flags 0 (if st = Status.ok then r.words else 0) 0 r.tag
        | none => d
      d.tmpProceed

/-- TMP_SCRUB (R479): a queued logical sector is relocated into a free spare, the remap record programmed, and the vacated
physical sector erased and added to the free spares. A sector with an uncorrectable word is not scrubbed. -/
def execTmpScrub (sector spare : Nat) (uncorrectable : Bool) (s : State) : Host.Outcome State Fault Refusal :=
  s.on fun d =>
    if !d.tmp.scrubs.contains sector then d
    else
      let d := d.setTmp fun t => { t with scrubs := t.scrubs.filter (fun x => decide (x ≠ sector)) }
      if uncorrectable then d.raiseB .TMP_SCRUB_FAILED [p4 sector, p1 0]
      else if d.tmp.spares.isEmpty then d.raiseB .TMP_SCRUB_FAILED [p4 sector, p1 1]
      else if !d.tmp.spares.contains spare then d
      else
        let old := d.physSector sector
        let d := d.tmpMove sector spare
        let d := d.setTmp fun t => { t with spares := t.spares ++ [old], undefSectors := t.undefSectors.filter (fun x => decide (x ≠ old)) }
        ((d.incF TMP_SCRUBS.COUNT).raiseB .TMP_SCRUBBED [p4 sector, p4 old, p4 spare]).sparesCheck

/-- Whether a logical sector holds anything programmed. -/
def Dev.sectorProgrammed (d : Dev) (l : Nat) : Bool :=
  let p := d.physSector l
  d.tmp.mem.any (fun c => decide (p * 4096 ≤ c.1 ∧ c.1 < (p + 1) * 4096))

/-- TMP_PATROL_READ (R479): the patrol reads the next programmed logical sector; its corrections feed R472, and after the last
sector the pass is reported. -/
def execTmpPatrolRead (corrected uncorrectable : Nat) (s : State) : Host.Outcome State Fault Refusal :=
  s.on fun d =>
    if d.fb TMP_CTRL.PATROL_EN = false then d.setB TMP_STATUS.PATROL_ACTIVE false
    else
      let pos := d.f TMP_PATROL_POS.SECTOR
      let progs := (List.range 11776).filter d.sectorProgrammed
      match progs.find? (fun l => decide (pos ≤ l)) with
      | none => d
      | some l =>
        let d := d.addF TMP_CORRECTED.COUNT corrected
        let d := d.addF TMP_UNCORRECTABLE.COUNT uncorrectable
        let d := if d.f TMP_CTRL.WARN_BITS ≤ corrected ∧ d.tmp.scrubs.contains l = false then
            (d.setTmp fun t => { t with scrubs := t.scrubs ++ [l] }).raiseB .TMP_WARN [p4 l, p4 corrected, p1 0] else d
        let d := d.setTmp fun t => { t with patrolCorrected := t.patrolCorrected + corrected,
                                            patrolUncorrectable := t.patrolUncorrectable + uncorrectable }
        let d := d.setB TMP_STATUS.PATROL_ACTIVE true
        match progs.find? (fun x => decide (l < x)) with
        | some n => d.setF TMP_PATROL_POS.SECTOR n
        | none =>
          let days := (d.now - d.tmp.patrolStart) / 86400000000000
          let d := (d.setF TMP_PATROL_POS.SECTOR 0).incF TMP_PATROL_PASSES.COUNT
          let d := d.raiseB .TMP_PATROL_PASS [p4 d.tmp.patrolCorrected, p4 d.tmp.patrolUncorrectable, p4 days]
          d.setTmp fun t => { t with patrolCorrected := 0, patrolUncorrectable := 0, patrolStart := d.now }

end Sys2Proof.Machine
end

