-- ==== Sys2Proof/Machine/Dispatch.lean ====
section
/-! DEFINITION. The dispatch of a command to its meaning: one arm per constructor of Instr, in the order of the opcode table. -/

namespace Sys2Proof.Machine

open Sys2Proof

def exec (i : Instr) (s : State) : Host.Outcome State Fault Refusal :=
  match i with
  | .d2dLinkFault die link => Sys2Proof.Machine.execD2dLinkFault die link s
  | .d2dRetrainDone die link us ok => Sys2Proof.Machine.execD2dRetrainDone die link us ok s
  | .memWr die port ld host dpa data be tag => Sys2Proof.Machine.execMemWr die port ld host dpa data be tag s
  | .memRd die port ld host dpa own tag => Sys2Proof.Machine.execMemRd die port ld host dpa own tag s
  | .writeAdmit rid look bad => Sys2Proof.Machine.execWriteAdmit rid look bad s
  | .readAdmit rid look bad => Sys2Proof.Machine.execReadAdmit rid look bad s
  | .birsp host line => Sys2Proof.Machine.execBirsp host line s
  | .fabBiReset mask => Sys2Proof.Machine.execFabBiReset mask s
  | .fmLdAllocate die port ld start size => Sys2Proof.Machine.execFmLdAllocate die port ld start size s
  | .gpfRequest die port => Sys2Proof.Machine.execGpfRequest die port s
  | .gpfPhase2Response die port => Sys2Proof.Machine.execGpfPhase2Response die port s
  | .perstN die port => Sys2Proof.Machine.execPerstN die port s
  | .flr die port ld => Sys2Proof.Machine.execFlr die port ld s
  | .ideCheckFail die port stream keySlot => Sys2Proof.Machine.execIdeCheckFail die port stream keySlot s
  | .fabLinkUp die port width rate => Sys2Proof.Machine.execFabLinkUp die port width rate s
  | .fabLinkDown die port width ltssm => Sys2Proof.Machine.execFabLinkDown die port width ltssm s
  | .identify mb => Sys2Proof.Machine.execIdentify mb s
  | .backgroundOperationStatus mb => Sys2Proof.Machine.execBackgroundOperationStatus mb s
  | .getEventRecords mb log => Sys2Proof.Machine.execGetEventRecords mb log s
  | .clearEventRecords mb log all handles => Sys2Proof.Machine.execClearEventRecords mb log all handles s
  | .getEventInterruptPolicy mb => Sys2Proof.Machine.execGetEventInterruptPolicy mb s
  | .setEventInterruptPolicy mb info warning failure fatal => Sys2Proof.Machine.execSetEventInterruptPolicy mb info warning failure fatal s
  | .getFwInfo mb => Sys2Proof.Machine.execGetFwInfo mb s
  | .transferFw mb slot revision verifies => Sys2Proof.Machine.execTransferFw mb slot revision verifies s
  | .activateFw mb slot online => Sys2Proof.Machine.execActivateFw mb slot online s
  | .getTimestamp mb => Sys2Proof.Machine.execGetTimestamp mb s
  | .setTimestamp mb value => Sys2Proof.Machine.execSetTimestamp mb value s
  | .getSupportedLogs mb => Sys2Proof.Machine.execGetSupportedLogs mb s
  | .getLog mb log offset length => Sys2Proof.Machine.execGetLog mb log offset length s
  | .identifyMemoryDevice mb => Sys2Proof.Machine.execIdentifyMemoryDevice mb s
  | .getHealthInfo mb => Sys2Proof.Machine.execGetHealthInfo mb s
  | .getAlertConfiguration mb => Sys2Proof.Machine.execGetAlertConfiguration mb s
  | .setAlertConfiguration mb valid enable life temp ce => Sys2Proof.Machine.execSetAlertConfiguration mb valid enable life temp ce s
  | .getShutdownState mb => Sys2Proof.Machine.execGetShutdownState mb s
  | .setShutdownState mb dirty => Sys2Proof.Machine.execSetShutdownState mb dirty s
  | .getPoisonList mb dpa lines => Sys2Proof.Machine.execGetPoisonList mb dpa lines s
  | .injectPoison mb dpa => Sys2Proof.Machine.execInjectPoison mb dpa s
  | .clearPoison mb dpa data => Sys2Proof.Machine.execClearPoison mb dpa data s
  | .sanitize mb => Sys2Proof.Machine.execSanitize mb s
  | .sanitizeComplete => Sys2Proof.Machine.execSanitizeComplete s
  | .getDcConfiguration mb first count => Sys2Proof.Machine.execGetDcConfiguration mb first count s
  | .getDcExtentList mb first count => Sys2Proof.Machine.execGetDcExtentList mb first count s
  | .addDcResponse mb start size => Sys2Proof.Machine.execAddDcResponse mb start size s
  | .releaseDc mb start size => Sys2Proof.Machine.execReleaseDc mb start size s
  | .releaseDcComplete => Sys2Proof.Machine.execReleaseDcComplete s
  | .unsupportedCommand mb opcode => Sys2Proof.Machine.execUnsupportedCommand mb opcode s
  | .quenchTest mb sampleMib update => Sys2Proof.Machine.execQuenchTest mb sampleMib update s
  | .quenchNow mb confirm => Sys2Proof.Machine.execQuenchNow mb confirm s
  | .ceilingQuery mb => Sys2Proof.Machine.execCeilingQuery mb s
  | .heatControlRead mb => Sys2Proof.Machine.execHeatControlRead mb s
  | .heatControlSetLength mb lengthUs => Sys2Proof.Machine.execHeatControlSetLength mb lengthUs s
  | .heatControlCloseNow mb => Sys2Proof.Machine.execHeatControlCloseNow mb s
  | .cacheMode mb mode => Sys2Proof.Machine.execCacheMode mb mode s
  | .cacheModeQuery mb => Sys2Proof.Machine.execCacheModeQuery mb s
  | .maintByAddr mb dpaStart slabCount op discard => Sys2Proof.Machine.execMaintByAddr mb dpaStart slabCount op discard s
  | .energyStatus mb => Sys2Proof.Machine.execEnergyStatus mb s
  | .batteryLearnSchedule mb string => Sys2Proof.Machine.execBatteryLearnSchedule mb string s
  | .batteryLearnCancel mb string => Sys2Proof.Machine.execBatteryLearnCancel mb string s
  | .logReadLeaf mb leaf maxRecords startSeq => Sys2Proof.Machine.execLogReadLeaf mb leaf maxRecords startSeq s
  | .logClearLeaf mb leaf => Sys2Proof.Machine.execLogClearLeaf mb leaf s
  | .poolStatus mb die => Sys2Proof.Machine.execPoolStatus mb die s
  | .swageApplyPartial mb image signatureOk => Sys2Proof.Machine.execSwageApplyPartial mb image signatureOk s
  | .resetNoQuench mb confirm windowMs => Sys2Proof.Machine.execResetNoQuench mb confirm windowMs s
  | .weldStatus mb => Sys2Proof.Machine.execWeldStatus mb s
  | .fillLands slab data => Sys2Proof.Machine.execFillLands slab data s
  | .fillFail slab status => Sys2Proof.Machine.execFillFail slab status s
  | .destageSelect slab bad => Sys2Proof.Machine.execDestageSelect slab bad s
  | .idleDestageTimer slab => Sys2Proof.Machine.execIdleDestageTimer slab s
  | .destageComplete slab => Sys2Proof.Machine.execDestageComplete slab s
  | .destageFail slab status => Sys2Proof.Machine.execDestageFail slab status s
  | .setStallRetry rid => Sys2Proof.Machine.execSetStallRetry rid s
  | .setStallHeldTimer rid => Sys2Proof.Machine.execSetStallHeldTimer rid s
  | .uncachedReadDone rid ok data => Sys2Proof.Machine.execUncachedReadDone rid ok data s
  | .bypassBackingReadDone rid ok status data => Sys2Proof.Machine.execBypassBackingReadDone rid ok status data s
  | .bypassBackingWriteDone rid ok status => Sys2Proof.Machine.execBypassBackingWriteDone rid ok status s
  | .bypassRetry rid => Sys2Proof.Machine.execBypassRetry rid s
  | .crucModeRequest request => Sys2Proof.Machine.execCrucModeRequest request s
  | .drainExitCheck => Sys2Proof.Machine.execDrainExitCheck s
  | .generationSweepDone => Sys2Proof.Machine.execGenerationSweepDone s
  | .maintClean id => Sys2Proof.Machine.execMaintClean id s
  | .maintInvalidate id => Sys2Proof.Machine.execMaintInvalidate id s
  | .maintEvict id => Sys2Proof.Machine.execMaintEvict id s
  | .maintPin id => Sys2Proof.Machine.execMaintPin id s
  | .maintUnpin id => Sys2Proof.Machine.execMaintUnpin id s
  | .maintFillAhead id => Sys2Proof.Machine.execMaintFillAhead id s
  | .crucMaintGo die slab count op discard => Sys2Proof.Machine.execCrucMaintGo die slab count op discard s
  | .setRebuildDone slab => Sys2Proof.Machine.execSetRebuildDone slab s
  | .fenceDrained die slice => Sys2Proof.Machine.execFenceDrained die slice s
  | .heatBoundary => Sys2Proof.Machine.execHeatBoundary s
  | .heatSyncInEdge after => Sys2Proof.Machine.execHeatSyncInEdge after s
  | .heatSyncMiss => Sys2Proof.Machine.execHeatSyncMiss s
  | .heatCtrlWrite lengthUs syncEn syncOut => Sys2Proof.Machine.execHeatCtrlWrite lengthUs syncEn syncOut s
  | .heatCtrlCloseNow => Sys2Proof.Machine.execHeatCtrlCloseNow s
  | .heatReservationDone ok status => Sys2Proof.Machine.execHeatReservationDone ok status s
  | .journalPageWrite die heat receive => Sys2Proof.Machine.execJournalPageWrite die heat receive s
  | .heatSeal die heat receive => Sys2Proof.Machine.execHeatSeal die heat receive s
  | .compactRecord die lost => Sys2Proof.Machine.execCompactRecord die lost s
  | .journalStallRelease => Sys2Proof.Machine.execJournalStallRelease s
  | .tagWalkDone die => Sys2Proof.Machine.execTagWalkDone die s
  | .ceilingCompute cause => Sys2Proof.Machine.execCeilingCompute cause s
  | .receiveHoldRelease => Sys2Proof.Machine.execReceiveHoldRelease s
  | .dryQuenchAutoStart => Sys2Proof.Machine.execDryQuenchAutoStart s
  | .dryQuenchWindowOpen => Sys2Proof.Machine.execDryQuenchWindowOpen s
  | .dryQuenchWindowClose ms => Sys2Proof.Machine.execDryQuenchWindowClose ms s
  | .dryStale => Sys2Proof.Machine.execDryStale s
  | .mainSenseTrip mv ns => Sys2Proof.Machine.execMainSenseTrip mv ns s
  | .holdSenseTrip mv ns => Sys2Proof.Machine.execHoldSenseTrip mv ns s
  | .pwrFailNTrip ns => Sys2Proof.Machine.execPwrFailNTrip ns s
  | .qnchTrigCtrlWrite value => Sys2Proof.Machine.execQnchTrigCtrlWrite value s
  | .powerShed die lowest ack => Sys2Proof.Machine.execPowerShed die lowest ack s
  | .dirtyWalkStart die bad => Sys2Proof.Machine.execDirtyWalkStart die bad s
  | .segmentProgramDone die chan nand => Sys2Proof.Machine.execSegmentProgramDone die chan nand s
  | .quenchBlockFail die chan nand plane => Sys2Proof.Machine.execQuenchBlockFail die chan nand plane s
  | .quenchNandDieFail die chan nand => Sys2Proof.Machine.execQuenchNandDieFail die chan nand s
  | .trailerProgram die => Sys2Proof.Machine.execTrailerProgram die s
  | .commitRecordProgram ms => Sys2Proof.Machine.execCommitRecordProgram ms s
  | .commitPointerProgram ok status => Sys2Proof.Machine.execCommitPointerProgram ok status s
  | .quenchEnd mainOk holdOk st => Sys2Proof.Machine.execQuenchEnd mainOk holdOk st s
  | .reheatLocate => Sys2Proof.Machine.execReheatLocate s
  | .ingotScan bad => Sys2Proof.Machine.execIngotScan bad s
  | .reheatRecordsProgram claimOk reserveOk status => Sys2Proof.Machine.execReheatRecordsProgram claimOk reserveOk status s
  | .eagerRestoreDone => Sys2Proof.Machine.execEagerRestoreDone s
  | .indexPassSegment die num seen broken => Sys2Proof.Machine.execIndexPassSegment die num seen broken s
  | .indexDeadline die => Sys2Proof.Machine.execIndexDeadline die s
  | .gatesReopen => Sys2Proof.Machine.execGatesReopen s
  | .segmentRestore gen die num auth m => Sys2Proof.Machine.execSegmentRestore gen die num auth m s
  | .ingotRelease => Sys2Proof.Machine.execIngotRelease s
  | .rhtDiscard => Sys2Proof.Machine.execRhtDiscard s
  | .forceSolo region => Sys2Proof.Machine.execForceSolo region s
  | .yield region => Sys2Proof.Machine.execYield region s
  | .reclaim region => Sys2Proof.Machine.execReclaim region s
  | .confirmSole region => Sys2Proof.Machine.execConfirmSole region s
  | .roleRecordDone region status => Sys2Proof.Machine.execRoleRecordDone region status s
  | .resyncComplete region => Sys2Proof.Machine.execResyncComplete region s
  | .promotion => Sys2Proof.Machine.execPromotion s
  | .drainWindowEnd => Sys2Proof.Machine.execDrainWindowEnd s
  | .weldHello die link version side peerDie peerLink => Sys2Proof.Machine.execWeldHello die link version side peerDie peerLink s
  | .weldHelloRetry die link => Sys2Proof.Machine.execWeldHelloRetry die link s
  | .keyRollOffer h rollId switchSeq identOk sigOk => Sys2Proof.Machine.execKeyRollOffer h rollId switchSeq identOk sigOk s
  | .keyRollAnswer h rollId switchSeq identOk sigOk => Sys2Proof.Machine.execKeyRollAnswer h rollId switchSeq identOk sigOk s
  | .keyRollAnswerTimeout die link => Sys2Proof.Machine.execKeyRollAnswerTimeout die link s
  | .keyRollCounter die link => Sys2Proof.Machine.execKeyRollCounter die link s
  | .keyRollRetry die link => Sys2Proof.Machine.execKeyRollRetry die link s
  | .keyStallEnter die link => Sys2Proof.Machine.execKeyStallEnter die link s
  | .join h heat length side regions digestOk roles => Sys2Proof.Machine.execJoin h heat length side regions digestOk roles s
  | .heartbeat h heat links pair stall => Sys2Proof.Machine.execHeartbeat h heat links pair stall s
  | .heartbeatSend die link => Sys2Proof.Machine.execHeartbeatSend die link s
  | .ackHeartbeat die link => Sys2Proof.Machine.execAckHeartbeat die link s
  | .mirrorWrite h heat firstId entries => Sys2Proof.Machine.execMirrorWrite h heat firstId entries s
  | .weldTxRoom die => Sys2Proof.Machine.execWeldTxRoom die s
  | .mirrorAck h runs => Sys2Proof.Machine.execMirrorAck h runs s
  | .heatClose h heat linkMask => Sys2Proof.Machine.execHeatClose h heat linkMask s
  | .heatAck h heat regionMask => Sys2Proof.Machine.execHeatAck h heat regionMask s
  | .quenchNoticeNotice h heat cause generation => Sys2Proof.Machine.execQuenchNoticeNotice h heat cause generation s
  | .quenchNoticeDrained h heat cause generation => Sys2Proof.Machine.execQuenchNoticeDrained h heat cause generation s
  | .quenchNoticeFinal h heat flags cause generation => Sys2Proof.Machine.execQuenchNoticeFinal h heat flags cause generation s
  | .roleClaimClaim h region epoch => Sys2Proof.Machine.execRoleClaimClaim h region epoch s
  | .roleClaimHandover h region epoch heat => Sys2Proof.Machine.execRoleClaimHandover h region epoch heat s
  | .roleClaimRefuse h region epoch => Sys2Proof.Machine.execRoleClaimRefuse h region epoch s
  | .rejoinReq h region incremental slabs => Sys2Proof.Machine.execRejoinReq h region incremental slabs s
  | .resyncData h slab kind mask heat region lines => Sys2Proof.Machine.execResyncData h slab kind mask heat region lines s
  | .fetch h slab region => Sys2Proof.Machine.execFetch h slab region s
  | .fetchData h slab mask heat region lines => Sys2Proof.Machine.execFetchData h slab mask heat region lines s
  | .fetchMiss h slab region => Sys2Proof.Machine.execFetchMiss h slab region s
  | .fetchTimeout slab => Sys2Proof.Machine.execFetchTimeout slab s
  | .weldNak die link ack => Sys2Proof.Machine.execWeldNak die link ack s
  | .linkHeartbeatLoss die link => Sys2Proof.Machine.execLinkHeartbeatLoss die link s
  | .linkElectricalLoss die link => Sys2Proof.Machine.execLinkElectricalLoss die link s
  | .weldLinkDisable die link disable => Sys2Proof.Machine.execWeldLinkDisable die link disable s
  | .weldLinkRetrain die link => Sys2Proof.Machine.execWeldLinkRetrain die link s
  | .weldKeyRollNow die link => Sys2Proof.Machine.execWeldKeyRollNow die link s
  | .nvmeLinkUp die port width rate => Sys2Proof.Machine.execNvmeLinkUp die port width rate s
  | .nsAttach ns => Sys2Proof.Machine.execNsAttach ns s
  | .nvmeAdminComplete die port ns result => Sys2Proof.Machine.execNvmeAdminComplete die port ns result s
  | .nsAdopt ns => Sys2Proof.Machine.execNsAdopt ns s
  | .nsDetach ns => Sys2Proof.Machine.execNsDetach ns s
  | .detachComplete ns => Sys2Proof.Machine.execDetachComplete ns s
  | .nvmeIoComplete slab status dnr data errorLog => Sys2Proof.Machine.execNvmeIoComplete slab status dnr data errorLog s
  | .nvmeRetry slab => Sys2Proof.Machine.execNvmeRetry slab s
  | .nvmeIoTimeout slab => Sys2Proof.Machine.execNvmeIoTimeout slab s
  | .controllerResetDone die port ok => Sys2Proof.Machine.execControllerResetDone die port ok s
  | .smartPoll die port warning used => Sys2Proof.Machine.execSmartPoll die port warning used s
  | .nvmeLinkDownTimeout die port => Sys2Proof.Machine.execNvmeLinkDownTimeout die port s
  | .chanRequest die chan req => Sys2Proof.Machine.execChanRequest die chan req s
  | .chanReadDecode die chan id beats => Sys2Proof.Machine.execChanReadDecode die chan id beats s
  | .refreshDue die chan rank => Sys2Proof.Machine.execRefreshDue die chan rank s
  | .creditRefill die chan => Sys2Proof.Machine.execCreditRefill die chan s
  | .requestUrgent die chan id => Sys2Proof.Machine.execRequestUrgent die chan id s
  | .rhWindowClear die chan rank => Sys2Proof.Machine.execRhWindowClear die chan rank s
  | .rhCooldownEnd die chan requester => Sys2Proof.Machine.execRhCooldownEnd die chan requester s
  | .rowCloseTimer die chan rank bank => Sys2Proof.Machine.execRowCloseTimer die chan rank bank s
  | .dramTempRead die chan dimm reading sensor => Sys2Proof.Machine.execDramTempRead die chan dimm reading sensor s
  | .selfRefreshIdle die chan rank => Sys2Proof.Machine.execSelfRefreshIdle die chan rank s
  | .patrolScrubRead die chan beats => Sys2Proof.Machine.execPatrolScrubRead die chan beats s
  | .caParityAlert die chan dimm failed => Sys2Proof.Machine.execCaParityAlert die chan dimm failed s
  | .alertNHigh die chan => Sys2Proof.Machine.execAlertNHigh die chan s
  | .ceRateInterval die chan => Sys2Proof.Machine.execCeRateInterval die chan s
  | .chanThaw die chan => Sys2Proof.Machine.execChanThaw die chan s
  | .chanAutoThaw die chan => Sys2Proof.Machine.execChanAutoThaw die chan s
  | .chanFreezeNow die chan => Sys2Proof.Machine.execChanFreezeNow die chan s
  | .trnStart die chan step rank => Sys2Proof.Machine.execTrnStart die chan step rank s
  | .trnAbort die chan => Sys2Proof.Machine.execTrnAbort die chan s
  | .trnCommit die chan => Sys2Proof.Machine.execTrnCommit die chan s
  | .trnRetrainNow die chan rank full => Sys2Proof.Machine.execTrnRetrainNow die chan rank full s
  | .trnAutoCycleStart die chan rank => Sys2Proof.Machine.execTrnAutoCycleStart die chan rank s
  | .trnSubstepEnd die chan => Sys2Proof.Machine.execTrnSubstepEnd die chan s
  | .trnStepEnd die chan us scans => Sys2Proof.Machine.execTrnStepEnd die chan us scans s
  | .trnGapElapsed die chan => Sys2Proof.Machine.execTrnGapElapsed die chan s
  | .trnStepTimeout die chan => Sys2Proof.Machine.execTrnStepTimeout die chan s
  | .nandAttach die chan nand look => Sys2Proof.Machine.execNandAttach die chan nand look s
  | .qflEraseIssue die chan nand => Sys2Proof.Machine.execQflEraseIssue die chan nand s
  | .qflEraseDone die chan nand failed => Sys2Proof.Machine.execQflEraseDone die chan nand failed s
  | .qflTableDeltaDone die chan => Sys2Proof.Machine.execQflTableDeltaDone die chan s
  | .qflZqCalibration die chan => Sys2Proof.Machine.execQflZqCalibration die chan s
  | .qflTableRecover die chan look => Sys2Proof.Machine.execQflTableRecover die chan look s
  | .qflFormat die chan marks => Sys2Proof.Machine.execQflFormat die chan marks s
  | .qflRead die medium => Sys2Proof.Machine.execQflRead die medium s
  | .qflReadRaw die medium => Sys2Proof.Machine.execQflReadRaw die medium s
  | .qflProgram die medium => Sys2Proof.Machine.execQflProgram die medium s
  | .qflEraseQuad die medium => Sys2Proof.Machine.execQflEraseQuad die medium s
  | .qflReadParam die medium => Sys2Proof.Machine.execQflReadParam die medium s
  | .qflGetFeature die medium => Sys2Proof.Machine.execQflGetFeature die medium s
  | .qflBlankCheck die medium => Sys2Proof.Machine.execQflBlankCheck die medium s
  | .qflUnknownOpcode die => Sys2Proof.Machine.execQflUnknownOpcode die s
  | .qflOpFail die chan nand quad plane program => Sys2Proof.Machine.execQflOpFail die chan nand quad plane program s
  | .nandStatusTimeout die chan nand => Sys2Proof.Machine.execNandStatusTimeout die chan nand s
  | .stringSample strings => Sys2Proof.Machine.execStringSample strings s
  | .fullAnchor n => Sys2Proof.Machine.execFullAnchor n s
  | .faultClear n fault => Sys2Proof.Machine.execFaultClear n fault s
  | .calStepStart => Sys2Proof.Machine.execCalStepStart s
  | .calStepEnd v1 i1 v2 i2 v3 i3 => Sys2Proof.Machine.execCalStepEnd v1 i1 v2 i2 v3 i3 s
  | .learnCheck => Sys2Proof.Machine.execLearnCheck s
  | .learnTimeout n => Sys2Proof.Machine.execLearnTimeout n s
  | .learnRepend n => Sys2Proof.Machine.execLearnRepend n s
  | .learnPeriod n => Sys2Proof.Machine.execLearnPeriod n s
  | .authResponse n failed => Sys2Proof.Machine.execAuthResponse n failed s
  | .authRetry n => Sys2Proof.Machine.execAuthRetry n s
  | .authPeriodic n => Sys2Proof.Machine.execAuthPeriodic n s
  | .serialPoll answers => Sys2Proof.Machine.execSerialPoll answers s
  | .lvRecordWrite failed status => Sys2Proof.Machine.execLvRecordWrite failed status s
  | .aonSenseLow mv ns => Sys2Proof.Machine.execAonSenseLow mv ns s
  | .aonSenseRise mv => Sys2Proof.Machine.execAonSenseRise mv s
  | .bellStrForceIsolate n value => Sys2Proof.Machine.execBellStrForceIsolate n value s
  | .bellStrLearn n => Sys2Proof.Machine.execBellStrLearn n s
  | .bellStrCancel n => Sys2Proof.Machine.execBellStrCancel n s
  | .bellStrReauth n => Sys2Proof.Machine.execBellStrReauth n s
  | .bellowsPor st => Sys2Proof.Machine.execBellowsPor st s
  | .tmpRead q medium => Sys2Proof.Machine.execTmpRead q medium s
  | .tmpProgram q data => Sys2Proof.Machine.execTmpProgram q data s
  | .tmpProgramAnd q data => Sys2Proof.Machine.execTmpProgramAnd q data s
  | .tmpEraseSector q => Sys2Proof.Machine.execTmpEraseSector q s
  | .tmpBlankCheck q => Sys2Proof.Machine.execTmpBlankCheck q s
  | .tmpMarginRead q diffs => Sys2Proof.Machine.execTmpMarginRead q diffs s
  | .tmpUnknownOpcode q => Sys2Proof.Machine.execTmpUnknownOpcode q s
  | .tmpOpDone q fail => Sys2Proof.Machine.execTmpOpDone q fail s
  | .tmpScrub sector spare uncorrectable => Sys2Proof.Machine.execTmpScrub sector spare uncorrectable s
  | .tmpPatrolRead corrected uncorrectable => Sys2Proof.Machine.execTmpPatrolRead corrected uncorrectable s
  | .poolAlloc die r srcDie cls noFallback => Sys2Proof.Machine.execPoolAlloc die r srcDie cls noFallback s
  | .poolAllocFallback die => Sys2Proof.Machine.execPoolAllocFallback die s
  | .poolFree r srcDie handle => Sys2Proof.Machine.execPoolFree r srcDie handle s
  | .poolShare r srcDie handle => Sys2Proof.Machine.execPoolShare r srcDie handle s
  | .poolRelease r srcDie handle => Sys2Proof.Machine.execPoolRelease r srcDie handle s
  | .poolHandoff r srcDie handle newReq newDie => Sys2Proof.Machine.execPoolHandoff r srcDie handle newReq newDie s
  | .poolCmdUnsupported die op => Sys2Proof.Machine.execPoolCmdUnsupported die op s
  | .poolQuarantineRelease die mask => Sys2Proof.Machine.execPoolQuarantineRelease die mask s
  | .eventRaise ev source payload => Sys2Proof.Machine.execEventRaise ev source payload s
  | .leafProgramDone => Sys2Proof.Machine.execLeafProgramDone s
  | .tokenRefill code => Sys2Proof.Machine.execTokenRefill code s
  | .seqReservationDone ok => Sys2Proof.Machine.execSeqReservationDone ok s
  | .leafClearErase leaf => Sys2Proof.Machine.execLeafClearErase leaf s
  | .evtWinSeqWrite hearth seq => Sys2Proof.Machine.execEvtWinSeqWrite hearth seq s
  | .evtWinNext hearth => Sys2Proof.Machine.execEvtWinNext hearth s
  | .spdmGetVersion t => Sys2Proof.Machine.execSpdmGetVersion t s
  | .spdmGetCapabilities t => Sys2Proof.Machine.execSpdmGetCapabilities t s
  | .spdmNegotiateAlgorithms t => Sys2Proof.Machine.execSpdmNegotiateAlgorithms t s
  | .spdmGetDigests t => Sys2Proof.Machine.execSpdmGetDigests t s
  | .spdmGetCertificate t slot off len => Sys2Proof.Machine.execSpdmGetCertificate t slot off len s
  | .spdmChallenge t slot nonce => Sys2Proof.Machine.execSpdmChallenge t slot nonce s
  | .spdmGetMeasurements t nonce => Sys2Proof.Machine.execSpdmGetMeasurements t nonce s
  | .spdmKeyExchange t ownerKey => Sys2Proof.Machine.execSpdmKeyExchange t ownerKey s
  | .spdmFinish t session signatureOk => Sys2Proof.Machine.execSpdmFinish t session signatureOk s
  | .spdmEndSession t session => Sys2Proof.Machine.execSpdmEndSession t session s
  | .spdmUnsupported t => Sys2Proof.Machine.execSpdmUnsupported t s
  | .ideKmQuery session die port => Sys2Proof.Machine.execIdeKmQuery session die port s
  | .ideKmKeyProg session die port stream set sub key => Sys2Proof.Machine.execIdeKmKeyProg session die port stream set sub key s
  | .ideKmKSetGo session die port stream set => Sys2Proof.Machine.execIdeKmKSetGo session die port stream set s
  | .ideKmKSetStop session die port stream => Sys2Proof.Machine.execIdeKmKSetStop session die port stream s
  | .ideKmGetkey session die port => Sys2Proof.Machine.execIdeKmGetkey session die port s
  | .cipherJobStart die slot group stream unwrapOk => Sys2Proof.Machine.execCipherJobStart die slot group stream unwrapOk s
  | .cipherJobEnd job => Sys2Proof.Machine.execCipherJobEnd job s
  | .drbgHealthFail test => Sys2Proof.Machine.execDrbgHealthFail test s
  | .tamperNAlarm ns st => Sys2Proof.Machine.execTamperNAlarm ns st s
  | .shieldMeshAlarm st => Sys2Proof.Machine.execShieldMeshAlarm st s
  | .voltageAlarm rail mv ns st => Sys2Proof.Machine.execVoltageAlarm rail mv ns st s
  | .clockAlarm offPct cycles st => Sys2Proof.Machine.execClockAlarm offPct cycles st s
  | .temperatureAlarm tj st => Sys2Proof.Machine.execTemperatureAlarm tj st s
  | .keyReload => Sys2Proof.Machine.execKeyReload s
  | .reserveRetry ok status => Sys2Proof.Machine.execReserveRetry ok status s
  | .ownerKeyBurn key => Sys2Proof.Machine.execOwnerKeyBurn key s
  | .resetNAssert lowNs st => Sys2Proof.Machine.execResetNAssert lowNs st s
  | .resetNRelease st => Sys2Proof.Machine.execResetNRelease st s
  | .nqWindowExpire => Sys2Proof.Machine.execNqWindowExpire s
  | .resetProceed st => Sys2Proof.Machine.execResetProceed st s
  | .startupRomVerify failA failB => Sys2Proof.Machine.execStartupRomVerify failA failB s
  | .startupChecks differs tripping => Sys2Proof.Machine.execStartupChecks differs tripping s
  | .swageLoad signatureA signatureB bank => Sys2Proof.Machine.execSwageLoad signatureA signatureB bank s
  | .fenceWireTest failed => Sys2Proof.Machine.execFenceWireTest failed s
  | .diePowerEnable die => Sys2Proof.Machine.execDiePowerEnable die s
  | .diePgAssert die bist => Sys2Proof.Machine.execDiePgAssert die bist s
  | .diePgTimeout die => Sys2Proof.Machine.execDiePgTimeout die s
  | .diePgFall die ns => Sys2Proof.Machine.execDiePgFall die ns s
  | .spdPopulationCheck chans => Sys2Proof.Machine.execSpdPopulationCheck chans s
  | .initialTrainingDone failed repairs => Sys2Proof.Machine.execInitialTrainingDone failed repairs s
  | .tagStoreInit => Sys2Proof.Machine.execTagStoreInit s
  | .romGetFwInfo => Sys2Proof.Machine.execRomGetFwInfo s
  | .romTransferFw slot revision verifies => Sys2Proof.Machine.execRomTransferFw slot revision verifies s
  | .romActivateFw slot => Sys2Proof.Machine.execRomActivateFw slot s
  | .romResetRequest st => Sys2Proof.Machine.execRomResetRequest st s
  | .swgCheckA => Sys2Proof.Machine.execSwgCheckA s
  | .swgCheckB => Sys2Proof.Machine.execSwgCheckB s
  | .swgCheckDone signatureOk bank => Sys2Proof.Machine.execSwgCheckDone signatureOk bank s
  | .svcSliceSpare die slice => Sys2Proof.Machine.execSvcSliceSpare die slice s
  | .svcQuadSpare die quad => Sys2Proof.Machine.execSvcQuadSpare die quad s
  | .svcRankSpare die target => Sys2Proof.Machine.execSvcRankSpare die target s
  | .svcSmithSwitch die => Sys2Proof.Machine.execSvcSmithSwitch die s
  | .svcCmdUnsupported die op target => Sys2Proof.Machine.execSvcCmdUnsupported die op target s
  | .sliceParityError die slice => Sys2Proof.Machine.execSliceParityError die slice s
  | .sliceProgressTimeout die slice => Sys2Proof.Machine.execSliceProgressTimeout die slice s
  | .quadTrainFailure die quad => Sys2Proof.Machine.execQuadTrainFailure die quad s
  | .smithWatchdog die => Sys2Proof.Machine.execSmithWatchdog die s
  | .smithMemoryUe die => Sys2Proof.Machine.execSmithMemoryUe die s
  | .rankCopyDone die chan => Sys2Proof.Machine.execRankCopyDone die chan s
  | .vddControl die lowest island ack => Sys2Proof.Machine.execVddControl die lowest island ack s
  | .lifeTick die tj => Sys2Proof.Machine.execLifeTick die tj s
  | .lifeRecord => Sys2Proof.Machine.execLifeRecord s
  | .hcbCmdGo bar2 hearth count op discard => Sys2Proof.Machine.execHcbCmdGo bar2 hearth count op discard s
  | .bar2BadAccess die port write offset width => Sys2Proof.Machine.execBar2BadAccess die port write offset width s
  | .registerWrite bar2 offset width value => Sys2Proof.Machine.execRegisterWrite bar2 offset width value s
  | .vddAonFall group => Sys2Proof.Machine.execVddAonFall group s
  | .weldLinkTrained die link width rate spareQuad => Sys2Proof.Machine.execWeldLinkTrained die link width rate spareQuad s
  | .chanCommandIssue die chan illegal maintenance pressure => Sys2Proof.Machine.execChanCommandIssue die chan illegal maintenance pressure s
  | .mirrorAckBatchTimer die => Sys2Proof.Machine.execMirrorAckBatchTimer die s
  | .nvmeLinkDown die port => Sys2Proof.Machine.execNvmeLinkDown die port s
  | .nvmeControllerFatal die port => Sys2Proof.Machine.execNvmeControllerFatal die port s
  | .nvmeControllerReady die port ready cssOk pageOk => Sys2Proof.Machine.execNvmeControllerReady die port ready cssOk pageOk s
  | .nvmeAttachLinkTimeout die port => Sys2Proof.Machine.execNvmeAttachLinkTimeout die port s
  | .initiateDcAdd regionStart regionSize block host start size => Sys2Proof.Machine.execInitiateDcAdd regionStart regionSize block host start size s
  | .gfamAccessTableSet die port spid enable => Sys2Proof.Machine.execGfamAccessTableSet die port spid enable s
  | .quenchNandDieReady die chan nand => Sys2Proof.Machine.execQuenchNandDieReady die chan nand s
  | .drbgHealthPass => Sys2Proof.Machine.execDrbgHealthPass s

end Sys2Proof.Machine
end

