-- ==== Sys2Proof/Machine/Flags.lean ====
section
/-! DEFINITION. The status bits and counts that a register shows of what the block holds elsewhere: what a read of any register
field gives, computed where the manual says so and stored elsewhere (R115 to R593). -/

namespace Sys2Proof.Machine

open Sys2Proof

/-- Buffers of a die's class in a state (R502). -/
def Dev.bufsIn (d : Dev) (die c : Nat) (pending : Bool) : Nat :=
  tcount d.pool.bufs fun k b => decide (k.die = die ∧ k.cls = c) && decide (b.pending = pending)

/-- Masked sectors of the slabs that a slice owns (R170). -/
def Dev.sliceDirty (d : Dev) (slice : Nat) : Nat :=
  sumOf ((d.validTags.filter fun e => decide (d.owner e.2.slab = slice)).map fun e => popcount e.2.mask)

/-- Frames that wait in a die's transmit queue (R337). -/
def Dev.txQueued (d : Dev) (die : Nat) : Nat := sumOf ((d.txq die).map fun i => d.framesOf i.msg)

/-- The writes of a die's slabs that wait for MIRROR_ACK (R328, R337). -/
def Dev.syncWaiting (d : Dev) (die : Nat) : Nat :=
  (d.weld.unacked.filter fun u => decide (u.die = die) && u.rid.isSome).length

/-- The slabs of a die are bound to other dies' links (R313, R337). -/
def Dev.rerouted (d : Dev) (die : Nat) : Bool := !d.weld.bindLinks.isEmpty && !(d.weld.bindLinks.any fun l => decide (l.1 = die))

/-- Quads of a channel in a state (R435). -/
def Dev.chanQuads (d : Dev) (die c : Nat) (p : QState → Bool) : Nat := sumOf ((d.nandsOf die c).map fun n => (d.quadsIn n p).length)

/-- STALE and ERASING, with the erased quad whose table delta is queued (R419). -/
def QState.backlog (s : QState) : Bool := s.isStale || decide (s = .erasing) || decide (s = .erased)

/-- Namespaces in given states (R362). -/
def Dev.nsCount (d : Dev) (p : NsState → Bool) : Nat := (d.allNs.filter fun n => p (d.ns n).state).length

/-- A reclaim is possible (R296): this side is OWNER_SIDE and SHADOW with the link up, after a resync. -/
def Dev.reclaimReady (d : Dev) (n : Nat) : Bool :=
  decide ((d.region n).role = .shadow) && decide (d.pair = 1) && decide (d.resyncKind n = 0) &&
    (match d.regionCfgs[n]? with | some c => decide (c.ownerSide = d.side) | none => false)

/-- A word of the record that a window presents (R522). -/
def Dev.winWord (d : Dev) (h i : Nat) : Nat := match d.winRecord h with | some r => leAt r.bytes (8 * i) 8 | none => 0

/-- An entry of a leaf's dropped table: its codes in order of arrival, OTHER at entry 63 (R510, R523). -/
def Dev.dropEntry (d : Dev) (leaf i : Nat) : Nat × Nat :=
  let t := tgetD d.evt.dropped leaf []
  if i = 63 then (0xFFFF, tgetD t 0xFFFF 0) else ((t.filter fun e => decide (e.1 ≠ 0xFFFF))[i]?).getD (0, 0)

/-- A register field of one unit as a read shows it: computed where the block holds the value elsewhere, else as it is stored. -/
def Dev.unitField (d : Dev) (F : Fld) (a : Nat := 0) (b : Nat := 0) (c : Nat := 0) : Nat :=
  match F.reg with
  | .FAB_PORT_STATUS => if F = FAB_PORT_STATUS.GATE_CLOSED then b2n d.fence else d.f F a b c
  | .CRUC_DIRTY_SECTORS => d.dirtySectors
  | .CRUC_POISONED_SLABS => d.poisonedSlabs + d.cru.frameless.length
  | .CRUC_PINNED_SLABS => (d.validTags.filter (·.2.pinned)).length
  | .CRUC_SLICE_STATUS => if F = CRUC_SLICE_STATUS.LOCKS_HELD then Nat.min 2048 (d.lockSlabs a).length else d.f F a b c
  | .CRUC_DIRTY_SECTORS_SLICE => d.sliceDirty a
  | .HEAT_WRAP => 0xFFFFFFFF - d.openHeat % 2 ^ 32
  | .HEAT_JRNL_OLDEST => minOf ((d.dirOf a).map (·.heat)) 0
  | .HEAT_JRNL_STATUS =>
    if F = HEAT_JRNL_STATUS.ENTRIES then (d.dirOf a).length
    else if F = HEAT_JRNL_STATUS.COMPACTING then b2n ((d.dirOf a).any fun e => decide (e.state = .compacting))
    else d.f F a b c
  | .HEAT_JRNL_FREE => d.freePages a
  | .HEAT_JRNL_RETAINED => sumOf (d.heat.retaining.map fun e => d.heldRecords a e.1)
  | .CEIL_DRY_AGE => (d.dryAge).getD 0xFFFFFFFF
  | .RHT_REGION_STATUS =>
    if F = RHT_REGION_STATUS.ROLE then (d.region b).role.code
    else if F = RHT_REGION_STATUS.RECLAIM_READY then b2n (d.reclaimReady b)
    else d.f F a b c
  | .WELD_DIE_STATUS =>
    if F = WELD_DIE_STATUS.SYNC_WAITING then saturate 16 (d.syncWaiting a)
    else if F = WELD_DIE_STATUS.TX_QUEUED then saturate 12 (d.txQueued a)
    else b2n (d.rerouted a)
  | .BACK_STATUS =>
    if F = BACK_STATUS.ONLINE then d.nsCount fun x => decide (x = .online)
    else if F = BACK_STATUS.FAILED then d.nsCount fun x => decide (x = .failed)
    else d.nsCount fun x => decide (x = .attaching ∨ x = .blank)
  | .BACK_STRANDED_SLABS => sumOf (d.allNs.map d.stranded)
  | .BACK_NS_STRANDED => d.stranded b
  | .BACK_PORT_OUTSTANDING => sumOf ((d.nsOn (a, b)).map fun n => (d.commandSlabs n).length)
  | .CHAN_STATUS => if F = CHAN_STATUS.HELD then b2n (decide (d.heldByFreeze a b ≠ 0)) else d.f F a b c
  | .QFL_CHAN_READY => d.chanQuads a b QState.isReady
  | .QFL_CHAN_STALE => d.chanQuads a b QState.backlog
  | .QFL_CHAN_RETIRED => (d.qfl.badBlocks.filter fun e => decide (e.1.die = a ∧ e.1.chan = b)).length
  | .QFL_NAND_STATUS =>
    if F = QFL_NAND_STATUS.SPARE_MIN then minOf ((List.range 4).map fun p => (d.sparesOf ⟨a, b, c⟩ p).length) 0 else d.f F a b c
  | .QFL_B_ERASED => d.bErased
  | .QFL_B_DIE => d.bDie
  | .QFL_PKG_STATUS =>
    if F = QFL_PKG_STATUS.NQ then d.nq
    else if F = QFL_PKG_STATUS.CHANNELS then (d.qchansAll.filter fun x => decide (d.f QFL_CHAN_STATUS.STATE x.1 x.2 = 2)).length
    else d.f F a b c
  | .QFL_ERASE_BACKLOG => sumOf (d.qchansAll.map fun x => d.chanQuads x.1 x.2 QState.backlog)
  | .BELL_LIFE_S => d.lifeS
  | .TMP_STATUS => if F = TMP_STATUS.SCRUB_ACTIVE then b2n (!d.tmp.scrubs.isEmpty) else d.f F a b c
  | .TMP_SPARES_FREE => d.tmp.spares.length
  | .TMP_REMAPPED => if F = TMP_REMAPPED.SECTORS then d.tmp.remap.length else d.tmp.retired.length
  | .POOL_FREE => d.freeBufs a b
  | .POOL_ALLOC => d.bufsIn a b false
  | .POOL_PENDING => d.bufsIn a b true
  | .POOL_HELD => d.held a b c
  | .POOL_BELLOWS_FREE => d.freeBufs 0 1
  | .EVT_WIN_STATUS => if F = EVT_WIN_STATUS.VALID then b2n (d.winRecord a).isSome else b2n (d.winGap a)
  | .EVT_WIN_RECORD => d.winWord a b
  | .EVT_STATUS => if F = EVT_STATUS.QUEUE_FULL then b2n (decide (256 ≤ d.evt.queue.length)) else d.f F a b c
  | .EVT_NEXT_SEQ => d.evt.nextSeq
  | .EVT_RESERVATION => d.evt.reservation
  | .EVT_PV_BASE => d.evt.pvBase
  | .EVT_PV_COUNT => d.evt.view.length
  | .EVT_LEAF_DROPPED => saturate 32 (d.droppedTotal b)
  | .EVT_DROP => if F = EVT_DROP.CODE then (d.dropEntry b c).1 else (d.dropEntry b c).2
  | .RST_NQ_LEFT => match d.rst.window with | some t => (t - d.now + 999999) / 1000000 | none => 0
  | .ROOT_STATUS => if F = ROOT_STATUS.DIES_IN_SERVICE then d.diesUp.length else d.f F a b c
  | _ => d.f F a b c

/-! ### The HCBs (R34, R35, R585 to R590) -/

/-- The Hearths below and including one that are in service (R35): a slice and a die by their own status. -/
def Dev.serving (d : Dev) (h : Nat) : List Nat :=
  (d.subtree 5 h).filter fun x =>
    if 0x10 ≤ x then (match dieOfHearth x with | some die => d.inService die && d.fb HCB_STATUS.IN_SERVICE x | none => false)
    else if d.isDie x then d.inService x else true

/-- The slices of a list of Hearths, and its dies. -/
def slicesOfList (l : List Nat) : List Nat := l.filter fun x => decide (0x10 ≤ x) && (dieOfHearth x).isSome
def diesOfList (l : List Nat) : List Nat := l.filter fun x => decide (1 ≤ x ∧ x ≤ 8)

/-- Cache-frame bytes of the slabs that one slice owns (R72, R73): an eighth of its die's frames. -/
def Dev.sliceFrames (d : Dev) : Nat := 4 * 2 ^ d.swg.cfg.dram.rankBits * 32 * d.swg.cfg.dram.sets * 16 * 4096 / 8

/-- HCB_ID.KIND (R585). -/
def Dev.hearthKind (d : Dev) (h : Nat) : Nat :=
  if h = 0 then 0 else if h = bellowsId then 4 else if d.isDie h then 2 else if d.swg.cfg.groups.any (fun g => decide (g.id = h)) then 1 else 3

/-- The parent of a Hearth: the one whose child table lists it (R49). -/
def Dev.parentOf (d : Dev) (h : Nat) : Nat := if h = 0 then 0xFF else ((d.subtree 5 0).find? fun x => (d.children x).contains h).getD 0

/-- The depth of a Hearth (R33). -/
def Dev.depthOf (d : Dev) : Nat → Nat → Nat
  | 0, _ => 0
  | fuel + 1, h => if h = 0 then 0 else d.depthOf fuel (d.parentOf h) + 1

/-- The place and the size of a Hearth's unit block (R583). -/
def unitBlock (h : Nat) : Nat × Nat :=
  if h = 0 then (0x100000, 0x10000) else if h = bellowsId then (0x110000, 0x10000)
  else if 1 ≤ h ∧ h ≤ 8 then (0x120000 + 0x20000 * (h - 1), 0x20000) else (0, 0)

/-- The certificate that a Hearth presents (R527, R585): the number of its chain; groups and slices have none, and the Bellows Hearth
has no alias certificate. -/
def Dev.certOf (d : Dev) (h : Nat) : Option Nat :=
  let sel := d.f HCB_CERT_SEL.CERT h
  if (h = 0 ∨ h = bellowsId ∨ 1 ≤ h ∧ h ≤ 8) ∧ sel < 3 ∧ ¬(h = bellowsId ∧ sel = 1) then some (4 * h + sel + 1) else none

/-- The slag list of a Hearth (R576): the units retired within itself and its descendants, oldest first. -/
def Dev.slagOf (d : Dev) (h : Nat) : List Slag :=
  let tree := d.subtree 5 h
  d.slag.filter fun e => match e.kind with
    | 1 => tree.contains (sliceId e.owner e.index) || tree.contains e.owner
    | 6 => tree.contains e.index
    | _ => tree.contains e.owner

/-- An entry of the slag list as its 8 bytes (R576). -/
def Slag.word (e : Slag) : Nat := e.kind + e.owner * 2 ^ 8 + e.index * 2 ^ 16 + e.cause * 2 ^ 24 + e.seqLow * 2 ^ 32

/-- The most severe of a list of temperatures, as HCB_TJ shows it (R586). -/
def hottestOf (l : List Int) : Nat := match l with | [] => 0 | t :: ts => fieldOf 8 (ts.foldl max t)

/-- The junction temperature that a Hearth reports: a slice its die's, another the hottest of its dies (R586). -/
def Dev.tjOf (d : Dev) (h : Nat) : Nat :=
  match dieOfHearth h with
  | some die => d.f HCB_TJ.TJ die
  | none => hottestOf ((diesOfList (d.serving h)).map fun die => signedOf 8 (d.f HCB_TJ.TJ die))

/-- The Life Used of a Hearth: a slice its die's, another the worst of its dies (R578, R586). -/
def Dev.lifeOf (d : Dev) (h : Nat) : Nat :=
  let term (die : Nat) : Nat := Nat.min 100 (Nat.max (d.lifeT die) (d.lifeV die))
  match dieOfHearth h with
  | some die => term die
  | none => maxOf ((diesOfList (d.serving h)).map term)

/-- The sum of a pool count over a Hearth's dies, the Bellows pool as class 1 (R589). -/
def Dev.poolSum (d : Dev) (h c : Nat) (count : Nat → Nat) : Nat :=
  let l := d.serving h
  sumOf ((diesOfList l).map count) + (if c = 1 ∧ l.contains bellowsId then count 0 else 0)

/-- The unit region of an HCB (R170, R590): a slice's own fields; another Hearth's are sums, ORs, and the largest LOCKS_HELD. -/
def Dev.unitRegion (d : Dev) (F : Fld) (h : Nat) : Nat :=
  let values := (slicesOfList (d.serving h)).map fun s => d.unitField F s
  if h = bellowsId then 0
  else if F.reg = .CRUC_SLICE_STATUS then maxOf values
  else saturate F.width (sumOf values)

/-- A field of an HCB as a read shows it. -/
def Dev.hcbField (d : Dev) (F : Fld) (h b : Nat) : Nat :=
  let l := d.serving h
  match F.reg with
  | .HCB_ID =>
    if F = HCB_ID.HEARTH_ID then h else if F = HCB_ID.KIND then d.hearthKind h
    else if F = HCB_ID.PARENT then d.parentOf h else d.depthOf 5 h
  | .HCB_PART => if F = HCB_PART.DIES then d.pkg.part.dies else d.f F
  | .HCB_UNIT_BASE => (unitBlock h).1
  | .HCB_UNIT_SIZE => (unitBlock h).2
  | .HCB_CAP0 =>
    if F = HCB_CAP0.SLICES then ((slicesOfList l).filter fun s => !d.fb HCB_STATUS.SPARE_IDLE s).length
    else if F = HCB_CAP0.DIES then (diesOfList l).length
    else if F = HCB_CAP0.CHANNELS then
      sumOf ((diesOfList l).map fun die => ((List.range 4).filter fun c => decide (d.chanState die c ≠ 0)).length)
    else sumOf ((diesOfList l).map fun die => ((d.qchansOf die).filter fun x => decide (d.f QFL_CHAN_STATUS.STATE x.1 x.2 = 2)).length)
  | .HCB_CAP1 =>
    sumOf ((diesOfList l).map fun die =>
      (if F = HCB_CAP1.FABRIC_PORTS then d.swg.cfg.fabricPorts die
        else if F = HCB_CAP1.NVME_PORTS then d.swg.cfg.rootPorts die else d.swg.cfg.weldLinks die).length)
  | .HCB_FRAME_BYTES => ((slicesOfList l).filter fun s => !d.fb HCB_STATUS.SPARE_IDLE s).length * d.sliceFrames
  | .HCB_KEY_ID =>
    if h = 0 then d.pkg.packageId else if h = bellowsId ∨ 1 ≤ h ∧ h ≤ 8 then Config.keyId h % 2 ^ 64 else 0
  | .HCB_CERT_LEN => match d.certOf h with | some n => Config.certLen n % 2 ^ 16 | none => 0
  | .HCB_CERT_DATA => match d.certOf h with
    | some n =>
      let off := 64 * d.f HCB_CERT_SEL.OFFSET h + 8 * b
      let left := Config.certLen n - off
      Config.certBytes n off (Nat.min 8 left) % 2 ^ (8 * Nat.min 8 left)
    | none => 0
  | .HCB_STATUS =>
    if F = HCB_STATUS.HEALTH then
      if (dieOfHearth h).isSome then d.f F h else maxOf (l.map fun x => d.f F x)
    else d.f F h
  | .HCB_TJ => d.tjOf h
  | .HCB_LIFE => d.lifeOf h
  | .HCB_CHILD_COUNT => (d.children h).length
  | .HCB_CHILDREN => leValue (((List.range 8).map fun k => (BitVec.ofNat 8 (((d.children h)[8 * b + k]?).getD 0xFF))))
  | .SLAG_COUNT => if F = SLAG_COUNT.COUNT then (d.slagOf h).length else b2n (decide (16 < (d.slagOf h).length))
  | .SLAG_ENTRY => match (d.slagOf h)[b]? with | some e => e.word | none => 0
  | .HCB_POOL_FREE => d.poolSum h b fun x => d.freeBufs x b
  | .HCB_POOL_ALLOC => d.poolSum h b fun x => d.bufsIn x b false
  | .HCB_POOL_PENDING => d.poolSum h b fun x => d.bufsIn x b true
  | .HCB_POOL_EMPTY => d.poolSum h b fun x => d.f POOL_EMPTY.COUNT x b
  | .HCB_POOL_QUARANTINED => (diesOfList l).foldl (fun m die => m ||| d.f POOL_QUARANTINE.MASK die) 0
  | .EVT_WIN_SEQ | .EVT_WIN_STATUS | .EVT_WIN_NEXT | .EVT_WIN_RECORD | .HCB_CERT_SEL | .HCB_CMD_DPA | .HCB_CMD | .HCB_CMD_STATUS
  | .HCB_CMD_DONE | .HCB_CMD_FAIL_DPA => d.unitField F h b
  | _ => d.unitRegion F h

/-! ### A read of the register map (R8, R584) -/

/-- A die out of service keeps presenting its HCB_ID, HCB_STATUS and slag list (R586). -/
def keptField (F : Fld) : Bool := decide (F.reg = .HCB_ID ∨ F.reg = .HCB_STATUS ∨ F.reg = .SLAG_COUNT ∨ F.reg = .SLAG_ENTRY)

/-- A register instance as a read shows it: its fields at their places; WO fields read 0 (R8), and so does what is not there (R584). -/
def Dev.showHit (d : Dev) (blk : RegBlk) (a : Nat) (h : RegHit) : Nat :=
  h.place.reg.rows.foldl
    (fun v r =>
      if r.access = .WO then v
      else if !d.blockThere blk a && !(decide (blk = .hcb) && d.hearthExists a && keptField r.fld) then v
      else
        let x := if blk = .hcb then d.hcbField r.fld a h.i else d.unitField r.fld a h.i h.j
        v + (x % 2 ^ r.fld.width) * 2 ^ r.fld.lo)
    0

/-- What a read of BAR2 gives (R584): none for an access that completes as an Unsupported Request; reserved offsets read 0. -/
def Dev.readReg (d : Dev) (offset width : Nat) : Option Nat :=
  if !goodAccess offset width then none
  else match blockAt offset with
    | none => some 0
    | some (blk, a, rel) =>
      some (((hitsAt blk rel (width / 8)).foldl
        (fun v h =>
          let x := d.showHit blk a h
          v ||| (if h.base ≤ rel then x >>> (8 * (rel - h.base)) else x <<< (8 * (h.base - rel))))
        0) % 2 ^ width)

end Sys2Proof.Machine
end

