-- ==== Sys2Proof/Machine/Ticks.lean ====
section
/-! DEFINITION. What the block does while no command waits: its clock moves by one heat-timer step, and the command processor takes up
the mailbox commands that wait for it (assumptions 2 and 25). -/

namespace Sys2Proof.Machine

/-- The step of the block's clock in ns: the resolution of the heat timer (R177). -/
def tickNs : Nat := 5

/-- An idle step (assumption 2). -/
def Dev.idle (d : Dev) : Dev := Dev.mbDrain d.mbox.held.length { d with now := d.now + tickNs }

end Sys2Proof.Machine
end

