-- ==== Sys2Proof/Machine/Operands.lean ====
section
/-! DEFINITION. The operands of the commands: the ranges that the manual gives to the numbers of its units. -/

namespace Sys2Proof.Machine

open Sys2Proof

/-- A value fits a field of a width. -/
def fits (width v : Nat) : Bool := decide (v < 2 ^ width)

/-- A Hearth die number, 1 to 8 (R13). -/
def isDieNo (v : Nat) : Bool := decide (1 ≤ v ∧ v ≤ 8)

/-- A pool's die: 0 is the Bellows pool (R490). -/
def isPoolDie (v : Nat) : Bool := decide (v ≤ 8)

/-- A fabric port of a die (R115), a root port (R363) and a Weld link (R337). -/
def isFabPort (v : Nat) : Bool := decide (v < 16)
def isRootPort (v : Nat) : Bool := decide (v < 8)
def isLinkNo (v : Nat) : Bool := decide (v < 2)

/-- A Hearth channel of a die (R72), a rank (R392) and a DIMM of a channel (R365). -/
def isHearthChan (v : Nat) : Bool := decide (v < 4)
def isRankNo (v : Nat) : Bool := decide (v < 8)
def isDimmNo (v : Nat) : Bool := decide (v < 2)

/-- A quench-flash channel of a die, a NAND die of a channel and a plane (R410, R435). -/
def isFlashChan (v : Nat) : Bool := decide (v < 8)
def isNandNo (v : Nat) : Bool := decide (v < 8)
def isPlaneNo (v : Nat) : Bool := decide (v < 4)

/-- A slice of a die with its spare, slice 8 (R32), and a lane quad with the spare, quad 16 (R567). -/
def isSliceNo (v : Nat) : Bool := decide (v ≤ 8)
def isQuadNo (v : Nat) : Bool := decide (v ≤ 16)

/-- A battery string (R442), a leaf log (R509), a Weld region (R300) and a Hearth ID (R32). -/
def isStringNo (v : Nat) : Bool := decide (v < 8)
def isLeafNo (v : Nat) : Bool := decide (v ≤ 8)
def isRegionNo (v : Nat) : Bool := decide (v < 16)
def isHearthNo (v : Nat) : Bool := fits 8 v

/-- A slab index and a device physical address (R71). -/
def isSlabNo (v : Nat) : Bool := fits 40 v
def isDpa (v : Nat) : Bool := fits 52 v

/-- A buffer class and a requester (R502), and a queue of the Temper store (R468). -/
def isClassNo (v : Nat) : Bool := decide (v < 4)
def isRequester (v : Nat) : Bool := decide (v < 32)
def isQueueNo (v : Nat) : Bool := decide (v ≤ 10)

/-- A path of a mailbox or of SPDM: a port and its LD, or the sideband (R100, R529); 0xFFFF is the FM-owned LD (R78). -/
def isPath : Path → Bool
  | .port die port ld => isDieNo die && isFabPort port && (match ld with | some n => fits 4 n || decide (n = 0xFFFF) | none => true)
  | .sideband => true

/-- A mailbox command's envelope (R100). -/
def isMb (mb : Mb) : Bool := isPath mb.path && fits 21 mb.size

/-- A Weld frame's head (R307). -/
def isHead (h : Head) : Bool := isDieNo h.die && isLinkNo h.link

end Sys2Proof.Machine
end

