-- ==== Sys2Proof/WellFormed.lean ====
section
/-! DEFINITION. The form of a command: each operand that numbers a unit of the block lies in the range the manual gives it. A command that
is not well formed names no unit of the block (assumption 1). -/

namespace Sys2Proof

open Machine

/-- The operands of a command lie in their ranges. -/
def Instr.wf (i : Instr) : Bool :=
  match i with
  | .d2dLinkFault die link => isDieNo die && isLinkNo link
  | .d2dRetrainDone die link _ _ => isDieNo die && isLinkNo link
  | .memWr die port _ _ dpa _ _ _ => isDieNo die && isFabPort port && isDpa dpa
  | .memRd die port _ _ dpa _ _ => isDieNo die && isFabPort port && isDpa dpa
  | .writeAdmit _ _ _ => true
  | .readAdmit _ _ _ => true
  | .birsp _ line => fits 46 line
  | .fabBiReset _ => true
  | .fmLdAllocate die port _ _ _ => isDieNo die && isFabPort port
  | .gpfRequest die port => isDieNo die && isFabPort port
  | .gpfPhase2Response die port => isDieNo die && isFabPort port
  | .perstN die port => isDieNo die && isFabPort port
  | .flr die port _ => isDieNo die && isFabPort port
  | .ideCheckFail die port _ _ => isDieNo die && isFabPort port
  | .fabLinkUp die port _ _ => isDieNo die && isFabPort port
  | .fabLinkDown die port _ _ => isDieNo die && isFabPort port
  | .identify mb => isMb mb
  | .backgroundOperationStatus mb => isMb mb
  | .getEventRecords mb _ => isMb mb
  | .clearEventRecords mb _ _ _ => isMb mb
  | .getEventInterruptPolicy mb => isMb mb
  | .setEventInterruptPolicy mb _ _ _ _ => isMb mb
  | .getFwInfo mb => isMb mb
  | .transferFw mb _ _ _ => isMb mb
  | .activateFw mb _ _ => isMb mb
  | .getTimestamp mb => isMb mb
  | .setTimestamp mb _ => isMb mb
  | .getSupportedLogs mb => isMb mb
  | .getLog mb _ _ _ => isMb mb
  | .identifyMemoryDevice mb => isMb mb
  | .getHealthInfo mb => isMb mb
  | .getAlertConfiguration mb => isMb mb
  | .setAlertConfiguration mb _ _ _ _ _ => isMb mb
  | .getShutdownState mb => isMb mb
  | .setShutdownState mb _ => isMb mb
  | .getPoisonList mb dpa _ => isMb mb && isDpa dpa
  | .injectPoison mb dpa => isMb mb && isDpa dpa
  | .clearPoison mb dpa _ => isMb mb && isDpa dpa
  | .sanitize mb => isMb mb
  | .sanitizeComplete => true
  | .getDcConfiguration mb _ _ => isMb mb
  | .getDcExtentList mb _ _ => isMb mb
  | .addDcResponse mb _ _ => isMb mb
  | .releaseDc mb _ _ => isMb mb
  | .releaseDcComplete => true
  | .unsupportedCommand mb opcode => isMb mb && fits 16 opcode
  | .quenchTest mb _ _ => isMb mb
  | .quenchNow mb confirm => isMb mb && fits 32 confirm
  | .ceilingQuery mb => isMb mb
  | .heatControlRead mb => isMb mb
  | .heatControlSetLength mb lengthUs => isMb mb && fits 32 lengthUs
  | .heatControlCloseNow mb => isMb mb
  | .cacheMode mb _ => isMb mb
  | .cacheModeQuery mb => isMb mb
  | .maintByAddr mb dpaStart _ _ _ => isMb mb && isDpa dpaStart
  | .energyStatus mb => isMb mb
  | .batteryLearnSchedule mb _ => isMb mb
  | .batteryLearnCancel mb _ => isMb mb
  | .logReadLeaf mb leaf _ _ => isMb mb && fits 8 leaf
  | .logClearLeaf mb leaf => isMb mb && fits 8 leaf
  | .poolStatus mb die => isMb mb && isPoolDie die
  | .swageApplyPartial mb _ _ => isMb mb
  | .resetNoQuench mb confirm _ => isMb mb && fits 32 confirm
  | .weldStatus mb => isMb mb
  | .fillLands slab _ => isSlabNo slab
  | .fillFail slab _ => isSlabNo slab
  | .destageSelect slab _ => isSlabNo slab
  | .idleDestageTimer slab => isSlabNo slab
  | .destageComplete slab => isSlabNo slab
  | .destageFail slab _ => isSlabNo slab
  | .setStallRetry _ => true
  | .setStallHeldTimer _ => true
  | .uncachedReadDone _ _ _ => true
  | .bypassBackingReadDone _ _ _ _ => true
  | .bypassBackingWriteDone _ _ _ => true
  | .bypassRetry _ => true
  | .crucModeRequest _ => true
  | .drainExitCheck => true
  | .generationSweepDone => true
  | .maintClean _ => true
  | .maintInvalidate _ => true
  | .maintEvict _ => true
  | .maintPin _ => true
  | .maintUnpin _ => true
  | .maintFillAhead _ => true
  | .crucMaintGo die slab _ _ _ => isDieNo die && isSlabNo slab
  | .setRebuildDone slab => isSlabNo slab
  | .fenceDrained die slice => isDieNo die && isSliceNo slice
  | .heatBoundary => true
  | .heatSyncInEdge _ => true
  | .heatSyncMiss => true
  | .heatCtrlWrite lengthUs _ _ => fits 20 lengthUs
  | .heatCtrlCloseNow => true
  | .heatReservationDone _ _ => true
  | .journalPageWrite die heat _ => isDieNo die && fits 64 heat
  | .heatSeal die heat _ => isDieNo die && fits 64 heat
  | .compactRecord die _ => isDieNo die
  | .journalStallRelease => true
  | .tagWalkDone die => isDieNo die
  | .ceilingCompute _ => true
  | .receiveHoldRelease => true
  | .dryQuenchAutoStart => true
  | .dryQuenchWindowOpen => true
  | .dryQuenchWindowClose _ => true
  | .dryStale => true
  | .mainSenseTrip _ _ => true
  | .holdSenseTrip _ _ => true
  | .pwrFailNTrip _ => true
  | .qnchTrigCtrlWrite _ => true
  | .powerShed die _ _ => isDieNo die
  | .dirtyWalkStart die _ => isDieNo die
  | .segmentProgramDone die chan nand => isDieNo die && isFlashChan chan && isNandNo nand
  | .quenchBlockFail die chan nand plane => isDieNo die && isFlashChan chan && isNandNo nand && isPlaneNo plane
  | .quenchNandDieFail die chan nand => isDieNo die && isFlashChan chan && isNandNo nand
  | .trailerProgram die => isDieNo die
  | .commitRecordProgram _ => true
  | .commitPointerProgram _ _ => true
  | .quenchEnd _ _ _ => true
  | .reheatLocate => true
  | .ingotScan _ => true
  | .reheatRecordsProgram _ _ _ => true
  | .eagerRestoreDone => true
  | .indexPassSegment die _ _ _ => isDieNo die
  | .indexDeadline die => isDieNo die
  | .gatesReopen => true
  | .segmentRestore _ die _ _ _ => isDieNo die
  | .ingotRelease => true
  | .rhtDiscard => true
  | .forceSolo region => isRegionNo region
  | .yield region => isRegionNo region
  | .reclaim region => isRegionNo region
  | .confirmSole region => isRegionNo region
  | .roleRecordDone region _ => isRegionNo region
  | .resyncComplete region => isRegionNo region
  | .promotion => true
  | .drainWindowEnd => true
  | .weldHello die link _ _ peerDie peerLink => isDieNo die && isLinkNo link && isDieNo peerDie && isLinkNo peerLink
  | .weldHelloRetry die link => isDieNo die && isLinkNo link
  | .keyRollOffer h _ _ _ _ => isHead h
  | .keyRollAnswer h _ _ _ _ => isHead h
  | .keyRollAnswerTimeout die link => isDieNo die && isLinkNo link
  | .keyRollCounter die link => isDieNo die && isLinkNo link
  | .keyRollRetry die link => isDieNo die && isLinkNo link
  | .keyStallEnter die link => isDieNo die && isLinkNo link
  | .join h heat _ _ _ _ _ => isHead h && fits 64 heat
  | .heartbeat h heat _ _ _ => isHead h && fits 64 heat
  | .heartbeatSend die link => isDieNo die && isLinkNo link
  | .ackHeartbeat die link => isDieNo die && isLinkNo link
  | .mirrorWrite h heat _ _ => isHead h && fits 64 heat
  | .weldTxRoom die => isDieNo die
  | .mirrorAck h _ => isHead h
  | .heatClose h heat _ => isHead h && fits 64 heat
  | .heatAck h heat _ => isHead h && fits 64 heat
  | .quenchNoticeNotice h heat _ _ => isHead h && fits 64 heat
  | .quenchNoticeDrained h heat _ _ => isHead h && fits 64 heat
  | .quenchNoticeFinal h heat _ _ _ => isHead h && fits 64 heat
  | .roleClaimClaim h region _ => isHead h && isRegionNo region
  | .roleClaimHandover h region _ heat => isHead h && isRegionNo region && fits 64 heat
  | .roleClaimRefuse h region _ => isHead h && isRegionNo region
  | .rejoinReq h region _ _ => isHead h && isRegionNo region
  | .resyncData h slab _ _ heat region _ => isHead h && isSlabNo slab && fits 64 heat && isRegionNo region
  | .fetch h slab region => isHead h && isSlabNo slab && isRegionNo region
  | .fetchData h slab _ heat region _ => isHead h && isSlabNo slab && fits 64 heat && isRegionNo region
  | .fetchMiss h slab region => isHead h && isSlabNo slab && isRegionNo region
  | .fetchTimeout slab => isSlabNo slab
  | .weldNak die link _ => isDieNo die && isLinkNo link
  | .linkHeartbeatLoss die link => isDieNo die && isLinkNo link
  | .linkElectricalLoss die link => isDieNo die && isLinkNo link
  | .weldLinkDisable die link _ => isDieNo die && isLinkNo link
  | .weldLinkRetrain die link => isDieNo die && isLinkNo link
  | .weldKeyRollNow die link => isDieNo die && isLinkNo link
  | .nvmeLinkUp die port _ _ => isDieNo die && isRootPort port
  | .nsAttach _ => true
  | .nvmeAdminComplete die port _ _ => isDieNo die && isRootPort port
  | .nsAdopt _ => true
  | .nsDetach _ => true
  | .detachComplete _ => true
  | .nvmeIoComplete slab _ _ _ _ => isSlabNo slab
  | .nvmeRetry slab => isSlabNo slab
  | .nvmeIoTimeout slab => isSlabNo slab
  | .controllerResetDone die port _ => isDieNo die && isRootPort port
  | .smartPoll die port _ _ => isDieNo die && isRootPort port
  | .nvmeLinkDownTimeout die port => isDieNo die && isRootPort port
  | .chanRequest die chan _ => isDieNo die && isHearthChan chan
  | .chanReadDecode die chan _ _ => isDieNo die && isHearthChan chan
  | .refreshDue die chan rank => isDieNo die && isHearthChan chan && isRankNo rank
  | .creditRefill die chan => isDieNo die && isHearthChan chan
  | .requestUrgent die chan _ => isDieNo die && isHearthChan chan
  | .rhWindowClear die chan rank => isDieNo die && isHearthChan chan && isRankNo rank
  | .rhCooldownEnd die chan requester => isDieNo die && isHearthChan chan && isRequester requester
  | .rowCloseTimer die chan rank _ => isDieNo die && isHearthChan chan && isRankNo rank
  | .dramTempRead die chan dimm _ _ => isDieNo die && isHearthChan chan && isDimmNo dimm
  | .selfRefreshIdle die chan rank => isDieNo die && isHearthChan chan && isRankNo rank
  | .patrolScrubRead die chan _ => isDieNo die && isHearthChan chan
  | .caParityAlert die chan dimm _ => isDieNo die && isHearthChan chan && isDimmNo dimm
  | .alertNHigh die chan => isDieNo die && isHearthChan chan
  | .ceRateInterval die chan => isDieNo die && isHearthChan chan
  | .chanThaw die chan => isDieNo die && isHearthChan chan
  | .chanAutoThaw die chan => isDieNo die && isHearthChan chan
  | .chanFreezeNow die chan => isDieNo die && isHearthChan chan
  | .trnStart die chan _ rank => isDieNo die && isHearthChan chan && isRankNo rank
  | .trnAbort die chan => isDieNo die && isHearthChan chan
  | .trnCommit die chan => isDieNo die && isHearthChan chan
  | .trnRetrainNow die chan rank _ => isDieNo die && isHearthChan chan && isRankNo rank
  | .trnAutoCycleStart die chan rank => isDieNo die && isHearthChan chan && isRankNo rank
  | .trnSubstepEnd die chan => isDieNo die && isHearthChan chan
  | .trnStepEnd die chan _ _ => isDieNo die && isHearthChan chan
  | .trnGapElapsed die chan => isDieNo die && isHearthChan chan
  | .trnStepTimeout die chan => isDieNo die && isHearthChan chan
  | .nandAttach die chan nand _ => isDieNo die && isFlashChan chan && isNandNo nand
  | .qflEraseIssue die chan nand => isDieNo die && isFlashChan chan && isNandNo nand
  | .qflEraseDone die chan nand _ => isDieNo die && isFlashChan chan && isNandNo nand
  | .qflTableDeltaDone die chan => isDieNo die && isFlashChan chan
  | .qflZqCalibration die chan => isDieNo die && isFlashChan chan
  | .qflTableRecover die chan _ => isDieNo die && isFlashChan chan
  | .qflFormat die chan _ => isDieNo die && isFlashChan chan
  | .qflRead die _ => isDieNo die
  | .qflReadRaw die _ => isDieNo die
  | .qflProgram die _ => isDieNo die
  | .qflEraseQuad die _ => isDieNo die
  | .qflReadParam die _ => isDieNo die
  | .qflGetFeature die _ => isDieNo die
  | .qflBlankCheck die _ => isDieNo die
  | .qflUnknownOpcode die => isDieNo die
  | .qflOpFail die chan nand _ plane _ => isDieNo die && isFlashChan chan && isNandNo nand && isPlaneNo plane
  | .nandStatusTimeout die chan nand => isDieNo die && isFlashChan chan && isNandNo nand
  | .stringSample _ => true
  | .fullAnchor n => isStringNo n
  | .faultClear n _ => isStringNo n
  | .calStepStart => true
  | .calStepEnd _ _ _ _ _ _ => true
  | .learnCheck => true
  | .learnTimeout n => isStringNo n
  | .learnRepend n => isStringNo n
  | .learnPeriod n => isStringNo n
  | .authResponse n _ => isStringNo n
  | .authRetry n => isStringNo n
  | .authPeriodic n => isStringNo n
  | .serialPoll _ => true
  | .lvRecordWrite _ _ => true
  | .aonSenseLow _ _ => true
  | .aonSenseRise _ => true
  | .bellStrForceIsolate n _ => isStringNo n
  | .bellStrLearn n => isStringNo n
  | .bellStrCancel n => isStringNo n
  | .bellStrReauth n => isStringNo n
  | .bellowsPor _ => true
  | .tmpRead q _ => isQueueNo q
  | .tmpProgram q _ => isQueueNo q
  | .tmpProgramAnd q _ => isQueueNo q
  | .tmpEraseSector q => isQueueNo q
  | .tmpBlankCheck q => isQueueNo q
  | .tmpMarginRead q _ => isQueueNo q
  | .tmpUnknownOpcode q => isQueueNo q
  | .tmpOpDone _ _ => true
  | .tmpScrub _ _ _ => true
  | .tmpPatrolRead _ _ => true
  | .poolAlloc die r srcDie cls _ => isPoolDie die && isRequester r && isPoolDie srcDie && isClassNo cls
  | .poolAllocFallback die => isPoolDie die
  | .poolFree r srcDie handle => isRequester r && isPoolDie srcDie && fits 32 handle
  | .poolShare r srcDie handle => isRequester r && isPoolDie srcDie && fits 32 handle
  | .poolRelease r srcDie handle => isRequester r && isPoolDie srcDie && fits 32 handle
  | .poolHandoff r srcDie handle newReq newDie => isRequester r && isPoolDie srcDie && fits 32 handle && isRequester newReq && isDieNo newDie
  | .poolCmdUnsupported die _ => isPoolDie die
  | .poolQuarantineRelease die _ => isPoolDie die
  | .eventRaise _ source _ => isHearthNo source
  | .leafProgramDone => true
  | .tokenRefill code => fits 16 code
  | .seqReservationDone _ => true
  | .leafClearErase leaf => isLeafNo leaf
  | .evtWinSeqWrite hearth seq => isHearthNo hearth && fits 64 seq
  | .evtWinNext hearth => isHearthNo hearth
  | .spdmGetVersion t => isPath t
  | .spdmGetCapabilities t => isPath t
  | .spdmNegotiateAlgorithms t => isPath t
  | .spdmGetDigests t => isPath t
  | .spdmGetCertificate t _ _ _ => isPath t
  | .spdmChallenge t _ _ => isPath t
  | .spdmGetMeasurements t _ => isPath t
  | .spdmKeyExchange t _ => isPath t
  | .spdmFinish t _ _ => isPath t
  | .spdmEndSession t _ => isPath t
  | .spdmUnsupported t => isPath t
  | .ideKmQuery _ die port => isDieNo die && isFabPort port
  | .ideKmKeyProg _ die port _ _ _ _ => isDieNo die && isFabPort port
  | .ideKmKSetGo _ die port _ _ => isDieNo die && isFabPort port
  | .ideKmKSetStop _ die port _ => isDieNo die && isFabPort port
  | .ideKmGetkey _ die port => isDieNo die && isFabPort port
  | .cipherJobStart die _ _ _ _ => isPoolDie die
  | .cipherJobEnd _ => true
  | .drbgHealthFail _ => true
  | .tamperNAlarm _ _ => true
  | .shieldMeshAlarm _ => true
  | .voltageAlarm _ _ _ _ => true
  | .clockAlarm _ _ _ => true
  | .temperatureAlarm _ _ => true
  | .keyReload => true
  | .reserveRetry _ _ => true
  | .ownerKeyBurn _ => true
  | .resetNAssert _ _ => true
  | .resetNRelease _ => true
  | .nqWindowExpire => true
  | .resetProceed _ => true
  | .startupRomVerify _ _ => true
  | .startupChecks _ _ => true
  | .swageLoad _ _ _ => true
  | .fenceWireTest _ => true
  | .diePowerEnable die => isDieNo die
  | .diePgAssert die _ => isDieNo die
  | .diePgTimeout die => isDieNo die
  | .diePgFall die _ => isDieNo die
  | .spdPopulationCheck _ => true
  | .initialTrainingDone _ _ => true
  | .tagStoreInit => true
  | .romGetFwInfo => true
  | .romTransferFw _ _ _ => true
  | .romActivateFw _ => true
  | .romResetRequest _ => true
  | .swgCheckA => true
  | .swgCheckB => true
  | .swgCheckDone _ _ => true
  | .svcSliceSpare die slice => isDieNo die && isSliceNo slice
  | .svcQuadSpare die quad => isDieNo die && isQuadNo quad
  | .svcRankSpare die _ => isDieNo die
  | .svcSmithSwitch die => isDieNo die
  | .svcCmdUnsupported die _ _ => isDieNo die
  | .sliceParityError die slice => isDieNo die && isSliceNo slice
  | .sliceProgressTimeout die slice => isDieNo die && isSliceNo slice
  | .quadTrainFailure die quad => isDieNo die && isQuadNo quad
  | .smithWatchdog die => isDieNo die
  | .smithMemoryUe die => isDieNo die
  | .rankCopyDone die chan => isDieNo die && isHearthChan chan
  | .vddControl die _ _ _ => isDieNo die
  | .lifeTick die _ => isDieNo die
  | .lifeRecord => true
  | .hcbCmdGo _ hearth _ _ _ => isHearthNo hearth
  | .bar2BadAccess die port _ _ _ => isDieNo die && isFabPort port
  | .registerWrite _ _ _ _ => true
  | .vddAonFall _ => true
  | .weldLinkTrained die link _ _ _ => isDieNo die && isLinkNo link
  | .chanCommandIssue die chan _ _ _ => isDieNo die && isHearthChan chan
  | .mirrorAckBatchTimer die => isDieNo die
  | .nvmeLinkDown die port => isDieNo die && isRootPort port
  | .nvmeControllerFatal die port => isDieNo die && isRootPort port
  | .nvmeControllerReady die port _ _ _ => isDieNo die && isRootPort port
  | .nvmeAttachLinkTimeout die port => isDieNo die && isRootPort port
  | .initiateDcAdd _ _ _ _ _ _ => true
  | .gfamAccessTableSet die port spid _ => isDieNo die && isFabPort port && fits 12 spid
  | .quenchNandDieReady die chan nand => isDieNo die && isFlashChan chan && isNandNo nand
  | .drbgHealthPass => true

end Sys2Proof
end

