-- ==== Sys2Proof/Safety.lean ====
section
/-! DEFINITION. What the claims call a sound block, and what every command keeps: the invariants of the block and the relation between the
block before and after a step. -/

namespace Sys2Proof.Machine

open Sys2Proof

/-- Every register field holds a value of its width (R8). -/
def regsFit (t : Tab FKey Nat) : Prop := ∀ e ∈ t, e.2 < 2 ^ e.1.fld.width

/-- A sound block: the Temper store's memory is in its canonical form, and every register field holds a value of its width. -/
structure Dev.Sound (d : Dev) : Prop where
  mem : Memory.wf d.tmp.mem = true
  regs : regsFit d.regs

/-- What no command breaks, from the block before it to the block after it: soundness is kept, time and the draws of free values only go on,
nothing that has been sent is taken back, and the part stays the part. -/
structure Dev.Leads (a b : Dev) : Prop where
  mem : Memory.wf a.tmp.mem = true → Memory.wf b.tmp.mem = true
  regs : regsFit a.regs → regsFit b.regs
  time : a.now ≤ b.now
  draws : a.free ≤ b.free
  sent : a.out <+: b.out
  part : b.pkg.part = a.pkg.part

/-- The command takes the block from d to e: exec answers that next state, whatever waits behind the command. It says the command's whole
effect: what e does not change of d is its frame. -/
def Dev.Takes (d : Dev) (i : Instr) (e : Dev) : Prop :=
  ∀ q : List Instr, exec i { dev := d, pending := q } = .next { dev := e, pending := q }

/-- The descriptor at a Temper queue's HEAD is taken by a command of its operation: it has come, and it neither runs nor waits (R468). -/
def Dev.tmpReady (d : Dev) (q : Nat) (op : Option TmpOp) : Prop :=
  d.queueHas q = true ∧ tmpOpOf (d.headDesc q).opcode = op ∧ (d.tmp.running.any fun r => decide (r.queue = some q)) = false ∧
    (d.tmp.waiting.any fun w => decide (w.1 = q)) = false

/-- The descriptor at the HEAD of a die's quench-flash queue has an opcode and passes its checks, with the buffer that it moves data through,
and its LUN does not erase (R425, R433). -/
def Dev.qflReady (d : Dev) (die op : Nat) (k : Option BufKey) : Prop :=
  d.f QFL_Q_TAIL.TAIL die ≠ d.f QFL_Q_HEAD.HEAD die ∧ d.quenching = false ∧ (d.qdesc die).opcode = op ∧
    d.qCheck die (d.qdesc die) = .ok k ∧ d.qErasing ⟨die, (d.qdesc die).chan, (d.qdesc die).nand⟩ = false

/-- The quad that the descriptor at HEAD names (R432). -/
def Dev.qflQuad (d : Dev) (die : Nat) : QKey := ⟨die, (d.qdesc die).chan, (d.qdesc die).nand, (d.qdesc die).quad⟩

/-- It is the turn of a mailbox command that is rung now (R101): the commands rung before it have run, which leaves x, and none goes on
running. -/
def Dev.mbTurn (d x : Dev) : Prop := x = Dev.mbDrain d.mbox.held.length d ∧ x.mbox.running = none

/-- A mailbox command passes the checks before it runs: its path answers and runs commands of its scope, its input has a size that the command
takes, and its authority holds where it needs one (R100, R103 to R106). -/
def Dev.mbPasses (d : Dev) (mb : Mb) (c : MbSpec) : Prop :=
  d.mbReady mb.path = true ∧ (c.pkg = true → pathPackage mb.path = true) ∧ mb.size ≤ pathLimit mb.path ∧ c.lo ≤ mb.size ∧ mb.size ≤ c.hi ∧
    (c.mgmt = true → d.authReason mb.auth c.opcode = none)

/-- The waiting commands are well formed. -/
def State.queueWf (s : State) : Bool := s.pending.all Instr.wf

end Sys2Proof.Machine
end

