-- ==== Sys2Proof/Certificates/Slice0/Obligations.lean ====
section
/-! DEFINITION. The statements for the provers. `d.Takes c e` (Safety) says that the command c, on a block d with any queue behind it, answers a next
state: the block e and the same queue. So e is the whole of what c does: every part of the block that the right side does not name is that of d.
Where e is written with an operation of the model (one that raises an event, sends a message, takes a free buffer), that operation's own definition
is the meaning of its rule. Values that the manual leaves open are free values (assumption 3), the encoding of event payload items that it leaves
open is the model's (assumption 8), and a statement names the other choices it rests on. -/

section Statements

open Sys2Proof Sys2Proof.Machine

set_option linter.unusedVariables false

/-- The pool commands (R494 to R502): what each does to the pool it names, with its result. -/
def Obligations.PoolCommandsRun : Prop :=
  (∀ (d : Dev) (die r srcDie c i : Nat) (nf : Bool), die ≠ 0 → d.inService die = true → c ≤ 3 → d.mayAlloc r = true → r ≠ 26 → r ≠ 30 →
    d.quarantined die r = false → d.held die r c < d.quota r c → d.reserve die c < d.freeBufs die c → d.lowestFree die c = some i →
    d.Takes (.poolAlloc die r srcDie c nf)
      (({ d with pool := { d.pool with
          rr := tset d.pool.rr (die, c) ((r + 1) % 32), bufs := tset d.pool.bufs ⟨die, c, i⟩ ⟨false, r, srcDie, 0⟩,
          data := tdel d.pool.data ⟨die, c, i⟩ } }).emit (.poolResult die r srcDie .ok (d.handle ⟨die, c, i⟩)))) ∧
  (∀ (d : Dev) (die c r srcDie : Nat), d.pool.fallback.find? (fun q => decide (q.1 = die)) = some (die, c, r, srcDie) →
    d.Takes (.poolAllocFallback die)
      (({ d with pool := { d.pool with fallback := dropFirst (fun q => decide (q.1 = die)) d.pool.fallback } }).allocAt die r srcDie c false)) ∧
  (∀ (d : Dev) (r srcDie h : Nat) (k : BufKey) (b : Buf), (d.poolCmd (handleDie h) r srcDie 2 h).checkHandle h = .ok k →
    tget d.pool.bufs k = some b → b.ownedBy r srcDie = true → b.pending = false →
    d.Takes (.poolFree r srcDie h)
      (if b.share = 0 then (((d.poolCmd (handleDie h) r srcDie 2 h).arbiterPast (handleDie h) k.cls r).dropBuf k).poolDone (handleDie h) r srcDie .ok h
       else (((d.poolCmd (handleDie h) r srcDie 2 h).arbiterPast (handleDie h) k.cls r).setBuf k { b with pending := true }).poolDone (handleDie h) r
         srcDie .freePending h)) ∧
  (∀ (d : Dev) (r srcDie h : Nat) (k : BufKey) (b : Buf), (d.poolCmd (handleDie h) r srcDie 3 h).checkHandle h = .ok k →
    tget d.pool.bufs k = some b → ((d.poolCmd (handleDie h) r srcDie 3 h).arbiterPast (handleDie h) k.cls r).quarantined (handleDie h) r = false →
    b.pending = false → b.share < 255 →
    d.Takes (.poolShare r srcDie h)
      ((((d.poolCmd (handleDie h) r srcDie 3 h).arbiterPast (handleDie h) k.cls r).setBuf k { b with share := b.share + 1 }).poolDone (handleDie h) r
        srcDie .ok h)) ∧
  (∀ (d : Dev) (r srcDie h : Nat) (k : BufKey) (b : Buf), (d.poolCmd (handleDie h) r srcDie 4 h).checkHandle h = .ok k →
    tget d.pool.bufs k = some b → b.share ≠ 0 →
    d.Takes (.poolRelease r srcDie h)
      (if b.pending = true ∧ b.share = 1 then
        (((d.poolCmd (handleDie h) r srcDie 4 h).arbiterPast (handleDie h) k.cls r).dropBuf k).poolDone (handleDie h) r srcDie .ok h
       else (((d.poolCmd (handleDie h) r srcDie 4 h).arbiterPast (handleDie h) k.cls r).setBuf k { b with share := b.share - 1 }).poolDone
         (handleDie h) r srcDie .ok h)) ∧
  (∀ (d : Dev) (r srcDie h newReq newDie : Nat) (k : BufKey) (b : Buf) (x : Dev),
    x = (d.poolCmd (handleDie h) r srcDie 5 h).arbiterPast (handleDie h) k.cls r →
    (d.poolCmd (handleDie h) r srcDie 5 h).checkHandle h = .ok k → tget d.pool.bufs k = some b → x.quarantined (handleDie h) r = false →
    b.ownedBy r srcDie = true → b.pending = false → x.held (handleDie h) newReq k.cls < x.quota newReq k.cls →
    d.Takes (.poolHandoff r srcDie h newReq newDie)
      ((x.setBuf k { b with owner := newReq, ownerDie := newDie }).poolDone (handleDie h) r srcDie .ok h)) ∧
  (∀ (d : Dev) (die op : Nat), d.inService die = true → op = 0 ∨ op = 6 ∨ op = 7 → d.fb POOL_CMD_STATUS.BUSY die = false →
    d.Takes (.poolCmdUnsupported die op)
      (((((d.setF POOL_CMD.OP op die).emit (.poolResult die 30 die .unsupported 0)).setB POOL_CMD_STATUS.BUSY false die).setB
        POOL_CMD_STATUS.DONE true die).setF POOL_CMD_STATUS.STATUS Status.unsupported.code die)) ∧
  (∀ (d : Dev) (die r n : Nat), d.inService die = true → r < 32 → d.quarantined die r = true → n = d.f POOL_VIOLATIONS.COUNT die r →
    (bitsOf 32 (2 ^ r)).filter (d.quarantined die) = [r] →
    d.Takes (.poolQuarantineRelease die (2 ^ r))
      (((d.setF POOL_QUARANTINE.MASK (d.f POOL_QUARANTINE.MASK die - 2 ^ r) die).setF POOL_VIOLATIONS.COUNT 0 die r).raise .POOL_QUARANTINE die
        [p1 r, p1 1, p4 n]))

/-- The Temper store's reads, checks and refused descriptors (R468 to R480): a descriptor that passes its checks and whose banks are free
runs the operation of its opcode; an unknown one completes with UNSUPPORTED; the patrol counts and moves on. -/
def Obligations.TemperReadsRun : Prop :=
  (∀ (d : Dev) (q : Nat) (m : List (Nat × Bool)) (k : BufKey), d.tmpReady q (some .read) → d.tmpCheck q (d.headDesc q) = .ok (.read, some k) →
    d.tmpMustWait q (d.headDesc q) .read = false → d.Takes (.tmpRead q m) (d.tmpDoRead q (d.headDesc q) k m)) ∧
  (∀ (d : Dev) (q : Nat), d.tmpReady q (some .blankCheck) → d.tmpCheck q (d.headDesc q) = .ok (.blankCheck, none) →
    d.tmpMustWait q (d.headDesc q) .blankCheck = false → d.Takes (.tmpBlankCheck q) (d.tmpDoBlank q (d.headDesc q))) ∧
  (∀ (d : Dev) (q : Nat) (diffs : List Nat) (k : BufKey), d.tmpReady q (some .marginRead) →
    d.tmpCheck q (d.headDesc q) = .ok (.marginRead, some k) → d.tmpMustWait q (d.headDesc q) .marginRead = false →
    d.Takes (.tmpMarginRead q diffs) (d.tmpDoMargin q (d.headDesc q) k diffs)) ∧
  (∀ (d : Dev) (q : Nat), d.tmpReady q none → d.Takes (.tmpUnknownOpcode q) (d.tmpEnd q (d.headDesc q) .unsupported)) ∧
  (∀ (d : Dev) (c u l n : Nat), d.fb TMP_CTRL.PATROL_EN = true →
    ((List.range 11776).filter d.sectorProgrammed).find? (fun x => decide (d.f TMP_PATROL_POS.SECTOR ≤ x)) = some l →
    ((List.range 11776).filter d.sectorProgrammed).find? (fun x => decide (l < x)) = some n → c < d.f TMP_CTRL.WARN_BITS →
    d.Takes (.tmpPatrolRead c u)
      (((((d.addF TMP_CORRECTED.COUNT c).addF TMP_UNCORRECTABLE.COUNT u).setTmp fun t =>
        { t with patrolCorrected := t.patrolCorrected + c, patrolUncorrectable := t.patrolUncorrectable + u }).setB
          TMP_STATUS.PATROL_ACTIVE true).setF TMP_PATROL_POS.SECTOR n))

/-- The Temper store's programs and erases (R473 to R479): the medium changes and the operation runs in its banks, its end completes the
descriptor, and a scrub moves a sector. -/
def Obligations.TemperWritesRun : Prop :=
  (∀ (d : Dev) (q : Nat) (data : List Word) (k : BufKey) (x : Dev), d.tmpReady q (some .program) → d.checkHandle (d.headDesc q).handle = .ok k →
    x = { d with pool := { d.pool with data := tset d.pool.data k data } } → x.tmpCheck q (d.headDesc q) = .ok (.program, some k) →
    x.tmpMustWait q (d.headDesc q) .program = false → d.Takes (.tmpProgram q data) (x.tmpDoProgram q (d.headDesc q) k)) ∧
  (∀ (d : Dev) (q : Nat) (data : List Word) (k : BufKey) (x : Dev), d.tmpReady q (some .programAnd) →
    d.checkHandle (d.headDesc q).handle = .ok k → x = { d with pool := { d.pool with data := tset d.pool.data k data } } →
    x.tmpCheck q (d.headDesc q) = .ok (.programAnd, some k) → x.tmpMustWait q (d.headDesc q) .programAnd = false →
    d.Takes (.tmpProgramAnd q data)
      (((x.tmpPut (d.headDesc q).addr
        ((List.range (d.headDesc q).length).map fun i =>
          leBytes 8 (x.tmpWord ((d.headDesc q).addr + 8 * i) &&& x.bufWord k i).toNat).flatten).tick).tmpRun q (d.headDesc q) .programAnd
            (x.tmpRange (d.headDesc q).addr (8 * (d.headDesc q).length)))) ∧
  (∀ (d : Dev) (q : Nat), d.tmpReady q (some .eraseSector) → d.tmpCheck q (d.headDesc q) = .ok (.eraseSector, none) →
    d.tmpMustWait q (d.headDesc q) .eraseSector = false →
    d.Takes (.tmpEraseSector q) ((d.tmpEraseSector ((d.headDesc q).addr / 4096)).tmpRun q (d.headDesc q) .eraseSector [])) ∧
  (∀ (d : Dev) (q : Nat) (r : TmpRun), d.tmp.running.find? (fun r => decide (r.queue = some q)) = some r → r.op = .eraseSector →
    d.Takes (.tmpOpDone (some q) none)
      (((((d.setTmp fun t => { t with running := dropFirst (fun x => decide (x.queue = some q)) t.running }).tmpBusyBits).tmpComplete q .ok 0 0
        r.words 0 r.tag)).tmpProceed)) ∧
  (∀ (d : Dev) (l spare : Nat), d.tmp.scrubs.contains l = true → d.tmp.spares.contains spare = true →
    ∃ x : Dev, x = d.setTmp (fun t => { t with scrubs := t.scrubs.filter fun y => decide (y ≠ l) }) ∧
    d.Takes (.tmpScrub l spare false)
      (((((x.tmpMove l spare).setTmp fun t => { t with
          spares := t.spares ++ [x.physSector l], undefSectors := t.undefSectors.filter fun y => decide (y ≠ x.physSector l) }).incF TMP_SCRUBS.COUNT).raiseB .TMP_SCRUBBED
            [p4 l, p4 (x.physSector l), p4 spare]).sparesCheck))

/-- The event recorder's commands (R507 to R522). -/
def Obligations.RecorderCommandsRun : Prop :=
  (∀ (d : Dev) (ev : Ev) (source : Nat) (payload : Fields), d.Takes (.eventRaise ev source payload) (d.raise ev source payload)) ∧
  (∀ (d : Dev) (k : Nat) (r : EvRec), d.aonLow = false →
    d.evt.queue.find? (fun q => d.slotErased q.1 (d.f EVT_LEAF_STATUS.RECORDS 0 q.1)) = some (k, r) → d.f EVT_LEAF_STATUS.RECORDS 0 k < leafSlots →
    d.Takes .leafProgramDone
      (({ d with evt := { d.evt with queue := dropFirst (fun q => decide (q = (k, r))) d.evt.queue } }).leafProgram k r)) ∧
  (∀ (d : Dev) (code : Nat), (d.bucket code).tokens < 8 → (d.bucket code).suppressed = 0 →
    d.Takes (.tokenRefill code) (d.setBucket code { d.bucket code with tokens := (d.bucket code).tokens + 1, suppressed := 0 })) ∧
  (∀ (d : Dev), d.evt.reservation ≤ d.evt.nextSeq + 2 ^ 19 →
    (({ d with evt := { d.evt with reservation := d.evt.reservation + 2 ^ 20 } }).saveReservation).fb EVT_STATUS.SEQ_STALL = false →
    d.Takes (.seqReservationDone true) (({ d with evt := { d.evt with reservation := d.evt.reservation + 2 ^ 20 } }).saveReservation)) ∧
  (∀ (d : Dev) (leaf sector : Nat), tget d.evt.clearing leaf = some sector → sector < 95 →
    ∃ x : Dev, x = d.tmpEraseSector (leafBase leaf / 4096 + sector) ∧
    d.Takes (.leafClearErase leaf) { x with evt := { x.evt with clearing := tset x.evt.clearing leaf (sector + 1) } }) ∧
  (∀ (d : Dev) (h seq : Nat), d.hearthExists h = true → d.Takes (.evtWinSeqWrite h seq) ((d.setF EVT_WIN_SEQ.SEQ seq h).winStatus h)) ∧
  (∀ (d : Dev) (h : Nat) (r : EvRec), d.hearthExists h = true → d.winRecord h = some r →
    d.Takes (.evtWinNext h) ((d.setF EVT_WIN_SEQ.SEQ (r.seq + 1) h).winStatus h))

/-- The checks of the Swage copies (R63, R76): a write of CHECK_A or CHECK_B starts one, and its end gives the copy's result. -/
def Obligations.SwageChecksRun : Prop :=
  (∀ (d : Dev), d.fb SWG_CHECK.CHECK_BUSY = false →
    ∃ x : Dev, x = (d.setB SWG_CHECK.CHECK_BUSY true).setF SWG_STATUS.RESULT_A 0xF ∧
    d.Takes .swgCheckA { x with swg := { x.swg with checking := some 0 } }) ∧
  (∀ (d : Dev), d.fb SWG_CHECK.CHECK_BUSY = false →
    ∃ x : Dev, x = (d.setB SWG_CHECK.CHECK_BUSY true).setF SWG_STATUS.RESULT_B 0xF ∧
    d.Takes .swgCheckB { x with swg := { x.swg with checking := some 1 } }) ∧
  (∀ (d : Dev) (ok : Bool) (bank copy : Nat), d.swg.checking = some copy →
    (verifyImage ⟨d.pkg.part, d.pkg.ownerKeyId, ok, bank, none⟩ (d.copyRead copy)).1 = 0 →
    ∃ x : Dev, x = (d.setB SWG_CHECK.CHECK_BUSY false).setF (resultField copy) 0 ∧
    d.Takes (.swgCheckDone ok bank) { x with swg := { x.swg with checking := none } })

/-- The fabric ports' accesses (R81, R91, R92): a write at the fence gate and a read go to their owning slice, and use up a credit. -/
def Obligations.FabricAccessesRun : Prop :=
  (∀ (d : Dev) (die port host dpa tag a : Nat) (ld : Option Nat) (data : Line) (be : Mask) (x : Dev), d.portTakes die port = true →
    d.f FAB_PORT_CREDITS.RWD_FREE die port ≠ 0 → d.fence = false →
    x = (d.setF FAB_PORT_CREDITS.RWD_FREE (d.f FAB_PORT_CREDITS.RWD_FREE die port - 1) die port).countAccepted die port 1 →
    x.accessCause die port ld host dpa = (none, a) →
    d.Takes (.memWr die port ld host dpa data be tag) (x.arrive (.port die port host ld) .write (slabOf a) (sectorOf a) data be tag 0)) ∧
  (∀ (d : Dev) (die port host dpa tag : Nat) (ld : Option Nat) (data : Line) (be : Mask), d.portTakes die port = true →
    d.f FAB_PORT_CREDITS.RWD_FREE die port ≠ 0 → d.fence = true →
    d.Takes (.memWr die port ld host dpa data be tag)
      ((d.setF FAB_PORT_CREDITS.RWD_FREE (d.f FAB_PORT_CREDITS.RWD_FREE die port - 1) die port).incF FAB_PORT_REFUSED.COUNT die port)) ∧
  (∀ (d : Dev) (die port host dpa own tag a : Nat) (ld : Option Nat) (x : Dev), d.portTakes die port = true →
    d.f FAB_PORT_CREDITS.REQ_FREE die port ≠ 0 →
    x = d.setF FAB_PORT_CREDITS.REQ_FREE (d.f FAB_PORT_CREDITS.REQ_FREE die port - 1) die port →
    x.accessCause die port ld host dpa = (none, a) →
    d.Takes (.memRd die port ld host dpa own tag) (x.arrive (.port die port host ld) (.read own) (slabOf a) (sectorOf a) 0 0 tag 0)) ∧
  (∀ (d : Dev) (host line : Nat) (x : Dev), d.fab.snoops.contains (line, host) = true → x = (d.dirRemove line host).afterSnoops →
    d.Takes (.birsp host line)
      (x.setCru fun c => { c with maints := c.maints.map fun m =>
        { m with snooping := m.snooping.filter fun l => x.fab.snoops.any fun e => decide (e.1 = l) } })) ∧
  (∀ (d : Dev) (mask : Nat), d.Takes (.fabBiReset mask) (d.setFab fun f => { f with biBroadcast := f.biBroadcast.filter fun n => !bit mask n })) ∧
  (∀ (d : Dev) (die port spid : Nat), d.isDie die = true → d.swg.cfg.hasPort die port = true → d.swg.cfg.portMode die port = 2 →
    d.Takes (.gfamAccessTableSet die port spid false)
      (d.setFab fun f => { f with gfam := f.gfam.filter fun e => decide (e ≠ (die, port, spid)) }))

/-- The fabric ports' links, resets and flushes (R79, R86, R87, R93, R94, R553). -/
def Obligations.FabricLinksRun : Prop :=
  (∀ (d : Dev) (die port ld start size : Nat), d.swg.cfg.hasPort die port = true → ld < d.swg.cfg.portLds die port → start % 2 ^ 28 = 0 →
    size % 2 ^ 28 = 0 → size ≠ 0 → start + size ≤ d.swg.cfg.dram.dpaLimit →
    (d.fab.lds.any fun e => decide (e.1 ≠ (die, port, ld) ∧ start < e.2.1 + e.2.2 ∧ e.2.1 < start + size)) = false →
    d.dirtyIn (tgetD d.fab.lds (die, port, ld) (0, 0)).1 (tgetD d.fab.lds (die, port, ld) (0, 0)).2 = false → d.dirtyIn start size = false →
    d.Takes (.fmLdAllocate die port ld start size) (d.setFab fun f => { f with lds := tset f.lds (die, port, ld) (start, size) })) ∧
  (∀ (d : Dev) (die port : Nat), d.isDie die = true → d.swg.cfg.hasPort die port = true → d.portUp die port = true →
    d.Takes (.gpfRequest die port)
      ((d.setFab fun f => { f with gpf := f.gpf ++ [⟨die, port, d.waitingWrites die port, d.now⟩] }).raise .FAB_GPF die
          [p1 1, p1 port, p4 0])) ∧
  (∀ (d : Dev) (die port : Nat) (g : GpfWait), d.fab.gpf.find? (fun g => decide (g.die = die ∧ g.port = port)) = some g →
    (d.cru.reqs.any fun r => g.rids.contains r.rid && r.notPassed) = false →
    d.Takes (.gpfPhase2Response die port)
      (((d.setFab fun f => { f with gpf := dropFirst (fun x => decide (x = g)) f.gpf }).emit (.gpfPhase2 die port)).raise .FAB_GPF die
        [p1 2, p1 port, p4 (d.now - g.at0)])) ∧
  (∀ (d : Dev) (die port : Nat), d.inService die = true → d.swg.cfg.hasPort die port = true → d.quenching = false →
    d.Takes (.perstN die port)
      (((((((d.linkOff die port).dropPortMessages die port).resetCredits die port).setFab fun f =>
          { f with hdmDb := f.hdmDb.filter fun r => !(decide (r.die = die ∧ r.port = port)),
                   insecure := f.insecure.filter fun x => decide (x ≠ (die, port)),
                   gpf := f.gpf.filter fun g => !(decide (g.die = die ∧ g.port = port)) }).eraseIde die port).endSessions
            (pathOnPort die port) 2).raise .FAB_PERST die [p1 port])) ∧
  (∀ (d : Dev) (die port ld : Nat), d.inService die = true → d.swg.cfg.hasPort die port = true → d.quenching = false → d.mbox.running = none →
    d.Takes (.flr die port (some ld))
      (({ d with mbox := { d.mbox with running := none } }.endSessions (fun p => decide (p = Path.port die port (some ld))) 2).tick.raiseB .RST_FLR
        [p1 port, p4 ld, p4 0])) ∧
  (∀ (d : Dev) (die port stream slot : Nat), d.isDie die = true → d.swg.cfg.hasPort die port = true → d.portUp die port = true → stream ≠ 0 →
    d.Takes (.ideCheckFail die port stream slot)
      (((d.setB FAB_PORT_STATUS.IDE_SECURE false die port).setB FAB_PORT_STATUS.IDE_FAIL true die port).raise .FAB_IDE_FAIL die
        [p1 port, p4 stream, p1 slot])) ∧
  (∀ (d : Dev) (die port width rate r w : Nat), d.inService die = true → d.swg.cfg.hasPort die port = true → d.quenching = false →
    d.swg.loaded = true → d.portUp die port = false → r = Nat.min rate (d.swg.cfg.fabricQuad die port).rate →
    w = Nat.min width (4 * widthQuads (d.swg.cfg.fabricQuad die port).width) →
    ∃ e : Dev, d.Takes (.fabLinkUp die port width rate) (e.tick.raise .FAB_LINK_UP die [p1 port, p1 w, p1 (e.rateGts r)]) ∧
      e = (((d.setB FAB_PORT_STATUS.LINK_UP true die port).setF FAB_PORT_STATUS.WIDTH w die port).setF FAB_PORT_STATUS.RATE r die port).setB
        FAB_PORT_STATUS.MEM_ACTIVE (!d.fence) die port) ∧
  (∀ (d : Dev) (die port ltssm : Nat), d.isDie die = true → d.swg.cfg.hasPort die port = true → d.portUp die port = true →
    d.Takes (.fabLinkDown die port none ltssm)
      ((((d.linkOff die port).dropPortMessages die port).resetCredits die port).raise .FAB_LINK_DOWN die [p1 port, p4 ltssm]))

/-- Admission, fills and destages at the Crucible (R134 to R144). -/
def Obligations.CrucibleRequestsRun : Prop :=
  (∀ (d : Dev) (rid : Nat) (look : TagLook) (bad : Bool) (r : Req), d.req rid = some r → r.isRead = false →
    d.Takes (.writeAdmit rid look bad) (d.admitOne r look bad)) ∧
  (∀ (d : Dev) (rid : Nat) (look : TagLook) (bad : Bool) (r : Req), d.req rid = some r → r.isRead = true →
    d.Takes (.readAdmit rid look bad) (d.admitOne r look bad)) ∧
  (∀ (d : Dev) (slab : Nat) (data : List Line), tget d.cru.fills slab = some false → d.quenching = false → d.frozenSlab slab = false →
    d.Takes (.fillLands slab data) (d.landFill slab (d.decrypt slab data))) ∧
  (∀ (d : Dev) (slab status : Nat), tget d.cru.fills slab = some false → d.quenching = false →
    d.Takes (.fillFail slab status) (d.failFill slab status)) ∧
  (∀ (d : Dev) (slab : Nat), d.selects slab = true → d.quenching = false → d.Takes (.destageSelect slab 0) (d.startDestage slab)) ∧
  (∀ (d : Dev) (slab : Nat), d.stateOf slab = .dirty → d.f CRUC_DESTAGE_CTRL.IDLE_MS ≠ 0 → d.cru.idleDue.contains slab = false →
    d.Takes (.idleDestageTimer slab) (d.setCru fun c => { c with idleDue := c.idleDue ++ [slab] })) ∧
  (∀ (d : Dev) (slab : Nat), (tget d.cru.destages slab).isSome = true → d.quenching = false →
    d.Takes (.destageComplete slab) ((d.endDestage slab).cleanDone slab)) ∧
  (∀ (d : Dev) (slab status : Nat) (g : Destage), tget d.cru.destages slab = some g → d.quenching = false →
    d.Takes (.destageFail slab status)
      (((d.modTag slab fun t => { t with state := .dirty }).setCru fun c =>
        { c with destages := tdel c.destages slab, notBefore := tset c.notBefore slab ((d.modTag slab fun t => { t with state := .dirty }).now + 1000000000) }).raiseC
          .CRUC_DESTAGE_FAIL slab [p5 slab, p2 status]))

/-- Stalled requests, uncached reads and staging buffers at the Crucible (R134, R135, R144, R157). -/
def Obligations.CrucibleWaitsRun : Prop :=
  (∀ (d : Dev) (rid : Nat) (r : Req), d.req rid = some r → d.mayRetry r = true → d.quenching = false →
    d.Takes (.setStallRetry rid) (d.admitReq r false)) ∧
  (∀ (d : Dev) (rid t : Nat) (r : Req), d.req rid = some r → r.wait = .way t → tget d.cru.heldAt (d.setOf r.slab) = none →
    d.Takes (.setStallHeldTimer rid)
      ((d.setCru fun c => { c with heldAt := tset c.heldAt (d.setOf r.slab) d.now }).raiseC .CRUC_SET_STALL_HELD r.slab
        [p4 (d.setOf r.slab).set, p1 (d.heldCause (d.setOf r.slab)), p4 (d.wayWaiters (d.setOf r.slab))])) ∧
  (∀ (d : Dev) (rid : Nat) (r : Req) (data : List Line), d.req rid = some r → r.wait = .uncached → d.quenching = false →
    d.cru.poison.contains (r.slab, r.sector) = false →
    d.Takes (.uncachedReadDone rid true data) ((d.respond r.src r.tag ((d.decrypt r.slab data).getD r.sector 0) false).endReq rid)) ∧
  (∀ (d : Dev) (rid status : Nat) (g : Staging) (data : List Line), tget d.cru.staging rid = some g → g.phase = 0 → d.quenching = false →
    d.Takes (.bypassBackingReadDone rid true status data) (d.fillStaging rid g (d.decrypt g.slab data))) ∧
  (∀ (d : Dev) (rid status : Nat) (g : Staging) (r : Req), tget d.cru.staging rid = some g → d.req rid = some r → g.phase = 1 → d.quenching = false →
    d.Takes (.bypassBackingWriteDone rid false status) (d.stagingFailed rid g status)) ∧
  (∀ (d : Dev) (rid status : Nat) (g : Staging) (r : Req) (x : Dev), tget d.cru.staging rid = some g → d.req rid = some r → g.phase = 1 →
    d.quenching = false → r.be ≠ fullMask →
    x = d.setCru (fun c => { c with staging := tdel c.staging rid, notBefore := tdel c.notBefore g.slab }) → x.mirrorsSlab g.slab = none →
    d.Takes (.bypassBackingWriteDone rid true status) ((x.finishWrite r (x.awaitsAck r)).ceilCheck)) ∧
  (∀ (d : Dev) (rid : Nat) (g : Staging), tget d.cru.staging rid = some g → g.phase = 2 → d.quenching = false →
    d.Takes (.bypassRetry rid) (d.runStaging rid g)) ∧
  (∀ (d : Dev) (slab : Nat) (lost : List Nat), tget d.cru.rebuilds (d.setOf slab) = some lost →
    ((d.candidates (d.setOf slab) lost).any fun x => (tget d.weld.fetches x).isSome) = false →
    d.Takes (.setRebuildDone slab) (d.endRebuild (d.setOf slab) lost))

/-- The mode state machine and the maintenance operations (R145 to R153, R169). -/
def Obligations.ModesAndMaintenanceRun : Prop :=
  (∀ (d : Dev), d.quenching = false → d.f CRUC_MODE.CURRENT = 1 →
    d.Takes (.crucModeRequest 0) ((d.setF CRUC_MODE.CURRENT 0).setF CRUC_MODE.TARGET 0)) ∧
  (∀ (d : Dev) (m : Nat), d.quenching = false → m ≤ 2 → d.f CRUC_MODE.CURRENT = 4 →
    d.Takes (.crucModeRequest m) (d.setB CRUC_MODE.REQ_REFUSED true)) ∧
  (∀ (d : Dev) (x : Dev), d.quenching = false → d.f CRUC_MODE.CURRENT = 3 → d.poisonedSlabs = 0 → x = d.setB CRUC_MODE.DRAIN_BLOCKED false →
    x.D = 0 → (x.cru.reqs.any fun r => decide (r.wait = .destage)) = false → d.Takes .drainExitCheck (x.enterMode (x.f CRUC_MODE.TARGET))) ∧
  (∀ (d : Dev), d.quenching = false → d.f CRUC_MODE.CURRENT = 4 →
    d.Takes .generationSweepDone
      (((((d.setCru fun c => { c with tags := [], dram := c.dram.filter fun e => c.staging.any fun g => decide (g.2.slab = e.1.1) }).setF
        CRUC_MODE.GENERATION 0).setF CRUC_SWEEP.PERMILLE 1000).raiseR .CRUC_GEN_SWEEP [p1 1, p1 (d.f CRUC_MODE.TARGET)]).enterMode
          (d.f CRUC_MODE.TARGET))) ∧
  (∀ (d : Dev) (id : Nat), d.Takes (.maintClean id) (d.maintStep id .clean fun d m slab => d.maintClean m slab)) ∧
  (∀ (d : Dev) (id : Nat), d.Takes (.maintInvalidate id) (d.maintStep id .invalidate fun d m slab => d.maintInvalidate m slab)) ∧
  (∀ (d : Dev) (id : Nat), d.Takes (.maintEvict id) (d.maintStep id .evict fun d m slab => d.maintEvict m slab)) ∧
  (∀ (d : Dev) (id : Nat), d.Takes (.maintPin id) (d.maintStep id .pin fun d _ slab => d.maintPin slab)) ∧
  (∀ (d : Dev) (id : Nat), d.Takes (.maintUnpin id) (d.maintStep id .unpin fun d _ slab => d.maintUnpin slab)) ∧
  (∀ (d : Dev) (id : Nat), d.Takes (.maintFillAhead id) (d.maintStep id .fillAhead fun d _ slab => d.maintFillAhead slab)) ∧
  (∀ (d : Dev) (die slab count op : Nat) (discard : Bool) (o : MaintOp) (x : Dev), d.inService die = true → d.smithDead die = false →
    d.fb CRUC_MAINT_STATUS.BUSY die = false → d.quenching = false →
    x = ((((d.setF CRUC_MAINT_DPA.SLAB slab die).setF CRUC_MAINT_CTRL.COUNT count die).setF CRUC_MAINT_CTRL.OP op die).setB CRUC_MAINT_CTRL.DISCARD
      discard die).setB CRUC_MAINT_STATUS.DONE false die →
    x.f CRUC_MAINT_CTRL.COUNT die ≠ 0 → x.f CRUC_MAINT_CTRL.COUNT die ≤ 65536 → maintOpOf (x.f CRUC_MAINT_CTRL.OP die) = some o →
    ∃ y : Dev, y = (x.setB CRUC_MAINT_STATUS.BUSY true die).setF CRUC_MAINT_STATUS.STATUS 0 die ∧
    d.Takes (.crucMaintGo die slab count op discard)
      (y.addMaint (.smith die) (y.f CRUC_MAINT_DPA.SLAB die) (x.f CRUC_MAINT_CTRL.COUNT die) o discard (some ((List.range 9).map (sliceId die))) 0
        (2 ^ 52)))

/-- Weld links and keys (R303, R304, R311, R320 to R323, R337). -/
def Obligations.WeldLinksRun : Prop :=
  (∀ (d : Dev) (die link width rate : Nat) (spare : Bool) (x : Dev), d.hasLink (die, link) = true → d.inService die = true → d.swg.loaded = true →
    d.quenching = false → d.linkState (die, link) ≤ 1 → d.fb WELD_LINK_CTRL.DISABLE die link = false →
    x = ((((d.linkDown (die, link) 1).setF WELD_LINK_STATUS.WIDTH (if width = 8 then 2 else 1) die link).setB WELD_LINK_STATUS.RATE
      (decide (rate = 64)) die link).setB WELD_LINK_STATUS.SPARE_QUAD spare die link) →
    d.Takes (.weldLinkTrained die link width rate spare)
      ((x.setB WELD_LINK_STATUS.VERSION1 x.version1 die link).emit
        (.weldHello die link (if (x.setB WELD_LINK_STATUS.VERSION1 x.version1 die link).version1 then 1 else 2)
          (x.setB WELD_LINK_STATUS.VERSION1 x.version1 die link).side))) ∧
  (∀ (d : Dev) (die link side peerLink : Nat) (x : Dev), d.hasLink (die, link) = true → d.linkState (die, link) = 1 →
    (d.link (die, link)).hello = false → side ≠ d.side →
    x = (((d.setF WELD_LINK_STATUS.PEER_DIE die die link).setF WELD_LINK_STATUS.PEER_LINK peerLink die link).modLink (die, link) fun k =>
      { k with hello := true, lastRx := ((d.setF WELD_LINK_STATUS.PEER_DIE die die link).setF WELD_LINK_STATUS.PEER_LINK peerLink die link).now }) →
    d.Takes (.weldHello die link (if d.version1 then 1 else 2) side die peerLink) (if x.side = 0 then x.startRoll (die, link) else x)) ∧
  (∀ (d : Dev) (die link version side peerDie peerLink : Nat), d.hasLink (die, link) = true → d.linkState (die, link) = 1 →
    (d.link (die, link)).hello = false → version ≠ (if d.version1 then 1 else 2) →
    d.Takes (.weldHello die link version side peerDie peerLink) (d.refuseLink (die, link) 0)) ∧
  (∀ (d : Dev) (die link t : Nat) (x : Dev), (d.link (die, link)).refusedAt = some t → d.linkState (die, link) = 0 →
    d.fb WELD_LINK_CTRL.DISABLE die link = false → d.quenching = false →
    x = ((d.until (t + 1000000000)).linkDown (die, link) 1).setF WELD_LINK_STATUS.STATE 1 die link →
    d.Takes (.weldHelloRetry die link) (x.emit (.weldHello die link (if x.version1 then 1 else 2) x.side))) ∧
  (∀ (d : Dev) (die link : Nat), d.linkState (die, link) = 2 → 2 ^ 48 - 2 ^ 16 ≤ d.f WELD_TX_COUNTER.COUNT die link →
    d.Takes (.keyStallEnter die link) ((d.enterStall (die, link)).sendHeartbeat (die, link))) ∧
  (∀ (d : Dev) (die link : Nat), d.linkState (die, link) = 2 →
    d.Takes (.linkHeartbeatLoss die link) ((d.until ((d.link (die, link)).lastRx + 200000)).linkLost (die, link) 0)) ∧
  (∀ (d : Dev) (die link : Nat), d.linkState (die, link) = 3 →
    d.Takes (.linkHeartbeatLoss die link) ((d.until ((d.link (die, link)).lastRx + 10000000)).linkLost (die, link) 0)) ∧
  (∀ (d : Dev) (die link : Nat), d.hasLink (die, link) = true → d.Takes (.linkElectricalLoss die link) (d.linkLost (die, link) 1)) ∧
  (∀ (d : Dev) (die link : Nat), d.hasLink (die, link) = true →
    d.Takes (.weldLinkDisable die link true) ((d.setB WELD_LINK_CTRL.DISABLE true die link).linkLost (die, link) 3)) ∧
  (∀ (d : Dev) (die link : Nat), d.hasLink (die, link) = true → d.Takes (.weldLinkRetrain die link) (d.linkLost (die, link) 1))

/-- Key rolls (R320 to R322), and the frames that only keep a link alive (R308, R309, R311, R314). -/
def Obligations.WeldKeysRun : Prop :=
  (∀ (d : Dev) (h : Head) (rollId switchSeq : Nat) (x : Dev),
    d.takeFrame h 0x0A (d.framesOf (.keyRoll false 0 0)) true true true = (x, true) → x.quenching = false → x.side = 1 →
    x.linkState (h.die, h.link) ≠ 1 → d.Takes (.keyRollOffer h rollId switchSeq true false) (x.failRoll (h.die, h.link) 2)) ∧
  (∀ (d : Dev) (h : Head) (rollId switchSeq sw : Nat) (x y : Dev),
    d.takeFrame h 0x0A (d.framesOf (.keyRoll false 0 0)) true true true = (x, true) → x.quenching = false → x.side = 1 →
    sw = ((x.link (h.die, h.link)).txSeq + 4 + x.freeVal % 2 ^ 30) % 2 ^ 32 → y = x.tick.modLink (h.die, h.link) (fun k => { k with roll := none }) →
    y.canSend (h.die, h.link) (.keyRoll true rollId sw) = true →
    d.Takes (.keyRollOffer h rollId switchSeq true true)
      ((y.sendMsg (h.die, h.link) none (.keyRoll true rollId sw)).keyInPlace (h.die, h.link) rollId sw switchSeq)) ∧
  (∀ (d : Dev) (h : Head) (switchSeq : Nat) (x : Dev) (r : Roll),
    d.takeFrame h 0x0A (d.framesOf (.keyRoll true 0 0)) true true true = (x, true) → (x.link (h.die, h.link)).roll = some r →
    d.Takes (.keyRollAnswer h r.id switchSeq true true) (x.keyInPlace (h.die, h.link) r.id r.switchSeq switchSeq)) ∧
  (∀ (d : Dev) (die link : Nat) (r : Roll), (d.link (die, link)).roll = some r →
    d.Takes (.keyRollAnswerTimeout die link) ((d.until (r.start + 10000000)).failRoll (die, link) 0)) ∧
  (∀ (d : Dev) (die link : Nat), d.linkState (die, link) = 2 → d.quenching = false → 2 ^ 47 ≤ d.f WELD_TX_COUNTER.COUNT die link →
    d.Takes (.keyRollCounter die link) (d.startRoll (die, link))) ∧
  (∀ (d : Dev) (die link t : Nat), (d.link (die, link)).rollFailedAt = some t → d.quenching = false →
    d.Takes (.keyRollRetry die link) ((d.until (t + 1000000000)).startRoll (die, link))) ∧
  (∀ (d : Dev) (die link : Nat), d.linkState (die, link) = 2 ∨ d.linkState (die, link) = 3 → d.quenching = false →
    d.Takes (.weldKeyRollNow die link) (d.startRoll (die, link))) ∧
  (∀ (d : Dev) (die link ack : Nat), d.linkState (die, link) = 2 ∨ d.linkState (die, link) = 3 →
    d.Takes (.weldNak die link ack) ((d.takeAck (die, link) ack).resend (die, link))) ∧
  (∀ (d : Dev) (h : Head) (heat links pair n : Nat) (x : Dev), d.extend heat = some n → d.takeFrame h 0x01 1 false true true = (x, true) →
    d.Takes (.heartbeat h heat links pair false) (x.setF WELD_TWIN_HEAT.HEAT (Nat.max n (x.f WELD_TWIN_HEAT.HEAT)))) ∧
  (∀ (d : Dev) (die link : Nat), d.linkState (die, link) = 2 →
    d.Takes (.heartbeatSend die link) ((d.until ((d.link (die, link)).lastTx + 20000)).sendHeartbeat (die, link))) ∧
  (∀ (d : Dev) (die link : Nat), d.linkState (die, link) = 2 ∨ d.linkState (die, link) = 3 →
    d.Takes (.ackHeartbeat die link) (d.sendHeartbeat (die, link)))

/-- The pair's messages: join, mirrored writes and their acknowledgements, and heats (R316, R321, R325, R326, R329). -/
def Obligations.WeldMirrorsRun : Prop :=
  (∀ (d : Dev) (h : Head) (heat length side regions : Nat) (roles : List JoinRole) (x : Dev),
    d.takeFrame h 0x0B (d.framesOf (.join 0 0 0 0 0 [])) false (decide (d.pair = 0) && decide (d.linkState (h.die, h.link) = 2)) true = (x, true) →
    d.Takes (.join h heat length side regions false roles) (x.refuseLink (h.die, h.link) 4)) ∧
  (∀ (d : Dev) (h : Head) (heat side : Nat) (x y : Dev),
    d.takeFrame h 0x0B (d.framesOf (.join 0 0 0 0 0 [])) false (decide (d.pair = 0) && decide (d.linkState (h.die, h.link) = 2)) true = (x, true) →
    x.quenching = false → y = ((x.setF WELD_PAIR_STATUS.STATE 1).setB WELD_PAIR_STATUS.JOINED true).showTwinHeat heat →
    ∃ z : Dev, z = (y.setWeld fun w => { w with
      bindLinks := y.usable, notice := none, lossAt := none, joinSent := false, toClose := [], closed := [] }) ∧
    d.Takes (.join h heat (x.f HEAT_CTRL.LENGTH_US) side x.regionCfgs.length true [])
      ((z.setHeat fun s => { s with joinHeat := some (Nat.max z.openHeat heat + 1) }).raiseR .WELD_PAIR_UP
        [p4 (z.setHeat fun s => { s with joinHeat := some (Nat.max z.openHeat heat + 1) }).usable.length, p8 heat])) ∧
  (∀ (d : Dev) (h : Head) (heat firstId n : Nat) (e : MirrorEntry) (x : Dev), h.breach = none → e.sector < 64 → d.extend heat = some n →
    d.takeFrame h 0x02 1 false (d.mirrorAllowed (h.die, h.link)) true = (x, true) → (x.showTwinHeat n).fence = false →
    (x.showTwinHeat n).windowEnded = false →
    ∃ y : Dev, y = (x.showTwinHeat n).countAccepted h.die (24 + h.link) 1 ∧
    d.Takes (.mirrorWrite h heat firstId [e])
      ((y.forEach [(0, e)] fun d e => d.arriveEntry h n ((firstId + e.1) % 2 ^ 32) e.2).noteFrame h [y.cru.nextRid] false)) ∧
  (∀ (d : Dev) (die : Nat),
    d.Takes (.weldTxRoom die)
      ((d.pump die).retryAll fun r => decide (r.wait = .txRoom ∧ ((d.pump die).place r.slab).die = die) && !(d.pump die).txFull r.slab)) ∧
  (∀ (d : Dev) (h : Head) (runs : List AckRun) (x : Dev),
    d.takeFrame h 0x03 1 false (decide (d.pair = 1) || d.quenching || d.weld.notice.isSome) true = (x, true) →
    d.Takes (.mirrorAck h runs) (x.forEach runs fun d a => d.ackRun h a)) ∧
  (∀ (d : Dev) (die : Nat) (l : Nat × Nat) (x : Dev), (tgetD d.weld.acks die []).isEmpty = false → d.usable.isEmpty = false → d.version1 = false →
    x = d.setWeld (fun w => { w with acks := tset w.acks die ((tgetD d.weld.acks die []).drop 27) }) →
    x.usable.find? (fun l => decide (l.1 = die)) = some l →
    d.Takes (.mirrorAckBatchTimer die) (x.queueOn l none (.mirrorAck ((tgetD d.weld.acks die []).take 27)))) ∧
  (∀ (d : Dev) (h : Head) (heat linkMask n : Nat) (x : Dev), d.extend heat = some n → d.takeFrame h 0x04 1 false d.upNow true = (x, true) →
    tget (x.showTwinHeat n).weld.closes n = none →
    ∃ y : Dev, y = (x.showTwinHeat n).setWeld (fun w => { w with closes := tset w.closes n (linkMask, [linkBit (h.die, h.link)]) }) ∧
    d.Takes (.heatClose h heat linkMask) ((y.forEach y.diesUp fun d die => d.sealEntry die n true).ackHeats)) ∧
  (∀ (d : Dev) (h : Head) (heat mask n : Nat) (x : Dev), d.extend heat = some n → d.takeFrame h 0x05 1 false d.upNow true = (x, true) →
    ∃ y : Dev, y = x.setWeld (fun w => { w with
      ackGot := (bitsOf 16 mask).foldl (fun t k => tset t k (Nat.max n (tgetD t k 0))) w.ackGot,
      closed := w.closed.filter fun z => decide (z ≠ n) }) ∧
    d.Takes (.heatAck h heat mask) (y.setF WELD_ACKED_HEAT.HEAT (Nat.max n (y.f WELD_ACKED_HEAT.HEAT))))

/-- QUENCH_NOTICE, the drain window and the reclaim messages (R296, R317, R333). -/
def Obligations.WeldNoticesRun : Prop :=
  (∀ (d : Dev) (h : Head) (heat cause generation n : Nat) (x y : Dev), d.extend heat = some n → d.takeFrame h 0x06 1 false true true = (x, true) →
    x.weld.notice = none → y = x.raiseR .WELD_QUENCH_NOTICE_RX [p1 0, p8 n, p4 generation, p1 0] → y.pair = 0 →
    d.Takes (.quenchNoticeNotice h heat cause generation) (y.setWeld fun w => { w with notice := some ⟨y.now, y.usable, [], true, false⟩ })) ∧
  (∀ (d : Dev) (h : Head) (heat cause generation n : Nat) (x : Dev) (w : Notice), d.extend heat = some n →
    d.takeFrame h 0x06 1 false d.weld.notice.isSome true = (x, true) → x.weld.notice = some w → w.drained.isEmpty = false →
    w.drained.contains (h.die, h.link) = true → d.Takes (.quenchNoticeDrained h heat cause generation)
      (if w.waiting.all fun y => w.drained.contains y then (x.setWeld fun y => { y with notice := some w }).endWindow
       else x.setWeld fun y => { y with notice := some w })) ∧
  (∀ (d : Dev) (h : Head) (heat flags cause generation n : Nat) (x : Dev) (w : Notice), d.extend heat = some n →
    d.takeFrame h 0x06 1 false d.weld.notice.isSome true = (x, true) → x.weld.notice = some w → w.final = false →
    d.Takes (.quenchNoticeFinal h heat flags cause generation)
      ((x.setWeld fun y => { y with notice := some { w with final := true } }).raiseR .WELD_QUENCH_NOTICE_RX
        [p1 2, p8 n, p4 generation, p1 flags])) ∧
  (∀ (d : Dev) (w : Notice), d.weld.notice = some w → w.ended = false →
    d.Takes .drainWindowEnd (d.until (w.start + 100000)).endWindow) ∧
  (∀ (d : Dev) (h : Head) (region : Nat) (x : Dev), d.takeFrame h 0x07 1 false d.upNow true = (x, true) → x.quenching = false →
    (x.region region).role = .owner → x.resyncKind region = 0 →
    d.Takes (.roleClaimClaim h region (x.region region).record.epoch) (x.setRegion region { x.region region with handingOver := true })) ∧
  (∀ (d : Dev) (h : Head) (region epoch : Nat) (x : Dev), d.takeFrame h 0x07 1 false d.upNow true = (x, true) → x.quenching = false →
    (x.region region).role ≠ .owner →
    d.Takes (.roleClaimClaim h region epoch) (x.sendGeneral (.roleClaim 2 region (x.region region).record.epoch 0))) ∧
  (∀ (d : Dev) (h : Head) (region epoch heat n : Nat) (x : Dev), d.extend heat = some n →
    d.takeFrame h 0x07 1 false d.upNow true = (x, true) → x.quenching = false → (x.region region).claimed = true →
    d.Takes (.roleClaimHandover h region epoch heat)
      ((x.setRegion region { x.region region with handover := some n, claimed := false }).claimDone region)) ∧
  (∀ (d : Dev) (h : Head) (region epoch : Nat) (x : Dev), d.takeFrame h 0x07 1 false d.upNow true = (x, true) →
    d.Takes (.roleClaimRefuse h region epoch) (x.setRegion region { x.region region with claimed := false }))

/-- The resync and the fetch over the Weld (R294, R318, R319, R331). -/
def Obligations.WeldFetchesRun : Prop :=
  (∀ (d : Dev) (h : Head) (region : Nat) (incremental : Bool) (slabs : List Nat) (x : Dev),
    d.takeFrame h 0x08 (d.framesOf (.rejoinReq region 0 slabs true)) false d.upNow true = (x, true) → x.quenching = false →
    x.mirror region ≠ 0 → x.resyncKind region = 0 → (x.region region).role = .solo →
    d.Takes (.rejoinReq h region incremental slabs) (x.startResync region incremental slabs)) ∧
  (∀ (d : Dev) (h : Head) (slab : Nat) (mask : Mask) (heat region : Nat) (lines : List Line) (n : Nat) (x : Dev), d.extend heat = some n →
    d.takeFrame h 0x09 (d.framesOf (.resyncData slab 1 0 0 region [])) false d.upNow true = (x, true) → x.fence = true →
    d.Takes (.resyncData h slab 1 mask heat region lines) (x.noteFrame h [] true)) ∧
  (∀ (d : Dev) (h : Head) (slab : Nat) (mask : Mask) (heat region : Nat) (lines : List Line) (n : Nat) (x y z : Dev) (r : Req),
    d.extend heat = some n →
    d.takeFrame h 0x09 (d.framesOf (.resyncData slab 1 0 0 region [])) false d.upNow true = (x, true) → x.fence = false →
    y = x.countAccepted h.die (24 + h.link) 1 → z = y.arrive (.weld h.die h.link) (.resync 1 mask lines) slab 0 0 0 0 n →
    z.req y.cru.nextRid = some r →
    d.Takes (.resyncData h slab 1 mask heat region lines) ((z.admitOne r .hit false).noteFrame h [y.cru.nextRid] false)) ∧
  (∀ (d : Dev) (h : Head) (slab region : Nat) (x : Dev), d.takeFrame h 0x0C 1 false (d.upNow && !d.version1) true = (x, true) →
    x.quenching = false → d.Takes (.fetch h slab region) (x.answerFetch slab region)) ∧
  (∀ (d : Dev) (h : Head) (slab : Nat) (mask : Mask) (heat region : Nat) (lines : List Line) (n : Nat) (x : Dev), d.extend heat = some n →
    d.takeFrame h 0x09 (d.framesOf (.resyncData slab 2 0 0 region ((List.range 64).map fun i => (i, 0)))) false d.upNow true = (x, true) →
    x.fence = false → tget x.weld.fetches slab = some true → (x.endFetch slab).rht.judge.contains slab = false →
    d.Takes (.fetchData h slab mask heat region lines) ((x.endFetch slab).fetchLands slab lines)) ∧
  (∀ (d : Dev) (h : Head) (slab region : Nat) (x : Dev), d.takeFrame h 0x09 1 false d.upNow true = (x, true) → x.fence = false →
    tget x.weld.fetches slab = some true → d.Takes (.fetchMiss h slab region) (x.failFetch slab 0)) ∧
  (∀ (d : Dev) (slab : Nat), tget d.weld.fetches slab = some true →
    d.Takes (.fetchTimeout slab) (d.failFetch slab (if d.version1 then 2 else 1)))

/-- The role commands (R288, R289, R292, R295, R296, R332, R333). -/
def Obligations.RolesRun : Prop :=
  (∀ (d : Dev) (region : Nat) (r : RoleRec), d.mirror region ≠ 0 → (d.region region).role = .fenced → d.usable = [] → d.quenching = false →
    r = { (d.region region).record with solo := true, owner := d.side, epoch := (d.region region).record.epoch + 1, splitHeat := d.openHeat, ackedHeat := if (d.region region).record.solo then (d.region region).record.ackedHeat else 0 } →
    d.Takes (.forceSolo region) (d.setRht fun x => { x with
      pends := (x.pends.filter fun p => decide (p.region ≠ region)) ++ [⟨region, r, .solo, .forced, false⟩] })) ∧
  (∀ (d : Dev) (region : Nat), d.mirror region ≠ 0 → (d.region region).role = .fenced → (d.region region).twinSolo = true → d.pair = 1 →
    d.quenching = false → d.Takes (.yield region) (d.beginRejoin region false 0)) ∧
  (∀ (d : Dev) (region : Nat) (c : RegionCfg), d.mirror region ≠ 0 → (d.region region).role = .shadow → d.regionCfgs[region]? = some c →
    c.ownerSide = d.side → d.pair = 1 → d.quenching = false → (d.region region).claimed = false →
    d.Takes (.reclaim region) ((d.setRegion region { d.region region with claimed := true }).sendGeneral
      (.roleClaim 0 region (d.region region).record.epoch 0))) ∧
  (∀ (d : Dev) (region : Nat), d.backHeld region = true → d.Takes (.confirmSole region)
    (((d.setB RHT_REGION_STATUS.BACKING_HELD false 0 region).raiseB .RHT_BACKING_HELD [p1 region, p1 1, p1 0]).releaseBacking region)) ∧
  (∀ (d : Dev) (region : Nat) (p : RolePend) (x : Dev), d.rht.pends.find? (fun p => decide (p.region = region) && !p.done) = some p →
    d.quenching = false → p.cause = .forced →
    x = ((d.setRht fun x => { x with pends := x.pends.filter fun q => decide (q ≠ p) }).storeRole p.region p.record).putRecord p.region p.record →
    d.Takes (.roleRecordDone region 0) ((x.enterSolo p.region false).raiseB .RHT_FORCED_SOLO [p1 p.region, p4 p.record.epoch])) ∧
  (∀ (d : Dev) (region status : Nat) (p : RolePend), d.rht.pends.find? (fun p => decide (p.region = region) && !p.done) = some p →
    d.quenching = false → status ≠ 0 → p.cause = .loss →
    d.Takes (.roleRecordDone region status)
      (((d.setRht fun x => { x with pends := x.pends.filter fun q => decide (q ≠ p) }).setRole p.region .fenced).raiseB .RHT_ROLE_RECORD_FAIL
        [p1 p.region, p1 status])) ∧
  (∀ (d : Dev) (region : Nat), d.resyncDone region = true → (d.rht.pends.any fun p => decide (p.region = region)) = false →
    (d.region region).role = .rejoining →
    d.Takes (.resyncComplete region)
      (d.addPend region (d.pairedRecord region (1 - d.side) (d.region region).record.epoch) .shadow .resync)) ∧
  (∀ (d : Dev) (t : Nat) (notice : Bool) (p : RolePend) (x y : Dev), d.weld.lossAt = some (t, notice) → d.pair = 0 → d.quenching = false →
    (d.rht.pends.filter fun p => decide (p.cause = .loss)) = [p] → p.done = true →
    x = (d.setRht fun x => { x with pends := x.pends.filter fun p => decide (p.cause ≠ .loss) }) →
    y = (x.enterSolo p.region (!notice && decide ((x.region p.region).role = .shadow))).setWeld (fun w => { w with lossAt := none }) →
    d.Takes .promotion ((y.setF WELD_PROMOTE_US.US ((d.now - t) / 1000)).raiseR .WELD_PROMOTED [p4 1, p4 ((d.now - t) / 1000)]))

/-- Heats: boundaries, their synchronization and the reservation (R172, R177 to R182). -/
def Obligations.HeatBoundariesRun : Prop :=
  (∀ (d : Dev) (x : Dev), d.heat.opened = true → d.fb HEAT_STATUS.LOCKED = false → d.quenching = false →
    x = (d.until d.heat.tExp).setHeat (fun h => { h with edgeSeen := false }) →
    (x.diesUp.any fun die => decide (1024 ≤ (x.dirOf die).length)) = false → x.nextHeat = x.openHeat + 1 →
    x.openHeat + 1 < x.f HEAT_RESERVATION.R →
    d.Takes .heatBoundary (x.openHeatAt (x.openHeat + 1))) ∧
  (∀ (d : Dev) (r : Nat), d.heat.opened = true → d.fb HEAT_STATUS.LOCKED = true → d.quenching = false → d.heat.deferred = none →
    (d.diesUp.any fun die => decide (1024 ≤ (d.dirOf die).length)) = false → d.nextHeat = d.openHeat + 1 → r = d.f HEAT_RESERVATION.R →
    r ≤ d.openHeat + 1 →
    d.Takes .heatCtrlCloseNow ((((d.setHeat fun x => { x with reserve := some (r + 2 ^ 24) }).setHeat fun x => { x with
      deferred := some (d.openHeat + 1) }).setB HEAT_STATUS.CLOSE_DEFERRED true).raiseR .HEAT_CLOSE_DEFERRED [p8 (d.openHeat + 1), p1 0])) ∧
  (∀ (d : Dev) (after : Nat), d.fb HEAT_CTRL.SYNC_EN = false →
    d.Takes (.heatSyncInEdge after) ((d.until (d.now + after)).incF HEAT_SYNC_IGNORED.COUNT)) ∧
  (∀ (d : Dev) (after : Nat) (x : Dev), x = d.until (d.now + after) → d.fb HEAT_CTRL.SYNC_EN = true → d.fb HEAT_STATUS.LOCKED = true →
    x.heat.tExp ≤ x.now + x.heatNs / 4 → x.now ≤ x.heat.tExp + x.heatNs / 4 →
    d.Takes (.heatSyncInEdge after) (x.setHeat fun h => { h with edgeSeen := true, missedRow := 0 }).boundary) ∧
  (∀ (d : Dev) (after : Nat) (x : Dev), x = d.until (d.now + after) → d.fb HEAT_CTRL.SYNC_EN = true → d.fb HEAT_STATUS.LOCKED = true →
    x.heat.tExp + x.heatNs / 4 < x.now →
    d.Takes (.heatSyncInEdge after)
      ((x.tick.incF HEAT_SYNC_IGNORED.COUNT).raiseR .HEAT_SYNC_EDGE_IGNORED [p8 x.openHeat, p4 (x.now - x.heat.tExp)])) ∧
  (∀ (d : Dev) (x : Dev), d.fb HEAT_STATUS.LOCKED = true → d.heat.missedRow < 7 →
    x = ((d.until (d.heat.tExp + d.heatNs / 4)).incF HEAT_SYNC_MISSED.COUNT).setHeat (fun h => { h with
      edgeSeen := false, missedRow := h.missedRow + 1 }) →
    d.Takes .heatSyncMiss x.boundary) ∧
  (∀ (d : Dev) (lengthUs : Nat) (syncOut : Bool), lengthUs ≠ d.f HEAT_CTRL.LENGTH_US → 50 ≤ lengthUs → lengthUs ≤ 1000000 → d.mirrored = [] →
    d.Takes (.heatCtrlWrite lengthUs true syncOut) (((((d.setF HEAT_CTRL.LENGTH_US lengthUs).raiseR .HEAT_LENGTH_CHANGED
      [p4 (d.f HEAT_CTRL.LENGTH_US), p4 lengthUs, p4 1])).setB HEAT_CTRL.SYNC_EN true).setB HEAT_CTRL.SYNC_OUT_EN syncOut)) ∧
  (∀ (d : Dev) (lengthUs : Nat) (syncOut : Bool), lengthUs ≠ d.f HEAT_CTRL.LENGTH_US → lengthUs < 50 ∨ 1000000 < lengthUs ∨ d.mirrored ≠ [] →
    d.Takes (.heatCtrlWrite lengthUs false syncOut)
      ((((d.setB HEAT_STATUS.CTRL_REFUSED true).setB HEAT_CTRL.SYNC_EN false).setB HEAT_CTRL.SYNC_OUT_EN syncOut).setB HEAT_STATUS.LOCKED false)) ∧
  (∀ (d : Dev) (r : Nat), d.heat.reserve = some r → d.aonLow = false →
    d.Takes (.heatReservationDone true 0) ((d.programReservation r).setHeat fun x => { x with reserve := none }).retryBoundary) ∧
  (∀ (d : Dev) (r status : Nat), d.heat.reserve = some r →
    d.Takes (.heatReservationDone false status) (d.raiseR .HEAT_RESERVATION_FAIL [p8 r, p1 status]))

/-- The dirty journal (R189 to R193, R197). -/
def Obligations.JournalRuns : Prop :=
  (∀ (d : Dev) (die heat : Nat) (receive : Bool),
    d.Takes (.journalPageWrite die heat receive)
      (((d.setDir die ((d.dirOf die).map fun e => if e.heat = heat ∧ e.receive = receive then
        { e with written := e.written ++ e.buffered, buffered := [] } else e)).retainCheck die).panicCheck die)) ∧
  (∀ (d : Dev) (die heat : Nat) (x : Dev), x = d.setDir die ((d.dirOf die).map fun e => if e.heat = heat ∧ e.receive = false then
      (if e.state = .closing ∧ e.buffered = [] then { e with state := .isSealed } else e) else e) →
    d.Takes (.heatSeal die heat false) x.closeHeats) ∧
  (∀ (d : Dev) (die heat : Nat), d.Takes (.heatSeal die heat true) (d.sealEntry die heat true).ackHeats) ∧
  (∀ (d : Dev) (die : Nat) (e : Entry), d.inService die = true → d.compacts die = true → d.quenching = false →
    d.compactEntry die = some e → e.written = [] →
    d.Takes (.compactRecord die false)
      ((d.setDir die ((d.dirOf die).filter fun x => decide (x.heat ≠ e.heat ∨ x.receive ≠ e.receive))).retryBoundary.panicCheck die)) ∧
  (∀ (d : Dev) (die : Nat) (e : Entry) (r s : JRec) (rs : List JRec), d.inService die = true → d.compacts die = true → d.quenching = false →
    d.compactEntry die = some e → e.written = r :: s :: rs → d.lockBusy r.slab = false →
    d.Takes (.compactRecord die false) (((d.carryOrDrop die e r).modEntry die e.heat e.receive fun x => { x with
      state := .compacting, written := s :: rs }).panicCheck die)) ∧
  (∀ (d : Dev) (die : Nat) (e : Entry) (x : Dev), d.inService die = true → d.compacts die = true → d.quenching = false →
    d.compactEntry die = some e →
    x = (d.modEntry die e.heat e.receive fun x => { x with written := x.written.drop 504 }).setB HEAT_JRNL_STATUS.TAG_WALK true die →
    d.Takes (.compactRecord die true)
      ((x.tick.raise .JRNL_PAGE_LOST die [p4 x.freeVal, p8 e.heat, p4 (Nat.min 504 e.written.length)]).panicCheck die)) ∧
  (∀ (d : Dev) (x : Dev), x = d.retryAll (fun r => decide (r.wait = .journal) && !d.atReserve (d.place r.slab).die) →
    d.Takes .journalStallRelease (if x.cru.reqs.any fun r => decide (r.wait = .journal) then x else x.setB HEAT_STATUS.JOURNAL_STALL false)) ∧
  (∀ (d : Dev) (die : Nat), d.fb HEAT_JRNL_STATUS.TAG_WALK die = true →
    d.Takes (.tagWalkDone die)
      ((d.forEach (d.validTags.filter fun e => decide (e.1.set.die = die) && (decide (e.2.mask ≠ 0) || d.retains e.2.slab)) fun d e =>
        (d.append die e.2.slab 3 d.openHeat false).modTag e.2.slab fun t => { t with heat := d.openHeat % 256 }).setB
          HEAT_JRNL_STATUS.TAG_WALK false die))

/-- The ceiling and the dry quench (R201, R210, R212, R215 to R221, R537). -/
def Obligations.CeilingRuns : Prop :=
  (∀ (d : Dev) (cause : Nat), d.quenching = false → d.swg.loaded = true → d.Takes (.ceilingCompute cause) (d.compute cause)) ∧
  (∀ (d : Dev), d.Takes .receiveHoldRelease
    (d.retryAll fun r => decide (r.wait = .ceiling) && decide (d.ceilState ≠ 2) && !d.shareFull (d.place r.slab).die)) ∧
  (∀ (d : Dev) (t : Nat) (x : Dev), d.ceil.nextAuto = some t → x = d.until t → x.dryDue = true →
    x.dryRefusal (Nat.min (x.f CEIL_DRY_CTRL.AUTO_MIB) x.scratchMib) = none →
    d.Takes .dryQuenchAutoStart (x.dryStart (Nat.min (x.f CEIL_DRY_CTRL.AUTO_MIB) x.scratchMib) true true)) ∧
  (∀ (d : Dev) (t : Nat) (st : Status) (x : Dev), d.ceil.nextAuto = some t → x = d.until t → x.dryDue = true →
    x.dryRefusal (Nat.min (x.f CEIL_DRY_CTRL.AUTO_MIB) x.scratchMib) = some st →
    d.Takes .dryQuenchAutoStart ((x.setCeil fun c => { c with nextAuto := some (x.now + 3600000000000) }).raiseB .DRY_DEFERRED [p1 st.code])) ∧
  (∀ (d : Dev) (r : DryRun), d.ceil.dry = some r → r.openedAt = none → d.fb SEC_DRBG_STATUS.HEALTHY = true →
    ∃ x y : Dev, x = (d.drawInto 6 1).forEach ((d.drawInto 6 1).scratchQuads.take
        ((r.sampleMib * 2 ^ 20 + (d.drawInto 6 1).quadBytes - 1) / (d.drawInto 6 1).quadBytes)) (fun d k =>
          (d.dropUnits fun j => decide (j = k)).setQuad k { d.quad k with state := .scratch false, pe := (d.quad k).pe + 1, ptr := d.qcfg.pages }) ∧
      y = (x.setCeil fun c => { c with dry := some { r with openedAt := some x.now } }).showStrs ∧
      d.Takes .dryQuenchWindowOpen (y.setCeil fun c => { c with dry := y.ceil.dry.map fun z => { z with changed := false } })) ∧
  (∀ (d : Dev) (r : DryRun), d.ceil.dry = some r → r.openedAt = none → d.fb SEC_DRBG_STATUS.HEALTHY = false →
    d.Takes .dryQuenchWindowOpen (d.tick.rejectDry d.freeVal d.freeVal d.freeVal)) ∧
  (∀ (d : Dev) (r : DryRun) (t ms e mb : Nat) (x : Dev), d.ceil.dry = some r → r.openedAt = some t → ms < 200 →
    e = r.energy.toNat * 1000 / (r.sampleMib * 2 ^ 20) → mb = r.sampleMib * 2 ^ 20 * 1000 / ms / 1000000 →
    x = (((d.until (t + 1000000 * ms)).setF CEIL_DRY_E_MEAS.PJ (saturate 32 e)).setF CEIL_DRY_R_MEAS.MBPS (saturate 32 mb)) →
    d.Takes (.dryQuenchWindowClose ms) (x.rejectDry 0 e mb)) ∧
  (∀ (d : Dev) (r : DryRun) (t ms e mb : Nat) (x y z : Dev), d.ceil.dry = some r → r.openedAt = some t → 200 ≤ ms →
    e = r.energy.toNat * 1000 / (r.sampleMib * 2 ^ 20) → mb = r.sampleMib * 2 ^ 20 * 1000 / ms / 1000000 →
    x = (((d.until (t + 1000000 * ms)).setF CEIL_DRY_E_MEAS.PJ (saturate 32 e)).setF CEIL_DRY_R_MEAS.MBPS (saturate 32 mb)) →
    x.swg.cfg.energy.eByteDefault ≤ 2 * e → r.sampleMib * 2 ^ 20 * 1000 / ms ≤ x.rNom → r.changed = false → r.auto = true →
    y = (x.raiseB .DRY_DONE [p4 e, p4 mb, p4 ms, p1 1]).dryLeave .success .ok →
    z = (y.setCeil fun c => { c with applied := some (e, mb, y.lifeS), nextAuto := none }).dryRecord e mb →
    d.Takes (.dryQuenchWindowClose ms) ((z.setB CEIL_STATUS.DRY_STALE false).setB CEIL_STATUS.DEFAULTS false)) ∧
  (∀ (d : Dev) (a : Nat × Nat × Nat) (x : Dev), d.ceil.applied = some a → d.fb CEIL_STATUS.DRY_STALE = false →
    x = d.untilLife (a.2.2 + 2 * d.swg.cfg.energy.dryPeriod) →
    d.Takes .dryStale ((x.setB CEIL_STATUS.DRY_STALE true).raiseB .DRY_STALE [p4 (x.lifeS - a.2.2)]))

/-- The backing drives' links, attach and namespaces (R342 to R346, R357, R360, R362). -/
def Obligations.BackingAttachRuns : Prop :=
  (∀ (d : Dev) (die port width rate : Nat) (x y : Dev), d.hasRoot (die, port) = true → d.inService die = true → d.quenching = false →
    d.fb BACK_PORT_STATUS.LINK_UP die port = false →
    x = ((d.setB BACK_PORT_STATUS.LINK_UP true die port).setF BACK_PORT_STATUS.WIDTH width die port).setF BACK_PORT_STATUS.RATE rate die port →
    y = x.setBack (fun b => { b with downAt := tdel b.downAt (die, port) }) → y.fb BACK_CTRL.AUTO_ATTACH = false → y.back.attach = [] →
    d.Takes (.nvmeLinkUp die port width rate) (y.beginStep (die, port) 2)) ∧
  (∀ (d : Dev) (die port : Nat) (x : Dev), d.fb BACK_PORT_STATUS.LINK_UP die port = true →
    x = ((d.setB BACK_PORT_STATUS.LINK_UP false die port).setF BACK_PORT_STATUS.WIDTH 0 die port).setF BACK_PORT_STATUS.RATE 0 die port →
    d.Takes (.nvmeLinkDown die port) (x.setBack fun b => { b with downAt := tset b.downAt (die, port) x.now })) ∧
  (∀ (d : Dev) (die port t : Nat) (x : Dev), tget d.back.downAt (die, port) = some t →
    x = (d.until (t + 1000000000)).setBack (fun b => { b with downAt := tdel b.downAt (die, port) }) →
    d.Takes (.nvmeLinkDownTimeout die port)
      (((x.setB BACK_PORT_STATUS.CTRL_READY false die port).refuseAll (die, port) 13 1).ctrlFail (die, port) 13)) ∧
  (∀ (d : Dev) (die port : Nat), d.hasRoot (die, port) = true →
    d.Takes (.nvmeControllerFatal die port) (d.forEach (d.nsOn (die, port)) fun d n => d.nsFail n 14)) ∧
  (∀ (d : Dev) (die port : Nat) (ready cssOk pageOk : Bool) (a : Attach), tget d.back.attach (die, port) = some a → a.step = 2 →
    d.Takes (.nvmeControllerReady die port ready cssOk pageOk)
      (if cssOk = false then d.refuseAll (die, port) 2 2 else if pageOk = false then d.refuseAll (die, port) 3 2
       else if ready = false then d.refuseAll (die, port) 1 2 else d.beginStep (die, port) 3)) ∧
  (∀ (d : Dev) (die port : Nat) (a : Attach), tget d.back.attach (die, port) = some a → a.step = 1 →
    d.Takes (.nvmeAttachLinkTimeout die port) (d.refuseAll (die, port) 13 1)) ∧
  (∀ (d : Dev) (die port ns sq cq : Nat) (a : Attach), tget d.back.attach (die, port) = some a → a.step = 6 →
    d.Takes (.nvmeAdminComplete die port ns (.queues sq cq)) (if Nat.min 64 (Nat.min sq cq) < 4 then d.refuseAll (die, port) 4 6
      else (d.setAttach (die, port) { a with granted := Nat.min 64 (Nat.min sq cq) }).beginStep (die, port) 7)) ∧
  (∀ (d : Dev) (ns : Nat) (x : Dev), ns < d.swg.cfg.backing.nss.length → (d.ns ns).state = .absent → d.quenching = false →
    x = d.setNs ns { d.ns ns with state := .attaching } → x.fb BACK_PORT_STATUS.LINK_UP (d.nsPort ns).1 (d.nsPort ns).2 = false →
    d.Takes (.nsAttach ns) (x.setAttach (d.nsPort ns) ⟨1, [], false, 0⟩)) ∧
  (∀ (d : Dev) (ns : Nat), (d.ns ns).state = .blank → d.quenching = false → d.Takes (.nsAdopt ns) ((d.writeLabel ns 1 0).nsOnline ns)) ∧
  (∀ (d : Dev) (ns : Nat), (d.ns ns).state = .online →
    d.Takes (.nsDetach ns) (d.setNs ns { d.ns ns with state := .detaching, detached := 0 })) ∧
  (∀ (d : Dev) (ns : Nat) (x y : Dev), (d.ns ns).state = .detaching → d.cru.tags = [] → d.cru.staging = [] → d.commandSlabs ns = [] →
    x = d.setNs ns { d.ns ns with state := .absent, tried := true } → y = x.raiseN .BACK_NS_DETACHED ns [p4 ns, p4 (x.ns ns).detached] →
    (y.nsIn (d.nsPort ns) fun s => decide (s = .online)) = [] →
    d.Takes (.detachComplete ns) ((y.shutdownCtrl (d.nsPort ns)).dropCommands ns))

/-- The backing commands of a slab (R341, R356, R357). -/
def Obligations.BackingCommandsRun : Prop :=
  (∀ (d : Dev) (slab : Nat) (dnr : Bool) (data : List Line) (errorLog : Nat) (c : BackCmd) (x : Dev), d.outstanding slab = some c →
    x = (if c.reads then d.incF BACK_PORT_READS.COUNT (d.nsPort (d.nsOf slab)).1 (d.nsPort (d.nsOf slab)).2
      else d.incF BACK_PORT_WRITES.COUNT (d.nsPort (d.nsOf slab)).1 (d.nsPort (d.nsOf slab)).2) →
    d.Takes (.nvmeIoComplete slab 0 dnr data errorLog)
      ((x.setNs (d.nsOf slab) { x.ns (d.nsOf slab) with failsRow := 0 }).endCommand slab c true 0 data)) ∧
  (∀ (d : Dev) (slab : Nat) (dnr : Bool) (data : List Line) (errorLog : Nat) (c : BackCmd), d.outstanding slab = some c → c.reads = true →
    d.Takes (.nvmeIoComplete slab 0x281 dnr data errorLog)
      ((((d.readLogs (d.nsOf slab)).raiseN .BACK_READ_ERROR (d.nsOf slab) [p4 (d.nsOf slab), p5 slab, p8 errorLog]).endCommand slab c
        false 0x281 []).countFailed (d.nsOf slab))) ∧
  (∀ (d : Dev) (slab status : Nat) (data : List Line) (errorLog : Nat) (c : BackCmd) (x : Dev), d.outstanding slab = some c → status ≠ 0 →
    status ≠ 0x280 → status ≠ 0x281 → x = d.readLogs (d.nsOf slab) → tgetD x.back.retries slab 0 < 3 →
    d.Takes (.nvmeIoComplete slab status false data errorLog)
      (((x.setBack fun b => { b with
        retries := tset b.retries slab (tgetD x.back.retries slab 0 + 1), delayed := b.delayed ++ [slab] }).incF BACK_PORT_RETRIES.COUNT
          (d.nsPort (d.nsOf slab)).1 (d.nsPort (d.nsOf slab)).2).raiseN .BACK_CMD_RETRY (d.nsOf slab)
            [p4 (d.nsOf slab), p2 c.opcode, p2 status])) ∧
  (∀ (d : Dev) (slab : Nat), d.back.delayed.contains slab = true → d.quenching = false →
    d.Takes (.nvmeRetry slab) ((d.setBack fun b => { b with delayed := b.delayed.filter fun x => decide (x ≠ slab) }).reissue slab)) ∧
  (∀ (d : Dev) (slab sIn : Nat) (c : BackCmd) (p : Nat × Nat) (n : Nat) (x : Dev), d.outstanding slab = some c →
    n = d.nsOf slab → p = d.nsPort n →
    sIn = slab / d.swg.cfg.backing.stripe / d.swg.cfg.backing.nss.length * d.swg.cfg.backing.stripe + slab % d.swg.cfg.backing.stripe →
    x = (d.incF BACK_PORT_TIMEOUTS.COUNT p.1 p.2).raiseN .BACK_CMD_TIMEOUT n [p4 n, p2 c.opcode, p1 (sIn % d.f BACK_NS_STATUS.QUEUES 0 n)] →
    x.back.reissued.contains slab = false → x.back.resetting.contains p = false →
    d.Takes (.nvmeIoTimeout slab)
      (((x.setB BACK_PORT_STATUS.CTRL_READY false p.1 p.2).setBack fun b => { b with resetting := b.resetting ++ [p] }).emit
        (.nvmeCmd "CC.EN 0" n 0 0))) ∧
  (∀ (d : Dev) (die port : Nat) (x : Dev), d.back.resetting.contains (die, port) = true →
    x = (((d.setBack fun b => { b with resetting := b.resetting.filter fun x => decide (x ≠ (die, port)) }).incF BACK_PORT_RESETS.COUNT
      die port).raise .BACK_CTRL_RESET die [p1 port, p4 1]) →
    d.Takes (.controllerResetDone die port false) (x.ctrlFail (die, port) 14)) ∧
  (∀ (d : Dev) (die port warning used : Nat), d.hasRoot (die, port) = true → d.fb BACK_PORT_STATUS.CTRL_READY die port = true →
    d.quenching = false → d.Takes (.smartPoll die port warning used)
      ((d.emit (.nvmeCmd "Get Log Page 02h" ((d.nsOn (die, port)).headD 0) 0 0)).smartLog (die, port) warning used))

/-- The Hearth channels' requests, command slots and reads (R372 to R377, R385, R386). -/
def Obligations.ChannelRequestsRun : Prop :=
  (∀ (d : Dev) (die chan : Nat) (q : ChanReq) (r : CReq) (x : Dev), q.rank ∈ (d.chan die chan).ranks → d.chanState die chan ≠ 0 →
    r = ⟨(d.chan die chan).nextId, q.requester, q.srcDie, q.write, q.rank, q.bank % 32, q.row, q.line % 256, d.now, false, false, false, false⟩ →
    x = (d.modChan die chan fun y => { y with nextId := y.nextId + 1, lastReq := tset y.lastReq q.rank d.now }).pressure die chan q.requester
      q.pressure → x.chanState die chan ≠ 3 ∨ q.write = true →
    d.Takes (.chanRequest die chan q) ((x.modChan die chan fun y => { y with held := y.held ++ [r] }).takeHeld die chan)) ∧
  (∀ (d : Dev) (die chan : Nat) (illegal : List Nat) (pressure : Nat) (r : CReq) (byPanic : Bool) (x y : Dev), (d.chan die chan).alert = none →
    d.chanState die chan = 2 → (d.chan die chan).run = none →
    x = d.modChan die chan (fun y => { y with busWrite := d.busTurn die chan }) → x.schedule die chan illegal (d.busTurn die chan) = some (r, byPanic) →
    y = x.modChan die chan (fun y => { y with exiting := y.exiting.filter fun k => decide (k ≠ r.rank) }) →
    y.nextCmd die chan r = .column →
    d.Takes (.chanCommandIssue die chan illegal false pressure)
      (((y.column die chan r byPanic).pressure die chan r.requester pressure).retryStep die chan)) ∧
  (∀ (d : Dev) (die chan id : Nat) (beats : List Beat) (r : CReq) (x : Dev), (d.chan die chan).flying.find? (fun r => decide (r.id = id)) = some r →
    hasBad beats = true → r.reread = false →
    x = (d.modChan die chan fun x => { x with flying := x.flying.filter fun q => decide (q.id ≠ id) }).correctedBeats die chan r beats →
    d.Takes (.chanReadDecode die chan id beats)
      (x.modChan die chan fun x => { x with queue := enqueueReq x.queue { r with reread := true } })) ∧
  (∀ (d : Dev) (die chan id : Nat) (beats : List Beat) (r : CReq) (x : Dev), (d.chan die chan).flying.find? (fun r => decide (r.id = id)) = some r →
    hasBad beats = false → hasCorrected beats = false → r.reread = false → r.thaw = false →
    x = (d.modChan die chan fun x => { x with flying := x.flying.filter fun q => decide (q.id ≠ id) }).correctedBeats die chan r beats →
    d.Takes (.chanReadDecode die chan id beats) (x.emit (.chanRead die chan id false))) ∧
  (∀ (d : Dev) (die chan : Nat), d.Takes (.creditRefill die chan) (d.forEach (List.range 32) fun d r =>
    d.modChan die chan fun x => { x with credit := tset x.credit r (Nat.min (4 * (128 * (d.qos r).weight)) (tgetD x.credit r 0 +
      if d.isThrottled die chan r then 128 * (d.qos r).weight / 2 ^ d.f CHAN_RH_CTRL.THROTTLE_DIV die chan else 128 * (d.qos r).weight)) })) ∧
  (∀ (d : Dev) (die chan id : Nat) (r : CReq), (d.chan die chan).queue.find? (fun r => decide (r.id = id)) = some r → r.urgent = false →
    d.Takes (.requestUrgent die chan id) ((d.until (r.arrived + d.ageLimit die chan r.requester)).makeUrgent die chan r)) ∧
  (∀ (d : Dev) (die chan rank bank : Nat) (o : OpenRow), (d.chan die chan).openRow rank bank = some o → d.chanState die chan ≠ 3 →
    d.Takes (.rowCloseTimer die chan rank bank)
      (((d.until (o.last + 100)).issue die chan 4 rank bank 0 0 0 none).modChan die chan fun x =>
        { x with rows := x.rows.filter fun k => decide (k.rank ≠ rank ∨ k.bank ≠ bank) })) ∧
  (∀ (d : Dev) (die chan : Nat) (beats : List Beat), d.chanState die chan = 2 →
    d.Takes (.patrolScrubRead die chan beats) (d.scrubRead die chan beats)) ∧
  (∀ (d : Dev) (die chan dimm failed : Nat), d.chanState die chan = 2 ∨ d.chanState die chan = 4 →
    d.Takes (.caParityAlert die chan dimm failed) (d.caAlert die chan dimm failed)) ∧
  (∀ (d : Dev) (die chan : Nat) (a : CaAlert) (x : Dev), (d.chan die chan).alert = some a → a.low = true → a.count = 0 →
    x = d.forEach (d.chan die chan).ranks (fun d p => d.preAll die chan p) →
    d.Takes (.alertNHigh die chan) ((x.modChan die chan fun x => { x with alert := none }).retryStep die chan))

/-- Refresh, row hammer, temperature, self-refresh and the corrected-error interval of a Hearth channel (R378 to R384, R372, R393). -/
def Obligations.ChannelUpkeepRuns : Prop :=
  (∀ (d : Dev) (die chan rank : Nat) (x : Dev), rank ∈ (d.chan die chan).ranks →
    d.fb CHAN_RANK_STATUS.SELF_REFRESH die chan rank = false →
    x = d.setF CHAN_RANK_STATUS.OWED (d.f CHAN_RANK_STATUS.OWED die chan rank + 1) die chan rank → (x.chan die chan).busy rank = false →
    d.Takes (.refreshDue die chan rank) (x.issueOwed die chan rank)) ∧
  (∀ (d : Dev) (die chan rank : Nat), d.fb CHAN_REF_CTRL.MODE die chan = false →
    d.Takes (.rhWindowClear die chan rank) (d.modChan die chan fun x =>
      { x with tables := x.tables.filter (fun e => decide (e.1.1 ≠ rank)), fine := x.fine.filter fun p => decide (p ≠ rank) })) ∧
  (∀ (d : Dev) (die chan requester t : Nat), tget (d.chan die chan).throttled requester = some t →
    d.Takes (.rhCooldownEnd die chan requester)
      (((d.until t).modChan die chan fun x => { x with throttled := tdel x.throttled requester }).showThrottled die chan)) ∧
  (∀ (d : Dev) (die chan dimm sensor : Nat) (t : Int) (x : Dev),
    x = d.forEach ((d.chan die chan).ranksOf dimm) (fun e p => e.rankReading die chan p t ((d.chan die chan).tempLost.contains dimm)) →
    d.Takes (.dramTempRead die chan dimm (some t) sensor)
      ((x.modChan die chan fun x => { x with
        tempFails := tdel x.tempFails dimm,
        tempLost := if t ≤ 80 then x.tempLost.filter (fun k => decide (k ≠ dimm)) else x.tempLost }).showRefresh die chan)) ∧
  (∀ (d : Dev) (die chan dimm sensor : Nat), tgetD (d.chan die chan).tempFails dimm 0 ≠ 2 →
    d.Takes (.dramTempRead die chan dimm none sensor) (d.modChan die chan fun x =>
      { x with tempFails := tset x.tempFails dimm (tgetD (d.chan die chan).tempFails dimm 0 + 1) })) ∧
  (∀ (d : Dev) (die chan rank : Nat), rank ∈ (d.chan die chan).ranks → (d.chan die chan).busy rank = false →
    d.fb CHAN_RANK_STATUS.SELF_REFRESH die chan rank = false → d.chanState die chan = 2 → (d.chan die chan).run = none →
    (d.chan die chan).flying.any (fun r => decide (r.rank = rank)) = false →
    d.Takes (.selfRefreshIdle die chan rank)
      ((d.until (tgetD (d.chan die chan).lastReq rank 0 + d.swg.cfg.qos.srIdle)).selfRefresh die chan rank)) ∧
  (∀ (d : Dev) (die chan : Nat), d.Takes (.ceRateInterval die chan) (d.forEach (d.chan die chan).ranks fun d p =>
    (if d.f CHAN_CE_LIMIT.BEATS die chan ≤ d.f CHAN_RANK_CE_INT.COUNT die chan p then d.ceRate die chan p else d).setF
      CHAN_RANK_CE_INT.COUNT 0 die chan p)) ∧
  (∀ (d : Dev) (die chan : Nat), d.chanState die chan = 2 → d.Takes (.chanFreezeNow die chan) (d.freeze die chan 2)) ∧
  (∀ (d : Dev) (die chan : Nat) (x y z : Dev), d.chanState die chan = 3 → (d.chan die chan).run = none → d.quenching = false →
    x = d.setF CHAN_STATUS.STATE 2 die chan → y = x.forEach (x.chan die chan).ranks (fun d p => (d.preAll die chan p).issue die chan 14 p 0 0 0 0 none) →
    z = y.forEach (y.chan die chan).ranks (fun d p => d.issueOwed die chan p) →
    d.Takes (.chanThaw die chan)
      ((z.modChan die chan fun x => { x with thawWait := none, freezeRead := none, queue := match x.freezeRead with
        | some r => r :: x.queue
        | none => x.queue }).raise .CHAN_THAWED die
        [p1 (gchan die chan), p1 0, p4 ((d.now - (d.chan die chan).frozenAt) / 1000000), p4 (d.heldByFreeze die chan)])) ∧
  (∀ (d : Dev) (die chan : Nat), d.f CHAN_CTRL.AUTO_THAW_MS die chan ≠ 0 → d.chanState die chan = 3 →
    d.Takes (.chanAutoThaw die chan)
      ((d.until ((d.chan die chan).frozenAt + 1000000 * d.f CHAN_CTRL.AUTO_THAW_MS die chan)).thaw die chan 1))

/-- Training and retraining of a Hearth channel (R396 to R408). -/
def Obligations.TrainingRuns : Prop :=
  (∀ (d : Dev) (die chan step rank : Nat) (x : Dev),
    x = (d.setF TRN_CTRL.STEP step die chan).setF TRN_CTRL.RANK rank die chan → x.mayStep die chan (step % 8) (rank % 8) = true →
    x.stepWaits die chan = false →
    ∃ y : Dev, y = (List.range 80).foldl (fun d l => d.setF TRN_ERR_COUNT.COUNT 0 die chan l)
      ((x.setB TRN_STATUS.ACTIVE true die chan).setF TRN_STATUS.STEP (step % 8) die chan) ∧
    d.Takes (.trnStart die chan step rank) (y.modChan die chan fun c =>
      { c with runWait := none, run := some ⟨step % 8, rank % 8, y.now, c.setting (rank % 8)⟩ })) ∧
  (∀ (d : Dev) (die chan : Nat) (r : TrnRun) (x : Dev), (d.chan die chan).run = some r →
    x = ((d.endStep die chan 3 ((d.now - r.start) / 1000)).failCycle die chan).restoreLkg die chan r.rank →
    d.Takes (.trnAbort die chan)
      ((x.raise .TRN_ABORTED die [p1 (gchan die chan), p1 r.rank, p4 r.step, p1 2]).afterStep die chan)) ∧
  (∀ (d : Dev) (die chan rank step : Nat) (codes : List Nat × Option Nat), (d.chan die chan).cand = some (rank, step, codes) →
    d.fb TRN_STATUS.ACTIVE die chan = false →
    d.Takes (.trnCommit die chan) (d.modChan die chan fun x => { x with inForce := tset x.inForce rank (tset (x.setting rank) step codes) })) ∧
  (∀ (d : Dev) (die chan rank : Nat) (full : Bool) (x : Dev),
    x = (d.setF TRN_CTRL.RANK rank die chan).setB TRN_CTRL.FULL full die chan → rank ∈ (x.chan die chan).ranks →
    (x.trnTrigger die chan rank 3).chanState die chan ≠ 3 →
    d.Takes (.trnRetrainNow die chan rank full) (x.trnTrigger die chan rank 3)) ∧
  (∀ (d : Dev) (die chan rank : Nat) (full : Bool) (x : Dev),
    x = ((d.setF TRN_CTRL.RANK rank die chan).setB TRN_CTRL.FULL full die chan).trnTrigger die chan rank 3 →
    rank ∈ (((d.setF TRN_CTRL.RANK rank die chan).setB TRN_CTRL.FULL full die chan).chan die chan).ranks →
    x.chanState die chan = 3 → x.mayCycle die chan rank = true →
    d.Takes (.trnRetrainNow die chan rank full) (x.beginCycle die chan rank)) ∧
  (∀ (d : Dev) (die chan rank : Nat), d.mayCycle die chan rank = true →
    d.Takes (.trnAutoCycleStart die chan rank) ((d.until (d.cycleDue die chan rank)).beginCycle die chan rank)) ∧
  (∀ (d : Dev) (die chan : Nat) (r : TrnRun) (x : Dev), (d.chan die chan).run = some r → x = d.issueOwed die chan r.rank →
    d.Takes (.trnSubstepEnd die chan)
      (x.forEach ((x.chan die chan).rfm.filter fun k => decide (k.1 = r.rank)) fun d k => d.issueRfm die chan k.1 k.2)) ∧
  (∀ (d : Dev) (die chan us : Nat) (scans : List TrnScan) (r : TrnRun), (d.chan die chan).run = some r →
    d.chanState die chan ≠ 2 ∨ us < 190 →
    d.Takes (.trnStepEnd die chan us scans) ((d.until (r.start + 1000 * us)).stepEnd die chan us scans)) ∧
  (∀ (d : Dev) (die chan : Nat) (k : TrnCycle) (x : Dev), (d.chan die chan).cycle = some k → (d.chan die chan).run = none →
    (d.chan die chan).runWait = none → x = d.until (k.lastEnd + 1000000 * d.f TRN_RETRAIN_CTRL.GAP_MS die chan) →
    d.Takes (.trnGapElapsed die chan)
      ((x.modChan die chan fun x => { x with cycle := some { k with next := k.next + 1 } }).beginTrn die chan k.next k.rank)) ∧
  (∀ (d : Dev) (die chan : Nat) (r : TrnRun) (x : Dev), (d.chan die chan).run = some r → d.chanState die chan ≠ 3 →
    x = (((d.until (r.start + 190000)).endStep die chan 2 190).failCycle die chan).restoreLkg die chan r.rank →
    d.Takes (.trnStepTimeout die chan)
      ((x.raise .TRN_STEP_TIMEOUT die [p1 (gchan die chan), p1 r.rank, p4 r.step]).afterStep die chan))

/-- Quench flash: attach, the table, erases and failures (R411 to R414, R419 to R424, R428, R430). -/
def Obligations.QuenchFlashRuns : Prop :=
  (∀ (d : Dev) (die chan nand : Nat) (look : NandLook) (x : Dev) (p : Nat) (y : Dev), d.qEnabled die chan = true → nand < d.qcfg.diesPerChan →
    (d.qchan die chan).attached.contains nand = false →
    x = (if (d.modQchan die chan fun y => { y with attached := y.attached ++ [nand] }).f QFL_CHAN_STATUS.STATE die chan = 0
        then (d.modQchan die chan fun y => { y with attached := y.attached ++ [nand] }).setF QFL_CHAN_STATUS.STATE 1 die chan
        else d.modQchan die chan fun y => { y with attached := y.attached ++ [nand] }) →
    x.nandFails ⟨die, chan, nand⟩ look = some p → x.qfl.lostNands.contains ⟨die, chan, nand⟩ = false →
    y = (x.setF QFL_NAND_STATUS.STATE 1 die chan nand).raise .QFL_NAND_REFUSED die [p1 chan, p1 nand, p4 p] →
    (y.qchan die chan).attached.length < y.qcfg.diesPerChan → d.Takes (.nandAttach die chan nand look) y) ∧
  (∀ (d : Dev) (die chan nand : Nat) (n : Nand) (k : QKey), n = ⟨die, chan, nand⟩ → d.counts n = true → d.quenching = false → d.dryOpen = false →
    d.ingotOn n = false → d.quadsIn n (fun s => decide (s = .erasing)) = [] → d.eraseChoice n = some k →
    (d.quad k).pe + 1 < d.f QFL_PE_LIMIT.CYCLES die →
    d.Takes (.qflEraseIssue die chan nand) (d.setQuad k { d.quad k with state := .erasing, pe := (d.quad k).pe + 1 })) ∧
  (∀ (d : Dev) (die chan nand : Nat) (k : QKey) (ks : List QKey) (x : Dev),
    d.quadsIn ⟨die, chan, nand⟩ (fun s => decide (s = .erasing)) = k :: ks → x = d.dropUnits (fun j => decide (j = k)) →
    d.Takes (.qflEraseDone die chan nand none) (x.logQuad k { d.quad k with state := .erased, ptr := 0 })) ∧
  (∀ (d : Dev) (die chan : Nat) (l : TableLog) (x : Dev), (d.qchan die chan).dirty ≠ [] → (d.qchan die chan).log = some l →
    x = d.forEach (d.qchan die chan).dirty (fun d e => d.readyErased ⟨die, chan, e.1, e.2⟩) →
    partsOf l.base + l.deltas.length < x.qcfg.pages →
    d.Takes (.qflTableDeltaDone die chan) (x.modQchan die chan fun y => { y with dirty := [], log := some { l with
      seq := l.seq + 1,
      deltas := l.deltas ++ [(d.qchan die chan).dirty.map fun e => ⟨e.1, e.2, x.quad ⟨die, chan, e.1, e.2⟩⟩] } })) ∧
  (∀ (d : Dev) (die chan : Nat), d.Takes (.qflZqCalibration die chan)
    (d.emits ((d.nandsOf die chan).map fun n => Out.nandZq n.die n.chan n.nand))) ∧
  (∀ (d : Dev) (die chan : Nat) (marks : List (Nat × Nat × Nat)), (d.qchan die chan).tabled = false → d.f QFL_CHAN_STATUS.STATE die chan = 2 →
    d.Takes (.qflTableRecover die chan (.blank marks)) (d.formatChan die chan 0 marks)) ∧
  (∀ (d : Dev) (die chan : Nat) (marks : List (Nat × Nat × Nat)), (d.qchan die chan).oldGeometry = true → d.rht.held = none →
    d.rht.restore = none → d.quenching = false → d.Takes (.qflFormat die chan marks) (d.formatChan die chan 1 marks)) ∧
  (∀ (d : Dev) (die chan nand quad plane : Nat), d.quenching = false →
    d.Takes (.qflOpFail die chan nand quad plane false) (d.retireBlock ⟨die, chan, nand, quad⟩ (plane % 4) 1)) ∧
  (∀ (d : Dev) (die chan nand : Nat), d.nandUp ⟨die, chan, nand⟩ = true → d.quenching = false →
    d.Takes (.nandStatusTimeout die chan nand) ((d.retireNand ⟨die, chan, nand⟩ 6).channelCheck die chan))

/-- The quench-flash firmware queue (R418, R423, R432 to R434). -/
def Obligations.QuenchFlashQueueRuns : Prop :=
  (∀ (d : Dev) (die : Nat) (m : NandMedium) (k : Option BufKey), d.qflReady die 1 k →
    d.Takes (.qflRead die m) (d.qRead (d.qdesc die) (d.qflQuad die) k m)) ∧
  (∀ (d : Dev) (die : Nat) (m : NandMedium) (k : BufKey) (x : Dev), d.qflReady die 2 (some k) →
    x = { d with pool := { d.pool with data := tset d.pool.data k ((List.range (8 * (d.qdesc die).length)).map fun i => m.words.getD i 0) } } →
    d.Takes (.qflReadRaw die m) (x.qComplete die .ok m.onfi (d.qdesc die).length 0 0 0 (d.qdesc die).tag)) ∧
  (∀ (d : Dev) (die : Nat) (m : NandMedium) (k : BufKey), d.qflReady die 3 (some k) →
    d.Takes (.qflProgram die m) (({ d with pool := { d.pool with data := tset d.pool.data k m.words } }).qProgram (d.qdesc die) (d.qflQuad die)
      (some k) m)) ∧
  (∀ (d : Dev) (die : Nat) (m : NandMedium) (k : Option BufKey) (x : Dev), d.qflReady die 4 k → bit m.onfi 0 = false →
    x = (d.dropUnits fun j => decide (j = d.qflQuad die)).logQuad (d.qflQuad die) { d.quad (d.qflQuad die) with
      pe := (d.quad (d.qflQuad die)).pe + 1, state := .scratch true, ptr := 0 } →
    d.Takes (.qflEraseQuad die m) (x.qComplete die .ok m.onfi 0 0 0 0 (d.qdesc die).tag)) ∧
  (∀ (d : Dev) (die : Nat) (m : NandMedium) (k : BufKey) (x : Dev), d.qflReady die 5 (some k) →
    x = { d with pool := { d.pool with data := tset d.pool.data k ((List.range (8 * (d.qdesc die).length)).map fun i => m.words.getD i 0) } } →
    d.Takes (.qflReadParam die m) (x.qComplete die .ok m.onfi (d.qdesc die).length 0 0 0 (d.qdesc die).tag)) ∧
  (∀ (d : Dev) (die : Nat) (m : NandMedium) (k : BufKey) (x : Dev), d.qflReady die 6 (some k) →
    x = { d with pool := { d.pool with data := tset d.pool.data k ((List.range (8 * (d.qdesc die).length)).map fun i => m.words.getD i 0) } } →
    d.Takes (.qflGetFeature die m) (x.qComplete die .ok m.onfi (d.qdesc die).length 0 0 0 (d.qdesc die).tag)) ∧
  (∀ (d : Dev) (die : Nat) (m : NandMedium) (k : Option BufKey) (blank : Bool), d.qflReady die 7 k →
    blank = (!(d.qfl.units.any fun x => decide (x.1.1 = d.qflQuad die)) && decide ((d.quad (d.qflQuad die)).ptr = 0)) →
    d.Takes (.qflBlankCheck die m) (d.qComplete die .ok m.onfi 0 0 (4 * b2n blank) 0 (d.qdesc die).tag)) ∧
  (∀ (d : Dev) (die : Nat), d.f QFL_Q_TAIL.TAIL die ≠ d.f QFL_Q_HEAD.HEAD die → d.quenching = false →
    (d.qdesc die).opcode = 0 ∨ 7 < (d.qdesc die).opcode →
    d.Takes (.qflUnknownOpcode die) (d.qComplete die .unsupported 0 0 0 0 0 (d.qdesc die).tag))

/-- The Bellows' strings: samples, anchors, faults, calibration and the switch (R442 to R453). -/
def Obligations.BellowsMeasuresRun : Prop :=
  (∀ (d : Dev) (strings : List StrSample) (x y z : Dev), x = d.until (d.bell.sampleAt + 1000000) →
    y = (x.setBell fun b => { b with sampleAt := x.now }).dryEnergy strings →
    z = y.forEach (strings.zipIdx.filter fun x => y.strings.contains x.2) (fun d x => d.sampleStr x.2 x.1) → z.discharging = none →
    d.Takes (.stringSample strings) z) ∧
  (∀ (d : Dev) (n : Nat), n ∈ d.strings → (d.bstr n).present = true → d.switchOf n ≠ 3 → -180000 * d.strI n < Int.ofNat (d.qref n) →
    d.Takes (.fullAnchor n) (d.fullAnchor n)) ∧
  (∀ (d : Dev) (n fault : Nat), d.faultHolds n fault = false →
    d.Takes (.faultClear n fault) ((d.modBstr n fun s => { s with faults := s.faults.filter fun x => decide (x ≠ fault) }).showStr n)) ∧
  (∀ (d : Dev) (n : Nat), d.fb BELL_CAL_CTRL.EN = true → d.bell.cal = none → d.quenching = false → d.calNext = some n →
    d.Takes .calStepStart (((d.setBell fun b => { b with cal := some n, lastCal := some n }).setPin "CAL_SEL" 0 n).setPin "CAL_LOAD" 0 1)) ∧
  (∀ (d : Dev) (n : Nat) (v1 i1 v2 i2 v3 i3 : Int) (x : Dev), d.bell.cal = some n → calResult v1 i1 v2 i2 v3 i3 = none →
    x = ((d.setBell fun b => { b with cal := none }).setPin "CAL_LOAD" 0 0).incF BELL_STR_STATUS.CAL_REJECTS 0 n →
    x.f BELL_STR_STATUS.CAL_REJECTS 0 n ≠ 60 → d.Takes (.calStepEnd v1 i1 v2 i2 v3 i3) x) ∧
  (∀ (d : Dev) (n m v : Nat) (v1 i1 v2 i2 v3 i3 : Int) (x : Dev), d.bell.cal = some n → calResult v1 i1 v2 i2 v3 i3 = some m →
    x = (d.setBell fun b => { b with cal := none }).setPin "CAL_LOAD" 0 0 →
    v = ((x.f BELL_STR_R_EST.UOHM 0 n : Int) + ((m : Int) - x.f BELL_STR_R_EST.UOHM 0 n) / 8).toNat →
    (x.strCfg n).rEst ≤ 4 * v → v ≤ 4 * (x.strCfg n).rEst →
    d.Takes (.calStepEnd v1 i1 v2 i2 v3 i3)
      (((x.setF BELL_STR_STATUS.CAL_REJECTS 0 0 n).setF BELL_STR_R_EST.UOHM v 0 n).modBstr n fun s => { s with lastMeas := some m })) ∧
  (∀ (d : Dev) (n : Nat) (value : Bool), n ∈ d.strings →
    d.Takes (.bellStrForceIsolate n value) ((d.setB BELL_STR_CTRL.FORCE_ISOLATE value 0 n).showStr n)) ∧
  (∀ (d : Dev) (failed : List Nat) (status : Nat), d.Takes (.lvRecordWrite failed status) (d.forEach d.strings fun d n =>
    if failed.contains n then d.raiseB .BELL_JOURNAL_FAIL [p1 0, p1 status] else d.lvRecord n)) ∧
  (∀ (d : Dev) (mv ns : Nat), mv < 400 + 4 * d.f BELL_AON_CTRL.THRESH → 32 ≤ ns → d.aonLow = false →
    ∃ x : Dev, x = ((d.setB BELL_SUPPLY_STATUS.AON_ABOVE false).setB BELL_SUPPLY_STATUS.AON_LOW true).setB BELL_SUPPLY_STATUS.AON_LOW_SEEN true ∧
    d.Takes (.aonSenseLow mv ns) (x.setBell fun b => { b with aonAt := x.now })) ∧
  (∀ (d : Dev) (mv : Nat) (x : Dev), 400 + 4 * d.f BELL_AON_CTRL.THRESH ≤ mv → d.aonLow = true →
    x = (d.setB BELL_SUPPLY_STATUS.AON_ABOVE true).setB BELL_SUPPLY_STATUS.AON_LOW false →
    d.Takes (.aonSenseRise mv) (x.raiseB .BELL_AON_LOW [p4 ((x.now - x.bell.aonAt) / 1000000)]).tmpProceed)

/-- The Bellows' learning discharges and modules (R454 to R458). -/
def Obligations.BellowsLearningRuns : Prop :=
  (∀ (d : Dev) (n : Nat), d.bell.pending = [n] → d.learnWaits n = none →
    ∃ x : Dev, x = (((d.calStart n).setLearn n 2).modBstr n fun s => { s with learnAt := d.now }) ∧
    d.Takes .learnCheck ((x.raiseB .BELL_LEARN_START [p1 n, p1 (x.bstr n).learnCause, p8 (d.ceilingOf (d.eUsable [n])).1]).showStr n)) ∧
  (∀ (d : Dev) (n w : Nat), d.bell.pending = [n] → d.learnWaits n = some w → (d.bstr n).waitSaid = false →
    d.Takes .learnCheck ((d.modBstr n fun s => { s with waitSaid := true }).raiseB .BELL_LEARN_WAIT [p1 n, p4 w])) ∧
  (∀ (d : Dev) (n : Nat), d.learnState n = 2 →
    d.Takes (.learnTimeout n) ((d.until ((d.bstr n).learnAt + 86400000000000)).abortLearn n 5)) ∧
  (∀ (d : Dev) (n t : Nat), (d.bstr n).rependAt = some t → d.Takes (.learnRepend n)
    (((d.until t).modBstr n fun s => { s with rependAt := none }).schedule' n (d.bstr n).learnCause)) ∧
  (∀ (d : Dev) (n : Nat), d.fb BELL_LEARN_CTRL.AUTO_EN = true → n ∈ d.strings → d.learnState n = 0 →
    d.Takes (.learnPeriod n) ((d.untilLife ((d.bstr n).lastLearn + 86400 * d.f BELL_LEARN_CTRL.PERIOD_D)).schedule' n 4)) ∧
  (∀ (d : Dev) (n : Nat) (x : Dev), d.mayLearn n = true → d.learnState n = 0 → x = d.setLearn n 1 →
    d.Takes (.bellStrLearn n) (x.modBstr n fun s => { s with learnCause := 1, waitSaid := false, rependAt := none })) ∧
  (∀ (d : Dev) (n : Nat), d.learnState n = 1 → d.Takes (.bellStrCancel n) (d.setLearn n 0)) ∧
  (∀ (d : Dev) (n : Nat) (x : Dev), d.learnState n = 2 → x = (d.setLearn n 0).modBstr n (fun s => { s with rependAt := none }) →
    d.Takes (.bellStrCancel n) ((x.raiseB .BELL_LEARN_ABORT [p1 n, p1 1]).showStr n)) ∧
  (∀ (d : Dev) (n : Nat) (a : AuthRun) (x : Dev), d.quenching = false → (d.bstr n).auth = some a →
    x = (d.modBstr n fun s => { s with auth := none }).setB BELL_STR_STATUS.AUTHENTICATED true 0 n →
    d.Takes (.authResponse n none) ((x.raiseB .BELL_AUTH_OK [p1 n, p4 (x.strSerial n % 2 ^ 32)]).showStr n)) ∧
  (∀ (d : Dev) (n : Nat) (a : AuthRun) (x : Dev), (d.bstr n).auth = some a → a.waits = true → d.quenching = false →
    x = d.modBstr n (fun s => { s with auth := some { a with waits := false } }) →
    d.Takes (.authRetry n) (x.tick.emit (.battery n 0x80 (x.freeVal % 2 ^ 256)))) ∧
  (∀ (d : Dev) (n : Nat) (x : Dev), d.quenching = false → (d.bstr n).present = true →
    x = d.modBstr n (fun s => { s with auth := some ⟨0, false⟩ }) →
    d.Takes (.authPeriodic n) (x.tick.emit (.battery n 0x80 (x.freeVal % 2 ^ 256))) ∧
    d.Takes (.bellStrReauth n) (x.tick.emit (.battery n 0x80 (x.freeVal % 2 ^ 256)))) ∧
  (∀ (d : Dev) (answers : List (Option Nat)) (x : Dev), d.quenching = false →
    x = d.forEach (answers.zipIdx.filter fun x => d.strings.contains x.2) (fun d x => d.pollStr x.2 x.1) →
    (∀ n ∈ d.countedBut [], (x.bstr n).present = true) → d.Takes (.serialPoll answers) x)

/-- A quench begins: trips, T0 and the power shed (R162, R224 to R228, R235, R236). -/
def Obligations.QuenchTripsRun : Prop :=
  (∀ (d : Dev) (mv ns : Nat) (x : Dev), d.fb QNCH_TRIG_CTRL.MAIN_EN = true → mv < 400 + 4 * d.f QNCH_TRIG_CTRL.MAIN_THRESH →
    filterNs (d.f QNCH_TRIG_CTRL.MAIN_FILTER) ≤ ns → x = d.setB BELL_SUPPLY_STATUS.MAIN_ABOVE false → x.poweredDown = false →
    x.quenching = false → x.heat.opened = true → d.Takes (.mainSenseTrip mv ns) (x.t0 1)) ∧
  (∀ (d : Dev) (mv ns : Nat) (x : Dev), d.fb QNCH_TRIG_CTRL.HOLD_EN = true → mv < 400 + 4 * d.f QNCH_TRIG_CTRL.HOLD_THRESH →
    filterNs (d.f QNCH_TRIG_CTRL.HOLD_FILTER) ≤ ns → x = d.setB BELL_SUPPLY_STATUS.HOLD_ABOVE false → x.poweredDown = false →
    x.quenching = false → x.heat.opened = true → d.Takes (.holdSenseTrip mv ns) (x.t0 2)) ∧
  (∀ (d : Dev) (ns : Nat) (x : Dev), d.fb QNCH_TRIG_CTRL.PFN_EN = true → filterNs (d.f QNCH_TRIG_CTRL.PFN_FILTER) ≤ ns →
    x = d.setB BELL_SUPPLY_STATUS.PFN_LEVEL (decide (ns = 0)) → x.poweredDown = false → x.quenching = false → x.heat.opened = true →
    d.Takes (.pwrFailNTrip ns) (x.t0 3)) ∧
  (∀ (d : Dev) (ns : Nat) (x : Dev), d.fb QNCH_TRIG_CTRL.PFN_EN = true → filterNs (d.f QNCH_TRIG_CTRL.PFN_FILTER) ≤ ns →
    x = d.setB BELL_SUPPLY_STATUS.PFN_LEVEL (decide (ns = 0)) → x.poweredDown = false → x.quenching = true →
    d.Takes (.pwrFailNTrip ns) ((x.incF QNCH_IGNORED.COUNT).raiseB .QNCH_TRIGGER_IGNORED [p1 3])) ∧
  (∀ (d : Dev) (value : Nat), d.fb QNCH_TRIG_CTRL.LOCK = true → d.Takes (.qnchTrigCtrlWrite value) d) ∧
  (∀ (d : Dev) (value : Nat), d.fb QNCH_TRIG_CTRL.LOCK = false → bits value 16 3 ≤ 4 → bits value 19 3 ≤ 4 → bits value 22 3 ≤ 4 →
    bits value 25 3 = 0 → bit value 31 = false →
    d.Takes (.qnchTrigCtrlWrite value)
      (((((d.setF QNCH_TRIG_CTRL.MAIN_THRESH (bits value 0 8)).setF QNCH_TRIG_CTRL.HOLD_THRESH (bits value 8 8)).setF
        QNCH_TRIG_CTRL.MAIN_FILTER (bits value 16 3)).setF QNCH_TRIG_CTRL.HOLD_FILTER (bits value 19 3)).setF
          QNCH_TRIG_CTRL.PFN_FILTER (bits value 22 3))) ∧
  (∀ (d : Dev) (die slice : Nat) (q : Quench) (x : Dev), d.quench = some q → slice < 8 → die ∈ q.dies → sliceId die slice ∉ d.cru.drained →
    d.slicePassed die (sliceId die slice) = true → x = d.setCru (fun c => { c with drained := c.drained ++ [sliceId die slice] }) →
    x.allDrained q = false → d.Takes (.fenceDrained die slice) x) ∧
  (∀ (d : Dev) (die slice : Nat) (q : Quench) (x : Dev), d.quench = some q → slice < 8 → die ∈ q.dies → sliceId die slice ∉ d.cru.drained →
    d.slicePassed die (sliceId die slice) = true → x = d.setCru (fun c => { c with drained := c.drained ++ [sliceId die slice] }) →
    x.allDrained q = true → q.drainSent = false → x.rst.discard = false →
    d.Takes (.fenceDrained die slice) ((x.forEach x.usable fun d l => d.notify q l 1 0).modQuench fun q => { q with drainSent := true })) ∧
  (∀ (d : Dev) (die lowest : Nat) (ack : Bool), d.Takes (.powerShed die lowest ack) (d.shedDie die lowest ack))

/-- The dump of a quench: the walk, the programs, their failures, trailers, commit records and the pointer (R233, R240 to R246, R252 to R259). -/
def Obligations.QuenchDumpRuns : Prop :=
  (∀ (d : Dev) (die : Nat) (bad : List (Nat × Nat)) (q : Quench) (p : QDie) (w : Walk) (found : Nat) (x y : Dev), d.quench = some q →
    q.part die = some p → q.sanitize = false → p.walked = false → d.dieDrained die = true → d.rst.discard = false →
    d.walk q die bad = (w, found) → q.tagWalk.contains die = false →
    x = d.modQuench (fun z => z.modPart die fun p => { p with
      waiting := d.walkUnits q die ((q.part die).getD p) w, nextSeg := (d.walkSegs q die w).length, maps := (d.mapSegments q die).length,
      slabs := w.pack.slabs, walked := true }) →
    y = x.forEach w.ues (fun d e => d.raise .QNCH_SECTOR_UE die [p1 die, p5 e.1, p1 e.2]) →
    d.Takes (.dirtyWalkStart die bad) y.qPump) ∧
  (∀ (d : Dev) (die chan nand writer : Nat) (q : Quench) (p : QPlaced) (x : Dev), d.quench = some q →
    q.running ⟨die, chan, nand⟩ = some (writer, p) → x = d.setQfl (fun x => { x with units := tset x.units (p.key, p.page) p.unit.unit }) →
    d.Takes (.segmentProgramDone die chan nand) (x.modQuench fun q => q.modPart writer fun g =>
      { g with placed := g.placed.map (fun x => if x = p then { x with done := true } else x),
               bytes := g.bytes + (match p.unit.unit with | .trailer _ => 0 | .commit _ => 0 | u => u.bytes) }).qPump) ∧
  (∀ (d : Dev) (die chan nand plane writer : Nat) (n : Nand) (q : Quench) (p : QPlaced) (g : QDie) (u : Quad) (x : Dev), n = ⟨die, chan, nand⟩ →
    d.quench = some q → q.running n = some (writer, p) → q.part n.die = some g → 2 ≤ tgetD q.fails n 0 ∨ 8 ≤ g.reprograms →
    u = d.quad p.key →
    x = (((d.setQfl fun y => { y with units := tset y.units (p.key, p.page) .undef }).setQuad p.key { u with ptr := d.qcfg.pages }).modQuench fun z => { z with fails := tset z.fails n (tgetD q.fails n 0 + 1) }) →
    d.Takes (.quenchBlockFail die chan nand plane)
      ((x.raise .QNCH_BLOCK_FAIL n.die [p1 n.die, p1 n.chan, p1 n.nand, p4 (u.blocks.getD (plane % 4) 0),
        p4 p.unit.unit.number]).qnchNandFail n)) ∧
  (∀ (d : Dev) (die chan nand : Nat), d.nandUp ⟨die, chan, nand⟩ = true →
    d.Takes (.quenchNandDieFail die chan nand) (d.qnchNandFail ⟨die, chan, nand⟩)) ∧
  (∀ (d : Dev) (die chan nand : Nat) (q : Quench) (n : Nand), n = ⟨die, chan, nand⟩ → d.quench = some q →
    d.quadsIn n (fun s => decide (s = .erasing)) = [] →
    d.Takes (.quenchNandDieReady die chan nand) (d.modQuench fun q => { q with notReady := q.notReady.filter fun x => decide (x ≠ n) }).qPump) ∧
  (∀ (d : Dev) (die : Nat) (q : Quench) (p : QDie), d.quench = some q → q.part die = some p → p.walked = true → p.idle = true →
    p.trailer = none →
    d.Takes (.trailerProgram die) (d.modQuench fun z => z.modPart die fun y => { y with
      trailer := some (d.trailerOf q die p), waiting := d.homeUnits q die 3 (.trailer (d.trailerOf q die p)) }).qPump) ∧
  (∀ (d : Dev) (ms : Nat) (q : Quench) (x y : Dev) (c : CommitRec), d.quench = some q → q.sanitize = false → q.commit = none →
    d.trailersDone q = true → x = d.until (q.t0 + 1000000 * ms) →
    y = x.raiseB .QNCH_DONE [p4 q.gen, p1 q.slot, p4 (x.commitRec q).durationMs, p8 (sumOf (q.parts.map fun e => e.2.bytes)),
      p1 (x.commitRec q).flags] →
    c = (if y.version1 then x.commitRec q else { x.commitRec q with events := y.evt.quenchRecs, eventsLost := y.evt.eventsLost }) →
    d.Takes (.commitRecordProgram ms) (y.modQuench fun z => { z with commit := some c, parts := z.parts.map fun e =>
      (e.1, if y.inService e.1 then { e.2 with waiting := y.homeUnits q e.1 4 (.commit { c with writer := e.1 }) } else e.2) }).qPump) ∧
  (∀ (d : Dev) (status : Nat) (q : Quench) (x y : Dev), d.quench = some q → q.pointer = none → d.commitsDone q = true → q.kept = [] →
    x = (d.raiseB .QNCH_PTR_FAIL [p1 status]).addCommitEvents →
    y = { x with committed := true, lastSlot := if q.isCommitted then some q.slot else x.lastSlot } →
    d.Takes (.commitPointerProgram false status) (y.modQuench fun q => { q with pointer := some false }))

/-- Reheat goes its steps: the scan, the records, the index pass, the reopening of the gates, the restore of segments and the release (R270 to R286). -/
def Obligations.ReheatStepsRun : Prop :=
  (∀ (d x : Dev), d.f RHT_STATUS.PHASE = 1 → d.quenching = false →
    x = (d.setF HEAT_RESERVATION.R d.storedReservation).setF RHT_STATUS.PHASE 2 →
    d.Takes .reheatLocate (x.forEach (List.range x.regionCfgs.length) fun d n => d.putRecord n (d.storedRole n))) ∧
  (∀ (d : Dev) (bad : List FlashAt), d.f RHT_STATUS.PHASE = 2 → d.rht.scanned = false → d.quenching = false →
    d.Takes (.ingotScan bad) (d.ingotScan bad)) ∧
  (∀ (d : Dev) (status : Nat), d.rht.scanned = true → d.rht.recorded = false → d.rht.held = none → d.quenching = false →
    d.f HEAT_JRNL_PAGES.TOTAL (d.diesUp.headD 0) ≠ 0 →
    d.Takes (.reheatRecordsProgram false true status) ((d.raiseB .QNCH_CLAIM_FAIL [p1 status]).notReady .QNCH_CLAIM_FAIL)) ∧
  (∀ (d : Dev) (status : Nat) (x y : Dev), d.rht.scanned = true → d.rht.recorded = false → d.rht.held = none → d.quenching = false →
    d.f HEAT_JRNL_PAGES.TOTAL (d.diesUp.headD 0) ≠ 0 → d.claimNext true true status = some x → x.rht.restore = none → y = x.firstHeat →
    y.rht.restore = none →
    d.Takes (.reheatRecordsProgram true true status)
      ((y.setRht fun z => { z with recorded := true, indexAt := y.now }).releaseIngots.setF RHT_STATUS.PHASE 6)) ∧
  (∀ (d : Dev) (r : Restore) (x y : Dev), d.rht.restore = some r → r.lazy = false → d.f RHT_STATUS.PHASE = 3 → d.quenching = false →
    r.segs.all (·.retired) = true → d.rht.judge = [] → x = d.forEach (dedup (r.segs.map (·.named)).flatten) (fun d s => d.slabRestored s) →
    x.rht.judge = [] → y = x.forEach x.dies (fun d die => d.setB RHT_DIE_STATUS.INDEX_DONE true die) →
    d.Takes .eagerRestoreDone ((y.setF RHT_STATUS.PHASE 4).setRht fun u => { u with indexAt := (y.setF RHT_STATUS.PHASE 4).now })) ∧
  (∀ (d : Dev) (die num : Nat) (seen : Option (List Nat)) (broken : Bool), 4 ≤ d.f RHT_STATUS.PHASE →
    d.Takes (.indexPassSegment die num seen broken) (d.indexPass die num seen broken)) ∧
  (∀ (d : Dev) (die : Nat) (r : Restore) (x : Dev), d.f RHT_STATUS.PHASE = 4 → d.fb RHT_DIE_STATUS.INDEX_DONE die = false →
    d.fb RHT_DIE_STATUS.INDEX_PARTIAL die = false → d.isDie die = true → d.quenching = false →
    x = d.until (d.rht.indexAt + 6000000000) → x.rht.restore = some r →
    d.Takes (.indexDeadline die) ((x.setB RHT_DIE_STATUS.INDEX_PARTIAL true die).raise .RHT_INDEX_PARTIAL die
      [p1 die, p4 (r.segs.filter fun g => decide (g.die = die) && g.indexed).length])) ∧
  (∀ (d : Dev) (x y : Dev), d.mayServe = true → d.ceil.computed = true → x = { d with fab := { d.fab with mediaError := false } } →
    y = (x.openGates.setF RST_STATUS.PHASE 6).setF ROOT_STATUS.PHASE 6 → y.rht.restore = none →
    d.Takes .gatesReopen (y.raiseB .RHT_SERVING [p4 ((y.now - y.rht.p0) / 1000000),
      p4 (y.diesUp.filter fun die => y.fb RHT_DIE_STATUS.INDEX_PARTIAL die).length])) ∧
  (∀ (d : Dev) (gen die num : Nat) (auth : Bool) (m : NandMedium), d.rht.recorded = true →
    d.Takes (.segmentRestore gen die num auth m) (d.segRestore gen die num auth m)) ∧
  (∀ (d : Dev) (r : Restore) (x y : Dev), d.rht.restore = some r → d.fence = false → d.quenching = false → r.segs.all (·.retired) = true →
    x = (d.restoreRecord r 2).releaseIngots →
    y = (x.setRht fun z => { z with restore := none, demands := [] }).setF RHT_STATUS.PHASE 6 →
    d.Takes .ingotRelease (y.raiseB .RHT_DONE [p4 r.generation, p4 r.segs.length, p4 ((y.now - r.servingAt) / 1000000)])) ∧
  (∀ (d : Dev) (r : Restore) (x : Dev), d.rht.held = some r → x = d.setRht (fun z => { z with held := none, scanned := true }) →
    d.Takes .rhtDiscard (((x.keyLost r).setF RHT_STATUS.PHASE 2).releaseIngots))

/-- A quench's end, the supplies and the pins of a reset (R228, R553 to R558, R562, R606). -/
def Obligations.ResetCommandsRun : Prop :=
  (∀ (d : Dev) (st : Straps) (q : Quench) (x : Dev), d.quench = some q → q.pointer.isSome = true → d.rst.pending = none →
    x = { (d.setPin "QUENCH_OUT" 0 0) with quenching := false, quench := none } →
    d.Takes (.quenchEnd false true st) x.powerDown) ∧
  (∀ (d : Dev) (st : Straps) (q : Quench) (x : Dev), d.quench = some q → q.pointer.isSome = true → d.rst.pending = none →
    x = { (d.setPin "QUENCH_OUT" 0 0) with quenching := false, quench := none } →
    d.Takes (.quenchEnd true true st) ((x.setRst fun r => { r with pending := some ⟨5, x.D, 0, x.now⟩ }).advanceReset false st)) ∧
  (∀ (d : Dev) (st : Straps), d.rst.powered = false → d.Takes (.bellowsPor st) (d.aonRises st)) ∧
  (∀ (d : Dev) (st : Straps), d.rst.powered = true → d.Takes (.bellowsPor st) ((d.aonFalls 0).aonRises st)) ∧
  (∀ (d : Dev) (lowNs : Nat) (st : Straps), d.rst.powered = true → d.rst.asserted = false → lowNs < 1000 →
    d.Takes (.resetNAssert lowNs st) (d.incF RST_GLITCHES.COUNT)) ∧
  (∀ (d : Dev) (lowNs : Nat) (st : Straps), d.rst.powered = true → d.rst.asserted = false → 1000 ≤ lowNs →
    d.Takes (.resetNAssert lowNs st) ((d.setRst fun r => { r with asserted := true }).decideReset 1 false st)) ∧
  (∀ (d : Dev) (st : Straps), d.rst.inReset = true →
    d.Takes (.resetNRelease st) ((d.setRst fun r => { r with asserted := false }).startUp st)) ∧
  (∀ (d : Dev) (t : Nat), d.rst.window = some t → d.Takes .nqWindowExpire ((d.until t).raiseB .RST_NQ_EXPIRED []).endNqWindow) ∧
  (∀ (d : Dev) (st : Straps) (p : PendingReset), d.rst.pending = some p → p.waits = 0 → d.quenching = false →
    d.Takes (.resetProceed st) ((d.endWait p).advanceReset false st)) ∧
  (∀ (d : Dev) (st : Straps) (p : PendingReset), d.rst.pending = some p → p.waits = 1 →
    d.Takes (.resetProceed st) ((d.endWait p).advanceReset false st)) ∧
  (∀ (d : Dev) (st : Straps) (p : PendingReset), d.rst.pending = some p → 2 ≤ p.waits → d.tmp.running = [] →
    d.Takes (.resetProceed st) ((d.endWait p).takeReset p st)) ∧
  (∀ (d : Dev) (st : Straps) (x : Dev), d.f RST_STATUS.PHASE = 8 → d.rst.powered = true → d.rst.inReset = false →
    x = d.mbVendor .sideband 0xC0FF .ok [] →
    d.Takes (.romResetRequest st) ((x.setRst fun r => { r with pending := some ⟨6, 0, 0, x.now⟩ }).advanceReset false st)) ∧
  (∀ (d : Dev) (group : Nat), d.rst.powered = true → d.Takes (.vddAonFall group) (d.aonFalls group))

/-- The die-to-die links, the substitutions of a die and its controllers (R19, R567 to R579, R602). -/
def Obligations.ServiceEventsRun : Prop :=
  (∀ (d : Dev) (die link : Nat), d.inService die = true → (die, link) ∉ d.fab.d2d →
    d.Takes (.d2dLinkFault die link) { d with fab := { d.fab with d2d := d.fab.d2d ++ [(die, link)] } }) ∧
  (∀ (d : Dev) (die link us : Nat) (x : Dev), (die, link) ∈ d.fab.d2d →
    x = { d with fab := { d.fab with d2d := d.fab.d2d.filter fun l => decide (l ≠ (die, link)) } } →
    d.Takes (.d2dRetrainDone die link us true)
      ((x.incF SVC_D2D_RETRAINS.COUNT die).raise .SVC_D2D_RETRAIN die [p1 die, p1 link, p4 us])) ∧
  (∀ (d : Dev) (die link us : Nat) (x : Dev), (die, link) ∈ d.fab.d2d →
    x = { d with fab := { d.fab with d2d := d.fab.d2d.filter fun l => decide (l ≠ (die, link)) } } →
    d.Takes (.d2dRetrainDone die link us false)
      (((x.incF SVC_D2D_RETRAINS.COUNT die).raise .SVC_D2D_RETRAIN die [p1 die, p1 link, p4 us]).dieOut die 0 false)) ∧
  (∀ (d : Dev) (die slice : Nat), d.inService die = true → slice < 8 → d.spareSlice die = true →
    d.Takes (.sliceParityError die slice)
      (((((d.spareTakes die slice).slagAdd 1 die slice 1).raise .SVC_SLICE_SPARED die [p1 slice, p1 1]).exhaust 0 die))) ∧
  (∀ (d : Dev) (die slice : Nat), d.inService die = true → slice < 8 → d.spareSlice die = true →
    d.Takes (.sliceProgressTimeout die slice)
      (((((d.spareTakes die slice).slagAdd 1 die slice 2).raise .SVC_SLICE_SPARED die [p1 slice, p1 2]).exhaust 0 die))) ∧
  (∀ (d : Dev) (die slice : Nat), d.inService die = true → slice < 8 → d.spareSlice die = false →
    d.Takes (.sliceParityError die slice) (d.dieOut die 1 true) ∧ d.Takes (.sliceProgressTimeout die slice) (d.dieOut die 1 true)) ∧
  (∀ (d : Dev) (die quad : Nat), d.fb SVC_CTRL.AUTO_QUAD = true → d.spareQuad die quad = true →
    d.Takes (.quadTrainFailure die quad) (d.quadMoves die quad 3)) ∧
  (∀ (d : Dev) (die a : Nat) (x : Dev), d.inService die = true → d.smithDead die = false → d.standby die = true →
    a = d.f SVC_DIE_STATUS.SMITH_ACTIVE die →
    x = (((d.slagAdd 3 die a 2).forEach (List.range 4) fun d c =>
      (d.abortStep die c 2).modChan die c fun x => { x with runWait := none })).freeSmithBufs die →
    d.Takes (.smithWatchdog die) (((x.setF SVC_DIE_STATUS.SMITH_ACTIVE (1 - a) die).setB SVC_DIE_STATUS.STANDBY_OK false die).raise
      .SVC_SMITH_SWITCH die [p4 a, p1 2])) ∧
  (∀ (d : Dev) (die a : Nat) (x : Dev), d.inService die = true → d.smithDead die = false → d.standby die = true →
    a = d.f SVC_DIE_STATUS.SMITH_ACTIVE die →
    x = (((d.slagAdd 3 die a 5).forEach (List.range 4) fun d c =>
      (d.abortStep die c 2).modChan die c fun x => { x with runWait := none })).freeSmithBufs die →
    d.Takes (.smithMemoryUe die) (((x.setF SVC_DIE_STATUS.SMITH_ACTIVE (1 - a) die).setB SVC_DIE_STATUS.STANDBY_OK false die).raise
      .SVC_SMITH_SWITCH die [p4 a, p1 5])) ∧
  (∀ (d : Dev) (die c : Nat) (k : RankCopy), (d.chan die c).copy = some k → d.quenching = false → (d.chan die c).run = none →
    d.chanState die c ≠ 3 →
    d.Takes (.rankCopyDone die c)
      ((d.setF SVC_RANK_COPY.PERMILLE 1000 die c).rankSwitch die c k.rank k.cause ((d.now - k.start) / 1000000))) ∧
  (∀ (d : Dev) (die lowest island : Nat) (ack : Bool) (x : Dev), d.inService die = true → d.quenching = false →
    x = d.setF SVC_VDD.NEEDED (saturate 10 (lowest + 10)) die → x.f SVC_VDD.SETPOINT die < vddTarget (lowest + 10) →
    d.Takes (.vddControl die lowest island ack) (x.sendVdd die (x.f SVC_VDD.SETPOINT die + 5) (lowest + 10) island ack)) ∧
  (∀ (d : Dev) (die : Nat) (tj : Int) (x : Dev), d.inService die = true → x = d.setF HCB_TJ.TJ (temp8 tj) die →
    d.Takes (.lifeTick die tj) (x.setSvc fun s => { s with weighted := tset s.weighted die (tgetD s.weighted die 0 + lifeWeight tj) }).showLife) ∧
  (∀ (d : Dev), d.Takes .lifeRecord
    (d.forEach d.diesUp fun d die => d.counterRecord magicLIFE [p8 die, p8 (tgetD d.svc.weighted die 0)]))

/-- A command that a die's firmware writes with GO acts and ends with a status (R579). -/
def Obligations.ServiceCommandsRun : Prop :=
  (∀ (d : Dev) (die slice : Nat) (x : Dev), d.inService die = true → d.smithDead die = false → d.quench = none →
    d.fb SVC_CMD_STATUS.BUSY die = false →
    x = ((d.setF SVC_CMD.OP 1 die).setF SVC_CMD.TARGET slice die).setB SVC_CMD_STATUS.DONE false die → slice < 8 → x.spareSlice die = true →
    d.Takes (.svcSliceSpare die slice)
      (((x.sliceFails die slice 8).setB SVC_CMD_STATUS.DONE true die).setF SVC_CMD_STATUS.STATUS Status.ok.code die)) ∧
  (∀ (d : Dev) (die quad : Nat) (x : Dev), d.inService die = true → d.smithDead die = false → d.quench = none →
    d.fb SVC_CMD_STATUS.BUSY die = false →
    x = ((d.setF SVC_CMD.OP 2 die).setF SVC_CMD.TARGET quad die).setB SVC_CMD_STATUS.DONE false die → x.spareQuad die quad = true →
    d.Takes (.svcQuadSpare die quad)
      (((x.quadMoves die quad 8).setB SVC_CMD_STATUS.DONE true die).setF SVC_CMD_STATUS.STATUS Status.ok.code die)) ∧
  (∀ (d : Dev) (die target : Nat) (x : Dev), d.inService die = true → d.smithDead die = false → d.quench = none →
    d.fb SVC_CMD_STATUS.BUSY die = false →
    x = ((d.setF SVC_CMD.OP 3 die).setF SVC_CMD.TARGET target die).setB SVC_CMD_STATUS.DONE false die →
    (List.range 4).any (fun c => (x.chan die c).copy.isSome) = false → x.canSpare die (target / 8) (target % 8) = true →
    d.Takes (.svcRankSpare die target)
      (((x.startCopy die (target / 8) (target % 8) 8).setB SVC_CMD_STATUS.DONE true die).setF SVC_CMD_STATUS.STATUS Status.ok.code die)) ∧
  (∀ (d : Dev) (die : Nat) (x : Dev), d.inService die = true → d.smithDead die = false → d.quench = none →
    d.fb SVC_CMD_STATUS.BUSY die = false →
    x = ((d.setF SVC_CMD.OP 4 die).setF SVC_CMD.TARGET 0 die).setB SVC_CMD_STATUS.DONE false die → x.standby die = true →
    d.Takes (.svcSmithSwitch die)
      (((x.smithFails die 8).setB SVC_CMD_STATUS.DONE true die).setF SVC_CMD_STATUS.STATUS Status.ok.code die)) ∧
  (∀ (d : Dev) (die op target : Nat) (x : Dev), op % 8 = 0 ∨ 4 < op % 8 → d.inService die = true → d.smithDead die = false →
    d.quench = none → d.fb SVC_CMD_STATUS.BUSY die = false →
    x = ((d.setF SVC_CMD.OP op die).setF SVC_CMD.TARGET target die).setB SVC_CMD_STATUS.DONE false die →
    d.Takes (.svcCmdUnsupported die op target)
      ((x.setB SVC_CMD_STATUS.DONE true die).setF SVC_CMD_STATUS.STATUS Status.unsupported.code die))

/-- The SPDM responder answers each request on its transport (R529 to R531); the codes are SPDM 1.2's, which the model presumes
(assumption 22), and a signature is a free value (assumption 3). -/
def Obligations.SpdmRequestsRun : Prop :=
  (∀ (d : Dev) (t : Path), d.spdmReady t = true →
    d.Takes (.spdmGetVersion t) (d.emit (.spdm t "VERSION" [(1, 1), (2, 0x1200)])) ∧
    d.Takes (.spdmGetCapabilities t) (d.emit (.spdm t "CAPABILITIES" [(4, 0x103D6)])) ∧
    d.Takes (.spdmNegotiateAlgorithms t) (d.emit (.spdm t "ALGORITHMS" [(4, 4), (4, 0x80), (4, 2), (2, 0x10), (2, 2)])) ∧
    d.Takes (.spdmGetDigests t) (d.emit (.spdm t "DIGESTS" [(1, 1), (48, chainDigest)])) ∧
    d.Takes (.spdmUnsupported t) (d.emit (.spdm t "ERROR UnsupportedRequest" []))) ∧
  (∀ (d : Dev) (t : Path) (off len n : Nat), d.spdmReady t = true → n = Nat.min len (Config.certLen 0 - off) →
    d.Takes (.spdmGetCertificate t 0 off len)
      (d.emit (.spdm t "CERTIFICATE" [(2, n), (2, Config.certLen 0 - off - n), (n, Config.certBytes 0 off n)]))) ∧
  (∀ (d : Dev) (t : Path) (slot off len nonce : Nat), d.spdmReady t = true → slot ≠ 0 →
    d.Takes (.spdmGetCertificate t slot off len) (d.emit (.spdm t "ERROR InvalidRequest" [])) ∧
    d.Takes (.spdmChallenge t slot nonce) (d.emit (.spdm t "ERROR InvalidRequest" []))) ∧
  (∀ (d : Dev) (t : Path) (nonce : Nat), d.spdmReady t = true →
    d.Takes (.spdmChallenge t 0 nonce) (d.tick.emit (.spdm t "CHALLENGE_AUTH" [(48, chainDigest), (96, d.freeVal % 2 ^ 768)])) ∧
    d.Takes (.spdmGetMeasurements t nonce) (d.tick.emit (.spdm t "MEASUREMENTS" (d.measurements ++ [(96, d.freeVal % 2 ^ 768)])))) ∧
  (∀ (d : Dev) (t : Path) (byOwner : Bool), d.spdmReady t = true → d.sec.sessions.length < 8 →
    d.Takes (.spdmKeyExchange t byOwner) (d.openSession t byOwner)) ∧
  (∀ (d : Dev) (t : Path) (id : Nat) (ok : Bool) (x : Session), d.sessionOn t id = some x →
    d.Takes (.spdmFinish t id ok) ((d.setSec fun c => { c with sessions := c.sessions.map fun y =>
      if y.id = id then { y with finished := true, management := x.byOwner && ok && d.sec.ownerHash.isSome } else y }).emit
        (.spdm t "FINISH_RSP" []))) ∧
  (∀ (d : Dev) (t : Path) (id : Nat) (x : Session), d.sessionOn t id = some x →
    d.Takes (.spdmEndSession t id) ((d.emit (.spdm t "END_SESSION_ACK" [])).endSession id 0))

/-- IDE_KM messages of a finished session on the port that they name, and cipher jobs (R532 to R536, R545). -/
def Obligations.KeyMessagesRun : Prop :=
  (∀ (d : Dev) (session die port : Nat) (t : Path), d.ideSession session die port = some t →
    d.Takes (.ideKmQuery session die port) (d.emit (.spdm t "QUERY_RESP"
      [p1 port, pB (d.ideHolds die port 0), pB (d.ideHolds die port 1), pB (d.fb FAB_PORT_STATUS.IDE_SECURE die port)])) ∧
    d.Takes (.ideKmGetkey session die port) (d.emit (.spdm t "ERROR" []))) ∧
  (∀ (d : Dev) (session die port stream set sub key : Nat) (t : Path) (x : Dev), d.ideSession session die port = some t → set < 2 → sub < 8 →
    d.writeKey (.ide die port set sub) 1 key = (x, true) →
    d.Takes (.ideKmKeyProg session die port stream set sub key)
      ((x.raise .SEC_IDE_KEY die [p1 port, p4 stream, p4 set, p1 0]).emit (.spdm t "KP_ACK" [p1 Status.ok.code]))) ∧
  (∀ (d : Dev) (session die port stream set : Nat) (t : Path) (x : Dev), d.ideSession session die port = some t →
    x = (d.raise .SEC_IDE_KEY die [p1 port, p4 stream, p4 set, p1 1]).setSec
      (fun x => { x with ideSets := tset x.ideSets (die, port) (set % 2) }) → x.ideHolds die port (set % 2) = false →
    d.Takes (.ideKmKSetGo session die port stream set) (x.emit (.spdm t "K_GOSTOP_ACK" [p1 port]))) ∧
  (∀ (d : Dev) (session die port stream set : Nat) (t : Path) (x y : Dev), d.ideSession session die port = some t →
    x = (d.raise .SEC_IDE_KEY die [p1 port, p4 stream, p4 set, p1 1]).setSec
      (fun x => { x with ideSets := tset x.ideSets (die, port) (set % 2) }) → x.ideHolds die port (set % 2) = true →
    y = x.setB FAB_PORT_STATUS.IDE_SECURE true die port →
    d.Takes (.ideKmKSetGo session die port stream set)
      ({ y with fab := { y.fab with insecure := y.fab.insecure.filter fun p => decide (p ≠ (die, port)) } }.emit
        (.spdm t "K_GOSTOP_ACK" [p1 port]))) ∧
  (∀ (d : Dev) (session die port stream : Nat) (t : Path) (x : Dev), d.ideSession session die port = some t →
    x = (d.raise .SEC_IDE_KEY die [p1 port, p4 stream, p4 (tgetD d.sec.ideSets (die, port) 0), p1 2]).eraseIde die port →
    (die, port) ∉ x.fab.insecure →
    d.Takes (.ideKmKSetStop session die port stream)
      ({ x with fab := { x.fab with insecure := x.fab.insecure ++ [(die, port)] } }.emit (.spdm t "K_GOSTOP_ACK" [p1 port]))) ∧
  (∀ (d : Dev) (die slot group : Nat) (ok : Bool), d.hasSlot die slot = true → d.rst.powered = true →
    d.Takes (.cipherJobStart die slot group none ok) (d.startJob (slotOf die slot) none)) ∧
  (∀ (d : Dev) (die slot group t : Nat) (ok : Bool), d.hasSlot die slot = true → d.rst.powered = true → tget d.sec.streams t = none →
    d.Takes (.cipherJobStart die slot group (some t) ok) (d.startJob (slotOf die slot) (some t))) ∧
  (∀ (d : Dev) (die slot group t job : Nat) (ok : Bool), d.hasSlot die slot = true → d.rst.powered = true → tget d.sec.streams t = some job →
    (ok = true → (d.cell (.package 7)).key = none) →
    d.Takes (.cipherJobStart die slot group (some t) ok) (d.contextFails (slotOf die slot) group t)) ∧
  (∀ (d : Dev) (j : CipherJob) (id : Nat) (x : Dev), (d.sec.jobs.find? fun y => decide (y.id = id)) = some j → (d.cell j.slot).gen = j.gen →
    x = d.setSec (fun c => { c with jobs := c.jobs.filter fun y => decide (y.id ≠ id), streams := c.streams.filter fun e => decide (e.2 ≠ id) }) →
    d.Takes (.cipherJobEnd id) ((x.setCell j.slot { d.cell j.slot with users := (d.cell j.slot).users - 1 }).emit (.cipherEnd id .ok)))

/-- The entropy source, the alarms, the reload of a key and the owner key (R528, R537, R541, R547 to R549); a source that SEC_POLICY
puts among the tampers trips as one. -/
def Obligations.AlarmsRun : Prop :=
  (∀ (d : Dev) (test : Nat), d.Takes (.drbgHealthFail test)
    (((d.setB SEC_DRBG_STATUS.HEALTHY false).incF SEC_DRBG_STATUS.FAILS).raiseB .SEC_DRBG_FAIL [p4 test])) ∧
  (∀ (d : Dev), d.Takes .drbgHealthPass (d.setB SEC_DRBG_STATUS.HEALTHY true)) ∧
  (∀ (d : Dev) (ns : Nat) (st : Straps), 50 ≤ ns → d.Takes (.tamperNAlarm ns st) (d.alarm SEC_ALARM_CAUSE.TAMPER_N 0 true st)) ∧
  (∀ (d : Dev) (st : Straps), d.Takes (.shieldMeshAlarm st) (d.alarm SEC_ALARM_CAUSE.MESH 1 true st)) ∧
  (∀ (d : Dev) (mv ns : Nat) (st : Straps), mv < 2800 ∨ 3800 < mv → 5 ≤ ns →
    d.Takes (.voltageAlarm 0 mv ns st) (d.alarm SEC_ALARM_CAUSE.VOLTAGE 2 (bit d.swg.cfg.secPolicy 1) st)) ∧
  (∀ (d : Dev) (die mv ns : Nat) (st : Straps), die ≠ 0 → d.isDie die = true →
    mv + 100 < d.f SVC_VDD.SETPOINT die ∨ d.f SVC_VDD.SETPOINT die + 100 < mv → 5 ≤ ns →
    d.Takes (.voltageAlarm die mv ns st) (d.alarm SEC_ALARM_CAUSE.VOLTAGE 2 (bit d.swg.cfg.secPolicy 1) st)) ∧
  (∀ (d : Dev) (off n : Nat) (st : Straps), 25 < off → 2 ≤ n →
    d.Takes (.clockAlarm off n st) (d.alarm SEC_ALARM_CAUSE.CLOCK 3 (bit d.swg.cfg.secPolicy 2) st)) ∧
  (∀ (d : Dev) (tj : Int) (st : Straps), 125 < tj ∨ tj < -40 →
    d.Takes (.temperatureAlarm tj st) (d.alarm SEC_ALARM_CAUSE.TEMPERATURE 4 (bit d.swg.cfg.secPolicy 3) st)) ∧
  (∀ (d : Dev) (q : Quench), d.sec.reload = true → d.quench = some q →
    d.Takes .keyReload ((d.setSec fun x => { x with reload := false }).loadSlot q.keySlot).qPump) ∧
  (∀ (d : Dev) (ok : Bool) (status : Nat), d.sec.reserveRetry = true → d.quenching = false →
    d.Takes (.reserveRetry ok status) (d.stageReserve ok status)) ∧
  (∀ (d : Dev) (key h : Nat) (x : Dev), d.mbReady .sideband = true → d.sec.ownerHash = none → d.aonLow = false →
    h = Config.hash384 key % 2 ^ 384 →
    x = ((d.setSec fun x => { x with ownerHash := some h }).setB SEC_STATUS.OWNER_LOCK true).setPkg (fun x => { x with ownerKeyId := h % 2 ^ 64 }) →
    d.Takes (.ownerKeyBurn key) ((x.tmpEraseSector (0x0F00000 / 4096)).tmpPut 0x0F00000 (leBytes 97 key)))

/-- The ROM, its recovery, the supervisor's checks and the Swage load: steps 2 to 4 of a start-up (R525, R526, R528, R550, R560 to R563). -/
def Obligations.StartupFirmwareRuns : Prop :=
  (∀ (d : Dev) (a b : Option Nat), d.atStep 2 = true → d.rst.straps.recovery = true → d.Takes (.startupRomVerify a b) (d.romRecovers 0)) ∧
  (∀ (d : Dev) (b : Option Nat) (w : FwSlot), d.atStep 2 = true → d.rst.straps.recovery = false → d.namedSlot = 0 → d.rst.fw[0]? = some w →
    w.ok = true → d.Takes (.startupRomVerify none b) (d.runSlot 0 none)) ∧
  (∀ (d : Dev) (b : Option Nat) (w : FwSlot), d.atStep 2 = true → d.rst.straps.recovery = false → d.namedSlot = 1 → d.rst.fw[1]? = some w →
    w.ok = true → d.Takes (.startupRomVerify b none) (d.runSlot 1 none)) ∧
  (∀ (d : Dev) (c : Nat) (w : FwSlot), d.atStep 2 = true → d.rst.straps.recovery = false → d.namedSlot = 0 → d.rst.fw[1]? = some w →
    w.ok = true → d.Takes (.startupRomVerify (some c) none) (d.runSlot 1 (some (0, c)))) ∧
  (∀ (d : Dev) (c e : Nat), d.atStep 2 = true → d.rst.straps.recovery = false → d.Takes (.startupRomVerify (some c) (some e)) (d.romRecovers 1)) ∧
  (∀ (d : Dev), d.inRecovery = true → d.Takes .romGetFwInfo (d.mbOk .sideband 0x0200 d.fwInfo)) ∧
  (∀ (d : Dev) (slot revision : Nat), d.inRecovery = true → slot < 2 →
    d.Takes (.romTransferFw slot revision true) ((d.setRst fun r => { r with
      fw := r.fw.set slot ⟨revision, true⟩, recovered := r.recovered.map fun x => (x.1, some slot) }).mbOk .sideband 0x0201 [])) ∧
  (∀ (d : Dev) (slot : Nat), d.inRecovery = true → slot < 2 →
    d.Takes (.romActivateFw slot) ((d.counterRecord magicFWSL [p1 slot]).mbOk .sideband 0x0202 [])) ∧
  (∀ (d : Dev) (slot revision : Nat) (v : Bool), d.inRecovery = true → 2 ≤ slot →
    d.Takes (.romTransferFw slot revision v) (d.mbReply .sideband 0x0201 .invalidSlot .ok []) ∧
    d.Takes (.romActivateFw slot) (d.mbReply .sideband 0x0202 .invalidSlot .ok [])) ∧
  (∀ (d : Dev) (die tripping : Nat), d.atStep 3 = true →
    d.Takes (.startupChecks (some die) tripping)
      (((d.setSec fun x => { x with tripping := tripping }).raiseB .SEC_BINDING_FAIL [p1 die]).stopAt 9)) ∧
  (∀ (d : Dev) (x : Dev), d.atStep 3 = true →
    x = ((d.setSec fun x => { x with tripping := 0 }).setB SEC_STATUS.BINDING_OK true).loadBlobs →
    x.fb SEC_STATUS.OWNER_LOCK = false → d.Takes (.startupChecks none 0) ((x.setB SWG_STATUS.NO_IMAGE true).stopAt 9)) ∧
  (∀ (d : Dev) (x : Dev), d.atStep 3 = true →
    x = ((d.setSec fun x => { x with tripping := 0 }).setB SEC_STATUS.BINDING_OK true).loadBlobs →
    x.fb SEC_STATUS.OWNER_LOCK = true → x.fb SEC_DRBG_STATUS.HEALTHY = true →
    d.Takes (.startupChecks none 0) (((x.drawInto 7 4).setPhase 2).endStart 3 4)) ∧
  (∀ (d : Dev) (sa sb : Bool) (bank ca cb : Nat) (ga gb : SwgCfg) (la lb : List Sect), d.atStep 4 = true →
    verifyImage ⟨d.pkg.part, d.pkg.ownerKeyId, sa, bank, none⟩ (d.copyRead 0) = (ca, ga, la) →
    verifyImage ⟨d.pkg.part, d.pkg.ownerKeyId, sb, bank, none⟩ (d.copyRead 1) = (cb, gb, lb) → ca = 0 → cb ≠ 0 ∨ gb.serial ≤ ga.serial →
    d.Takes (.swageLoad sa sb bank) (((((d.copyResult 0 ca).copyResult 1 cb).loadImage 0 ga la).setPhase 3).endStart 4 5)) ∧
  (∀ (d : Dev) (sa sb : Bool) (bank ca cb : Nat) (ga gb : SwgCfg) (la lb : List Sect), d.atStep 4 = true →
    verifyImage ⟨d.pkg.part, d.pkg.ownerKeyId, sa, bank, none⟩ (d.copyRead 0) = (ca, ga, la) →
    verifyImage ⟨d.pkg.part, d.pkg.ownerKeyId, sb, bank, none⟩ (d.copyRead 1) = (cb, gb, lb) → cb = 0 → ca ≠ 0 ∨ ga.serial < gb.serial →
    d.Takes (.swageLoad sa sb bank) (((((d.copyResult 0 ca).copyResult 1 cb).loadImage 1 gb lb).setPhase 3).endStart 4 5)) ∧
  (∀ (d : Dev) (sa sb : Bool) (bank ca cb : Nat) (ga gb : SwgCfg) (la lb : List Sect), d.atStep 4 = true →
    verifyImage ⟨d.pkg.part, d.pkg.ownerKeyId, sa, bank, none⟩ (d.copyRead 0) = (ca, ga, la) →
    verifyImage ⟨d.pkg.part, d.pkg.ownerKeyId, sb, bank, none⟩ (d.copyRead 1) = (cb, gb, lb) → ca ≠ 0 → cb ≠ 0 →
    d.Takes (.swageLoad sa sb bank)
      (((((d.copyResult 0 ca).copyResult 1 cb).setB SWG_STATUS.NO_IMAGE true).raiseB .SWAGE_NO_IMAGE [p1 ca, p1 cb]).stopAt 7))

/-- The dies, their population, the initial training and the tag store: steps 5 to 10 of a start-up (R30, R366, R367, R400, R560, R569, R600,
R601). -/
def Obligations.StartupDiesRun : Prop :=
  (∀ (d : Dev) (failed : List WireFault) (x : Dev), d.atStep 5 = true →
    x = d.forEach (failed.filter fun w => d.isDie w.die) (fun d w =>
      (d.keepOut RST_DIE_OUT.FENCE_WIRE w.die).raiseB .RST_FENCE_WIRE_FAIL [p1 w.die, pB (!w.trunk), p4 w.wire]) →
    d.Takes (.fenceWireTest failed) ((x.forEach (x.dies.filter fun die => x.retired 6 0 die) fun d die =>
      (d.keepOut RST_DIE_OUT.OTHER die).setF HCB_STATUS.HEALTH 2 die).endStart 5 6)) ∧
  (∀ (d : Dev) (die : Nat), d.atStep 6 = true → d.isDie die = true → d.keptOut die = false → die ∉ d.rst.enabled →
    d.Takes (.diePowerEnable die) ((d.setRst fun r => { r with enabled := r.enabled ++ [die] }).emit (.pin "DIE_PWR_EN" die 1))) ∧
  (∀ (d : Dev) (die : Nat) (bist : DieTest) (x : Dev), d.atStep 6 = true → die ∈ d.rst.enabled → die ∉ d.rst.good →
    (d.setRst fun r => { r with good := r.good ++ [die] }).testSlices die bist = (x, true) →
    d.Takes (.diePgAssert die bist) ((x.testDie die bist).dieJoins die).diesSettle) ∧
  (∀ (d : Dev) (die : Nat) (bist : DieTest) (x : Dev), d.atStep 6 = true → die ∈ d.rst.enabled → die ∉ d.rst.good →
    (d.setRst fun r => { r with good := r.good ++ [die] }).testSlices die bist = (x, false) →
    d.Takes (.diePgAssert die bist) ((x.dieStaysOut die 2).slagAdd 6 0 die 7).diesSettle) ∧
  (∀ (d : Dev) (die : Nat), d.atStep 6 = true → die ∈ d.rst.enabled → die ∉ d.rst.good →
    d.Takes (.diePgTimeout die) (d.tick.dieStaysOut die d.freeVal).diesSettle) ∧
  (∀ (d : Dev) (die ns : Nat), die ∈ d.rst.enabled → die ∈ d.rst.good → 1000 ≤ ns → d.quenching = false →
    d.Takes (.diePgFall die ns) ((d.tick.dieOut die d.freeVal false).lowerPower die)) ∧
  (∀ (d : Dev) (die ns : Nat), die ∈ d.rst.enabled → die ∈ d.rst.good → 1000 ≤ ns → d.quenching = true →
    d.Takes (.diePgFall die ns) (d.tick.dieOut die d.freeVal false)) ∧
  (∀ (d : Dev) (chans : List Population) (a : Population) (ps : List Population), d.atStep 8 = true → d.popOf chans = a :: ps →
    (∀ p ∈ a :: ps, d.swg.cfg.dram.popFails a p = []) →
    d.Takes (.spdPopulationCheck chans) ((d.forEach (a :: ps) fun d p => d.populate p).endStart 8 9)) ∧
  (∀ (d : Dev) (failed : List RankTrain) (repairs : List Repair) (x y z : Dev), d.atStep 9 = true →
    failed.any (fun t => d.inService t.die && (d.chan t.die t.chan).map.contains t.rank) = false →
    x = d.forEach (failed.filter fun t => d.inService t.die) (fun d t => d.rankFails t) →
    y = x.forEach x.diesUp (fun d die => d.forEach (List.range 4) fun d c => d.chanUp die c) →
    z = ((y.forEach (firstRepairs repairs) fun d r => d.repairRow r).replayEvents.setPhase 5).setF RHT_STATUS.PHASE 1 →
    d.Takes (.initialTrainingDone failed repairs) ((z.setRht fun r => { r with p0 := z.now }).endStart 9 10)) ∧
  (∀ (d : Dev) (x y : Dev), d.atStep 10 = true →
    x = d.forEach d.svc.owed (fun d o =>
      if (d.chan o.die o.chan).map.contains o.rank then d.rankSwitch o.die o.chan o.rank o.cause 0 else d) →
    y = (x.setSvc fun u => { u with owed := [] }).setCru (fun c => { c with tags := [], dram := [] }) →
    d.Takes .tagStoreInit ((y.forEach y.diesUp fun d die => d.setF HEAT_JRNL_PAGES.TOTAL (d.journalPages die) die).endStart 10 11))

/-- Mailbox commands that report on the device and set its events' policy, clock and alerts (R100, R101, R106, R516 to R519); the layouts of the
standard outputs are CXL 3.1's, which the model presumes (assumption 23), and what the manual gives no value is a free value (assumption 3). -/
def Obligations.MailboxDeviceCommandsRun : Prop :=
  (∀ (d x : Dev) (mb : Mb), d.mbTurn x → x.mbPasses mb (mbOpen 0x0001 0 0) →
    d.Takes (.identify mb) ((x.ticks 5).mbOk mb.path 0x0001 [x.open' 2 0, x.open' 2 1, x.open' 2 2, x.open' 2 3, x.open' 8 4,
      (1, if mb.path = .sideband then 12 else 15), (1, 3)])) ∧
  (∀ (d x : Dev) (mb : Mb), d.mbTurn x → x.mbPasses mb (mbOpen 0x0002 0 0) →
    x.mbox.background = none →
    d.Takes (.backgroundOperationStatus mb) (x.mbOk mb.path 0x0002 [(1, 0), (1, 0), (2, 0), (2, 0), (2, 0)])) ∧
  (∀ (d x : Dev) (mb : Mb) (pct : Nat), d.mbTurn x → x.mbPasses mb (mbOpen 0x0002 0 0) →
    x.mbox.background = some (.sanitize, pct) →
    d.Takes (.backgroundOperationStatus mb) (x.mbOk mb.path 0x0002 [(1, 1 + 2 * pct), (1, 0), (2, 0x4400), (2, 0), (2, 0)])) ∧
  (∀ (d x : Dev) (mb : Mb) (log : Nat) (rs : List (Nat × EvRec)) (ovf : Nat), d.mbTurn x → x.mbPasses mb (mbOpen 0x0100 1 1) →
    log < 4 →
    x.fb EVT_STATUS.PV_IN_SERVICE = true →
    rs = x.logRecords log →
    rs.length ≤ (pathLimit mb.path - 32) / 128 →
    ovf = x.f EVT_PV_OVF.COUNT 0 log →
    d.Takes (.getEventRecords mb log) (x.mbOk mb.path 0x0100 ([(1, b2n (decide (ovf ≠ 0))), (1, 0), (2, saturate 16 ovf), (8, tgetD x.evt.ovfFirst log 0),
      (8, if ovf = 0 then 0 else x.f EVT_PV_OVF_LAST.SEQ 0 log), (2, rs.length), (10, 0)] ++ (rs.map fun e => commonRecord e.1 e.2).flatten))) ∧
  (∀ (d x : Dev) (mb : Mb) (log : Nat) (handles : List Nat), d.mbTurn x → x.mbPasses mb (mbOpen 0x0101 6 65536) →
    log < 4 →
    d.Takes (.clearEventRecords mb log true handles) ((x.viewClear log fun e => decide (e.2.severity = log)).mbOk mb.path 0x0101 [])) ∧
  (∀ (d x : Dev) (mb : Mb) (log : Nat) (handles : List Nat), d.mbTurn x → x.mbPasses mb (mbOpen 0x0101 6 65536) →
    log < 4 →
    (∀ h ∈ handles, ∃ e ∈ x.logRecords log, e.1 = h) →
    d.Takes (.clearEventRecords mb log false handles) ((x.viewClear log fun e => handles.contains e.1).mbOk mb.path 0x0101 [])) ∧
  (∀ (d x : Dev) (mb : Mb), d.mbTurn x → x.mbPasses mb (mbOpen 0x0102 0 0) →
    d.Takes (.getEventInterruptPolicy mb) (x.mbOk mb.path 0x0102 ((List.range 4).map fun i => (1, if x.mbox.policy.getD i false then 1 + 16 * (i + 1) else 0)))) ∧
  (∀ (d x : Dev) (mb : Mb) (info warning failure fatal : Bool), d.mbTurn x → x.mbPasses mb (mbOpen 0x0103 4 4) →
    d.Takes (.setEventInterruptPolicy mb info warning failure fatal) ((x.setMbox fun m => { m with policy := [info, warning, failure, fatal] }).mbOk mb.path 0x0103 [])) ∧
  (∀ (d x : Dev) (mb : Mb), d.mbTurn x → x.mbPasses mb (mbOpen 0x0300 0 0) →
    d.Takes (.getTimestamp mb) (x.mbOk mb.path 0x0300 [(8, x.timestampNow)])) ∧
  (∀ (d x : Dev) (mb : Mb) (value : Nat), d.mbTurn x → x.mbPasses mb (mbOpen 0x0301 8 8) →
    d.Takes (.setTimestamp mb value) (((x.setMbox fun m => { m with timestamp := value % 2 ^ 64, timestampAt := x.now }).raiseB .EVT_TIME_MARKER
      [p8 (value % 2 ^ 64), p8 x.timestampNow]).mbOk mb.path 0x0301 [])) ∧
  (∀ (d x : Dev) (mb : Mb), d.mbTurn x → x.mbPasses mb (mbOpen 0x0400 0 0) →
    d.Takes (.getSupportedLogs mb) ((x.ticks 2).mbOk mb.path 0x0400 [(2, 2), (6, 0), (16, celUuid), (4, 4 * supportedOpcodes.length), x.open' 16 0, x.open' 4 1])) ∧
  (∀ (d x : Dev) (mb : Mb) (offset length : Nat), d.mbTurn x → x.mbPasses mb (mbOpen 0x0401 24 24) →
    length ≤ pathLimit mb.path →
    d.Takes (.getLog mb 1 offset length) (x.tick.mbOk mb.path 0x0401 [x.open' length 0])) ∧
  (∀ (d x : Dev) (mb : Mb) (offset length : Nat), d.mbTurn x → x.mbPasses mb (mbOpen 0x0401 24 24) →
    length ≤ pathLimit mb.path →
    offset + length ≤ 4 * supportedOpcodes.length →
    d.Takes (.getLog mb 0 offset length) ((x.ticks supportedOpcodes.length).mbOk mb.path 0x0401 ((((supportedOpcodes.zipIdx.map fun e =>
      leBytes 2 e.1 ++ leBytes 2 (x.open' 2 e.2).2).flatten.drop offset).take length).map fun b => (1, b.toNat)))) ∧
  (∀ (d x : Dev) (mb : Mb) (c : Nat), d.mbTurn x → x.mbPasses mb (mbOpen 0x4000 0 0) →
    c = (x.mbSpace mb.path).2 / 2 ^ 28 →
    d.Takes (.identifyMemoryDevice mb) ((x.ticks 9).mbOk mb.path 0x4000 [x.open' 16 0, (8, c), (8, 0), (8, c), (8, 0), x.open' 2 1, x.open' 2 2, x.open' 2 3, x.open' 2 4, (4, 0),
      (3, 4096), x.open' 2 5, x.open' 1 6, x.open' 1 7, x.open' 2 8])) ∧
  (∀ (d x : Dev) (mb : Mb), d.mbTurn x → x.mbPasses mb (mbOpen 0x4200 0 0) →
    x.mbox.alerts = [0, 0, 0] →
    d.Takes (.getHealthInfo mb) (x.mbOk mb.path 0x4200 [(1, x.healthStatus), (1, b2n (!x.fb ROOT_STATUS.MEM_ACTIVE)), (1, 0), (1, x.f SVC_LIFE.PERCENT),
      (2, fieldOf 16 x.hottest), (4, x.f FAB_DSC.COUNT), (4, 0), (4, saturate 32 x.correctedCount)])) ∧
  (∀ (d x : Dev) (mb : Mb), d.mbTurn x → x.mbPasses mb (mbOpen 0x4201 0 0) →
    x.mbox.alerts = [0, 0, 0] →
    d.Takes (.getAlertConfiguration mb) ((x.ticks 5).mbOk mb.path 0x4201 [(1, 0), (1, 0x13), x.open' 1 0, (1, 0), x.open' 2 1, x.open' 2 2, (2, 0), x.open' 2 3, x.open' 2 4, (2, 0)])) ∧
  (∀ (d x : Dev) (mb : Mb) (life temp ce : Nat), d.mbTurn x → x.mbPasses mb (mbOpen 0x4202 12 12) →
    d.Takes (.setAlertConfiguration mb 0x13 0x13 life temp ce) ((x.setMbox fun m => { m with alerts := [life, temp, ce] }).mbOk mb.path 0x4202 [])) ∧
  (∀ (d x : Dev) (mb : Mb), d.mbTurn x → x.mbPasses mb (mbOpen 0x4203 0 0) →
    d.Takes (.getShutdownState mb) (x.mbOk mb.path 0x4203 [(1, b2n (x.fb FAB_SHUTDOWN_STATE.DIRTY))]))

/-- Mailbox commands on firmware slots, the shutdown state, poison, Sanitize and Dynamic Capacity (R95, R103 to R109, R542, R561); a command
that shows its authority uses up its token first (R104). Two layouts are CXL 3.1's, which the model presumes (assumption 23). -/
def Obligations.MailboxMemoryCommandsRun : Prop :=
  (∀ (d x : Dev) (mb : Mb), d.mbTurn x → x.mbPasses mb (mbOpen 0x0200 0 0) →
    d.Takes (.getFwInfo mb) (x.mbOk mb.path 0x0200 x.fwInfo)) ∧
  (∀ (d x : Dev) (mb : Mb) (slot revision : Nat) (verifies : Bool), d.mbTurn x → x.mbPasses mb ⟨0x0201, true, true, false, 128, 32768⟩ →
    slot < 2 →
    (x.useAuth mb.auth).pkg.runningSlot ≠ some slot →
    d.Takes (.transferFw mb slot revision verifies) (((x.useAuth mb.auth).setRst fun r => { r with fw := r.fw.set slot ⟨revision, verifies⟩ }).mbOk mb.path 0x0201 [])) ∧
  (∀ (d x : Dev) (mb : Mb) (slot : Nat), d.mbTurn x → x.mbPasses mb ⟨0x0202, true, true, false, 2, 2⟩ →
    slot < 2 →
    d.Takes (.activateFw mb slot false) (((x.useAuth mb.auth).counterRecord magicFWSL [p1 slot]).mbOk mb.path 0x0202 [])) ∧
  (∀ (d x : Dev) (mb : Mb) (slot : Nat), d.mbTurn x → x.mbPasses mb ⟨0x0202, true, true, false, 2, 2⟩ →
    d.Takes (.activateFw mb slot true) ((x.useAuth mb.auth).mbReply mb.path 0x0202 .unsupported .ok [])) ∧
  (∀ (d x : Dev) (mb : Mb) (dirty : Bool), d.mbTurn x → x.mbPasses mb ⟨0x4204, true, true, false, 1, 1⟩ →
    d.Takes (.setShutdownState mb dirty) ((((x.useAuth mb.auth).setB FAB_SHUTDOWN_STATE.DIRTY dirty).saveCounters).mbOk mb.path 0x4204 [])) ∧
  (∀ (d x : Dev) (mb : Mb) (dpa lines a : Nat), d.mbTurn x → x.mbPasses mb (mbOpen 0x4300 16 16) →
    x.mbDpa mb.path dpa = some a →
    x.cru.poison = [] →
    x.mbox.poisonOvf = none →
    d.Takes (.getPoisonList mb dpa lines) (x.mbOk mb.path 0x4300 [(1, 0), (1, 0), (8, 0), (2, 0), (20, 0)])) ∧
  (∀ (d x : Dev) (mb : Mb) (dpa a : Nat), d.mbTurn x → x.mbPasses mb ⟨0x4301, true, false, false, 8, 8⟩ →
    (x.useAuth mb.auth).mbDpa mb.path dpa = some a →
    d.Takes (.injectPoison mb dpa) (((x.useAuth mb.auth).addPoison (slabOf a) (bitMask (a / 64 % 64))).mbOk mb.path 0x4301 [])) ∧
  (∀ (d x : Dev) (mb : Mb) (dpa a : Nat) (data : Line) (y : Dev) (r : Req), d.mbTurn x → x.mbPasses mb ⟨0x4302, true, false, false, 72, 72⟩ →
    y = x.useAuth mb.auth →
    y.mbDpa mb.path dpa = some a →
    y.unserved a = none →
    r = { rid := y.cru.nextRid, src := .gone, kind := .write, slab := slabOf a, sector := a / 64 % 64, data := data, be := fullMask,
          tag := 0, heat := 0, wait := .arrival, since := y.now } →
    d.Takes (.clearPoison mb dpa data) ((y.setCru fun c => { c with reqs := c.reqs ++ [r], nextRid := c.nextRid + 1 }).mbOk mb.path 0x4302 [])) ∧
  (∀ (d x : Dev) (mb : Mb) (y w z : Dev), d.mbTurn x → x.mbPasses mb ⟨0x4400, true, true, false, 0, 0⟩ →
    y = x.useAuth mb.auth →
    y.mbox.background = none →
    y.regionCfgs = [] →
    y.fb SEC_DRBG_STATUS.HEALTHY = true →
    y.aonLow = false →
    w = y.sanitizeStop.sanitizeKeys.sanitizeTags →
    z = (w.claimNext true true 0).getD w →
    d.Takes (.sanitize mb) ((z.tick.setMbox fun m => { m with background := some (.sanitize, 1 + z.freeVal % 99) }).mbReply mb.path 0x4400 .backgroundStarted .ok [])) ∧
  (∀ (d x : Dev) (mb : Mb) (first count : Nat), d.mbTurn x → x.mbPasses mb (mbOpen 0x4800 2 2) →
    x.fab.dcRegions = [] →
    d.Takes (.getDcConfiguration mb first count) (x.mbOk mb.path 0x4800 [(1, 0), (1, 0), (6, 0), (4, 4096), (4, 4096 - x.fab.extents.length), (4, 0), (4, 0)])) ∧
  (∀ (d x : Dev) (mb : Mb) (first count : Nat), d.mbTurn x → x.mbPasses mb (mbOpen 0x4801 8 8) →
    x.fab.extents = [] →
    d.Takes (.getDcExtentList mb first count) (x.tick.mbOk mb.path 0x4801 [(4, 0), (4, 0), x.open' 4 0, (4, 0)])) ∧
  (∀ (d x : Dev) (mb : Mb) (start size a : Nat) (e : Extent), d.mbTurn x → x.mbPasses mb (mbOpen 0x4802 8 65536) →
    x.mbDpa mb.path start = some a →
    x.extentAt a size 0 = some e →
    d.Takes (.addDcResponse mb start size) ((x.setExtent e 1).mbOk mb.path 0x4802 [])) ∧
  (∀ (d x : Dev) (mb : Mb) (start size a : Nat) (e : Extent), d.mbTurn x → x.mbPasses mb (mbOpen 0x4803 8 65536) →
    x.mbDpa mb.path start = some a →
    x.extentAt a size 1 = some e →
    d.Takes (.releaseDc mb start size) ((x.setExtent e 2).mbHold mb.path 0x4803)) ∧
  (∀ (d x : Dev) (mb : Mb) (opcode : Nat), d.mbTurn x → x.mbPasses mb ⟨opcode, false, false, decide (0xC000 ≤ opcode), 0, pathLimit mb.path⟩ →
    opcode ∉ supportedOpcodes →
    d.Takes (.unsupportedCommand mb opcode) (x.mbReply mb.path opcode .unsupported .unsupported []))

/-- Vendor mailbox commands on the quench, the ceiling, heats, cache modes and maintenance (R105, R110 to R114, R145, R148, R152, R177, R179, R217). -/
def Obligations.MailboxQuenchCommandsRun : Prop :=
  (∀ (d x : Dev) (mb : Mb) (mib : Nat) (update : Bool) (y : Dev), d.mbTurn x → x.mbPasses mb (mbMgmt 0xC000 8 8 true) →
    y = x.useAuth mb.auth →
    y.mbox.background = none →
    y.dryRefusal mib = none →
    d.Takes (.quenchTest mb mib update) (((y.dryStart mib update false).setMbox fun m => { m with background := some (.quenchTest, 0) }).mbReply mb.path 0xC000
      .backgroundStarted .ok [])) ∧
  (∀ (d x : Dev) (mb : Mb) (mib : Nat) (update : Bool) (y : Dev) (st : Status), d.mbTurn x → x.mbPasses mb (mbMgmt 0xC000 8 8 true) →
    y = x.useAuth mb.auth →
    y.mbox.background = none →
    y.dryRefusal mib = some st →
    d.Takes (.quenchTest mb mib update) (y.mbVendor mb.path 0xC000 st [])) ∧
  (∀ (d x : Dev) (mb : Mb) (y : Dev), d.mbTurn x → x.mbPasses mb (mbMgmt 0xC001 8 8 true) →
    y = x.useAuth mb.auth →
    y.poweredDown = false →
    y.quenching = false →
    y.heat.opened = true →
    d.Takes (.quenchNow mb 0x4E455551) (y.t0 5)) ∧
  (∀ (d x : Dev) (mb : Mb) (confirm : Nat), d.mbTurn x → x.mbPasses mb (mbMgmt 0xC001 8 8 true) →
    confirm ≠ 0x4E455551 →
    d.Takes (.quenchNow mb confirm) ((x.useAuth mb.auth).mbVendor mb.path 0xC001 .unsupported [])) ∧
  (∀ (d x : Dev) (mb : Mb) (c : Nat), d.mbTurn x → x.mbPasses mb (mbVend 0xC002 0) →
    c = x.f CEIL_C.C →
    d.Takes (.ceilingQuery mb) (x.mbVendor mb.path 0xC002 .ok [(8, c), (8, x.D), (8, x.f CEIL_C_ENERGY.VALUE), (8, x.f CEIL_C_MEDIA.VALUE),
      (8, x.f CEIL_C_TIME.VALUE), (8, x.f CEIL_C_CAP.VALUE),
      (4, b2n (decide (x.ceilState = 2)) + 2 * b2n (decide (c < x.D + x.hystOf c)) + 4 * b2n (x.fb CEIL_STATUS.DRY_RUNNING)),
      (4, x.f CEIL_E_BYTE.PJ), (4, x.f CEIL_DRY_R_MEAS.MBPS), (4, match x.dryAge with | some a => saturate 32 a | none => 0xFFFFFFFF)])) ∧
  (∀ (d x : Dev) (mb : Mb) (y : Dev), d.mbTurn x → x.mbPasses mb (mbMgmt 0xC003 8 8 true) →
    y = x.useAuth mb.auth →
    d.Takes (.heatControlRead mb) (y.mbVendor mb.path 0xC003 .ok [(8, y.openHeat), (4, y.f HEAT_CTRL.LENGTH_US), (4, y.f HEAT_SYNC_IGNORED.COUNT)])) ∧
  (∀ (d x : Dev) (mb : Mb) (len : Nat) (y z : Dev), d.mbTurn x → x.mbPasses mb (mbMgmt 0xC003 8 8 true) →
    y = x.useAuth mb.auth →
    y.mirrored = [] →
    50 ≤ len →
    len ≤ 1000000 →
    z = y.writeHeatCtrl len (y.fb HEAT_CTRL.SYNC_EN) (y.fb HEAT_CTRL.SYNC_OUT_EN) 0 →
    d.Takes (.heatControlSetLength mb len) (z.mbVendor mb.path 0xC003 .ok [(8, z.openHeat), (4, z.f HEAT_CTRL.LENGTH_US), (4, z.f HEAT_SYNC_IGNORED.COUNT)])) ∧
  (∀ (d x : Dev) (mb : Mb) (len : Nat) (y : Dev), d.mbTurn x → x.mbPasses mb (mbMgmt 0xC003 8 8 true) →
    y = x.useAuth mb.auth →
    y.mirrored ≠ [] ∨ len < 50 ∨ 1000000 < len →
    d.Takes (.heatControlSetLength mb len) (y.mbVendor mb.path 0xC003 .unsupported [])) ∧
  (∀ (d x : Dev) (mb : Mb) (y z : Dev), d.mbTurn x → x.mbPasses mb (mbMgmt 0xC003 8 8 true) →
    y = x.useAuth mb.auth →
    z = y.boundary →
    d.Takes (.heatControlCloseNow mb) (z.mbVendor mb.path 0xC003 .ok [(8, z.openHeat), (4, z.f HEAT_CTRL.LENGTH_US), (4, z.f HEAT_SYNC_IGNORED.COUNT)])) ∧
  (∀ (d x : Dev) (mb : Mb) (mode : Nat) (y z : Dev), d.mbTurn x → x.mbPasses mb (mbMgmt 0xC004 8 8 true) →
    y = x.useAuth mb.auth →
    mode ≤ 2 →
    y.modeRequest mode = (z, .ok) →
    d.Takes (.cacheMode mb mode) (z.mbVendor mb.path 0xC004 .ok z.modeOut)) ∧
  (∀ (d x : Dev) (mb : Mb) (mode : Nat) (y z : Dev) (st : Status), d.mbTurn x → x.mbPasses mb (mbMgmt 0xC004 8 8 true) →
    y = x.useAuth mb.auth →
    mode ≤ 2 →
    y.modeRequest mode = (z, st) →
    st ≠ .ok →
    d.Takes (.cacheMode mb mode) (z.mbVendor mb.path 0xC004 st [])) ∧
  (∀ (d x : Dev) (mb : Mb) (y : Dev), d.mbTurn x → x.mbPasses mb (mbMgmt 0xC004 8 8 true) →
    y = x.useAuth mb.auth →
    d.Takes (.cacheModeQuery mb) (y.mbVendor mb.path 0xC004 .ok [(1, y.f CRUC_MODE.CURRENT), (1, y.f CRUC_MODE.TARGET), (1, y.gen), (5, 0),
      (8, (y.validTags.filter fun e => decide (e.2.mask ≠ 0)).length)])) ∧
  (∀ (d x : Dev) (mb : Mb) (dpa count op start size : Nat) (o : MaintOp), d.mbTurn x → x.mbPasses mb ⟨0xC005, false, false, true, 16, 16⟩ →
    x.mbSpace mb.path = (start, size) →
    dpa % 4096 = 0 →
    1 ≤ count →
    count ≤ 65536 →
    maintOpOf op = some o →
    d.Takes (.maintByAddr mb dpa count op false) ((x.addMaint .mailbox ((start + dpa) / 4096) count o false none (start / 4096) ((start + size) / 4096)).mbHold mb.path 0xC005)) ∧
  (∀ (d x : Dev) (mb : Mb) (dpa count op start size : Nat) (o : MaintOp) (y : Dev), d.mbTurn x → x.mbPasses mb ⟨0xC005, true, false, true, 16, 16⟩ →
    y = x.useAuth mb.auth →
    y.mbSpace mb.path = (start, size) →
    dpa % 4096 = 0 →
    1 ≤ count →
    count ≤ 65536 →
    maintOpOf op = some o →
    d.Takes (.maintByAddr mb dpa count op true) ((y.addMaint .mailbox ((start + dpa) / 4096) count o true none (start / 4096) ((start + size) / 4096)).mbHold mb.path 0xC005))

/-- Vendor mailbox commands on energy, learning cycles, the leaf logs, pools, partial images, resets and the Weld (R66 to R70, R110 to R114, R454,
R455, R459, R512, R521, R557), and the ends of the commands that go on running (R101, R108, R109). -/
def Obligations.MailboxServiceCommandsRun : Prop :=
  (∀ (d x : Dev) (mb : Mb), d.mbTurn x → x.mbPasses mb (mbVend 0xC006 0) →
    d.Takes (.energyStatus mb) (x.mbVendor mb.path 0xC006 .ok ([(4, saturate 32 (x.eUsable [])), (1, x.strings.length), (11, 0)] ++ (x.strings.map x.stringEntry).flatten))) ∧
  (∀ (d x : Dev) (mb : Mb) (string : Nat) (y : Dev), d.mbTurn x → x.mbPasses mb (mbMgmt 0xC007 8 8 true) →
    y = x.useAuth mb.auth →
    y.mayLearn string = true →
    d.Takes (.batteryLearnSchedule mb string) ((y.schedule' string 0).mbVendor mb.path 0xC007 .ok [])) ∧
  (∀ (d x : Dev) (mb : Mb) (string : Nat) (y : Dev), d.mbTurn x → x.mbPasses mb (mbMgmt 0xC007 8 8 true) →
    y = x.useAuth mb.auth →
    y.mayLearn string = true →
    d.Takes (.batteryLearnCancel mb string) ((y.cancelLearn string).mbVendor mb.path 0xC007 .ok [])) ∧
  (∀ (d x : Dev) (mb : Mb) (string : Nat) (y : Dev), d.mbTurn x → x.mbPasses mb (mbMgmt 0xC007 8 8 true) →
    y = x.useAuth mb.auth →
    y.mayLearn string = false →
    d.Takes (.batteryLearnSchedule mb string) (y.mbVendor mb.path 0xC007 .unsupported [])) ∧
  (∀ (d x : Dev) (mb : Mb) (leaf k max start n : Nat) (rs : List EvRec), d.mbTurn x → x.mbPasses mb (mbVend 0xC008 16) →
    x.leafNamed leaf = some k →
    1 ≤ max →
    max ≤ 1020 →
    n = (if mb.path = .sideband then Nat.min max 127 else max) →
    rs = ((sortBy (fun r : EvRec => r.seq) (x.leafRecords k)).filter fun r => decide (start ≤ r.seq)).take n →
    d.Takes (.logReadLeaf mb leaf max start) (x.mbVendor mb.path 0xC008 .ok ([(4, rs.length), (4, 0), (8, match rs.getLast? with | some r => r.seq + 1 | none => start),
      (8, x.droppedTotal k)] ++ rs.map fun r => (32, leValue r.bytes)))) ∧
  (∀ (d x : Dev) (mb : Mb) (leaf k : Nat) (y z : Dev) (r : EvRec) (w : Dev), d.mbTurn x → x.mbPasses mb (mbMgmt 0xC009 8 8 true) →
    y = x.useAuth mb.auth →
    y.leafNamed leaf = some k →
    y.evt.clearing = [] →
    y.evt.nextSeq < y.evt.reservation →
    y.aonLow = false →
    y.ownRecord .EVT_LOG_CLEARED [p1 k, p4 (y.leafRecords k).length, p4 (y.droppedTotal k), p1 (authCode mb.auth),
      p4 (if authCode mb.auth = 1 then y.f FAB_AUTH_COUNT.COUNT else 0)] = (r, z) →
    w = ((((z.tmpEraseSector (leafBase k / 4096)).leafPointer k 0).leafProgram k r).viewAdd r).setB EVT_LEAF_STATUS.CLEARING true 0 k →
    d.Takes (.logClearLeaf mb leaf) ({ w with
        evt := { w.evt with
          dropped := tdel w.evt.dropped k, fullSeen := w.evt.fullSeen.filter fun x => decide (x ≠ k), clearing := tset w.evt.clearing k 1 } }.mbVendor
            mb.path 0xC009 .ok [])) ∧
  (∀ (d x : Dev) (mb : Mb) (die : Nat), d.mbTurn x → x.mbPasses mb (mbVend 0xC00A 8) →
    x.isDie die = true →
    d.Takes (.poolStatus mb die) (x.mbVendor mb.path 0xC00A .ok (((List.range 4).map fun c =>
      [(4, x.freeBufs die c), (4, x.f POOL_ALLOC.COUNT die c), (4, x.f POOL_PENDING.COUNT die c), (4, x.f POOL_EMPTY.COUNT die c)]).flatten ++
      [(4, x.f POOL_QUARANTINE.MASK die), (8, 0)]))) ∧
  (∀ (d x : Dev) (mb : Mb) (image : List Byte) (ok : Bool), d.mbTurn x → x.mbPasses mb ⟨0xC00B, false, false, true, 128, 4096⟩ →
    d.Takes (.swageApplyPartial mb image ok) (x.doPartial mb.path image ok)) ∧
  (∀ (d x : Dev) (mb : Mb) (ms : Nat) (y : Dev), d.mbTurn x → x.mbPasses mb (mbMgmt 0xC00C 8 8 true) →
    y = x.useAuth mb.auth →
    y.rht.held = none →
    y.rht.restore = none →
    1 ≤ ms →
    ms ≤ 10000 →
    d.Takes (.resetNoQuench mb 0x54535752 ms) ((((y.setRst fun r => { r with window := some (y.now + 1000000 * ms) }).setB RST_STATUS.NQ_ARMED true).raiseB .RST_NQ_ARMED
      [p4 ms, p1 (authCode mb.auth)]).mbVendor mb.path 0xC00C .ok [])) ∧
  (∀ (d x : Dev) (mb : Mb), d.mbTurn x → x.mbPasses mb (mbVend 0xC00D 0) →
    d.Takes (.weldStatus mb) (x.mbVendor mb.path 0xC00D .ok ([(1, x.side), (1, x.weldLinks.length), (1, x.regionCfgs.length), (5, 0), (8, x.openHeat)] ++
      (x.weldLinks.map x.linkEntry).flatten ++ ((List.range x.regionCfgs.length).map x.regionEntry).flatten))) ∧
  (∀ (d : Dev) (pct : Nat) (x y : Dev), d.mbox.background = some (.sanitize, pct) →
    x = (d.sanitizeFlash.emits (d.sanitizeFlash.servingNs.map fun n => .nvmeCmd (d.sanitizeFlash.deallocName n) n 0
      (((d.sanitizeFlash.swg.cfg.backing.nss[n]?).map (·.slabs)).getD 0))).setCru (fun c => { c with poison := [], frameless := [] }) →
    y = x.forEach x.servingNs (fun d n => d.writeLabel n ((d.ns n).labelGen + 1) 1) →
    d.Takes .sanitizeComplete ((y.setMbox fun m => { m with background := none, poisonOvf := none }).emit (.backgroundDone 0x4400 .success .ok))) ∧
  (∀ (d : Dev) (r : Running) (e : Extent) (x y : Dev), d.mbox.running = some r → r.opcode = 0x4803 →
    (d.fab.extents.find? fun e => decide (e.state = 2)) = some e → d.quenching = false →
    (d.cru.reqs.any fun q => inRange e.start e.size q.slab && q.notPassed) = false →
    x = (d.discardRange e.start e.size).onBacking e.start e.size d.deallocName →
    y = { x with fab := { x.fab with extents := x.fab.extents.filter fun u => decide (u ≠ e) } }.mbEnd .success .ok [] →
    d.Takes .releaseDcComplete (Dev.mbDrain y.mbox.held.length y)) ∧
  (∀ (d : Dev) (rs rz block host start size : Nat) (x : Dev), d.fab.dcRegions = [] → d.fab.extents = [] → d.quenching = false →
    (∃ i < 10, block = 2 ^ (21 + i)) → rs + rz ≤ d.swg.cfg.dram.dpaLimit → size ≠ 0 → start % block = 0 → size % block = 0 → rs ≤ start →
    start + size ≤ rs + rz → x = (d.discardRange start size).onBacking start size (fun _ => "Write Zeroes") →
    d.Takes (.initiateDcAdd rs rz block host start size)
      ((x.setFab fun f => { f with dcRegions := f.dcRegions ++ [⟨rs, rz, block⟩], extents := f.extents ++ [⟨start, size, host, 0⟩] }).emit
        (.dcOffer host start size)))

/-- Writes to the register map and to the HCB command register (R8, R35, R36, R154, R584, R587). -/
def Obligations.RegisterAccessesRun : Prop :=
  (∀ (d : Dev) (die port : Nat) (write : Bool) (offset width : Nat), goodAccess offset width = false →
    d.Takes (.bar2BadAccess die port write offset width) (d.emit (.unsupportedRequest die port write))) ∧
  (∀ (d : Dev) (bar2 : Bool) (offset width value : Nat), goodAccess offset width = false →
    d.Takes (.registerWrite bar2 offset width value) d) ∧
  (∀ (d : Dev) (bar2 : Bool) (offset width value : Nat) (blk : RegBlk) (a rel : Nat), goodAccess offset width = true →
    blockAt offset = some (blk, a, rel) → d.blockThere blk a = true →
    d.Takes (.registerWrite bar2 offset width value)
      (d.forEach (hitsAt blk rel (width / 8)) fun d h => d.writeHit bar2 a rel width value h)) ∧
  (∀ (d : Dev) (bar2 : Bool) (offset width value : Nat) (blk : RegBlk) (a rel : Nat), goodAccess offset width = true →
    blockAt offset = some (blk, a, rel) → d.blockThere blk a = false → d.Takes (.registerWrite bar2 offset width value) d) ∧
  (∀ (d : Dev) (bar2 discard : Bool) (h count op s : Nat) (ss : List Nat) (o : MaintOp) (x : Dev), d.blockThere .hcb h = true →
    d.fb HCB_CMD_STATUS.BUSY h = false → d.quenching = false → h ≠ bellowsId → bar2 = false ∨ discard = false →
    x = (((d.setF HCB_CMD.COUNT count h).setF HCB_CMD.OP op h).setB HCB_CMD.DISCARD discard h).setB HCB_CMD_STATUS.DONE false h →
    1 ≤ x.f HCB_CMD.COUNT h → x.f HCB_CMD.COUNT h ≤ 65536 → maintOpOf (x.f HCB_CMD.OP h) = some o → x.slicesUnder h = s :: ss →
    d.Takes (.hcbCmdGo bar2 h count op discard)
      (((x.setB HCB_CMD_STATUS.BUSY true h).setF HCB_CMD_STATUS.STATUS 0 h).forEach (s :: ss) fun d y =>
        d.addMaint (.hcb h y) (d.f HCB_CMD_DPA.SLAB h) (x.f HCB_CMD.COUNT h) o discard (some [y]) 0 (2 ^ 52))) ∧
  (∀ (d : Dev) (h count op : Nat) (x : Dev), d.blockThere .hcb h = true →
    d.fb HCB_CMD_STATUS.BUSY h = false → d.quenching = false → h ≠ bellowsId →
    x = (((d.setF HCB_CMD.COUNT count h).setF HCB_CMD.OP op h).setB HCB_CMD.DISCARD true h).setB HCB_CMD_STATUS.DONE false h →
    d.Takes (.hcbCmdGo true h count op true) (x.hcbEnd h .accessDenied)) ∧
  (∀ (d : Dev) (bar2 discard : Bool) (count op : Nat) (x : Dev), d.fb HCB_CMD_STATUS.BUSY bellowsId = false → d.quenching = false →
    d.blockThere .hcb bellowsId = true →
    x = (((d.setF HCB_CMD.COUNT count bellowsId).setF HCB_CMD.OP op bellowsId).setB HCB_CMD.DISCARD discard bellowsId).setB
      HCB_CMD_STATUS.DONE false bellowsId →
    d.Takes (.hcbCmdGo bar2 bellowsId count op discard) (x.hcbEnd bellowsId .unsupported))

/-- A mailbox command waits its turn while another goes on running, and a command of package scope, of a wrong size or without its authority
is answered with its refusal alone (R100, R101, R103 to R105). -/
def Obligations.MailboxTurns : Prop :=
  (∀ (d x : Dev) (mb : Mb), x = Dev.mbDrain d.mbox.held.length d → x.mbox.running.isSome = true →
    d.Takes (.quenchNow mb 0x4E455551) (x.setMbox fun m => { m with held := m.held ++ [.quenchNow mb 0x4E455551] }) ∧
    d.Takes (.getTimestamp mb) (x.setMbox fun m => { m with held := m.held ++ [.getTimestamp mb] })) ∧
  (∀ (d x : Dev) (mb : Mb) (dirty : Bool), d.mbTurn x → x.mbReady mb.path = true → pathPackage mb.path = false →
    d.Takes (.setShutdownState mb dirty) (x.mbReply mb.path 0x4204 .unsupported .unsupported []) ∧
    d.Takes (.sanitize mb) (x.mbReply mb.path 0x4400 .unsupported .unsupported [])) ∧
  (∀ (d x : Dev) (mb : Mb) (value : Nat), d.mbTurn x → x.mbReady mb.path = true → mb.size ≠ 8 →
    d.Takes (.setTimestamp mb value) (x.mbReply mb.path 0x0301 .invalidPayloadLength .lengthError [])) ∧
  (∀ (d x : Dev) (mb : Mb) (confirm reason : Nat) (path : Nat), d.mbTurn x → x.mbReady mb.path = true → pathPackage mb.path = true →
    mb.size = 8 → x.authReason mb.auth 0xC001 = some reason → path = (match mb.path with | .sideband => 1 | .port _ _ _ => 0) →
    d.Takes (.quenchNow mb confirm)
      ((x.tick.raiseR .FAB_AUTH_REFUSED [p2 0xC001, p4 path, p1 reason]).mbReply mb.path 0xC001 .success .accessDenied []))

/-- A step takes the command at the front of the queue: it is exec of that command on the block with the rest of the queue. -/
def Obligations.StepRunsFront : Prop :=
  ∀ (c : Instr) (d : Dev) (q : List Instr), step { dev := d, pending := c :: q } = exec c { dev := d, pending := q }

/-- With no command waiting the clock moves by 5 ns, and the mailbox commands that wait for the command processor run. That a block without
commands does so is the model's choice (assumptions 2 and 25). -/
def Obligations.IdleStepMovesTime : Prop :=
  ∀ (d : Dev), step { dev := d, pending := [] } =
    .next { dev := Dev.mbDrain d.mbox.held.length { d with now := d.now + 5 }, pending := [] }

/-- No command stops the block: each answers a next state, and leaves the queue as it is. -/
def Obligations.NoCommandStops : Prop :=
  ∀ (c : Instr) (s : State), ∃ t : State, exec c s = .next t ∧ t.pending = s.pending

/-- Every step takes one command from the front of the queue, adds none, and keeps the waiting commands well formed. -/
def Obligations.QueueInOrder : Prop :=
  ∀ (s t : State), step s = .next t → t.pending = s.pending.tail ∧ (s.queueWf = true → t.queueWf = true)

/-- What no step breaks, in any state: the medium of the Temper store keeps its canonical form and the register fields their widths, time and
the draws of free values only go on, nothing that has been sent is taken back, and the part stays the part. -/
def Obligations.StepLeads : Prop :=
  ∀ (s t : State), step s = .next t → s.dev.Leads t.dev

/-- Soundness is an invariant of every step. -/
def Obligations.StepKeepsSound : Prop :=
  ∀ (s t : State), s.dev.Sound → step s = .next t → t.dev.Sound

/-- The block right after reset is sound, with an empty queue, an erased Temper store, nothing sent, its fence closed and no quench; every
register field reads its reset value, a few of which are named. Where the manual gives a field no reset value the value is the model's choice
(assumption 26). -/
def Obligations.ResetIsSound : Prop :=
  State.reset.dev.Sound ∧ State.reset.pending = [] ∧ (∀ a, memGet State.reset.dev.tmp.mem a = 0xFF) ∧ State.reset.dev.out = [] ∧
    State.reset.dev.fence = true ∧ State.reset.dev.quenching = false ∧
    (∀ (r : Reg) (x : FieldRow), x ∈ r.rows → ∀ a b c : Nat, State.reset.dev.f x.fld a b c = x.reset) ∧
    (∀ die port, State.reset.dev.f FAB_PORT_CREDITS.REQ_FREE die port = 256 ∧ State.reset.dev.f FAB_PORT_CREDITS.RWD_FREE die port = 128) ∧
    State.reset.dev.f QNCH_TRIG_CTRL.MAIN_THRESH = 100 ∧ State.reset.dev.f CRUC_MODE.CURRENT = 0 ∧
    (∀ die chan, State.reset.dev.f CHAN_STATUS.STATE die chan = 0)

/-- The medium of the Temper store: a byte written reads back and no other changes, a range erased reads 0xFF and no other byte changes,
both keep the canonical form, and media that read alike are the same. -/
def Obligations.MediumReadsBack : Prop :=
  ∀ (m : List Host.Cell), Memory.wf m = true →
    (∀ (a b : Nat) (v : Byte), Memory.wf (memSet m a v) = true ∧ memGet (memSet m a v) b = if a = b then v else memGet m b) ∧
    (∀ (a n b : Nat), Memory.wf (memErase m a n) = true ∧ memGet (memErase m a n) b = if a ≤ b ∧ b < a + n then 0xFF else memGet m b) ∧
    (∀ n : List Host.Cell, Memory.wf n = true → (∀ a, memGet m a = memGet n a) → m = n)

/-- A write to the register map changes no read-only field but the count of ignored writes, no write-only field, no field that can be written
only until the image is sealed once it is, and nothing of the block but registers. -/
def Obligations.RegisterWritesKeepReadOnly : Prop :=
  ∀ (d : Dev) (bar2 : Bool) (offset width value : Nat), ∃ e : Dev, d.Takes (.registerWrite bar2 offset width value) e ∧
    { e with regs := d.regs } = d ∧
    ∀ (r : Reg) (x : FieldRow), x ∈ r.rows → x.fld ≠ ROOT_RWL_IGNORED.COUNT →
      x.access = .RO ∨ x.access = .WO ∨ (x.access = .RWL ∧ d.swg.sealed = true) → ∀ a b c : Nat, e.f x.fld a b c = d.f x.fld a b c

/-- The extension of a heat number carried on the Weld link against the own open heat, and its reach (R183): a heat within 2^31 - 1 of the own open heat comes back from
its low 32 bits, and a difference of 2^31 is no heat. -/
def Obligations.HeatNumbersExtend : Prop :=
  (∀ (d : Dev) (w x : Nat), x < 2 ^ 32 → (d.openHeat + x) % 2 ^ 32 = w →
    (x < 2 ^ 31 → d.extend w = some (d.openHeat + x)) ∧ (2 ^ 31 < x → 2 ^ 32 - x ≤ d.openHeat → d.extend w = some (d.openHeat - (2 ^ 32 - x))) ∧
    (x = 2 ^ 31 → d.extend w = none)) ∧
  (∀ (d : Dev) (h : Nat), h ≤ d.openHeat + (2 ^ 31 - 1) → d.openHeat ≤ h + (2 ^ 31 - 1) → d.extend (h % 2 ^ 32) = some h)

/-- An image that passes verification and carries a POOLS section fits its buffers in 24 MiB and no floor exceeds its class (R57). -/
def Obligations.PoolsSectionFits : Prop :=
  ∀ (v : VerifyIn) (rd : Nat → Nat → Nat) (c : SwgCfg) (ss : List Sect), verifyImage v rd = (0, c, ss) → (∃ s ∈ ss, s.ty = 7) →
    c.pools.count.getD 0 0 * 256 + c.pools.count.getD 1 0 * 4096 + c.pools.count.getD 2 0 * 16384 + c.pools.count.getD 3 0 * 65536 ≤ 25165824 ∧
    ∀ i < 4, c.pools.floor.getD i 0 ≤ c.pools.count.getD i 0

/-- A handle spells its die, its class and the offset of its buffer's first byte; the pool takes the handle of every buffer it has given out,
and takes no handle of another byte (R491). -/
def Obligations.HandlesNameFirstBytes : Prop :=
  (∀ (d : Dev) (k : BufKey), k.die < 16 → k.cls < 8 → d.classBase k.die k.cls + k.idx * classSize k.cls < 2 ^ 25 →
    bits (d.handle k) 28 4 = k.die ∧ bits (d.handle k) 25 3 = k.cls ∧
      bits (d.handle k) 0 25 = d.classBase k.die k.cls + k.idx * classSize k.cls) ∧
  (∀ (d : Dev) (k : BufKey) (b : Buf), d.classBase k.die k.cls + k.idx * classSize k.cls < 2 ^ 25 → k.idx < d.classCount k.die k.cls →
    (k.die = 0 ∧ k.cls = 1 ∨ k.die < 16 ∧ d.inService k.die = true ∧ k.die ≠ 0 ∧ k.cls < 4) → tget d.pool.bufs k = some b →
    d.checkHandle (d.handle k) = .ok k) ∧
  (∀ (d : Dev) (h : Nat) (k : BufKey), h < 2 ^ 32 → d.checkHandle h = .ok k → h = d.handle k)

/-- A device physical address of 52 bits is its slab, its sector and its byte; an address at or above DPA_LIMIT is not served (R71). -/
def Obligations.AddressParts : Prop :=
  (∀ a : Nat, a < 2 ^ 52 → a = slabOf a * 4096 + sectorOf a * 64 + a % 64 ∧ slabOf a < 2 ^ 40 ∧ sectorOf a < 64) ∧
  (∀ (d : Dev) (a : Nat), d.swg.cfg.dram.dpaLimit ≤ a → d.unserved a = some 0)

/-- An event record is 32 bytes, and the record that its bytes hold is the record (R505, R506). -/
def Obligations.RecordsReadBack : Prop :=
  ∀ r : EvRec, r.seq < 2 ^ 64 → r.code < 2 ^ 16 → r.source < 256 → r.severity < 16 → r.payload.length = 16 →
    r.bytes.length = 32 ∧ recOfBytes r.bytes = some r

end Statements
end

