-- ==== Sys2Proof/Laws/Leads.lean ====
section
/-! SUPPORT. What no operation of the block breaks (Leads, see Safety.lean): its parts, and the operations of Ops.lean. -/

namespace Sys2Proof.Machine

open Sys2Proof

theorem Dev.Leads.refl (a : Dev) : a.Leads a := ⟨id, id, Nat.le_refl _, Nat.le_refl _, List.prefix_rfl, rfl⟩

theorem Dev.Leads.trans {a b c : Dev} (h : a.Leads b) (k : b.Leads c) : a.Leads c :=
  ⟨k.mem ∘ h.mem, k.regs ∘ h.regs, Nat.le_trans h.time k.time, Nat.le_trans h.draws k.draws, h.sent.trans k.sent, k.part.trans h.part⟩

/-- A command runs: it answers a next state, the queue stays, and the block after it follows from the block before it. -/
def State.Runs (s : State) (o : Host.Outcome State Fault Refusal) : Prop := ∃ t, o = .next t ∧ t.pending = s.pending ∧ s.dev.Leads t.dev

theorem State.on_runs {s : State} {f : Dev → Dev} (h : ∀ d : Dev, d.Leads (f d)) : s.Runs (s.on f) := ⟨_, rfl, rfl, h s.dev⟩

/-- The parts of the block that Leads speaks of. -/
def Parts (a : Dev) (now free : Nat) (out : List Out) (regs : Tab FKey Nat) (part : Part) (mem : List Host.Cell) : Prop :=
  (Memory.wf a.tmp.mem = true → Memory.wf mem = true) ∧ (regsFit a.regs → regsFit regs) ∧ a.now ≤ now ∧ a.free ≤ free ∧ a.out <+: out ∧
    part = a.pkg.part

theorem Dev.leads_iff (a d : Dev) : a.Leads d ↔ Parts a d.now d.free d.out d.regs d.pkg.part d.tmp.mem :=
  ⟨fun h => ⟨h.1, h.2, h.3, h.4, h.5, h.6⟩, fun h => ⟨h.1, h.2.1, h.2.2.1, h.2.2.2.1, h.2.2.2.2.1, h.2.2.2.2.2⟩⟩

@[simp] theorem Dev.leads_mk (a : Dev) (now free : Nat) (out : List Out) (regs : Tab FKey Nat) (q f c : Bool) (pkg : PkgState) (swg : SwgState)
    (mbox : MboxState) (evt : EvtState) (tmp : TmpState) (pool : PoolState) (fab : FabState) (cru : CruState) (heat : HeatState)
    (ceil : CeilState) (back : BackState) (weld : WeldState) (rht : RhtState) (sec : SecState) (rst : RstState) (svc : SvcState)
    (chans : Tab (Nat × Nat) Chan) (ppr : List PprRow) (slag : List Slag) (qfl : QflState) (bell : BellState) (quench : Option Quench)
    (claim : Option Claim) (lastSlot : Option Nat) (pd : Bool) (pins : Tab (String × Nat) Nat) :
    a.Leads (Dev.mk now free out regs q f c pkg swg mbox evt tmp pool fab cru heat ceil back weld rht sec rst svc chans ppr slag qfl bell
      quench claim lastSlot pd pins) = Parts a now free out regs pkg.part tmp.mem :=
  propext (Dev.leads_iff _ _)

@[simp] theorem Dev.parts_self {a d : Dev} (h : a.Leads d) : Parts a d.now d.free d.out d.regs d.pkg.part d.tmp.mem := (Dev.leads_iff a d).1 h

@[simp] theorem Dev.leads_ite {a x y : Dev} {c : Prop} [Decidable c] (hx : a.Leads x) (hy : a.Leads y) : a.Leads (if c then x else y) := by
  split <;> assumption

@[simp] theorem Dev.leads_dite {a : Dev} {c : Prop} [Decidable c] {x : c → Dev} {y : ¬c → Dev} (hx : ∀ h, a.Leads (x h)) (hy : ∀ h, a.Leads (y h)) :
    a.Leads (if h : c then x h else y h) := by
  split
  · exact hx _
  · exact hy _

/-- Leads of an answer that may carry a block as its failure. -/
structure Dev.LeadsE {α : Type} (a : Dev) (x : Except Dev α) : Prop where
  of_error : ∀ {d}, x = .error d → a.Leads d

theorem Dev.leadsE_error {α : Type} {a d : Dev} (h : a.Leads d) : a.LeadsE (.error d : Except Dev α) :=
  ⟨fun hx => by cases hx; exact h⟩

@[simp] theorem Dev.leadsE_ok {α : Type} {a : Dev} (v : α) : a.LeadsE (.ok v : Except Dev α) :=
  ⟨fun hx => by cases hx⟩

/-- Leads of an answer that may be none. -/
structure Dev.LeadsO (a : Dev) (x : Option Dev) : Prop where
  of_some : ∀ {d}, x = some d → a.Leads d

theorem Dev.leadsO_some {a d : Dev} (h : a.Leads d) : a.LeadsO (some d) :=
  ⟨fun hx => by cases hx; exact h⟩

@[simp] theorem Dev.leadsO_none {a : Dev} : a.LeadsO none :=
  ⟨fun hx => by cases hx⟩

theorem Dev.leadsO_map {α : Type} {a : Dev} {o : Option α} {f : α → Dev} (h : ∀ x, a.Leads (f x)) : a.LeadsO (o.map f) :=
  ⟨fun hx => by obtain ⟨x, -, rfl⟩ := Option.map_eq_some_iff.1 hx; exact h x⟩

theorem Dev.leads_foldl {α β : Type} {a : Dev} (l : List α) (f : Dev × β → α → Dev × β) (x : Dev × β) (h : a.Leads x.1)
    (hf : ∀ y z, a.Leads y.1 → a.Leads (f y z).1) : a.Leads (l.foldl f x).1 := by
  induction l generalizing x with
  | nil => exact h
  | cons z l ih => exact ih _ (hf _ _ h)

theorem regsFit_tset {t : Tab FKey Nat} (h : regsFit t) {k : FKey} {v : Nat} (hv : v < 2 ^ k.fld.width) : regsFit (tset t k v) := by
  induction t with
  | nil => simpa [regsFit, tset] using hv
  | cons e t ih =>
    obtain ⟨k', v'⟩ := e
    have h := List.forall_mem_cons.1 h
    by_cases e : k' = k
    · subst e
      have h2 : regsFit ((k', v) :: t) := List.forall_mem_cons.2 ⟨hv, h.2⟩
      simpa [tset] using h2
    · have h2 : regsFit ((k', v') :: tset t k v) := List.forall_mem_cons.2 ⟨h.1, ih h.2⟩
      simpa [tset, e] using h2

@[simp] theorem Dev.setF_leads {a d : Dev} (F : Fld) (v i j k : Nat) (h : a.Leads d) : a.Leads (d.setF F v i j k) :=
  ⟨h.mem, fun w => regsFit_tset (h.regs w) (Nat.mod_lt _ (Nat.two_pow_pos _)), h.time, h.draws, h.sent, h.part⟩

@[simp] theorem Dev.emit_leads {a d : Dev} (o : Out) (h : a.Leads d) : a.Leads (d.emit o) :=
  ⟨h.mem, h.regs, h.time, h.draws, h.sent.trans (List.prefix_append _ _), h.part⟩

@[simp] theorem Dev.emits_leads {a d : Dev} (os : List Out) (h : a.Leads d) : a.Leads (d.emits os) :=
  ⟨h.mem, h.regs, h.time, h.draws, h.sent.trans (List.prefix_append _ _), h.part⟩

@[simp] theorem Dev.tick_leads {a d : Dev} (h : a.Leads d) : a.Leads d.tick :=
  ⟨h.mem, h.regs, h.time, Nat.le_succ_of_le h.draws, h.sent, h.part⟩

@[simp] theorem Dev.when_leads {a d : Dev} (c : Bool) (f : Dev → Dev) (h : a.Leads d) (hf : a.Leads d → a.Leads (f d)) : a.Leads (d.when c f) := by
  unfold Dev.when
  split
  · exact hf h
  · exact h

@[simp] theorem Dev.forEach_leads {α : Type} {a d : Dev} (l : List α) (f : Dev → α → Dev) (h : a.Leads d)
    (hf : ∀ d x, a.Leads d → a.Leads (f d x)) : a.Leads (d.forEach l f) := by
  unfold Dev.forEach
  induction l generalizing d with
  | nil => exact h
  | cons x l ih => exact ih (hf _ _ h)

@[simp] theorem Dev.setB_leads {a d : Dev} (F : Fld) (v : Bool) (i j k : Nat) (h : a.Leads d) : a.Leads (d.setB F v i j k) := by
  simp [Dev.setB, h]

@[simp] theorem Dev.addF_leads {a d : Dev} (F : Fld) (v i j k : Nat) (h : a.Leads d) : a.Leads (d.addF F v i j k) := by
  simp [Dev.addF, h]

@[simp] theorem Dev.incF_leads {a d : Dev} (F : Fld) (i j k : Nat) (h : a.Leads d) : a.Leads (d.incF F i j k) := by
  simp [Dev.incF, h]

@[simp] theorem Dev.setBucket_leads {a d : Dev} (c : Nat) (b : Bucket) (h : a.Leads d) : a.Leads (d.setBucket c b) := by
  simp [Dev.setBucket, h]

@[simp] theorem Dev.countDrop_leads {a d : Dev} (l c : Nat) (h : a.Leads d) : a.Leads (d.countDrop l c) := by
  simp [Dev.countDrop, h]

end Sys2Proof.Machine
end

