-- ==== Sys2Proof/Laws/LeadsPools.lean ====
section
/-! SUPPORT. What the pools never break (Leads), one lemma a function; each command runs (Runs), one lemma a command. -/

namespace Sys2Proof.Machine

open Sys2Proof

set_option linter.tactic.unusedName false
set_option linter.unusedTactic false
set_option linter.unreachableTactic false
set_option linter.unusedSimpArgs false
set_option linter.unusedVariables false

@[simp] theorem Dev.viewAdd_leads {init d : Dev} (r : EvRec) (h : init.Leads d) : init.Leads (Dev.viewAdd d r) := by
  unfold Dev.viewAdd
  repeat' first
    | with_reducible assumption
    | (intro v; refine (fun hv : init.Leads v => ?_) ?_; rotate_left; subst v)
    | (intro v; refine (fun hv : init.Leads v.1 => ?_) ?_; rotate_left; subst v)
    | (intro v; refine (fun hv : init.Leads v.2 => ?_) ?_; rotate_left; subst v)
    | intro _
    | (extract_lets -lift +onlyGivenNames w; revert w)
    | dsimp -zeta -zetaDelta only
    | with_reducible apply Dev.setF_leads
    | with_reducible apply Dev.emit_leads
    | with_reducible apply Dev.when_leads
    | with_reducible apply Dev.incF_leads
    | (simp [*]; done)
    | (split <;> try (rename_i e; try obtain rfl := congrArg Prod.fst e; try obtain rfl := congrArg Prod.snd e))

@[simp] theorem Dev.leafOffer_leads {init d : Dev} (r : EvRec) (h : init.Leads d) : init.Leads (Dev.leafOffer d r).1 := by
  unfold Dev.leafOffer
  repeat' first
    | with_reducible assumption
    | (intro v; refine (fun hv : init.Leads v => ?_) ?_; rotate_left; subst v)
    | (intro v; refine (fun hv : init.Leads v.1 => ?_) ?_; rotate_left; subst v)
    | (intro v; refine (fun hv : init.Leads v.2 => ?_) ?_; rotate_left; subst v)
    | intro _
    | (extract_lets -lift +onlyGivenNames w; revert w)
    | dsimp -zeta -zetaDelta only
    | with_reducible apply Dev.countDrop_leads
    | (simp [*]; done)
    | (split <;> try (rename_i e; try obtain rfl := congrArg Prod.fst e; try obtain rfl := congrArg Prod.snd e))

@[simp] theorem Dev.number_leads {init d : Dev} (code : Nat) (source : Nat) (severity : Nat) (payload : List Byte) (h : init.Leads d) : init.Leads (Dev.number d code source severity payload).1 := by
  unfold Dev.number
  repeat' first
    | with_reducible assumption
    | (intro v; refine (fun hv : init.Leads v => ?_) ?_; rotate_left; subst v)
    | (intro v; refine (fun hv : init.Leads v.1 => ?_) ?_; rotate_left; subst v)
    | (intro v; refine (fun hv : init.Leads v.2 => ?_) ?_; rotate_left; subst v)
    | intro _
    | (extract_lets -lift +onlyGivenNames w; revert w)
    | dsimp -zeta -zetaDelta only
    | with_reducible apply Dev.setB_leads
    | with_reducible apply Dev.incF_leads
    | with_reducible apply Dev.setBucket_leads
    | with_reducible apply Dev.viewAdd_leads
    | with_reducible apply Dev.leafOffer_leads
    | (simp [*]; done)
    | (split <;> try (rename_i e; try obtain rfl := congrArg Prod.fst e; try obtain rfl := congrArg Prod.snd e))

@[simp] theorem Dev.occur_leads {init d : Dev} (code : Nat) (source : Nat) (severity : Nat) (payload : List Byte) (h : init.Leads d) : init.Leads (Dev.occur d code source severity payload).1 := by
  unfold Dev.occur
  repeat' first
    | with_reducible assumption
    | (intro v; refine (fun hv : init.Leads v => ?_) ?_; rotate_left; subst v)
    | (intro v; refine (fun hv : init.Leads v.1 => ?_) ?_; rotate_left; subst v)
    | (intro v; refine (fun hv : init.Leads v.2 => ?_) ?_; rotate_left; subst v)
    | intro _
    | (extract_lets -lift +onlyGivenNames w; revert w)
    | dsimp -zeta -zetaDelta only
    | with_reducible apply Dev.incF_leads
    | with_reducible apply Dev.setBucket_leads
    | with_reducible apply Dev.number_leads
    | (simp [*]; done)
    | (split <;> try (rename_i e; try obtain rfl := congrArg Prod.fst e; try obtain rfl := congrArg Prod.snd e))

@[simp] theorem Dev.raise_leads {init d : Dev} (e : Ev) (source : Nat) (payload : Fields) (h : init.Leads d) : init.Leads (Dev.raise d e source payload) := by
  unfold Dev.raise
  repeat' first
    | with_reducible assumption
    | (intro v; refine (fun hv : init.Leads v => ?_) ?_; rotate_left; subst v)
    | (intro v; refine (fun hv : init.Leads v.1 => ?_) ?_; rotate_left; subst v)
    | (intro v; refine (fun hv : init.Leads v.2 => ?_) ?_; rotate_left; subst v)
    | intro _
    | (extract_lets -lift +onlyGivenNames w; revert w)
    | dsimp -zeta -zetaDelta only
    | with_reducible apply Dev.occur_leads
    | (simp [*]; done)
    | (split <;> try (rename_i e; try obtain rfl := congrArg Prod.fst e; try obtain rfl := congrArg Prod.snd e))

@[simp] theorem Dev.raiseB_leads {init d : Dev} (e : Ev) (payload : Fields) (h : init.Leads d) : init.Leads (Dev.raiseB d e payload) := by
  simp [Dev.raiseB, h]

@[simp] theorem Dev.raiseR_leads {init d : Dev} (e : Ev) (payload : Fields) (h : init.Leads d) : init.Leads (Dev.raiseR d e payload) := by
  simp [Dev.raiseR, h]

@[simp] theorem Dev.violation_leads {init d : Dev} (die : Nat) (r : Nat) (h : init.Leads d) : init.Leads (Dev.violation d die r) := by
  unfold Dev.violation
  repeat' first
    | with_reducible assumption
    | (intro v; refine (fun hv : init.Leads v => ?_) ?_; rotate_left; subst v)
    | (intro v; refine (fun hv : init.Leads v.1 => ?_) ?_; rotate_left; subst v)
    | (intro v; refine (fun hv : init.Leads v.2 => ?_) ?_; rotate_left; subst v)
    | intro _
    | (extract_lets -lift +onlyGivenNames w; revert w)
    | dsimp -zeta -zetaDelta only
    | with_reducible apply Dev.setF_leads
    | with_reducible apply Dev.incF_leads
    | with_reducible apply Dev.raise_leads
    | (simp [*]; done)
    | (split <;> try (rename_i e; try obtain rfl := congrArg Prod.fst e; try obtain rfl := congrArg Prod.snd e))

@[simp] theorem Dev.badHandle_leads {init d : Dev} (die : Nat) (r : Nat) (srcDie : Nat) (handle : Nat) (check : Nat) (h : init.Leads d) : init.Leads (Dev.badHandle d die r srcDie handle check) := by
  simp [Dev.badHandle, h]

@[simp] theorem Dev.poolDone_leads {init d : Dev} (die : Nat) (r : Nat) (srcDie : Nat) (st : Status) (handle : Nat) (h : init.Leads d) : init.Leads (Dev.poolDone d die r srcDie st handle) := by
  unfold Dev.poolDone
  repeat' first
    | with_reducible assumption
    | (intro v; refine (fun hv : init.Leads v => ?_) ?_; rotate_left; subst v)
    | (intro v; refine (fun hv : init.Leads v.1 => ?_) ?_; rotate_left; subst v)
    | (intro v; refine (fun hv : init.Leads v.2 => ?_) ?_; rotate_left; subst v)
    | intro _
    | (extract_lets -lift +onlyGivenNames w; revert w)
    | dsimp -zeta -zetaDelta only
    | with_reducible apply Dev.setF_leads
    | with_reducible apply Dev.emit_leads
    | with_reducible apply Dev.setB_leads
    | (simp [*]; done)
    | (split <;> try (rename_i e; try obtain rfl := congrArg Prod.fst e; try obtain rfl := congrArg Prod.snd e))

@[simp] theorem Dev.arbiterPast_leads {init d : Dev} (die : Nat) (c : Nat) (r : Nat) (h : init.Leads d) : init.Leads (Dev.arbiterPast d die c r) := by
  simp [Dev.arbiterPast, h]

@[simp] theorem Dev.allocAt_leads {init d : Dev} (die : Nat) (r : Nat) (srcDie : Nat) (c : Nat) (noFallback : Bool) (h : init.Leads d) : init.Leads (Dev.allocAt d die r srcDie c noFallback) := by
  unfold Dev.allocAt
  repeat' first
    | with_reducible assumption
    | (intro v; refine (fun hv : init.Leads v => ?_) ?_; rotate_left; subst v)
    | (intro v; refine (fun hv : init.Leads v.1 => ?_) ?_; rotate_left; subst v)
    | (intro v; refine (fun hv : init.Leads v.2 => ?_) ?_; rotate_left; subst v)
    | intro _
    | (extract_lets -lift +onlyGivenNames w; revert w)
    | dsimp -zeta -zetaDelta only
    | with_reducible apply Dev.setF_leads
    | with_reducible apply Dev.incF_leads
    | with_reducible apply Dev.raise_leads
    | with_reducible apply Dev.poolDone_leads
    | with_reducible apply Dev.arbiterPast_leads
    | (simp [*]; done)
    | (split <;> try (rename_i e; try obtain rfl := congrArg Prod.fst e; try obtain rfl := congrArg Prod.snd e))

@[simp] theorem Dev.allocBellows_leads {init d : Dev} (client : Nat) (h : init.Leads d) : init.Leads (Dev.allocBellows d client) := by
  unfold Dev.allocBellows
  repeat' first
    | with_reducible assumption
    | (intro v; refine (fun hv : init.Leads v => ?_) ?_; rotate_left; subst v)
    | (intro v; refine (fun hv : init.Leads v.1 => ?_) ?_; rotate_left; subst v)
    | (intro v; refine (fun hv : init.Leads v.2 => ?_) ?_; rotate_left; subst v)
    | intro _
    | (extract_lets -lift +onlyGivenNames w; revert w)
    | dsimp -zeta -zetaDelta only
    | with_reducible apply Dev.raiseB_leads
    | with_reducible apply Dev.poolDone_leads
    | (simp [*]; done)
    | (split <;> try (rename_i e; try obtain rfl := congrArg Prod.fst e; try obtain rfl := congrArg Prod.snd e))

@[simp] theorem Dev.poolCmd_leads {init d : Dev} (die : Nat) (r : Nat) (srcDie : Nat) (op : Nat) (handle : Nat) (h : init.Leads d) : init.Leads (Dev.poolCmd d die r srcDie op handle) := by
  unfold Dev.poolCmd
  repeat' first
    | with_reducible assumption
    | (intro v; refine (fun hv : init.Leads v => ?_) ?_; rotate_left; subst v)
    | (intro v; refine (fun hv : init.Leads v.1 => ?_) ?_; rotate_left; subst v)
    | (intro v; refine (fun hv : init.Leads v.2 => ?_) ?_; rotate_left; subst v)
    | intro _
    | (extract_lets -lift +onlyGivenNames w; revert w)
    | dsimp -zeta -zetaDelta only
    | with_reducible apply Dev.setF_leads
    | (simp [*]; done)
    | (split <;> try (rename_i e; try obtain rfl := congrArg Prod.fst e; try obtain rfl := congrArg Prod.snd e))

@[simp] theorem Dev.setBuf_leads {init d : Dev} (k : BufKey) (b : Buf) (h : init.Leads d) : init.Leads (Dev.setBuf d k b) := by
  simp [Dev.setBuf, h]

@[simp] theorem Dev.dropBuf_leads {init d : Dev} (k : BufKey) (h : init.Leads d) : init.Leads (Dev.dropBuf d k) := by
  simp [Dev.dropBuf, h]

@[simp] theorem Dev.refuseBuf_leads {init d : Dev} (die : Nat) (r : Nat) (srcDie : Nat) (handle : Nat) (b : Buf) (st : Status) (h : init.Leads d) : init.Leads (Dev.refuseBuf d die r srcDie handle b st) := by
  unfold Dev.refuseBuf
  repeat' first
    | with_reducible assumption
    | (intro v; refine (fun hv : init.Leads v => ?_) ?_; rotate_left; subst v)
    | (intro v; refine (fun hv : init.Leads v.1 => ?_) ?_; rotate_left; subst v)
    | (intro v; refine (fun hv : init.Leads v.2 => ?_) ?_; rotate_left; subst v)
    | intro _
    | (extract_lets -lift +onlyGivenNames w; revert w)
    | dsimp -zeta -zetaDelta only
    | with_reducible apply Dev.raise_leads
    | with_reducible apply Dev.violation_leads
    | with_reducible apply Dev.poolDone_leads
    | (simp [*]; done)
    | (split <;> try (rename_i e; try obtain rfl := congrArg Prod.fst e; try obtain rfl := congrArg Prod.snd e))

@[simp] theorem Dev.onBuf_leads {init d : Dev} (r : Nat) (srcDie : Nat) (handle : Nat) (op : Dev → Nat → BufKey → Buf → Dev) (h : init.Leads d) (hop : ∀ x0 x1 x2 x3, init.Leads x0 → init.Leads (op x0 x1 x2 x3)) : init.Leads (Dev.onBuf d r srcDie handle op) := by
  unfold Dev.onBuf
  repeat' first
    | with_reducible assumption
    | (intro v; refine (fun hv : init.Leads v => ?_) ?_; rotate_left; subst v)
    | (intro v; refine (fun hv : init.Leads v.1 => ?_) ?_; rotate_left; subst v)
    | (intro v; refine (fun hv : init.Leads v.2 => ?_) ?_; rotate_left; subst v)
    | intro _
    | (extract_lets -lift +onlyGivenNames w; revert w)
    | dsimp -zeta -zetaDelta only
    | with_reducible apply hop
    | with_reducible apply Dev.badHandle_leads
    | with_reducible apply Dev.poolDone_leads
    | with_reducible apply Dev.arbiterPast_leads
    | (simp [*]; done)
    | (split <;> try (rename_i e; try obtain rfl := congrArg Prod.fst e; try obtain rfl := congrArg Prod.snd e))

theorem execPoolAlloc_runs (die r srcDie cls : Nat) (noFallback : Bool) (s : State) : s.Runs (execPoolAlloc die r srcDie cls noFallback s) := by
  unfold execPoolAlloc
  refine State.on_runs fun init => ?_
  have h := Dev.Leads.refl init
  repeat' first
    | with_reducible assumption
    | (intro v; refine (fun hv : init.Leads v => ?_) ?_; rotate_left; subst v)
    | intro _
    | (extract_lets -lift +onlyGivenNames w; revert w)
    | with_reducible apply Dev.setF_leads
    | with_reducible apply Dev.setB_leads
    | with_reducible apply Dev.allocAt_leads
    | with_reducible apply Dev.allocBellows_leads
    | (simp [*]; done)
    | split

theorem execPoolAllocFallback_runs (die : Nat) (s : State) : s.Runs (execPoolAllocFallback die s) := by
  unfold execPoolAllocFallback
  refine State.on_runs fun init => ?_
  have h := Dev.Leads.refl init
  repeat' first
    | with_reducible assumption
    | (intro v; refine (fun hv : init.Leads v => ?_) ?_; rotate_left; subst v)
    | intro _
    | (extract_lets -lift +onlyGivenNames w; revert w)
    | with_reducible apply Dev.allocAt_leads
    | (simp [*]; done)
    | split

theorem execPoolFree_runs (r srcDie handle : Nat) (s : State) : s.Runs (execPoolFree r srcDie handle s) := by
  unfold execPoolFree
  refine State.on_runs fun init => ?_
  have h := Dev.Leads.refl init
  repeat' first
    | with_reducible assumption
    | intro _
    | with_reducible apply Dev.poolDone_leads
    | with_reducible apply Dev.poolCmd_leads
    | with_reducible apply Dev.setBuf_leads
    | with_reducible apply Dev.dropBuf_leads
    | with_reducible apply Dev.refuseBuf_leads
    | with_reducible apply Dev.onBuf_leads
    | (simp [*]; done)
    | split

theorem execPoolShare_runs (r srcDie handle : Nat) (s : State) : s.Runs (execPoolShare r srcDie handle s) := by
  unfold execPoolShare
  refine State.on_runs fun init => ?_
  have h := Dev.Leads.refl init
  repeat' first
    | with_reducible assumption
    | intro _
    | with_reducible apply Dev.poolDone_leads
    | with_reducible apply Dev.poolCmd_leads
    | with_reducible apply Dev.setBuf_leads
    | with_reducible apply Dev.onBuf_leads
    | (simp [*]; done)
    | split

theorem execPoolRelease_runs (r srcDie handle : Nat) (s : State) : s.Runs (execPoolRelease r srcDie handle s) := by
  unfold execPoolRelease
  refine State.on_runs fun init => ?_
  have h := Dev.Leads.refl init
  repeat' first
    | with_reducible assumption
    | intro _
    | with_reducible apply Dev.poolDone_leads
    | with_reducible apply Dev.poolCmd_leads
    | with_reducible apply Dev.setBuf_leads
    | with_reducible apply Dev.dropBuf_leads
    | with_reducible apply Dev.refuseBuf_leads
    | with_reducible apply Dev.onBuf_leads
    | (simp [*]; done)
    | split

theorem execPoolHandoff_runs (r srcDie handle newReq newDie : Nat) (s : State) : s.Runs (execPoolHandoff r srcDie handle newReq newDie s) := by
  unfold execPoolHandoff
  refine State.on_runs fun init => ?_
  have h := Dev.Leads.refl init
  repeat' first
    | with_reducible assumption
    | intro _
    | with_reducible apply Dev.poolDone_leads
    | with_reducible apply Dev.poolCmd_leads
    | with_reducible apply Dev.setBuf_leads
    | with_reducible apply Dev.refuseBuf_leads
    | with_reducible apply Dev.onBuf_leads
    | (simp [*]; done)
    | split

theorem execPoolCmdUnsupported_runs (die op : Nat) (s : State) : s.Runs (execPoolCmdUnsupported die op s) := by
  unfold execPoolCmdUnsupported
  refine State.on_runs fun init => ?_
  have h := Dev.Leads.refl init
  repeat' first
    | with_reducible assumption
    | intro _
    | with_reducible apply Dev.setF_leads
    | with_reducible apply Dev.poolDone_leads
    | (simp [*]; done)
    | split

theorem execPoolQuarantineRelease_runs (die mask : Nat) (s : State) : s.Runs (execPoolQuarantineRelease die mask s) := by
  unfold execPoolQuarantineRelease
  refine State.on_runs fun init => ?_
  have h := Dev.Leads.refl init
  repeat' first
    | with_reducible assumption
    | (intro v; refine (fun hv : init.Leads v => ?_) ?_; rotate_left; subst v)
    | intro _
    | (extract_lets -lift +onlyGivenNames w; revert w)
    | with_reducible apply Dev.setF_leads
    | with_reducible apply Dev.forEach_leads
    | with_reducible apply Dev.raise_leads
    | (simp [*]; done)
    | split

end Sys2Proof.Machine
end

