-- ==== Sys2Proof/Laws/Memory.lean ====
section
/-! SUPPORT. The laws of the Temper store's medium: a read after a write, and the canonical form that every memory operation keeps. -/

namespace Sys2Proof.Machine

open Sys2Proof

/-- The canonical form as a property of the list: no erased byte is listed and the addresses rise strictly. -/
theorem Memory.wf_iff (m : List Host.Cell) :
    Memory.wf m = true ↔ (∀ c ∈ m, c.2 ≠ erasedByte) ∧ m.Pairwise (fun x y => x.1 < y.1) := by
  induction m with
  | nil => simp [Memory.wf]
  | cons c m ih =>
    obtain ⟨a, b⟩ := c
    cases m with
    | nil => simp [Memory.wf]
    | cons e m =>
      obtain ⟨a', b'⟩ := e
      simp only [Memory.wf, Bool.and_eq_true, decide_eq_true_eq, ih, List.forall_mem_cons, List.pairwise_cons]
      constructor
      · rintro ⟨⟨hb, ha⟩, ⟨hb', hm⟩, hr, hp⟩
        exact ⟨⟨hb, hb', hm⟩, ⟨ha, fun x hx => Nat.lt_trans ha (hr x hx)⟩, hr, hp⟩
      · rintro ⟨⟨hb, hb', hm⟩, ⟨ha, _⟩, hr, hp⟩
        exact ⟨⟨hb, ha⟩, ⟨hb', hm⟩, hr, hp⟩

theorem memSet_mem {m : List Host.Cell} {q : Nat} {v : Byte} {c : Host.Cell} (h : c ∈ memSet m q v) : c ∈ m ∨ (c = (q, v) ∧ v ≠ erasedByte) := by
  induction m with
  | nil => simp only [memSet] at h; split at h <;> simp_all
  | cons e m ih =>
    obtain ⟨a, b⟩ := e
    simp only [memSet] at h
    split at h
    · rcases List.mem_cons.1 h with rfl | h
      · simp
      · rcases ih h with h | h
        · exact Or.inl (List.mem_cons_of_mem _ h)
        · exact Or.inr h
    · split at h
      · split at h
        · exact Or.inl (List.mem_cons_of_mem _ h)
        · rename_i hv
          rcases List.mem_cons.1 h with rfl | h
          · exact Or.inr ⟨rfl, hv⟩
          · exact Or.inl (List.mem_cons_of_mem _ h)
      · split at h
        · exact Or.inl h
        · rename_i hv
          rcases List.mem_cons.1 h with rfl | h
          · exact Or.inr ⟨rfl, hv⟩
          · exact Or.inl h

/-- A written byte keeps the canonical form. -/
theorem memSet_wf {m : List Host.Cell} (q : Nat) (v : Byte) (h : Memory.wf m = true) : Memory.wf (memSet m q v) = true := by
  rw [Memory.wf_iff] at h ⊢
  obtain ⟨hb, hp⟩ := h
  refine ⟨fun c hc => ?_, ?_⟩
  · rcases memSet_mem hc with h | ⟨rfl, h⟩
    · exact hb c h
    · exact h
  · clear hb
    induction m with
    | nil => simp only [memSet]; split <;> simp
    | cons e m ih =>
      obtain ⟨a, b⟩ := e
      obtain ⟨hr, hp⟩ := List.pairwise_cons.1 hp
      simp only [memSet]
      split
      · rename_i ha
        refine List.pairwise_cons.2 ⟨fun x hx => ?_, ih hp⟩
        rcases memSet_mem hx with h | ⟨rfl, _⟩
        · exact hr x h
        · exact ha
      · split
        · rename_i ha
          subst ha
          split
          · exact hp
          · exact List.pairwise_cons.2 ⟨hr, hp⟩
        · split
          · exact List.pairwise_cons.2 ⟨hr, hp⟩
          · refine List.pairwise_cons.2 ⟨fun x hx => ?_, List.pairwise_cons.2 ⟨hr, hp⟩⟩
            rcases List.mem_cons.1 hx with rfl | hx
            · simp only; omega
            · have := hr x hx
              simp only at this ⊢
              omega

/-- An erased range keeps the canonical form. -/
theorem memErase_wf {m : List Host.Cell} (a n : Nat) (h : Memory.wf m = true) : Memory.wf (memErase m a n) = true := by
  rw [Memory.wf_iff] at h ⊢
  exact ⟨fun c hc => h.1 c (List.mem_filter.1 hc).1, h.2.filter _⟩

/-- Consecutive written bytes keep the canonical form. -/
theorem memPut_wf {m : List Host.Cell} (a : Nat) (bs : List Byte) (h : Memory.wf m = true) : Memory.wf (memPut m a bs) = true := by
  induction bs generalizing m a with
  | nil => exact h
  | cons b bs ih => exact ih _ (memSet_wf _ _ h)

/-- A read at an address below every listed one gives an erased byte. -/
theorem memGet_below {m : List Host.Cell} {q : Nat} (h : ∀ c ∈ m, q < c.1) : memGet m q = erasedByte := by
  induction m with
  | nil => rfl
  | cons e m ih =>
    obtain ⟨a, b⟩ := e
    have ha : q < a := h (a, b) (by simp)
    simp only [memGet, Nat.ne_of_gt ha, if_false]
    exact ih fun c hc => h c (List.mem_cons_of_mem _ hc)

/-- A read after a write gives the written byte at its address and the old byte elsewhere. -/
theorem memGet_memSet {m : List Host.Cell} (q : Nat) (v : Byte) (r : Nat) (h : Memory.wf m = true) :
    memGet (memSet m q v) r = if r = q then v else memGet m r := by
  have hp := ((Memory.wf_iff m).1 h).2
  clear h
  induction m with
  | nil =>
    simp only [memSet]
    split
    · rename_i hv
      simp [memGet, hv]
    · simp [memGet, eq_comm]
  | cons e m ih =>
    obtain ⟨a, b⟩ := e
    obtain ⟨hr, hp⟩ := List.pairwise_cons.1 hp
    simp only [memSet]
    split
    · rename_i ha
      simp only [memGet, ih hp]
      split
      · subst a
        rw [if_neg (by omega)]
      · rfl
    · split
      · rename_i hna ha
        subst ha
        split
        · rename_i hv
          by_cases hq : r = a
          · subst hq
            rw [memGet_below hr, if_pos rfl, hv]
          · simp [memGet, hq, Ne.symm hq]
        · by_cases hq : r = a
          · simp [memGet, hq]
          · simp [memGet, hq, Ne.symm hq]
      · rename_i hna ha
        split
        · rename_i hv
          by_cases hq : r = q
          · subst hq
            rw [if_pos rfl, hv]
            refine memGet_below fun c hc => ?_
            rcases List.mem_cons.1 hc with rfl | hc
            · simp only; omega
            · have := hr c hc
              simp only at this ⊢
              omega
          · rw [if_neg hq]
        · by_cases hq : r = q
          · subst hq
            simp [memGet]
          · simp only [memGet, Ne.symm hq, hq, if_false]

/-- A read in an erased range gives an erased byte, and the old byte elsewhere. -/
theorem memGet_memErase {m : List Host.Cell} (a n r : Nat) :
    memGet (memErase m a n) r = if a ≤ r ∧ r < a + n then erasedByte else memGet m r := by
  induction m with
  | nil => simp [memErase, memGet]
  | cons e m ih =>
    obtain ⟨b, v⟩ := e
    simp only [memErase, List.filter_cons] at ih ⊢
    split
    · rename_i hk
      simp only [decide_eq_true_eq] at hk
      simp only [memGet, ih]
      split
      · subst b
        rw [if_neg (by omega)]
      · rfl
    · rename_i hk
      simp only [decide_eq_true_eq] at hk
      simp only [memGet, ih]
      split
      · rfl
      · rw [if_neg (fun hh => by omega)]

end Sys2Proof.Machine
end

