-- ==== Sys2Proof/Laws/LeadsTemper.lean ====
section
/-! SUPPORT. What the Temper store never break (Leads), one lemma a function; each command runs (Runs), one lemma a command. -/

namespace Sys2Proof.Machine

open Sys2Proof

set_option linter.tactic.unusedName false
set_option linter.unusedTactic false
set_option linter.unreachableTactic false
set_option linter.unusedSimpArgs false
set_option linter.unusedVariables false

@[simp] theorem Dev.setTmp_leads {init d : Dev} (f : TmpState → TmpState) (h : init.Leads d)
    (hf : Memory.wf d.tmp.mem = true → Memory.wf (f d.tmp).mem = true) : init.Leads (d.setTmp f) :=
  ⟨fun w => hf (h.mem w), h.regs, h.time, h.draws, h.sent, h.part⟩

@[simp] theorem Dev.tmpPut_leads {init d : Dev} (a : Nat) (bs : List Byte) (h : init.Leads d) : init.Leads (d.tmpPut a bs) := by
  induction bs generalizing d a with
  | nil => exact h
  | cons b bs ih => exact ih _ (Dev.setTmp_leads _ h (memSet_wf _ _))

@[simp] theorem Dev.tmpEraseSector_leads {init d : Dev} (l : Nat) (h : init.Leads d) : init.Leads (Dev.tmpEraseSector d l) := by
  unfold Dev.tmpEraseSector
  exact Dev.setTmp_leads _ h (memErase_wf _ _)

@[simp] theorem Dev.ringAppend_leads {init d : Dev} (g : RingArea) (kind : Option (Rec → Nat)) (bytes : List Byte) (h : init.Leads d) : init.Leads (Dev.ringAppend d g kind bytes) := by
  unfold Dev.ringAppend
  repeat' first
    | with_reducible assumption
    | (intro v; refine (fun hv : init.Leads v => ?_) ?_; rotate_left; subst v)
    | (intro v; refine (fun hv : init.Leads v.1 => ?_) ?_; rotate_left; subst v)
    | (intro v; refine (fun hv : init.Leads v.2 => ?_) ?_; rotate_left; subst v)
    | intro _
    | (extract_lets -lift +onlyGivenNames w; revert w)
    | dsimp -zeta -zetaDelta only
    | with_reducible apply Dev.forEach_leads
    | with_reducible apply Dev.tmpPut_leads
    | with_reducible apply Dev.tmpEraseSector_leads
    | with_reducible apply Dev.slot_leads
    | (simp [*]; done)
    | (split <;> try (rename_i e; try obtain rfl := congrArg Prod.fst e; try obtain rfl := congrArg Prod.snd e))

@[simp] theorem Dev.record_leads {init d : Dev} (gs : List RingArea) (kind : Option (Rec → Nat)) (magic : Nat) (body : Fields) (h : init.Leads d) : init.Leads (Dev.record d gs kind magic body) := by
  unfold Dev.record
  repeat' first
    | with_reducible assumption
    | (intro v; refine (fun hv : init.Leads v => ?_) ?_; rotate_left; subst v)
    | (intro v; refine (fun hv : init.Leads v.1 => ?_) ?_; rotate_left; subst v)
    | (intro v; refine (fun hv : init.Leads v.2 => ?_) ?_; rotate_left; subst v)
    | intro _
    | (extract_lets -lift +onlyGivenNames w; revert w)
    | dsimp -zeta -zetaDelta only
    | with_reducible apply Dev.forEach_leads
    | with_reducible apply Dev.ringAppend_leads
    | (simp [*]; done)
    | (split <;> try (rename_i e; try obtain rfl := congrArg Prod.fst e; try obtain rfl := congrArg Prod.snd e))

@[simp] theorem Dev.counterRecord_leads {init d : Dev} (magic : Nat) (body : Fields) (h : init.Leads d) : init.Leads (Dev.counterRecord d magic body) := by
  simp [Dev.counterRecord, h]

@[simp] theorem Dev.saveCounters_leads {init d : Dev} (h : init.Leads d) : init.Leads (Dev.saveCounters d) := by
  simp [Dev.saveCounters, h]

@[simp] theorem Dev.remapRecord_leads {init d : Dev} (kind : Nat) (logical : Nat) (physical : Nat) (h : init.Leads d) : init.Leads (Dev.remapRecord d kind logical physical) := by
  simp [Dev.remapRecord, h]

@[simp] theorem Dev.tmpComplete_leads {init d : Dev} (q : Nat) (st : Status) (flags : Nat) (maxCorr : Nat) (done : Nat) (corr : Nat) (tag : Nat) (h : init.Leads d) : init.Leads (Dev.tmpComplete d q st flags maxCorr done corr tag) := by
  unfold Dev.tmpComplete
  repeat' first
    | with_reducible assumption
    | (intro v; refine (fun hv : init.Leads v => ?_) ?_; rotate_left; subst v)
    | (intro v; refine (fun hv : init.Leads v.1 => ?_) ?_; rotate_left; subst v)
    | (intro v; refine (fun hv : init.Leads v.2 => ?_) ?_; rotate_left; subst v)
    | intro _
    | (extract_lets -lift +onlyGivenNames w; revert w)
    | dsimp -zeta -zetaDelta only
    | with_reducible apply Dev.setF_leads
    | (simp [*]; done)
    | (split <;> try (rename_i e; try obtain rfl := congrArg Prod.fst e; try obtain rfl := congrArg Prod.snd e))

@[simp] theorem Dev.tmpEnd_leads {init d : Dev} (q : Nat) (e : TmpDesc) (st : Status) (h : init.Leads d) : init.Leads (Dev.tmpEnd d q e st) := by
  simp [Dev.tmpEnd, h]

@[simp] theorem Dev.tmpBusyBits_leads {init d : Dev} (h : init.Leads d) : init.Leads (Dev.tmpBusyBits d) := by
  unfold Dev.tmpBusyBits
  repeat' first
    | with_reducible assumption
    | (intro v; refine (fun hv : init.Leads v => ?_) ?_; rotate_left; subst v)
    | (intro v; refine (fun hv : init.Leads v.1 => ?_) ?_; rotate_left; subst v)
    | (intro v; refine (fun hv : init.Leads v.2 => ?_) ?_; rotate_left; subst v)
    | intro _
    | (extract_lets -lift +onlyGivenNames w; revert w)
    | dsimp -zeta -zetaDelta only
    | with_reducible apply Dev.setF_leads
    | (simp [*]; done)
    | (split <;> try (rename_i e; try obtain rfl := congrArg Prod.fst e; try obtain rfl := congrArg Prod.snd e))

@[simp] theorem Dev.tmpRun_leads {init d : Dev} (q : Nat) (e : TmpDesc) (op : TmpOp) (old : List Byte) (h : init.Leads d) : init.Leads (Dev.tmpRun d q e op old) := by
  simp [Dev.tmpRun, h]

@[simp] theorem Dev.tmpWarn_leads {init d : Dev} (q : Nat) (a : Nat) (errs : List (Nat × Bool)) (h : init.Leads d) : init.Leads (Dev.tmpWarn d q a errs).1 := by
  unfold Dev.tmpWarn
  repeat' first
    | with_reducible assumption
    | (intro v; refine (fun hv : init.Leads v => ?_) ?_; rotate_left; subst v)
    | (intro v; refine (fun hv : init.Leads v.1 => ?_) ?_; rotate_left; subst v)
    | (intro v; refine (fun hv : init.Leads v.2 => ?_) ?_; rotate_left; subst v)
    | intro _
    | (extract_lets -lift +onlyGivenNames w; revert w)
    | dsimp -zeta -zetaDelta only
    | with_reducible apply Dev.forEach_leads
    | with_reducible apply Dev.raiseB_leads
    | with_reducible apply Dev.setTmp_leads
    | (simp [*]; done)
    | (split <;> try (rename_i e; try obtain rfl := congrArg Prod.fst e; try obtain rfl := congrArg Prod.snd e))

@[simp] theorem Dev.tmpDoRead_leads {init d : Dev} (q : Nat) (e : TmpDesc) (k : BufKey) (errs0 : List (Nat × Bool)) (h : init.Leads d) : init.Leads (Dev.tmpDoRead d q e k errs0) := by
  unfold Dev.tmpDoRead
  repeat' first
    | with_reducible assumption
    | (intro v; refine (fun hv : init.Leads v => ?_) ?_; rotate_left; subst v)
    | (intro v; refine (fun hv : init.Leads v.1 => ?_) ?_; rotate_left; subst v)
    | (intro v; refine (fun hv : init.Leads v.2 => ?_) ?_; rotate_left; subst v)
    | intro _
    | (extract_lets -lift +onlyGivenNames w; revert w)
    | dsimp -zeta -zetaDelta only
    | with_reducible apply Dev.tick_leads
    | with_reducible apply Dev.addF_leads
    | with_reducible apply Dev.incF_leads
    | with_reducible apply Dev.raiseB_leads
    | with_reducible apply Dev.tmpComplete_leads
    | with_reducible apply Dev.tmpWarn_leads
    | (simp [*]; done)
    | (split <;> try (rename_i e; try obtain rfl := congrArg Prod.fst e; try obtain rfl := congrArg Prod.snd e))

@[simp] theorem Dev.tmpDoProgram_leads {init d : Dev} (q : Nat) (e : TmpDesc) (k : BufKey) (h : init.Leads d) : init.Leads (Dev.tmpDoProgram d q e k) := by
  unfold Dev.tmpDoProgram
  repeat' first
    | with_reducible assumption
    | (intro v; refine (fun hv : init.Leads v => ?_) ?_; rotate_left; subst v)
    | (intro v; refine (fun hv : init.Leads v.1 => ?_) ?_; rotate_left; subst v)
    | (intro v; refine (fun hv : init.Leads v.2 => ?_) ?_; rotate_left; subst v)
    | intro _
    | (extract_lets -lift +onlyGivenNames w; revert w)
    | dsimp -zeta -zetaDelta only
    | with_reducible apply Dev.tick_leads
    | with_reducible apply Dev.tmpPut_leads
    | with_reducible apply Dev.tmpEnd_leads
    | with_reducible apply Dev.tmpRun_leads
    | (simp [*]; done)
    | (split <;> try (rename_i e; try obtain rfl := congrArg Prod.fst e; try obtain rfl := congrArg Prod.snd e))

@[simp] theorem Dev.tmpDoAnd_leads {init d : Dev} (q : Nat) (e : TmpDesc) (k : BufKey) (h : init.Leads d) : init.Leads (Dev.tmpDoAnd d q e k) := by
  unfold Dev.tmpDoAnd
  repeat' first
    | with_reducible assumption
    | (intro v; refine (fun hv : init.Leads v => ?_) ?_; rotate_left; subst v)
    | (intro v; refine (fun hv : init.Leads v.1 => ?_) ?_; rotate_left; subst v)
    | (intro v; refine (fun hv : init.Leads v.2 => ?_) ?_; rotate_left; subst v)
    | intro _
    | (extract_lets -lift +onlyGivenNames w; revert w)
    | dsimp -zeta -zetaDelta only
    | with_reducible apply Dev.tick_leads
    | with_reducible apply Dev.tmpPut_leads
    | with_reducible apply Dev.tmpRun_leads
    | (simp [*]; done)
    | (split <;> try (rename_i e; try obtain rfl := congrArg Prod.fst e; try obtain rfl := congrArg Prod.snd e))

@[simp] theorem Dev.tmpDoBlank_leads {init d : Dev} (q : Nat) (e : TmpDesc) (h : init.Leads d) : init.Leads (Dev.tmpDoBlank d q e) := by
  unfold Dev.tmpDoBlank
  repeat' first
    | with_reducible assumption
    | (intro v; refine (fun hv : init.Leads v => ?_) ?_; rotate_left; subst v)
    | (intro v; refine (fun hv : init.Leads v.1 => ?_) ?_; rotate_left; subst v)
    | (intro v; refine (fun hv : init.Leads v.2 => ?_) ?_; rotate_left; subst v)
    | intro _
    | (extract_lets -lift +onlyGivenNames w; revert w)
    | dsimp -zeta -zetaDelta only
    | with_reducible apply Dev.tmpComplete_leads
    | (simp [*]; done)
    | (split <;> try (rename_i e; try obtain rfl := congrArg Prod.fst e; try obtain rfl := congrArg Prod.snd e))

@[simp] theorem Dev.tmpDoMargin_leads {init d : Dev} (q : Nat) (e : TmpDesc) (k : BufKey) (diffs : List Nat) (h : init.Leads d) : init.Leads (Dev.tmpDoMargin d q e k diffs) := by
  unfold Dev.tmpDoMargin
  repeat' first
    | with_reducible assumption
    | (intro v; refine (fun hv : init.Leads v => ?_) ?_; rotate_left; subst v)
    | (intro v; refine (fun hv : init.Leads v.1 => ?_) ?_; rotate_left; subst v)
    | (intro v; refine (fun hv : init.Leads v.2 => ?_) ?_; rotate_left; subst v)
    | intro _
    | (extract_lets -lift +onlyGivenNames w; revert w)
    | dsimp -zeta -zetaDelta only
    | with_reducible apply Dev.tick_leads
    | with_reducible apply Dev.tmpComplete_leads
    | (simp [*]; done)
    | (split <;> try (rename_i e; try obtain rfl := congrArg Prod.fst e; try obtain rfl := congrArg Prod.snd e))

@[simp] theorem Dev.tmpCheck_leads {init d : Dev} (q : Nat) (e : TmpDesc) (h : init.Leads d) : init.LeadsE (d.tmpCheck q e) := by
  unfold Dev.tmpCheck
  repeat' first
    | with_reducible assumption
    | with_reducible apply Dev.leadsE_ok
    | intro _
    | lift_lets
    | with_reducible apply Dev.leadsE_error
    | with_reducible apply Dev.tmpEnd_leads
    | with_reducible apply Dev.badHandle_leads
    | with_reducible apply Dev.raiseB_leads
    | with_reducible apply Dev.incF_leads
    | split

@[simp] theorem Dev.tmpTake_leads {init d : Dev} (q : Nat) (m : TmpMedium) (h : init.Leads d) : init.Leads (d.tmpTake q m) := by
  simp only [Dev.tmpTake]
  split
  · rename_i he
    exact (Dev.tmpCheck_leads q _ h).of_error he
  · split
    · repeat' split
      · exact Dev.tmpEnd_leads _ _ _ h
      · exact h
      · exact Dev.setTmp_leads _ h id
    · split <;> simp [h]

@[simp] theorem Dev.tmpCommand_leads {init d : Dev} (q : Nat) (op : Option TmpOp) (m : TmpMedium) (data : Option (List Word)) (h : init.Leads d) : init.Leads (Dev.tmpCommand d q op m data) := by
  unfold Dev.tmpCommand
  repeat' first
    | with_reducible assumption
    | (intro v; refine (fun hv : init.Leads v => ?_) ?_; rotate_left; subst v)
    | (intro v; refine (fun hv : init.Leads v.1 => ?_) ?_; rotate_left; subst v)
    | (intro v; refine (fun hv : init.Leads v.2 => ?_) ?_; rotate_left; subst v)
    | intro _
    | (extract_lets -lift +onlyGivenNames w; revert w)
    | dsimp -zeta -zetaDelta only
    | with_reducible apply Dev.tmpTake_leads
    | (simp [*]; done)
    | (split <;> try (rename_i e; try obtain rfl := congrArg Prod.fst e; try obtain rfl := congrArg Prod.snd e))

@[simp] theorem Dev.tmpProceed_leads {init d : Dev} (h : init.Leads d) : init.Leads (Dev.tmpProceed d) := by
  unfold Dev.tmpProceed
  repeat' first
    | with_reducible assumption
    | (intro v; refine (fun hv : init.Leads v => ?_) ?_; rotate_left; subst v)
    | (intro v; refine (fun hv : init.Leads v.1 => ?_) ?_; rotate_left; subst v)
    | (intro v; refine (fun hv : init.Leads v.2 => ?_) ?_; rotate_left; subst v)
    | intro _
    | (extract_lets -lift +onlyGivenNames w; revert w)
    | dsimp -zeta -zetaDelta only
    | with_reducible apply Dev.forEach_leads
    | with_reducible apply Dev.setTmp_leads
    | with_reducible apply Dev.tmpTake_leads
    | (simp [*]; done)
    | (split <;> try (rename_i e; try obtain rfl := congrArg Prod.fst e; try obtain rfl := congrArg Prod.snd e))

@[simp] theorem Dev.sparesCheck_leads {init d : Dev} (h : init.Leads d) : init.Leads (Dev.sparesCheck d) := by
  unfold Dev.sparesCheck
  repeat' first
    | with_reducible assumption
    | (intro v; refine (fun hv : init.Leads v => ?_) ?_; rotate_left; subst v)
    | (intro v; refine (fun hv : init.Leads v.1 => ?_) ?_; rotate_left; subst v)
    | (intro v; refine (fun hv : init.Leads v.2 => ?_) ?_; rotate_left; subst v)
    | intro _
    | (extract_lets -lift +onlyGivenNames w; revert w)
    | dsimp -zeta -zetaDelta only
    | with_reducible apply Dev.setB_leads
    | with_reducible apply Dev.raiseB_leads
    | (simp [*]; done)
    | (split <;> try (rename_i e; try obtain rfl := congrArg Prod.fst e; try obtain rfl := congrArg Prod.snd e))

@[simp] theorem Dev.tmpMove_leads {init d : Dev} (l : Nat) (spare : Nat) (h : init.Leads d) : init.Leads (Dev.tmpMove d l spare) := by
  unfold Dev.tmpMove
  have fold (l : List Host.Cell) : ∀ m, Memory.wf m = true → Memory.wf (l.foldl (fun m c => memSet m c.1 c.2) m) = true := by
    induction l with
    | nil => exact fun m hm => hm
    | cons c l ih => exact fun m hm => ih _ (memSet_wf _ _ hm)
  exact Dev.remapRecord_leads _ _ _ (Dev.setTmp_leads _ (Dev.setTmp_leads _ h fun w => memErase_wf _ _ (memErase_wf _ _ w)) (fold _ _))

theorem execTmpRead_runs (q : Nat) (medium : List (Nat × Bool)) (s : State) : s.Runs (execTmpRead q medium s) := by
  unfold execTmpRead
  refine State.on_runs fun init => ?_
  have h := Dev.Leads.refl init
  repeat' first
    | with_reducible assumption
    | intro _
    | with_reducible apply Dev.tmpCommand_leads
    | (simp [*]; done)

theorem execTmpProgram_runs (q : Nat) (data : List Word) (s : State) : s.Runs (execTmpProgram q data s) := by
  unfold execTmpProgram
  refine State.on_runs fun init => ?_
  have h := Dev.Leads.refl init
  repeat' first
    | with_reducible assumption
    | intro _
    | with_reducible apply Dev.tmpCommand_leads
    | (simp [*]; done)

theorem execTmpProgramAnd_runs (q : Nat) (data : List Word) (s : State) : s.Runs (execTmpProgramAnd q data s) := by
  unfold execTmpProgramAnd
  refine State.on_runs fun init => ?_
  have h := Dev.Leads.refl init
  repeat' first
    | with_reducible assumption
    | intro _
    | with_reducible apply Dev.tmpCommand_leads
    | (simp [*]; done)

theorem execTmpEraseSector_runs (q : Nat) (s : State) : s.Runs (execTmpEraseSector q s) := by
  unfold execTmpEraseSector
  refine State.on_runs fun init => ?_
  have h := Dev.Leads.refl init
  repeat' first
    | with_reducible assumption
    | intro _
    | with_reducible apply Dev.tmpCommand_leads
    | (simp [*]; done)

theorem execTmpBlankCheck_runs (q : Nat) (s : State) : s.Runs (execTmpBlankCheck q s) := by
  unfold execTmpBlankCheck
  refine State.on_runs fun init => ?_
  have h := Dev.Leads.refl init
  repeat' first
    | with_reducible assumption
    | intro _
    | with_reducible apply Dev.tmpCommand_leads
    | (simp [*]; done)

theorem execTmpMarginRead_runs (q : Nat) (diffs : List Nat) (s : State) : s.Runs (execTmpMarginRead q diffs s) := by
  unfold execTmpMarginRead
  refine State.on_runs fun init => ?_
  have h := Dev.Leads.refl init
  repeat' first
    | with_reducible assumption
    | intro _
    | with_reducible apply Dev.tmpCommand_leads
    | (simp [*]; done)

theorem execTmpUnknownOpcode_runs (q : Nat) (s : State) : s.Runs (execTmpUnknownOpcode q s) := by
  unfold execTmpUnknownOpcode
  refine State.on_runs fun init => ?_
  have h := Dev.Leads.refl init
  repeat' first
    | with_reducible assumption
    | intro _
    | with_reducible apply Dev.tmpCommand_leads
    | (simp [*]; done)

@[simp] theorem Dev.tmpVerifyFail_leads {init d : Dev} (r : TmpRun) (l : Nat) (spare : Nat) (h : init.Leads d) : init.Leads (Dev.tmpVerifyFail d r l spare).1 := by
  unfold Dev.tmpVerifyFail
  repeat' first
    | with_reducible assumption
    | (intro v; refine (fun hv : init.Leads v => ?_) ?_; rotate_left; subst v)
    | (intro v; refine (fun hv : init.Leads v.1 => ?_) ?_; rotate_left; subst v)
    | (intro v; refine (fun hv : init.Leads v.2 => ?_) ?_; rotate_left; subst v)
    | intro _
    | (extract_lets -lift +onlyGivenNames w; revert w)
    | dsimp -zeta -zetaDelta only
    | with_reducible apply Dev.raiseB_leads
    | with_reducible apply Dev.setTmp_leads
    | with_reducible apply Dev.remapRecord_leads
    | with_reducible apply Dev.sparesCheck_leads
    | with_reducible apply Dev.tmpMove_leads
    | (simp [*]; done)
    | (split <;> try (rename_i e; try obtain rfl := congrArg Prod.fst e; try obtain rfl := congrArg Prod.snd e))

theorem execTmpOpDone_runs (q : Option Nat) (fail : Option (Nat × Nat)) (s : State) : s.Runs (execTmpOpDone q fail s) := by
  unfold execTmpOpDone
  refine State.on_runs fun init => ?_
  have h := Dev.Leads.refl init
  repeat' first
    | with_reducible assumption
    | (intro v; refine (fun hv : init.Leads v => ?_) ?_; rotate_left; subst v)
    | intro _
    | (extract_lets -lift +onlyGivenNames w; revert w)
    | with_reducible apply Dev.setTmp_leads
    | with_reducible apply Dev.tmpComplete_leads
    | with_reducible apply Dev.tmpBusyBits_leads
    | with_reducible apply Dev.tmpProceed_leads
    | with_reducible apply Dev.tmpVerifyFail_leads
    | (simp [*]; done)
    | split

theorem execTmpScrub_runs (sector spare : Nat) (uncorrectable : Bool) (s : State) : s.Runs (execTmpScrub sector spare uncorrectable s) := by
  unfold execTmpScrub
  refine State.on_runs fun init => ?_
  have h := Dev.Leads.refl init
  repeat' first
    | with_reducible assumption
    | (intro v; refine (fun hv : init.Leads v => ?_) ?_; rotate_left; subst v)
    | intro _
    | (extract_lets -lift +onlyGivenNames w; revert w)
    | with_reducible apply Dev.incF_leads
    | with_reducible apply Dev.raiseB_leads
    | with_reducible apply Dev.setTmp_leads
    | with_reducible apply Dev.sparesCheck_leads
    | with_reducible apply Dev.tmpMove_leads
    | (simp [*]; done)
    | split

theorem execTmpPatrolRead_runs (corrected uncorrectable : Nat) (s : State) : s.Runs (execTmpPatrolRead corrected uncorrectable s) := by
  unfold execTmpPatrolRead
  refine State.on_runs fun init => ?_
  have h := Dev.Leads.refl init
  split
  · exact Dev.setB_leads _ _ _ _ _ h
  · extract_lets -lift +onlyGivenNames pos progs
    clear_value progs
    split
    · exact h
    · extract_lets -lift +onlyGivenNames d1
      have h1 : init.Leads d1 := Dev.addF_leads _ _ _ _ _ h
      clear_value d1
      extract_lets -lift +onlyGivenNames d2
      have h2 : init.Leads d2 := Dev.addF_leads _ _ _ _ _ h1
      clear_value d2
      extract_lets -lift +onlyGivenNames d3
      have h3 : init.Leads d3 := by
        unfold d3
        split
        · exact Dev.raiseB_leads _ _ (Dev.setTmp_leads _ h2 id)
        · exact h2
      clear_value d3
      split
      · exact Dev.setF_leads _ _ _ _ _ (Dev.setB_leads _ _ _ _ _ (Dev.setTmp_leads _ h3 id))
      · exact Dev.setTmp_leads _ (Dev.raiseB_leads _ _ (Dev.incF_leads _ _ _ _ (Dev.setF_leads _ _ _ _ _ (Dev.setB_leads _ _ _ _ _ (Dev.setTmp_leads _ h3 id))))) id

end Sys2Proof.Machine
end

