-- ==== Sys2Proof/Laws/LeadsRecorder.lean ====
section
/-! SUPPORT. What the recorder and the Swage image never break (Leads), one lemma a function; each command runs (Runs), one lemma a command. -/

namespace Sys2Proof.Machine

open Sys2Proof

set_option linter.tactic.unusedName false
set_option linter.unusedTactic false
set_option linter.unreachableTactic false
set_option linter.unusedSimpArgs false
set_option linter.unusedVariables false

@[simp] theorem Dev.leafPointer_leads {init d : Dev} (k : Nat) (p : Nat) (h : init.Leads d) : init.Leads (Dev.leafPointer d k p) := by
  simp [Dev.leafPointer, h]

@[simp] theorem Dev.leafProgram_leads {init d : Dev} (k : Nat) (r : EvRec) (h : init.Leads d) : init.Leads (Dev.leafProgram d k r) := by
  unfold Dev.leafProgram
  repeat' first
    | with_reducible assumption
    | (intro v; refine (fun hv : init.Leads v => ?_) ?_; rotate_left; subst v)
    | (intro v; refine (fun hv : init.Leads v.1 => ?_) ?_; rotate_left; subst v)
    | (intro v; refine (fun hv : init.Leads v.2 => ?_) ?_; rotate_left; subst v)
    | intro _
    | (extract_lets -lift +onlyGivenNames w; revert w)
    | dsimp -zeta -zetaDelta only
    | with_reducible apply Dev.setF_leads
    | with_reducible apply Dev.tmpPut_leads
    | with_reducible apply Dev.leafPointer_leads
    | (simp [*]; done)
    | (split <;> try (rename_i e; try obtain rfl := congrArg Prod.fst e; try obtain rfl := congrArg Prod.snd e))

@[simp] theorem Dev.leafEraseFrom_leads {init d : Dev} (k : Nat) (sector : Nat) (h : init.Leads d) : init.Leads (Dev.leafEraseFrom d k sector) := by
  unfold Dev.leafEraseFrom
  repeat' first
    | with_reducible assumption
    | (intro v; refine (fun hv : init.Leads v => ?_) ?_; rotate_left; subst v)
    | (intro v; refine (fun hv : init.Leads v.1 => ?_) ?_; rotate_left; subst v)
    | (intro v; refine (fun hv : init.Leads v.2 => ?_) ?_; rotate_left; subst v)
    | intro _
    | (extract_lets -lift +onlyGivenNames w; revert w)
    | dsimp -zeta -zetaDelta only
    | with_reducible apply Dev.forEach_leads
    | with_reducible apply Dev.tmpEraseSector_leads
    | (simp [*]; done)
    | (split <;> try (rename_i e; try obtain rfl := congrArg Prod.fst e; try obtain rfl := congrArg Prod.snd e))

@[simp] theorem Dev.ownRecord_leads {init d : Dev} (e : Ev) (payload : Fields) (h : init.Leads d) : init.Leads (Dev.ownRecord d e payload).2 := by
  unfold Dev.ownRecord
  repeat' first
    | with_reducible assumption
    | (intro v; refine (fun hv : init.Leads v => ?_) ?_; rotate_left; subst v)
    | (intro v; refine (fun hv : init.Leads v.1 => ?_) ?_; rotate_left; subst v)
    | (intro v; refine (fun hv : init.Leads v.2 => ?_) ?_; rotate_left; subst v)
    | intro _
    | (extract_lets -lift +onlyGivenNames w; revert w)
    | dsimp -zeta -zetaDelta only
    | (simp [*]; done)
    | (split <;> try (rename_i e; try obtain rfl := congrArg Prod.fst e; try obtain rfl := congrArg Prod.snd e))

@[simp] theorem Dev.leafScan_leads {init d : Dev} (k : Nat) (h : init.Leads d) : init.Leads (Dev.leafScan d k) := by
  unfold Dev.leafScan
  repeat' first
    | with_reducible assumption
    | (intro v; refine (fun hv : init.Leads v => ?_) ?_; rotate_left; subst v)
    | (intro v; refine (fun hv : init.Leads v.1 => ?_) ?_; rotate_left; subst v)
    | (intro v; refine (fun hv : init.Leads v.2 => ?_) ?_; rotate_left; subst v)
    | intro _
    | (extract_lets -lift +onlyGivenNames w; revert w)
    | dsimp -zeta -zetaDelta only
    | with_reducible apply Dev.setF_leads
    | with_reducible apply Dev.raiseB_leads
    | with_reducible apply Dev.record_leads
    | with_reducible apply Dev.leafPointer_leads
    | with_reducible apply Dev.leafProgram_leads
    | with_reducible apply Dev.leafEraseFrom_leads
    | with_reducible apply Dev.ownRecord_leads
    | (simp [*]; done)
    | (split <;> try (rename_i e; try obtain rfl := congrArg Prod.fst e; try obtain rfl := congrArg Prod.snd e))

@[simp] theorem Dev.saveReservation_leads {init d : Dev} (h : init.Leads d) : init.Leads (Dev.saveReservation d) := by
  simp [Dev.saveReservation, h]

@[simp] theorem Dev.seqStart_leads {init d : Dev} (high : Nat) (h : init.Leads d) : init.Leads (Dev.seqStart d high) := by
  unfold Dev.seqStart
  repeat' first
    | with_reducible assumption
    | (intro v; refine (fun hv : init.Leads v => ?_) ?_; rotate_left; subst v)
    | (intro v; refine (fun hv : init.Leads v.1 => ?_) ?_; rotate_left; subst v)
    | (intro v; refine (fun hv : init.Leads v.2 => ?_) ?_; rotate_left; subst v)
    | intro _
    | (extract_lets -lift +onlyGivenNames w; revert w)
    | dsimp -zeta -zetaDelta only
    | with_reducible apply Dev.saveReservation_leads
    | (simp [*]; done)
    | (split <;> try (rename_i e; try obtain rfl := congrArg Prod.fst e; try obtain rfl := congrArg Prod.snd e))

@[simp] theorem Dev.pvRebase_leads {init d : Dev} (h : init.Leads d) : init.Leads (Dev.pvRebase d) := by
  simp [Dev.pvRebase, h]

@[simp] theorem Dev.pvRebuild_leads {init d : Dev} (h : init.Leads d) : init.Leads (Dev.pvRebuild d) := by
  unfold Dev.pvRebuild
  repeat' first
    | with_reducible assumption
    | (intro v; refine (fun hv : init.Leads v => ?_) ?_; rotate_left; subst v)
    | (intro v; refine (fun hv : init.Leads v.1 => ?_) ?_; rotate_left; subst v)
    | (intro v; refine (fun hv : init.Leads v.2 => ?_) ?_; rotate_left; subst v)
    | intro _
    | (extract_lets -lift +onlyGivenNames w; revert w)
    | dsimp -zeta -zetaDelta only
    | with_reducible apply Dev.setB_leads
    | (simp [*]; done)
    | (split <;> try (rename_i e; try obtain rfl := congrArg Prod.fst e; try obtain rfl := congrArg Prod.snd e))

@[simp] theorem Dev.winStatus_leads {init d : Dev} (h : Nat) (ha : init.Leads d) : init.Leads (Dev.winStatus d h) := by
  simp [Dev.winStatus, ha]

theorem execEventRaise_runs (ev : Ev) (source : Nat) (payload : Fields) (s : State) : s.Runs (execEventRaise ev source payload s) := by
  unfold execEventRaise
  refine State.on_runs fun init => ?_
  have h := Dev.Leads.refl init
  repeat' first
    | with_reducible assumption
    | intro _
    | with_reducible apply Dev.raise_leads
    | (simp [*]; done)

theorem execLeafProgramDone_runs (s : State) : s.Runs (execLeafProgramDone s) := by
  unfold execLeafProgramDone
  refine State.on_runs fun init => ?_
  have h := Dev.Leads.refl init
  repeat' first
    | with_reducible assumption
    | (intro v; refine (fun hv : init.Leads v => ?_) ?_; rotate_left; subst v)
    | intro _
    | (extract_lets -lift +onlyGivenNames w; revert w)
    | with_reducible apply Dev.countDrop_leads
    | with_reducible apply Dev.leafProgram_leads
    | (simp [*]; done)
    | split

theorem execTokenRefill_runs (code : Nat) (s : State) : s.Runs (execTokenRefill code s) := by
  unfold execTokenRefill
  refine State.on_runs fun init => ?_
  have h := Dev.Leads.refl init
  repeat' first
    | with_reducible assumption
    | (intro v; refine (fun hv : init.Leads v => ?_) ?_; rotate_left; subst v)
    | intro _
    | (extract_lets -lift +onlyGivenNames w; revert w)
    | with_reducible apply Dev.setBucket_leads
    | with_reducible apply Dev.raiseB_leads
    | (simp [*]; done)
    | split

theorem execSeqReservationDone_runs (ok : Bool) (s : State) : s.Runs (execSeqReservationDone ok s) := by
  unfold execSeqReservationDone
  refine State.on_runs fun init => ?_
  have h := Dev.Leads.refl init
  repeat' first
    | with_reducible assumption
    | (intro v; refine (fun hv : init.Leads v => ?_) ?_; rotate_left; subst v)
    | intro _
    | (extract_lets -lift +onlyGivenNames w; revert w)
    | with_reducible apply Dev.setB_leads
    | with_reducible apply Dev.raiseB_leads
    | with_reducible apply Dev.saveReservation_leads
    | (simp [*]; done)
    | split

theorem execLeafClearErase_runs (leaf : Nat) (s : State) : s.Runs (execLeafClearErase leaf s) := by
  unfold execLeafClearErase
  refine State.on_runs fun init => ?_
  have h := Dev.Leads.refl init
  repeat' first
    | with_reducible assumption
    | (intro v; refine (fun hv : init.Leads v => ?_) ?_; rotate_left; subst v)
    | intro _
    | (extract_lets -lift +onlyGivenNames w; revert w)
    | with_reducible apply Dev.setB_leads
    | with_reducible apply Dev.tmpEraseSector_leads
    | (simp [*]; done)
    | split

theorem execEvtWinSeqWrite_runs (hearth seq : Nat) (s : State) : s.Runs (execEvtWinSeqWrite hearth seq s) := by
  unfold execEvtWinSeqWrite
  refine State.on_runs fun init => ?_
  have h := Dev.Leads.refl init
  repeat' first
    | with_reducible assumption
    | intro _
    | with_reducible apply Dev.setF_leads
    | with_reducible apply Dev.winStatus_leads
    | (simp [*]; done)
    | split

theorem execEvtWinNext_runs (hearth : Nat) (s : State) : s.Runs (execEvtWinNext hearth s) := by
  unfold execEvtWinNext
  refine State.on_runs fun init => ?_
  have h := Dev.Leads.refl init
  repeat' first
    | with_reducible assumption
    | intro _
    | with_reducible apply Dev.setF_leads
    | with_reducible apply Dev.winStatus_leads
    | (simp [*]; done)
    | split

@[simp] theorem Dev.startCheck_leads {init d : Dev} (copy : Nat) (h : init.Leads d) : init.Leads (Dev.startCheck d copy) := by
  unfold Dev.startCheck
  repeat' first
    | with_reducible assumption
    | (intro v; refine (fun hv : init.Leads v => ?_) ?_; rotate_left; subst v)
    | (intro v; refine (fun hv : init.Leads v.1 => ?_) ?_; rotate_left; subst v)
    | (intro v; refine (fun hv : init.Leads v.2 => ?_) ?_; rotate_left; subst v)
    | intro _
    | (extract_lets -lift +onlyGivenNames w; revert w)
    | dsimp -zeta -zetaDelta only
    | with_reducible apply Dev.setF_leads
    | with_reducible apply Dev.setB_leads
    | (simp [*]; done)
    | (split <;> try (rename_i e; try obtain rfl := congrArg Prod.fst e; try obtain rfl := congrArg Prod.snd e))

@[simp] theorem Dev.copyResult_leads {init d : Dev} (copy : Nat) (code : Nat) (h : init.Leads d) : init.Leads (Dev.copyResult d copy code) := by
  unfold Dev.copyResult
  repeat' first
    | with_reducible assumption
    | (intro v; refine (fun hv : init.Leads v => ?_) ?_; rotate_left; subst v)
    | (intro v; refine (fun hv : init.Leads v.1 => ?_) ?_; rotate_left; subst v)
    | (intro v; refine (fun hv : init.Leads v.2 => ?_) ?_; rotate_left; subst v)
    | intro _
    | (extract_lets -lift +onlyGivenNames w; revert w)
    | dsimp -zeta -zetaDelta only
    | with_reducible apply Dev.setF_leads
    | with_reducible apply Dev.raiseB_leads
    | (simp [*]; done)
    | (split <;> try (rename_i e; try obtain rfl := congrArg Prod.fst e; try obtain rfl := congrArg Prod.snd e))

theorem execSwgCheckA_runs (s : State) : s.Runs (execSwgCheckA s) := by
  unfold execSwgCheckA
  refine State.on_runs fun init => ?_
  have h := Dev.Leads.refl init
  repeat' first
    | with_reducible assumption
    | intro _
    | with_reducible apply Dev.startCheck_leads
    | (simp [*]; done)

theorem execSwgCheckB_runs (s : State) : s.Runs (execSwgCheckB s) := by
  unfold execSwgCheckB
  refine State.on_runs fun init => ?_
  have h := Dev.Leads.refl init
  repeat' first
    | with_reducible assumption
    | intro _
    | with_reducible apply Dev.startCheck_leads
    | (simp [*]; done)

theorem execSwgCheckDone_runs (signatureOk : Bool) (bank : Nat) (s : State) : s.Runs (execSwgCheckDone signatureOk bank s) := by
  unfold execSwgCheckDone
  refine State.on_runs fun init => ?_
  have h := Dev.Leads.refl init
  repeat' first
    | with_reducible assumption
    | (intro v; refine (fun hv : init.Leads v => ?_) ?_; rotate_left; subst v)
    | intro _
    | (extract_lets -lift +onlyGivenNames w; revert w)
    | with_reducible apply Dev.setB_leads
    | with_reducible apply Dev.copyResult_leads
    | (simp [*]; done)
    | split

end Sys2Proof.Machine
end

