-- ==== Sys2Proof/Laws/LeadsCore.lean ====
section
/-! SUPPORT. What the shared operations over slabs, regions and links never break (Leads), one lemma a function; each command runs (Runs), one lemma a command. -/

namespace Sys2Proof.Machine

open Sys2Proof

set_option linter.tactic.unusedName false
set_option linter.unusedTactic false
set_option linter.unreachableTactic false
set_option linter.unusedSimpArgs false
set_option linter.unusedVariables false

@[simp] theorem Dev.setRegion_leads {init d : Dev} (n : Nat) (r : Region) (h : init.Leads d) : init.Leads (Dev.setRegion d n r) := by
  simp [Dev.setRegion, h]

@[simp] theorem Dev.setCru_leads {init d : Dev} (f : CruState → CruState) (h : init.Leads d) : init.Leads (Dev.setCru d f) := by
  simp [Dev.setCru, h]

@[simp] theorem Dev.setPkg_leads {init d : Dev} (f : PkgState → PkgState) (h : init.Leads d) (hf : (f d.pkg).part = d.pkg.part) :
    init.Leads (d.setPkg f) :=
  ⟨h.mem, h.regs, h.time, h.draws, h.sent, hf.trans h.part⟩

@[simp] theorem Dev.setCeil_leads {init d : Dev} (f : CeilState → CeilState) (h : init.Leads d) : init.Leads (Dev.setCeil d f) := by
  simp [Dev.setCeil, h]

@[simp] theorem Dev.setTag_leads {init d : Dev} (fr : Frame) (t : Tag) (h : init.Leads d) : init.Leads (Dev.setTag d fr t) := by
  simp [Dev.setTag, h]

@[simp] theorem Dev.modTag_leads {init d : Dev} (slab : Nat) (f : Tag → Tag) (h : init.Leads d) : init.Leads (Dev.modTag d slab f) := by
  unfold Dev.modTag
  repeat' first
    | with_reducible assumption
    | (intro v; refine (fun hv : init.Leads v => ?_) ?_; rotate_left; subst v)
    | (intro v; refine (fun hv : init.Leads v.1 => ?_) ?_; rotate_left; subst v)
    | (intro v; refine (fun hv : init.Leads v.2 => ?_) ?_; rotate_left; subst v)
    | intro _
    | (extract_lets -lift +onlyGivenNames w; revert w)
    | dsimp -zeta -zetaDelta only
    | with_reducible apply Dev.setTag_leads
    | (simp [*]; done)
    | (split <;> try (rename_i e; try obtain rfl := congrArg Prod.fst e; try obtain rfl := congrArg Prod.snd e))

@[simp] theorem Dev.dropLines_leads {init d : Dev} (slab : Nat) (h : init.Leads d) : init.Leads (Dev.dropLines d slab) := by
  simp [Dev.dropLines, h]

@[simp] theorem Dev.invalidate_leads {init d : Dev} (slab : Nat) (h : init.Leads d) : init.Leads (Dev.invalidate d slab) := by
  unfold Dev.invalidate
  repeat' first
    | with_reducible assumption
    | (intro v; refine (fun hv : init.Leads v => ?_) ?_; rotate_left; subst v)
    | (intro v; refine (fun hv : init.Leads v.1 => ?_) ?_; rotate_left; subst v)
    | (intro v; refine (fun hv : init.Leads v.2 => ?_) ?_; rotate_left; subst v)
    | intro _
    | (extract_lets -lift +onlyGivenNames w; revert w)
    | dsimp -zeta -zetaDelta only
    | with_reducible apply Dev.setCru_leads
    | with_reducible apply Dev.dropLines_leads
    | (simp [*]; done)
    | (split <;> try (rename_i e; try obtain rfl := congrArg Prod.fst e; try obtain rfl := congrArg Prod.snd e))

@[simp] theorem Dev.allocate_leads {init d : Dev} (slab : Nat) (w : Nat) (victim : Option Nat) (st : SlabState) (h : init.Leads d) : init.Leads (Dev.allocate d slab w victim st) := by
  unfold Dev.allocate
  repeat' first
    | with_reducible assumption
    | (intro v; refine (fun hv : init.Leads v => ?_) ?_; rotate_left; subst v)
    | (intro v; refine (fun hv : init.Leads v.1 => ?_) ?_; rotate_left; subst v)
    | (intro v; refine (fun hv : init.Leads v.2 => ?_) ?_; rotate_left; subst v)
    | intro _
    | (extract_lets -lift +onlyGivenNames w; revert w)
    | dsimp -zeta -zetaDelta only
    | with_reducible apply Dev.setCru_leads
    | with_reducible apply Dev.setTag_leads
    | with_reducible apply Dev.invalidate_leads
    | (simp [*]; done)
    | (split <;> try (rename_i e; try obtain rfl := congrArg Prod.fst e; try obtain rfl := congrArg Prod.snd e))

@[simp] theorem Dev.touch_leads {init d : Dev} (slab : Nat) (h : init.Leads d) : init.Leads (Dev.touch d slab) := by
  simp [Dev.touch, h]

@[simp] theorem Dev.setLine_leads {init d : Dev} (slab : Nat) (sector : Nat) (l : Line) (h : init.Leads d) : init.Leads (Dev.setLine d slab sector l) := by
  simp [Dev.setLine, h]

@[simp] theorem Dev.addPoison_leads {init d : Dev} (slab : Nat) (m : Mask) (h : init.Leads d) : init.Leads (Dev.addPoison d slab m) := by
  unfold Dev.addPoison
  repeat' first
    | with_reducible assumption
    | (intro v; refine (fun hv : init.Leads v => ?_) ?_; rotate_left; subst v)
    | (intro v; refine (fun hv : init.Leads v.1 => ?_) ?_; rotate_left; subst v)
    | (intro v; refine (fun hv : init.Leads v.2 => ?_) ?_; rotate_left; subst v)
    | intro _
    | (extract_lets -lift +onlyGivenNames w; revert w)
    | dsimp -zeta -zetaDelta only
    | with_reducible apply Dev.setCru_leads
    | (simp [*]; done)
    | (split <;> try (rename_i e; try obtain rfl := congrArg Prod.fst e; try obtain rfl := congrArg Prod.snd e))

@[simp] theorem Dev.delPoison_leads {init d : Dev} (slab : Nat) (m : Mask) (h : init.Leads d) : init.Leads (Dev.delPoison d slab m) := by
  simp [Dev.delPoison, h]

@[simp] theorem Dev.engineCheck_leads {init d : Dev} (h : init.Leads d) : init.Leads (Dev.engineCheck d) := by
  unfold Dev.engineCheck
  repeat' first
    | with_reducible assumption
    | (intro v; refine (fun hv : init.Leads v => ?_) ?_; rotate_left; subst v)
    | (intro v; refine (fun hv : init.Leads v.1 => ?_) ?_; rotate_left; subst v)
    | (intro v; refine (fun hv : init.Leads v.2 => ?_) ?_; rotate_left; subst v)
    | intro _
    | (extract_lets -lift +onlyGivenNames w; revert w)
    | dsimp -zeta -zetaDelta only
    | (simp [*]; done)
    | (split <;> try (rename_i e; try obtain rfl := congrArg Prod.fst e; try obtain rfl := congrArg Prod.snd e))

@[simp] theorem Dev.shareCheck_leads {init d : Dev} (die : Nat) (h : init.Leads d) : init.Leads (Dev.shareCheck d die) := by
  unfold Dev.shareCheck
  repeat' first
    | with_reducible assumption
    | (intro v; refine (fun hv : init.Leads v => ?_) ?_; rotate_left; subst v)
    | (intro v; refine (fun hv : init.Leads v.1 => ?_) ?_; rotate_left; subst v)
    | (intro v; refine (fun hv : init.Leads v.2 => ?_) ?_; rotate_left; subst v)
    | intro _
    | (extract_lets -lift +onlyGivenNames w; revert w)
    | dsimp -zeta -zetaDelta only
    | with_reducible apply Dev.setB_leads
    | with_reducible apply Dev.raise_leads
    | (simp [*]; done)
    | (split <;> try (rename_i e; try obtain rfl := congrArg Prod.fst e; try obtain rfl := congrArg Prod.snd e))

@[simp] theorem Dev.ceilCheck_leads {init d : Dev} (h : init.Leads d) : init.Leads (Dev.ceilCheck d) := by
  unfold Dev.ceilCheck
  repeat' first
    | with_reducible assumption
    | (intro v; refine (fun hv : init.Leads v => ?_) ?_; rotate_left; subst v)
    | (intro v; refine (fun hv : init.Leads v.1 => ?_) ?_; rotate_left; subst v)
    | (intro v; refine (fun hv : init.Leads v.2 => ?_) ?_; rotate_left; subst v)
    | intro _
    | (extract_lets -lift +onlyGivenNames w; revert w)
    | dsimp -zeta -zetaDelta only
    | with_reducible apply Dev.setF_leads
    | with_reducible apply Dev.forEach_leads
    | with_reducible apply Dev.addF_leads
    | with_reducible apply Dev.incF_leads
    | with_reducible apply Dev.raiseB_leads
    | with_reducible apply Dev.engineCheck_leads
    | with_reducible apply Dev.shareCheck_leads
    | with_reducible apply Dev.setCeil_leads
    | (simp [*]; done)
    | (split <;> try (rename_i e; try obtain rfl := congrArg Prod.fst e; try obtain rfl := congrArg Prod.snd e))

@[simp] theorem Dev.setDir_leads {init d : Dev} (die : Nat) (es : List Entry) (h : init.Leads d) : init.Leads (Dev.setDir d die es) := by
  simp [Dev.setDir, h]

@[simp] theorem Dev.append_leads {init d : Dev} (die : Nat) (slab : Nat) (kind : Nat) (heat : Nat) (receive : Bool) (h : init.Leads d) : init.Leads (Dev.append d die slab kind heat receive) := by
  unfold Dev.append
  repeat' first
    | with_reducible assumption
    | (intro v; refine (fun hv : init.Leads v => ?_) ?_; rotate_left; subst v)
    | (intro v; refine (fun hv : init.Leads v.1 => ?_) ?_; rotate_left; subst v)
    | (intro v; refine (fun hv : init.Leads v.2 => ?_) ?_; rotate_left; subst v)
    | intro _
    | (extract_lets -lift +onlyGivenNames w; revert w)
    | dsimp -zeta -zetaDelta only
    | with_reducible apply Dev.setDir_leads
    | (simp [*]; done)
    | (split <;> try (rename_i e; try obtain rfl := congrArg Prod.fst e; try obtain rfl := congrArg Prod.snd e))

@[simp] theorem Dev.setWeld_leads {init d : Dev} (f : WeldState → WeldState) (h : init.Leads d) : init.Leads (Dev.setWeld d f) := by
  simp [Dev.setWeld, h]

@[simp] theorem Dev.setLink_leads {init d : Dev} (l : Nat × Nat) (k : Link) (h : init.Leads d) : init.Leads (Dev.setLink d l k) := by
  simp [Dev.setLink, h]

@[simp] theorem Dev.modLink_leads {init d : Dev} (l : Nat × Nat) (f : Link → Link) (h : init.Leads d) : init.Leads (Dev.modLink d l f) := by
  simp [Dev.modLink, h]

@[simp] theorem Dev.sendMsg_leads {init d : Dev} (l : Nat × Nat) (slab : Option Nat) (m : Msg) (h : init.Leads d) : init.Leads (Dev.sendMsg d l slab m) := by
  unfold Dev.sendMsg
  repeat' first
    | with_reducible assumption
    | (intro v; refine (fun hv : init.Leads v => ?_) ?_; rotate_left; subst v)
    | (intro v; refine (fun hv : init.Leads v.1 => ?_) ?_; rotate_left; subst v)
    | (intro v; refine (fun hv : init.Leads v.2 => ?_) ?_; rotate_left; subst v)
    | intro _
    | (extract_lets -lift +onlyGivenNames w; revert w)
    | dsimp -zeta -zetaDelta only
    | with_reducible apply Dev.setF_leads
    | with_reducible apply Dev.emit_leads
    | with_reducible apply Dev.addF_leads
    | with_reducible apply Dev.setLink_leads
    | (simp [*]; done)
    | (split <;> try (rename_i e; try obtain rfl := congrArg Prod.fst e; try obtain rfl := congrArg Prod.snd e))

@[simp] theorem Dev.pump_leads {init d : Dev} (die : Nat) (h : init.Leads d) : init.Leads (Dev.pump d die) := by
  unfold Dev.pump
  extract_lets start r
  have key (l : List TxItem) : ∀ acc : Dev × List TxItem × List (Nat × Nat), init.Leads acc.1 →
      init.Leads (l.foldl (fun (acc : Dev × List TxItem × List (Nat × Nat)) x =>
        if d.quenching && !x.msg.afterT0 then acc
        else if !acc.2.2.contains x.link && acc.1.canSend x.link x.msg then (acc.1.sendMsg x.link x.slab x.msg, acc.2.1, acc.2.2)
        else (acc.1, acc.2.1 ++ [x], acc.2.2 ++ [x.link])) acc).1 := by
    induction l with
    | nil => exact fun _ ha => ha
    | cons x l ih =>
      intro acc ha
      refine ih _ ?_
      dsimp only
      split
      · exact ha
      · split
        · exact Dev.sendMsg_leads _ _ _ ha
        · exact ha
  exact Dev.setWeld_leads _ (key _ _ h)

@[simp] theorem Dev.queueOn_leads {init d : Dev} (l : Nat × Nat) (slab : Option Nat) (m : Msg) (h : init.Leads d) : init.Leads (Dev.queueOn d l slab m) := by
  simp [Dev.queueOn, h]

@[simp] theorem Dev.enqueue_leads {init d : Dev} (slab : Nat) (m : Msg) (h : init.Leads d) : init.Leads (Dev.enqueue d slab m) := by
  unfold Dev.enqueue
  repeat' first
    | with_reducible assumption
    | (intro v; refine (fun hv : init.Leads v => ?_) ?_; rotate_left; subst v)
    | (intro v; refine (fun hv : init.Leads v.1 => ?_) ?_; rotate_left; subst v)
    | (intro v; refine (fun hv : init.Leads v.2 => ?_) ?_; rotate_left; subst v)
    | intro _
    | (extract_lets -lift +onlyGivenNames w; revert w)
    | dsimp -zeta -zetaDelta only
    | with_reducible apply Dev.queueOn_leads
    | (simp [*]; done)
    | (split <;> try (rename_i e; try obtain rfl := congrArg Prod.fst e; try obtain rfl := congrArg Prod.snd e))

@[simp] theorem Dev.sendGeneral_leads {init d : Dev} (m : Msg) (h : init.Leads d) : init.Leads (Dev.sendGeneral d m) := by
  unfold Dev.sendGeneral
  repeat' first
    | with_reducible assumption
    | (intro v; refine (fun hv : init.Leads v => ?_) ?_; rotate_left; subst v)
    | (intro v; refine (fun hv : init.Leads v.1 => ?_) ?_; rotate_left; subst v)
    | (intro v; refine (fun hv : init.Leads v.2 => ?_) ?_; rotate_left; subst v)
    | intro _
    | (extract_lets -lift +onlyGivenNames w; revert w)
    | dsimp -zeta -zetaDelta only
    | with_reducible apply Dev.queueOn_leads
    | (simp [*]; done)
    | (split <;> try (rename_i e; try obtain rfl := congrArg Prod.fst e; try obtain rfl := congrArg Prod.snd e))

@[simp] theorem Dev.queueEntry_leads {init d : Dev} (slab : Nat) (heat : Nat) (e : MirrorEntry) (rid : Option Nat) (h : init.Leads d) : init.Leads (Dev.queueEntry d slab heat e rid) := by
  unfold Dev.queueEntry
  repeat' first
    | with_reducible assumption
    | (intro v; refine (fun hv : init.Leads v => ?_) ?_; rotate_left; subst v)
    | (intro v; refine (fun hv : init.Leads v.1 => ?_) ?_; rotate_left; subst v)
    | (intro v; refine (fun hv : init.Leads v.2 => ?_) ?_; rotate_left; subst v)
    | intro _
    | (extract_lets -lift +onlyGivenNames w; revert w)
    | dsimp -zeta -zetaDelta only
    | with_reducible apply Dev.setWeld_leads
    | with_reducible apply Dev.enqueue_leads
    | (simp [*]; done)
    | (split <;> try (rename_i e; try obtain rfl := congrArg Prod.fst e; try obtain rfl := congrArg Prod.snd e))

@[simp] theorem Dev.holdEntry_leads {init d : Dev} (slab : Nat) (e : HeldEntry) (h : init.Leads d) : init.Leads (Dev.holdEntry d slab e) := by
  simp [Dev.holdEntry, h]

@[simp] theorem Dev.mirrorLine_leads {init d : Dev} (slab : Nat) (sector : Nat) (heat : Nat) (rid : Option Nat) (h : init.Leads d) : init.Leads (Dev.mirrorLine d slab sector heat rid) := by
  simp [Dev.mirrorLine, h]

@[simp] theorem Dev.mirrorClean_leads {init d : Dev} (slab : Nat) (heat : Nat) (cleaned : Mask) (h : init.Leads d) : init.Leads (Dev.mirrorClean d slab heat cleaned) := by
  simp [Dev.mirrorClean, h]

@[simp] theorem Dev.releaseMirror_leads {init d : Dev} (slab : Nat) (h : init.Leads d) : init.Leads (Dev.releaseMirror d slab) := by
  unfold Dev.releaseMirror
  repeat' first
    | with_reducible assumption
    | (intro v; refine (fun hv : init.Leads v => ?_) ?_; rotate_left; subst v)
    | (intro v; refine (fun hv : init.Leads v.1 => ?_) ?_; rotate_left; subst v)
    | (intro v; refine (fun hv : init.Leads v.2 => ?_) ?_; rotate_left; subst v)
    | intro _
    | (extract_lets -lift +onlyGivenNames w; revert w)
    | dsimp -zeta -zetaDelta only
    | with_reducible apply Dev.forEach_leads
    | with_reducible apply Dev.setWeld_leads
    | with_reducible apply Dev.queueEntry_leads
    | (simp [*]; done)
    | (split <;> try (rename_i e; try obtain rfl := congrArg Prod.fst e; try obtain rfl := congrArg Prod.snd e))

@[simp] theorem Dev.sendResync_leads {init d : Dev} (slab : Nat) (h : init.Leads d) : init.Leads (Dev.sendResync d slab) := by
  unfold Dev.sendResync
  repeat' first
    | with_reducible assumption
    | (intro v; refine (fun hv : init.Leads v => ?_) ?_; rotate_left; subst v)
    | (intro v; refine (fun hv : init.Leads v.1 => ?_) ?_; rotate_left; subst v)
    | (intro v; refine (fun hv : init.Leads v.2 => ?_) ?_; rotate_left; subst v)
    | intro _
    | (extract_lets -lift +onlyGivenNames w; revert w)
    | dsimp -zeta -zetaDelta only
    | with_reducible apply Dev.setRegion_leads
    | with_reducible apply Dev.enqueue_leads
    | (simp [*]; done)
    | (split <;> try (rename_i e; try obtain rfl := congrArg Prod.fst e; try obtain rfl := congrArg Prod.snd e))

@[simp] theorem Dev.answerOwed_leads {init d : Dev} (slab : Nat) (h : init.Leads d) : init.Leads (Dev.answerOwed d slab) := by
  unfold Dev.answerOwed
  repeat' first
    | with_reducible assumption
    | (intro v; refine (fun hv : init.Leads v => ?_) ?_; rotate_left; subst v)
    | (intro v; refine (fun hv : init.Leads v.1 => ?_) ?_; rotate_left; subst v)
    | (intro v; refine (fun hv : init.Leads v.2 => ?_) ?_; rotate_left; subst v)
    | intro _
    | (extract_lets -lift +onlyGivenNames w; revert w)
    | dsimp -zeta -zetaDelta only
    | with_reducible apply Dev.setWeld_leads
    | with_reducible apply Dev.enqueue_leads
    | with_reducible apply Dev.sendResync_leads
    | (simp [*]; done)
    | (split <;> try (rename_i e; try obtain rfl := congrArg Prod.fst e; try obtain rfl := congrArg Prod.snd e))

@[simp] theorem Dev.setReq_leads {init d : Dev} (r : Req) (h : init.Leads d) : init.Leads (Dev.setReq d r) := by
  simp [Dev.setReq, h]

@[simp] theorem Dev.endReq_leads {init d : Dev} (rid : Nat) (h : init.Leads d) : init.Leads (Dev.endReq d rid) := by
  simp [Dev.endReq, h]

@[simp] theorem Dev.hold_leads {init d : Dev} (r : Req) (w : Wait) (h : init.Leads d) : init.Leads (Dev.hold d r w) := by
  simp [Dev.hold, h]

@[simp] theorem Dev.respond_leads {init d : Dev} (src : Src) (tag : Nat) (l : Line) (poison : Bool) (h : init.Leads d) : init.Leads (Dev.respond d src tag l poison) := by
  unfold Dev.respond
  repeat' first
    | with_reducible assumption
    | (intro v; refine (fun hv : init.Leads v => ?_) ?_; rotate_left; subst v)
    | (intro v; refine (fun hv : init.Leads v.1 => ?_) ?_; rotate_left; subst v)
    | (intro v; refine (fun hv : init.Leads v.2 => ?_) ?_; rotate_left; subst v)
    | intro _
    | (extract_lets -lift +onlyGivenNames w; revert w)
    | dsimp -zeta -zetaDelta only
    | with_reducible apply Dev.setF_leads
    | with_reducible apply Dev.emit_leads
    | (simp [*]; done)
    | (split <;> try (rename_i e; try obtain rfl := congrArg Prod.fst e; try obtain rfl := congrArg Prod.snd e))

@[simp] theorem Dev.complete_leads {init d : Dev} (src : Src) (tag : Nat) (h : init.Leads d) : init.Leads (Dev.complete d src tag) := by
  unfold Dev.complete
  repeat' first
    | with_reducible assumption
    | (intro v; refine (fun hv : init.Leads v => ?_) ?_; rotate_left; subst v)
    | (intro v; refine (fun hv : init.Leads v.1 => ?_) ?_; rotate_left; subst v)
    | (intro v; refine (fun hv : init.Leads v.2 => ?_) ?_; rotate_left; subst v)
    | intro _
    | (extract_lets -lift +onlyGivenNames w; revert w)
    | dsimp -zeta -zetaDelta only
    | with_reducible apply Dev.setF_leads
    | with_reducible apply Dev.emit_leads
    | (simp [*]; done)
    | (split <;> try (rename_i e; try obtain rfl := congrArg Prod.fst e; try obtain rfl := congrArg Prod.snd e))

@[simp] theorem Dev.returnCredit_leads {init d : Dev} (r : Req) (h : init.Leads d) : init.Leads (Dev.returnCredit d r) := by
  unfold Dev.returnCredit
  repeat' first
    | with_reducible assumption
    | (intro v; refine (fun hv : init.Leads v => ?_) ?_; rotate_left; subst v)
    | (intro v; refine (fun hv : init.Leads v.1 => ?_) ?_; rotate_left; subst v)
    | (intro v; refine (fun hv : init.Leads v.2 => ?_) ?_; rotate_left; subst v)
    | intro _
    | (extract_lets -lift +onlyGivenNames w; revert w)
    | dsimp -zeta -zetaDelta only
    | with_reducible apply Dev.setF_leads
    | (simp [*]; done)
    | (split <;> try (rename_i e; try obtain rfl := congrArg Prod.fst e; try obtain rfl := congrArg Prod.snd e))

@[simp] theorem Dev.finishWrite_leads {init d : Dev} (r : Req) (acked : Bool) (h : init.Leads d) : init.Leads (Dev.finishWrite d r acked) := by
  unfold Dev.finishWrite
  repeat' first
    | with_reducible assumption
    | (intro v; refine (fun hv : init.Leads v => ?_) ?_; rotate_left; subst v)
    | (intro v; refine (fun hv : init.Leads v.1 => ?_) ?_; rotate_left; subst v)
    | (intro v; refine (fun hv : init.Leads v.2 => ?_) ?_; rotate_left; subst v)
    | intro _
    | (extract_lets -lift +onlyGivenNames w; revert w)
    | dsimp -zeta -zetaDelta only
    | with_reducible apply Dev.endReq_leads
    | with_reducible apply Dev.hold_leads
    | with_reducible apply Dev.complete_leads
    | (simp [*]; done)
    | (split <;> try (rename_i e; try obtain rfl := congrArg Prod.fst e; try obtain rfl := congrArg Prod.snd e))

@[simp] theorem Dev.finishRead_leads {init d : Dev} (r : Req) (poison : Bool) (h : init.Leads d) : init.Leads (Dev.finishRead d r poison) := by
  unfold Dev.finishRead
  repeat' first
    | with_reducible assumption
    | (intro v; refine (fun hv : init.Leads v => ?_) ?_; rotate_left; subst v)
    | (intro v; refine (fun hv : init.Leads v.1 => ?_) ?_; rotate_left; subst v)
    | (intro v; refine (fun hv : init.Leads v.2 => ?_) ?_; rotate_left; subst v)
    | intro _
    | (extract_lets -lift +onlyGivenNames w; revert w)
    | dsimp -zeta -zetaDelta only
    | with_reducible apply Dev.tick_leads
    | with_reducible apply Dev.endReq_leads
    | with_reducible apply Dev.respond_leads
    | (simp [*]; done)
    | (split <;> try (rename_i e; try obtain rfl := congrArg Prod.fst e; try obtain rfl := congrArg Prod.snd e))

@[simp] theorem Dev.raiseC_leads {init d : Dev} (e : Ev) (slab : Nat) (payload : Fields) (h : init.Leads d) : init.Leads (Dev.raiseC d e slab payload) := by
  simp [Dev.raiseC, h]

@[simp] theorem Dev.completeThrough_leads {init d : Dev} (slab : Nat) (rids : Option (List Nat)) (h : init.Leads d) : init.Leads (Dev.completeThrough d slab rids) := by
  unfold Dev.completeThrough
  repeat' first
    | with_reducible assumption
    | (intro v; refine (fun hv : init.Leads v => ?_) ?_; rotate_left; subst v)
    | (intro v; refine (fun hv : init.Leads v.1 => ?_) ?_; rotate_left; subst v)
    | (intro v; refine (fun hv : init.Leads v.2 => ?_) ?_; rotate_left; subst v)
    | intro _
    | (extract_lets -lift +onlyGivenNames w; revert w)
    | dsimp -zeta -zetaDelta only
    | with_reducible apply Dev.forEach_leads
    | with_reducible apply Dev.finishWrite_leads
    | (simp [*]; done)
    | (split <;> try (rename_i e; try obtain rfl := congrArg Prod.fst e; try obtain rfl := congrArg Prod.snd e))

@[simp] theorem Dev.sendFetches_leads {init d : Dev} (die : Nat) (h : init.Leads d) : init.Leads (Dev.sendFetches d die) := by
  unfold Dev.sendFetches
  repeat' first
    | with_reducible assumption
    | (intro v; refine (fun hv : init.Leads v => ?_) ?_; rotate_left; subst v)
    | (intro v; refine (fun hv : init.Leads v.1 => ?_) ?_; rotate_left; subst v)
    | (intro v; refine (fun hv : init.Leads v.2 => ?_) ?_; rotate_left; subst v)
    | intro _
    | (extract_lets -lift +onlyGivenNames w; revert w)
    | dsimp -zeta -zetaDelta only
    | with_reducible apply Dev.forEach_leads
    | with_reducible apply Dev.incF_leads
    | with_reducible apply Dev.setWeld_leads
    | with_reducible apply Dev.enqueue_leads
    | with_reducible apply Dev.fetch_leads
    | (simp [*]; done)
    | (split <;> try (rename_i e; try obtain rfl := congrArg Prod.fst e; try obtain rfl := congrArg Prod.snd e))

@[simp] theorem Dev.fetch_leads {init d : Dev} (slab : Nat) (h : init.Leads d) : init.Leads (Dev.fetch d slab) := by
  unfold Dev.fetch
  repeat' first
    | with_reducible assumption
    | (intro v; refine (fun hv : init.Leads v => ?_) ?_; rotate_left; subst v)
    | (intro v; refine (fun hv : init.Leads v.1 => ?_) ?_; rotate_left; subst v)
    | (intro v; refine (fun hv : init.Leads v.2 => ?_) ?_; rotate_left; subst v)
    | intro _
    | (extract_lets -lift +onlyGivenNames w; revert w)
    | dsimp -zeta -zetaDelta only
    | with_reducible apply Dev.setWeld_leads
    | with_reducible apply Dev.sendFetches_leads
    | (simp [*]; done)
    | (split <;> try (rename_i e; try obtain rfl := congrArg Prod.fst e; try obtain rfl := congrArg Prod.snd e))

@[simp] theorem Dev.poisonWaiting_leads {init d : Dev} (slab : Nat) (h : init.Leads d) : init.Leads (Dev.poisonWaiting d slab) := by
  unfold Dev.poisonWaiting
  repeat' first
    | with_reducible assumption
    | (intro v; refine (fun hv : init.Leads v => ?_) ?_; rotate_left; subst v)
    | (intro v; refine (fun hv : init.Leads v.1 => ?_) ?_; rotate_left; subst v)
    | (intro v; refine (fun hv : init.Leads v.2 => ?_) ?_; rotate_left; subst v)
    | intro _
    | (extract_lets -lift +onlyGivenNames w; revert w)
    | dsimp -zeta -zetaDelta only
    | with_reducible apply Dev.forEach_leads
    | with_reducible apply Dev.finishRead_leads
    | with_reducible apply Dev.fetch_leads
    | (simp [*]; done)
    | (split <;> try (rename_i e; try obtain rfl := congrArg Prod.fst e; try obtain rfl := congrArg Prod.snd e))

@[simp] theorem Dev.failMirror_leads {init d : Dev} (slab : Nat) (lost : Mask) (h : init.Leads d) : init.Leads (Dev.failMirror d slab lost) := by
  unfold Dev.failMirror
  repeat' first
    | with_reducible assumption
    | (intro v; refine (fun hv : init.Leads v => ?_) ?_; rotate_left; subst v)
    | (intro v; refine (fun hv : init.Leads v.1 => ?_) ?_; rotate_left; subst v)
    | (intro v; refine (fun hv : init.Leads v.2 => ?_) ?_; rotate_left; subst v)
    | intro _
    | (extract_lets -lift +onlyGivenNames w; revert w)
    | dsimp -zeta -zetaDelta only
    | with_reducible apply Dev.forEach_leads
    | with_reducible apply Dev.setWeld_leads
    | with_reducible apply Dev.releaseMirror_leads
    | with_reducible apply Dev.endReq_leads
    | with_reducible apply Dev.complete_leads
    | (simp [*]; done)
    | (split <;> try (rename_i e; try obtain rfl := congrArg Prod.fst e; try obtain rfl := congrArg Prod.snd e))

@[simp] theorem Dev.loseFill_leads {init d : Dev} (slab : Nat) (status : Nat) (h : init.Leads d) : init.Leads (Dev.loseFill d slab status) := by
  unfold Dev.loseFill
  repeat' first
    | with_reducible assumption
    | (intro v; refine (fun hv : init.Leads v => ?_) ?_; rotate_left; subst v)
    | (intro v; refine (fun hv : init.Leads v.1 => ?_) ?_; rotate_left; subst v)
    | (intro v; refine (fun hv : init.Leads v.2 => ?_) ?_; rotate_left; subst v)
    | intro _
    | (extract_lets -lift +onlyGivenNames w; revert w)
    | dsimp -zeta -zetaDelta only
    | with_reducible apply Dev.setCru_leads
    | with_reducible apply Dev.modTag_leads
    | with_reducible apply Dev.invalidate_leads
    | with_reducible apply Dev.addPoison_leads
    | with_reducible apply Dev.raiseC_leads
    | with_reducible apply Dev.completeThrough_leads
    | with_reducible apply Dev.poisonWaiting_leads
    | with_reducible apply Dev.failMirror_leads
    | with_reducible apply Dev.leads_foldl
    | (simp [*]; done)
    | (split <;> try (rename_i e; try obtain rfl := congrArg Prod.fst e; try obtain rfl := congrArg Prod.snd e))

@[simp] theorem Dev.failFillHere_leads {init d : Dev} (slab : Nat) (status : Nat) (h : init.Leads d) : init.Leads (Dev.failFillHere d slab status) := by
  simp [Dev.failFillHere, h]

@[simp] theorem Dev.failFill_leads {init d : Dev} (slab : Nat) (status : Nat) (h : init.Leads d) : init.Leads (Dev.failFill d slab status) := by
  unfold Dev.failFill
  repeat' first
    | with_reducible assumption
    | (intro v; refine (fun hv : init.Leads v => ?_) ?_; rotate_left; subst v)
    | (intro v; refine (fun hv : init.Leads v.1 => ?_) ?_; rotate_left; subst v)
    | (intro v; refine (fun hv : init.Leads v.2 => ?_) ?_; rotate_left; subst v)
    | intro _
    | (extract_lets -lift +onlyGivenNames w; revert w)
    | dsimp -zeta -zetaDelta only
    | with_reducible apply Dev.setCru_leads
    | with_reducible apply Dev.raiseC_leads
    | with_reducible apply Dev.fetch_leads
    | with_reducible apply Dev.failFillHere_leads
    | (simp [*]; done)
    | (split <;> try (rename_i e; try obtain rfl := congrArg Prod.fst e; try obtain rfl := congrArg Prod.snd e))

@[simp] theorem Dev.issueFill_leads {init d : Dev} (slab : Nat) (h : init.Leads d) : init.Leads (Dev.issueFill d slab) := by
  unfold Dev.issueFill
  repeat' first
    | with_reducible assumption
    | (intro v; refine (fun hv : init.Leads v => ?_) ?_; rotate_left; subst v)
    | (intro v; refine (fun hv : init.Leads v.1 => ?_) ?_; rotate_left; subst v)
    | (intro v; refine (fun hv : init.Leads v.2 => ?_) ?_; rotate_left; subst v)
    | intro _
    | (extract_lets -lift +onlyGivenNames w; revert w)
    | dsimp -zeta -zetaDelta only
    | with_reducible apply Dev.emit_leads
    | with_reducible apply Dev.setCru_leads
    | with_reducible apply Dev.failFill_leads
    | (simp [*]; done)
    | (split <;> try (rename_i e; try obtain rfl := congrArg Prod.fst e; try obtain rfl := congrArg Prod.snd e))

@[simp] theorem Dev.demand_leads {init d : Dev} (slab : Nat) (h : init.Leads d) : init.Leads (Dev.demand d slab) := by
  simp [Dev.demand, h]

@[simp] theorem Dev.serveWaiting_leads {init d : Dev} (slab : Nat) (h : init.Leads d) : init.Leads (Dev.serveWaiting d slab) := by
  unfold Dev.serveWaiting
  repeat' first
    | with_reducible assumption
    | (intro v; refine (fun hv : init.Leads v => ?_) ?_; rotate_left; subst v)
    | (intro v; refine (fun hv : init.Leads v.1 => ?_) ?_; rotate_left; subst v)
    | (intro v; refine (fun hv : init.Leads v.2 => ?_) ?_; rotate_left; subst v)
    | intro _
    | (extract_lets -lift +onlyGivenNames w; revert w)
    | dsimp -zeta -zetaDelta only
    | with_reducible apply Dev.forEach_leads
    | with_reducible apply Dev.finishRead_leads
    | (simp [*]; done)
    | (split <;> try (rename_i e; try obtain rfl := congrArg Prod.fst e; try obtain rfl := congrArg Prod.snd e))

@[simp] theorem Dev.startDestage_leads {init d : Dev} (slab : Nat) (h : init.Leads d) : init.Leads (Dev.startDestage d slab) := by
  unfold Dev.startDestage
  repeat' first
    | with_reducible assumption
    | (intro v; refine (fun hv : init.Leads v => ?_) ?_; rotate_left; subst v)
    | (intro v; refine (fun hv : init.Leads v.1 => ?_) ?_; rotate_left; subst v)
    | (intro v; refine (fun hv : init.Leads v.2 => ?_) ?_; rotate_left; subst v)
    | intro _
    | (extract_lets -lift +onlyGivenNames w; revert w)
    | dsimp -zeta -zetaDelta only
    | with_reducible apply Dev.emit_leads
    | with_reducible apply Dev.setCru_leads
    | with_reducible apply Dev.modTag_leads
    | (simp [*]; done)
    | (split <;> try (rename_i e; try obtain rfl := congrArg Prod.fst e; try obtain rfl := congrArg Prod.snd e))

@[simp] theorem Dev.landFill_leads {init d : Dev} (slab : Nat) (ls : List Line) (h : init.Leads d) : init.Leads (Dev.landFill d slab ls) := by
  unfold Dev.landFill
  repeat' first
    | with_reducible assumption
    | (intro v; refine (fun hv : init.Leads v => ?_) ?_; rotate_left; subst v)
    | (intro v; refine (fun hv : init.Leads v.1 => ?_) ?_; rotate_left; subst v)
    | (intro v; refine (fun hv : init.Leads v.2 => ?_) ?_; rotate_left; subst v)
    | intro _
    | (extract_lets -lift +onlyGivenNames w; revert w)
    | dsimp -zeta -zetaDelta only
    | with_reducible apply Dev.forEach_leads
    | with_reducible apply Dev.setCru_leads
    | with_reducible apply Dev.modTag_leads
    | with_reducible apply Dev.setLine_leads
    | with_reducible apply Dev.releaseMirror_leads
    | with_reducible apply Dev.answerOwed_leads
    | with_reducible apply Dev.serveWaiting_leads
    | with_reducible apply Dev.startDestage_leads
    | (simp [*]; done)
    | (split <;> try (rename_i e; try obtain rfl := congrArg Prod.fst e; try obtain rfl := congrArg Prod.snd e))

@[simp] theorem Dev.countDetached_leads {init d : Dev} (slab : Nat) (h : init.Leads d) : init.Leads (Dev.countDetached d slab) := by
  simp [Dev.countDetached, h]

@[simp] theorem Dev.endDestage_leads {init d : Dev} (slab : Nat) (h : init.Leads d) : init.Leads (Dev.endDestage d slab) := by
  unfold Dev.endDestage
  repeat' first
    | with_reducible assumption
    | (intro v; refine (fun hv : init.Leads v => ?_) ?_; rotate_left; subst v)
    | (intro v; refine (fun hv : init.Leads v.1 => ?_) ?_; rotate_left; subst v)
    | (intro v; refine (fun hv : init.Leads v.2 => ?_) ?_; rotate_left; subst v)
    | intro _
    | (extract_lets -lift +onlyGivenNames w; revert w)
    | dsimp -zeta -zetaDelta only
    | with_reducible apply Dev.setCru_leads
    | with_reducible apply Dev.modTag_leads
    | with_reducible apply Dev.ceilCheck_leads
    | with_reducible apply Dev.mirrorClean_leads
    | with_reducible apply Dev.completeThrough_leads
    | with_reducible apply Dev.startDestage_leads
    | with_reducible apply Dev.countDetached_leads
    | (simp [*]; done)
    | (split <;> try (rename_i e; try obtain rfl := congrArg Prod.fst e; try obtain rfl := congrArg Prod.snd e))

@[simp] theorem Dev.failDestage_leads {init d : Dev} (slab : Nat) (status : Nat) (h : init.Leads d) : init.Leads (Dev.failDestage d slab status) := by
  unfold Dev.failDestage
  repeat' first
    | with_reducible assumption
    | (intro v; refine (fun hv : init.Leads v => ?_) ?_; rotate_left; subst v)
    | (intro v; refine (fun hv : init.Leads v.1 => ?_) ?_; rotate_left; subst v)
    | (intro v; refine (fun hv : init.Leads v.2 => ?_) ?_; rotate_left; subst v)
    | intro _
    | (extract_lets -lift +onlyGivenNames w; revert w)
    | dsimp -zeta -zetaDelta only
    | with_reducible apply Dev.setCru_leads
    | with_reducible apply Dev.modTag_leads
    | with_reducible apply Dev.raiseC_leads
    | (simp [*]; done)
    | (split <;> try (rename_i e; try obtain rfl := congrArg Prod.fst e; try obtain rfl := congrArg Prod.snd e))

@[simp] theorem Dev.dirDrop_leads {init d : Dev} (line : Nat) (h : init.Leads d) : init.Leads (Dev.dirDrop d line) := by
  unfold Dev.dirDrop
  repeat' first
    | with_reducible assumption
    | (intro v; refine (fun hv : init.Leads v => ?_) ?_; rotate_left; subst v)
    | (intro v; refine (fun hv : init.Leads v.1 => ?_) ?_; rotate_left; subst v)
    | (intro v; refine (fun hv : init.Leads v.2 => ?_) ?_; rotate_left; subst v)
    | intro _
    | (extract_lets -lift +onlyGivenNames w; revert w)
    | dsimp -zeta -zetaDelta only
    | with_reducible apply Dev.raise_leads
    | (simp [*]; done)
    | (split <;> try (rename_i e; try obtain rfl := congrArg Prod.fst e; try obtain rfl := congrArg Prod.snd e))

@[simp] theorem Dev.sendSnoops_leads {init d : Dev} (line : Nat) (hosts : List Nat) (h : init.Leads d) : init.Leads (Dev.sendSnoops d line hosts) := by
  simp [Dev.sendSnoops, h]

@[simp] theorem Dev.dirAdd_leads {init d : Dev} (line : Nat) (host : Nat) (h : init.Leads d) : init.Leads (Dev.dirAdd d line host) := by
  unfold Dev.dirAdd
  repeat' first
    | with_reducible assumption
    | (intro v; refine (fun hv : init.Leads v => ?_) ?_; rotate_left; subst v)
    | (intro v; refine (fun hv : init.Leads v.1 => ?_) ?_; rotate_left; subst v)
    | (intro v; refine (fun hv : init.Leads v.2 => ?_) ?_; rotate_left; subst v)
    | intro _
    | (extract_lets -lift +onlyGivenNames w; revert w)
    | dsimp -zeta -zetaDelta only
    | with_reducible apply Dev.raise_leads
    | (simp [*]; done)
    | (split <;> try (rename_i e; try obtain rfl := congrArg Prod.fst e; try obtain rfl := congrArg Prod.snd e))

@[simp] theorem Dev.dirRemove_leads {init d : Dev} (line : Nat) (host : Nat) (h : init.Leads d) : init.Leads (Dev.dirRemove d line host) := by
  unfold Dev.dirRemove
  repeat' first
    | with_reducible assumption
    | (intro v; refine (fun hv : init.Leads v => ?_) ?_; rotate_left; subst v)
    | (intro v; refine (fun hv : init.Leads v.1 => ?_) ?_; rotate_left; subst v)
    | (intro v; refine (fun hv : init.Leads v.2 => ?_) ?_; rotate_left; subst v)
    | intro _
    | (extract_lets -lift +onlyGivenNames w; revert w)
    | dsimp -zeta -zetaDelta only
    | with_reducible apply Dev.dirDrop_leads
    | (simp [*]; done)
    | (split <;> try (rename_i e; try obtain rfl := congrArg Prod.fst e; try obtain rfl := congrArg Prod.snd e))

@[simp] theorem Dev.countAccepted_leads {init d : Dev} (die : Nat) (r : Nat) (n : Nat) (h : init.Leads d) : init.Leads (Dev.countAccepted d die r n) := by
  simp [Dev.countAccepted, h]

@[simp] theorem Dev.countUnserved_leads {init d : Dev} (die : Nat) (port : Nat) (ld : Option Nat) (dpa : Nat) (write : Bool) (cause : Nat) (h : init.Leads d) : init.Leads (Dev.countUnserved d die port ld dpa write cause) := by
  unfold Dev.countUnserved
  repeat' first
    | with_reducible assumption
    | (intro v; refine (fun hv : init.Leads v => ?_) ?_; rotate_left; subst v)
    | (intro v; refine (fun hv : init.Leads v.1 => ?_) ?_; rotate_left; subst v)
    | (intro v; refine (fun hv : init.Leads v.2 => ?_) ?_; rotate_left; subst v)
    | intro _
    | (extract_lets -lift +onlyGivenNames w; revert w)
    | dsimp -zeta -zetaDelta only
    | with_reducible apply Dev.tick_leads
    | with_reducible apply Dev.incF_leads
    | with_reducible apply Dev.raise_leads
    | (simp [*]; done)
    | (split <;> try (rename_i e; try obtain rfl := congrArg Prod.fst e; try obtain rfl := congrArg Prod.snd e))

end Sys2Proof.Machine
end

