-- ==== Sys2Proof/Laws/LeadsAdmit.lean ====
section
/-! SUPPORT. What admission, mailbox replies and keys never break (Leads), one lemma a function; each command runs (Runs), one lemma a command. -/

namespace Sys2Proof.Machine

open Sys2Proof

set_option linter.tactic.unusedName false
set_option linter.unusedTactic false
set_option linter.unreachableTactic false
set_option linter.unusedSimpArgs false
set_option linter.unusedVariables false

@[simp] theorem Dev.reportLockFull_leads {init d : Dev} (slice : Nat) (h : init.Leads d) : init.Leads (Dev.reportLockFull d slice) := by
  unfold Dev.reportLockFull
  repeat' first
    | with_reducible assumption
    | (intro v; refine (fun hv : init.Leads v => ?_) ?_; rotate_left; subst v)
    | (intro v; refine (fun hv : init.Leads v.1 => ?_) ?_; rotate_left; subst v)
    | (intro v; refine (fun hv : init.Leads v.2 => ?_) ?_; rotate_left; subst v)
    | intro _
    | (extract_lets -lift +onlyGivenNames w; revert w)
    | dsimp -zeta -zetaDelta only
    | with_reducible apply Dev.setB_leads
    | with_reducible apply Dev.raise_leads
    | (simp [*]; done)
    | (split <;> try (rename_i e; try obtain rfl := congrArg Prod.fst e; try obtain rfl := congrArg Prod.snd e))

@[simp] theorem Dev.arrive_leads {init d : Dev} (src : Src) (kind : ReqKind) (slab : Nat) (sector : Nat) (data : Line) (be : Mask) (tag : Nat) (heat : Nat) (h : init.Leads d) : init.Leads (Dev.arrive d src kind slab sector data be tag heat) := by
  unfold Dev.arrive
  repeat' first
    | with_reducible assumption
    | (intro v; refine (fun hv : init.Leads v => ?_) ?_; rotate_left; subst v)
    | (intro v; refine (fun hv : init.Leads v.1 => ?_) ?_; rotate_left; subst v)
    | (intro v; refine (fun hv : init.Leads v.2 => ?_) ?_; rotate_left; subst v)
    | intro _
    | (extract_lets -lift +onlyGivenNames w; revert w)
    | dsimp -zeta -zetaDelta only
    | with_reducible apply Dev.setB_leads
    | with_reducible apply Dev.setCru_leads
    | with_reducible apply Dev.reportLockFull_leads
    | (simp [*]; done)
    | (split <;> try (rename_i e; try obtain rfl := congrArg Prod.fst e; try obtain rfl := congrArg Prod.snd e))

@[simp] theorem Dev.holdAs_leads {init d : Dev} (r : Req) (w : Wait) (stalled : Bool) (h : init.Leads d) : init.Leads (Dev.holdAs d r w stalled) := by
  unfold Dev.holdAs
  repeat' first
    | with_reducible assumption
    | (intro v; refine (fun hv : init.Leads v => ?_) ?_; rotate_left; subst v)
    | (intro v; refine (fun hv : init.Leads v.1 => ?_) ?_; rotate_left; subst v)
    | (intro v; refine (fun hv : init.Leads v.2 => ?_) ?_; rotate_left; subst v)
    | intro _
    | (extract_lets -lift +onlyGivenNames w; revert w)
    | dsimp -zeta -zetaDelta only
    | with_reducible apply Dev.incF_leads
    | with_reducible apply Dev.hold_leads
    | (simp [*]; done)
    | (split <;> try (rename_i e; try obtain rfl := congrArg Prod.fst e; try obtain rfl := congrArg Prod.snd e))

@[simp] theorem Dev.noWay_leads {init d : Dev} (slab : Nat) (blocked : Bool) (h : init.Leads d) : init.Leads (Dev.noWay d slab blocked) := by
  unfold Dev.noWay
  repeat' first
    | with_reducible assumption
    | (intro v; refine (fun hv : init.Leads v => ?_) ?_; rotate_left; subst v)
    | (intro v; refine (fun hv : init.Leads v.1 => ?_) ?_; rotate_left; subst v)
    | (intro v; refine (fun hv : init.Leads v.2 => ?_) ?_; rotate_left; subst v)
    | intro _
    | (extract_lets -lift +onlyGivenNames w; revert w)
    | dsimp -zeta -zetaDelta only
    | with_reducible apply Dev.forEach_leads
    | with_reducible apply Dev.setB_leads
    | with_reducible apply Dev.raiseC_leads
    | with_reducible apply Dev.demand_leads
    | (simp [*]; done)
    | (split <;> try (rename_i e; try obtain rfl := congrArg Prod.fst e; try obtain rfl := congrArg Prod.snd e))

@[simp] theorem Dev.putLine_leads {init d : Dev} (slab : Nat) (sector : Nat) (data : Line) (be : Mask) (unfilled : Bool) (h : init.Leads d) : init.Leads (Dev.putLine d slab sector data be unfilled) := by
  unfold Dev.putLine
  repeat' first
    | with_reducible assumption
    | (intro v; refine (fun hv : init.Leads v => ?_) ?_; rotate_left; subst v)
    | (intro v; refine (fun hv : init.Leads v.1 => ?_) ?_; rotate_left; subst v)
    | (intro v; refine (fun hv : init.Leads v.2 => ?_) ?_; rotate_left; subst v)
    | intro _
    | (extract_lets -lift +onlyGivenNames w; revert w)
    | dsimp -zeta -zetaDelta only
    | with_reducible apply Dev.setCru_leads
    | with_reducible apply Dev.setLine_leads
    | (simp [*]; done)
    | (split <;> try (rename_i e; try obtain rfl := congrArg Prod.fst e; try obtain rfl := congrArg Prod.snd e))

@[simp] theorem Dev.strandCheck_leads {init d : Dev} (n : Nat) (h : init.Leads d) : init.Leads (Dev.strandCheck d n) := by
  unfold Dev.strandCheck
  repeat' first
    | with_reducible assumption
    | (intro v; refine (fun hv : init.Leads v => ?_) ?_; rotate_left; subst v)
    | (intro v; refine (fun hv : init.Leads v.1 => ?_) ?_; rotate_left; subst v)
    | (intro v; refine (fun hv : init.Leads v.2 => ?_) ?_; rotate_left; subst v)
    | intro _
    | (extract_lets -lift +onlyGivenNames w; revert w)
    | dsimp -zeta -zetaDelta only
    | with_reducible apply Dev.raise_leads
    | (simp [*]; done)
    | (split <;> try (rename_i e; try obtain rfl := congrArg Prod.fst e; try obtain rfl := congrArg Prod.snd e))

@[simp] theorem Dev.takeEffect_leads {init d : Dev} (r : Req) (w : Take) (h : init.Leads d) : init.Leads (Dev.takeEffect d r w) := by
  unfold Dev.takeEffect
  repeat' first
    | with_reducible assumption
    | (intro v; refine (fun hv : init.Leads v => ?_) ?_; rotate_left; subst v)
    | (intro v; refine (fun hv : init.Leads v.1 => ?_) ?_; rotate_left; subst v)
    | (intro v; refine (fun hv : init.Leads v.2 => ?_) ?_; rotate_left; subst v)
    | intro _
    | (extract_lets -lift +onlyGivenNames w; revert w)
    | dsimp -zeta -zetaDelta only
    | with_reducible apply Dev.setCru_leads
    | with_reducible apply Dev.modTag_leads
    | with_reducible apply Dev.allocate_leads
    | with_reducible apply Dev.delPoison_leads
    | with_reducible apply Dev.ceilCheck_leads
    | with_reducible apply Dev.append_leads
    | with_reducible apply Dev.mirrorLine_leads
    | with_reducible apply Dev.raiseC_leads
    | with_reducible apply Dev.issueFill_leads
    | with_reducible apply Dev.putLine_leads
    | with_reducible apply Dev.strandCheck_leads
    | (simp [*]; done)
    | (split <;> try (rename_i e; try obtain rfl := congrArg Prod.fst e; try obtain rfl := congrArg Prod.snd e))

@[simp] theorem Dev.ackEntry_leads {init d : Dev} (r : Req) (notHeld : Bool) (h : init.Leads d) : init.Leads (Dev.ackEntry d r notHeld) := by
  unfold Dev.ackEntry
  repeat' first
    | with_reducible assumption
    | (intro v; refine (fun hv : init.Leads v => ?_) ?_; rotate_left; subst v)
    | (intro v; refine (fun hv : init.Leads v.1 => ?_) ?_; rotate_left; subst v)
    | (intro v; refine (fun hv : init.Leads v.2 => ?_) ?_; rotate_left; subst v)
    | intro _
    | (extract_lets -lift +onlyGivenNames w; revert w)
    | dsimp -zeta -zetaDelta only
    | with_reducible apply Dev.setWeld_leads
    | with_reducible apply Dev.mirrorLine_leads
    | with_reducible apply Dev.mirrorClean_leads
    | (simp [*]; done)
    | (split <;> try (rename_i e; try obtain rfl := congrArg Prod.fst e; try obtain rfl := congrArg Prod.snd e))

@[simp] theorem Dev.endWrite_leads {init d : Dev} (r : Req) (w : Take) (h : init.Leads d) : init.Leads (Dev.endWrite d r w) := by
  unfold Dev.endWrite
  repeat' first
    | with_reducible assumption
    | (intro v; refine (fun hv : init.Leads v => ?_) ?_; rotate_left; subst v)
    | (intro v; refine (fun hv : init.Leads v.1 => ?_) ?_; rotate_left; subst v)
    | (intro v; refine (fun hv : init.Leads v.2 => ?_) ?_; rotate_left; subst v)
    | intro _
    | (extract_lets -lift +onlyGivenNames w; revert w)
    | dsimp -zeta -zetaDelta only
    | with_reducible apply Dev.mirrorLine_leads
    | with_reducible apply Dev.endReq_leads
    | with_reducible apply Dev.hold_leads
    | with_reducible apply Dev.returnCredit_leads
    | with_reducible apply Dev.finishWrite_leads
    | with_reducible apply Dev.startDestage_leads
    | with_reducible apply Dev.ackEntry_leads
    | (simp [*]; done)
    | (split <;> try (rename_i e; try obtain rfl := congrArg Prod.fst e; try obtain rfl := congrArg Prod.snd e))

@[simp] theorem Dev.dropPartial_leads {init d : Dev} (r : Req) (h : init.Leads d) : init.Leads (Dev.dropPartial d r) := by
  unfold Dev.dropPartial
  repeat' first
    | with_reducible assumption
    | (intro v; refine (fun hv : init.Leads v => ?_) ?_; rotate_left; subst v)
    | (intro v; refine (fun hv : init.Leads v.1 => ?_) ?_; rotate_left; subst v)
    | (intro v; refine (fun hv : init.Leads v.2 => ?_) ?_; rotate_left; subst v)
    | intro _
    | (extract_lets -lift +onlyGivenNames w; revert w)
    | dsimp -zeta -zetaDelta only
    | with_reducible apply Dev.incF_leads
    | with_reducible apply Dev.mirrorLine_leads
    | with_reducible apply Dev.endReq_leads
    | with_reducible apply Dev.complete_leads
    | with_reducible apply Dev.returnCredit_leads
    | with_reducible apply Dev.ackEntry_leads
    | (simp [*]; done)
    | (split <;> try (rename_i e; try obtain rfl := congrArg Prod.fst e; try obtain rfl := congrArg Prod.snd e))

@[simp] theorem Dev.setStaging_leads {init d : Dev} (rid : Nat) (g : Staging) (h : init.Leads d) : init.Leads (Dev.setStaging d rid g) := by
  simp [Dev.setStaging, h]

@[simp] theorem Dev.runStaging_leads {init d : Dev} (rid : Nat) (g : Staging) (h : init.Leads d) : init.Leads (Dev.runStaging d rid g) := by
  unfold Dev.runStaging
  repeat' first
    | with_reducible assumption
    | (intro v; refine (fun hv : init.Leads v => ?_) ?_; rotate_left; subst v)
    | (intro v; refine (fun hv : init.Leads v.1 => ?_) ?_; rotate_left; subst v)
    | (intro v; refine (fun hv : init.Leads v.2 => ?_) ?_; rotate_left; subst v)
    | intro _
    | (extract_lets -lift +onlyGivenNames w; revert w)
    | dsimp -zeta -zetaDelta only
    | with_reducible apply Dev.emit_leads
    | with_reducible apply Dev.setStaging_leads
    | (simp [*]; done)
    | (split <;> try (rename_i e; try obtain rfl := congrArg Prod.fst e; try obtain rfl := congrArg Prod.snd e))

@[simp] theorem Dev.stageWrite_leads {init d : Dev} (r : Req) (h : init.Leads d) : init.Leads (Dev.stageWrite d r) := by
  unfold Dev.stageWrite
  repeat' first
    | with_reducible assumption
    | (intro v; refine (fun hv : init.Leads v => ?_) ?_; rotate_left; subst v)
    | (intro v; refine (fun hv : init.Leads v.1 => ?_) ?_; rotate_left; subst v)
    | (intro v; refine (fun hv : init.Leads v.2 => ?_) ?_; rotate_left; subst v)
    | intro _
    | (extract_lets -lift +onlyGivenNames w; revert w)
    | dsimp -zeta -zetaDelta only
    | with_reducible apply Dev.ceilCheck_leads
    | with_reducible apply Dev.hold_leads
    | with_reducible apply Dev.returnCredit_leads
    | with_reducible apply Dev.runStaging_leads
    | (simp [*]; done)
    | (split <;> try (rename_i e; try obtain rfl := congrArg Prod.fst e; try obtain rfl := congrArg Prod.snd e))

@[simp] theorem Dev.stageAtT0_leads {init d : Dev} (r : Req) (h : init.Leads d) : init.Leads (Dev.stageAtT0 d r) := by
  unfold Dev.stageAtT0
  repeat' first
    | with_reducible assumption
    | (intro v; refine (fun hv : init.Leads v => ?_) ?_; rotate_left; subst v)
    | (intro v; refine (fun hv : init.Leads v.1 => ?_) ?_; rotate_left; subst v)
    | (intro v; refine (fun hv : init.Leads v.2 => ?_) ?_; rotate_left; subst v)
    | intro _
    | (extract_lets -lift +onlyGivenNames w; revert w)
    | dsimp -zeta -zetaDelta only
    | with_reducible apply Dev.endReq_leads
    | with_reducible apply Dev.returnCredit_leads
    | with_reducible apply Dev.setStaging_leads
    | (simp [*]; done)
    | (split <;> try (rename_i e; try obtain rfl := congrArg Prod.fst e; try obtain rfl := congrArg Prod.snd e))

@[simp] theorem Dev.mergeAtT0_leads {init d : Dev} (r : Req) (rid : Nat) (g : Staging) (h : init.Leads d) : init.Leads (Dev.mergeAtT0 d r rid g) := by
  unfold Dev.mergeAtT0
  repeat' first
    | with_reducible assumption
    | (intro v; refine (fun hv : init.Leads v => ?_) ?_; rotate_left; subst v)
    | (intro v; refine (fun hv : init.Leads v.1 => ?_) ?_; rotate_left; subst v)
    | (intro v; refine (fun hv : init.Leads v.2 => ?_) ?_; rotate_left; subst v)
    | intro _
    | (extract_lets -lift +onlyGivenNames w; revert w)
    | dsimp -zeta -zetaDelta only
    | with_reducible apply Dev.endReq_leads
    | with_reducible apply Dev.returnCredit_leads
    | with_reducible apply Dev.setStaging_leads
    | (simp [*]; done)
    | (split <;> try (rename_i e; try obtain rfl := congrArg Prod.fst e; try obtain rfl := congrArg Prod.snd e))

@[simp] theorem Dev.snoop_leads {init d : Dev} (r : Req) (line : Nat) (hosts : List Nat) (h : init.Leads d) : init.Leads (Dev.snoop d r line hosts) := by
  simp [Dev.snoop, h]

@[simp] theorem Dev.holdJournal_leads {init d : Dev} (r : Req) (h : init.Leads d) : init.Leads (Dev.holdJournal d r) := by
  unfold Dev.holdJournal
  repeat' first
    | with_reducible assumption
    | (intro v; refine (fun hv : init.Leads v => ?_) ?_; rotate_left; subst v)
    | (intro v; refine (fun hv : init.Leads v.1 => ?_) ?_; rotate_left; subst v)
    | (intro v; refine (fun hv : init.Leads v.2 => ?_) ?_; rotate_left; subst v)
    | intro _
    | (extract_lets -lift +onlyGivenNames w; revert w)
    | dsimp -zeta -zetaDelta only
    | with_reducible apply Dev.setB_leads
    | with_reducible apply Dev.raise_leads
    | with_reducible apply Dev.hold_leads
    | (simp [*]; done)
    | (split <;> try (rename_i e; try obtain rfl := congrArg Prod.fst e; try obtain rfl := congrArg Prod.snd e))

@[simp] theorem Dev.holdReceive_leads {init d : Dev} (r : Req) (h : init.Leads d) : init.Leads (Dev.holdReceive d r) := by
  unfold Dev.holdReceive
  repeat' first
    | with_reducible assumption
    | (intro v; refine (fun hv : init.Leads v => ?_) ?_; rotate_left; subst v)
    | (intro v; refine (fun hv : init.Leads v.1 => ?_) ?_; rotate_left; subst v)
    | (intro v; refine (fun hv : init.Leads v.2 => ?_) ?_; rotate_left; subst v)
    | intro _
    | (extract_lets -lift +onlyGivenNames w; revert w)
    | dsimp -zeta -zetaDelta only
    | with_reducible apply Dev.raiseB_leads
    | with_reducible apply Dev.hold_leads
    | with_reducible apply Dev.setCeil_leads
    | (simp [*]; done)
    | (split <;> try (rename_i e; try obtain rfl := congrArg Prod.fst e; try obtain rfl := congrArg Prod.snd e))

@[simp] theorem Dev.admitChosen_leads {init d : Dev} (r : Req) (alloc : Option (Nat × Option Nat)) (frameless : Bool) (h : init.Leads d) : init.Leads (Dev.admitChosen d r alloc frameless) := by
  unfold Dev.admitChosen
  repeat' first
    | with_reducible assumption
    | (intro v; refine (fun hv : init.Leads v => ?_) ?_; rotate_left; subst v)
    | (intro v; refine (fun hv : init.Leads v.1 => ?_) ?_; rotate_left; subst v)
    | (intro v; refine (fun hv : init.Leads v.2 => ?_) ?_; rotate_left; subst v)
    | intro _
    | (extract_lets -lift +onlyGivenNames w; revert w)
    | dsimp -zeta -zetaDelta only
    | with_reducible apply Dev.incF_leads
    | with_reducible apply Dev.mirrorLine_leads
    | with_reducible apply Dev.hold_leads
    | with_reducible apply Dev.takeEffect_leads
    | with_reducible apply Dev.endWrite_leads
    | with_reducible apply Dev.holdJournal_leads
    | with_reducible apply Dev.holdReceive_leads
    | (simp [*]; done)
    | (split <;> try (rename_i e; try obtain rfl := congrArg Prod.fst e; try obtain rfl := congrArg Prod.snd e))

@[simp] theorem Dev.admitMiss_leads {init d : Dev} (r : Req) (frameless : Bool) (h : init.Leads d) : init.Leads (Dev.admitMiss d r frameless) := by
  unfold Dev.admitMiss
  repeat' first
    | with_reducible assumption
    | (intro v; refine (fun hv : init.Leads v => ?_) ?_; rotate_left; subst v)
    | (intro v; refine (fun hv : init.Leads v.1 => ?_) ?_; rotate_left; subst v)
    | (intro v; refine (fun hv : init.Leads v.2 => ?_) ?_; rotate_left; subst v)
    | intro _
    | (extract_lets -lift +onlyGivenNames w; revert w)
    | dsimp -zeta -zetaDelta only
    | with_reducible apply Dev.incF_leads
    | with_reducible apply Dev.mirrorLine_leads
    | with_reducible apply Dev.hold_leads
    | with_reducible apply Dev.startDestage_leads
    | with_reducible apply Dev.holdAs_leads
    | with_reducible apply Dev.noWay_leads
    | with_reducible apply Dev.stageWrite_leads
    | with_reducible apply Dev.stageAtT0_leads
    | with_reducible apply Dev.admitChosen_leads
    | (simp [*]; done)
    | (split <;> try (rename_i e; try obtain rfl := congrArg Prod.fst e; try obtain rfl := congrArg Prod.snd e))

@[simp] theorem Dev.admitWrite_leads {init d : Dev} (r : Req) (h : init.Leads d) : init.Leads (Dev.admitWrite d r) := by
  unfold Dev.admitWrite
  repeat' first
    | with_reducible assumption
    | (intro v; refine (fun hv : init.Leads v => ?_) ?_; rotate_left; subst v)
    | (intro v; refine (fun hv : init.Leads v.1 => ?_) ?_; rotate_left; subst v)
    | (intro v; refine (fun hv : init.Leads v.2 => ?_) ?_; rotate_left; subst v)
    | intro _
    | (extract_lets -lift +onlyGivenNames w; revert w)
    | dsimp -zeta -zetaDelta only
    | with_reducible apply Dev.setCru_leads
    | with_reducible apply Dev.delPoison_leads
    | with_reducible apply Dev.mirrorLine_leads
    | with_reducible apply Dev.hold_leads
    | with_reducible apply Dev.dropPartial_leads
    | with_reducible apply Dev.stageWrite_leads
    | with_reducible apply Dev.stageAtT0_leads
    | with_reducible apply Dev.mergeAtT0_leads
    | with_reducible apply Dev.admitChosen_leads
    | with_reducible apply Dev.admitMiss_leads
    | (simp [*]; done)
    | (split <;> try (rename_i e; try obtain rfl := congrArg Prod.fst e; try obtain rfl := congrArg Prod.snd e))

@[simp] theorem Dev.admitClean_leads {init d : Dev} (r : Req) (h : init.Leads d) : init.Leads (Dev.admitClean d r) := by
  unfold Dev.admitClean
  repeat' first
    | with_reducible assumption
    | (intro v; refine (fun hv : init.Leads v => ?_) ?_; rotate_left; subst v)
    | (intro v; refine (fun hv : init.Leads v.1 => ?_) ?_; rotate_left; subst v)
    | (intro v; refine (fun hv : init.Leads v.2 => ?_) ?_; rotate_left; subst v)
    | intro _
    | (extract_lets -lift +onlyGivenNames w; revert w)
    | dsimp -zeta -zetaDelta only
    | with_reducible apply Dev.modTag_leads
    | with_reducible apply Dev.invalidate_leads
    | with_reducible apply Dev.delPoison_leads
    | with_reducible apply Dev.ceilCheck_leads
    | with_reducible apply Dev.endReq_leads
    | with_reducible apply Dev.ackEntry_leads
    | (simp [*]; done)
    | (split <;> try (rename_i e; try obtain rfl := congrArg Prod.fst e; try obtain rfl := congrArg Prod.snd e))

@[simp] theorem Dev.strayEntry_leads {init d : Dev} (r : Req) (h : init.Leads d) : init.Leads (Dev.strayEntry d r) := by
  unfold Dev.strayEntry
  repeat' first
    | with_reducible assumption
    | (intro v; refine (fun hv : init.Leads v => ?_) ?_; rotate_left; subst v)
    | (intro v; refine (fun hv : init.Leads v.1 => ?_) ?_; rotate_left; subst v)
    | (intro v; refine (fun hv : init.Leads v.2 => ?_) ?_; rotate_left; subst v)
    | intro _
    | (extract_lets -lift +onlyGivenNames w; revert w)
    | dsimp -zeta -zetaDelta only
    | with_reducible apply Dev.incF_leads
    | with_reducible apply Dev.endReq_leads
    | with_reducible apply Dev.ackEntry_leads
    | (simp [*]; done)
    | (split <;> try (rename_i e; try obtain rfl := congrArg Prod.fst e; try obtain rfl := congrArg Prod.snd e))

@[simp] theorem Dev.withdraw_leads {init d : Dev} (slab : Nat) (h : init.Leads d) : init.Leads (Dev.withdraw d slab) := by
  unfold Dev.withdraw
  repeat' first
    | with_reducible assumption
    | (intro v; refine (fun hv : init.Leads v => ?_) ?_; rotate_left; subst v)
    | (intro v; refine (fun hv : init.Leads v.1 => ?_) ?_; rotate_left; subst v)
    | (intro v; refine (fun hv : init.Leads v.2 => ?_) ?_; rotate_left; subst v)
    | intro _
    | (extract_lets -lift +onlyGivenNames w; revert w)
    | dsimp -zeta -zetaDelta only
    | with_reducible apply Dev.setF_leads
    | (simp [*]; done)
    | (split <;> try (rename_i e; try obtain rfl := congrArg Prod.fst e; try obtain rfl := congrArg Prod.snd e))

@[simp] theorem Dev.setResync_leads {init d : Dev} (n : Nat) (slabs : List Nat) (h : init.Leads d) : init.Leads (Dev.setResync d n slabs) := by
  simp [Dev.setResync, h]

@[simp] theorem Dev.resyncHere_leads {init d : Dev} (slab : Nat) (h : init.Leads d) : init.Leads (Dev.resyncHere d slab) := by
  unfold Dev.resyncHere
  repeat' first
    | with_reducible assumption
    | (intro v; refine (fun hv : init.Leads v => ?_) ?_; rotate_left; subst v)
    | (intro v; refine (fun hv : init.Leads v.1 => ?_) ?_; rotate_left; subst v)
    | (intro v; refine (fun hv : init.Leads v.2 => ?_) ?_; rotate_left; subst v)
    | intro _
    | (extract_lets -lift +onlyGivenNames w; revert w)
    | dsimp -zeta -zetaDelta only
    | with_reducible apply Dev.setResync_leads
    | (simp [*]; done)
    | (split <;> try (rename_i e; try obtain rfl := congrArg Prod.fst e; try obtain rfl := congrArg Prod.snd e))

@[simp] theorem Dev.writeResync_leads {init d : Dev} (r : Req) (kind : Nat) (mask : Mask) (ls : List Line) (way : Option (Nat × Option Nat)) (h : init.Leads d) : init.Leads (Dev.writeResync d r kind mask ls way) := by
  unfold Dev.writeResync
  repeat' first
    | with_reducible assumption
    | (intro v; refine (fun hv : init.Leads v => ?_) ?_; rotate_left; subst v)
    | (intro v; refine (fun hv : init.Leads v.1 => ?_) ?_; rotate_left; subst v)
    | (intro v; refine (fun hv : init.Leads v.2 => ?_) ?_; rotate_left; subst v)
    | intro _
    | (extract_lets -lift +onlyGivenNames w; revert w)
    | dsimp -zeta -zetaDelta only
    | with_reducible apply Dev.forEach_leads
    | with_reducible apply Dev.setCru_leads
    | with_reducible apply Dev.modTag_leads
    | with_reducible apply Dev.allocate_leads
    | with_reducible apply Dev.setLine_leads
    | with_reducible apply Dev.addPoison_leads
    | with_reducible apply Dev.delPoison_leads
    | with_reducible apply Dev.ceilCheck_leads
    | with_reducible apply Dev.append_leads
    | with_reducible apply Dev.endReq_leads
    | with_reducible apply Dev.serveWaiting_leads
    | with_reducible apply Dev.resyncHere_leads
    | (simp [*]; done)
    | (split <;> try (rename_i e; try obtain rfl := congrArg Prod.fst e; try obtain rfl := congrArg Prod.snd e))

@[simp] theorem Dev.admitResync_leads {init d : Dev} (r : Req) (kind : Nat) (mask : Mask) (ls : List Line) (h : init.Leads d) : init.Leads (Dev.admitResync d r kind mask ls) := by
  unfold Dev.admitResync
  repeat' first
    | with_reducible assumption
    | (intro v; refine (fun hv : init.Leads v => ?_) ?_; rotate_left; subst v)
    | (intro v; refine (fun hv : init.Leads v.1 => ?_) ?_; rotate_left; subst v)
    | (intro v; refine (fun hv : init.Leads v.2 => ?_) ?_; rotate_left; subst v)
    | intro _
    | (extract_lets -lift +onlyGivenNames w; revert w)
    | dsimp -zeta -zetaDelta only
    | with_reducible apply Dev.setCru_leads
    | with_reducible apply Dev.invalidate_leads
    | with_reducible apply Dev.delPoison_leads
    | with_reducible apply Dev.ceilCheck_leads
    | with_reducible apply Dev.endReq_leads
    | with_reducible apply Dev.startDestage_leads
    | with_reducible apply Dev.holdAs_leads
    | with_reducible apply Dev.noWay_leads
    | with_reducible apply Dev.setStaging_leads
    | with_reducible apply Dev.holdJournal_leads
    | with_reducible apply Dev.withdraw_leads
    | with_reducible apply Dev.resyncHere_leads
    | with_reducible apply Dev.writeResync_leads
    | (simp [*]; done)
    | (split <;> try (rename_i e; try obtain rfl := congrArg Prod.fst e; try obtain rfl := congrArg Prod.snd e))

@[simp] theorem Dev.readUncached_leads {init d : Dev} (r : Req) (h : init.Leads d) : init.Leads (Dev.readUncached d r) := by
  unfold Dev.readUncached
  repeat' first
    | with_reducible assumption
    | (intro v; refine (fun hv : init.Leads v => ?_) ?_; rotate_left; subst v)
    | (intro v; refine (fun hv : init.Leads v.1 => ?_) ?_; rotate_left; subst v)
    | (intro v; refine (fun hv : init.Leads v.2 => ?_) ?_; rotate_left; subst v)
    | intro _
    | (extract_lets -lift +onlyGivenNames w; revert w)
    | dsimp -zeta -zetaDelta only
    | with_reducible apply Dev.emit_leads
    | with_reducible apply Dev.hold_leads
    | with_reducible apply Dev.returnCredit_leads
    | with_reducible apply Dev.finishRead_leads
    | (simp [*]; done)
    | (split <;> try (rename_i e; try obtain rfl := congrArg Prod.fst e; try obtain rfl := congrArg Prod.snd e))

@[simp] theorem Dev.waitFill_leads {init d : Dev} (r : Req) (h : init.Leads d) : init.Leads (Dev.waitFill d r) := by
  unfold Dev.waitFill
  repeat' first
    | with_reducible assumption
    | (intro v; refine (fun hv : init.Leads v => ?_) ?_; rotate_left; subst v)
    | (intro v; refine (fun hv : init.Leads v.1 => ?_) ?_; rotate_left; subst v)
    | (intro v; refine (fun hv : init.Leads v.2 => ?_) ?_; rotate_left; subst v)
    | intro _
    | (extract_lets -lift +onlyGivenNames w; revert w)
    | dsimp -zeta -zetaDelta only
    | with_reducible apply Dev.hold_leads
    | with_reducible apply Dev.returnCredit_leads
    | with_reducible apply Dev.issueFill_leads
    | with_reducible apply Dev.demand_leads
    | (simp [*]; done)
    | (split <;> try (rename_i e; try obtain rfl := congrArg Prod.fst e; try obtain rfl := congrArg Prod.snd e))

@[simp] theorem Dev.poisonSector_leads {init d : Dev} (slab : Nat) (sector : Nat) (cause : Nat) (h : init.Leads d) : init.Leads (Dev.poisonSector d slab sector cause) := by
  unfold Dev.poisonSector
  repeat' first
    | with_reducible assumption
    | (intro v; refine (fun hv : init.Leads v => ?_) ?_; rotate_left; subst v)
    | (intro v; refine (fun hv : init.Leads v.1 => ?_) ?_; rotate_left; subst v)
    | (intro v; refine (fun hv : init.Leads v.2 => ?_) ?_; rotate_left; subst v)
    | intro _
    | (extract_lets -lift +onlyGivenNames w; revert w)
    | dsimp -zeta -zetaDelta only
    | with_reducible apply Dev.modTag_leads
    | with_reducible apply Dev.addPoison_leads
    | with_reducible apply Dev.ceilCheck_leads
    | with_reducible apply Dev.raiseC_leads
    | with_reducible apply Dev.completeThrough_leads
    | (simp [*]; done)
    | (split <;> try (rename_i e; try obtain rfl := congrArg Prod.fst e; try obtain rfl := congrArg Prod.snd e))

@[simp] theorem Dev.readHit_leads {init d : Dev} (r : Req) (t : Tag) (h : init.Leads d) : init.Leads (Dev.readHit d r t) := by
  unfold Dev.readHit
  repeat' first
    | with_reducible assumption
    | (intro v; refine (fun hv : init.Leads v => ?_) ?_; rotate_left; subst v)
    | (intro v; refine (fun hv : init.Leads v.1 => ?_) ?_; rotate_left; subst v)
    | (intro v; refine (fun hv : init.Leads v.2 => ?_) ?_; rotate_left; subst v)
    | intro _
    | (extract_lets -lift +onlyGivenNames w; revert w)
    | dsimp -zeta -zetaDelta only
    | with_reducible apply Dev.returnCredit_leads
    | with_reducible apply Dev.finishRead_leads
    | with_reducible apply Dev.waitFill_leads
    | (simp [*]; done)
    | (split <;> try (rename_i e; try obtain rfl := congrArg Prod.fst e; try obtain rfl := congrArg Prod.snd e))

@[simp] theorem Dev.recover_leads {init d : Dev} (slab : Nat) (sector : Nat) (h : init.Leads d) : init.Leads (Dev.recover d slab sector) := by
  simp [Dev.recover, h]

@[simp] theorem Dev.readBad_leads {init d : Dev} (r : Req) (t : Tag) (h : init.Leads d) : init.Leads (Dev.readBad d r t) := by
  unfold Dev.readBad
  repeat' first
    | with_reducible assumption
    | (intro v; refine (fun hv : init.Leads v => ?_) ?_; rotate_left; subst v)
    | (intro v; refine (fun hv : init.Leads v.1 => ?_) ?_; rotate_left; subst v)
    | (intro v; refine (fun hv : init.Leads v.2 => ?_) ?_; rotate_left; subst v)
    | intro _
    | (extract_lets -lift +onlyGivenNames w; revert w)
    | dsimp -zeta -zetaDelta only
    | with_reducible apply Dev.modTag_leads
    | with_reducible apply Dev.hold_leads
    | with_reducible apply Dev.returnCredit_leads
    | with_reducible apply Dev.finishRead_leads
    | with_reducible apply Dev.raiseC_leads
    | with_reducible apply Dev.fetch_leads
    | with_reducible apply Dev.waitFill_leads
    | with_reducible apply Dev.poisonSector_leads
    | with_reducible apply Dev.recover_leads
    | (simp [*]; done)
    | (split <;> try (rename_i e; try obtain rfl := congrArg Prod.fst e; try obtain rfl := congrArg Prod.snd e))

@[simp] theorem Dev.admitRead_leads {init d : Dev} (r : Req) (bad : Bool) (h : init.Leads d) : init.Leads (Dev.admitRead d r bad) := by
  unfold Dev.admitRead
  repeat' first
    | with_reducible assumption
    | (intro v; refine (fun hv : init.Leads v => ?_) ?_; rotate_left; subst v)
    | (intro v; refine (fun hv : init.Leads v.1 => ?_) ?_; rotate_left; subst v)
    | (intro v; refine (fun hv : init.Leads v.2 => ?_) ?_; rotate_left; subst v)
    | intro _
    | (extract_lets -lift +onlyGivenNames w; revert w)
    | dsimp -zeta -zetaDelta only
    | with_reducible apply Dev.incF_leads
    | with_reducible apply Dev.allocate_leads
    | with_reducible apply Dev.touch_leads
    | with_reducible apply Dev.hold_leads
    | with_reducible apply Dev.returnCredit_leads
    | with_reducible apply Dev.finishRead_leads
    | with_reducible apply Dev.issueFill_leads
    | with_reducible apply Dev.startDestage_leads
    | with_reducible apply Dev.holdAs_leads
    | with_reducible apply Dev.noWay_leads
    | with_reducible apply Dev.readUncached_leads
    | with_reducible apply Dev.readHit_leads
    | with_reducible apply Dev.readBad_leads
    | (simp [*]; done)
    | (split <;> try (rename_i e; try obtain rfl := congrArg Prod.fst e; try obtain rfl := congrArg Prod.snd e))

@[simp] theorem Dev.admitReq_leads {init d : Dev} (r : Req) (bad : Bool) (h : init.Leads d) : init.Leads (Dev.admitReq d r bad) := by
  unfold Dev.admitReq
  repeat' first
    | with_reducible assumption
    | (intro v; refine (fun hv : init.Leads v => ?_) ?_; rotate_left; subst v)
    | (intro v; refine (fun hv : init.Leads v.1 => ?_) ?_; rotate_left; subst v)
    | (intro v; refine (fun hv : init.Leads v.2 => ?_) ?_; rotate_left; subst v)
    | intro _
    | (extract_lets -lift +onlyGivenNames w; revert w)
    | dsimp -zeta -zetaDelta only
    | with_reducible apply Dev.mirrorLine_leads
    | with_reducible apply Dev.mirrorClean_leads
    | with_reducible apply Dev.endReq_leads
    | with_reducible apply Dev.admitWrite_leads
    | with_reducible apply Dev.admitClean_leads
    | with_reducible apply Dev.strayEntry_leads
    | with_reducible apply Dev.admitResync_leads
    | with_reducible apply Dev.admitRead_leads
    | (simp [*]; done)
    | (split <;> try (rename_i e; try obtain rfl := congrArg Prod.fst e; try obtain rfl := congrArg Prod.snd e))

@[simp] theorem Dev.retryAll_leads {init d : Dev} (p : Req → Bool) (h : init.Leads d) : init.Leads (Dev.retryAll d p) := by
  unfold Dev.retryAll
  repeat' first
    | with_reducible assumption
    | (intro v; refine (fun hv : init.Leads v => ?_) ?_; rotate_left; subst v)
    | (intro v; refine (fun hv : init.Leads v.1 => ?_) ?_; rotate_left; subst v)
    | (intro v; refine (fun hv : init.Leads v.2 => ?_) ?_; rotate_left; subst v)
    | intro _
    | (extract_lets -lift +onlyGivenNames w; revert w)
    | dsimp -zeta -zetaDelta only
    | with_reducible apply Dev.forEach_leads
    | with_reducible apply Dev.admitReq_leads
    | (simp [*]; done)
    | (split <;> try (rename_i e; try obtain rfl := congrArg Prod.fst e; try obtain rfl := congrArg Prod.snd e))

@[simp] theorem Dev.countLookup_leads {init d : Dev} (r : Req) (h : init.Leads d) : init.Leads (Dev.countLookup d r) := by
  unfold Dev.countLookup
  repeat' first
    | with_reducible assumption
    | (intro v; refine (fun hv : init.Leads v => ?_) ?_; rotate_left; subst v)
    | (intro v; refine (fun hv : init.Leads v.1 => ?_) ?_; rotate_left; subst v)
    | (intro v; refine (fun hv : init.Leads v.2 => ?_) ?_; rotate_left; subst v)
    | intro _
    | (extract_lets -lift +onlyGivenNames w; revert w)
    | dsimp -zeta -zetaDelta only
    | with_reducible apply Dev.incF_leads
    | (simp [*]; done)
    | (split <;> try (rename_i e; try obtain rfl := congrArg Prod.fst e; try obtain rfl := congrArg Prod.snd e))

@[simp] theorem Dev.startRebuild_leads {init d : Dev} (slab : Nat) (lost : List Nat) (h : init.Leads d) : init.Leads (Dev.startRebuild d slab lost) := by
  unfold Dev.startRebuild
  repeat' first
    | with_reducible assumption
    | (intro v; refine (fun hv : init.Leads v => ?_) ?_; rotate_left; subst v)
    | (intro v; refine (fun hv : init.Leads v.1 => ?_) ?_; rotate_left; subst v)
    | (intro v; refine (fun hv : init.Leads v.2 => ?_) ?_; rotate_left; subst v)
    | intro _
    | (extract_lets -lift +onlyGivenNames w; revert w)
    | dsimp -zeta -zetaDelta only
    | with_reducible apply Dev.forEach_leads
    | with_reducible apply Dev.setB_leads
    | with_reducible apply Dev.incF_leads
    | with_reducible apply Dev.setCru_leads
    | with_reducible apply Dev.fetch_leads
    | (simp [*]; done)
    | (split <;> try (rename_i e; try obtain rfl := congrArg Prod.fst e; try obtain rfl := congrArg Prod.snd e))

@[simp] theorem Dev.coherent_leads {init d : Dev} (r : Req) (bad : Bool) (h : init.Leads d) : init.Leads (Dev.coherent d r bad) := by
  unfold Dev.coherent
  repeat' first
    | with_reducible assumption
    | (intro v; refine (fun hv : init.Leads v => ?_) ?_; rotate_left; subst v)
    | (intro v; refine (fun hv : init.Leads v.1 => ?_) ?_; rotate_left; subst v)
    | (intro v; refine (fun hv : init.Leads v.2 => ?_) ?_; rotate_left; subst v)
    | intro _
    | (extract_lets -lift +onlyGivenNames w; revert w)
    | dsimp -zeta -zetaDelta only
    | with_reducible apply Dev.hold_leads
    | with_reducible apply Dev.sendSnoops_leads
    | with_reducible apply Dev.dirAdd_leads
    | with_reducible apply Dev.snoop_leads
    | with_reducible apply Dev.admitReq_leads
    | (simp [*]; done)
    | (split <;> try (rename_i e; try obtain rfl := congrArg Prod.fst e; try obtain rfl := congrArg Prod.snd e))

@[simp] theorem Dev.afterSnoops_leads {init d : Dev} (h : init.Leads d) : init.Leads (Dev.afterSnoops d) := by
  unfold Dev.afterSnoops
  repeat' first
    | with_reducible assumption
    | (intro v; refine (fun hv : init.Leads v => ?_) ?_; rotate_left; subst v)
    | (intro v; refine (fun hv : init.Leads v.1 => ?_) ?_; rotate_left; subst v)
    | (intro v; refine (fun hv : init.Leads v.2 => ?_) ?_; rotate_left; subst v)
    | intro _
    | (extract_lets -lift +onlyGivenNames w; revert w)
    | dsimp -zeta -zetaDelta only
    | with_reducible apply Dev.forEach_leads
    | with_reducible apply Dev.coherent_leads
    | (simp [*]; done)
    | (split <;> try (rename_i e; try obtain rfl := congrArg Prod.fst e; try obtain rfl := congrArg Prod.snd e))

@[simp] theorem Dev.mbReply_leads {init d : Dev} (p : Path) (opcode : Nat) (ret : Ret) (st : Status) (out : Fields) (h : init.Leads d) : init.Leads (Dev.mbReply d p opcode ret st out) := by
  simp [Dev.mbReply, h]

@[simp] theorem Dev.mbVendor_leads {init d : Dev} (p : Path) (opcode : Nat) (st : Status) (out : Fields) (h : init.Leads d) : init.Leads (Dev.mbVendor d p opcode st out) := by
  simp [Dev.mbVendor, h]

@[simp] theorem Dev.mbOk_leads {init d : Dev} (p : Path) (opcode : Nat) (out : Fields) (h : init.Leads d) : init.Leads (Dev.mbOk d p opcode out) := by
  simp [Dev.mbOk, h]

@[simp] theorem Dev.useAuth_leads {init d : Dev} (a : Auth) (h : init.Leads d) : init.Leads (Dev.useAuth d a) := by
  unfold Dev.useAuth
  repeat' first
    | with_reducible assumption
    | (intro v; refine (fun hv : init.Leads v => ?_) ?_; rotate_left; subst v)
    | (intro v; refine (fun hv : init.Leads v.1 => ?_) ?_; rotate_left; subst v)
    | (intro v; refine (fun hv : init.Leads v.2 => ?_) ?_; rotate_left; subst v)
    | intro _
    | (extract_lets -lift +onlyGivenNames w; revert w)
    | dsimp -zeta -zetaDelta only
    | with_reducible apply Dev.incF_leads
    | with_reducible apply Dev.saveCounters_leads
    | (simp [*]; done)
    | (split <;> try (rename_i e; try obtain rfl := congrArg Prod.fst e; try obtain rfl := congrArg Prod.snd e))

@[simp] theorem Dev.refuseAuth_leads {init d : Dev} (mb : Mb) (c : MbSpec) (reason : Nat) (h : init.Leads d) : init.Leads (Dev.refuseAuth d mb c reason) := by
  unfold Dev.refuseAuth
  repeat' first
    | with_reducible assumption
    | (intro v; refine (fun hv : init.Leads v => ?_) ?_; rotate_left; subst v)
    | (intro v; refine (fun hv : init.Leads v.1 => ?_) ?_; rotate_left; subst v)
    | (intro v; refine (fun hv : init.Leads v.2 => ?_) ?_; rotate_left; subst v)
    | intro _
    | (extract_lets -lift +onlyGivenNames w; revert w)
    | dsimp -zeta -zetaDelta only
    | with_reducible apply Dev.tick_leads
    | with_reducible apply Dev.raiseR_leads
    | with_reducible apply Dev.mbReply_leads
    | (simp [*]; done)
    | (split <;> try (rename_i e; try obtain rfl := congrArg Prod.fst e; try obtain rfl := congrArg Prod.snd e))

@[simp] theorem Dev.mbRun_leads {init d : Dev} (mb : Mb) (c : MbSpec) (f : Dev → Dev) (h : init.Leads d) (hf : ∀ x0, init.Leads x0 → init.Leads (f x0)) : init.Leads (Dev.mbRun d mb c f) := by
  unfold Dev.mbRun
  repeat' first
    | with_reducible assumption
    | (intro v; refine (fun hv : init.Leads v => ?_) ?_; rotate_left; subst v)
    | (intro v; refine (fun hv : init.Leads v.1 => ?_) ?_; rotate_left; subst v)
    | (intro v; refine (fun hv : init.Leads v.2 => ?_) ?_; rotate_left; subst v)
    | intro _
    | (extract_lets -lift +onlyGivenNames w; revert w)
    | dsimp -zeta -zetaDelta only
    | with_reducible apply hf
    | with_reducible apply Dev.mbReply_leads
    | with_reducible apply Dev.useAuth_leads
    | with_reducible apply Dev.refuseAuth_leads
    | (simp [*]; done)
    | (split <;> try (rename_i e; try obtain rfl := congrArg Prod.fst e; try obtain rfl := congrArg Prod.snd e))

@[simp] theorem Dev.mbHold_leads {init d : Dev} (p : Path) (opcode : Nat) (h : init.Leads d) : init.Leads (Dev.mbHold d p opcode) := by
  simp [Dev.mbHold, h]

@[simp] theorem Dev.mbEnd_leads {init d : Dev} (ret : Ret) (st : Status) (out : Fields) (h : init.Leads d) : init.Leads (Dev.mbEnd d ret st out) := by
  unfold Dev.mbEnd
  repeat' first
    | with_reducible assumption
    | (intro v; refine (fun hv : init.Leads v => ?_) ?_; rotate_left; subst v)
    | (intro v; refine (fun hv : init.Leads v.1 => ?_) ?_; rotate_left; subst v)
    | (intro v; refine (fun hv : init.Leads v.2 => ?_) ?_; rotate_left; subst v)
    | intro _
    | (extract_lets -lift +onlyGivenNames w; revert w)
    | dsimp -zeta -zetaDelta only
    | with_reducible apply Dev.mbReply_leads
    | (simp [*]; done)
    | (split <;> try (rename_i e; try obtain rfl := congrArg Prod.fst e; try obtain rfl := congrArg Prod.snd e))

@[simp] theorem Dev.showCell_leads {init d : Dev} (s : KeySlot) (h : init.Leads d) : init.Leads (Dev.showCell d s) := by
  unfold Dev.showCell
  repeat' first
    | with_reducible assumption
    | (intro v; refine (fun hv : init.Leads v => ?_) ?_; rotate_left; subst v)
    | (intro v; refine (fun hv : init.Leads v.1 => ?_) ?_; rotate_left; subst v)
    | (intro v; refine (fun hv : init.Leads v.2 => ?_) ?_; rotate_left; subst v)
    | intro _
    | (extract_lets -lift +onlyGivenNames w; revert w)
    | dsimp -zeta -zetaDelta only
    | with_reducible apply Dev.setF_leads
    | with_reducible apply Dev.setB_leads
    | (simp [*]; done)
    | (split <;> try (rename_i e; try obtain rfl := congrArg Prod.fst e; try obtain rfl := congrArg Prod.snd e))

@[simp] theorem Dev.setSec_leads {init d : Dev} (f : SecState → SecState) (h : init.Leads d) : init.Leads (Dev.setSec d f) := by
  simp [Dev.setSec, h]

@[simp] theorem Dev.setCell_leads {init d : Dev} (s : KeySlot) (c : KeyCell) (h : init.Leads d) : init.Leads (Dev.setCell d s c) := by
  simp [Dev.setCell, h]

@[simp] theorem Dev.writeKey_leads {init d : Dev} (s : KeySlot) (alg : Nat) (key : Nat) (h : init.Leads d) : init.Leads (Dev.writeKey d s alg key).1 := by
  unfold Dev.writeKey
  repeat' first
    | with_reducible assumption
    | (intro v; refine (fun hv : init.Leads v => ?_) ?_; rotate_left; subst v)
    | (intro v; refine (fun hv : init.Leads v.1 => ?_) ?_; rotate_left; subst v)
    | (intro v; refine (fun hv : init.Leads v.2 => ?_) ?_; rotate_left; subst v)
    | intro _
    | (extract_lets -lift +onlyGivenNames w; revert w)
    | dsimp -zeta -zetaDelta only
    | with_reducible apply Dev.setCell_leads
    | (simp [*]; done)
    | (split <;> try (rename_i e; try obtain rfl := congrArg Prod.fst e; try obtain rfl := congrArg Prod.snd e))

@[simp] theorem Dev.reloadKey_leads {init d : Dev} (s : KeySlot) (alg : Nat) (key : Nat) (gen : Nat) (h : init.Leads d) : init.Leads (Dev.reloadKey d s alg key gen) := by
  simp [Dev.reloadKey, h]

@[simp] theorem Dev.eraseKey_leads {init d : Dev} (s : KeySlot) (h : init.Leads d) : init.Leads (Dev.eraseKey d s) := by
  unfold Dev.eraseKey
  repeat' first
    | with_reducible assumption
    | (intro v; refine (fun hv : init.Leads v => ?_) ?_; rotate_left; subst v)
    | (intro v; refine (fun hv : init.Leads v.1 => ?_) ?_; rotate_left; subst v)
    | (intro v; refine (fun hv : init.Leads v.2 => ?_) ?_; rotate_left; subst v)
    | intro _
    | (extract_lets -lift +onlyGivenNames w; revert w)
    | dsimp -zeta -zetaDelta only
    | with_reducible apply Dev.emits_leads
    | with_reducible apply Dev.number_leads
    | with_reducible apply Dev.raise_leads
    | with_reducible apply Dev.setSec_leads
    | with_reducible apply Dev.setCell_leads
    | with_reducible apply Dev.slot_leads
    | (simp [*]; done)
    | (split <;> try (rename_i e; try obtain rfl := congrArg Prod.fst e; try obtain rfl := congrArg Prod.snd e))

@[simp] theorem Dev.drawKey_leads {init d : Dev} (h : init.Leads d) : init.Leads (Dev.drawKey d).2 := by
  simp [Dev.drawKey, h]

@[simp] theorem Dev.showSessions_leads {init d : Dev} (h : init.Leads d) : init.Leads (Dev.showSessions d) := by
  simp [Dev.showSessions, h]

@[simp] theorem Dev.endSession_leads {init d : Dev} (id : Nat) (cause : Nat) (h : init.Leads d) : init.Leads (Dev.endSession d id cause) := by
  unfold Dev.endSession
  repeat' first
    | with_reducible assumption
    | (intro v; refine (fun hv : init.Leads v => ?_) ?_; rotate_left; subst v)
    | (intro v; refine (fun hv : init.Leads v.1 => ?_) ?_; rotate_left; subst v)
    | (intro v; refine (fun hv : init.Leads v.2 => ?_) ?_; rotate_left; subst v)
    | intro _
    | (extract_lets -lift +onlyGivenNames w; revert w)
    | dsimp -zeta -zetaDelta only
    | with_reducible apply Dev.forEach_leads
    | with_reducible apply Dev.raiseB_leads
    | with_reducible apply Dev.setSec_leads
    | with_reducible apply Dev.eraseKey_leads
    | with_reducible apply Dev.showSessions_leads
    | (simp [*]; done)
    | (split <;> try (rename_i e; try obtain rfl := congrArg Prod.fst e; try obtain rfl := congrArg Prod.snd e))

@[simp] theorem Dev.endSessions_leads {init d : Dev} (p : Path → Bool) (cause : Nat) (h : init.Leads d) : init.Leads (Dev.endSessions d p cause) := by
  unfold Dev.endSessions
  repeat' first
    | with_reducible assumption
    | (intro v; refine (fun hv : init.Leads v => ?_) ?_; rotate_left; subst v)
    | (intro v; refine (fun hv : init.Leads v.1 => ?_) ?_; rotate_left; subst v)
    | (intro v; refine (fun hv : init.Leads v.2 => ?_) ?_; rotate_left; subst v)
    | intro _
    | (extract_lets -lift +onlyGivenNames w; revert w)
    | dsimp -zeta -zetaDelta only
    | with_reducible apply Dev.forEach_leads
    | with_reducible apply Dev.endSession_leads
    | (simp [*]; done)
    | (split <;> try (rename_i e; try obtain rfl := congrArg Prod.fst e; try obtain rfl := congrArg Prod.snd e))

@[simp] theorem Dev.eraseIde_leads {init d : Dev} (die : Nat) (port : Nat) (h : init.Leads d) : init.Leads (Dev.eraseIde d die port) := by
  unfold Dev.eraseIde
  repeat' first
    | with_reducible assumption
    | (intro v; refine (fun hv : init.Leads v => ?_) ?_; rotate_left; subst v)
    | (intro v; refine (fun hv : init.Leads v.1 => ?_) ?_; rotate_left; subst v)
    | (intro v; refine (fun hv : init.Leads v.2 => ?_) ?_; rotate_left; subst v)
    | intro _
    | (extract_lets -lift +onlyGivenNames w; revert w)
    | dsimp -zeta -zetaDelta only
    | with_reducible apply Dev.forEach_leads
    | with_reducible apply Dev.setB_leads
    | with_reducible apply Dev.eraseKey_leads
    | (simp [*]; done)
    | (split <;> try (rename_i e; try obtain rfl := congrArg Prod.fst e; try obtain rfl := congrArg Prod.snd e))

end Sys2Proof.Machine
end

