-- ==== Sys2Proof/Laws/LeadsFabric.lean ====
section
/-! SUPPORT. What the fabric ports, link loss and the role vault never break (Leads), one lemma a function; each command runs (Runs), one lemma a command. -/

namespace Sys2Proof.Machine

open Sys2Proof

set_option linter.tactic.unusedName false
set_option linter.unusedTactic false
set_option linter.unreachableTactic false
set_option linter.unusedSimpArgs false
set_option linter.unusedVariables false

@[simp] theorem Dev.setFab_leads {init d : Dev} (f : FabState → FabState) (h : init.Leads d) : init.Leads (Dev.setFab d f) := by
  simp [Dev.setFab, h]

@[simp] theorem Dev.takeCredit_leads {init d : Dev} (F : Fld) (die : Nat) (port : Nat) (h : init.Leads d) : init.Leads (Dev.takeCredit d F die port) := by
  simp [Dev.takeCredit, h]

@[simp] theorem Dev.giveCredit_leads {init d : Dev} (F : Fld) (top : Nat) (die : Nat) (port : Nat) (h : init.Leads d) : init.Leads (Dev.giveCredit d F top die port) := by
  simp [Dev.giveCredit, h]

theorem execMemWr_runs (die port : Nat) (ld : Option Nat) (host dpa : Nat) (data : Line) (be : Mask) (tag : Nat) (s : State) : s.Runs (execMemWr die port ld host dpa data be tag s) := by
  unfold execMemWr
  refine State.on_runs fun init => ?_
  have h := Dev.Leads.refl init
  repeat' first
    | with_reducible assumption
    | (intro v; refine (fun hv : init.Leads v => ?_) ?_; rotate_left; subst v)
    | intro _
    | (extract_lets -lift +onlyGivenNames w; revert w)
    | with_reducible apply Dev.incF_leads
    | with_reducible apply Dev.complete_leads
    | with_reducible apply Dev.countAccepted_leads
    | with_reducible apply Dev.countUnserved_leads
    | with_reducible apply Dev.arrive_leads
    | with_reducible apply Dev.takeCredit_leads
    | with_reducible apply Dev.giveCredit_leads
    | (simp [*]; done)
    | split

@[simp] theorem Dev.readThroughTwin_leads {init d : Dev} (src : Src) (slab : Nat) (sector : Nat) (own : Nat) (tag : Nat) (h : init.Leads d) : init.Leads (Dev.readThroughTwin d src slab sector own tag) := by
  unfold Dev.readThroughTwin
  repeat' first
    | with_reducible assumption
    | (intro v; refine (fun hv : init.Leads v => ?_) ?_; rotate_left; subst v)
    | (intro v; refine (fun hv : init.Leads v.1 => ?_) ?_; rotate_left; subst v)
    | (intro v; refine (fun hv : init.Leads v.2 => ?_) ?_; rotate_left; subst v)
    | intro _
    | (extract_lets -lift +onlyGivenNames w; revert w)
    | dsimp -zeta -zetaDelta only
    | with_reducible apply Dev.setCru_leads
    | with_reducible apply Dev.returnCredit_leads
    | with_reducible apply Dev.fetch_leads
    | (simp [*]; done)
    | (split <;> try (rename_i e; try obtain rfl := congrArg Prod.fst e; try obtain rfl := congrArg Prod.snd e))

theorem execMemRd_runs (die port : Nat) (ld : Option Nat) (host dpa own tag : Nat) (s : State) : s.Runs (execMemRd die port ld host dpa own tag s) := by
  unfold execMemRd
  refine State.on_runs fun init => ?_
  have h := Dev.Leads.refl init
  repeat' first
    | with_reducible assumption
    | (intro v; refine (fun hv : init.Leads v => ?_) ?_; rotate_left; subst v)
    | intro _
    | (extract_lets -lift +onlyGivenNames w; revert w)
    | with_reducible apply Dev.tick_leads
    | with_reducible apply Dev.respond_leads
    | with_reducible apply Dev.countUnserved_leads
    | with_reducible apply Dev.arrive_leads
    | with_reducible apply Dev.takeCredit_leads
    | with_reducible apply Dev.giveCredit_leads
    | with_reducible apply Dev.readThroughTwin_leads
    | (simp [*]; done)
    | split

theorem execBirsp_runs (host line : Nat) (s : State) : s.Runs (execBirsp host line s) := by
  unfold execBirsp
  refine State.on_runs fun init => ?_
  have h := Dev.Leads.refl init
  repeat' first
    | with_reducible assumption
    | (intro v; refine (fun hv : init.Leads v => ?_) ?_; rotate_left; subst v)
    | intro _
    | (extract_lets -lift +onlyGivenNames w; revert w)
    | with_reducible apply Dev.setCru_leads
    | with_reducible apply Dev.dirRemove_leads
    | with_reducible apply Dev.afterSnoops_leads
    | (simp [*]; done)
    | split

theorem execFabBiReset_runs (mask : Nat) (s : State) : s.Runs (execFabBiReset mask s) := by
  unfold execFabBiReset
  refine State.on_runs fun init => ?_
  have h := Dev.Leads.refl init
  repeat' first
    | with_reducible assumption
    | intro _
    | with_reducible apply Dev.setFab_leads
    | (simp [*]; done)

theorem execFmLdAllocate_runs (die port ld start size : Nat) (s : State) : s.Runs (execFmLdAllocate die port ld start size s) := by
  unfold execFmLdAllocate
  refine State.on_runs fun init => ?_
  have h := Dev.Leads.refl init
  repeat' first
    | with_reducible assumption
    | (intro v; refine (fun hv : init.Leads v => ?_) ?_; rotate_left; subst v)
    | intro _
    | (extract_lets -lift +onlyGivenNames w; revert w)
    | with_reducible apply Dev.setFab_leads
    | (simp [*]; done)
    | split

theorem execGpfRequest_runs (die port : Nat) (s : State) : s.Runs (execGpfRequest die port s) := by
  unfold execGpfRequest
  refine State.on_runs fun init => ?_
  have h := Dev.Leads.refl init
  repeat' first
    | with_reducible assumption
    | intro _
    | with_reducible apply Dev.raise_leads
    | with_reducible apply Dev.setFab_leads
    | (simp [*]; done)
    | split

theorem execGpfPhase2Response_runs (die port : Nat) (s : State) : s.Runs (execGpfPhase2Response die port s) := by
  unfold execGpfPhase2Response
  refine State.on_runs fun init => ?_
  have h := Dev.Leads.refl init
  repeat' first
    | with_reducible assumption
    | (intro v; refine (fun hv : init.Leads v => ?_) ?_; rotate_left; subst v)
    | intro _
    | (extract_lets -lift +onlyGivenNames w; revert w)
    | with_reducible apply Dev.emit_leads
    | with_reducible apply Dev.raise_leads
    | with_reducible apply Dev.setFab_leads
    | (simp [*]; done)
    | split

@[simp] theorem Dev.linkOff_leads {init d : Dev} (die : Nat) (port : Nat) (h : init.Leads d) : init.Leads (Dev.linkOff d die port) := by
  unfold Dev.linkOff
  repeat' first
    | with_reducible assumption
    | (intro v; refine (fun hv : init.Leads v => ?_) ?_; rotate_left; subst v)
    | (intro v; refine (fun hv : init.Leads v.1 => ?_) ?_; rotate_left; subst v)
    | (intro v; refine (fun hv : init.Leads v.2 => ?_) ?_; rotate_left; subst v)
    | intro _
    | (extract_lets -lift +onlyGivenNames w; revert w)
    | dsimp -zeta -zetaDelta only
    | with_reducible apply Dev.setF_leads
    | with_reducible apply Dev.setB_leads
    | (simp [*]; done)
    | (split <;> try (rename_i e; try obtain rfl := congrArg Prod.fst e; try obtain rfl := congrArg Prod.snd e))

@[simp] theorem Dev.dropPortMessages_leads {init d : Dev} (die : Nat) (port : Nat) (h : init.Leads d) : init.Leads (Dev.dropPortMessages d die port) := by
  simp [Dev.dropPortMessages, h]

@[simp] theorem Dev.resetCredits_leads {init d : Dev} (die : Nat) (port : Nat) (h : init.Leads d) : init.Leads (Dev.resetCredits d die port) := by
  simp [Dev.resetCredits, h]

theorem execPerstN_runs (die port : Nat) (s : State) : s.Runs (execPerstN die port s) := by
  unfold execPerstN
  refine State.on_runs fun init => ?_
  have h := Dev.Leads.refl init
  repeat' first
    | with_reducible assumption
    | (intro v; refine (fun hv : init.Leads v => ?_) ?_; rotate_left; subst v)
    | intro _
    | (extract_lets -lift +onlyGivenNames w; revert w)
    | with_reducible apply Dev.raise_leads
    | with_reducible apply Dev.endSessions_leads
    | with_reducible apply Dev.eraseIde_leads
    | with_reducible apply Dev.setFab_leads
    | with_reducible apply Dev.linkOff_leads
    | with_reducible apply Dev.dropPortMessages_leads
    | with_reducible apply Dev.resetCredits_leads
    | (simp [*]; done)
    | split

theorem execFlr_runs (die port : Nat) (ld : Option Nat) (s : State) : s.Runs (execFlr die port ld s) := by
  unfold execFlr
  refine State.on_runs fun init => ?_
  have h := Dev.Leads.refl init
  repeat' first
    | with_reducible assumption
    | (intro v; refine (fun hv : init.Leads v => ?_) ?_; rotate_left; subst v)
    | intro _
    | (extract_lets -lift +onlyGivenNames w; revert w)
    | with_reducible apply Dev.tick_leads
    | with_reducible apply Dev.raiseB_leads
    | with_reducible apply Dev.endSessions_leads
    | (simp [*]; done)
    | split

theorem execIdeCheckFail_runs (die port stream keySlot : Nat) (s : State) : s.Runs (execIdeCheckFail die port stream keySlot s) := by
  unfold execIdeCheckFail
  refine State.on_runs fun init => ?_
  have h := Dev.Leads.refl init
  repeat' first
    | with_reducible assumption
    | (intro v; refine (fun hv : init.Leads v => ?_) ?_; rotate_left; subst v)
    | intro _
    | (extract_lets -lift +onlyGivenNames w; revert w)
    | with_reducible apply Dev.setB_leads
    | with_reducible apply Dev.raise_leads
    | with_reducible apply Dev.setFab_leads
    | (simp [*]; done)
    | split

theorem execFabLinkUp_runs (die port width rate : Nat) (s : State) : s.Runs (execFabLinkUp die port width rate s) := by
  unfold execFabLinkUp
  refine State.on_runs fun init => ?_
  have h := Dev.Leads.refl init
  repeat' first
    | with_reducible assumption
    | (intro v; refine (fun hv : init.Leads v => ?_) ?_; rotate_left; subst v)
    | intro _
    | (extract_lets -lift +onlyGivenNames w; revert w)
    | with_reducible apply Dev.setF_leads
    | with_reducible apply Dev.tick_leads
    | with_reducible apply Dev.setB_leads
    | with_reducible apply Dev.raise_leads
    | (simp [*]; done)
    | split

theorem execFabLinkDown_runs (die port : Nat) (width : Option Nat) (ltssm : Nat) (s : State) : s.Runs (execFabLinkDown die port width ltssm s) := by
  unfold execFabLinkDown
  refine State.on_runs fun init => ?_
  have h := Dev.Leads.refl init
  repeat' first
    | with_reducible assumption
    | (intro v; refine (fun hv : init.Leads v => ?_) ?_; rotate_left; subst v)
    | intro _
    | (extract_lets -lift +onlyGivenNames w; revert w)
    | with_reducible apply Dev.setF_leads
    | with_reducible apply Dev.raise_leads
    | with_reducible apply Dev.linkOff_leads
    | with_reducible apply Dev.dropPortMessages_leads
    | with_reducible apply Dev.resetCredits_leads
    | (simp [*]; done)
    | split

theorem execGfamAccessTableSet_runs (die port spid : Nat) (enable : Bool) (s : State) : s.Runs (execGfamAccessTableSet die port spid enable s) := by
  unfold execGfamAccessTableSet
  refine State.on_runs fun init => ?_
  have h := Dev.Leads.refl init
  repeat' first
    | with_reducible assumption
    | intro _
    | with_reducible apply Dev.setFab_leads
    | (simp [*]; done)
    | split

@[simp] theorem Dev.setRht_leads {init d : Dev} (f : RhtState → RhtState) (h : init.Leads d) : init.Leads (Dev.setRht d f) := by
  simp [Dev.setRht, h]

@[simp] theorem Dev.dscLoss_leads {init d : Dev} (cause : Nat) (h : init.Leads d) : init.Leads (Dev.dscLoss d cause) := by
  unfold Dev.dscLoss
  repeat' first
    | with_reducible assumption
    | (intro v; refine (fun hv : init.Leads v => ?_) ?_; rotate_left; subst v)
    | (intro v; refine (fun hv : init.Leads v.1 => ?_) ?_; rotate_left; subst v)
    | (intro v; refine (fun hv : init.Leads v.2 => ?_) ?_; rotate_left; subst v)
    | intro _
    | (extract_lets -lift +onlyGivenNames w; revert w)
    | dsimp -zeta -zetaDelta only
    | with_reducible apply Dev.incF_leads
    | with_reducible apply Dev.raiseR_leads
    | with_reducible apply Dev.saveCounters_leads
    | with_reducible apply Dev.setRht_leads
    | (simp [*]; done)
    | (split <;> try (rename_i e; try obtain rfl := congrArg Prod.fst e; try obtain rfl := congrArg Prod.snd e))

@[simp] theorem Dev.unpend_leads {init d : Dev} (slab : Nat) (h : init.Leads d) : init.Leads (Dev.unpend d slab) := by
  simp [Dev.unpend, h]

@[simp] theorem Dev.loseRestored_leads {init d : Dev} (slab : Nat) (h : init.Leads d) : init.Leads (Dev.loseRestored d slab) := by
  unfold Dev.loseRestored
  repeat' first
    | with_reducible assumption
    | (intro v; refine (fun hv : init.Leads v => ?_) ?_; rotate_left; subst v)
    | (intro v; refine (fun hv : init.Leads v.1 => ?_) ?_; rotate_left; subst v)
    | (intro v; refine (fun hv : init.Leads v.2 => ?_) ?_; rotate_left; subst v)
    | intro _
    | (extract_lets -lift +onlyGivenNames w; revert w)
    | dsimp -zeta -zetaDelta only
    | with_reducible apply Dev.incF_leads
    | with_reducible apply Dev.setCru_leads
    | with_reducible apply Dev.invalidate_leads
    | with_reducible apply Dev.addPoison_leads
    | with_reducible apply Dev.answerOwed_leads
    | with_reducible apply Dev.poisonWaiting_leads
    | with_reducible apply Dev.loseFill_leads
    | with_reducible apply Dev.setRht_leads
    | with_reducible apply Dev.dscLoss_leads
    | (simp [*]; done)
    | (split <;> try (rename_i e; try obtain rfl := congrArg Prod.fst e; try obtain rfl := congrArg Prod.snd e))

@[simp] theorem Dev.settleFailed_leads {init d : Dev} (slab : Nat) (h : init.Leads d) : init.Leads (Dev.settleFailed d slab) := by
  unfold Dev.settleFailed
  repeat' first
    | with_reducible assumption
    | (intro v; refine (fun hv : init.Leads v => ?_) ?_; rotate_left; subst v)
    | (intro v; refine (fun hv : init.Leads v.1 => ?_) ?_; rotate_left; subst v)
    | (intro v; refine (fun hv : init.Leads v.2 => ?_) ?_; rotate_left; subst v)
    | intro _
    | (extract_lets -lift +onlyGivenNames w; revert w)
    | dsimp -zeta -zetaDelta only
    | with_reducible apply Dev.setCru_leads
    | with_reducible apply Dev.fetch_leads
    | with_reducible apply Dev.unpend_leads
    | with_reducible apply Dev.loseRestored_leads
    | (simp [*]; done)
    | (split <;> try (rename_i e; try obtain rfl := congrArg Prod.fst e; try obtain rfl := congrArg Prod.snd e))

@[simp] theorem Dev.judgeRegion_leads {init d : Dev} (n : Nat) (h : init.Leads d) : init.Leads (Dev.judgeRegion d n) := by
  unfold Dev.judgeRegion
  repeat' first
    | with_reducible assumption
    | (intro v; refine (fun hv : init.Leads v => ?_) ?_; rotate_left; subst v)
    | (intro v; refine (fun hv : init.Leads v.1 => ?_) ?_; rotate_left; subst v)
    | (intro v; refine (fun hv : init.Leads v.2 => ?_) ?_; rotate_left; subst v)
    | intro _
    | (extract_lets -lift +onlyGivenNames w; revert w)
    | dsimp -zeta -zetaDelta only
    | with_reducible apply Dev.forEach_leads
    | with_reducible apply Dev.settleFailed_leads
    | (simp [*]; done)
    | (split <;> try (rename_i e; try obtain rfl := congrArg Prod.fst e; try obtain rfl := congrArg Prod.snd e))

@[simp] theorem Dev.storeBlob_leads {init d : Dev} (slot : Nat) (role : Nat) (roll : Nat) (h : init.Leads d) : init.Leads (Dev.storeBlob d slot role roll) := by
  unfold Dev.storeBlob
  repeat' first
    | with_reducible assumption
    | (intro v; refine (fun hv : init.Leads v => ?_) ?_; rotate_left; subst v)
    | (intro v; refine (fun hv : init.Leads v.1 => ?_) ?_; rotate_left; subst v)
    | (intro v; refine (fun hv : init.Leads v.2 => ?_) ?_; rotate_left; subst v)
    | intro _
    | (extract_lets -lift +onlyGivenNames w; revert w)
    | dsimp -zeta -zetaDelta only
    | with_reducible apply Dev.record_leads
    | with_reducible apply Dev.setSec_leads
    | (simp [*]; done)
    | (split <;> try (rename_i e; try obtain rfl := congrArg Prod.fst e; try obtain rfl := congrArg Prod.snd e))

@[simp] theorem Dev.setRoles_leads {init d : Dev} (cur : Nat) (next : Nat) (reserve : Nat) (prev : Nat) (roll : Nat) (h : init.Leads d) : init.Leads (Dev.setRoles d cur next reserve prev roll) := by
  unfold Dev.setRoles
  repeat' first
    | with_reducible assumption
    | (intro v; refine (fun hv : init.Leads v => ?_) ?_; rotate_left; subst v)
    | (intro v; refine (fun hv : init.Leads v.1 => ?_) ?_; rotate_left; subst v)
    | (intro v; refine (fun hv : init.Leads v.2 => ?_) ?_; rotate_left; subst v)
    | intro _
    | (extract_lets -lift +onlyGivenNames w; revert w)
    | dsimp -zeta -zetaDelta only
    | with_reducible apply Dev.setF_leads
    | (simp [*]; done)
    | (split <;> try (rename_i e; try obtain rfl := congrArg Prod.fst e; try obtain rfl := congrArg Prod.snd e))

@[simp] theorem Dev.storeRoll_leads {init d : Dev} (h : init.Leads d) : init.Leads (Dev.storeRoll d) := by
  unfold Dev.storeRoll
  repeat' first
    | with_reducible assumption
    | (intro v; refine (fun hv : init.Leads v => ?_) ?_; rotate_left; subst v)
    | (intro v; refine (fun hv : init.Leads v.1 => ?_) ?_; rotate_left; subst v)
    | (intro v; refine (fun hv : init.Leads v.2 => ?_) ?_; rotate_left; subst v)
    | intro _
    | (extract_lets -lift +onlyGivenNames w; revert w)
    | dsimp -zeta -zetaDelta only
    | with_reducible apply Dev.forEach_leads
    | with_reducible apply Dev.storeBlob_leads
    | (simp [*]; done)
    | (split <;> try (rename_i e; try obtain rfl := congrArg Prod.fst e; try obtain rfl := congrArg Prod.snd e))

@[simp] theorem Dev.raiseRolled_leads {init d : Dev} (cause : Nat) (h : init.Leads d) : init.Leads (Dev.raiseRolled d cause) := by
  simp [Dev.raiseRolled, h]

@[simp] theorem Dev.drawInto_leads {init d : Dev} (slot : Nat) (alg : Nat) (h : init.Leads d) : init.Leads (Dev.drawInto d slot alg) := by
  simp [Dev.drawInto, h]

@[simp] theorem Dev.stageReserve_leads {init d : Dev} (ok : Bool) (status : Nat) (h : init.Leads d) : init.Leads (Dev.stageReserve d ok status) := by
  unfold Dev.stageReserve
  repeat' first
    | with_reducible assumption
    | (intro v; refine (fun hv : init.Leads v => ?_) ?_; rotate_left; subst v)
    | (intro v; refine (fun hv : init.Leads v.1 => ?_) ?_; rotate_left; subst v)
    | (intro v; refine (fun hv : init.Leads v.2 => ?_) ?_; rotate_left; subst v)
    | intro _
    | (extract_lets -lift +onlyGivenNames w; revert w)
    | dsimp -zeta -zetaDelta only
    | with_reducible apply Dev.setB_leads
    | with_reducible apply Dev.raiseB_leads
    | with_reducible apply Dev.setSec_leads
    | with_reducible apply Dev.storeRoll_leads
    | (simp [*]; done)
    | (split <;> try (rename_i e; try obtain rfl := congrArg Prod.fst e; try obtain rfl := congrArg Prod.snd e))

@[simp] theorem Dev.rollKeys_leads {init d : Dev} (ok : Bool) (status : Nat) (h : init.Leads d) : init.Leads (Dev.rollKeys d ok status) := by
  unfold Dev.rollKeys
  repeat' first
    | with_reducible assumption
    | (intro v; refine (fun hv : init.Leads v => ?_) ?_; rotate_left; subst v)
    | (intro v; refine (fun hv : init.Leads v.1 => ?_) ?_; rotate_left; subst v)
    | (intro v; refine (fun hv : init.Leads v.2 => ?_) ?_; rotate_left; subst v)
    | intro _
    | (extract_lets -lift +onlyGivenNames w; revert w)
    | dsimp -zeta -zetaDelta only
    | with_reducible apply Dev.eraseKey_leads
    | with_reducible apply Dev.setRoles_leads
    | with_reducible apply Dev.raiseRolled_leads
    | with_reducible apply Dev.drawInto_leads
    | with_reducible apply Dev.stageReserve_leads
    | (simp [*]; done)
    | (split <;> try (rename_i e; try obtain rfl := congrArg Prod.fst e; try obtain rfl := congrArg Prod.snd e))

@[simp] theorem Dev.eraseRings_leads {init d : Dev} (gs : List RingArea) (h : init.Leads d) : init.Leads (Dev.eraseRings d gs) := by
  unfold Dev.eraseRings
  repeat' first
    | with_reducible assumption
    | (intro v; refine (fun hv : init.Leads v => ?_) ?_; rotate_left; subst v)
    | (intro v; refine (fun hv : init.Leads v.1 => ?_) ?_; rotate_left; subst v)
    | (intro v; refine (fun hv : init.Leads v.2 => ?_) ?_; rotate_left; subst v)
    | intro _
    | (extract_lets -lift +onlyGivenNames w; revert w)
    | dsimp -zeta -zetaDelta only
    | with_reducible apply Dev.forEach_leads
    | with_reducible apply Dev.tmpEraseSector_leads
    | with_reducible apply Dev.slot_leads
    | (simp [*]; done)
    | (split <;> try (rename_i e; try obtain rfl := congrArg Prod.fst e; try obtain rfl := congrArg Prod.snd e))

@[simp] theorem Dev.freshIngotKeys_leads {init d : Dev} (roll : Nat) (cause : Nat) (h : init.Leads d) : init.Leads (Dev.freshIngotKeys d roll cause) := by
  unfold Dev.freshIngotKeys
  repeat' first
    | with_reducible assumption
    | (intro v; refine (fun hv : init.Leads v => ?_) ?_; rotate_left; subst v)
    | (intro v; refine (fun hv : init.Leads v.1 => ?_) ?_; rotate_left; subst v)
    | (intro v; refine (fun hv : init.Leads v.2 => ?_) ?_; rotate_left; subst v)
    | intro _
    | (extract_lets -lift +onlyGivenNames w; revert w)
    | dsimp -zeta -zetaDelta only
    | with_reducible apply Dev.forEach_leads
    | with_reducible apply Dev.setB_leads
    | with_reducible apply Dev.setRoles_leads
    | with_reducible apply Dev.storeRoll_leads
    | with_reducible apply Dev.raiseRolled_leads
    | with_reducible apply Dev.drawInto_leads
    | (simp [*]; done)
    | (split <;> try (rename_i e; try obtain rfl := congrArg Prod.fst e; try obtain rfl := congrArg Prod.snd e))

@[simp] theorem Dev.freshBackingKeys_leads {init d : Dev} (h : init.Leads d) : init.Leads (Dev.freshBackingKeys d) := by
  unfold Dev.freshBackingKeys
  repeat' first
    | with_reducible assumption
    | (intro v; refine (fun hv : init.Leads v => ?_) ?_; rotate_left; subst v)
    | (intro v; refine (fun hv : init.Leads v.1 => ?_) ?_; rotate_left; subst v)
    | (intro v; refine (fun hv : init.Leads v.2 => ?_) ?_; rotate_left; subst v)
    | intro _
    | (extract_lets -lift +onlyGivenNames w; revert w)
    | dsimp -zeta -zetaDelta only
    | with_reducible apply Dev.storeBlob_leads
    | with_reducible apply Dev.drawInto_leads
    | (simp [*]; done)
    | (split <;> try (rename_i e; try obtain rfl := congrArg Prod.fst e; try obtain rfl := congrArg Prod.snd e))

@[simp] theorem Dev.loadRoles_leads {init d : Dev} (h : init.Leads d) : init.Leads (Dev.loadRoles d) := by
  unfold Dev.loadRoles
  repeat' first
    | with_reducible assumption
    | (intro v; refine (fun hv : init.Leads v => ?_) ?_; rotate_left; subst v)
    | (intro v; refine (fun hv : init.Leads v.1 => ?_) ?_; rotate_left; subst v)
    | (intro v; refine (fun hv : init.Leads v.2 => ?_) ?_; rotate_left; subst v)
    | intro _
    | (extract_lets -lift +onlyGivenNames w; revert w)
    | dsimp -zeta -zetaDelta only
    | with_reducible apply Dev.setB_leads
    | with_reducible apply Dev.setRoles_leads
    | (simp [*]; done)
    | (split <;> try (rename_i e; try obtain rfl := congrArg Prod.fst e; try obtain rfl := congrArg Prod.snd e))

@[simp] theorem Dev.loadSlot_leads {init d : Dev} (slot : Nat) (h : init.Leads d) : init.Leads (Dev.loadSlot d slot) := by
  unfold Dev.loadSlot
  repeat' first
    | with_reducible assumption
    | (intro v; refine (fun hv : init.Leads v => ?_) ?_; rotate_left; subst v)
    | (intro v; refine (fun hv : init.Leads v.1 => ?_) ?_; rotate_left; subst v)
    | (intro v; refine (fun hv : init.Leads v.2 => ?_) ?_; rotate_left; subst v)
    | intro _
    | (extract_lets -lift +onlyGivenNames w; revert w)
    | dsimp -zeta -zetaDelta only
    | with_reducible apply Dev.raiseB_leads
    | with_reducible apply Dev.reloadKey_leads
    | (simp [*]; done)
    | (split <;> try (rename_i e; try obtain rfl := congrArg Prod.fst e; try obtain rfl := congrArg Prod.snd e))

@[simp] theorem Dev.showBackingKey_leads {init d : Dev} (h : init.Leads d) : init.Leads (Dev.showBackingKey d) := by
  simp [Dev.showBackingKey, h]

@[simp] theorem Dev.loadBlobs_leads {init d : Dev} (h : init.Leads d) : init.Leads (Dev.loadBlobs d) := by
  unfold Dev.loadBlobs
  repeat' first
    | with_reducible assumption
    | (intro v; refine (fun hv : init.Leads v => ?_) ?_; rotate_left; subst v)
    | (intro v; refine (fun hv : init.Leads v.1 => ?_) ?_; rotate_left; subst v)
    | (intro v; refine (fun hv : init.Leads v.2 => ?_) ?_; rotate_left; subst v)
    | intro _
    | (extract_lets -lift +onlyGivenNames w; revert w)
    | dsimp -zeta -zetaDelta only
    | with_reducible apply Dev.forEach_leads
    | with_reducible apply Dev.eraseRings_leads
    | with_reducible apply Dev.freshIngotKeys_leads
    | with_reducible apply Dev.freshBackingKeys_leads
    | with_reducible apply Dev.loadRoles_leads
    | with_reducible apply Dev.loadSlot_leads
    | with_reducible apply Dev.showBackingKey_leads
    | (simp [*]; done)
    | (split <;> try (rename_i e; try obtain rfl := congrArg Prod.fst e; try obtain rfl := congrArg Prod.snd e))

@[simp] theorem Dev.burnEpoch_leads {init d : Dev} (h : init.Leads d) : init.Leads (Dev.burnEpoch d) := by
  unfold Dev.burnEpoch
  repeat' first
    | with_reducible assumption
    | (intro v; refine (fun hv : init.Leads v => ?_) ?_; rotate_left; subst v)
    | (intro v; refine (fun hv : init.Leads v.1 => ?_) ?_; rotate_left; subst v)
    | (intro v; refine (fun hv : init.Leads v.2 => ?_) ?_; rotate_left; subst v)
    | intro _
    | (extract_lets -lift +onlyGivenNames w; revert w)
    | dsimp -zeta -zetaDelta only
    | with_reducible apply Dev.setF_leads
    | with_reducible apply Dev.setB_leads
    | with_reducible apply Dev.raiseB_leads
    | with_reducible apply Dev.setSec_leads
    | (simp [*]; done)
    | (split <;> try (rename_i e; try obtain rfl := congrArg Prod.fst e; try obtain rfl := congrArg Prod.snd e))

end Sys2Proof.Machine
end

