-- ==== Sys2Proof/Laws/LeadsCrucible.lean ====
section
/-! SUPPORT. What the Crucible and its modes never break (Leads), one lemma a function; each command runs (Runs), one lemma a command. -/

namespace Sys2Proof.Machine

open Sys2Proof

set_option linter.tactic.unusedName false
set_option linter.unusedTactic false
set_option linter.unreachableTactic false
set_option linter.unusedSimpArgs false
set_option linter.unusedVariables false

@[simp] theorem Dev.takeLook_leads {init d : Dev} (r : Req) (look : TagLook) (h : init.Leads d) : init.Leads (Dev.takeLook d r look).1 := by
  unfold Dev.takeLook
  repeat' first
    | with_reducible assumption
    | (intro v; refine (fun hv : init.Leads v => ?_) ?_; rotate_left; subst v)
    | (intro v; refine (fun hv : init.Leads v.1 => ?_) ?_; rotate_left; subst v)
    | (intro v; refine (fun hv : init.Leads v.2 => ?_) ?_; rotate_left; subst v)
    | intro _
    | (extract_lets -lift +onlyGivenNames w; revert w)
    | dsimp -zeta -zetaDelta only
    | with_reducible apply Dev.incF_leads
    | with_reducible apply Dev.hold_leads
    | with_reducible apply Dev.raiseC_leads
    | with_reducible apply Dev.startRebuild_leads
    | (simp [*]; done)
    | (split <;> try (rename_i e; try obtain rfl := congrArg Prod.fst e; try obtain rfl := congrArg Prod.snd e))

@[simp] theorem Dev.writeBad_leads {init d : Dev} (r : Req) (h : init.Leads d) : init.Leads (Dev.writeBad d r) := by
  unfold Dev.writeBad
  repeat' first
    | with_reducible assumption
    | (intro v; refine (fun hv : init.Leads v => ?_) ?_; rotate_left; subst v)
    | (intro v; refine (fun hv : init.Leads v.1 => ?_) ?_; rotate_left; subst v)
    | (intro v; refine (fun hv : init.Leads v.2 => ?_) ?_; rotate_left; subst v)
    | intro _
    | (extract_lets -lift +onlyGivenNames w; revert w)
    | dsimp -zeta -zetaDelta only
    | with_reducible apply Dev.modTag_leads
    | with_reducible apply Dev.hold_leads
    | with_reducible apply Dev.raiseC_leads
    | with_reducible apply Dev.fetch_leads
    | with_reducible apply Dev.poisonSector_leads
    | with_reducible apply Dev.recover_leads
    | with_reducible apply Dev.coherent_leads
    | (simp [*]; done)
    | (split <;> try (rename_i e; try obtain rfl := congrArg Prod.fst e; try obtain rfl := congrArg Prod.snd e))

@[simp] theorem Dev.admitFrozen_leads {init d : Dev} (r : Req) (h : init.Leads d) : init.Leads (Dev.admitFrozen d r) := by
  unfold Dev.admitFrozen
  repeat' first
    | with_reducible assumption
    | (intro v; refine (fun hv : init.Leads v => ?_) ?_; rotate_left; subst v)
    | (intro v; refine (fun hv : init.Leads v.1 => ?_) ?_; rotate_left; subst v)
    | (intro v; refine (fun hv : init.Leads v.2 => ?_) ?_; rotate_left; subst v)
    | intro _
    | (extract_lets -lift +onlyGivenNames w; revert w)
    | dsimp -zeta -zetaDelta only
    | with_reducible apply Dev.hold_leads
    | with_reducible apply Dev.returnCredit_leads
    | with_reducible apply Dev.finishRead_leads
    | with_reducible apply Dev.fetch_leads
    | (simp [*]; done)
    | (split <;> try (rename_i e; try obtain rfl := congrArg Prod.fst e; try obtain rfl := congrArg Prod.snd e))

@[simp] theorem Dev.admitOne_leads {init d : Dev} (r : Req) (look : TagLook) (bad : Bool) (h : init.Leads d) : init.Leads (Dev.admitOne d r look bad) := by
  unfold Dev.admitOne
  repeat' first
    | with_reducible assumption
    | (intro v; refine (fun hv : init.Leads v => ?_) ?_; rotate_left; subst v)
    | (intro v; refine (fun hv : init.Leads v.1 => ?_) ?_; rotate_left; subst v)
    | (intro v; refine (fun hv : init.Leads v.2 => ?_) ?_; rotate_left; subst v)
    | intro _
    | (extract_lets -lift +onlyGivenNames w; revert w)
    | dsimp -zeta -zetaDelta only
    | with_reducible apply Dev.countLookup_leads
    | with_reducible apply Dev.coherent_leads
    | with_reducible apply Dev.takeLook_leads
    | with_reducible apply Dev.writeBad_leads
    | with_reducible apply Dev.admitFrozen_leads
    | (simp [*]; done)
    | (split <;> try (rename_i e; try obtain rfl := congrArg Prod.fst e; try obtain rfl := congrArg Prod.snd e))

@[simp] theorem Dev.serveFetched_leads {init d : Dev} (slab : Nat) (ls : List Line) (h : init.Leads d) : init.Leads (Dev.serveFetched d slab ls) := by
  unfold Dev.serveFetched
  repeat' first
    | with_reducible assumption
    | (intro v; refine (fun hv : init.Leads v => ?_) ?_; rotate_left; subst v)
    | (intro v; refine (fun hv : init.Leads v.1 => ?_) ?_; rotate_left; subst v)
    | (intro v; refine (fun hv : init.Leads v.2 => ?_) ?_; rotate_left; subst v)
    | intro _
    | (extract_lets -lift +onlyGivenNames w; revert w)
    | dsimp -zeta -zetaDelta only
    | with_reducible apply Dev.forEach_leads
    | with_reducible apply Dev.endReq_leads
    | with_reducible apply Dev.respond_leads
    | with_reducible apply Dev.fetch_leads
    | with_reducible apply Dev.coherent_leads
    | (simp [*]; done)
    | (split <;> try (rename_i e; try obtain rfl := congrArg Prod.fst e; try obtain rfl := congrArg Prod.snd e))

@[simp] theorem Dev.fillStaging_leads {init d : Dev} (rid : Nat) (g : Staging) (ls : List Line) (h : init.Leads d) : init.Leads (Dev.fillStaging d rid g ls) := by
  unfold Dev.fillStaging
  repeat' first
    | with_reducible assumption
    | (intro v; refine (fun hv : init.Leads v => ?_) ?_; rotate_left; subst v)
    | (intro v; refine (fun hv : init.Leads v.1 => ?_) ?_; rotate_left; subst v)
    | (intro v; refine (fun hv : init.Leads v.2 => ?_) ?_; rotate_left; subst v)
    | intro _
    | (extract_lets -lift +onlyGivenNames w; revert w)
    | dsimp -zeta -zetaDelta only
    | with_reducible apply Dev.forEach_leads
    | with_reducible apply Dev.queueEntry_leads
    | with_reducible apply Dev.runStaging_leads
    | (simp [*]; done)
    | (split <;> try (rename_i e; try obtain rfl := congrArg Prod.fst e; try obtain rfl := congrArg Prod.snd e))

@[simp] theorem Dev.fetchLands_leads {init d : Dev} (slab : Nat) (ls : List Line) (h : init.Leads d) : init.Leads (Dev.fetchLands d slab ls) := by
  unfold Dev.fetchLands
  repeat' first
    | with_reducible assumption
    | (intro v; refine (fun hv : init.Leads v => ?_) ?_; rotate_left; subst v)
    | (intro v; refine (fun hv : init.Leads v.1 => ?_) ?_; rotate_left; subst v)
    | (intro v; refine (fun hv : init.Leads v.2 => ?_) ?_; rotate_left; subst v)
    | intro _
    | (extract_lets -lift +onlyGivenNames w; revert w)
    | dsimp -zeta -zetaDelta only
    | with_reducible apply Dev.forEach_leads
    | with_reducible apply Dev.setCru_leads
    | with_reducible apply Dev.setLine_leads
    | with_reducible apply Dev.raiseC_leads
    | with_reducible apply Dev.landFill_leads
    | with_reducible apply Dev.recover_leads
    | with_reducible apply Dev.serveFetched_leads
    | with_reducible apply Dev.fillStaging_leads
    | (simp [*]; done)
    | (split <;> try (rename_i e; try obtain rfl := congrArg Prod.fst e; try obtain rfl := congrArg Prod.snd e))

@[simp] theorem Dev.fetchFails_leads {init d : Dev} (slab : Nat) (h : init.Leads d) : init.Leads (Dev.fetchFails d slab) := by
  unfold Dev.fetchFails
  repeat' first
    | with_reducible assumption
    | (intro v; refine (fun hv : init.Leads v => ?_) ?_; rotate_left; subst v)
    | (intro v; refine (fun hv : init.Leads v.1 => ?_) ?_; rotate_left; subst v)
    | (intro v; refine (fun hv : init.Leads v.2 => ?_) ?_; rotate_left; subst v)
    | intro _
    | (extract_lets -lift +onlyGivenNames w; revert w)
    | dsimp -zeta -zetaDelta only
    | with_reducible apply Dev.forEach_leads
    | with_reducible apply Dev.setCru_leads
    | with_reducible apply Dev.finishRead_leads
    | with_reducible apply Dev.fetch_leads
    | with_reducible apply Dev.failFillHere_leads
    | with_reducible apply Dev.poisonSector_leads
    | with_reducible apply Dev.recover_leads
    | with_reducible apply Dev.coherent_leads
    | with_reducible apply Dev.loseRestored_leads
    | (simp [*]; done)
    | (split <;> try (rename_i e; try obtain rfl := congrArg Prod.fst e; try obtain rfl := congrArg Prod.snd e))

@[simp] theorem Dev.cleanDone_leads {init d : Dev} (slab : Nat) (h : init.Leads d) : init.Leads (Dev.cleanDone d slab) := by
  simp [Dev.cleanDone, h]

@[simp] theorem Dev.stagingFailed_leads {init d : Dev} (rid : Nat) (g : Staging) (status : Nat) (h : init.Leads d) : init.Leads (Dev.stagingFailed d rid g status) := by
  unfold Dev.stagingFailed
  repeat' first
    | with_reducible assumption
    | (intro v; refine (fun hv : init.Leads v => ?_) ?_; rotate_left; subst v)
    | (intro v; refine (fun hv : init.Leads v.1 => ?_) ?_; rotate_left; subst v)
    | (intro v; refine (fun hv : init.Leads v.2 => ?_) ?_; rotate_left; subst v)
    | intro _
    | (extract_lets -lift +onlyGivenNames w; revert w)
    | dsimp -zeta -zetaDelta only
    | with_reducible apply Dev.setCru_leads
    | with_reducible apply Dev.raiseC_leads
    | with_reducible apply Dev.setStaging_leads
    | (simp [*]; done)
    | (split <;> try (rename_i e; try obtain rfl := congrArg Prod.fst e; try obtain rfl := congrArg Prod.snd e))

@[simp] theorem Dev.uncachedDone_leads {init d : Dev} (rid : Nat) (ok : Bool) (data : List Line) (h : init.Leads d) : init.Leads (Dev.uncachedDone d rid ok data) := by
  unfold Dev.uncachedDone
  repeat' first
    | with_reducible assumption
    | (intro v; refine (fun hv : init.Leads v => ?_) ?_; rotate_left; subst v)
    | (intro v; refine (fun hv : init.Leads v.1 => ?_) ?_; rotate_left; subst v)
    | (intro v; refine (fun hv : init.Leads v.2 => ?_) ?_; rotate_left; subst v)
    | intro _
    | (extract_lets -lift +onlyGivenNames w; revert w)
    | dsimp -zeta -zetaDelta only
    | with_reducible apply Dev.endReq_leads
    | with_reducible apply Dev.hold_leads
    | with_reducible apply Dev.respond_leads
    | with_reducible apply Dev.finishRead_leads
    | with_reducible apply Dev.fetch_leads
    | (simp [*]; done)
    | (split <;> try (rename_i e; try obtain rfl := congrArg Prod.fst e; try obtain rfl := congrArg Prod.snd e))

@[simp] theorem Dev.stageReadDone_leads {init d : Dev} (rid : Nat) (ok : Bool) (status : Nat) (data : List Line) (h : init.Leads d) : init.Leads (Dev.stageReadDone d rid ok status data) := by
  unfold Dev.stageReadDone
  repeat' first
    | with_reducible assumption
    | (intro v; refine (fun hv : init.Leads v => ?_) ?_; rotate_left; subst v)
    | (intro v; refine (fun hv : init.Leads v.1 => ?_) ?_; rotate_left; subst v)
    | (intro v; refine (fun hv : init.Leads v.2 => ?_) ?_; rotate_left; subst v)
    | intro _
    | (extract_lets -lift +onlyGivenNames w; revert w)
    | dsimp -zeta -zetaDelta only
    | with_reducible apply Dev.fetch_leads
    | with_reducible apply Dev.fillStaging_leads
    | with_reducible apply Dev.stagingFailed_leads
    | (simp [*]; done)
    | (split <;> try (rename_i e; try obtain rfl := congrArg Prod.fst e; try obtain rfl := congrArg Prod.snd e))

@[simp] theorem Dev.stageWriteDone_leads {init d : Dev} (rid : Nat) (ok : Bool) (status : Nat) (h : init.Leads d) : init.Leads (Dev.stageWriteDone d rid ok status) := by
  unfold Dev.stageWriteDone
  repeat' first
    | with_reducible assumption
    | (intro v; refine (fun hv : init.Leads v => ?_) ?_; rotate_left; subst v)
    | (intro v; refine (fun hv : init.Leads v.1 => ?_) ?_; rotate_left; subst v)
    | (intro v; refine (fun hv : init.Leads v.2 => ?_) ?_; rotate_left; subst v)
    | intro _
    | (extract_lets -lift +onlyGivenNames w; revert w)
    | dsimp -zeta -zetaDelta only
    | with_reducible apply Dev.setCru_leads
    | with_reducible apply Dev.delPoison_leads
    | with_reducible apply Dev.ceilCheck_leads
    | with_reducible apply Dev.mirrorClean_leads
    | with_reducible apply Dev.finishWrite_leads
    | with_reducible apply Dev.stagingFailed_leads
    | (simp [*]; done)
    | (split <;> try (rename_i e; try obtain rfl := congrArg Prod.fst e; try obtain rfl := congrArg Prod.snd e))

@[simp] theorem Dev.destageBad_leads {init d : Dev} (slab : Nat) (bad : Mask) (h : init.Leads d) : init.Leads (Dev.destageBad d slab bad) := by
  unfold Dev.destageBad
  repeat' first
    | with_reducible assumption
    | (intro v; refine (fun hv : init.Leads v => ?_) ?_; rotate_left; subst v)
    | (intro v; refine (fun hv : init.Leads v.1 => ?_) ?_; rotate_left; subst v)
    | (intro v; refine (fun hv : init.Leads v.2 => ?_) ?_; rotate_left; subst v)
    | intro _
    | (extract_lets -lift +onlyGivenNames w; revert w)
    | dsimp -zeta -zetaDelta only
    | with_reducible apply Dev.forEach_leads
    | with_reducible apply Dev.setCru_leads
    | with_reducible apply Dev.modTag_leads
    | with_reducible apply Dev.raiseC_leads
    | with_reducible apply Dev.issueFill_leads
    | with_reducible apply Dev.poisonSector_leads
    | with_reducible apply Dev.recover_leads
    | (simp [*]; done)
    | (split <;> try (rename_i e; try obtain rfl := congrArg Prod.fst e; try obtain rfl := congrArg Prod.snd e))

@[simp] theorem Dev.endRebuild_leads {init d : Dev} (k : SetKey) (lost : List Nat) (h : init.Leads d) : init.Leads (Dev.endRebuild d k lost) := by
  unfold Dev.endRebuild
  repeat' first
    | with_reducible assumption
    | (intro v; refine (fun hv : init.Leads v => ?_) ?_; rotate_left; subst v)
    | (intro v; refine (fun hv : init.Leads v.1 => ?_) ?_; rotate_left; subst v)
    | (intro v; refine (fun hf1 : ∀ d, init.Leads d → init.Leads (v d) => ?_) ?_; rotate_left; subst v)
    | (intro v; refine (fun hf2 : ∀ d x, init.Leads d → init.Leads (v d x) => ?_) ?_; rotate_left; subst v)
    | (intro v; refine (fun hf3 : ∀ d x y, init.Leads d → init.Leads (v d x y) => ?_) ?_; rotate_left; subst v)
    | (intro v; refine (fun hv : init.Leads v.2 => ?_) ?_; rotate_left; subst v)
    | intro _
    | (extract_lets -lift +onlyGivenNames w; revert w)
    | dsimp -zeta -zetaDelta only
    | with_reducible apply hf1
    | with_reducible apply hf2
    | with_reducible apply hf3
    | with_reducible apply Dev.forEach_leads
    | with_reducible apply Dev.setB_leads
    | with_reducible apply Dev.raise_leads
    | with_reducible apply Dev.setCru_leads
    | with_reducible apply Dev.modTag_leads
    | with_reducible apply Dev.invalidate_leads
    | with_reducible apply Dev.allocate_leads
    | with_reducible apply Dev.setLine_leads
    | with_reducible apply Dev.addPoison_leads
    | with_reducible apply Dev.ceilCheck_leads
    | with_reducible apply Dev.raiseC_leads
    | with_reducible apply Dev.completeThrough_leads
    | with_reducible apply Dev.countLookup_leads
    | with_reducible apply Dev.coherent_leads
    | (simp [*]; done)
    | (split <;> try (rename_i e; try obtain rfl := congrArg Prod.fst e; try obtain rfl := congrArg Prod.snd e))

theorem execWriteAdmit_runs (rid : Nat) (look : TagLook) (bad : Bool) (s : State) : s.Runs (execWriteAdmit rid look bad s) := by
  unfold execWriteAdmit
  refine State.on_runs fun init => ?_
  have h := Dev.Leads.refl init
  repeat' first
    | with_reducible assumption
    | intro _
    | with_reducible apply Dev.admitOne_leads
    | (simp [*]; done)
    | split

theorem execReadAdmit_runs (rid : Nat) (look : TagLook) (bad : Bool) (s : State) : s.Runs (execReadAdmit rid look bad s) := by
  unfold execReadAdmit
  refine State.on_runs fun init => ?_
  have h := Dev.Leads.refl init
  repeat' first
    | with_reducible assumption
    | intro _
    | with_reducible apply Dev.admitOne_leads
    | (simp [*]; done)
    | split

theorem execFillLands_runs (slab : Nat) (data : List Line) (s : State) : s.Runs (execFillLands slab data s) := by
  unfold execFillLands
  refine State.on_runs fun init => ?_
  have h := Dev.Leads.refl init
  repeat' first
    | with_reducible assumption
    | intro _
    | with_reducible apply Dev.landFill_leads
    | (simp [*]; done)
    | split

theorem execFillFail_runs (slab status : Nat) (s : State) : s.Runs (execFillFail slab status s) := by
  unfold execFillFail
  refine State.on_runs fun init => ?_
  have h := Dev.Leads.refl init
  repeat' first
    | with_reducible assumption
    | intro _
    | with_reducible apply Dev.failFill_leads
    | (simp [*]; done)
    | split

theorem execDestageSelect_runs (slab : Nat) (bad : Mask) (s : State) : s.Runs (execDestageSelect slab bad s) := by
  unfold execDestageSelect
  refine State.on_runs fun init => ?_
  have h := Dev.Leads.refl init
  repeat' first
    | with_reducible assumption
    | intro _
    | with_reducible apply Dev.startDestage_leads
    | with_reducible apply Dev.destageBad_leads
    | (simp [*]; done)
    | split

theorem execIdleDestageTimer_runs (slab : Nat) (s : State) : s.Runs (execIdleDestageTimer slab s) := by
  unfold execIdleDestageTimer
  refine State.on_runs fun init => ?_
  have h := Dev.Leads.refl init
  repeat' first
    | with_reducible assumption
    | intro _
    | with_reducible apply Dev.setCru_leads
    | (simp [*]; done)
    | split

theorem execDestageComplete_runs (slab : Nat) (s : State) : s.Runs (execDestageComplete slab s) := by
  unfold execDestageComplete
  refine State.on_runs fun init => ?_
  have h := Dev.Leads.refl init
  repeat' first
    | with_reducible assumption
    | intro _
    | with_reducible apply Dev.endDestage_leads
    | with_reducible apply Dev.cleanDone_leads
    | (simp [*]; done)
    | split

theorem execDestageFail_runs (slab status : Nat) (s : State) : s.Runs (execDestageFail slab status s) := by
  unfold execDestageFail
  refine State.on_runs fun init => ?_
  have h := Dev.Leads.refl init
  repeat' first
    | with_reducible assumption
    | intro _
    | with_reducible apply Dev.failDestage_leads
    | (simp [*]; done)
    | split

theorem execSetStallRetry_runs (rid : Nat) (s : State) : s.Runs (execSetStallRetry rid s) := by
  unfold execSetStallRetry
  refine State.on_runs fun init => ?_
  have h := Dev.Leads.refl init
  repeat' first
    | with_reducible assumption
    | intro _
    | with_reducible apply Dev.admitReq_leads
    | (simp [*]; done)
    | split

theorem execSetStallHeldTimer_runs (rid : Nat) (s : State) : s.Runs (execSetStallHeldTimer rid s) := by
  unfold execSetStallHeldTimer
  refine State.on_runs fun init => ?_
  have h := Dev.Leads.refl init
  repeat' first
    | with_reducible assumption
    | (intro v; refine (fun hv : init.Leads v => ?_) ?_; rotate_left; subst v)
    | intro _
    | (extract_lets -lift +onlyGivenNames w; revert w)
    | with_reducible apply Dev.setCru_leads
    | with_reducible apply Dev.raiseC_leads
    | (simp [*]; done)
    | split

theorem execUncachedReadDone_runs (rid : Nat) (ok : Bool) (data : List Line) (s : State) : s.Runs (execUncachedReadDone rid ok data s) := by
  unfold execUncachedReadDone
  refine State.on_runs fun init => ?_
  have h := Dev.Leads.refl init
  repeat' first
    | with_reducible assumption
    | intro _
    | with_reducible apply Dev.uncachedDone_leads
    | (simp [*]; done)

theorem execBypassBackingReadDone_runs (rid : Nat) (ok : Bool) (status : Nat) (data : List Line) (s : State) : s.Runs (execBypassBackingReadDone rid ok status data s) := by
  unfold execBypassBackingReadDone
  refine State.on_runs fun init => ?_
  have h := Dev.Leads.refl init
  repeat' first
    | with_reducible assumption
    | intro _
    | with_reducible apply Dev.stageReadDone_leads
    | (simp [*]; done)

theorem execBypassBackingWriteDone_runs (rid : Nat) (ok : Bool) (status : Nat) (s : State) : s.Runs (execBypassBackingWriteDone rid ok status s) := by
  unfold execBypassBackingWriteDone
  refine State.on_runs fun init => ?_
  have h := Dev.Leads.refl init
  repeat' first
    | with_reducible assumption
    | intro _
    | with_reducible apply Dev.stageWriteDone_leads
    | (simp [*]; done)

theorem execBypassRetry_runs (rid : Nat) (s : State) : s.Runs (execBypassRetry rid s) := by
  unfold execBypassRetry
  refine State.on_runs fun init => ?_
  have h := Dev.Leads.refl init
  repeat' first
    | with_reducible assumption
    | intro _
    | with_reducible apply Dev.runStaging_leads
    | (simp [*]; done)
    | split

theorem execSetRebuildDone_runs (slab : Nat) (s : State) : s.Runs (execSetRebuildDone slab s) := by
  unfold execSetRebuildDone
  refine State.on_runs fun init => ?_
  have h := Dev.Leads.refl init
  repeat' first
    | with_reducible assumption
    | (intro v; refine (fun hv : init.Leads v => ?_) ?_; rotate_left; subst v)
    | intro _
    | (extract_lets -lift +onlyGivenNames w; revert w)
    | with_reducible apply Dev.endRebuild_leads
    | (simp [*]; done)
    | split

@[simp] theorem Dev.enterMode_leads {init d : Dev} (mode : Nat) (h : init.Leads d) : init.Leads (Dev.enterMode d mode) := by
  unfold Dev.enterMode
  repeat' first
    | with_reducible assumption
    | (intro v; refine (fun hv : init.Leads v => ?_) ?_; rotate_left; subst v)
    | (intro v; refine (fun hv : init.Leads v.1 => ?_) ?_; rotate_left; subst v)
    | (intro v; refine (fun hv : init.Leads v.2 => ?_) ?_; rotate_left; subst v)
    | intro _
    | (extract_lets -lift +onlyGivenNames w; revert w)
    | dsimp -zeta -zetaDelta only
    | with_reducible apply Dev.setF_leads
    | with_reducible apply Dev.setB_leads
    | with_reducible apply Dev.raiseR_leads
    | (simp [*]; done)
    | (split <;> try (rename_i e; try obtain rfl := congrArg Prod.fst e; try obtain rfl := congrArg Prod.snd e))

@[simp] theorem Dev.headFor_leads {init d : Dev} (mode : Nat) (target : Nat) (h : init.Leads d) : init.Leads (Dev.headFor d mode target) := by
  simp [Dev.headFor, h]

@[simp] theorem Dev.modeRequest_leads {init d : Dev} (m : Nat) (h : init.Leads d) : init.Leads (Dev.modeRequest d m).1 := by
  unfold Dev.modeRequest
  repeat' first
    | with_reducible assumption
    | (intro v; refine (fun hv : init.Leads v => ?_) ?_; rotate_left; subst v)
    | (intro v; refine (fun hv : init.Leads v.1 => ?_) ?_; rotate_left; subst v)
    | (intro v; refine (fun hv : init.Leads v.2 => ?_) ?_; rotate_left; subst v)
    | intro _
    | (extract_lets -lift +onlyGivenNames w; revert w)
    | dsimp -zeta -zetaDelta only
    | with_reducible apply Dev.setF_leads
    | with_reducible apply Dev.setB_leads
    | with_reducible apply Dev.raiseR_leads
    | with_reducible apply Dev.enterMode_leads
    | with_reducible apply Dev.headFor_leads
    | (simp [*]; done)
    | (split <;> try (rename_i e; try obtain rfl := congrArg Prod.fst e; try obtain rfl := congrArg Prod.snd e))

theorem execCrucModeRequest_runs (request : Nat) (s : State) : s.Runs (execCrucModeRequest request s) := by
  unfold execCrucModeRequest
  refine State.on_runs fun init => ?_
  have h := Dev.Leads.refl init
  repeat' first
    | with_reducible assumption
    | (intro v; refine (fun hv : init.Leads v => ?_) ?_; rotate_left; subst v)
    | (intro v; refine (fun hv : init.Leads v.1 => ?_) ?_; rotate_left; subst v)
    | (intro v; refine (fun hv : init.Leads v.2 => ?_) ?_; rotate_left; subst v)
    | intro _
    | (extract_lets -lift +onlyGivenNames w; revert w)
    | dsimp -zeta -zetaDelta only
    | with_reducible apply Dev.setB_leads
    | with_reducible apply Dev.modeRequest_leads
    | (simp [*]; done)
    | (split <;> try (rename_i e; try obtain rfl := congrArg Prod.fst e; try obtain rfl := congrArg Prod.snd e))

theorem execDrainExitCheck_runs (s : State) : s.Runs (execDrainExitCheck s) := by
  unfold execDrainExitCheck
  refine State.on_runs fun init => ?_
  have h := Dev.Leads.refl init
  repeat' first
    | with_reducible assumption
    | (intro v; refine (fun hv : init.Leads v => ?_) ?_; rotate_left; subst v)
    | intro _
    | (extract_lets -lift +onlyGivenNames w; revert w)
    | with_reducible apply Dev.setB_leads
    | with_reducible apply Dev.raiseR_leads
    | with_reducible apply Dev.enterMode_leads
    | (simp [*]; done)
    | split

theorem execGenerationSweepDone_runs (s : State) : s.Runs (execGenerationSweepDone s) := by
  unfold execGenerationSweepDone
  refine State.on_runs fun init => ?_
  have h := Dev.Leads.refl init
  repeat' first
    | with_reducible assumption
    | (intro v; refine (fun hv : init.Leads v => ?_) ?_; rotate_left; subst v)
    | intro _
    | (extract_lets -lift +onlyGivenNames w; revert w)
    | with_reducible apply Dev.setF_leads
    | with_reducible apply Dev.raiseR_leads
    | with_reducible apply Dev.setCru_leads
    | with_reducible apply Dev.enterMode_leads
    | (simp [*]; done)
    | split

end Sys2Proof.Machine
end

