-- ==== Sys2Proof/Laws/LeadsMaintain.lean ====
section
/-! SUPPORT. What the maintenance operations never break (Leads), one lemma a function; each command runs (Runs), one lemma a command. -/

namespace Sys2Proof.Machine

open Sys2Proof

set_option linter.tactic.unusedName false
set_option linter.unusedTactic false
set_option linter.unreachableTactic false
set_option linter.unusedSimpArgs false
set_option linter.unusedVariables false

/-- Leads of one step of a maintenance operation. -/
def Dev.LeadsM (a : Dev) : MaintStep → Prop
  | .waits d => a.Leads d
  | .done d => a.Leads d
  | .fails d _ => a.Leads d

theorem Dev.leadsM_waits {a d : Dev} (h : a.Leads d) : a.LeadsM (.waits d) := h
theorem Dev.leadsM_done {a d : Dev} (h : a.Leads d) : a.LeadsM (.done d) := h
theorem Dev.leadsM_fails {a d : Dev} (s : Status) (h : a.Leads d) : a.LeadsM (.fails d s) := h

@[simp] theorem Dev.setMaint_leads {init d : Dev} (m : Maint) (h : init.Leads d) : init.Leads (Dev.setMaint d m) := by
  simp [Dev.setMaint, h]

@[simp] theorem Dev.addMaint_leads {init d : Dev} (origin : MaintFrom) (first : Nat) (count : Nat) (op : MaintOp) (discard : Bool) (owners : Option (List Nat)) (base : Nat) (top : Nat) (h : init.Leads d) : init.Leads (Dev.addMaint d origin first count op discard owners base top) := by
  unfold Dev.addMaint
  repeat' first
    | with_reducible assumption
    | (intro v; refine (fun hv : init.Leads v => ?_) ?_; rotate_left; subst v)
    | (intro v; refine (fun hv : init.Leads v.1 => ?_) ?_; rotate_left; subst v)
    | (intro v; refine (fun hv : init.Leads v.2 => ?_) ?_; rotate_left; subst v)
    | intro _
    | (extract_lets -lift +onlyGivenNames w; revert w)
    | dsimp -zeta -zetaDelta only
    | with_reducible apply Dev.setCru_leads
    | (simp [*]; done)
    | (split <;> try (rename_i e; try obtain rfl := congrArg Prod.fst e; try obtain rfl := congrArg Prod.snd e))

@[simp] theorem Dev.endMaint_leads {init d : Dev} (m : Maint) (st : Status) (h : init.Leads d) : init.Leads (Dev.endMaint d m st) := by
  unfold Dev.endMaint
  repeat' first
    | with_reducible assumption
    | (intro v; refine (fun hv : init.Leads v => ?_) ?_; rotate_left; subst v)
    | (intro v; refine (fun hv : init.Leads v.1 => ?_) ?_; rotate_left; subst v)
    | (intro v; refine (fun hf1 : ∀ d, init.Leads d → init.Leads (v d) => ?_) ?_; rotate_left; subst v)
    | (intro v; refine (fun hf2 : ∀ d x, init.Leads d → init.Leads (v d x) => ?_) ?_; rotate_left; subst v)
    | (intro v; refine (fun hf3 : ∀ d x y, init.Leads d → init.Leads (v d x y) => ?_) ?_; rotate_left; subst v)
    | (intro v; refine (fun hv : init.Leads v.2 => ?_) ?_; rotate_left; subst v)
    | intro _
    | (extract_lets -lift +onlyGivenNames w; revert w)
    | dsimp -zeta -zetaDelta only
    | with_reducible apply hf1
    | with_reducible apply hf2
    | with_reducible apply hf3
    | with_reducible apply Dev.setF_leads
    | with_reducible apply Dev.setB_leads
    | with_reducible apply Dev.setCru_leads
    | with_reducible apply Dev.mbEnd_leads
    | with_reducible apply Dev.setMaint_leads
    | (simp [*]; done)
    | (split <;> try (rename_i e; try obtain rfl := congrArg Prod.fst e; try obtain rfl := congrArg Prod.snd e))

@[simp] theorem Dev.maintNext_leads {init d : Dev} (m : Maint) (h : init.Leads d) : init.Leads (Dev.maintNext d m) := by
  unfold Dev.maintNext
  repeat' first
    | with_reducible assumption
    | (intro v; refine (fun hv : init.Leads v => ?_) ?_; rotate_left; subst v)
    | (intro v; refine (fun hv : init.Leads v.1 => ?_) ?_; rotate_left; subst v)
    | (intro v; refine (fun hv : init.Leads v.2 => ?_) ?_; rotate_left; subst v)
    | intro _
    | (extract_lets -lift +onlyGivenNames w; revert w)
    | dsimp -zeta -zetaDelta only
    | with_reducible apply Dev.setCru_leads
    | with_reducible apply Dev.setMaint_leads
    | with_reducible apply Dev.endMaint_leads
    | (simp [*]; done)
    | (split <;> try (rename_i e; try obtain rfl := congrArg Prod.fst e; try obtain rfl := congrArg Prod.snd e))

@[simp] theorem Dev.maintSnoop_leads {init d : Dev} (m : Maint) (slab : Nat) (go : Dev → MaintStep) (h : init.Leads d) (hgo : ∀ x0, init.Leads x0 → init.LeadsM (go x0)) : init.LeadsM (Dev.maintSnoop d m slab go) := by
  unfold Dev.maintSnoop
  repeat' first
    | with_reducible assumption
    | (intro v; refine (fun hv : init.Leads v => ?_) ?_; rotate_left; subst v)
    | (intro v; refine (fun hv : init.Leads v.1 => ?_) ?_; rotate_left; subst v)
    | (intro v; refine (fun hv : init.Leads v.2 => ?_) ?_; rotate_left; subst v)
    | intro _
    | (extract_lets -lift +onlyGivenNames w; revert w)
    | dsimp -zeta -zetaDelta only
    | with_reducible apply hgo
    | with_reducible apply Dev.forEach_leads
    | with_reducible apply Dev.sendSnoops_leads
    | with_reducible apply Dev.setMaint_leads
    | with_reducible apply Dev.leadsM_waits
    | with_reducible apply Dev.leadsM_done
    | with_reducible apply Dev.leadsM_fails
    | (simp [*]; done)
    | (split <;> try (rename_i e; try obtain rfl := congrArg Prod.fst e; try obtain rfl := congrArg Prod.snd e))

@[simp] theorem Dev.waitsFill_leads {init d : Dev} (slab : Nat) (h : init.Leads d) : init.LeadsM (Dev.waitsFill d slab) := by
  unfold Dev.waitsFill
  repeat' first
    | with_reducible assumption
    | (intro v; refine (fun hv : init.Leads v => ?_) ?_; rotate_left; subst v)
    | (intro v; refine (fun hv : init.Leads v.1 => ?_) ?_; rotate_left; subst v)
    | (intro v; refine (fun hv : init.Leads v.2 => ?_) ?_; rotate_left; subst v)
    | intro _
    | (extract_lets -lift +onlyGivenNames w; revert w)
    | dsimp -zeta -zetaDelta only
    | with_reducible apply Dev.issueFill_leads
    | with_reducible apply Dev.demand_leads
    | with_reducible apply Dev.leadsM_waits
    | with_reducible apply Dev.leadsM_done
    | with_reducible apply Dev.leadsM_fails
    | (simp [*]; done)
    | (split <;> try (rename_i e; try obtain rfl := congrArg Prod.fst e; try obtain rfl := congrArg Prod.snd e))

@[simp] theorem Dev.maintDestage_leads {init d : Dev} (m : Maint) (slab : Nat) (h : init.Leads d) : init.LeadsM (Dev.maintDestage d m slab) := by
  unfold Dev.maintDestage
  repeat' first
    | with_reducible assumption
    | (intro v; refine (fun hv : init.Leads v => ?_) ?_; rotate_left; subst v)
    | (intro v; refine (fun hv : init.Leads v.1 => ?_) ?_; rotate_left; subst v)
    | (intro v; refine (fun hv : init.Leads v.2 => ?_) ?_; rotate_left; subst v)
    | intro _
    | (extract_lets -lift +onlyGivenNames w; revert w)
    | dsimp -zeta -zetaDelta only
    | with_reducible apply Dev.demand_leads
    | with_reducible apply Dev.startDestage_leads
    | with_reducible apply Dev.setMaint_leads
    | with_reducible apply Dev.leadsM_waits
    | with_reducible apply Dev.leadsM_done
    | with_reducible apply Dev.leadsM_fails
    | (simp [*]; done)
    | (split <;> try (rename_i e; try obtain rfl := congrArg Prod.fst e; try obtain rfl := congrArg Prod.snd e))

@[simp] theorem Dev.discardSlab_leads {init d : Dev} (m : Maint) (slab : Nat) (t : Tag) (h : init.Leads d) : init.Leads (Dev.discardSlab d m slab t) := by
  unfold Dev.discardSlab
  repeat' first
    | with_reducible assumption
    | (intro v; refine (fun hv : init.Leads v => ?_) ?_; rotate_left; subst v)
    | (intro v; refine (fun hv : init.Leads v.1 => ?_) ?_; rotate_left; subst v)
    | (intro v; refine (fun hv : init.Leads v.2 => ?_) ?_; rotate_left; subst v)
    | intro _
    | (extract_lets -lift +onlyGivenNames w; revert w)
    | dsimp -zeta -zetaDelta only
    | with_reducible apply Dev.tick_leads
    | with_reducible apply Dev.invalidate_leads
    | with_reducible apply Dev.delPoison_leads
    | with_reducible apply Dev.ceilCheck_leads
    | with_reducible apply Dev.raiseC_leads
    | with_reducible apply Dev.completeThrough_leads
    | (simp [*]; done)
    | (split <;> try (rename_i e; try obtain rfl := congrArg Prod.fst e; try obtain rfl := congrArg Prod.snd e))

@[simp] theorem Dev.maintClean_leads {init d : Dev} (m : Maint) (slab : Nat) (h : init.Leads d) : init.LeadsM (Dev.maintClean d m slab) := by
  unfold Dev.maintClean
  repeat' first
    | with_reducible assumption
    | (intro v; refine (fun hv : init.Leads v => ?_) ?_; rotate_left; subst v)
    | (intro v; refine (fun hv : init.Leads v.1 => ?_) ?_; rotate_left; subst v)
    | (intro v; refine (fun hv : init.Leads v.2 => ?_) ?_; rotate_left; subst v)
    | intro _
    | (extract_lets -lift +onlyGivenNames w; revert w)
    | dsimp -zeta -zetaDelta only
    | with_reducible apply Dev.waitsFill_leads
    | with_reducible apply Dev.maintDestage_leads
    | with_reducible apply Dev.leadsM_waits
    | with_reducible apply Dev.leadsM_done
    | with_reducible apply Dev.leadsM_fails
    | (simp [*]; done)
    | (split <;> try (rename_i e; try obtain rfl := congrArg Prod.fst e; try obtain rfl := congrArg Prod.snd e))

@[simp] theorem Dev.maintInvalidate_leads {init d : Dev} (m : Maint) (slab : Nat) (h : init.Leads d) : init.LeadsM (Dev.maintInvalidate d m slab) := by
  unfold Dev.maintInvalidate
  repeat' first
    | with_reducible assumption
    | (intro v; refine (fun hv : init.Leads v => ?_) ?_; rotate_left; subst v)
    | (intro v; refine (fun hv : init.Leads v.1 => ?_) ?_; rotate_left; subst v)
    | (intro v; refine (fun hv : init.Leads v.2 => ?_) ?_; rotate_left; subst v)
    | intro _
    | (extract_lets -lift +onlyGivenNames w; revert w)
    | dsimp -zeta -zetaDelta only
    | with_reducible apply Dev.setCru_leads
    | with_reducible apply Dev.invalidate_leads
    | with_reducible apply Dev.delPoison_leads
    | with_reducible apply Dev.maintSnoop_leads
    | with_reducible apply Dev.waitsFill_leads
    | with_reducible apply Dev.discardSlab_leads
    | with_reducible apply Dev.leadsM_waits
    | with_reducible apply Dev.leadsM_done
    | with_reducible apply Dev.leadsM_fails
    | (simp [*]; done)
    | (split <;> try (rename_i e; try obtain rfl := congrArg Prod.fst e; try obtain rfl := congrArg Prod.snd e))

@[simp] theorem Dev.maintEvict_leads {init d : Dev} (m : Maint) (slab : Nat) (h : init.Leads d) : init.LeadsM (Dev.maintEvict d m slab) := by
  unfold Dev.maintEvict
  repeat' first
    | with_reducible assumption
    | (intro v; refine (fun hv : init.Leads v => ?_) ?_; rotate_left; subst v)
    | (intro v; refine (fun hv : init.Leads v.1 => ?_) ?_; rotate_left; subst v)
    | (intro v; refine (fun hv : init.Leads v.2 => ?_) ?_; rotate_left; subst v)
    | intro _
    | (extract_lets -lift +onlyGivenNames w; revert w)
    | dsimp -zeta -zetaDelta only
    | with_reducible apply Dev.setCru_leads
    | with_reducible apply Dev.invalidate_leads
    | with_reducible apply Dev.maintSnoop_leads
    | with_reducible apply Dev.waitsFill_leads
    | with_reducible apply Dev.maintDestage_leads
    | with_reducible apply Dev.leadsM_waits
    | with_reducible apply Dev.leadsM_done
    | with_reducible apply Dev.leadsM_fails
    | (simp [*]; done)
    | (split <;> try (rename_i e; try obtain rfl := congrArg Prod.fst e; try obtain rfl := congrArg Prod.snd e))

@[simp] theorem Dev.maintAllocate_leads {init d : Dev} (slab : Nat) (pin : Bool) (alone : Dev → MaintStep) (h : init.Leads d) (halone : ∀ x0, init.Leads x0 → init.LeadsM (alone x0)) : init.LeadsM (Dev.maintAllocate d slab pin alone) := by
  unfold Dev.maintAllocate
  repeat' first
    | with_reducible assumption
    | (intro v; refine (fun hv : init.Leads v => ?_) ?_; rotate_left; subst v)
    | (intro v; refine (fun hv : init.Leads v.1 => ?_) ?_; rotate_left; subst v)
    | (intro v; refine (fun hv : init.Leads v.2 => ?_) ?_; rotate_left; subst v)
    | intro _
    | (extract_lets -lift +onlyGivenNames w; revert w)
    | dsimp -zeta -zetaDelta only
    | with_reducible apply halone
    | with_reducible apply Dev.modTag_leads
    | with_reducible apply Dev.allocate_leads
    | with_reducible apply Dev.issueFill_leads
    | with_reducible apply Dev.startDestage_leads
    | with_reducible apply Dev.noWay_leads
    | with_reducible apply Dev.leadsM_waits
    | with_reducible apply Dev.leadsM_done
    | with_reducible apply Dev.leadsM_fails
    | (simp [*]; done)
    | (split <;> try (rename_i e; try obtain rfl := congrArg Prod.fst e; try obtain rfl := congrArg Prod.snd e))

@[simp] theorem Dev.maintPin_leads {init d : Dev} (slab : Nat) (h : init.Leads d) : init.LeadsM (Dev.maintPin d slab) := by
  unfold Dev.maintPin
  repeat' first
    | with_reducible assumption
    | (intro v; refine (fun hv : init.Leads v => ?_) ?_; rotate_left; subst v)
    | (intro v; refine (fun hv : init.Leads v.1 => ?_) ?_; rotate_left; subst v)
    | (intro v; refine (fun hf1 : ∀ d, init.Leads d → init.Leads (v d) => ?_) ?_; rotate_left; subst v)
    | (intro v; refine (fun hf2 : ∀ d x, init.Leads d → init.Leads (v d x) => ?_) ?_; rotate_left; subst v)
    | (intro v; refine (fun hf3 : ∀ d x y, init.Leads d → init.Leads (v d x y) => ?_) ?_; rotate_left; subst v)
    | (intro v; refine (fun hf1 : ∀ d, init.Leads d → init.LeadsM (v d) => ?_) ?_; rotate_left; subst v)
    | (intro v; refine (fun hv : init.Leads v.2 => ?_) ?_; rotate_left; subst v)
    | intro _
    | (extract_lets -lift +onlyGivenNames w; revert w)
    | dsimp -zeta -zetaDelta only
    | with_reducible apply hf1
    | with_reducible apply hf2
    | with_reducible apply hf3
    | with_reducible apply Dev.modTag_leads
    | with_reducible apply Dev.raiseC_leads
    | with_reducible apply Dev.waitsFill_leads
    | with_reducible apply Dev.maintAllocate_leads
    | with_reducible apply Dev.leadsM_waits
    | with_reducible apply Dev.leadsM_done
    | with_reducible apply Dev.leadsM_fails
    | (simp [*]; done)
    | (split <;> try (rename_i e; try obtain rfl := congrArg Prod.fst e; try obtain rfl := congrArg Prod.snd e))

@[simp] theorem Dev.maintUnpin_leads {init d : Dev} (slab : Nat) (h : init.Leads d) : init.LeadsM (Dev.maintUnpin d slab) := by
  unfold Dev.maintUnpin
  repeat' first
    | with_reducible assumption
    | (intro v; refine (fun hv : init.Leads v => ?_) ?_; rotate_left; subst v)
    | (intro v; refine (fun hv : init.Leads v.1 => ?_) ?_; rotate_left; subst v)
    | (intro v; refine (fun hv : init.Leads v.2 => ?_) ?_; rotate_left; subst v)
    | intro _
    | (extract_lets -lift +onlyGivenNames w; revert w)
    | dsimp -zeta -zetaDelta only
    | with_reducible apply Dev.modTag_leads
    | with_reducible apply Dev.waitsFill_leads
    | with_reducible apply Dev.leadsM_waits
    | with_reducible apply Dev.leadsM_done
    | with_reducible apply Dev.leadsM_fails
    | (simp [*]; done)
    | (split <;> try (rename_i e; try obtain rfl := congrArg Prod.fst e; try obtain rfl := congrArg Prod.snd e))

@[simp] theorem Dev.maintFillAhead_leads {init d : Dev} (slab : Nat) (h : init.Leads d) : init.LeadsM (Dev.maintFillAhead d slab) := by
  unfold Dev.maintFillAhead
  repeat' first
    | with_reducible assumption
    | (intro v; refine (fun hv : init.Leads v => ?_) ?_; rotate_left; subst v)
    | (intro v; refine (fun hv : init.Leads v.1 => ?_) ?_; rotate_left; subst v)
    | (intro v; refine (fun hv : init.Leads v.2 => ?_) ?_; rotate_left; subst v)
    | intro _
    | (extract_lets -lift +onlyGivenNames w; revert w)
    | dsimp -zeta -zetaDelta only
    | with_reducible apply Dev.waitsFill_leads
    | with_reducible apply Dev.maintAllocate_leads
    | with_reducible apply Dev.leadsM_waits
    | with_reducible apply Dev.leadsM_done
    | with_reducible apply Dev.leadsM_fails
    | (simp [*]; done)
    | (split <;> try (rename_i e; try obtain rfl := congrArg Prod.fst e; try obtain rfl := congrArg Prod.snd e))

@[simp] theorem Dev.maintStep_leads {init d : Dev} (id : Nat) (op : MaintOp) (act : Dev → Maint → Nat → MaintStep) (h : init.Leads d) (hact : ∀ x0 x1 x2, init.Leads x0 → init.LeadsM (act x0 x1 x2)) : init.Leads (Dev.maintStep d id op act) := by
  unfold Dev.maintStep
  split
  · exact h
  · split
    · exact h
    · extract_lets slab m
      split
      · exact Dev.endMaint_leads _ _ h
      · split
        · exact Dev.endMaint_leads _ _ h
        · split
          · exact h
          · have k := hact (d.setMaint m) m slab (Dev.setMaint_leads m h)
            split <;> rename_i e <;> rw [e] at k
            · exact k
            · exact Dev.maintNext_leads _ k
            · exact Dev.endMaint_leads _ _ k

@[simp] theorem Dev.abortMaints_leads {init d : Dev} (h : init.Leads d) : init.Leads (Dev.abortMaints d) := by
  unfold Dev.abortMaints
  repeat' first
    | with_reducible assumption
    | (intro v; refine (fun hv : init.Leads v => ?_) ?_; rotate_left; subst v)
    | (intro v; refine (fun hv : init.Leads v.1 => ?_) ?_; rotate_left; subst v)
    | (intro v; refine (fun hv : init.Leads v.2 => ?_) ?_; rotate_left; subst v)
    | intro _
    | (extract_lets -lift +onlyGivenNames w; revert w)
    | dsimp -zeta -zetaDelta only
    | with_reducible apply Dev.forEach_leads
    | with_reducible apply Dev.endMaint_leads
    | (simp [*]; done)
    | (split <;> try (rename_i e; try obtain rfl := congrArg Prod.fst e; try obtain rfl := congrArg Prod.snd e))

theorem execMaintClean_runs (id : Nat) (s : State) : s.Runs (execMaintClean id s) := by
  unfold execMaintClean
  refine State.on_runs fun init => ?_
  have h := Dev.Leads.refl init
  repeat' first
    | with_reducible assumption
    | intro _
    | with_reducible apply Dev.maintClean_leads
    | with_reducible apply Dev.maintStep_leads
    | (simp [*]; done)

theorem execMaintInvalidate_runs (id : Nat) (s : State) : s.Runs (execMaintInvalidate id s) := by
  unfold execMaintInvalidate
  refine State.on_runs fun init => ?_
  have h := Dev.Leads.refl init
  repeat' first
    | with_reducible assumption
    | intro _
    | with_reducible apply Dev.invalidate_leads
    | with_reducible apply Dev.maintInvalidate_leads
    | with_reducible apply Dev.maintStep_leads
    | (simp [*]; done)

theorem execMaintEvict_runs (id : Nat) (s : State) : s.Runs (execMaintEvict id s) := by
  unfold execMaintEvict
  refine State.on_runs fun init => ?_
  have h := Dev.Leads.refl init
  repeat' first
    | with_reducible assumption
    | intro _
    | with_reducible apply Dev.maintEvict_leads
    | with_reducible apply Dev.maintStep_leads
    | (simp [*]; done)

theorem execMaintPin_runs (id : Nat) (s : State) : s.Runs (execMaintPin id s) := by
  unfold execMaintPin
  refine State.on_runs fun init => ?_
  have h := Dev.Leads.refl init
  repeat' first
    | with_reducible assumption
    | intro _
    | with_reducible apply Dev.maintPin_leads
    | with_reducible apply Dev.maintStep_leads
    | (simp [*]; done)

theorem execMaintUnpin_runs (id : Nat) (s : State) : s.Runs (execMaintUnpin id s) := by
  unfold execMaintUnpin
  refine State.on_runs fun init => ?_
  have h := Dev.Leads.refl init
  repeat' first
    | with_reducible assumption
    | intro _
    | with_reducible apply Dev.maintUnpin_leads
    | with_reducible apply Dev.maintStep_leads
    | (simp [*]; done)

theorem execMaintFillAhead_runs (id : Nat) (s : State) : s.Runs (execMaintFillAhead id s) := by
  unfold execMaintFillAhead
  refine State.on_runs fun init => ?_
  have h := Dev.Leads.refl init
  repeat' first
    | with_reducible assumption
    | intro _
    | with_reducible apply Dev.maintFillAhead_leads
    | with_reducible apply Dev.maintStep_leads
    | (simp [*]; done)

@[simp] theorem Dev.smithEnd_leads {init d : Dev} (die : Nat) (st : Status) (h : init.Leads d) : init.Leads (Dev.smithEnd d die st) := by
  unfold Dev.smithEnd
  repeat' first
    | with_reducible assumption
    | (intro v; refine (fun hv : init.Leads v => ?_) ?_; rotate_left; subst v)
    | (intro v; refine (fun hv : init.Leads v.1 => ?_) ?_; rotate_left; subst v)
    | (intro v; refine (fun hv : init.Leads v.2 => ?_) ?_; rotate_left; subst v)
    | intro _
    | (extract_lets -lift +onlyGivenNames w; revert w)
    | dsimp -zeta -zetaDelta only
    | with_reducible apply Dev.setF_leads
    | with_reducible apply Dev.setB_leads
    | (simp [*]; done)
    | (split <;> try (rename_i e; try obtain rfl := congrArg Prod.fst e; try obtain rfl := congrArg Prod.snd e))

theorem execCrucMaintGo_runs (die slab count op : Nat) (discard : Bool) (s : State) : s.Runs (execCrucMaintGo die slab count op discard s) := by
  unfold execCrucMaintGo
  refine State.on_runs fun init => ?_
  have h := Dev.Leads.refl init
  repeat' first
    | with_reducible assumption
    | (intro v; refine (fun hv : init.Leads v => ?_) ?_; rotate_left; subst v)
    | intro _
    | (extract_lets -lift +onlyGivenNames w; revert w)
    | with_reducible apply Dev.setF_leads
    | with_reducible apply Dev.setB_leads
    | with_reducible apply Dev.addMaint_leads
    | with_reducible apply Dev.smithEnd_leads
    | (simp [*]; done)
    | split

end Sys2Proof.Machine
end

