-- ==== Sys2Proof/Laws/LeadsPair.lean ====
section
/-! SUPPORT. What roles, heats and the pair never break (Leads), one lemma a function; each command runs (Runs), one lemma a command. -/

namespace Sys2Proof.Machine

open Sys2Proof

set_option linter.tactic.unusedName false
set_option linter.unusedTactic false
set_option linter.unreachableTactic false
set_option linter.unusedSimpArgs false
set_option linter.unusedVariables false

@[simp] theorem Dev.storeRole_leads {init d : Dev} (n : Nat) (r : RoleRec) (h : init.Leads d) : init.Leads (Dev.storeRole d n r) := by
  simp [Dev.storeRole, h]

@[simp] theorem Dev.putRecord_leads {init d : Dev} (n : Nat) (r : RoleRec) (h : init.Leads d) : init.Leads (Dev.putRecord d n r) := by
  simp [Dev.putRecord, h]

@[simp] theorem Dev.releaseBacking_leads {init d : Dev} (n : Nat) (h : init.Leads d) : init.Leads (Dev.releaseBacking d n) := by
  simp [Dev.releaseBacking, h]

@[simp] theorem Dev.endHold_leads {init d : Dev} (n : Nat) (cause : Nat) (h : init.Leads d) : init.Leads (Dev.endHold d n cause) := by
  unfold Dev.endHold
  repeat' first
    | with_reducible assumption
    | (intro v; refine (fun hv : init.Leads v => ?_) ?_; rotate_left; subst v)
    | (intro v; refine (fun hv : init.Leads v.1 => ?_) ?_; rotate_left; subst v)
    | (intro v; refine (fun hv : init.Leads v.2 => ?_) ?_; rotate_left; subst v)
    | intro _
    | (extract_lets -lift +onlyGivenNames w; revert w)
    | dsimp -zeta -zetaDelta only
    | with_reducible apply Dev.setB_leads
    | with_reducible apply Dev.raiseB_leads
    | with_reducible apply Dev.releaseBacking_leads
    | (simp [*]; done)
    | (split <;> try (rename_i e; try obtain rfl := congrArg Prod.fst e; try obtain rfl := congrArg Prod.snd e))

@[simp] theorem Dev.startHold_leads {init d : Dev} (n : Nat) (h : init.Leads d) : init.Leads (Dev.startHold d n) := by
  unfold Dev.startHold
  repeat' first
    | with_reducible assumption
    | (intro v; refine (fun hv : init.Leads v => ?_) ?_; rotate_left; subst v)
    | (intro v; refine (fun hv : init.Leads v.1 => ?_) ?_; rotate_left; subst v)
    | (intro v; refine (fun hv : init.Leads v.2 => ?_) ?_; rotate_left; subst v)
    | intro _
    | (extract_lets -lift +onlyGivenNames w; revert w)
    | dsimp -zeta -zetaDelta only
    | with_reducible apply Dev.tick_leads
    | with_reducible apply Dev.setB_leads
    | with_reducible apply Dev.raiseB_leads
    | (simp [*]; done)
    | (split <;> try (rename_i e; try obtain rfl := congrArg Prod.fst e; try obtain rfl := congrArg Prod.snd e))

@[simp] theorem Dev.completeAcked_leads {init d : Dev} (h : init.Leads d) : init.Leads (Dev.completeAcked d) := by
  unfold Dev.completeAcked
  repeat' first
    | with_reducible assumption
    | (intro v; refine (fun hv : init.Leads v => ?_) ?_; rotate_left; subst v)
    | (intro v; refine (fun hv : init.Leads v.1 => ?_) ?_; rotate_left; subst v)
    | (intro v; refine (fun hv : init.Leads v.2 => ?_) ?_; rotate_left; subst v)
    | intro _
    | (extract_lets -lift +onlyGivenNames w; revert w)
    | dsimp -zeta -zetaDelta only
    | with_reducible apply Dev.forEach_leads
    | with_reducible apply Dev.endReq_leads
    | with_reducible apply Dev.complete_leads
    | (simp [*]; done)
    | (split <;> try (rename_i e; try obtain rfl := congrArg Prod.fst e; try obtain rfl := congrArg Prod.snd e))

@[simp] theorem Dev.setRole_leads {init d : Dev} (n : Nat) (new : Role) (h : init.Leads d) : init.Leads (Dev.setRole d n new) := by
  unfold Dev.setRole
  repeat' first
    | with_reducible assumption
    | (intro v; refine (fun hv : init.Leads v => ?_) ?_; rotate_left; subst v)
    | (intro v; refine (fun hv : init.Leads v.1 => ?_) ?_; rotate_left; subst v)
    | (intro v; refine (fun hv : init.Leads v.2 => ?_) ?_; rotate_left; subst v)
    | intro _
    | (extract_lets -lift +onlyGivenNames w; revert w)
    | dsimp -zeta -zetaDelta only
    | with_reducible apply Dev.raiseB_leads
    | with_reducible apply Dev.record_leads
    | with_reducible apply Dev.setRegion_leads
    | with_reducible apply Dev.judgeRegion_leads
    | with_reducible apply Dev.endHold_leads
    | (simp [*]; done)
    | (split <;> try (rename_i e; try obtain rfl := congrArg Prod.fst e; try obtain rfl := congrArg Prod.snd e))

@[simp] theorem Dev.addPend_leads {init d : Dev} (n : Nat) (r : RoleRec) (next : Role) (cause : RoleCause) (h : init.Leads d) : init.Leads (Dev.addPend d n r next cause) := by
  simp [Dev.addPend, h]

@[simp] theorem Dev.handoverAt_leads {init d : Dev} (b : Nat) (h : init.Leads d) : init.Leads (Dev.handoverAt d b) := by
  unfold Dev.handoverAt
  repeat' first
    | with_reducible assumption
    | (intro v; refine (fun hv : init.Leads v => ?_) ?_; rotate_left; subst v)
    | (intro v; refine (fun hv : init.Leads v.1 => ?_) ?_; rotate_left; subst v)
    | (intro v; refine (fun hv : init.Leads v.2 => ?_) ?_; rotate_left; subst v)
    | intro _
    | (extract_lets -lift +onlyGivenNames w; revert w)
    | dsimp -zeta -zetaDelta only
    | with_reducible apply Dev.forEach_leads
    | with_reducible apply Dev.record_leads
    | with_reducible apply Dev.setRegion_leads
    | with_reducible apply Dev.sendGeneral_leads
    | with_reducible apply Dev.setRole_leads
    | with_reducible apply Dev.addPend_leads
    | (simp [*]; done)
    | (split <;> try (rename_i e; try obtain rfl := congrArg Prod.fst e; try obtain rfl := congrArg Prod.snd e))

@[simp] theorem Dev.setHeat_leads {init d : Dev} (f : HeatState → HeatState) (h : init.Leads d) : init.Leads (Dev.setHeat d f) := by
  simp [Dev.setHeat, h]

@[simp] theorem Dev.programReservation_leads {init d : Dev} (r : Nat) (h : init.Leads d) : init.Leads (Dev.programReservation d r) := by
  unfold Dev.programReservation
  repeat' first
    | with_reducible assumption
    | (intro v; refine (fun hv : init.Leads v => ?_) ?_; rotate_left; subst v)
    | (intro v; refine (fun hv : init.Leads v.1 => ?_) ?_; rotate_left; subst v)
    | (intro v; refine (fun hv : init.Leads v.2 => ?_) ?_; rotate_left; subst v)
    | intro _
    | (extract_lets -lift +onlyGivenNames w; revert w)
    | dsimp -zeta -zetaDelta only
    | with_reducible apply Dev.setF_leads
    | with_reducible apply Dev.tmpPut_leads
    | with_reducible apply Dev.tmpEraseSector_leads
    | (simp [*]; done)
    | (split <;> try (rename_i e; try obtain rfl := congrArg Prod.fst e; try obtain rfl := congrArg Prod.snd e))

@[simp] theorem Dev.startRetention_leads {init d : Dev} (n : Nat) (h : Nat) (ha : init.Leads d) : init.Leads (Dev.startRetention d n h) := by
  unfold Dev.startRetention
  repeat' first
    | with_reducible assumption
    | (intro v; refine (fun hv : init.Leads v => ?_) ?_; rotate_left; subst v)
    | (intro v; refine (fun hv : init.Leads v.1 => ?_) ?_; rotate_left; subst v)
    | (intro v; refine (fun hv : init.Leads v.2 => ?_) ?_; rotate_left; subst v)
    | intro _
    | (extract_lets -lift +onlyGivenNames w; revert w)
    | dsimp -zeta -zetaDelta only
    | with_reducible apply Dev.forEach_leads
    | with_reducible apply Dev.setB_leads
    | with_reducible apply Dev.raise_leads
    | with_reducible apply Dev.setHeat_leads
    | (simp [*]; done)
    | (split <;> try (rename_i e; try obtain rfl := congrArg Prod.fst e; try obtain rfl := congrArg Prod.snd e))

@[simp] theorem Dev.endRetention_leads {init d : Dev} (n : Nat) (h : init.Leads d) : init.Leads (Dev.endRetention d n) := by
  unfold Dev.endRetention
  repeat' first
    | with_reducible assumption
    | (intro v; refine (fun hv : init.Leads v => ?_) ?_; rotate_left; subst v)
    | (intro v; refine (fun hv : init.Leads v.1 => ?_) ?_; rotate_left; subst v)
    | (intro v; refine (fun hv : init.Leads v.2 => ?_) ?_; rotate_left; subst v)
    | intro _
    | (extract_lets -lift +onlyGivenNames w; revert w)
    | dsimp -zeta -zetaDelta only
    | with_reducible apply Dev.forEach_leads
    | with_reducible apply Dev.setB_leads
    | with_reducible apply Dev.raise_leads
    | with_reducible apply Dev.setHeat_leads
    | (simp [*]; done)
    | (split <;> try (rename_i e; try obtain rfl := congrArg Prod.fst e; try obtain rfl := congrArg Prod.snd e))

@[simp] theorem Dev.retainCheck_leads {init d : Dev} (die : Nat) (h : init.Leads d) : init.Leads (Dev.retainCheck d die) := by
  unfold Dev.retainCheck
  repeat' first
    | with_reducible assumption
    | (intro v; refine (fun hv : init.Leads v => ?_) ?_; rotate_left; subst v)
    | (intro v; refine (fun hv : init.Leads v.1 => ?_) ?_; rotate_left; subst v)
    | (intro v; refine (fun hv : init.Leads v.2 => ?_) ?_; rotate_left; subst v)
    | intro _
    | (extract_lets -lift +onlyGivenNames w; revert w)
    | dsimp -zeta -zetaDelta only
    | with_reducible apply Dev.raise_leads
    | with_reducible apply Dev.setHeat_leads
    | with_reducible apply Dev.endRetention_leads
    | (simp [*]; done)
    | (split <;> try (rename_i e; try obtain rfl := congrArg Prod.fst e; try obtain rfl := congrArg Prod.snd e))

@[simp] theorem Dev.panicCheck_leads {init d : Dev} (die : Nat) (h : init.Leads d) : init.Leads (Dev.panicCheck d die) := by
  unfold Dev.panicCheck
  repeat' first
    | with_reducible assumption
    | (intro v; refine (fun hv : init.Leads v => ?_) ?_; rotate_left; subst v)
    | (intro v; refine (fun hv : init.Leads v.1 => ?_) ?_; rotate_left; subst v)
    | (intro v; refine (fun hv : init.Leads v.2 => ?_) ?_; rotate_left; subst v)
    | intro _
    | (extract_lets -lift +onlyGivenNames w; revert w)
    | dsimp -zeta -zetaDelta only
    | with_reducible apply Dev.setB_leads
    | with_reducible apply Dev.raise_leads
    | (simp [*]; done)
    | (split <;> try (rename_i e; try obtain rfl := congrArg Prod.fst e; try obtain rfl := congrArg Prod.snd e))

@[simp] theorem Dev.openHeatAt_leads {init d : Dev} (h : Nat) (ha : init.Leads d) : init.Leads (Dev.openHeatAt d h) := by
  unfold Dev.openHeatAt
  repeat' first
    | with_reducible assumption
    | (intro v; refine (fun hv : init.Leads v => ?_) ?_; rotate_left; subst v)
    | (intro v; refine (fun hv : init.Leads v.1 => ?_) ?_; rotate_left; subst v)
    | (intro v; refine (fun hv : init.Leads v.2 => ?_) ?_; rotate_left; subst v)
    | intro _
    | (extract_lets -lift +onlyGivenNames w; revert w)
    | dsimp -zeta -zetaDelta only
    | with_reducible apply Dev.setF_leads
    | with_reducible apply Dev.emits_leads
    | with_reducible apply Dev.setB_leads
    | with_reducible apply Dev.incF_leads
    | with_reducible apply Dev.raiseR_leads
    | with_reducible apply Dev.setWeld_leads
    | with_reducible apply Dev.handoverAt_leads
    | with_reducible apply Dev.setHeat_leads
    | (simp [*]; done)
    | (split <;> try (rename_i e; try obtain rfl := congrArg Prod.fst e; try obtain rfl := congrArg Prod.snd e))

@[simp] theorem Dev.deferBoundary_leads {init d : Dev} (h : Nat) (cause : Nat) (ha : init.Leads d) : init.Leads (Dev.deferBoundary d h cause) := by
  unfold Dev.deferBoundary
  repeat' first
    | with_reducible assumption
    | (intro v; refine (fun hv : init.Leads v => ?_) ?_; rotate_left; subst v)
    | (intro v; refine (fun hv : init.Leads v.1 => ?_) ?_; rotate_left; subst v)
    | (intro v; refine (fun hv : init.Leads v.2 => ?_) ?_; rotate_left; subst v)
    | intro _
    | (extract_lets -lift +onlyGivenNames w; revert w)
    | dsimp -zeta -zetaDelta only
    | with_reducible apply Dev.setB_leads
    | with_reducible apply Dev.raiseR_leads
    | with_reducible apply Dev.setHeat_leads
    | (simp [*]; done)
    | (split <;> try (rename_i e; try obtain rfl := congrArg Prod.fst e; try obtain rfl := congrArg Prod.snd e))

@[simp] theorem Dev.boundary_leads {init d : Dev} (h : init.Leads d) : init.Leads (Dev.boundary d) := by
  unfold Dev.boundary
  repeat' first
    | with_reducible assumption
    | (intro v; refine (fun hv : init.Leads v => ?_) ?_; rotate_left; subst v)
    | (intro v; refine (fun hv : init.Leads v.1 => ?_) ?_; rotate_left; subst v)
    | (intro v; refine (fun hv : init.Leads v.2 => ?_) ?_; rotate_left; subst v)
    | intro _
    | (extract_lets -lift +onlyGivenNames w; revert w)
    | dsimp -zeta -zetaDelta only
    | with_reducible apply Dev.setHeat_leads
    | with_reducible apply Dev.openHeatAt_leads
    | with_reducible apply Dev.deferBoundary_leads
    | (simp [*]; done)
    | (split <;> try (rename_i e; try obtain rfl := congrArg Prod.fst e; try obtain rfl := congrArg Prod.snd e))

@[simp] theorem Dev.retryBoundary_leads {init d : Dev} (h : init.Leads d) : init.Leads (Dev.retryBoundary d) := by
  unfold Dev.retryBoundary
  repeat' first
    | with_reducible assumption
    | (intro v; refine (fun hv : init.Leads v => ?_) ?_; rotate_left; subst v)
    | (intro v; refine (fun hv : init.Leads v.1 => ?_) ?_; rotate_left; subst v)
    | (intro v; refine (fun hv : init.Leads v.2 => ?_) ?_; rotate_left; subst v)
    | intro _
    | (extract_lets -lift +onlyGivenNames w; revert w)
    | dsimp -zeta -zetaDelta only
    | with_reducible apply Dev.setHeat_leads
    | with_reducible apply Dev.boundary_leads
    | (simp [*]; done)
    | (split <;> try (rename_i e; try obtain rfl := congrArg Prod.fst e; try obtain rfl := congrArg Prod.snd e))

@[simp] theorem Dev.until_leads {init d : Dev} (t : Nat) (h : init.Leads d) : init.Leads (Dev.until d t) := by
  exact ⟨h.mem, h.regs, Nat.le_trans h.time (Nat.le_max_left _ _), h.draws, h.sent, h.part⟩

@[simp] theorem Dev.writeHeatCtrl_leads {init d : Dev} (len : Nat) (syncEn : Bool) (syncOut : Bool) (path : Nat) (h : init.Leads d) : init.Leads (Dev.writeHeatCtrl d len syncEn syncOut path) := by
  unfold Dev.writeHeatCtrl
  repeat' first
    | with_reducible assumption
    | (intro v; refine (fun hv : init.Leads v => ?_) ?_; rotate_left; subst v)
    | (intro v; refine (fun hv : init.Leads v.1 => ?_) ?_; rotate_left; subst v)
    | (intro v; refine (fun hv : init.Leads v.2 => ?_) ?_; rotate_left; subst v)
    | intro _
    | (extract_lets -lift +onlyGivenNames w; revert w)
    | dsimp -zeta -zetaDelta only
    | with_reducible apply Dev.setF_leads
    | with_reducible apply Dev.setB_leads
    | with_reducible apply Dev.raiseR_leads
    | (simp [*]; done)
    | (split <;> try (rename_i e; try obtain rfl := congrArg Prod.fst e; try obtain rfl := congrArg Prod.snd e))

@[simp] theorem Dev.ignoreEdge_leads {init d : Dev} (offset : Int) (h : init.Leads d) : init.Leads (Dev.ignoreEdge d offset) := by
  unfold Dev.ignoreEdge
  repeat' first
    | with_reducible assumption
    | (intro v; refine (fun hv : init.Leads v => ?_) ?_; rotate_left; subst v)
    | (intro v; refine (fun hv : init.Leads v.1 => ?_) ?_; rotate_left; subst v)
    | (intro v; refine (fun hv : init.Leads v.2 => ?_) ?_; rotate_left; subst v)
    | intro _
    | (extract_lets -lift +onlyGivenNames w; revert w)
    | dsimp -zeta -zetaDelta only
    | with_reducible apply Dev.tick_leads
    | with_reducible apply Dev.incF_leads
    | with_reducible apply Dev.raiseR_leads
    | (simp [*]; done)
    | (split <;> try (rename_i e; try obtain rfl := congrArg Prod.fst e; try obtain rfl := congrArg Prod.snd e))

@[simp] theorem Dev.lockSync_leads {init d : Dev} (offset : Int) (h : init.Leads d) : init.Leads (Dev.lockSync d offset) := by
  unfold Dev.lockSync
  repeat' first
    | with_reducible assumption
    | (intro v; refine (fun hv : init.Leads v => ?_) ?_; rotate_left; subst v)
    | (intro v; refine (fun hv : init.Leads v.1 => ?_) ?_; rotate_left; subst v)
    | (intro v; refine (fun hv : init.Leads v.2 => ?_) ?_; rotate_left; subst v)
    | intro _
    | (extract_lets -lift +onlyGivenNames w; revert w)
    | dsimp -zeta -zetaDelta only
    | with_reducible apply Dev.tick_leads
    | with_reducible apply Dev.setB_leads
    | with_reducible apply Dev.raiseR_leads
    | with_reducible apply Dev.setHeat_leads
    | (simp [*]; done)
    | (split <;> try (rename_i e; try obtain rfl := congrArg Prod.fst e; try obtain rfl := congrArg Prod.snd e))

@[simp] theorem Dev.syncEdge_leads {init d : Dev} (h : init.Leads d) : init.Leads (Dev.syncEdge d) := by
  unfold Dev.syncEdge
  repeat' first
    | with_reducible assumption
    | (intro v; refine (fun hv : init.Leads v => ?_) ?_; rotate_left; subst v)
    | (intro v; refine (fun hv : init.Leads v.1 => ?_) ?_; rotate_left; subst v)
    | (intro v; refine (fun hv : init.Leads v.2 => ?_) ?_; rotate_left; subst v)
    | intro _
    | (extract_lets -lift +onlyGivenNames w; revert w)
    | dsimp -zeta -zetaDelta only
    | with_reducible apply Dev.incF_leads
    | with_reducible apply Dev.setHeat_leads
    | with_reducible apply Dev.boundary_leads
    | with_reducible apply Dev.ignoreEdge_leads
    | with_reducible apply Dev.lockSync_leads
    | (simp [*]; done)
    | (split <;> try (rename_i e; try obtain rfl := congrArg Prod.fst e; try obtain rfl := congrArg Prod.snd e))

@[simp] theorem Dev.syncMiss_leads {init d : Dev} (h : init.Leads d) : init.Leads (Dev.syncMiss d) := by
  unfold Dev.syncMiss
  repeat' first
    | with_reducible assumption
    | (intro v; refine (fun hv : init.Leads v => ?_) ?_; rotate_left; subst v)
    | (intro v; refine (fun hv : init.Leads v.1 => ?_) ?_; rotate_left; subst v)
    | (intro v; refine (fun hv : init.Leads v.2 => ?_) ?_; rotate_left; subst v)
    | intro _
    | (extract_lets -lift +onlyGivenNames w; revert w)
    | dsimp -zeta -zetaDelta only
    | with_reducible apply Dev.setB_leads
    | with_reducible apply Dev.incF_leads
    | with_reducible apply Dev.raiseR_leads
    | with_reducible apply Dev.setHeat_leads
    | with_reducible apply Dev.boundary_leads
    | with_reducible apply Dev.until_leads
    | (simp [*]; done)
    | (split <;> try (rename_i e; try obtain rfl := congrArg Prod.fst e; try obtain rfl := congrArg Prod.snd e))

@[simp] theorem Dev.modEntry_leads {init d : Dev} (die : Nat) (heat : Nat) (receive : Bool) (f : Entry → Entry) (h : init.Leads d) : init.Leads (Dev.modEntry d die heat receive f) := by
  simp [Dev.modEntry, h]

@[simp] theorem Dev.writePages_leads {init d : Dev} (die : Nat) (heat : Nat) (receive : Bool) (h : init.Leads d) : init.Leads (Dev.writePages d die heat receive) := by
  simp [Dev.writePages, h]

@[simp] theorem Dev.flushJournal_leads {init d : Dev} (h : init.Leads d) : init.Leads (Dev.flushJournal d) := by
  simp [Dev.flushJournal, h]

@[simp] theorem Dev.sealEntry_leads {init d : Dev} (die : Nat) (heat : Nat) (receive : Bool) (h : init.Leads d) : init.Leads (Dev.sealEntry d die heat receive) := by
  simp [Dev.sealEntry, h]

@[simp] theorem Dev.carryOrDrop_leads {init d : Dev} (die : Nat) (e : Entry) (r : JRec) (h : init.Leads d) : init.Leads (Dev.carryOrDrop d die e r) := by
  unfold Dev.carryOrDrop
  repeat' first
    | with_reducible assumption
    | (intro v; refine (fun hv : init.Leads v => ?_) ?_; rotate_left; subst v)
    | (intro v; refine (fun hv : init.Leads v.1 => ?_) ?_; rotate_left; subst v)
    | (intro v; refine (fun hv : init.Leads v.2 => ?_) ?_; rotate_left; subst v)
    | intro _
    | (extract_lets -lift +onlyGivenNames w; revert w)
    | dsimp -zeta -zetaDelta only
    | with_reducible apply Dev.incF_leads
    | with_reducible apply Dev.modTag_leads
    | with_reducible apply Dev.append_leads
    | (simp [*]; done)
    | (split <;> try (rename_i e; try obtain rfl := congrArg Prod.fst e; try obtain rfl := congrArg Prod.snd e))

@[simp] theorem Dev.compactRecord_leads {init d : Dev} (die : Nat) (h : init.Leads d) : init.Leads (Dev.compactRecord d die) := by
  unfold Dev.compactRecord
  repeat' first
    | with_reducible assumption
    | (intro v; refine (fun hv : init.Leads v => ?_) ?_; rotate_left; subst v)
    | (intro v; refine (fun hv : init.Leads v.1 => ?_) ?_; rotate_left; subst v)
    | (intro v; refine (fun hv : init.Leads v.2 => ?_) ?_; rotate_left; subst v)
    | intro _
    | (extract_lets -lift +onlyGivenNames w; revert w)
    | dsimp -zeta -zetaDelta only
    | with_reducible apply Dev.setDir_leads
    | with_reducible apply Dev.retryBoundary_leads
    | with_reducible apply Dev.modEntry_leads
    | with_reducible apply Dev.carryOrDrop_leads
    | (simp [*]; done)
    | (split <;> try (rename_i e; try obtain rfl := congrArg Prod.fst e; try obtain rfl := congrArg Prod.snd e))

@[simp] theorem Dev.losePage_leads {init d : Dev} (die : Nat) (h : init.Leads d) : init.Leads (Dev.losePage d die) := by
  unfold Dev.losePage
  repeat' first
    | with_reducible assumption
    | (intro v; refine (fun hv : init.Leads v => ?_) ?_; rotate_left; subst v)
    | (intro v; refine (fun hv : init.Leads v.1 => ?_) ?_; rotate_left; subst v)
    | (intro v; refine (fun hv : init.Leads v.2 => ?_) ?_; rotate_left; subst v)
    | intro _
    | (extract_lets -lift +onlyGivenNames w; revert w)
    | dsimp -zeta -zetaDelta only
    | with_reducible apply Dev.tick_leads
    | with_reducible apply Dev.setB_leads
    | with_reducible apply Dev.raise_leads
    | with_reducible apply Dev.modEntry_leads
    | (simp [*]; done)
    | (split <;> try (rename_i e; try obtain rfl := congrArg Prod.fst e; try obtain rfl := congrArg Prod.snd e))

@[simp] theorem Dev.endTagWalk_leads {init d : Dev} (die : Nat) (h : init.Leads d) : init.Leads (Dev.endTagWalk d die) := by
  unfold Dev.endTagWalk
  repeat' first
    | with_reducible assumption
    | (intro v; refine (fun hv : init.Leads v => ?_) ?_; rotate_left; subst v)
    | (intro v; refine (fun hv : init.Leads v.1 => ?_) ?_; rotate_left; subst v)
    | (intro v; refine (fun hv : init.Leads v.2 => ?_) ?_; rotate_left; subst v)
    | intro _
    | (extract_lets -lift +onlyGivenNames w; revert w)
    | dsimp -zeta -zetaDelta only
    | with_reducible apply Dev.forEach_leads
    | with_reducible apply Dev.setB_leads
    | with_reducible apply Dev.modTag_leads
    | with_reducible apply Dev.append_leads
    | (simp [*]; done)
    | (split <;> try (rename_i e; try obtain rfl := congrArg Prod.fst e; try obtain rfl := congrArg Prod.snd e))

@[simp] theorem Dev.abortResync_leads {init d : Dev} (n : Nat) (h : init.Leads d) : init.Leads (Dev.abortResync d n) := by
  unfold Dev.abortResync
  repeat' first
    | with_reducible assumption
    | (intro v; refine (fun hv : init.Leads v => ?_) ?_; rotate_left; subst v)
    | (intro v; refine (fun hv : init.Leads v.1 => ?_) ?_; rotate_left; subst v)
    | (intro v; refine (fun hv : init.Leads v.2 => ?_) ?_; rotate_left; subst v)
    | intro _
    | (extract_lets -lift +onlyGivenNames w; revert w)
    | dsimp -zeta -zetaDelta only
    | with_reducible apply Dev.setF_leads
    | with_reducible apply Dev.raiseB_leads
    | with_reducible apply Dev.setRegion_leads
    | with_reducible apply Dev.setWeld_leads
    | with_reducible apply Dev.setResync_leads
    | (simp [*]; done)
    | (split <;> try (rename_i e; try obtain rfl := congrArg Prod.fst e; try obtain rfl := congrArg Prod.snd e))

@[simp] theorem Dev.discardRegion_leads {init d : Dev} (n : Nat) (h : init.Leads d) : init.Leads (Dev.discardRegion d n) := by
  unfold Dev.discardRegion
  repeat' first
    | with_reducible assumption
    | (intro v; refine (fun hv : init.Leads v => ?_) ?_; rotate_left; subst v)
    | (intro v; refine (fun hv : init.Leads v.1 => ?_) ?_; rotate_left; subst v)
    | (intro v; refine (fun hv : init.Leads v.2 => ?_) ?_; rotate_left; subst v)
    | intro _
    | (extract_lets -lift +onlyGivenNames w; revert w)
    | dsimp -zeta -zetaDelta only
    | with_reducible apply Dev.forEach_leads
    | with_reducible apply Dev.setCru_leads
    | with_reducible apply Dev.invalidate_leads
    | with_reducible apply Dev.ceilCheck_leads
    | with_reducible apply Dev.withdraw_leads
    | with_reducible apply Dev.setHeat_leads
    | (simp [*]; done)
    | (split <;> try (rename_i e; try obtain rfl := congrArg Prod.fst e; try obtain rfl := congrArg Prod.snd e))

@[simp] theorem Dev.beginRejoin_leads {init d : Dev} (n : Nat) (incremental : Bool) (acked : Nat) (h : init.Leads d) : init.Leads (Dev.beginRejoin d n incremental acked) := by
  unfold Dev.beginRejoin
  repeat' first
    | with_reducible assumption
    | (intro v; refine (fun hv : init.Leads v => ?_) ?_; rotate_left; subst v)
    | (intro v; refine (fun hv : init.Leads v.1 => ?_) ?_; rotate_left; subst v)
    | (intro v; refine (fun hv : init.Leads v.2 => ?_) ?_; rotate_left; subst v)
    | intro _
    | (extract_lets -lift +onlyGivenNames w; revert w)
    | dsimp -zeta -zetaDelta only
    | with_reducible apply Dev.setF_leads
    | with_reducible apply Dev.raiseB_leads
    | with_reducible apply Dev.setRegion_leads
    | with_reducible apply Dev.sendGeneral_leads
    | with_reducible apply Dev.setResync_leads
    | with_reducible apply Dev.setRole_leads
    | with_reducible apply Dev.discardRegion_leads
    | (simp [*]; done)
    | (split <;> try (rename_i e; try obtain rfl := congrArg Prod.fst e; try obtain rfl := congrArg Prod.snd e))

@[simp] theorem Dev.startResyncSlab_leads {init d : Dev} (slab : Nat) (h : init.Leads d) : init.Leads (Dev.startResyncSlab d slab) := by
  unfold Dev.startResyncSlab
  repeat' first
    | with_reducible assumption
    | (intro v; refine (fun hv : init.Leads v => ?_) ?_; rotate_left; subst v)
    | (intro v; refine (fun hv : init.Leads v.1 => ?_) ?_; rotate_left; subst v)
    | (intro v; refine (fun hf1 : ∀ d, init.Leads d → init.Leads (v d) => ?_) ?_; rotate_left; subst v)
    | (intro v; refine (fun hf2 : ∀ d x, init.Leads d → init.Leads (v d x) => ?_) ?_; rotate_left; subst v)
    | (intro v; refine (fun hf3 : ∀ d x y, init.Leads d → init.Leads (v d x y) => ?_) ?_; rotate_left; subst v)
    | (intro v; refine (fun hv : init.Leads v.2 => ?_) ?_; rotate_left; subst v)
    | intro _
    | (extract_lets -lift +onlyGivenNames w; revert w)
    | dsimp -zeta -zetaDelta only
    | with_reducible apply hf1
    | with_reducible apply hf2
    | with_reducible apply hf3
    | with_reducible apply Dev.setWeld_leads
    | with_reducible apply Dev.sendResync_leads
    | with_reducible apply Dev.issueFill_leads
    | with_reducible apply Dev.demand_leads
    | (simp [*]; done)
    | (split <;> try (rename_i e; try obtain rfl := congrArg Prod.fst e; try obtain rfl := congrArg Prod.snd e))

@[simp] theorem Dev.startResync_leads {init d : Dev} (n : Nat) (incremental : Bool) (named : List Nat) (h : init.Leads d) : init.Leads (Dev.startResync d n incremental named) := by
  unfold Dev.startResync
  repeat' first
    | with_reducible assumption
    | (intro v; refine (fun hv : init.Leads v => ?_) ?_; rotate_left; subst v)
    | (intro v; refine (fun hv : init.Leads v.1 => ?_) ?_; rotate_left; subst v)
    | (intro v; refine (fun hv : init.Leads v.2 => ?_) ?_; rotate_left; subst v)
    | intro _
    | (extract_lets -lift +onlyGivenNames w; revert w)
    | dsimp -zeta -zetaDelta only
    | with_reducible apply Dev.setF_leads
    | with_reducible apply Dev.forEach_leads
    | with_reducible apply Dev.raiseB_leads
    | with_reducible apply Dev.setRegion_leads
    | with_reducible apply Dev.setResync_leads
    | with_reducible apply Dev.completeAcked_leads
    | with_reducible apply Dev.startResyncSlab_leads
    | (simp [*]; done)
    | (split <;> try (rename_i e; try obtain rfl := congrArg Prod.fst e; try obtain rfl := congrArg Prod.snd e))

@[simp] theorem Dev.endResync_leads {init d : Dev} (n : Nat) (next : Role) (h : init.Leads d) : init.Leads (Dev.endResync d n next) := by
  unfold Dev.endResync
  repeat' first
    | with_reducible assumption
    | (intro v; refine (fun hv : init.Leads v => ?_) ?_; rotate_left; subst v)
    | (intro v; refine (fun hv : init.Leads v.1 => ?_) ?_; rotate_left; subst v)
    | (intro v; refine (fun hv : init.Leads v.2 => ?_) ?_; rotate_left; subst v)
    | intro _
    | (extract_lets -lift +onlyGivenNames w; revert w)
    | dsimp -zeta -zetaDelta only
    | with_reducible apply Dev.setF_leads
    | with_reducible apply Dev.raiseB_leads
    | with_reducible apply Dev.setRegion_leads
    | with_reducible apply Dev.setRole_leads
    | with_reducible apply Dev.setHeat_leads
    | with_reducible apply Dev.endRetention_leads
    | (simp [*]; done)
    | (split <;> try (rename_i e; try obtain rfl := congrArg Prod.fst e; try obtain rfl := congrArg Prod.snd e))

@[simp] theorem Dev.enterSolo_leads {init d : Dev} (n : Nat) (hold : Bool) (h : init.Leads d) : init.Leads (Dev.enterSolo d n hold) := by
  unfold Dev.enterSolo
  repeat' first
    | with_reducible assumption
    | (intro v; refine (fun hv : init.Leads v => ?_) ?_; rotate_left; subst v)
    | (intro v; refine (fun hv : init.Leads v.1 => ?_) ?_; rotate_left; subst v)
    | (intro v; refine (fun hv : init.Leads v.2 => ?_) ?_; rotate_left; subst v)
    | intro _
    | (extract_lets -lift +onlyGivenNames w; revert w)
    | dsimp -zeta -zetaDelta only
    | with_reducible apply Dev.record_leads
    | with_reducible apply Dev.setRegion_leads
    | with_reducible apply Dev.startHold_leads
    | with_reducible apply Dev.completeAcked_leads
    | with_reducible apply Dev.setRole_leads
    | with_reducible apply Dev.startRetention_leads
    | (simp [*]; done)
    | (split <;> try (rename_i e; try obtain rfl := congrArg Prod.fst e; try obtain rfl := congrArg Prod.snd e))

@[simp] theorem Dev.splitRecords_leads {init d : Dev} (h : init.Leads d) : init.Leads (Dev.splitRecords d) := by
  unfold Dev.splitRecords
  repeat' first
    | with_reducible assumption
    | (intro v; refine (fun hv : init.Leads v => ?_) ?_; rotate_left; subst v)
    | (intro v; refine (fun hv : init.Leads v.1 => ?_) ?_; rotate_left; subst v)
    | (intro v; refine (fun hv : init.Leads v.2 => ?_) ?_; rotate_left; subst v)
    | intro _
    | (extract_lets -lift +onlyGivenNames w; revert w)
    | dsimp -zeta -zetaDelta only
    | with_reducible apply Dev.forEach_leads
    | with_reducible apply Dev.setRegion_leads
    | with_reducible apply Dev.addPend_leads
    | (simp [*]; done)
    | (split <;> try (rename_i e; try obtain rfl := congrArg Prod.fst e; try obtain rfl := congrArg Prod.snd e))

@[simp] theorem Dev.lossRoles_leads {init d : Dev} (h : init.Leads d) : init.Leads (Dev.lossRoles d) := by
  unfold Dev.lossRoles
  repeat' first
    | with_reducible assumption
    | (intro v; refine (fun hv : init.Leads v => ?_) ?_; rotate_left; subst v)
    | (intro v; refine (fun hv : init.Leads v.1 => ?_) ?_; rotate_left; subst v)
    | (intro v; refine (fun hv : init.Leads v.2 => ?_) ?_; rotate_left; subst v)
    | intro _
    | (extract_lets -lift +onlyGivenNames w; revert w)
    | dsimp -zeta -zetaDelta only
    | with_reducible apply Dev.forEach_leads
    | with_reducible apply Dev.setRegion_leads
    | with_reducible apply Dev.setRole_leads
    | with_reducible apply Dev.abortResync_leads
    | (simp [*]; done)
    | (split <;> try (rename_i e; try obtain rfl := congrArg Prod.fst e; try obtain rfl := congrArg Prod.snd e))

@[simp] theorem Dev.sealReceive_leads {init d : Dev} (h : init.Leads d) : init.Leads (Dev.sealReceive d) := by
  unfold Dev.sealReceive
  repeat' first
    | with_reducible assumption
    | (intro v; refine (fun hv : init.Leads v => ?_) ?_; rotate_left; subst v)
    | (intro v; refine (fun hv : init.Leads v.1 => ?_) ?_; rotate_left; subst v)
    | (intro v; refine (fun hv : init.Leads v.2 => ?_) ?_; rotate_left; subst v)
    | intro _
    | (extract_lets -lift +onlyGivenNames w; revert w)
    | dsimp -zeta -zetaDelta only
    | with_reducible apply Dev.setHeat_leads
    | (simp [*]; done)
    | (split <;> try (rename_i e; try obtain rfl := congrArg Prod.fst e; try obtain rfl := congrArg Prod.snd e))

@[simp] theorem Dev.losePair_leads {init d : Dev} (code : Nat) (h : init.Leads d) : init.Leads (Dev.losePair d code) := by
  unfold Dev.losePair
  repeat' first
    | with_reducible assumption
    | (intro v; refine (fun hv : init.Leads v => ?_) ?_; rotate_left; subst v)
    | (intro v; refine (fun hv : init.Leads v.1 => ?_) ?_; rotate_left; subst v)
    | (intro v; refine (fun hv : init.Leads v.2 => ?_) ?_; rotate_left; subst v)
    | intro _
    | (extract_lets -lift +onlyGivenNames w; revert w)
    | dsimp -zeta -zetaDelta only
    | with_reducible apply Dev.setF_leads
    | with_reducible apply Dev.raiseR_leads
    | with_reducible apply Dev.setWeld_leads
    | with_reducible apply Dev.splitRecords_leads
    | with_reducible apply Dev.lossRoles_leads
    | with_reducible apply Dev.sealReceive_leads
    | (simp [*]; done)
    | (split <;> try (rename_i e; try obtain rfl := congrArg Prod.fst e; try obtain rfl := congrArg Prod.snd e))

@[simp] theorem Dev.stallPair_leads {init d : Dev} (h : init.Leads d) : init.Leads (Dev.stallPair d) := by
  unfold Dev.stallPair
  repeat' first
    | with_reducible assumption
    | (intro v; refine (fun hv : init.Leads v => ?_) ?_; rotate_left; subst v)
    | (intro v; refine (fun hv : init.Leads v.1 => ?_) ?_; rotate_left; subst v)
    | (intro v; refine (fun hv : init.Leads v.2 => ?_) ?_; rotate_left; subst v)
    | intro _
    | (extract_lets -lift +onlyGivenNames w; revert w)
    | dsimp -zeta -zetaDelta only
    | with_reducible apply Dev.setF_leads
    | with_reducible apply Dev.forEach_leads
    | with_reducible apply Dev.setRegion_leads
    | with_reducible apply Dev.setRole_leads
    | with_reducible apply Dev.addPend_leads
    | with_reducible apply Dev.sealReceive_leads
    | (simp [*]; done)
    | (split <;> try (rename_i e; try obtain rfl := congrArg Prod.fst e; try obtain rfl := congrArg Prod.snd e))

@[simp] theorem Dev.resumePair_leads {init d : Dev} (h : init.Leads d) : init.Leads (Dev.resumePair d) := by
  unfold Dev.resumePair
  repeat' first
    | with_reducible assumption
    | (intro v; refine (fun hv : init.Leads v => ?_) ?_; rotate_left; subst v)
    | (intro v; refine (fun hv : init.Leads v.1 => ?_) ?_; rotate_left; subst v)
    | (intro v; refine (fun hv : init.Leads v.2 => ?_) ?_; rotate_left; subst v)
    | intro _
    | (extract_lets -lift +onlyGivenNames w; revert w)
    | dsimp -zeta -zetaDelta only
    | with_reducible apply Dev.setF_leads
    | with_reducible apply Dev.forEach_leads
    | with_reducible apply Dev.record_leads
    | with_reducible apply Dev.setWeld_leads
    | with_reducible apply Dev.completeAcked_leads
    | with_reducible apply Dev.beginRejoin_leads
    | (simp [*]; done)
    | (split <;> try (rename_i e; try obtain rfl := congrArg Prod.fst e; try obtain rfl := congrArg Prod.snd e))

@[simp] theorem Dev.pairCheck_leads {init d : Dev} (code : Nat) (h : init.Leads d) : init.Leads (Dev.pairCheck d code) := by
  unfold Dev.pairCheck
  repeat' first
    | with_reducible assumption
    | (intro v; refine (fun hv : init.Leads v => ?_) ?_; rotate_left; subst v)
    | (intro v; refine (fun hv : init.Leads v.1 => ?_) ?_; rotate_left; subst v)
    | (intro v; refine (fun hv : init.Leads v.2 => ?_) ?_; rotate_left; subst v)
    | intro _
    | (extract_lets -lift +onlyGivenNames w; revert w)
    | dsimp -zeta -zetaDelta only
    | with_reducible apply Dev.setF_leads
    | with_reducible apply Dev.losePair_leads
    | with_reducible apply Dev.stallPair_leads
    | with_reducible apply Dev.resumePair_leads
    | (simp [*]; done)
    | (split <;> try (rename_i e; try obtain rfl := congrArg Prod.fst e; try obtain rfl := congrArg Prod.snd e))

@[simp] theorem Dev.endWindow_leads {init d : Dev} (h : init.Leads d) : init.Leads (Dev.endWindow d) := by
  unfold Dev.endWindow
  repeat' first
    | with_reducible assumption
    | (intro v; refine (fun hv : init.Leads v => ?_) ?_; rotate_left; subst v)
    | (intro v; refine (fun hv : init.Leads v.1 => ?_) ?_; rotate_left; subst v)
    | (intro v; refine (fun hv : init.Leads v.2 => ?_) ?_; rotate_left; subst v)
    | intro _
    | (extract_lets -lift +onlyGivenNames w; revert w)
    | dsimp -zeta -zetaDelta only
    | with_reducible apply Dev.setWeld_leads
    | with_reducible apply Dev.losePair_leads
    | (simp [*]; done)
    | (split <;> try (rename_i e; try obtain rfl := congrArg Prod.fst e; try obtain rfl := congrArg Prod.snd e))

@[simp] theorem Dev.rebind_leads {init d : Dev} (h : init.Leads d) : init.Leads (Dev.rebind d) := by
  unfold Dev.rebind
  repeat' first
    | with_reducible assumption
    | (intro v; refine (fun hv : init.Leads v => ?_) ?_; rotate_left; subst v)
    | (intro v; refine (fun hv : init.Leads v.1 => ?_) ?_; rotate_left; subst v)
    | (intro v; refine (fun hv : init.Leads v.2 => ?_) ?_; rotate_left; subst v)
    | intro _
    | (extract_lets -lift +onlyGivenNames w; revert w)
    | dsimp -zeta -zetaDelta only
    | with_reducible apply Dev.setWeld_leads
    | (simp [*]; done)
    | (split <;> try (rename_i e; try obtain rfl := congrArg Prod.fst e; try obtain rfl := congrArg Prod.snd e))

@[simp] theorem Dev.sendHeatClose_leads {init d : Dev} (h : Nat) (ha : init.Leads d) : init.Leads (Dev.sendHeatClose d h) := by
  unfold Dev.sendHeatClose
  repeat' first
    | with_reducible assumption
    | (intro v; refine (fun hv : init.Leads v => ?_) ?_; rotate_left; subst v)
    | (intro v; refine (fun hv : init.Leads v.1 => ?_) ?_; rotate_left; subst v)
    | (intro v; refine (fun hv : init.Leads v.2 => ?_) ?_; rotate_left; subst v)
    | intro _
    | (extract_lets -lift +onlyGivenNames w; revert w)
    | dsimp -zeta -zetaDelta only
    | with_reducible apply Dev.forEach_leads
    | with_reducible apply Dev.queueOn_leads
    | (simp [*]; done)
    | (split <;> try (rename_i e; try obtain rfl := congrArg Prod.fst e; try obtain rfl := congrArg Prod.snd e))

@[simp] theorem Dev.linkDown_leads {init d : Dev} (l : Nat × Nat) (state : Nat) (h : init.Leads d) : init.Leads (Dev.linkDown d l state) := by
  unfold Dev.linkDown
  repeat' first
    | with_reducible assumption
    | (intro v; refine (fun hv : init.Leads v => ?_) ?_; rotate_left; subst v)
    | (intro v; refine (fun hv : init.Leads v.1 => ?_) ?_; rotate_left; subst v)
    | (intro v; refine (fun hv : init.Leads v.2 => ?_) ?_; rotate_left; subst v)
    | intro _
    | (extract_lets -lift +onlyGivenNames w; revert w)
    | dsimp -zeta -zetaDelta only
    | with_reducible apply Dev.setF_leads
    | with_reducible apply Dev.setB_leads
    | with_reducible apply Dev.setWeld_leads
    | with_reducible apply Dev.modLink_leads
    | (simp [*]; done)
    | (split <;> try (rename_i e; try obtain rfl := congrArg Prod.fst e; try obtain rfl := congrArg Prod.snd e))

@[simp] theorem Dev.linkLost_leads {init d : Dev} (l : Nat × Nat) (cause : Nat) (h : init.Leads d) : init.Leads (Dev.linkLost d l cause) := by
  unfold Dev.linkLost
  repeat' first
    | with_reducible assumption
    | (intro v; refine (fun hv : init.Leads v => ?_) ?_; rotate_left; subst v)
    | (intro v; refine (fun hv : init.Leads v.1 => ?_) ?_; rotate_left; subst v)
    | (intro v; refine (fun hv : init.Leads v.2 => ?_) ?_; rotate_left; subst v)
    | intro _
    | (extract_lets -lift +onlyGivenNames w; revert w)
    | dsimp -zeta -zetaDelta only
    | with_reducible apply Dev.forEach_leads
    | with_reducible apply Dev.addF_leads
    | with_reducible apply Dev.incF_leads
    | with_reducible apply Dev.raise_leads
    | with_reducible apply Dev.setWeld_leads
    | with_reducible apply Dev.queueOn_leads
    | with_reducible apply Dev.enqueue_leads
    | with_reducible apply Dev.sendGeneral_leads
    | with_reducible apply Dev.pairCheck_leads
    | with_reducible apply Dev.sendHeatClose_leads
    | with_reducible apply Dev.linkDown_leads
    | (simp [*]; done)
    | (split <;> try (rename_i e; try obtain rfl := congrArg Prod.fst e; try obtain rfl := congrArg Prod.snd e))

@[simp] theorem Dev.resend_leads {init d : Dev} (l : Nat × Nat) (h : init.Leads d) : init.Leads (Dev.resend d l) := by
  unfold Dev.resend
  repeat' first
    | with_reducible assumption
    | (intro v; refine (fun hv : init.Leads v => ?_) ?_; rotate_left; subst v)
    | (intro v; refine (fun hv : init.Leads v.1 => ?_) ?_; rotate_left; subst v)
    | (intro v; refine (fun hv : init.Leads v.2 => ?_) ?_; rotate_left; subst v)
    | intro _
    | (extract_lets -lift +onlyGivenNames w; revert w)
    | dsimp -zeta -zetaDelta only
    | with_reducible apply Dev.emits_leads
    | with_reducible apply Dev.addF_leads
    | with_reducible apply Dev.raise_leads
    | with_reducible apply Dev.modLink_leads
    | (simp [*]; done)
    | (split <;> try (rename_i e; try obtain rfl := congrArg Prod.fst e; try obtain rfl := congrArg Prod.snd e))

@[simp] theorem Dev.claimDone_leads {init d : Dev} (n : Nat) (h : init.Leads d) : init.Leads (Dev.claimDone d n) := by
  unfold Dev.claimDone
  repeat' first
    | with_reducible assumption
    | (intro v; refine (fun hv : init.Leads v => ?_) ?_; rotate_left; subst v)
    | (intro v; refine (fun hv : init.Leads v.1 => ?_) ?_; rotate_left; subst v)
    | (intro v; refine (fun hv : init.Leads v.2 => ?_) ?_; rotate_left; subst v)
    | intro _
    | (extract_lets -lift +onlyGivenNames w; revert w)
    | dsimp -zeta -zetaDelta only
    | with_reducible apply Dev.record_leads
    | with_reducible apply Dev.addPend_leads
    | (simp [*]; done)
    | (split <;> try (rename_i e; try obtain rfl := congrArg Prod.fst e; try obtain rfl := congrArg Prod.snd e))

@[simp] theorem Dev.ackHeatsFrom_leads {init : Dev} (l : List Nat) {d : Dev} (h : init.Leads d) : init.Leads (Dev.ackHeatsFrom l d) := by
  induction l generalizing d with
  | nil => exact h
  | cons x l ih =>
    unfold Dev.ackHeatsFrom
    split
    · exact ih (Dev.sendGeneral_leads _ (Dev.setWeld_leads _ h))
    · exact h

@[simp] theorem Dev.ackHeats_leads {init d : Dev} (h : init.Leads d) : init.Leads d.ackHeats := by
  unfold Dev.ackHeats
  exact Dev.forEach_leads _ _ (Dev.ackHeatsFrom_leads _ h) fun _ _ hd => Dev.claimDone_leads _ hd

@[simp] theorem Dev.closeHeatsFrom_leads {init : Dev} (l : List Nat) {d : Dev} (h : init.Leads d) : init.Leads (Dev.closeHeatsFrom l d) := by
  induction l generalizing d with
  | nil => exact h
  | cons x l ih =>
    unfold Dev.closeHeatsFrom
    split
    · exact ih (Dev.sendHeatClose_leads _ (Dev.setWeld_leads _ h))
    · exact h

@[simp] theorem Dev.closeHeats_leads {init d : Dev} (h : init.Leads d) : init.Leads d.closeHeats :=
  Dev.closeHeatsFrom_leads _ h

@[simp] theorem Dev.roleConflict_leads {init d : Dev} (n : Nat) (twinEpoch : Nat) (h : init.Leads d) : init.Leads (Dev.roleConflict d n twinEpoch) := by
  simp [Dev.roleConflict, h]

@[simp] theorem Dev.soloSolo_leads {init d : Dev} (n : Nat) (t : JoinRole) (h : init.Leads d) : init.Leads (Dev.soloSolo d n t) := by
  unfold Dev.soloSolo
  repeat' first
    | with_reducible assumption
    | (intro v; refine (fun hv : init.Leads v => ?_) ?_; rotate_left; subst v)
    | (intro v; refine (fun hv : init.Leads v.1 => ?_) ?_; rotate_left; subst v)
    | (intro v; refine (fun hv : init.Leads v.2 => ?_) ?_; rotate_left; subst v)
    | intro _
    | (extract_lets -lift +onlyGivenNames w; revert w)
    | dsimp -zeta -zetaDelta only
    | with_reducible apply Dev.setRole_leads
    | with_reducible apply Dev.beginRejoin_leads
    | with_reducible apply Dev.roleConflict_leads
    | (simp [*]; done)
    | (split <;> try (rename_i e; try obtain rfl := congrArg Prod.fst e; try obtain rfl := congrArg Prod.snd e))

@[simp] theorem Dev.joinRegion_leads {init d : Dev} (t : JoinRole) (h : init.Leads d) : init.Leads (Dev.joinRegion d t) := by
  unfold Dev.joinRegion
  repeat' first
    | with_reducible assumption
    | (intro v; refine (fun hv : init.Leads v => ?_) ?_; rotate_left; subst v)
    | (intro v; refine (fun hv : init.Leads v.1 => ?_) ?_; rotate_left; subst v)
    | (intro v; refine (fun hv : init.Leads v.2 => ?_) ?_; rotate_left; subst v)
    | intro _
    | (extract_lets -lift +onlyGivenNames w; revert w)
    | dsimp -zeta -zetaDelta only
    | with_reducible apply Dev.tick_leads
    | with_reducible apply Dev.setB_leads
    | with_reducible apply Dev.raiseB_leads
    | with_reducible apply Dev.record_leads
    | with_reducible apply Dev.setRegion_leads
    | with_reducible apply Dev.endHold_leads
    | with_reducible apply Dev.completeAcked_leads
    | with_reducible apply Dev.setRole_leads
    | with_reducible apply Dev.beginRejoin_leads
    | with_reducible apply Dev.roleConflict_leads
    | with_reducible apply Dev.soloSolo_leads
    | (simp [*]; done)
    | (split <;> try (rename_i e; try obtain rfl := congrArg Prod.fst e; try obtain rfl := congrArg Prod.snd e))

@[simp] theorem Dev.sendJoin_leads {init d : Dev} (l : Nat × Nat) (h : init.Leads d) : init.Leads (Dev.sendJoin d l) := by
  unfold Dev.sendJoin
  repeat' first
    | with_reducible assumption
    | (intro v; refine (fun hv : init.Leads v => ?_) ?_; rotate_left; subst v)
    | (intro v; refine (fun hv : init.Leads v.1 => ?_) ?_; rotate_left; subst v)
    | (intro v; refine (fun hv : init.Leads v.2 => ?_) ?_; rotate_left; subst v)
    | intro _
    | (extract_lets -lift +onlyGivenNames w; revert w)
    | dsimp -zeta -zetaDelta only
    | with_reducible apply Dev.setWeld_leads
    | with_reducible apply Dev.queueOn_leads
    | (simp [*]; done)
    | (split <;> try (rename_i e; try obtain rfl := congrArg Prod.fst e; try obtain rfl := congrArg Prod.snd e))

end Sys2Proof.Machine
end

