-- ==== Sys2Proof/Laws/LeadsWeld.lean ====
section
/-! SUPPORT. What the Weld commands never break (Leads), one lemma a function; each command runs (Runs), one lemma a command. -/

namespace Sys2Proof.Machine

open Sys2Proof

set_option linter.tactic.unusedName false
set_option linter.unusedTactic false
set_option linter.unreachableTactic false
set_option linter.unusedSimpArgs false
set_option linter.unusedVariables false

@[simp] theorem Dev.protocolError_leads {init d : Dev} (l : Nat × Nat) (type : Nat) (cause : Nat) (h : init.Leads d) : init.Leads (Dev.protocolError d l type cause) := by
  simp [Dev.protocolError, h]

@[simp] theorem Dev.takeAck_leads {init d : Dev} (l : Nat × Nat) (ack16 : Nat) (h : init.Leads d) : init.Leads (Dev.takeAck d l ack16) := by
  unfold Dev.takeAck
  repeat' first
    | with_reducible assumption
    | (intro v; refine (fun hv : init.Leads v => ?_) ?_; rotate_left; subst v)
    | (intro v; refine (fun hv : init.Leads v.1 => ?_) ?_; rotate_left; subst v)
    | (intro v; refine (fun hv : init.Leads v.2 => ?_) ?_; rotate_left; subst v)
    | intro _
    | (extract_lets -lift +onlyGivenNames w; revert w)
    | dsimp -zeta -zetaDelta only
    | with_reducible apply Dev.forEach_leads
    | with_reducible apply Dev.setLink_leads
    | with_reducible apply Dev.pump_leads
    | with_reducible apply Dev.resyncHere_leads
    | with_reducible apply Dev.eraseKey_leads
    | with_reducible apply Dev.rebind_leads
    | (simp [*]; done)
    | (split <;> try (rename_i e; try obtain rfl := congrArg Prod.fst e; try obtain rfl := congrArg Prod.snd e))

@[simp] theorem Dev.takeFrame_leads {init d : Dev} (h : Head) (type : Nat) (n : Nat) (keyRoll : Bool) (allowed : Bool) (heatOk : Bool) (ha : init.Leads d) : init.Leads (Dev.takeFrame d h type n keyRoll allowed heatOk).1 := by
  unfold Dev.takeFrame
  repeat' first
    | with_reducible assumption
    | (intro v; refine (fun hv : init.Leads v => ?_) ?_; rotate_left; subst v)
    | (intro v; refine (fun hv : init.Leads v.1 => ?_) ?_; rotate_left; subst v)
    | (intro v; refine (fun hv : init.Leads v.2 => ?_) ?_; rotate_left; subst v)
    | intro _
    | (extract_lets -lift +onlyGivenNames w; revert w)
    | dsimp -zeta -zetaDelta only
    | with_reducible apply Dev.addF_leads
    | with_reducible apply Dev.incF_leads
    | with_reducible apply Dev.modLink_leads
    | with_reducible apply Dev.protocolError_leads
    | with_reducible apply Dev.takeAck_leads
    | (simp [*]; done)
    | (split <;> try (rename_i e; try obtain rfl := congrArg Prod.fst e; try obtain rfl := congrArg Prod.snd e))

@[simp] theorem Dev.noteFrame_leads {init d : Dev} (h : Head) (rids : List Nat) (refused : Bool) (ha : init.Leads d) : init.Leads (Dev.noteFrame d h rids refused) := by
  simp [Dev.noteFrame, ha]

@[simp] theorem Dev.showTwinHeat_leads {init d : Dev} (h : Nat) (ha : init.Leads d) : init.Leads (Dev.showTwinHeat d h) := by
  simp [Dev.showTwinHeat, ha]

@[simp] theorem Dev.sendHeartbeat_leads {init d : Dev} (l : Nat × Nat) (h : init.Leads d) : init.Leads (Dev.sendHeartbeat d l) := by
  unfold Dev.sendHeartbeat
  repeat' first
    | with_reducible assumption
    | (intro v; refine (fun hv : init.Leads v => ?_) ?_; rotate_left; subst v)
    | (intro v; refine (fun hv : init.Leads v.1 => ?_) ?_; rotate_left; subst v)
    | (intro v; refine (fun hv : init.Leads v.2 => ?_) ?_; rotate_left; subst v)
    | intro _
    | (extract_lets -lift +onlyGivenNames w; revert w)
    | dsimp -zeta -zetaDelta only
    | with_reducible apply Dev.sendMsg_leads
    | with_reducible apply Dev.linkLost_leads
    | (simp [*]; done)
    | (split <;> try (rename_i e; try obtain rfl := congrArg Prod.fst e; try obtain rfl := congrArg Prod.snd e))

@[simp] theorem Dev.refuseLink_leads {init d : Dev} (l : Nat × Nat) (cause : Nat) (h : init.Leads d) : init.Leads (Dev.refuseLink d l cause) := by
  unfold Dev.refuseLink
  repeat' first
    | with_reducible assumption
    | (intro v; refine (fun hv : init.Leads v => ?_) ?_; rotate_left; subst v)
    | (intro v; refine (fun hv : init.Leads v.1 => ?_) ?_; rotate_left; subst v)
    | (intro v; refine (fun hv : init.Leads v.2 => ?_) ?_; rotate_left; subst v)
    | intro _
    | (extract_lets -lift +onlyGivenNames w; revert w)
    | dsimp -zeta -zetaDelta only
    | with_reducible apply Dev.raise_leads
    | with_reducible apply Dev.modLink_leads
    | with_reducible apply Dev.pairCheck_leads
    | with_reducible apply Dev.linkDown_leads
    | (simp [*]; done)
    | (split <;> try (rename_i e; try obtain rfl := congrArg Prod.fst e; try obtain rfl := congrArg Prod.snd e))

@[simp] theorem Dev.startRoll_leads {init d : Dev} (l : Nat × Nat) (h : init.Leads d) : init.Leads (Dev.startRoll d l) := by
  unfold Dev.startRoll
  repeat' first
    | with_reducible assumption
    | (intro v; refine (fun hv : init.Leads v => ?_) ?_; rotate_left; subst v)
    | (intro v; refine (fun hv : init.Leads v.1 => ?_) ?_; rotate_left; subst v)
    | (intro v; refine (fun hv : init.Leads v.2 => ?_) ?_; rotate_left; subst v)
    | intro _
    | (extract_lets -lift +onlyGivenNames w; revert w)
    | dsimp -zeta -zetaDelta only
    | with_reducible apply Dev.tick_leads
    | with_reducible apply Dev.setB_leads
    | with_reducible apply Dev.modLink_leads
    | with_reducible apply Dev.sendMsg_leads
    | (simp [*]; done)
    | (split <;> try (rename_i e; try obtain rfl := congrArg Prod.fst e; try obtain rfl := congrArg Prod.snd e))

@[simp] theorem Dev.failRoll_leads {init d : Dev} (l : Nat × Nat) (cause : Nat) (h : init.Leads d) : init.Leads (Dev.failRoll d l cause) := by
  unfold Dev.failRoll
  repeat' first
    | with_reducible assumption
    | (intro v; refine (fun hv : init.Leads v => ?_) ?_; rotate_left; subst v)
    | (intro v; refine (fun hv : init.Leads v.1 => ?_) ?_; rotate_left; subst v)
    | (intro v; refine (fun hv : init.Leads v.2 => ?_) ?_; rotate_left; subst v)
    | intro _
    | (extract_lets -lift +onlyGivenNames w; revert w)
    | dsimp -zeta -zetaDelta only
    | with_reducible apply Dev.setB_leads
    | with_reducible apply Dev.raise_leads
    | with_reducible apply Dev.modLink_leads
    | (simp [*]; done)
    | (split <;> try (rename_i e; try obtain rfl := congrArg Prod.fst e; try obtain rfl := congrArg Prod.snd e))

@[simp] theorem Dev.putLinkKey_leads {init d : Dev} (l : Nat × Nat) (h : init.Leads d) : init.Leads (Dev.putLinkKey d l) := by
  unfold Dev.putLinkKey
  repeat' first
    | with_reducible assumption
    | (intro v; refine (fun hv : init.Leads v => ?_) ?_; rotate_left; subst v)
    | (intro v; refine (fun hv : init.Leads v.1 => ?_) ?_; rotate_left; subst v)
    | (intro v; refine (fun hv : init.Leads v.2 => ?_) ?_; rotate_left; subst v)
    | intro _
    | (extract_lets -lift +onlyGivenNames w; revert w)
    | dsimp -zeta -zetaDelta only
    | with_reducible apply Dev.writeKey_leads
    | with_reducible apply Dev.drawKey_leads
    | (simp [*]; done)
    | (split <;> try (rename_i e; try obtain rfl := congrArg Prod.fst e; try obtain rfl := congrArg Prod.snd e))

@[simp] theorem Dev.linkUp_leads {init d : Dev} (l : Nat × Nat) (h : init.Leads d) : init.Leads (Dev.linkUp d l) := by
  unfold Dev.linkUp
  repeat' first
    | with_reducible assumption
    | (intro v; refine (fun hv : init.Leads v => ?_) ?_; rotate_left; subst v)
    | (intro v; refine (fun hv : init.Leads v.1 => ?_) ?_; rotate_left; subst v)
    | (intro v; refine (fun hv : init.Leads v.2 => ?_) ?_; rotate_left; subst v)
    | intro _
    | (extract_lets -lift +onlyGivenNames w; revert w)
    | dsimp -zeta -zetaDelta only
    | with_reducible apply Dev.setF_leads
    | with_reducible apply Dev.raise_leads
    | with_reducible apply Dev.modLink_leads
    | with_reducible apply Dev.pairCheck_leads
    | with_reducible apply Dev.rebind_leads
    | with_reducible apply Dev.sendJoin_leads
    | (simp [*]; done)
    | (split <;> try (rename_i e; try obtain rfl := congrArg Prod.fst e; try obtain rfl := congrArg Prod.snd e))

@[simp] theorem Dev.keyInPlace_leads {init d : Dev} (l : Nat × Nat) (id : Nat) (own : Nat) (peer : Nat) (h : init.Leads d) : init.Leads (Dev.keyInPlace d l id own peer) := by
  unfold Dev.keyInPlace
  repeat' first
    | with_reducible assumption
    | (intro v; refine (fun hv : init.Leads v => ?_) ?_; rotate_left; subst v)
    | (intro v; refine (fun hv : init.Leads v.1 => ?_) ?_; rotate_left; subst v)
    | (intro v; refine (fun hv : init.Leads v.2 => ?_) ?_; rotate_left; subst v)
    | intro _
    | (extract_lets -lift +onlyGivenNames w; revert w)
    | dsimp -zeta -zetaDelta only
    | with_reducible apply Dev.setF_leads
    | with_reducible apply Dev.setB_leads
    | with_reducible apply Dev.incF_leads
    | with_reducible apply Dev.raise_leads
    | with_reducible apply Dev.modLink_leads
    | with_reducible apply Dev.pump_leads
    | with_reducible apply Dev.pairCheck_leads
    | with_reducible apply Dev.rebind_leads
    | with_reducible apply Dev.putLinkKey_leads
    | with_reducible apply Dev.linkUp_leads
    | (simp [*]; done)
    | (split <;> try (rename_i e; try obtain rfl := congrArg Prod.fst e; try obtain rfl := congrArg Prod.snd e))

@[simp] theorem Dev.enterStall_leads {init d : Dev} (l : Nat × Nat) (h : init.Leads d) : init.Leads (Dev.enterStall d l) := by
  unfold Dev.enterStall
  repeat' first
    | with_reducible assumption
    | (intro v; refine (fun hv : init.Leads v => ?_) ?_; rotate_left; subst v)
    | (intro v; refine (fun hv : init.Leads v.1 => ?_) ?_; rotate_left; subst v)
    | (intro v; refine (fun hv : init.Leads v.2 => ?_) ?_; rotate_left; subst v)
    | intro _
    | (extract_lets -lift +onlyGivenNames w; revert w)
    | dsimp -zeta -zetaDelta only
    | with_reducible apply Dev.setF_leads
    | with_reducible apply Dev.raise_leads
    | with_reducible apply Dev.setWeld_leads
    | with_reducible apply Dev.pairCheck_leads
    | (simp [*]; done)
    | (split <;> try (rename_i e; try obtain rfl := congrArg Prod.fst e; try obtain rfl := congrArg Prod.snd e))

@[simp] theorem Dev.arriveEntry_leads {init d : Dev} (h : Head) (heat : Nat) (id : Nat) (e : MirrorEntry) (ha : init.Leads d) : init.Leads (Dev.arriveEntry d h heat id e) := by
  unfold Dev.arriveEntry
  repeat' first
    | with_reducible assumption
    | (intro v; refine (fun hv : init.Leads v => ?_) ?_; rotate_left; subst v)
    | (intro v; refine (fun hv : init.Leads v.1 => ?_) ?_; rotate_left; subst v)
    | (intro v; refine (fun hv : init.Leads v.2 => ?_) ?_; rotate_left; subst v)
    | intro _
    | (extract_lets -lift +onlyGivenNames w; revert w)
    | dsimp -zeta -zetaDelta only
    | with_reducible apply Dev.mirrorLine_leads
    | with_reducible apply Dev.mirrorClean_leads
    | with_reducible apply Dev.arrive_leads
    | with_reducible apply Dev.admitOne_leads
    | (simp [*]; done)
    | (split <;> try (rename_i e; try obtain rfl := congrArg Prod.fst e; try obtain rfl := congrArg Prod.snd e))

@[simp] theorem Dev.answerFetch_leads {init d : Dev} (slab : Nat) (region : Nat) (h : init.Leads d) : init.Leads (Dev.answerFetch d slab region) := by
  unfold Dev.answerFetch
  repeat' first
    | with_reducible assumption
    | (intro v; refine (fun hv : init.Leads v => ?_) ?_; rotate_left; subst v)
    | (intro v; refine (fun hv : init.Leads v.1 => ?_) ?_; rotate_left; subst v)
    | (intro v; refine (fun hf1 : ∀ d, init.Leads d → init.Leads (v d) => ?_) ?_; rotate_left; subst v)
    | (intro v; refine (fun hf2 : ∀ d x, init.Leads d → init.Leads (v d x) => ?_) ?_; rotate_left; subst v)
    | (intro v; refine (fun hf3 : ∀ d x y, init.Leads d → init.Leads (v d x y) => ?_) ?_; rotate_left; subst v)
    | (intro v; refine (fun hv : init.Leads v.2 => ?_) ?_; rotate_left; subst v)
    | intro _
    | (extract_lets -lift +onlyGivenNames w; revert w)
    | dsimp -zeta -zetaDelta only
    | with_reducible apply hf1
    | with_reducible apply hf2
    | with_reducible apply hf3
    | with_reducible apply Dev.setWeld_leads
    | with_reducible apply Dev.enqueue_leads
    | with_reducible apply Dev.issueFill_leads
    | with_reducible apply Dev.demand_leads
    | (simp [*]; done)
    | (split <;> try (rename_i e; try obtain rfl := congrArg Prod.fst e; try obtain rfl := congrArg Prod.snd e))

@[simp] theorem Dev.endFetch_leads {init d : Dev} (slab : Nat) (h : init.Leads d) : init.Leads (Dev.endFetch d slab) := by
  simp [Dev.endFetch, h]

@[simp] theorem Dev.failFetch_leads {init d : Dev} (slab : Nat) (cause : Nat) (h : init.Leads d) : init.Leads (Dev.failFetch d slab cause) := by
  unfold Dev.failFetch
  repeat' first
    | with_reducible assumption
    | (intro v; refine (fun hv : init.Leads v => ?_) ?_; rotate_left; subst v)
    | (intro v; refine (fun hv : init.Leads v.1 => ?_) ?_; rotate_left; subst v)
    | (intro v; refine (fun hv : init.Leads v.2 => ?_) ?_; rotate_left; subst v)
    | intro _
    | (extract_lets -lift +onlyGivenNames w; revert w)
    | dsimp -zeta -zetaDelta only
    | with_reducible apply Dev.incF_leads
    | with_reducible apply Dev.raise_leads
    | with_reducible apply Dev.fetchFails_leads
    | with_reducible apply Dev.endFetch_leads
    | (simp [*]; done)
    | (split <;> try (rename_i e; try obtain rfl := congrArg Prod.fst e; try obtain rfl := congrArg Prod.snd e))

@[simp] theorem Dev.trainLink_leads {init d : Dev} (l : Nat × Nat) (width : Nat) (rate : Nat) (spare : Bool) (h : init.Leads d) : init.Leads (Dev.trainLink d l width rate spare) := by
  unfold Dev.trainLink
  repeat' first
    | with_reducible assumption
    | (intro v; refine (fun hv : init.Leads v => ?_) ?_; rotate_left; subst v)
    | (intro v; refine (fun hv : init.Leads v.1 => ?_) ?_; rotate_left; subst v)
    | (intro v; refine (fun hv : init.Leads v.2 => ?_) ?_; rotate_left; subst v)
    | intro _
    | (extract_lets -lift +onlyGivenNames w; revert w)
    | dsimp -zeta -zetaDelta only
    | with_reducible apply Dev.setF_leads
    | with_reducible apply Dev.emit_leads
    | with_reducible apply Dev.setB_leads
    | with_reducible apply Dev.linkDown_leads
    | (simp [*]; done)
    | (split <;> try (rename_i e; try obtain rfl := congrArg Prod.fst e; try obtain rfl := congrArg Prod.snd e))

theorem execWeldLinkTrained_runs (die link width rate : Nat) (spareQuad : Bool) (s : State) : s.Runs (execWeldLinkTrained die link width rate spareQuad s) := by
  unfold execWeldLinkTrained
  refine State.on_runs fun init => ?_
  have h := Dev.Leads.refl init
  repeat' first
    | with_reducible assumption
    | intro _
    | with_reducible apply Dev.trainLink_leads
    | (simp [*]; done)
    | split

theorem execWeldHello_runs (die link version side peerDie peerLink : Nat) (s : State) : s.Runs (execWeldHello die link version side peerDie peerLink s) := by
  unfold execWeldHello
  refine State.on_runs fun init => ?_
  have h := Dev.Leads.refl init
  repeat' first
    | with_reducible assumption
    | (intro v; refine (fun hv : init.Leads v => ?_) ?_; rotate_left; subst v)
    | intro _
    | (extract_lets -lift +onlyGivenNames w; revert w)
    | with_reducible apply Dev.setF_leads
    | with_reducible apply Dev.modLink_leads
    | with_reducible apply Dev.refuseLink_leads
    | with_reducible apply Dev.startRoll_leads
    | (simp [*]; done)
    | split

theorem execWeldHelloRetry_runs (die link : Nat) (s : State) : s.Runs (execWeldHelloRetry die link s) := by
  unfold execWeldHelloRetry
  refine State.on_runs fun init => ?_
  have h := Dev.Leads.refl init
  repeat' first
    | with_reducible assumption
    | (intro v; refine (fun hv : init.Leads v => ?_) ?_; rotate_left; subst v)
    | intro _
    | (extract_lets -lift +onlyGivenNames w; revert w)
    | with_reducible apply Dev.setF_leads
    | with_reducible apply Dev.emit_leads
    | with_reducible apply Dev.until_leads
    | with_reducible apply Dev.linkDown_leads
    | (simp [*]; done)
    | split

theorem execKeyRollOffer_runs (h : Head) (rollId switchSeq : Nat) (identOk sigOk : Bool) (s : State) : s.Runs (execKeyRollOffer h rollId switchSeq identOk sigOk s) := by
  unfold execKeyRollOffer
  refine State.on_runs fun init => ?_
  have h := Dev.Leads.refl init
  repeat' first
    | with_reducible assumption
    | (intro v; refine (fun hv : init.Leads v => ?_) ?_; rotate_left; subst v)
    | (intro v; refine (fun hv : init.Leads v.1 => ?_) ?_; rotate_left; subst v)
    | (intro v; refine (fun hv : init.Leads v.2 => ?_) ?_; rotate_left; subst v)
    | intro _
    | (extract_lets -lift +onlyGivenNames w; revert w)
    | dsimp -zeta -zetaDelta only
    | with_reducible apply Dev.tick_leads
    | with_reducible apply Dev.modLink_leads
    | with_reducible apply Dev.sendMsg_leads
    | with_reducible apply Dev.takeFrame_leads
    | with_reducible apply Dev.refuseLink_leads
    | with_reducible apply Dev.failRoll_leads
    | with_reducible apply Dev.keyInPlace_leads
    | (simp [*]; done)
    | (split <;> try (rename_i e; try obtain rfl := congrArg Prod.fst e; try obtain rfl := congrArg Prod.snd e))

theorem execKeyRollAnswer_runs (h : Head) (rollId switchSeq : Nat) (identOk sigOk : Bool) (s : State) : s.Runs (execKeyRollAnswer h rollId switchSeq identOk sigOk s) := by
  unfold execKeyRollAnswer
  refine State.on_runs fun init => ?_
  have h := Dev.Leads.refl init
  repeat' first
    | with_reducible assumption
    | (intro v; refine (fun hv : init.Leads v => ?_) ?_; rotate_left; subst v)
    | (intro v; refine (fun hv : init.Leads v.1 => ?_) ?_; rotate_left; subst v)
    | (intro v; refine (fun hv : init.Leads v.2 => ?_) ?_; rotate_left; subst v)
    | intro _
    | (extract_lets -lift +onlyGivenNames w; revert w)
    | dsimp -zeta -zetaDelta only
    | with_reducible apply Dev.takeFrame_leads
    | with_reducible apply Dev.refuseLink_leads
    | with_reducible apply Dev.failRoll_leads
    | with_reducible apply Dev.keyInPlace_leads
    | (simp [*]; done)
    | (split <;> try (rename_i e; try obtain rfl := congrArg Prod.fst e; try obtain rfl := congrArg Prod.snd e))

theorem execKeyRollAnswerTimeout_runs (die link : Nat) (s : State) : s.Runs (execKeyRollAnswerTimeout die link s) := by
  unfold execKeyRollAnswerTimeout
  refine State.on_runs fun init => ?_
  have h := Dev.Leads.refl init
  repeat' first
    | with_reducible assumption
    | intro _
    | with_reducible apply Dev.until_leads
    | with_reducible apply Dev.failRoll_leads
    | (simp [*]; done)
    | split

theorem execKeyRollCounter_runs (die link : Nat) (s : State) : s.Runs (execKeyRollCounter die link s) := by
  unfold execKeyRollCounter
  refine State.on_runs fun init => ?_
  have h := Dev.Leads.refl init
  repeat' first
    | with_reducible assumption
    | (intro v; refine (fun hv : init.Leads v => ?_) ?_; rotate_left; subst v)
    | intro _
    | (extract_lets -lift +onlyGivenNames w; revert w)
    | with_reducible apply Dev.startRoll_leads
    | (simp [*]; done)
    | split

theorem execKeyRollRetry_runs (die link : Nat) (s : State) : s.Runs (execKeyRollRetry die link s) := by
  unfold execKeyRollRetry
  refine State.on_runs fun init => ?_
  have h := Dev.Leads.refl init
  repeat' first
    | with_reducible assumption
    | intro _
    | with_reducible apply Dev.until_leads
    | with_reducible apply Dev.startRoll_leads
    | (simp [*]; done)
    | split

theorem execWeldKeyRollNow_runs (die link : Nat) (s : State) : s.Runs (execWeldKeyRollNow die link s) := by
  unfold execWeldKeyRollNow
  refine State.on_runs fun init => ?_
  have h := Dev.Leads.refl init
  repeat' first
    | with_reducible assumption
    | intro _
    | with_reducible apply Dev.startRoll_leads
    | (simp [*]; done)
    | split

theorem execKeyStallEnter_runs (die link : Nat) (s : State) : s.Runs (execKeyStallEnter die link s) := by
  unfold execKeyStallEnter
  refine State.on_runs fun init => ?_
  have h := Dev.Leads.refl init
  repeat' first
    | with_reducible assumption
    | (intro v; refine (fun hv : init.Leads v => ?_) ?_; rotate_left; subst v)
    | intro _
    | (extract_lets -lift +onlyGivenNames w; revert w)
    | with_reducible apply Dev.sendHeartbeat_leads
    | with_reducible apply Dev.enterStall_leads
    | (simp [*]; done)
    | split

theorem execLinkHeartbeatLoss_runs (die link : Nat) (s : State) : s.Runs (execLinkHeartbeatLoss die link s) := by
  unfold execLinkHeartbeatLoss
  refine State.on_runs fun init => ?_
  have h := Dev.Leads.refl init
  repeat' first
    | with_reducible assumption
    | (intro v; refine (fun hv : init.Leads v => ?_) ?_; rotate_left; subst v)
    | intro _
    | (extract_lets -lift +onlyGivenNames w; revert w)
    | with_reducible apply Dev.until_leads
    | with_reducible apply Dev.linkLost_leads
    | (simp [*]; done)
    | split

theorem execLinkElectricalLoss_runs (die link : Nat) (s : State) : s.Runs (execLinkElectricalLoss die link s) := by
  unfold execLinkElectricalLoss
  refine State.on_runs fun init => ?_
  have h := Dev.Leads.refl init
  repeat' first
    | with_reducible assumption
    | intro _
    | with_reducible apply Dev.linkLost_leads
    | (simp [*]; done)
    | split

theorem execWeldLinkDisable_runs (die link : Nat) (disable : Bool) (s : State) : s.Runs (execWeldLinkDisable die link disable s) := by
  unfold execWeldLinkDisable
  refine State.on_runs fun init => ?_
  have h := Dev.Leads.refl init
  repeat' first
    | with_reducible assumption
    | (intro v; refine (fun hv : init.Leads v => ?_) ?_; rotate_left; subst v)
    | intro _
    | (extract_lets -lift +onlyGivenNames w; revert w)
    | with_reducible apply Dev.setF_leads
    | with_reducible apply Dev.setB_leads
    | with_reducible apply Dev.linkLost_leads
    | (simp [*]; done)
    | split

theorem execWeldLinkRetrain_runs (die link : Nat) (s : State) : s.Runs (execWeldLinkRetrain die link s) := by
  unfold execWeldLinkRetrain
  refine State.on_runs fun init => ?_
  have h := Dev.Leads.refl init
  repeat' first
    | with_reducible assumption
    | intro _
    | with_reducible apply Dev.linkLost_leads
    | (simp [*]; done)
    | split

theorem execWeldNak_runs (die link ack : Nat) (s : State) : s.Runs (execWeldNak die link ack s) := by
  unfold execWeldNak
  refine State.on_runs fun init => ?_
  have h := Dev.Leads.refl init
  repeat' first
    | with_reducible assumption
    | (intro v; refine (fun hv : init.Leads v => ?_) ?_; rotate_left; subst v)
    | intro _
    | (extract_lets -lift +onlyGivenNames w; revert w)
    | with_reducible apply Dev.resend_leads
    | with_reducible apply Dev.takeAck_leads
    | (simp [*]; done)
    | split

theorem execHeartbeat_runs (h : Head) (heat _links _pair : Nat) (stall : Bool) (s : State) : s.Runs (execHeartbeat h heat _links _pair stall s) := by
  unfold execHeartbeat
  refine State.on_runs fun init => ?_
  have h := Dev.Leads.refl init
  repeat' first
    | with_reducible assumption
    | (intro v; refine (fun hv : init.Leads v => ?_) ?_; rotate_left; subst v)
    | (intro v; refine (fun hv : init.Leads v.1 => ?_) ?_; rotate_left; subst v)
    | (intro v; refine (fun hv : init.Leads v.2 => ?_) ?_; rotate_left; subst v)
    | intro _
    | (extract_lets -lift +onlyGivenNames w; revert w)
    | dsimp -zeta -zetaDelta only
    | with_reducible apply Dev.takeFrame_leads
    | with_reducible apply Dev.showTwinHeat_leads
    | with_reducible apply Dev.enterStall_leads
    | (simp [*]; done)
    | (split <;> try (rename_i e; try obtain rfl := congrArg Prod.fst e; try obtain rfl := congrArg Prod.snd e))

theorem execHeartbeatSend_runs (die link : Nat) (s : State) : s.Runs (execHeartbeatSend die link s) := by
  unfold execHeartbeatSend
  refine State.on_runs fun init => ?_
  have h := Dev.Leads.refl init
  repeat' first
    | with_reducible assumption
    | (intro v; refine (fun hv : init.Leads v => ?_) ?_; rotate_left; subst v)
    | intro _
    | (extract_lets -lift +onlyGivenNames w; revert w)
    | with_reducible apply Dev.until_leads
    | with_reducible apply Dev.sendHeartbeat_leads
    | (simp [*]; done)
    | split

theorem execAckHeartbeat_runs (die link : Nat) (s : State) : s.Runs (execAckHeartbeat die link s) := by
  unfold execAckHeartbeat
  refine State.on_runs fun init => ?_
  have h := Dev.Leads.refl init
  repeat' first
    | with_reducible assumption
    | intro _
    | with_reducible apply Dev.sendHeartbeat_leads
    | (simp [*]; done)
    | split

theorem execJoin_runs (h : Head) (heat length _side regions : Nat) (digestOk : Bool) (roles : List JoinRole) (s : State) : s.Runs (execJoin h heat length _side regions digestOk roles s) := by
  unfold execJoin
  refine State.on_runs fun init => ?_
  have h := Dev.Leads.refl init
  repeat' first
    | with_reducible assumption
    | (intro v; refine (fun hv : init.Leads v => ?_) ?_; rotate_left; subst v)
    | (intro v; refine (fun hv : init.Leads v.1 => ?_) ?_; rotate_left; subst v)
    | (intro v; refine (fun hv : init.Leads v.2 => ?_) ?_; rotate_left; subst v)
    | intro _
    | (extract_lets -lift +onlyGivenNames w; revert w)
    | dsimp -zeta -zetaDelta only
    | with_reducible apply Dev.setF_leads
    | with_reducible apply Dev.forEach_leads
    | with_reducible apply Dev.setB_leads
    | with_reducible apply Dev.raiseR_leads
    | with_reducible apply Dev.setWeld_leads
    | with_reducible apply Dev.setHeat_leads
    | with_reducible apply Dev.joinRegion_leads
    | with_reducible apply Dev.takeFrame_leads
    | with_reducible apply Dev.showTwinHeat_leads
    | with_reducible apply Dev.refuseLink_leads
    | (simp [*]; done)
    | (split <;> try (rename_i e; try obtain rfl := congrArg Prod.fst e; try obtain rfl := congrArg Prod.snd e))

theorem execMirrorWrite_runs (h : Head) (heat firstId : Nat) (entries : List MirrorEntry) (s : State) : s.Runs (execMirrorWrite h heat firstId entries s) := by
  unfold execMirrorWrite
  refine State.on_runs fun init => ?_
  have h := Dev.Leads.refl init
  repeat' first
    | with_reducible assumption
    | (intro v; refine (fun hv : init.Leads v => ?_) ?_; rotate_left; subst v)
    | (intro v; refine (fun hv : init.Leads v.1 => ?_) ?_; rotate_left; subst v)
    | (intro v; refine (fun hv : init.Leads v.2 => ?_) ?_; rotate_left; subst v)
    | intro _
    | (extract_lets -lift +onlyGivenNames w; revert w)
    | dsimp -zeta -zetaDelta only
    | with_reducible apply Dev.forEach_leads
    | with_reducible apply Dev.countAccepted_leads
    | with_reducible apply Dev.takeFrame_leads
    | with_reducible apply Dev.noteFrame_leads
    | with_reducible apply Dev.showTwinHeat_leads
    | with_reducible apply Dev.arriveEntry_leads
    | (simp [*]; done)
    | (split <;> try (rename_i e; try obtain rfl := congrArg Prod.fst e; try obtain rfl := congrArg Prod.snd e))

theorem execWeldTxRoom_runs (die : Nat) (s : State) : s.Runs (execWeldTxRoom die s) := by
  unfold execWeldTxRoom
  refine State.on_runs fun init => ?_
  have h := Dev.Leads.refl init
  repeat' first
    | with_reducible assumption
    | (intro v; refine (fun hv : init.Leads v => ?_) ?_; rotate_left; subst v)
    | intro _
    | (extract_lets -lift +onlyGivenNames w; revert w)
    | with_reducible apply Dev.pump_leads
    | with_reducible apply Dev.retryAll_leads
    | (simp [*]; done)

@[simp] theorem Dev.ackRun_leads {init d : Dev} (h : Head) (a : AckRun) (ha : init.Leads d) : init.Leads (Dev.ackRun d h a) := by
  unfold Dev.ackRun
  repeat' first
    | with_reducible assumption
    | (intro v; refine (fun hv : init.Leads v => ?_) ?_; rotate_left; subst v)
    | (intro v; refine (fun hv : init.Leads v.1 => ?_) ?_; rotate_left; subst v)
    | (intro v; refine (fun hv : init.Leads v.2 => ?_) ?_; rotate_left; subst v)
    | intro _
    | (extract_lets -lift +onlyGivenNames w; revert w)
    | dsimp -zeta -zetaDelta only
    | with_reducible apply Dev.forEach_leads
    | with_reducible apply Dev.raise_leads
    | with_reducible apply Dev.setWeld_leads
    | with_reducible apply Dev.endReq_leads
    | with_reducible apply Dev.complete_leads
    | (simp [*]; done)
    | (split <;> try (rename_i e; try obtain rfl := congrArg Prod.fst e; try obtain rfl := congrArg Prod.snd e))

theorem execMirrorAck_runs (h : Head) (runs : List AckRun) (s : State) : s.Runs (execMirrorAck h runs s) := by
  unfold execMirrorAck
  refine State.on_runs fun init => ?_
  have h := Dev.Leads.refl init
  repeat' first
    | with_reducible assumption
    | (intro v; refine (fun hv : init.Leads v => ?_) ?_; rotate_left; subst v)
    | (intro v; refine (fun hv : init.Leads v.1 => ?_) ?_; rotate_left; subst v)
    | (intro v; refine (fun hv : init.Leads v.2 => ?_) ?_; rotate_left; subst v)
    | intro _
    | (extract_lets -lift +onlyGivenNames w; revert w)
    | dsimp -zeta -zetaDelta only
    | with_reducible apply Dev.forEach_leads
    | with_reducible apply Dev.takeFrame_leads
    | with_reducible apply Dev.ackRun_leads
    | (simp [*]; done)
    | (split <;> try (rename_i e; try obtain rfl := congrArg Prod.fst e; try obtain rfl := congrArg Prod.snd e))

theorem execMirrorAckBatchTimer_runs (die : Nat) (s : State) : s.Runs (execMirrorAckBatchTimer die s) := by
  unfold execMirrorAckBatchTimer
  refine State.on_runs fun init => ?_
  have h := Dev.Leads.refl init
  repeat' first
    | with_reducible assumption
    | (intro v; refine (fun hv : init.Leads v => ?_) ?_; rotate_left; subst v)
    | intro _
    | (extract_lets -lift +onlyGivenNames w; revert w)
    | with_reducible apply Dev.setWeld_leads
    | with_reducible apply Dev.queueOn_leads
    | with_reducible apply Dev.sendGeneral_leads
    | (simp [*]; done)
    | split

theorem execHeatClose_runs (h : Head) (heat linkMask : Nat) (s : State) : s.Runs (execHeatClose h heat linkMask s) := by
  unfold execHeatClose
  refine State.on_runs fun init => ?_
  have h := Dev.Leads.refl init
  repeat' first
    | with_reducible assumption
    | (intro v; refine (fun hv : init.Leads v => ?_) ?_; rotate_left; subst v)
    | (intro v; refine (fun hv : init.Leads v.1 => ?_) ?_; rotate_left; subst v)
    | (intro v; refine (fun hv : init.Leads v.2 => ?_) ?_; rotate_left; subst v)
    | intro _
    | (extract_lets -lift +onlyGivenNames w; revert w)
    | dsimp -zeta -zetaDelta only
    | with_reducible apply Dev.forEach_leads
    | with_reducible apply Dev.setWeld_leads
    | with_reducible apply Dev.sealEntry_leads
    | with_reducible apply Dev.ackHeats_leads
    | with_reducible apply Dev.takeFrame_leads
    | with_reducible apply Dev.showTwinHeat_leads
    | (simp [*]; done)
    | (split <;> try (rename_i e; try obtain rfl := congrArg Prod.fst e; try obtain rfl := congrArg Prod.snd e))

theorem execHeatAck_runs (h : Head) (heat regionMask : Nat) (s : State) : s.Runs (execHeatAck h heat regionMask s) := by
  unfold execHeatAck
  refine State.on_runs fun init => ?_
  have h := Dev.Leads.refl init
  repeat' first
    | with_reducible assumption
    | (intro v; refine (fun hv : init.Leads v => ?_) ?_; rotate_left; subst v)
    | (intro v; refine (fun hv : init.Leads v.1 => ?_) ?_; rotate_left; subst v)
    | (intro v; refine (fun hv : init.Leads v.2 => ?_) ?_; rotate_left; subst v)
    | intro _
    | (extract_lets -lift +onlyGivenNames w; revert w)
    | dsimp -zeta -zetaDelta only
    | with_reducible apply Dev.setF_leads
    | with_reducible apply Dev.setWeld_leads
    | with_reducible apply Dev.takeFrame_leads
    | with_reducible apply Dev.leads_foldl
    | (simp [*]; done)
    | (split <;> try (rename_i e; try obtain rfl := congrArg Prod.fst e; try obtain rfl := congrArg Prod.snd e))

theorem execQuenchNoticeNotice_runs (h : Head) (heat _cause generation : Nat) (s : State) : s.Runs (execQuenchNoticeNotice h heat _cause generation s) := by
  unfold execQuenchNoticeNotice
  refine State.on_runs fun init => ?_
  have h := Dev.Leads.refl init
  repeat' first
    | with_reducible assumption
    | (intro v; refine (fun hv : init.Leads v => ?_) ?_; rotate_left; subst v)
    | (intro v; refine (fun hv : init.Leads v.1 => ?_) ?_; rotate_left; subst v)
    | (intro v; refine (fun hv : init.Leads v.2 => ?_) ?_; rotate_left; subst v)
    | intro _
    | (extract_lets -lift +onlyGivenNames w; revert w)
    | dsimp -zeta -zetaDelta only
    | with_reducible apply Dev.raiseR_leads
    | with_reducible apply Dev.setWeld_leads
    | with_reducible apply Dev.splitRecords_leads
    | with_reducible apply Dev.takeFrame_leads
    | (simp [*]; done)
    | (split <;> try (rename_i e; try obtain rfl := congrArg Prod.fst e; try obtain rfl := congrArg Prod.snd e))

theorem execQuenchNoticeDrained_runs (h : Head) (heat _cause generation : Nat) (s : State) : s.Runs (execQuenchNoticeDrained h heat _cause generation s) := by
  unfold execQuenchNoticeDrained
  refine State.on_runs fun init => ?_
  have h := Dev.Leads.refl init
  repeat' first
    | with_reducible assumption
    | (intro v; refine (fun hv : init.Leads v => ?_) ?_; rotate_left; subst v)
    | (intro v; refine (fun hv : init.Leads v.1 => ?_) ?_; rotate_left; subst v)
    | (intro v; refine (fun hv : init.Leads v.2 => ?_) ?_; rotate_left; subst v)
    | intro _
    | (extract_lets -lift +onlyGivenNames w; revert w)
    | dsimp -zeta -zetaDelta only
    | with_reducible apply Dev.raiseR_leads
    | with_reducible apply Dev.setWeld_leads
    | with_reducible apply Dev.endWindow_leads
    | with_reducible apply Dev.takeFrame_leads
    | (simp [*]; done)
    | (split <;> try (rename_i e; try obtain rfl := congrArg Prod.fst e; try obtain rfl := congrArg Prod.snd e))

theorem execQuenchNoticeFinal_runs (h : Head) (heat flags _cause generation : Nat) (s : State) : s.Runs (execQuenchNoticeFinal h heat flags _cause generation s) := by
  unfold execQuenchNoticeFinal
  refine State.on_runs fun init => ?_
  have h := Dev.Leads.refl init
  repeat' first
    | with_reducible assumption
    | (intro v; refine (fun hv : init.Leads v => ?_) ?_; rotate_left; subst v)
    | (intro v; refine (fun hv : init.Leads v.1 => ?_) ?_; rotate_left; subst v)
    | (intro v; refine (fun hv : init.Leads v.2 => ?_) ?_; rotate_left; subst v)
    | intro _
    | (extract_lets -lift +onlyGivenNames w; revert w)
    | dsimp -zeta -zetaDelta only
    | with_reducible apply Dev.raiseR_leads
    | with_reducible apply Dev.setWeld_leads
    | with_reducible apply Dev.takeFrame_leads
    | (simp [*]; done)
    | (split <;> try (rename_i e; try obtain rfl := congrArg Prod.fst e; try obtain rfl := congrArg Prod.snd e))

theorem execDrainWindowEnd_runs (s : State) : s.Runs (execDrainWindowEnd s) := by
  unfold execDrainWindowEnd
  refine State.on_runs fun init => ?_
  have h := Dev.Leads.refl init
  repeat' first
    | with_reducible assumption
    | intro _
    | with_reducible apply Dev.until_leads
    | with_reducible apply Dev.endWindow_leads
    | (simp [*]; done)
    | split

theorem execRoleClaimClaim_runs (h : Head) (region epoch : Nat) (s : State) : s.Runs (execRoleClaimClaim h region epoch s) := by
  unfold execRoleClaimClaim
  refine State.on_runs fun init => ?_
  have h := Dev.Leads.refl init
  repeat' first
    | with_reducible assumption
    | (intro v; refine (fun hv : init.Leads v => ?_) ?_; rotate_left; subst v)
    | (intro v; refine (fun hv : init.Leads v.1 => ?_) ?_; rotate_left; subst v)
    | (intro v; refine (fun hv : init.Leads v.2 => ?_) ?_; rotate_left; subst v)
    | intro _
    | (extract_lets -lift +onlyGivenNames w; revert w)
    | dsimp -zeta -zetaDelta only
    | with_reducible apply Dev.record_leads
    | with_reducible apply Dev.setRegion_leads
    | with_reducible apply Dev.sendGeneral_leads
    | with_reducible apply Dev.takeFrame_leads
    | (simp [*]; done)
    | (split <;> try (rename_i e; try obtain rfl := congrArg Prod.fst e; try obtain rfl := congrArg Prod.snd e))

theorem execRoleClaimHandover_runs (h : Head) (region _epoch heat : Nat) (s : State) : s.Runs (execRoleClaimHandover h region _epoch heat s) := by
  unfold execRoleClaimHandover
  refine State.on_runs fun init => ?_
  have h := Dev.Leads.refl init
  repeat' first
    | with_reducible assumption
    | (intro v; refine (fun hv : init.Leads v => ?_) ?_; rotate_left; subst v)
    | (intro v; refine (fun hv : init.Leads v.1 => ?_) ?_; rotate_left; subst v)
    | (intro v; refine (fun hv : init.Leads v.2 => ?_) ?_; rotate_left; subst v)
    | intro _
    | (extract_lets -lift +onlyGivenNames w; revert w)
    | dsimp -zeta -zetaDelta only
    | with_reducible apply Dev.setRegion_leads
    | with_reducible apply Dev.claimDone_leads
    | with_reducible apply Dev.takeFrame_leads
    | (simp [*]; done)
    | (split <;> try (rename_i e; try obtain rfl := congrArg Prod.fst e; try obtain rfl := congrArg Prod.snd e))

theorem execRoleClaimRefuse_runs (h : Head) (region _epoch : Nat) (s : State) : s.Runs (execRoleClaimRefuse h region _epoch s) := by
  unfold execRoleClaimRefuse
  refine State.on_runs fun init => ?_
  have h := Dev.Leads.refl init
  repeat' first
    | with_reducible assumption
    | (intro v; refine (fun hv : init.Leads v => ?_) ?_; rotate_left; subst v)
    | (intro v; refine (fun hv : init.Leads v.1 => ?_) ?_; rotate_left; subst v)
    | (intro v; refine (fun hv : init.Leads v.2 => ?_) ?_; rotate_left; subst v)
    | intro _
    | (extract_lets -lift +onlyGivenNames w; revert w)
    | dsimp -zeta -zetaDelta only
    | with_reducible apply Dev.setRegion_leads
    | with_reducible apply Dev.takeFrame_leads
    | (simp [*]; done)
    | (split <;> try (rename_i e; try obtain rfl := congrArg Prod.fst e; try obtain rfl := congrArg Prod.snd e))

theorem execRejoinReq_runs (h : Head) (region : Nat) (incremental : Bool) (slabs : List Nat) (s : State) : s.Runs (execRejoinReq h region incremental slabs s) := by
  unfold execRejoinReq
  refine State.on_runs fun init => ?_
  have h := Dev.Leads.refl init
  repeat' first
    | with_reducible assumption
    | (intro v; refine (fun hv : init.Leads v => ?_) ?_; rotate_left; subst v)
    | (intro v; refine (fun hv : init.Leads v.1 => ?_) ?_; rotate_left; subst v)
    | (intro v; refine (fun hv : init.Leads v.2 => ?_) ?_; rotate_left; subst v)
    | intro _
    | (extract_lets -lift +onlyGivenNames w; revert w)
    | dsimp -zeta -zetaDelta only
    | with_reducible apply Dev.startResync_leads
    | with_reducible apply Dev.takeFrame_leads
    | (simp [*]; done)
    | (split <;> try (rename_i e; try obtain rfl := congrArg Prod.fst e; try obtain rfl := congrArg Prod.snd e))

theorem execResyncData_runs (h : Head) (slab kind : Nat) (mask : Mask) (heat region : Nat) (lines : List Line) (s : State) : s.Runs (execResyncData h slab kind mask heat region lines s) := by
  unfold execResyncData
  refine State.on_runs fun init => ?_
  have hi := Dev.Leads.refl init
  extract_lets x n h'
  split
  rename_i d ok e
  obtain rfl := congrArg Prod.fst e
  have k := Dev.takeFrame_leads h' 0x09 n false init.upNow x.isSome hi
  split
  · exact k
  · split
    · exact Dev.noteFrame_leads _ _ _ k
    · extract_lets d1 rid d2 d3
      have h1 : init.Leads d1 := Dev.countAccepted_leads _ _ _ k
      have h2 : init.Leads d2 := Dev.arrive_leads _ _ _ _ _ _ _ _ h1
      have h3 : init.Leads d3 := by
        unfold d3
        split
        · exact Dev.admitOne_leads _ _ _ h2
        · exact h2
      exact Dev.noteFrame_leads _ _ _ h3

theorem execFetch_runs (h : Head) (slab region : Nat) (s : State) : s.Runs (execFetch h slab region s) := by
  unfold execFetch
  refine State.on_runs fun init => ?_
  have h := Dev.Leads.refl init
  repeat' first
    | with_reducible assumption
    | (intro v; refine (fun hv : init.Leads v => ?_) ?_; rotate_left; subst v)
    | (intro v; refine (fun hv : init.Leads v.1 => ?_) ?_; rotate_left; subst v)
    | (intro v; refine (fun hv : init.Leads v.2 => ?_) ?_; rotate_left; subst v)
    | intro _
    | (extract_lets -lift +onlyGivenNames w; revert w)
    | dsimp -zeta -zetaDelta only
    | with_reducible apply Dev.takeFrame_leads
    | with_reducible apply Dev.answerFetch_leads
    | (simp [*]; done)
    | (split <;> try (rename_i e; try obtain rfl := congrArg Prod.fst e; try obtain rfl := congrArg Prod.snd e))

theorem execFetchData_runs (h : Head) (slab : Nat) (_mask : Mask) (heat region : Nat) (lines : List Line) (s : State) : s.Runs (execFetchData h slab _mask heat region lines s) := by
  unfold execFetchData
  refine State.on_runs fun init => ?_
  have h := Dev.Leads.refl init
  repeat' first
    | with_reducible assumption
    | (intro v; refine (fun hv : init.Leads v => ?_) ?_; rotate_left; subst v)
    | (intro v; refine (fun hv : init.Leads v.1 => ?_) ?_; rotate_left; subst v)
    | (intro v; refine (fun hv : init.Leads v.2 => ?_) ?_; rotate_left; subst v)
    | intro _
    | (extract_lets -lift +onlyGivenNames w; revert w)
    | dsimp -zeta -zetaDelta only
    | with_reducible apply Dev.incF_leads
    | with_reducible apply Dev.raise_leads
    | with_reducible apply Dev.setRht_leads
    | with_reducible apply Dev.fetchLands_leads
    | with_reducible apply Dev.takeFrame_leads
    | with_reducible apply Dev.noteFrame_leads
    | with_reducible apply Dev.endFetch_leads
    | (simp [*]; done)
    | (split <;> try (rename_i e; try obtain rfl := congrArg Prod.fst e; try obtain rfl := congrArg Prod.snd e))

theorem execFetchMiss_runs (h : Head) (slab _region : Nat) (s : State) : s.Runs (execFetchMiss h slab _region s) := by
  unfold execFetchMiss
  refine State.on_runs fun init => ?_
  have h := Dev.Leads.refl init
  repeat' first
    | with_reducible assumption
    | (intro v; refine (fun hv : init.Leads v => ?_) ?_; rotate_left; subst v)
    | (intro v; refine (fun hv : init.Leads v.1 => ?_) ?_; rotate_left; subst v)
    | (intro v; refine (fun hv : init.Leads v.2 => ?_) ?_; rotate_left; subst v)
    | intro _
    | (extract_lets -lift +onlyGivenNames w; revert w)
    | dsimp -zeta -zetaDelta only
    | with_reducible apply Dev.takeFrame_leads
    | with_reducible apply Dev.noteFrame_leads
    | with_reducible apply Dev.failFetch_leads
    | (simp [*]; done)
    | (split <;> try (rename_i e; try obtain rfl := congrArg Prod.fst e; try obtain rfl := congrArg Prod.snd e))

theorem execFetchTimeout_runs (slab : Nat) (s : State) : s.Runs (execFetchTimeout slab s) := by
  unfold execFetchTimeout
  refine State.on_runs fun init => ?_
  have h := Dev.Leads.refl init
  repeat' first
    | with_reducible assumption
    | intro _
    | with_reducible apply Dev.failFetch_leads
    | (simp [*]; done)
    | split

theorem execForceSolo_runs (region : Nat) (s : State) : s.Runs (execForceSolo region s) := by
  unfold execForceSolo
  refine State.on_runs fun init => ?_
  have h := Dev.Leads.refl init
  repeat' first
    | with_reducible assumption
    | (intro v; refine (fun hv : init.Leads v => ?_) ?_; rotate_left; subst v)
    | intro _
    | (extract_lets -lift +onlyGivenNames w; revert w)
    | with_reducible apply Dev.record_leads
    | with_reducible apply Dev.addPend_leads
    | (simp [*]; done)
    | split

theorem execYield_runs (region : Nat) (s : State) : s.Runs (execYield region s) := by
  unfold execYield
  refine State.on_runs fun init => ?_
  have h := Dev.Leads.refl init
  repeat' first
    | with_reducible assumption
    | (intro v; refine (fun hv : init.Leads v => ?_) ?_; rotate_left; subst v)
    | intro _
    | (extract_lets -lift +onlyGivenNames w; revert w)
    | with_reducible apply Dev.beginRejoin_leads
    | (simp [*]; done)
    | split

theorem execReclaim_runs (region : Nat) (s : State) : s.Runs (execReclaim region s) := by
  unfold execReclaim
  refine State.on_runs fun init => ?_
  have h := Dev.Leads.refl init
  repeat' first
    | with_reducible assumption
    | (intro v; refine (fun hv : init.Leads v => ?_) ?_; rotate_left; subst v)
    | intro _
    | (extract_lets -lift +onlyGivenNames w; revert w)
    | with_reducible apply Dev.record_leads
    | with_reducible apply Dev.setRegion_leads
    | with_reducible apply Dev.sendGeneral_leads
    | (simp [*]; done)
    | split

theorem execConfirmSole_runs (region : Nat) (s : State) : s.Runs (execConfirmSole region s) := by
  unfold execConfirmSole
  refine State.on_runs fun init => ?_
  have h := Dev.Leads.refl init
  repeat' first
    | with_reducible assumption
    | intro _
    | with_reducible apply Dev.endHold_leads
    | (simp [*]; done)

@[simp] theorem Dev.recordDone_leads {init d : Dev} (p : RolePend) (h : init.Leads d) : init.Leads (Dev.recordDone d p) := by
  unfold Dev.recordDone
  repeat' first
    | with_reducible assumption
    | (intro v; refine (fun hv : init.Leads v => ?_) ?_; rotate_left; subst v)
    | (intro v; refine (fun hv : init.Leads v.1 => ?_) ?_; rotate_left; subst v)
    | (intro v; refine (fun hv : init.Leads v.2 => ?_) ?_; rotate_left; subst v)
    | intro _
    | (extract_lets -lift +onlyGivenNames w; revert w)
    | dsimp -zeta -zetaDelta only
    | with_reducible apply Dev.raiseB_leads
    | with_reducible apply Dev.record_leads
    | with_reducible apply Dev.setRegion_leads
    | with_reducible apply Dev.setRht_leads
    | with_reducible apply Dev.storeRole_leads
    | with_reducible apply Dev.putRecord_leads
    | with_reducible apply Dev.setRole_leads
    | with_reducible apply Dev.endResync_leads
    | with_reducible apply Dev.enterSolo_leads
    | (simp [*]; done)
    | (split <;> try (rename_i e; try obtain rfl := congrArg Prod.fst e; try obtain rfl := congrArg Prod.snd e))

@[simp] theorem Dev.recordFails_leads {init d : Dev} (p : RolePend) (status : Nat) (h : init.Leads d) : init.Leads (Dev.recordFails d p status) := by
  unfold Dev.recordFails
  repeat' first
    | with_reducible assumption
    | (intro v; refine (fun hv : init.Leads v => ?_) ?_; rotate_left; subst v)
    | (intro v; refine (fun hv : init.Leads v.1 => ?_) ?_; rotate_left; subst v)
    | (intro v; refine (fun hv : init.Leads v.2 => ?_) ?_; rotate_left; subst v)
    | intro _
    | (extract_lets -lift +onlyGivenNames w; revert w)
    | dsimp -zeta -zetaDelta only
    | with_reducible apply Dev.raiseB_leads
    | with_reducible apply Dev.setRht_leads
    | with_reducible apply Dev.setRole_leads
    | (simp [*]; done)
    | (split <;> try (rename_i e; try obtain rfl := congrArg Prod.fst e; try obtain rfl := congrArg Prod.snd e))

theorem execRoleRecordDone_runs (region status : Nat) (s : State) : s.Runs (execRoleRecordDone region status s) := by
  unfold execRoleRecordDone
  refine State.on_runs fun init => ?_
  have h := Dev.Leads.refl init
  repeat' first
    | with_reducible assumption
    | (intro v; refine (fun hv : init.Leads v => ?_) ?_; rotate_left; subst v)
    | intro _
    | (extract_lets -lift +onlyGivenNames w; revert w)
    | with_reducible apply Dev.record_leads
    | with_reducible apply Dev.setRht_leads
    | with_reducible apply Dev.storeRole_leads
    | with_reducible apply Dev.putRecord_leads
    | with_reducible apply Dev.recordDone_leads
    | with_reducible apply Dev.recordFails_leads
    | (simp [*]; done)
    | split

theorem execResyncComplete_runs (region : Nat) (s : State) : s.Runs (execResyncComplete region s) := by
  unfold execResyncComplete
  refine State.on_runs fun init => ?_
  have h := Dev.Leads.refl init
  repeat' first
    | with_reducible assumption
    | (intro v; refine (fun hv : init.Leads v => ?_) ?_; rotate_left; subst v)
    | intro _
    | (extract_lets -lift +onlyGivenNames w; revert w)
    | with_reducible apply Dev.record_leads
    | with_reducible apply Dev.addPend_leads
    | (simp [*]; done)
    | split

theorem execPromotion_runs (s : State) : s.Runs (execPromotion s) := by
  unfold execPromotion
  refine State.on_runs fun init => ?_
  have h := Dev.Leads.refl init
  repeat' first
    | with_reducible assumption
    | (intro v; refine (fun hv : init.Leads v => ?_) ?_; rotate_left; subst v)
    | intro _
    | (extract_lets -lift +onlyGivenNames w; revert w)
    | with_reducible apply Dev.setF_leads
    | with_reducible apply Dev.forEach_leads
    | with_reducible apply Dev.raiseR_leads
    | with_reducible apply Dev.setWeld_leads
    | with_reducible apply Dev.setRht_leads
    | with_reducible apply Dev.enterSolo_leads
    | (simp [*]; done)
    | split

theorem execHeatBoundary_runs (s : State) : s.Runs (execHeatBoundary s) := by
  unfold execHeatBoundary
  refine State.on_runs fun init => ?_
  have h := Dev.Leads.refl init
  repeat' first
    | with_reducible assumption
    | intro _
    | with_reducible apply Dev.setHeat_leads
    | with_reducible apply Dev.boundary_leads
    | with_reducible apply Dev.until_leads
    | (simp [*]; done)
    | split

theorem execHeatSyncInEdge_runs (after : Nat) (s : State) : s.Runs (execHeatSyncInEdge after s) := by
  unfold execHeatSyncInEdge
  refine State.on_runs fun init => ?_
  have h := Dev.Leads.refl init
  repeat' first
    | with_reducible assumption
    | intro _
    | with_reducible apply Dev.until_leads
    | with_reducible apply Dev.syncEdge_leads
    | (simp [*]; done)

theorem execHeatSyncMiss_runs (s : State) : s.Runs (execHeatSyncMiss s) := by
  unfold execHeatSyncMiss
  refine State.on_runs fun init => ?_
  have h := Dev.Leads.refl init
  repeat' first
    | with_reducible assumption
    | intro _
    | with_reducible apply Dev.syncMiss_leads
    | (simp [*]; done)

theorem execHeatCtrlWrite_runs (lengthUs : Nat) (syncEn syncOut : Bool) (s : State) : s.Runs (execHeatCtrlWrite lengthUs syncEn syncOut s) := by
  unfold execHeatCtrlWrite
  refine State.on_runs fun init => ?_
  have h := Dev.Leads.refl init
  repeat' first
    | with_reducible assumption
    | intro _
    | with_reducible apply Dev.writeHeatCtrl_leads
    | (simp [*]; done)

theorem execHeatCtrlCloseNow_runs (s : State) : s.Runs (execHeatCtrlCloseNow s) := by
  unfold execHeatCtrlCloseNow
  refine State.on_runs fun init => ?_
  have h := Dev.Leads.refl init
  repeat' first
    | with_reducible assumption
    | intro _
    | with_reducible apply Dev.boundary_leads
    | (simp [*]; done)

theorem execHeatReservationDone_runs (ok : Bool) (status : Nat) (s : State) : s.Runs (execHeatReservationDone ok status s) := by
  unfold execHeatReservationDone
  refine State.on_runs fun init => ?_
  have h := Dev.Leads.refl init
  repeat' first
    | with_reducible assumption
    | intro _
    | with_reducible apply Dev.raiseR_leads
    | with_reducible apply Dev.setHeat_leads
    | with_reducible apply Dev.programReservation_leads
    | with_reducible apply Dev.retryBoundary_leads
    | (simp [*]; done)
    | split

theorem execJournalPageWrite_runs (die heat : Nat) (receive : Bool) (s : State) : s.Runs (execJournalPageWrite die heat receive s) := by
  unfold execJournalPageWrite
  refine State.on_runs fun init => ?_
  have h := Dev.Leads.refl init
  repeat' first
    | with_reducible assumption
    | intro _
    | with_reducible apply Dev.retainCheck_leads
    | with_reducible apply Dev.panicCheck_leads
    | with_reducible apply Dev.writePages_leads
    | (simp [*]; done)

theorem execHeatSeal_runs (die heat : Nat) (receive : Bool) (s : State) : s.Runs (execHeatSeal die heat receive s) := by
  unfold execHeatSeal
  refine State.on_runs fun init => ?_
  have h := Dev.Leads.refl init
  repeat' first
    | with_reducible assumption
    | (intro v; refine (fun hv : init.Leads v => ?_) ?_; rotate_left; subst v)
    | intro _
    | (extract_lets -lift +onlyGivenNames w; revert w)
    | with_reducible apply Dev.sealEntry_leads
    | with_reducible apply Dev.ackHeats_leads
    | with_reducible apply Dev.closeHeats_leads
    | (simp [*]; done)
    | split

theorem execCompactRecord_runs (die : Nat) (lost : Bool) (s : State) : s.Runs (execCompactRecord die lost s) := by
  unfold execCompactRecord
  refine State.on_runs fun init => ?_
  have h := Dev.Leads.refl init
  repeat' first
    | with_reducible assumption
    | intro _
    | with_reducible apply Dev.panicCheck_leads
    | with_reducible apply Dev.compactRecord_leads
    | with_reducible apply Dev.losePage_leads
    | (simp [*]; done)
    | split

theorem execJournalStallRelease_runs (s : State) : s.Runs (execJournalStallRelease s) := by
  unfold execJournalStallRelease
  refine State.on_runs fun init => ?_
  have h := Dev.Leads.refl init
  repeat' first
    | with_reducible assumption
    | (intro v; refine (fun hv : init.Leads v => ?_) ?_; rotate_left; subst v)
    | intro _
    | (extract_lets -lift +onlyGivenNames w; revert w)
    | with_reducible apply Dev.setB_leads
    | with_reducible apply Dev.retryAll_leads
    | (simp [*]; done)
    | split

theorem execTagWalkDone_runs (die : Nat) (s : State) : s.Runs (execTagWalkDone die s) := by
  unfold execTagWalkDone
  refine State.on_runs fun init => ?_
  have h := Dev.Leads.refl init
  repeat' first
    | with_reducible assumption
    | intro _
    | with_reducible apply Dev.endTagWalk_leads
    | (simp [*]; done)
    | split

end Sys2Proof.Machine
end

