-- ==== Sys2Proof/Laws/LeadsBacking.lean ====
section
/-! SUPPORT. What the backing commands never break (Leads), one lemma a function; each command runs (Runs), one lemma a command. -/

namespace Sys2Proof.Machine

open Sys2Proof

set_option linter.tactic.unusedName false
set_option linter.unusedTactic false
set_option linter.unreachableTactic false
set_option linter.unusedSimpArgs false
set_option linter.unusedVariables false

@[simp] theorem Dev.setBack_leads {init d : Dev} (f : BackState → BackState) (h : init.Leads d) : init.Leads (Dev.setBack d f) := by
  simp [Dev.setBack, h]

@[simp] theorem Dev.setNs_leads {init d : Dev} (n : Nat) (x : Ns) (h : init.Leads d) : init.Leads (Dev.setNs d n x) := by
  simp [Dev.setNs, h]

@[simp] theorem Dev.raiseN_leads {init d : Dev} (e : Ev) (n : Nat) (payload : Fields) (h : init.Leads d) : init.Leads (Dev.raiseN d e n payload) := by
  simp [Dev.raiseN, h]

@[simp] theorem Dev.reissue_leads {init d : Dev} (slab : Nat) (h : init.Leads d) : init.Leads (Dev.reissue d slab) := by
  unfold Dev.reissue
  repeat' first
    | with_reducible assumption
    | (intro v; refine (fun hv : init.Leads v => ?_) ?_; rotate_left; subst v)
    | (intro v; refine (fun hv : init.Leads v.1 => ?_) ?_; rotate_left; subst v)
    | (intro v; refine (fun hv : init.Leads v.2 => ?_) ?_; rotate_left; subst v)
    | intro _
    | (extract_lets -lift +onlyGivenNames w; revert w)
    | dsimp -zeta -zetaDelta only
    | with_reducible apply Dev.emit_leads
    | with_reducible apply Dev.stageWrite_leads
    | (simp [*]; done)
    | (split <;> try (rename_i e; try obtain rfl := congrArg Prod.fst e; try obtain rfl := congrArg Prod.snd e))

@[simp] theorem Dev.forget_leads {init d : Dev} (slab : Nat) (h : init.Leads d) : init.Leads (Dev.forget d slab) := by
  simp [Dev.forget, h]

@[simp] theorem Dev.endCommand_leads {init d : Dev} (slab : Nat) (c : BackCmd) (ok : Bool) (status : Nat) (data : List Line) (h : init.Leads d) : init.Leads (Dev.endCommand d slab c ok status data) := by
  unfold Dev.endCommand
  repeat' first
    | with_reducible assumption
    | (intro v; refine (fun hv : init.Leads v => ?_) ?_; rotate_left; subst v)
    | (intro v; refine (fun hv : init.Leads v.1 => ?_) ?_; rotate_left; subst v)
    | (intro v; refine (fun hv : init.Leads v.2 => ?_) ?_; rotate_left; subst v)
    | intro _
    | (extract_lets -lift +onlyGivenNames w; revert w)
    | dsimp -zeta -zetaDelta only
    | with_reducible apply Dev.failFill_leads
    | with_reducible apply Dev.landFill_leads
    | with_reducible apply Dev.endDestage_leads
    | with_reducible apply Dev.failDestage_leads
    | with_reducible apply Dev.stageWrite_leads
    | with_reducible apply Dev.cleanDone_leads
    | with_reducible apply Dev.uncachedDone_leads
    | with_reducible apply Dev.stageReadDone_leads
    | with_reducible apply Dev.stageWriteDone_leads
    | with_reducible apply Dev.forget_leads
    | (simp [*]; done)
    | (split <;> try (rename_i e; try obtain rfl := congrArg Prod.fst e; try obtain rfl := congrArg Prod.snd e))

@[simp] theorem Dev.dropCommands_leads {init d : Dev} (n : Nat) (h : init.Leads d) : init.Leads (Dev.dropCommands d n) := by
  unfold Dev.dropCommands
  repeat' first
    | with_reducible assumption
    | (intro v; refine (fun hv : init.Leads v => ?_) ?_; rotate_left; subst v)
    | (intro v; refine (fun hv : init.Leads v.1 => ?_) ?_; rotate_left; subst v)
    | (intro v; refine (fun hv : init.Leads v.2 => ?_) ?_; rotate_left; subst v)
    | intro _
    | (extract_lets -lift +onlyGivenNames w; revert w)
    | dsimp -zeta -zetaDelta only
    | with_reducible apply Dev.forEach_leads
    | with_reducible apply Dev.completeThrough_leads
    | with_reducible apply Dev.failFill_leads
    | with_reducible apply Dev.failDestage_leads
    | with_reducible apply Dev.stageWrite_leads
    | with_reducible apply Dev.retryAll_leads
    | with_reducible apply Dev.uncachedDone_leads
    | with_reducible apply Dev.stageReadDone_leads
    | with_reducible apply Dev.stageWriteDone_leads
    | with_reducible apply Dev.forget_leads
    | (simp [*]; done)
    | (split <;> try (rename_i e; try obtain rfl := congrArg Prod.fst e; try obtain rfl := congrArg Prod.snd e))

@[simp] theorem Dev.nsOnline_leads {init d : Dev} (n : Nat) (h : init.Leads d) : init.Leads (Dev.nsOnline d n) := by
  unfold Dev.nsOnline
  repeat' first
    | with_reducible assumption
    | (intro v; refine (fun hv : init.Leads v => ?_) ?_; rotate_left; subst v)
    | (intro v; refine (fun hv : init.Leads v.1 => ?_) ?_; rotate_left; subst v)
    | (intro v; refine (fun hv : init.Leads v.2 => ?_) ?_; rotate_left; subst v)
    | intro _
    | (extract_lets -lift +onlyGivenNames w; revert w)
    | dsimp -zeta -zetaDelta only
    | with_reducible apply Dev.setF_leads
    | with_reducible apply Dev.forEach_leads
    | with_reducible apply Dev.setCru_leads
    | with_reducible apply Dev.runStaging_leads
    | with_reducible apply Dev.retryAll_leads
    | with_reducible apply Dev.setNs_leads
    | with_reducible apply Dev.raiseN_leads
    | with_reducible apply Dev.reissue_leads
    | (simp [*]; done)
    | (split <;> try (rename_i e; try obtain rfl := congrArg Prod.fst e; try obtain rfl := congrArg Prod.snd e))

@[simp] theorem Dev.nsRefuse_leads {init d : Dev} (n : Nat) (cause : Nat) (step : Nat) (h : init.Leads d) : init.Leads (Dev.nsRefuse d n cause step) := by
  unfold Dev.nsRefuse
  repeat' first
    | with_reducible assumption
    | (intro v; refine (fun hv : init.Leads v => ?_) ?_; rotate_left; subst v)
    | (intro v; refine (fun hv : init.Leads v.1 => ?_) ?_; rotate_left; subst v)
    | (intro v; refine (fun hv : init.Leads v.2 => ?_) ?_; rotate_left; subst v)
    | intro _
    | (extract_lets -lift +onlyGivenNames w; revert w)
    | dsimp -zeta -zetaDelta only
    | with_reducible apply Dev.setF_leads
    | with_reducible apply Dev.setNs_leads
    | with_reducible apply Dev.raiseN_leads
    | with_reducible apply Dev.dropCommands_leads
    | (simp [*]; done)
    | (split <;> try (rename_i e; try obtain rfl := congrArg Prod.fst e; try obtain rfl := congrArg Prod.snd e))

@[simp] theorem Dev.nsFail_leads {init d : Dev} (n : Nat) (cause : Nat) (h : init.Leads d) : init.Leads (Dev.nsFail d n cause) := by
  unfold Dev.nsFail
  repeat' first
    | with_reducible assumption
    | (intro v; refine (fun hv : init.Leads v => ?_) ?_; rotate_left; subst v)
    | (intro v; refine (fun hv : init.Leads v.1 => ?_) ?_; rotate_left; subst v)
    | (intro v; refine (fun hv : init.Leads v.2 => ?_) ?_; rotate_left; subst v)
    | intro _
    | (extract_lets -lift +onlyGivenNames w; revert w)
    | dsimp -zeta -zetaDelta only
    | with_reducible apply Dev.setF_leads
    | with_reducible apply Dev.setNs_leads
    | with_reducible apply Dev.raiseN_leads
    | with_reducible apply Dev.dropCommands_leads
    | (simp [*]; done)
    | (split <;> try (rename_i e; try obtain rfl := congrArg Prod.fst e; try obtain rfl := congrArg Prod.snd e))

@[simp] theorem Dev.ctrlFail_leads {init d : Dev} (p : Nat × Nat) (cause : Nat) (h : init.Leads d) : init.Leads (Dev.ctrlFail d p cause) := by
  unfold Dev.ctrlFail
  repeat' first
    | with_reducible assumption
    | (intro v; refine (fun hv : init.Leads v => ?_) ?_; rotate_left; subst v)
    | (intro v; refine (fun hv : init.Leads v.1 => ?_) ?_; rotate_left; subst v)
    | (intro v; refine (fun hv : init.Leads v.2 => ?_) ?_; rotate_left; subst v)
    | intro _
    | (extract_lets -lift +onlyGivenNames w; revert w)
    | dsimp -zeta -zetaDelta only
    | with_reducible apply Dev.forEach_leads
    | with_reducible apply Dev.nsFail_leads
    | (simp [*]; done)
    | (split <;> try (rename_i e; try obtain rfl := congrArg Prod.fst e; try obtain rfl := congrArg Prod.snd e))

@[simp] theorem Dev.countFailed_leads {init d : Dev} (n : Nat) (h : init.Leads d) : init.Leads (Dev.countFailed d n) := by
  unfold Dev.countFailed
  repeat' first
    | with_reducible assumption
    | (intro v; refine (fun hv : init.Leads v => ?_) ?_; rotate_left; subst v)
    | (intro v; refine (fun hv : init.Leads v.1 => ?_) ?_; rotate_left; subst v)
    | (intro v; refine (fun hv : init.Leads v.2 => ?_) ?_; rotate_left; subst v)
    | intro _
    | (extract_lets -lift +onlyGivenNames w; revert w)
    | dsimp -zeta -zetaDelta only
    | with_reducible apply Dev.incF_leads
    | with_reducible apply Dev.setNs_leads
    | with_reducible apply Dev.nsFail_leads
    | (simp [*]; done)
    | (split <;> try (rename_i e; try obtain rfl := congrArg Prod.fst e; try obtain rfl := congrArg Prod.snd e))

@[simp] theorem Dev.readLogs_leads {init d : Dev} (n : Nat) (h : init.Leads d) : init.Leads (Dev.readLogs d n) := by
  simp [Dev.readLogs, h]

@[simp] theorem Dev.ioOutcome_leads {init d : Dev} (slab : Nat) (c : BackCmd) (status : Nat) (dnr : Bool) (data : List Line) (errorLog : Nat) (h : init.Leads d) : init.Leads (Dev.ioOutcome d slab c status dnr data errorLog) := by
  unfold Dev.ioOutcome
  repeat' first
    | with_reducible assumption
    | (intro v; refine (fun hv : init.Leads v => ?_) ?_; rotate_left; subst v)
    | (intro v; refine (fun hv : init.Leads v.1 => ?_) ?_; rotate_left; subst v)
    | (intro v; refine (fun hv : init.Leads v.2 => ?_) ?_; rotate_left; subst v)
    | intro _
    | (extract_lets -lift +onlyGivenNames w; revert w)
    | dsimp -zeta -zetaDelta only
    | with_reducible apply Dev.incF_leads
    | with_reducible apply Dev.setBack_leads
    | with_reducible apply Dev.setNs_leads
    | with_reducible apply Dev.raiseN_leads
    | with_reducible apply Dev.endCommand_leads
    | with_reducible apply Dev.countFailed_leads
    | with_reducible apply Dev.readLogs_leads
    | (simp [*]; done)
    | (split <;> try (rename_i e; try obtain rfl := congrArg Prod.fst e; try obtain rfl := congrArg Prod.snd e))

@[simp] theorem Dev.setAttach_leads {init d : Dev} (p : Nat × Nat) (a : Attach) (h : init.Leads d) : init.Leads (Dev.setAttach d p a) := by
  simp [Dev.setAttach, h]

@[simp] theorem Dev.endAttach_leads {init d : Dev} (p : Nat × Nat) (h : init.Leads d) : init.Leads (Dev.endAttach d p) := by
  simp [Dev.endAttach, h]

@[simp] theorem Dev.beginStep_leads {init d : Dev} (p : Nat × Nat) (step : Nat) (h : init.Leads d) : init.Leads (Dev.beginStep d p step) := by
  unfold Dev.beginStep
  repeat' first
    | with_reducible assumption
    | (intro v; refine (fun hv : init.Leads v => ?_) ?_; rotate_left; subst v)
    | (intro v; refine (fun hv : init.Leads v.1 => ?_) ?_; rotate_left; subst v)
    | (intro v; refine (fun hv : init.Leads v.2 => ?_) ?_; rotate_left; subst v)
    | intro _
    | (extract_lets -lift +onlyGivenNames w; revert w)
    | dsimp -zeta -zetaDelta only
    | with_reducible apply Dev.emit_leads
    | with_reducible apply Dev.emits_leads
    | with_reducible apply Dev.setAttach_leads
    | with_reducible apply Dev.endAttach_leads
    | (simp [*]; done)
    | (split <;> try (rename_i e; try obtain rfl := congrArg Prod.fst e; try obtain rfl := congrArg Prod.snd e))

@[simp] theorem Dev.refuseAll_leads {init d : Dev} (p : Nat × Nat) (cause : Nat) (step : Nat) (h : init.Leads d) : init.Leads (Dev.refuseAll d p cause step) := by
  unfold Dev.refuseAll
  repeat' first
    | with_reducible assumption
    | (intro v; refine (fun hv : init.Leads v => ?_) ?_; rotate_left; subst v)
    | (intro v; refine (fun hv : init.Leads v.1 => ?_) ?_; rotate_left; subst v)
    | (intro v; refine (fun hv : init.Leads v.2 => ?_) ?_; rotate_left; subst v)
    | intro _
    | (extract_lets -lift +onlyGivenNames w; revert w)
    | dsimp -zeta -zetaDelta only
    | with_reducible apply Dev.forEach_leads
    | with_reducible apply Dev.nsRefuse_leads
    | with_reducible apply Dev.endAttach_leads
    | (simp [*]; done)
    | (split <;> try (rename_i e; try obtain rfl := congrArg Prod.fst e; try obtain rfl := congrArg Prod.snd e))

@[simp] theorem Dev.nsAnswered_leads {init d : Dev} (p : Nat × Nat) (n : Nat) (step : Nat) (h : init.Leads d) : init.Leads (Dev.nsAnswered d p n step) := by
  unfold Dev.nsAnswered
  repeat' first
    | with_reducible assumption
    | (intro v; refine (fun hv : init.Leads v => ?_) ?_; rotate_left; subst v)
    | (intro v; refine (fun hv : init.Leads v.1 => ?_) ?_; rotate_left; subst v)
    | (intro v; refine (fun hv : init.Leads v.2 => ?_) ?_; rotate_left; subst v)
    | intro _
    | (extract_lets -lift +onlyGivenNames w; revert w)
    | dsimp -zeta -zetaDelta only
    | with_reducible apply Dev.setAttach_leads
    | with_reducible apply Dev.endAttach_leads
    | with_reducible apply Dev.beginStep_leads
    | (simp [*]; done)
    | (split <;> try (rename_i e; try obtain rfl := congrArg Prod.fst e; try obtain rfl := congrArg Prod.snd e))

@[simp] theorem Dev.writeLabel_leads {init d : Dev} (n : Nat) (gen : Nat) (cause : Nat) (h : init.Leads d) : init.Leads (Dev.writeLabel d n gen cause) := by
  unfold Dev.writeLabel
  repeat' first
    | with_reducible assumption
    | (intro v; refine (fun hv : init.Leads v => ?_) ?_; rotate_left; subst v)
    | (intro v; refine (fun hv : init.Leads v.1 => ?_) ?_; rotate_left; subst v)
    | (intro v; refine (fun hv : init.Leads v.2 => ?_) ?_; rotate_left; subst v)
    | intro _
    | (extract_lets -lift +onlyGivenNames w; revert w)
    | dsimp -zeta -zetaDelta only
    | with_reducible apply Dev.emit_leads
    | with_reducible apply Dev.tick_leads
    | with_reducible apply Dev.setNs_leads
    | with_reducible apply Dev.raiseN_leads
    | (simp [*]; done)
    | (split <;> try (rename_i e; try obtain rfl := congrArg Prod.fst e; try obtain rfl := congrArg Prod.snd e))

@[simp] theorem Dev.startAttach_leads {init d : Dev} (n : Nat) (h : init.Leads d) : init.Leads (Dev.startAttach d n) := by
  unfold Dev.startAttach
  repeat' first
    | with_reducible assumption
    | (intro v; refine (fun hv : init.Leads v => ?_) ?_; rotate_left; subst v)
    | (intro v; refine (fun hv : init.Leads v.1 => ?_) ?_; rotate_left; subst v)
    | (intro v; refine (fun hv : init.Leads v.2 => ?_) ?_; rotate_left; subst v)
    | intro _
    | (extract_lets -lift +onlyGivenNames w; revert w)
    | dsimp -zeta -zetaDelta only
    | with_reducible apply Dev.setNs_leads
    | with_reducible apply Dev.setAttach_leads
    | with_reducible apply Dev.beginStep_leads
    | (simp [*]; done)
    | (split <;> try (rename_i e; try obtain rfl := congrArg Prod.fst e; try obtain rfl := congrArg Prod.snd e))

@[simp] theorem Dev.attachAnswer_leads {init d : Dev} (p : Nat × Nat) (n : Nat) (a : Attach) (r : AdminResult) (h : init.Leads d) : init.Leads (Dev.attachAnswer d p n a r) := by
  unfold Dev.attachAnswer
  repeat' first
    | with_reducible assumption
    | (intro v; refine (fun hv : init.Leads v => ?_) ?_; rotate_left; subst v)
    | (intro v; refine (fun hv : init.Leads v.1 => ?_) ?_; rotate_left; subst v)
    | (intro v; refine (fun hv : init.Leads v.2 => ?_) ?_; rotate_left; subst v)
    | intro _
    | (extract_lets -lift +onlyGivenNames w; revert w)
    | dsimp -zeta -zetaDelta only
    | with_reducible apply Dev.setF_leads
    | with_reducible apply Dev.forEach_leads
    | with_reducible apply Dev.setB_leads
    | with_reducible apply Dev.setNs_leads
    | with_reducible apply Dev.raiseN_leads
    | with_reducible apply Dev.nsOnline_leads
    | with_reducible apply Dev.nsRefuse_leads
    | with_reducible apply Dev.setAttach_leads
    | with_reducible apply Dev.beginStep_leads
    | with_reducible apply Dev.refuseAll_leads
    | with_reducible apply Dev.nsAnswered_leads
    | (simp [*]; done)
    | (split <;> try (rename_i e; try obtain rfl := congrArg Prod.fst e; try obtain rfl := congrArg Prod.snd e))

@[simp] theorem Dev.shutdownCtrl_leads {init d : Dev} (p : Nat × Nat) (h : init.Leads d) : init.Leads (Dev.shutdownCtrl d p) := by
  simp [Dev.shutdownCtrl, h]

@[simp] theorem Dev.smartLog_leads {init d : Dev} (p : Nat × Nat) (w : Nat) (used : Nat) (h : init.Leads d) : init.Leads (Dev.smartLog d p w used) := by
  unfold Dev.smartLog
  repeat' first
    | with_reducible assumption
    | (intro v; refine (fun hv : init.Leads v => ?_) ?_; rotate_left; subst v)
    | (intro v; refine (fun hv : init.Leads v.1 => ?_) ?_; rotate_left; subst v)
    | (intro v; refine (fun hv : init.Leads v.2 => ?_) ?_; rotate_left; subst v)
    | intro _
    | (extract_lets -lift +onlyGivenNames w; revert w)
    | dsimp -zeta -zetaDelta only
    | with_reducible apply Dev.setF_leads
    | with_reducible apply Dev.forEach_leads
    | with_reducible apply Dev.raiseN_leads
    | with_reducible apply Dev.ctrlFail_leads
    | (simp [*]; done)
    | (split <;> try (rename_i e; try obtain rfl := congrArg Prod.fst e; try obtain rfl := congrArg Prod.snd e))

theorem execNvmeLinkUp_runs (die port width rate : Nat) (s : State) : s.Runs (execNvmeLinkUp die port width rate s) := by
  unfold execNvmeLinkUp
  refine State.on_runs fun init => ?_
  have h := Dev.Leads.refl init
  repeat' first
    | with_reducible assumption
    | (intro v; refine (fun hv : init.Leads v => ?_) ?_; rotate_left; subst v)
    | intro _
    | (extract_lets -lift +onlyGivenNames w; revert w)
    | with_reducible apply Dev.setF_leads
    | with_reducible apply Dev.forEach_leads
    | with_reducible apply Dev.setB_leads
    | with_reducible apply Dev.setBack_leads
    | with_reducible apply Dev.setNs_leads
    | with_reducible apply Dev.beginStep_leads
    | (simp [*]; done)
    | split

theorem execNvmeLinkDown_runs (die port : Nat) (s : State) : s.Runs (execNvmeLinkDown die port s) := by
  unfold execNvmeLinkDown
  refine State.on_runs fun init => ?_
  have h := Dev.Leads.refl init
  repeat' first
    | with_reducible assumption
    | (intro v; refine (fun hv : init.Leads v => ?_) ?_; rotate_left; subst v)
    | intro _
    | (extract_lets -lift +onlyGivenNames w; revert w)
    | with_reducible apply Dev.setF_leads
    | with_reducible apply Dev.setB_leads
    | with_reducible apply Dev.setBack_leads
    | (simp [*]; done)
    | split

theorem execNvmeLinkDownTimeout_runs (die port : Nat) (s : State) : s.Runs (execNvmeLinkDownTimeout die port s) := by
  unfold execNvmeLinkDownTimeout
  refine State.on_runs fun init => ?_
  have h := Dev.Leads.refl init
  repeat' first
    | with_reducible assumption
    | (intro v; refine (fun hv : init.Leads v => ?_) ?_; rotate_left; subst v)
    | intro _
    | (extract_lets -lift +onlyGivenNames w; revert w)
    | with_reducible apply Dev.setB_leads
    | with_reducible apply Dev.until_leads
    | with_reducible apply Dev.setBack_leads
    | with_reducible apply Dev.ctrlFail_leads
    | with_reducible apply Dev.refuseAll_leads
    | (simp [*]; done)
    | split

theorem execNvmeControllerFatal_runs (die port : Nat) (s : State) : s.Runs (execNvmeControllerFatal die port s) := by
  unfold execNvmeControllerFatal
  refine State.on_runs fun init => ?_
  have h := Dev.Leads.refl init
  repeat' first
    | with_reducible assumption
    | intro _
    | with_reducible apply Dev.ctrlFail_leads
    | (simp [*]; done)
    | split

theorem execNvmeControllerReady_runs (die port : Nat) (ready cssOk pageOk : Bool) (s : State) : s.Runs (execNvmeControllerReady die port ready cssOk pageOk s) := by
  unfold execNvmeControllerReady
  refine State.on_runs fun init => ?_
  have h := Dev.Leads.refl init
  repeat' first
    | with_reducible assumption
    | (intro v; refine (fun hv : init.Leads v => ?_) ?_; rotate_left; subst v)
    | intro _
    | (extract_lets -lift +onlyGivenNames w; revert w)
    | with_reducible apply Dev.beginStep_leads
    | with_reducible apply Dev.refuseAll_leads
    | (simp [*]; done)
    | split

theorem execNvmeAttachLinkTimeout_runs (die port : Nat) (s : State) : s.Runs (execNvmeAttachLinkTimeout die port s) := by
  unfold execNvmeAttachLinkTimeout
  refine State.on_runs fun init => ?_
  have h := Dev.Leads.refl init
  repeat' first
    | with_reducible assumption
    | intro _
    | with_reducible apply Dev.refuseAll_leads
    | (simp [*]; done)
    | split

theorem execNvmeAdminComplete_runs (die port ns : Nat) (result : AdminResult) (s : State) : s.Runs (execNvmeAdminComplete die port ns result s) := by
  unfold execNvmeAdminComplete
  refine State.on_runs fun init => ?_
  have h := Dev.Leads.refl init
  repeat' first
    | with_reducible assumption
    | intro _
    | with_reducible apply Dev.attachAnswer_leads
    | (simp [*]; done)
    | split

theorem execNsAttach_runs (ns : Nat) (s : State) : s.Runs (execNsAttach ns s) := by
  unfold execNsAttach
  refine State.on_runs fun init => ?_
  have h := Dev.Leads.refl init
  repeat' first
    | with_reducible assumption
    | (intro v; refine (fun hv : init.Leads v => ?_) ?_; rotate_left; subst v)
    | intro _
    | (extract_lets -lift +onlyGivenNames w; revert w)
    | with_reducible apply Dev.startAttach_leads
    | (simp [*]; done)
    | split

theorem execNsAdopt_runs (ns : Nat) (s : State) : s.Runs (execNsAdopt ns s) := by
  unfold execNsAdopt
  refine State.on_runs fun init => ?_
  have h := Dev.Leads.refl init
  repeat' first
    | with_reducible assumption
    | intro _
    | with_reducible apply Dev.nsOnline_leads
    | with_reducible apply Dev.writeLabel_leads
    | (simp [*]; done)
    | split

theorem execNsDetach_runs (ns : Nat) (s : State) : s.Runs (execNsDetach ns s) := by
  unfold execNsDetach
  refine State.on_runs fun init => ?_
  have h := Dev.Leads.refl init
  repeat' first
    | with_reducible assumption
    | intro _
    | with_reducible apply Dev.setNs_leads
    | (simp [*]; done)
    | split

theorem execDetachComplete_runs (ns : Nat) (s : State) : s.Runs (execDetachComplete ns s) := by
  unfold execDetachComplete
  refine State.on_runs fun init => ?_
  have h := Dev.Leads.refl init
  repeat' first
    | with_reducible assumption
    | (intro v; refine (fun hv : init.Leads v => ?_) ?_; rotate_left; subst v)
    | intro _
    | (extract_lets -lift +onlyGivenNames w; revert w)
    | with_reducible apply Dev.setNs_leads
    | with_reducible apply Dev.raiseN_leads
    | with_reducible apply Dev.dropCommands_leads
    | with_reducible apply Dev.shutdownCtrl_leads
    | (simp [*]; done)
    | split

theorem execNvmeIoComplete_runs (slab status : Nat) (dnr : Bool) (data : List Line) (errorLog : Nat) (s : State) : s.Runs (execNvmeIoComplete slab status dnr data errorLog s) := by
  unfold execNvmeIoComplete
  refine State.on_runs fun init => ?_
  have h := Dev.Leads.refl init
  repeat' first
    | with_reducible assumption
    | intro _
    | with_reducible apply Dev.ioOutcome_leads
    | (simp [*]; done)
    | split

theorem execNvmeRetry_runs (slab : Nat) (s : State) : s.Runs (execNvmeRetry slab s) := by
  unfold execNvmeRetry
  refine State.on_runs fun init => ?_
  have h := Dev.Leads.refl init
  repeat' first
    | with_reducible assumption
    | intro _
    | with_reducible apply Dev.setBack_leads
    | with_reducible apply Dev.reissue_leads
    | (simp [*]; done)
    | split

theorem execNvmeIoTimeout_runs (slab : Nat) (s : State) : s.Runs (execNvmeIoTimeout slab s) := by
  unfold execNvmeIoTimeout
  refine State.on_runs fun init => ?_
  have h := Dev.Leads.refl init
  repeat' first
    | with_reducible assumption
    | (intro v; refine (fun hv : init.Leads v => ?_) ?_; rotate_left; subst v)
    | intro _
    | (extract_lets -lift +onlyGivenNames w; revert w)
    | with_reducible apply Dev.emit_leads
    | with_reducible apply Dev.tick_leads
    | with_reducible apply Dev.setB_leads
    | with_reducible apply Dev.incF_leads
    | with_reducible apply Dev.setBack_leads
    | with_reducible apply Dev.raiseN_leads
    | with_reducible apply Dev.endCommand_leads
    | with_reducible apply Dev.countFailed_leads
    | (simp [*]; done)
    | split

theorem execControllerResetDone_runs (die port : Nat) (ok : Bool) (s : State) : s.Runs (execControllerResetDone die port ok s) := by
  unfold execControllerResetDone
  refine State.on_runs fun init => ?_
  have h := Dev.Leads.refl init
  repeat' first
    | with_reducible assumption
    | (intro v; refine (fun hv : init.Leads v => ?_) ?_; rotate_left; subst v)
    | intro _
    | (extract_lets -lift +onlyGivenNames w; revert w)
    | with_reducible apply Dev.forEach_leads
    | with_reducible apply Dev.setB_leads
    | with_reducible apply Dev.incF_leads
    | with_reducible apply Dev.raise_leads
    | with_reducible apply Dev.setBack_leads
    | with_reducible apply Dev.reissue_leads
    | with_reducible apply Dev.ctrlFail_leads
    | (simp [*]; done)
    | split

theorem execSmartPoll_runs (die port warning used : Nat) (s : State) : s.Runs (execSmartPoll die port warning used s) := by
  unfold execSmartPoll
  refine State.on_runs fun init => ?_
  have h := Dev.Leads.refl init
  repeat' first
    | with_reducible assumption
    | intro _
    | with_reducible apply Dev.emit_leads
    | with_reducible apply Dev.smartLog_leads
    | (simp [*]; done)
    | split

end Sys2Proof.Machine
end

