-- ==== Sys2Proof/Laws/LeadsChannels.lean ====
section
/-! SUPPORT. What the DRAM channels and their training never break (Leads), one lemma a function; each command runs (Runs), one lemma a command. -/

namespace Sys2Proof.Machine

open Sys2Proof

set_option linter.tactic.unusedName false
set_option linter.unusedTactic false
set_option linter.unreachableTactic false
set_option linter.unusedSimpArgs false
set_option linter.unusedVariables false

@[simp] theorem Dev.setChan_leads {init d : Dev} (die : Nat) (c : Nat) (x : Chan) (h : init.Leads d) : init.Leads (Dev.setChan d die c x) := by
  simp [Dev.setChan, h]

@[simp] theorem Dev.modChan_leads {init d : Dev} (die : Nat) (c : Nat) (f : Chan → Chan) (h : init.Leads d) : init.Leads (Dev.modChan d die c f) := by
  simp [Dev.modChan, h]

@[simp] theorem Dev.issue_leads {init d : Dev} (die : Nat) (c : Nat) (cmd : Nat) (rank : Nat) (bank : Nat) (row : Nat) (line : Nat) (source : Nat) (req : Option CReq) (h : init.Leads d) : init.Leads (Dev.issue d die c cmd rank bank row line source req) := by
  simp [Dev.issue, h]

@[simp] theorem Dev.preAll_leads {init d : Dev} (die : Nat) (c : Nat) (rank : Nat) (h : init.Leads d) : init.Leads (Dev.preAll d die c rank) := by
  simp [Dev.preAll, h]

@[simp] theorem Dev.oneRefresh_leads {init d : Dev} (die : Nat) (c : Nat) (rank : Nat) (h : init.Leads d) : init.Leads (Dev.oneRefresh d die c rank) := by
  unfold Dev.oneRefresh
  repeat' first
    | with_reducible assumption
    | (intro v; refine (fun hv : init.Leads v => ?_) ?_; rotate_left; subst v)
    | (intro v; refine (fun hv : init.Leads v.1 => ?_) ?_; rotate_left; subst v)
    | (intro v; refine (fun hv : init.Leads v.2 => ?_) ?_; rotate_left; subst v)
    | intro _
    | (extract_lets -lift +onlyGivenNames w; revert w)
    | dsimp -zeta -zetaDelta only
    | with_reducible apply Dev.setF_leads
    | with_reducible apply Dev.forEach_leads
    | with_reducible apply Dev.modChan_leads
    | with_reducible apply Dev.issue_leads
    | (simp [*]; done)
    | (split <;> try (rename_i e; try obtain rfl := congrArg Prod.fst e; try obtain rfl := congrArg Prod.snd e))

@[simp] theorem Dev.issueOwed_leads {init d : Dev} (die : Nat) (c : Nat) (rank : Nat) (h : init.Leads d) : init.Leads (Dev.issueOwed d die c rank) := by
  unfold Dev.issueOwed
  repeat' first
    | with_reducible assumption
    | (intro v; refine (fun hv : init.Leads v => ?_) ?_; rotate_left; subst v)
    | (intro v; refine (fun hv : init.Leads v.1 => ?_) ?_; rotate_left; subst v)
    | (intro v; refine (fun hv : init.Leads v.2 => ?_) ?_; rotate_left; subst v)
    | intro _
    | (extract_lets -lift +onlyGivenNames w; revert w)
    | dsimp -zeta -zetaDelta only
    | with_reducible apply Dev.forEach_leads
    | with_reducible apply Dev.modChan_leads
    | with_reducible apply Dev.preAll_leads
    | with_reducible apply Dev.oneRefresh_leads
    | (simp [*]; done)
    | (split <;> try (rename_i e; try obtain rfl := congrArg Prod.fst e; try obtain rfl := congrArg Prod.snd e))

@[simp] theorem Dev.issueRfm_leads {init d : Dev} (die : Nat) (c : Nat) (rank : Nat) (bank : Nat) (h : init.Leads d) : init.Leads (Dev.issueRfm d die c rank bank) := by
  unfold Dev.issueRfm
  repeat' first
    | with_reducible assumption
    | (intro v; refine (fun hv : init.Leads v => ?_) ?_; rotate_left; subst v)
    | (intro v; refine (fun hv : init.Leads v.1 => ?_) ?_; rotate_left; subst v)
    | (intro v; refine (fun hv : init.Leads v.2 => ?_) ?_; rotate_left; subst v)
    | intro _
    | (extract_lets -lift +onlyGivenNames w; revert w)
    | dsimp -zeta -zetaDelta only
    | with_reducible apply Dev.incF_leads
    | with_reducible apply Dev.modChan_leads
    | with_reducible apply Dev.issue_leads
    | (simp [*]; done)
    | (split <;> try (rename_i e; try obtain rfl := congrArg Prod.fst e; try obtain rfl := congrArg Prod.snd e))

@[simp] theorem Dev.idleRefresh_leads {init d : Dev} (die : Nat) (c : Nat) (rank : Nat) (h : init.Leads d) : init.Leads (Dev.idleRefresh d die c rank) := by
  simp [Dev.idleRefresh, h]

@[simp] theorem Dev.refreshDue_leads {init d : Dev} (die : Nat) (c : Nat) (rank : Nat) (h : init.Leads d) : init.Leads (Dev.refreshDue d die c rank) := by
  unfold Dev.refreshDue
  repeat' first
    | with_reducible assumption
    | (intro v; refine (fun hv : init.Leads v => ?_) ?_; rotate_left; subst v)
    | (intro v; refine (fun hv : init.Leads v.1 => ?_) ?_; rotate_left; subst v)
    | (intro v; refine (fun hv : init.Leads v.2 => ?_) ?_; rotate_left; subst v)
    | intro _
    | (extract_lets -lift +onlyGivenNames w; revert w)
    | dsimp -zeta -zetaDelta only
    | with_reducible apply Dev.setF_leads
    | with_reducible apply Dev.modChan_leads
    | with_reducible apply Dev.issueOwed_leads
    | (simp [*]; done)
    | (split <;> try (rename_i e; try obtain rfl := congrArg Prod.fst e; try obtain rfl := congrArg Prod.snd e))

@[simp] theorem Dev.showThrottled_leads {init d : Dev} (die : Nat) (c : Nat) (h : init.Leads d) : init.Leads (Dev.showThrottled d die c) := by
  simp [Dev.showThrottled, h]

@[simp] theorem Dev.rhTrigger_leads {init d : Dev} (die : Nat) (c : Nat) (rank : Nat) (bank : Nat) (row : Nat) (h : init.Leads d) : init.Leads (Dev.rhTrigger d die c rank bank row) := by
  unfold Dev.rhTrigger
  repeat' first
    | with_reducible assumption
    | (intro v; refine (fun hv : init.Leads v => ?_) ?_; rotate_left; subst v)
    | (intro v; refine (fun hv : init.Leads v.1 => ?_) ?_; rotate_left; subst v)
    | (intro v; refine (fun hv : init.Leads v.2 => ?_) ?_; rotate_left; subst v)
    | intro _
    | (extract_lets -lift +onlyGivenNames w; revert w)
    | dsimp -zeta -zetaDelta only
    | with_reducible apply Dev.incF_leads
    | with_reducible apply Dev.raise_leads
    | with_reducible apply Dev.modChan_leads
    | with_reducible apply Dev.showThrottled_leads
    | (simp [*]; done)
    | (split <;> try (rename_i e; try obtain rfl := congrArg Prod.fst e; try obtain rfl := congrArg Prod.snd e))

@[simp] theorem Dev.activate_leads {init d : Dev} (die : Nat) (c : Nat) (r : CReq) (h : init.Leads d) : init.Leads (Dev.activate d die c r) := by
  unfold Dev.activate
  repeat' first
    | with_reducible assumption
    | (intro v; refine (fun hv : init.Leads v => ?_) ?_; rotate_left; subst v)
    | (intro v; refine (fun hv : init.Leads v.1 => ?_) ?_; rotate_left; subst v)
    | (intro v; refine (fun hv : init.Leads v.2 => ?_) ?_; rotate_left; subst v)
    | intro _
    | (extract_lets -lift +onlyGivenNames w; revert w)
    | dsimp -zeta -zetaDelta only
    | with_reducible apply Dev.modChan_leads
    | with_reducible apply Dev.issue_leads
    | with_reducible apply Dev.rhTrigger_leads
    | (simp [*]; done)
    | (split <;> try (rename_i e; try obtain rfl := congrArg Prod.fst e; try obtain rfl := congrArg Prod.snd e))

@[simp] theorem Dev.pressure_leads {init d : Dev} (die : Nat) (c : Nat) (r : Nat) (p : Nat) (h : init.Leads d) : init.Leads (Dev.pressure d die c r p) := by
  unfold Dev.pressure
  repeat' first
    | with_reducible assumption
    | (intro v; refine (fun hv : init.Leads v => ?_) ?_; rotate_left; subst v)
    | (intro v; refine (fun hv : init.Leads v.1 => ?_) ?_; rotate_left; subst v)
    | (intro v; refine (fun hv : init.Leads v.2 => ?_) ?_; rotate_left; subst v)
    | intro _
    | (extract_lets -lift +onlyGivenNames w; revert w)
    | dsimp -zeta -zetaDelta only
    | with_reducible apply Dev.modChan_leads
    | (simp [*]; done)
    | (split <;> try (rename_i e; try obtain rfl := congrArg Prod.fst e; try obtain rfl := congrArg Prod.snd e))

@[simp] theorem Dev.takeHeld_leads {init d : Dev} (die : Nat) (c : Nat) (h : init.Leads d) : init.Leads (Dev.takeHeld d die c) := by
  unfold Dev.takeHeld
  repeat' first
    | with_reducible assumption
    | (intro v; refine (fun hv : init.Leads v => ?_) ?_; rotate_left; subst v)
    | (intro v; refine (fun hv : init.Leads v.1 => ?_) ?_; rotate_left; subst v)
    | (intro v; refine (fun hv : init.Leads v.2 => ?_) ?_; rotate_left; subst v)
    | intro _
    | (extract_lets -lift +onlyGivenNames w; revert w)
    | dsimp -zeta -zetaDelta only
    | with_reducible apply Dev.modChan_leads
    | with_reducible apply Dev.leads_foldl
    | (simp [*]; done)
    | (split <;> try (rename_i e; try obtain rfl := congrArg Prod.fst e; try obtain rfl := congrArg Prod.snd e))

@[simp] theorem Dev.chanRequest_leads {init d : Dev} (die : Nat) (c : Nat) (q : ChanReq) (h : init.Leads d) : init.Leads (Dev.chanRequest d die c q) := by
  unfold Dev.chanRequest
  repeat' first
    | with_reducible assumption
    | (intro v; refine (fun hv : init.Leads v => ?_) ?_; rotate_left; subst v)
    | (intro v; refine (fun hv : init.Leads v.1 => ?_) ?_; rotate_left; subst v)
    | (intro v; refine (fun hv : init.Leads v.2 => ?_) ?_; rotate_left; subst v)
    | intro _
    | (extract_lets -lift +onlyGivenNames w; revert w)
    | dsimp -zeta -zetaDelta only
    | with_reducible apply Dev.emit_leads
    | with_reducible apply Dev.modChan_leads
    | with_reducible apply Dev.pressure_leads
    | with_reducible apply Dev.takeHeld_leads
    | (simp [*]; done)
    | (split <;> try (rename_i e; try obtain rfl := congrArg Prod.fst e; try obtain rfl := congrArg Prod.snd e))

@[simp] theorem Dev.makeUrgent_leads {init d : Dev} (die : Nat) (c : Nat) (r : CReq) (h : init.Leads d) : init.Leads (Dev.makeUrgent d die c r) := by
  unfold Dev.makeUrgent
  repeat' first
    | with_reducible assumption
    | (intro v; refine (fun hv : init.Leads v => ?_) ?_; rotate_left; subst v)
    | (intro v; refine (fun hv : init.Leads v.1 => ?_) ?_; rotate_left; subst v)
    | (intro v; refine (fun hv : init.Leads v.2 => ?_) ?_; rotate_left; subst v)
    | intro _
    | (extract_lets -lift +onlyGivenNames w; revert w)
    | dsimp -zeta -zetaDelta only
    | with_reducible apply Dev.addF_leads
    | with_reducible apply Dev.modChan_leads
    | (simp [*]; done)
    | (split <;> try (rename_i e; try obtain rfl := congrArg Prod.fst e; try obtain rfl := congrArg Prod.snd e))

@[simp] theorem Dev.repeatCheck_leads {init d : Dev} (die : Nat) (c : Nat) (h : init.Leads d) : init.Leads (Dev.repeatCheck d die c) := by
  unfold Dev.repeatCheck
  repeat' first
    | with_reducible assumption
    | (intro v; refine (fun hv : init.Leads v => ?_) ?_; rotate_left; subst v)
    | (intro v; refine (fun hv : init.Leads v.1 => ?_) ?_; rotate_left; subst v)
    | (intro v; refine (fun hv : init.Leads v.2 => ?_) ?_; rotate_left; subst v)
    | intro _
    | (extract_lets -lift +onlyGivenNames w; revert w)
    | dsimp -zeta -zetaDelta only
    | with_reducible apply Dev.incF_leads
    | with_reducible apply Dev.raise_leads
    | with_reducible apply Dev.modChan_leads
    | (simp [*]; done)
    | (split <;> try (rename_i e; try obtain rfl := congrArg Prod.fst e; try obtain rfl := congrArg Prod.snd e))

@[simp] theorem Dev.column_leads {init d : Dev} (die : Nat) (c : Nat) (r : CReq) (byPanic : Bool) (h : init.Leads d) : init.Leads (Dev.column d die c r byPanic) := by
  unfold Dev.column
  repeat' first
    | with_reducible assumption
    | (intro v; refine (fun hv : init.Leads v => ?_) ?_; rotate_left; subst v)
    | (intro v; refine (fun hv : init.Leads v.1 => ?_) ?_; rotate_left; subst v)
    | (intro v; refine (fun hv : init.Leads v.2 => ?_) ?_; rotate_left; subst v)
    | intro _
    | (extract_lets -lift +onlyGivenNames w; revert w)
    | dsimp -zeta -zetaDelta only
    | with_reducible apply Dev.emit_leads
    | with_reducible apply Dev.when_leads
    | with_reducible apply Dev.incF_leads
    | with_reducible apply Dev.modChan_leads
    | with_reducible apply Dev.issue_leads
    | with_reducible apply Dev.idleRefresh_leads
    | with_reducible apply Dev.takeHeld_leads
    | with_reducible apply Dev.repeatCheck_leads
    | (simp [*]; done)
    | (split <;> try (rename_i e; try obtain rfl := congrArg Prod.fst e; try obtain rfl := congrArg Prod.snd e))

@[simp] theorem Dev.maintenance_leads {init d : Dev} (die : Nat) (c : Nat) (h : init.Leads d) : init.LeadsO (Dev.maintenance d die c) := by
  unfold Dev.maintenance
  repeat' first
    | with_reducible assumption
    | (intro v; refine (fun hv : init.Leads v => ?_) ?_; rotate_left; subst v)
    | (intro v; refine (fun hv : init.Leads v.1 => ?_) ?_; rotate_left; subst v)
    | (intro v; refine (fun hv : init.Leads v.2 => ?_) ?_; rotate_left; subst v)
    | intro _
    | (extract_lets -lift +onlyGivenNames w; revert w)
    | dsimp -zeta -zetaDelta only
    | with_reducible apply Dev.modChan_leads
    | with_reducible apply Dev.preAll_leads
    | with_reducible apply Dev.oneRefresh_leads
    | with_reducible apply Dev.issueRfm_leads
    | with_reducible apply Dev.leadsO_some
    | with_reducible apply Dev.leadsO_none
    | with_reducible apply Dev.leadsO_map
    | (simp [*]; done)
    | (split <;> try (rename_i e; try obtain rfl := congrArg Prod.fst e; try obtain rfl := congrArg Prod.snd e))

@[simp] theorem Dev.slot_leads {init d : Dev} (die : Nat) (c : Nat) (illegal : List Nat) (maintenance : Bool) (pressure : Nat) (h : init.Leads d) : init.Leads (Dev.slot d die c illegal maintenance pressure) := by
  unfold Dev.slot
  repeat' first
    | with_reducible assumption
    | (intro v; refine (fun hv : init.Leads v => ?_) ?_; rotate_left; subst v)
    | (intro v; refine (fun hv : init.Leads v.1 => ?_) ?_; rotate_left; subst v)
    | (intro v; refine (fun hv : init.Leads v.2 => ?_) ?_; rotate_left; subst v)
    | intro _
    | (extract_lets -lift +onlyGivenNames w; revert w)
    | dsimp -zeta -zetaDelta only
    | with_reducible apply Dev.setB_leads
    | with_reducible apply Dev.modChan_leads
    | with_reducible apply Dev.issue_leads
    | with_reducible apply Dev.activate_leads
    | with_reducible apply Dev.pressure_leads
    | with_reducible apply Dev.column_leads
    | with_reducible apply Dev.maintenance_leads
    | refine Dev.LeadsO.of_some ?_ ‹_ = some _›
    | with_reducible apply Dev.leadsO_some
    | with_reducible apply Dev.leadsO_none
    | (simp [*]; done)
    | (split <;> try (rename_i e; try obtain rfl := congrArg Prod.fst e; try obtain rfl := congrArg Prod.snd e))

@[simp] theorem Dev.pprAdd_leads {init d : Dev} (die : Nat) (c : Nat) (rank : Nat) (bank : Nat) (row : Nat) (h : init.Leads d) : init.Leads (Dev.pprAdd d die c rank bank row) := by
  unfold Dev.pprAdd
  repeat' first
    | with_reducible assumption
    | (intro v; refine (fun hv : init.Leads v => ?_) ?_; rotate_left; subst v)
    | (intro v; refine (fun hv : init.Leads v.1 => ?_) ?_; rotate_left; subst v)
    | (intro v; refine (fun hv : init.Leads v.2 => ?_) ?_; rotate_left; subst v)
    | intro _
    | (extract_lets -lift +onlyGivenNames w; revert w)
    | dsimp -zeta -zetaDelta only
    | with_reducible apply Dev.incF_leads
    | with_reducible apply Dev.raise_leads
    | with_reducible apply Dev.counterRecord_leads
    | (simp [*]; done)
    | (split <;> try (rename_i e; try obtain rfl := congrArg Prod.fst e; try obtain rfl := congrArg Prod.snd e))

@[simp] theorem Dev.logAdd_leads {init d : Dev} (die : Nat) (c : Nat) (e : LogEntry) (h : init.Leads d) : init.Leads (Dev.logAdd d die c e) := by
  unfold Dev.logAdd
  repeat' first
    | with_reducible assumption
    | (intro v; refine (fun hv : init.Leads v => ?_) ?_; rotate_left; subst v)
    | (intro v; refine (fun hv : init.Leads v.1 => ?_) ?_; rotate_left; subst v)
    | (intro v; refine (fun hv : init.Leads v.2 => ?_) ?_; rotate_left; subst v)
    | intro _
    | (extract_lets -lift +onlyGivenNames w; revert w)
    | dsimp -zeta -zetaDelta only
    | with_reducible apply Dev.setF_leads
    | with_reducible apply Dev.setB_leads
    | with_reducible apply Dev.modChan_leads
    | (simp [*]; done)
    | (split <;> try (rename_i e; try obtain rfl := congrArg Prod.fst e; try obtain rfl := congrArg Prod.snd e))

@[simp] theorem Dev.correctedBeat_leads {init d : Dev} (die : Nat) (c : Nat) (r : CReq) (beat : Nat) (symbol : Nat) (syndrome : Nat) (h : init.Leads d) : init.Leads (Dev.correctedBeat d die c r beat symbol syndrome) := by
  unfold Dev.correctedBeat
  repeat' first
    | with_reducible assumption
    | (intro v; refine (fun hv : init.Leads v => ?_) ?_; rotate_left; subst v)
    | (intro v; refine (fun hv : init.Leads v.1 => ?_) ?_; rotate_left; subst v)
    | (intro v; refine (fun hv : init.Leads v.2 => ?_) ?_; rotate_left; subst v)
    | intro _
    | (extract_lets -lift +onlyGivenNames w; revert w)
    | dsimp -zeta -zetaDelta only
    | with_reducible apply Dev.incF_leads
    | with_reducible apply Dev.modChan_leads
    | with_reducible apply Dev.pprAdd_leads
    | with_reducible apply Dev.logAdd_leads
    | (simp [*]; done)
    | (split <;> try (rename_i e; try obtain rfl := congrArg Prod.fst e; try obtain rfl := congrArg Prod.snd e))

@[simp] theorem Dev.correctedBeats_leads {init d : Dev} (die : Nat) (c : Nat) (r : CReq) (beats : List Beat) (h : init.Leads d) : init.Leads (Dev.correctedBeats d die c r beats) := by
  unfold Dev.correctedBeats
  repeat' first
    | with_reducible assumption
    | (intro v; refine (fun hv : init.Leads v => ?_) ?_; rotate_left; subst v)
    | (intro v; refine (fun hv : init.Leads v.1 => ?_) ?_; rotate_left; subst v)
    | (intro v; refine (fun hv : init.Leads v.2 => ?_) ?_; rotate_left; subst v)
    | intro _
    | (extract_lets -lift +onlyGivenNames w; revert w)
    | dsimp -zeta -zetaDelta only
    | with_reducible apply Dev.forEach_leads
    | with_reducible apply Dev.correctedBeat_leads
    | (simp [*]; done)
    | (split <;> try (rename_i e; try obtain rfl := congrArg Prod.fst e; try obtain rfl := congrArg Prod.snd e))

@[simp] theorem Dev.queueRewrite_leads {init d : Dev} (die : Nat) (c : Nat) (r : CReq) (h : init.Leads d) : init.Leads (Dev.queueRewrite d die c r) := by
  simp [Dev.queueRewrite, h]

@[simp] theorem Dev.restoreLkg_leads {init d : Dev} (die : Nat) (c : Nat) (rank : Nat) (h : init.Leads d) : init.Leads (Dev.restoreLkg d die c rank) := by
  simp [Dev.restoreLkg, h]

@[simp] theorem Dev.endStep_leads {init d : Dev} (die : Nat) (c : Nat) (result : Nat) (us : Nat) (h : init.Leads d) : init.Leads (Dev.endStep d die c result us) := by
  unfold Dev.endStep
  repeat' first
    | with_reducible assumption
    | (intro v; refine (fun hv : init.Leads v => ?_) ?_; rotate_left; subst v)
    | (intro v; refine (fun hv : init.Leads v.1 => ?_) ?_; rotate_left; subst v)
    | (intro v; refine (fun hv : init.Leads v.2 => ?_) ?_; rotate_left; subst v)
    | intro _
    | (extract_lets -lift +onlyGivenNames w; revert w)
    | dsimp -zeta -zetaDelta only
    | with_reducible apply Dev.setF_leads
    | with_reducible apply Dev.setB_leads
    | with_reducible apply Dev.modChan_leads
    | (simp [*]; done)
    | (split <;> try (rename_i e; try obtain rfl := congrArg Prod.fst e; try obtain rfl := congrArg Prod.snd e))

@[simp] theorem Dev.failCycle_leads {init d : Dev} (die : Nat) (c : Nat) (h : init.Leads d) : init.Leads (Dev.failCycle d die c) := by
  unfold Dev.failCycle
  repeat' first
    | with_reducible assumption
    | (intro v; refine (fun hv : init.Leads v => ?_) ?_; rotate_left; subst v)
    | (intro v; refine (fun hv : init.Leads v.1 => ?_) ?_; rotate_left; subst v)
    | (intro v; refine (fun hv : init.Leads v.2 => ?_) ?_; rotate_left; subst v)
    | intro _
    | (extract_lets -lift +onlyGivenNames w; revert w)
    | dsimp -zeta -zetaDelta only
    | with_reducible apply Dev.setF_leads
    | with_reducible apply Dev.incF_leads
    | with_reducible apply Dev.modChan_leads
    | with_reducible apply Dev.restoreLkg_leads
    | (simp [*]; done)
    | (split <;> try (rename_i e; try obtain rfl := congrArg Prod.fst e; try obtain rfl := congrArg Prod.snd e))

@[simp] theorem Dev.abortStep_leads {init d : Dev} (die : Nat) (c : Nat) (cause : Nat) (h : init.Leads d) : init.Leads (Dev.abortStep d die c cause) := by
  unfold Dev.abortStep
  repeat' first
    | with_reducible assumption
    | (intro v; refine (fun hv : init.Leads v => ?_) ?_; rotate_left; subst v)
    | (intro v; refine (fun hv : init.Leads v.1 => ?_) ?_; rotate_left; subst v)
    | (intro v; refine (fun hv : init.Leads v.2 => ?_) ?_; rotate_left; subst v)
    | intro _
    | (extract_lets -lift +onlyGivenNames w; revert w)
    | dsimp -zeta -zetaDelta only
    | with_reducible apply Dev.raise_leads
    | with_reducible apply Dev.modChan_leads
    | with_reducible apply Dev.restoreLkg_leads
    | with_reducible apply Dev.endStep_leads
    | with_reducible apply Dev.failCycle_leads
    | (simp [*]; done)
    | (split <;> try (rename_i e; try obtain rfl := congrArg Prod.fst e; try obtain rfl := congrArg Prod.snd e))

@[simp] theorem Dev.trnTrigger_leads {init d : Dev} (die : Nat) (c : Nat) (rank : Nat) (cause : Nat) (h : init.Leads d) : init.Leads (Dev.trnTrigger d die c rank cause) := by
  unfold Dev.trnTrigger
  repeat' first
    | with_reducible assumption
    | (intro v; refine (fun hv : init.Leads v => ?_) ?_; rotate_left; subst v)
    | (intro v; refine (fun hv : init.Leads v.1 => ?_) ?_; rotate_left; subst v)
    | (intro v; refine (fun hv : init.Leads v.2 => ?_) ?_; rotate_left; subst v)
    | intro _
    | (extract_lets -lift +onlyGivenNames w; revert w)
    | dsimp -zeta -zetaDelta only
    | with_reducible apply Dev.setF_leads
    | with_reducible apply Dev.setB_leads
    | (simp [*]; done)
    | (split <;> try (rename_i e; try obtain rfl := congrArg Prod.fst e; try obtain rfl := congrArg Prod.snd e))

@[simp] theorem Dev.freeze_leads {init d : Dev} (die : Nat) (c : Nat) (cause : Nat) (h : init.Leads d) : init.Leads (Dev.freeze d die c cause) := by
  unfold Dev.freeze
  repeat' first
    | with_reducible assumption
    | (intro v; refine (fun hv : init.Leads v => ?_) ?_; rotate_left; subst v)
    | (intro v; refine (fun hv : init.Leads v.1 => ?_) ?_; rotate_left; subst v)
    | (intro v; refine (fun hv : init.Leads v.2 => ?_) ?_; rotate_left; subst v)
    | intro _
    | (extract_lets -lift +onlyGivenNames w; revert w)
    | dsimp -zeta -zetaDelta only
    | with_reducible apply Dev.setF_leads
    | with_reducible apply Dev.emits_leads
    | with_reducible apply Dev.incF_leads
    | with_reducible apply Dev.raise_leads
    | with_reducible apply Dev.modChan_leads
    | with_reducible apply Dev.abortStep_leads
    | (simp [*]; done)
    | (split <;> try (rename_i e; try obtain rfl := congrArg Prod.fst e; try obtain rfl := congrArg Prod.snd e))

@[simp] theorem Dev.thaw_leads {init d : Dev} (die : Nat) (c : Nat) (cause : Nat) (h : init.Leads d) : init.Leads (Dev.thaw d die c cause) := by
  unfold Dev.thaw
  repeat' first
    | with_reducible assumption
    | (intro v; refine (fun hv : init.Leads v => ?_) ?_; rotate_left; subst v)
    | (intro v; refine (fun hv : init.Leads v.1 => ?_) ?_; rotate_left; subst v)
    | (intro v; refine (fun hv : init.Leads v.2 => ?_) ?_; rotate_left; subst v)
    | intro _
    | (extract_lets -lift +onlyGivenNames w; revert w)
    | dsimp -zeta -zetaDelta only
    | with_reducible apply Dev.setF_leads
    | with_reducible apply Dev.forEach_leads
    | with_reducible apply Dev.raise_leads
    | with_reducible apply Dev.modChan_leads
    | with_reducible apply Dev.issue_leads
    | with_reducible apply Dev.preAll_leads
    | with_reducible apply Dev.issueOwed_leads
    | (simp [*]; done)
    | (split <;> try (rename_i e; try obtain rfl := congrArg Prod.fst e; try obtain rfl := congrArg Prod.snd e))

@[simp] theorem Dev.ownerActs_leads {init d : Dev} (die : Nat) (c : Nat) (rank : Nat) (bank : Nat) (row : Nat) (line : Nat) (h : init.Leads d) : init.Leads (Dev.ownerActs d die c rank bank row line) := by
  unfold Dev.ownerActs
  repeat' first
    | with_reducible assumption
    | (intro v; refine (fun hv : init.Leads v => ?_) ?_; rotate_left; subst v)
    | (intro v; refine (fun hv : init.Leads v.1 => ?_) ?_; rotate_left; subst v)
    | (intro v; refine (fun hv : init.Leads v.2 => ?_) ?_; rotate_left; subst v)
    | intro _
    | (extract_lets -lift +onlyGivenNames w; revert w)
    | dsimp -zeta -zetaDelta only
    | with_reducible apply Dev.modTag_leads
    | with_reducible apply Dev.raiseC_leads
    | with_reducible apply Dev.issueFill_leads
    | with_reducible apply Dev.poisonSector_leads
    | with_reducible apply Dev.recover_leads
    | with_reducible apply Dev.startRebuild_leads
    | (simp [*]; done)
    | (split <;> try (rename_i e; try obtain rfl := congrArg Prod.fst e; try obtain rfl := congrArg Prod.snd e))

@[simp] theorem Dev.dataError_leads {init d : Dev} (die : Nat) (c : Nat) (r : CReq) (beats : List Beat) (scrub : Bool) (h : init.Leads d) : init.Leads (Dev.dataError d die c r beats scrub) := by
  unfold Dev.dataError
  repeat' first
    | with_reducible assumption
    | (intro v; refine (fun hv : init.Leads v => ?_) ?_; rotate_left; subst v)
    | (intro v; refine (fun hv : init.Leads v.1 => ?_) ?_; rotate_left; subst v)
    | (intro v; refine (fun hv : init.Leads v.2 => ?_) ?_; rotate_left; subst v)
    | intro _
    | (extract_lets -lift +onlyGivenNames w; revert w)
    | dsimp -zeta -zetaDelta only
    | with_reducible apply Dev.emit_leads
    | with_reducible apply Dev.when_leads
    | with_reducible apply Dev.incF_leads
    | with_reducible apply Dev.raise_leads
    | with_reducible apply Dev.modChan_leads
    | with_reducible apply Dev.pprAdd_leads
    | with_reducible apply Dev.logAdd_leads
    | with_reducible apply Dev.freeze_leads
    | with_reducible apply Dev.thaw_leads
    | with_reducible apply Dev.ownerActs_leads
    | (simp [*]; done)
    | (split <;> try (rename_i e; try obtain rfl := congrArg Prod.fst e; try obtain rfl := congrArg Prod.snd e))

@[simp] theorem Dev.readDecode_leads {init d : Dev} (die : Nat) (c : Nat) (id : Nat) (beats : List Beat) (h : init.Leads d) : init.Leads (Dev.readDecode d die c id beats) := by
  unfold Dev.readDecode
  repeat' first
    | with_reducible assumption
    | (intro v; refine (fun hv : init.Leads v => ?_) ?_; rotate_left; subst v)
    | (intro v; refine (fun hv : init.Leads v.1 => ?_) ?_; rotate_left; subst v)
    | (intro v; refine (fun hv : init.Leads v.2 => ?_) ?_; rotate_left; subst v)
    | intro _
    | (extract_lets -lift +onlyGivenNames w; revert w)
    | dsimp -zeta -zetaDelta only
    | with_reducible apply Dev.emit_leads
    | with_reducible apply Dev.when_leads
    | with_reducible apply Dev.incF_leads
    | with_reducible apply Dev.modChan_leads
    | with_reducible apply Dev.correctedBeats_leads
    | with_reducible apply Dev.queueRewrite_leads
    | with_reducible apply Dev.thaw_leads
    | with_reducible apply Dev.dataError_leads
    | (simp [*]; done)
    | (split <;> try (rename_i e; try obtain rfl := congrArg Prod.fst e; try obtain rfl := congrArg Prod.snd e))

@[simp] theorem Dev.commandError_leads {init d : Dev} (die : Nat) (c : Nat) (dimm : Nat) (rs : List CReq) (h : init.Leads d) : init.Leads (Dev.commandError d die c dimm rs) := by
  unfold Dev.commandError
  repeat' first
    | with_reducible assumption
    | (intro v; refine (fun hv : init.Leads v => ?_) ?_; rotate_left; subst v)
    | (intro v; refine (fun hv : init.Leads v.1 => ?_) ?_; rotate_left; subst v)
    | (intro v; refine (fun hv : init.Leads v.2 => ?_) ?_; rotate_left; subst v)
    | intro _
    | (extract_lets -lift +onlyGivenNames w; revert w)
    | dsimp -zeta -zetaDelta only
    | with_reducible apply Dev.emits_leads
    | with_reducible apply Dev.incF_leads
    | with_reducible apply Dev.raise_leads
    | with_reducible apply Dev.modChan_leads
    | with_reducible apply Dev.logAdd_leads
    | with_reducible apply Dev.freeze_leads
    | (simp [*]; done)
    | (split <;> try (rename_i e; try obtain rfl := congrArg Prod.fst e; try obtain rfl := congrArg Prod.snd e))

@[simp] theorem Dev.caAlert_leads {init d : Dev} (die : Nat) (c : Nat) (dimm : Nat) (failed : Nat) (h : init.Leads d) : init.Leads (Dev.caAlert d die c dimm failed) := by
  unfold Dev.caAlert
  repeat' first
    | with_reducible assumption
    | (intro v; refine (fun hv : init.Leads v => ?_) ?_; rotate_left; subst v)
    | (intro v; refine (fun hv : init.Leads v.1 => ?_) ?_; rotate_left; subst v)
    | (intro v; refine (fun hv : init.Leads v.2 => ?_) ?_; rotate_left; subst v)
    | intro _
    | (extract_lets -lift +onlyGivenNames w; revert w)
    | dsimp -zeta -zetaDelta only
    | with_reducible apply Dev.modChan_leads
    | with_reducible apply Dev.logAdd_leads
    | with_reducible apply Dev.commandError_leads
    | with_reducible apply Dev.leads_foldl
    | (simp [*]; done)
    | (split <;> try (rename_i e; try obtain rfl := congrArg Prod.fst e; try obtain rfl := congrArg Prod.snd e))

@[simp] theorem Dev.alertHigh_leads {init d : Dev} (die : Nat) (c : Nat) (h : init.Leads d) : init.Leads (Dev.alertHigh d die c) := by
  unfold Dev.alertHigh
  repeat' first
    | with_reducible assumption
    | (intro v; refine (fun hv : init.Leads v => ?_) ?_; rotate_left; subst v)
    | (intro v; refine (fun hv : init.Leads v.1 => ?_) ?_; rotate_left; subst v)
    | (intro v; refine (fun hv : init.Leads v.2 => ?_) ?_; rotate_left; subst v)
    | intro _
    | (extract_lets -lift +onlyGivenNames w; revert w)
    | dsimp -zeta -zetaDelta only
    | with_reducible apply Dev.forEach_leads
    | with_reducible apply Dev.modChan_leads
    | with_reducible apply Dev.preAll_leads
    | with_reducible apply Dev.repeatCheck_leads
    | (simp [*]; done)
    | (split <;> try (rename_i e; try obtain rfl := congrArg Prod.fst e; try obtain rfl := congrArg Prod.snd e))

@[simp] theorem Dev.showRefresh_leads {init d : Dev} (die : Nat) (c : Nat) (h : init.Leads d) : init.Leads (Dev.showRefresh d die c) := by
  unfold Dev.showRefresh
  repeat' first
    | with_reducible assumption
    | (intro v; refine (fun hv : init.Leads v => ?_) ?_; rotate_left; subst v)
    | (intro v; refine (fun hv : init.Leads v.1 => ?_) ?_; rotate_left; subst v)
    | (intro v; refine (fun hv : init.Leads v.2 => ?_) ?_; rotate_left; subst v)
    | intro _
    | (extract_lets -lift +onlyGivenNames w; revert w)
    | dsimp -zeta -zetaDelta only
    | with_reducible apply Dev.setB_leads
    | (simp [*]; done)
    | (split <;> try (rename_i e; try obtain rfl := congrArg Prod.fst e; try obtain rfl := congrArg Prod.snd e))

@[simp] theorem Dev.crossing_leads {init d : Dev} (die : Nat) (c : Nat) (rank : Nat) (h : init.Leads d) : init.Leads (Dev.crossing d die c rank) := by
  unfold Dev.crossing
  repeat' first
    | with_reducible assumption
    | (intro v; refine (fun hv : init.Leads v => ?_) ?_; rotate_left; subst v)
    | (intro v; refine (fun hv : init.Leads v.1 => ?_) ?_; rotate_left; subst v)
    | (intro v; refine (fun hv : init.Leads v.2 => ?_) ?_; rotate_left; subst v)
    | intro _
    | (extract_lets -lift +onlyGivenNames w; revert w)
    | dsimp -zeta -zetaDelta only
    | with_reducible apply Dev.setB_leads
    | with_reducible apply Dev.raise_leads
    | with_reducible apply Dev.modChan_leads
    | with_reducible apply Dev.issueOwed_leads
    | (simp [*]; done)
    | (split <;> try (rename_i e; try obtain rfl := congrArg Prod.fst e; try obtain rfl := congrArg Prod.snd e))

@[simp] theorem Dev.rankReading_leads {init d : Dev} (die : Nat) (c : Nat) (rank : Nat) (t : Int) (lost : Bool) (h : init.Leads d) : init.Leads (Dev.rankReading d die c rank t lost) := by
  unfold Dev.rankReading
  repeat' first
    | with_reducible assumption
    | (intro v; refine (fun hv : init.Leads v => ?_) ?_; rotate_left; subst v)
    | (intro v; refine (fun hv : init.Leads v.1 => ?_) ?_; rotate_left; subst v)
    | (intro v; refine (fun hv : init.Leads v.2 => ?_) ?_; rotate_left; subst v)
    | intro _
    | (extract_lets -lift +onlyGivenNames w; revert w)
    | dsimp -zeta -zetaDelta only
    | with_reducible apply Dev.setF_leads
    | with_reducible apply Dev.when_leads
    | with_reducible apply Dev.setB_leads
    | with_reducible apply Dev.raise_leads
    | with_reducible apply Dev.trnTrigger_leads
    | with_reducible apply Dev.crossing_leads
    | (simp [*]; done)
    | (split <;> try (rename_i e; try obtain rfl := congrArg Prod.fst e; try obtain rfl := congrArg Prod.snd e))

@[simp] theorem Dev.tempRead_leads {init d : Dev} (die : Nat) (c : Nat) (dimm : Nat) (reading : Option Int) (sensor : Nat) (h : init.Leads d) : init.Leads (Dev.tempRead d die c dimm reading sensor) := by
  unfold Dev.tempRead
  repeat' first
    | with_reducible assumption
    | (intro v; refine (fun hv : init.Leads v => ?_) ?_; rotate_left; subst v)
    | (intro v; refine (fun hv : init.Leads v.1 => ?_) ?_; rotate_left; subst v)
    | (intro v; refine (fun hv : init.Leads v.2 => ?_) ?_; rotate_left; subst v)
    | intro _
    | (extract_lets -lift +onlyGivenNames w; revert w)
    | dsimp -zeta -zetaDelta only
    | with_reducible apply Dev.forEach_leads
    | with_reducible apply Dev.setB_leads
    | with_reducible apply Dev.raise_leads
    | with_reducible apply Dev.modChan_leads
    | with_reducible apply Dev.showRefresh_leads
    | with_reducible apply Dev.crossing_leads
    | with_reducible apply Dev.rankReading_leads
    | (simp [*]; done)
    | (split <;> try (rename_i e; try obtain rfl := congrArg Prod.fst e; try obtain rfl := congrArg Prod.snd e))

@[simp] theorem Dev.scrubRead_leads {init d : Dev} (die : Nat) (c : Nat) (beats : List Beat) (h : init.Leads d) : init.Leads (Dev.scrubRead d die c beats) := by
  unfold Dev.scrubRead
  repeat' first
    | with_reducible assumption
    | (intro v; refine (fun hv : init.Leads v => ?_) ?_; rotate_left; subst v)
    | (intro v; refine (fun hv : init.Leads v.1 => ?_) ?_; rotate_left; subst v)
    | (intro v; refine (fun hv : init.Leads v.2 => ?_) ?_; rotate_left; subst v)
    | intro _
    | (extract_lets -lift +onlyGivenNames w; revert w)
    | dsimp -zeta -zetaDelta only
    | with_reducible apply Dev.setF_leads
    | with_reducible apply Dev.when_leads
    | with_reducible apply Dev.raise_leads
    | with_reducible apply Dev.modChan_leads
    | with_reducible apply Dev.correctedBeats_leads
    | with_reducible apply Dev.dataError_leads
    | (simp [*]; done)
    | (split <;> try (rename_i e; try obtain rfl := congrArg Prod.fst e; try obtain rfl := congrArg Prod.snd e))

@[simp] theorem Dev.startCopy_leads {init d : Dev} (die : Nat) (c : Nat) (rank : Nat) (cause : Nat) (h : init.Leads d) : init.Leads (Dev.startCopy d die c rank cause) := by
  unfold Dev.startCopy
  repeat' first
    | with_reducible assumption
    | (intro v; refine (fun hv : init.Leads v => ?_) ?_; rotate_left; subst v)
    | (intro v; refine (fun hv : init.Leads v.1 => ?_) ?_; rotate_left; subst v)
    | (intro v; refine (fun hv : init.Leads v.2 => ?_) ?_; rotate_left; subst v)
    | intro _
    | (extract_lets -lift +onlyGivenNames w; revert w)
    | dsimp -zeta -zetaDelta only
    | with_reducible apply Dev.setF_leads
    | with_reducible apply Dev.raise_leads
    | with_reducible apply Dev.modChan_leads
    | (simp [*]; done)
    | (split <;> try (rename_i e; try obtain rfl := congrArg Prod.fst e; try obtain rfl := congrArg Prod.snd e))

@[simp] theorem Dev.ceRate_leads {init d : Dev} (die : Nat) (c : Nat) (rank : Nat) (h : init.Leads d) : init.Leads (Dev.ceRate d die c rank) := by
  unfold Dev.ceRate
  repeat' first
    | with_reducible assumption
    | (intro v; refine (fun hv : init.Leads v => ?_) ?_; rotate_left; subst v)
    | (intro v; refine (fun hv : init.Leads v.1 => ?_) ?_; rotate_left; subst v)
    | (intro v; refine (fun hv : init.Leads v.2 => ?_) ?_; rotate_left; subst v)
    | intro _
    | (extract_lets -lift +onlyGivenNames w; revert w)
    | dsimp -zeta -zetaDelta only
    | with_reducible apply Dev.raise_leads
    | with_reducible apply Dev.modChan_leads
    | with_reducible apply Dev.trnTrigger_leads
    | with_reducible apply Dev.startCopy_leads
    | (simp [*]; done)
    | (split <;> try (rename_i e; try obtain rfl := congrArg Prod.fst e; try obtain rfl := congrArg Prod.snd e))

@[simp] theorem Dev.ceInterval_leads {init d : Dev} (die : Nat) (c : Nat) (h : init.Leads d) : init.Leads (Dev.ceInterval d die c) := by
  unfold Dev.ceInterval
  repeat' first
    | with_reducible assumption
    | (intro v; refine (fun hv : init.Leads v => ?_) ?_; rotate_left; subst v)
    | (intro v; refine (fun hv : init.Leads v.1 => ?_) ?_; rotate_left; subst v)
    | (intro v; refine (fun hv : init.Leads v.2 => ?_) ?_; rotate_left; subst v)
    | intro _
    | (extract_lets -lift +onlyGivenNames w; revert w)
    | dsimp -zeta -zetaDelta only
    | with_reducible apply Dev.setF_leads
    | with_reducible apply Dev.when_leads
    | with_reducible apply Dev.forEach_leads
    | with_reducible apply Dev.ceRate_leads
    | (simp [*]; done)
    | (split <;> try (rename_i e; try obtain rfl := congrArg Prod.fst e; try obtain rfl := congrArg Prod.snd e))

@[simp] theorem Dev.selfRefresh_leads {init d : Dev} (die : Nat) (c : Nat) (rank : Nat) (h : init.Leads d) : init.Leads (Dev.selfRefresh d die c rank) := by
  unfold Dev.selfRefresh
  repeat' first
    | with_reducible assumption
    | (intro v; refine (fun hv : init.Leads v => ?_) ?_; rotate_left; subst v)
    | (intro v; refine (fun hv : init.Leads v.1 => ?_) ?_; rotate_left; subst v)
    | (intro v; refine (fun hv : init.Leads v.2 => ?_) ?_; rotate_left; subst v)
    | intro _
    | (extract_lets -lift +onlyGivenNames w; revert w)
    | dsimp -zeta -zetaDelta only
    | with_reducible apply Dev.when_leads
    | with_reducible apply Dev.setB_leads
    | with_reducible apply Dev.issue_leads
    | with_reducible apply Dev.preAll_leads
    | with_reducible apply Dev.issueOwed_leads
    | (simp [*]; done)
    | (split <;> try (rename_i e; try obtain rfl := congrArg Prod.fst e; try obtain rfl := congrArg Prod.snd e))

@[simp] theorem Dev.keepCopy_leads {init d : Dev} (die : Nat) (c : Nat) (h : init.Leads d) : init.Leads (Dev.keepCopy d die c) := by
  unfold Dev.keepCopy
  repeat' first
    | with_reducible assumption
    | (intro v; refine (fun hv : init.Leads v => ?_) ?_; rotate_left; subst v)
    | (intro v; refine (fun hv : init.Leads v.1 => ?_) ?_; rotate_left; subst v)
    | (intro v; refine (fun hv : init.Leads v.2 => ?_) ?_; rotate_left; subst v)
    | intro _
    | (extract_lets -lift +onlyGivenNames w; revert w)
    | dsimp -zeta -zetaDelta only
    | (simp [*]; done)
    | (split <;> try (rename_i e; try obtain rfl := congrArg Prod.fst e; try obtain rfl := congrArg Prod.snd e))

@[simp] theorem Dev.chanT0_leads {init d : Dev} (die : Nat) (c : Nat) (h : init.Leads d) : init.Leads (Dev.chanT0 d die c) := by
  have h1 : init.Leads ((d.abortStep die c 1).keepCopy die c) := Dev.keepCopy_leads _ _ (Dev.abortStep_leads _ _ _ h)
  unfold Dev.chanT0
  refine Dev.leads_ite (Dev.thaw_leads _ _ _ ?_) (Dev.leads_ite (Dev.setF_leads _ _ _ _ _ ?_) ?_)
  all_goals
    refine Dev.forEach_leads _ _ (Dev.showThrottled_leads _ _ (Dev.modChan_leads _ _ _ h1)) fun _ _ hx => ?_
    exact Dev.setF_leads _ _ _ _ _ (Dev.setB_leads _ _ _ _ _ hx)

@[simp] theorem Dev.beginTrn_leads {init d : Dev} (die : Nat) (c : Nat) (step : Nat) (rank : Nat) (h : init.Leads d) : init.Leads (Dev.beginTrn d die c step rank) := by
  unfold Dev.beginTrn
  repeat' first
    | with_reducible assumption
    | (intro v; refine (fun hv : init.Leads v => ?_) ?_; rotate_left; subst v)
    | (intro v; refine (fun hv : init.Leads v.1 => ?_) ?_; rotate_left; subst v)
    | (intro v; refine (fun hv : init.Leads v.2 => ?_) ?_; rotate_left; subst v)
    | intro _
    | (extract_lets -lift +onlyGivenNames w; revert w)
    | dsimp -zeta -zetaDelta only
    | with_reducible apply Dev.setF_leads
    | with_reducible apply Dev.forEach_leads
    | with_reducible apply Dev.setB_leads
    | with_reducible apply Dev.modChan_leads
    | (simp [*]; done)
    | (split <;> try (rename_i e; try obtain rfl := congrArg Prod.fst e; try obtain rfl := congrArg Prod.snd e))

@[simp] theorem Dev.retryStep_leads {init d : Dev} (die : Nat) (c : Nat) (h : init.Leads d) : init.Leads (Dev.retryStep d die c) := by
  unfold Dev.retryStep
  repeat' first
    | with_reducible assumption
    | (intro v; refine (fun hv : init.Leads v => ?_) ?_; rotate_left; subst v)
    | (intro v; refine (fun hv : init.Leads v.1 => ?_) ?_; rotate_left; subst v)
    | (intro v; refine (fun hv : init.Leads v.2 => ?_) ?_; rotate_left; subst v)
    | intro _
    | (extract_lets -lift +onlyGivenNames w; revert w)
    | dsimp -zeta -zetaDelta only
    | with_reducible apply Dev.beginTrn_leads
    | (simp [*]; done)
    | (split <;> try (rename_i e; try obtain rfl := congrArg Prod.fst e; try obtain rfl := congrArg Prod.snd e))

@[simp] theorem Dev.beginCycle_leads {init d : Dev} (die : Nat) (c : Nat) (rank : Nat) (h : init.Leads d) : init.Leads (Dev.beginCycle d die c rank) := by
  unfold Dev.beginCycle
  repeat' first
    | with_reducible assumption
    | (intro v; refine (fun hv : init.Leads v => ?_) ?_; rotate_left; subst v)
    | (intro v; refine (fun hv : init.Leads v.1 => ?_) ?_; rotate_left; subst v)
    | (intro v; refine (fun hv : init.Leads v.2 => ?_) ?_; rotate_left; subst v)
    | intro _
    | (extract_lets -lift +onlyGivenNames w; revert w)
    | dsimp -zeta -zetaDelta only
    | with_reducible apply Dev.setB_leads
    | with_reducible apply Dev.modChan_leads
    | with_reducible apply Dev.beginTrn_leads
    | (simp [*]; done)
    | (split <;> try (rename_i e; try obtain rfl := congrArg Prod.fst e; try obtain rfl := congrArg Prod.snd e))

@[simp] theorem Dev.showScan_leads {init d : Dev} (die : Nat) (c : Nat) (s : TrnScan) (h : init.Leads d) : init.Leads (Dev.showScan d die c s) := by
  unfold Dev.showScan
  repeat' first
    | with_reducible assumption
    | (intro v; refine (fun hv : init.Leads v => ?_) ?_; rotate_left; subst v)
    | (intro v; refine (fun hv : init.Leads v.1 => ?_) ?_; rotate_left; subst v)
    | (intro v; refine (fun hv : init.Leads v.2 => ?_) ?_; rotate_left; subst v)
    | intro _
    | (extract_lets -lift +onlyGivenNames w; revert w)
    | dsimp -zeta -zetaDelta only
    | with_reducible apply Dev.setF_leads
    | with_reducible apply Dev.forEach_leads
    | with_reducible apply Dev.setB_leads
    | with_reducible apply Dev.addF_leads
    | (simp [*]; done)
    | (split <;> try (rename_i e; try obtain rfl := congrArg Prod.fst e; try obtain rfl := congrArg Prod.snd e))

@[simp] theorem Dev.apply_leads {init d : Dev} (die : Nat) (c : Nat) (rank : Nat) (step : Nat) (codes : List Nat × Option Nat) (h : init.Leads d) : init.Leads (Dev.apply d die c rank step codes) := by
  simp [Dev.apply, h]

@[simp] theorem Dev.degradedCheck_leads {init d : Dev} (die : Nat) (c : Nat) (rank : Nat) (h : init.Leads d) : init.Leads (Dev.degradedCheck d die c rank) := by
  unfold Dev.degradedCheck
  repeat' first
    | with_reducible assumption
    | (intro v; refine (fun hv : init.Leads v => ?_) ?_; rotate_left; subst v)
    | (intro v; refine (fun hv : init.Leads v.1 => ?_) ?_; rotate_left; subst v)
    | (intro v; refine (fun hv : init.Leads v.2 => ?_) ?_; rotate_left; subst v)
    | intro _
    | (extract_lets -lift +onlyGivenNames w; revert w)
    | dsimp -zeta -zetaDelta only
    | with_reducible apply Dev.setB_leads
    | with_reducible apply Dev.raise_leads
    | with_reducible apply Dev.modChan_leads
    | (simp [*]; done)
    | (split <;> try (rename_i e; try obtain rfl := congrArg Prod.fst e; try obtain rfl := congrArg Prod.snd e))

@[simp] theorem Dev.passCycle_leads {init d : Dev} (die : Nat) (c : Nat) (h : init.Leads d) : init.Leads (Dev.passCycle d die c) := by
  unfold Dev.passCycle
  repeat' first
    | with_reducible assumption
    | (intro v; refine (fun hv : init.Leads v => ?_) ?_; rotate_left; subst v)
    | (intro v; refine (fun hv : init.Leads v.1 => ?_) ?_; rotate_left; subst v)
    | (intro v; refine (fun hv : init.Leads v.2 => ?_) ?_; rotate_left; subst v)
    | intro _
    | (extract_lets -lift +onlyGivenNames w; revert w)
    | dsimp -zeta -zetaDelta only
    | with_reducible apply Dev.setF_leads
    | with_reducible apply Dev.setB_leads
    | with_reducible apply Dev.incF_leads
    | with_reducible apply Dev.raise_leads
    | with_reducible apply Dev.modChan_leads
    | with_reducible apply Dev.degradedCheck_leads
    | (simp [*]; done)
    | (split <;> try (rename_i e; try obtain rfl := congrArg Prod.fst e; try obtain rfl := congrArg Prod.snd e))

@[simp] theorem Dev.noSetting_leads {init d : Dev} (die : Nat) (c : Nat) (r : TrnRun) (worst : Nat × Nat) (h : init.Leads d) : init.Leads (Dev.noSetting d die c r worst) := by
  unfold Dev.noSetting
  repeat' first
    | with_reducible assumption
    | (intro v; refine (fun hv : init.Leads v => ?_) ?_; rotate_left; subst v)
    | (intro v; refine (fun hv : init.Leads v.1 => ?_) ?_; rotate_left; subst v)
    | (intro v; refine (fun hv : init.Leads v.2 => ?_) ?_; rotate_left; subst v)
    | intro _
    | (extract_lets -lift +onlyGivenNames w; revert w)
    | dsimp -zeta -zetaDelta only
    | with_reducible apply Dev.setB_leads
    | with_reducible apply Dev.raise_leads
    | with_reducible apply Dev.modChan_leads
    | with_reducible apply Dev.restoreLkg_leads
    | with_reducible apply Dev.failCycle_leads
    | (simp [*]; done)
    | (split <;> try (rename_i e; try obtain rfl := congrArg Prod.fst e; try obtain rfl := congrArg Prod.snd e))

@[simp] theorem Dev.afterStep_leads {init d : Dev} (die : Nat) (c : Nat) (h : init.Leads d) : init.Leads (Dev.afterStep d die c) := by
  unfold Dev.afterStep
  repeat' first
    | with_reducible assumption
    | (intro v; refine (fun hv : init.Leads v => ?_) ?_; rotate_left; subst v)
    | (intro v; refine (fun hv : init.Leads v.1 => ?_) ?_; rotate_left; subst v)
    | (intro v; refine (fun hv : init.Leads v.2 => ?_) ?_; rotate_left; subst v)
    | intro _
    | (extract_lets -lift +onlyGivenNames w; revert w)
    | dsimp -zeta -zetaDelta only
    | with_reducible apply Dev.thaw_leads
    | (simp [*]; done)
    | (split <;> try (rename_i e; try obtain rfl := congrArg Prod.fst e; try obtain rfl := congrArg Prod.snd e))

@[simp] theorem Dev.stepEnd_leads {init d : Dev} (die : Nat) (c : Nat) (us : Nat) (scans : List TrnScan) (h : init.Leads d) : init.Leads (Dev.stepEnd d die c us scans) := by
  unfold Dev.stepEnd
  repeat' first
    | with_reducible assumption
    | (intro v; refine (fun hv : init.Leads v => ?_) ?_; rotate_left; subst v)
    | (intro v; refine (fun hv : init.Leads v.1 => ?_) ?_; rotate_left; subst v)
    | (intro v; refine (fun hv : init.Leads v.2 => ?_) ?_; rotate_left; subst v)
    | intro _
    | (extract_lets -lift +onlyGivenNames w; revert w)
    | dsimp -zeta -zetaDelta only
    | with_reducible apply Dev.forEach_leads
    | with_reducible apply Dev.modChan_leads
    | with_reducible apply Dev.endStep_leads
    | with_reducible apply Dev.showScan_leads
    | with_reducible apply Dev.apply_leads
    | with_reducible apply Dev.passCycle_leads
    | with_reducible apply Dev.noSetting_leads
    | with_reducible apply Dev.afterStep_leads
    | (simp [*]; done)
    | (split <;> try (rename_i e; try obtain rfl := congrArg Prod.fst e; try obtain rfl := congrArg Prod.snd e))

theorem execChanRequest_runs (die chan : Nat) (req : ChanReq) (s : State) : s.Runs (execChanRequest die chan req s) := by
  unfold execChanRequest
  refine State.on_runs fun init => ?_
  have h := Dev.Leads.refl init
  repeat' first
    | with_reducible assumption
    | intro _
    | with_reducible apply Dev.chanRequest_leads
    | (simp [*]; done)

theorem execChanCommandIssue_runs (die chan : Nat) (illegal : List Nat) (maintenance : Bool) (pressure : Nat) (s : State) : s.Runs (execChanCommandIssue die chan illegal maintenance pressure s) := by
  unfold execChanCommandIssue
  refine State.on_runs fun init => ?_
  have h := Dev.Leads.refl init
  repeat' first
    | with_reducible assumption
    | intro _
    | with_reducible apply Dev.slot_leads
    | with_reducible apply Dev.retryStep_leads
    | (simp [*]; done)

theorem execChanReadDecode_runs (die chan id : Nat) (beats : List Beat) (s : State) : s.Runs (execChanReadDecode die chan id beats s) := by
  unfold execChanReadDecode
  refine State.on_runs fun init => ?_
  have h := Dev.Leads.refl init
  repeat' first
    | with_reducible assumption
    | intro _
    | with_reducible apply Dev.readDecode_leads
    | (simp [*]; done)

theorem execRefreshDue_runs (die chan rank : Nat) (s : State) : s.Runs (execRefreshDue die chan rank s) := by
  unfold execRefreshDue
  refine State.on_runs fun init => ?_
  have h := Dev.Leads.refl init
  repeat' first
    | with_reducible assumption
    | intro _
    | with_reducible apply Dev.refreshDue_leads
    | (simp [*]; done)
    | split

theorem execCreditRefill_runs (die chan : Nat) (s : State) : s.Runs (execCreditRefill die chan s) := by
  unfold execCreditRefill
  refine State.on_runs fun init => ?_
  have h := Dev.Leads.refl init
  repeat' first
    | with_reducible assumption
    | (intro v; refine (fun hv : init.Leads v => ?_) ?_; rotate_left; subst v)
    | intro _
    | (extract_lets -lift +onlyGivenNames w; revert w)
    | with_reducible apply Dev.forEach_leads
    | with_reducible apply Dev.modChan_leads
    | (simp [*]; done)
    | split

theorem execRequestUrgent_runs (die chan id : Nat) (s : State) : s.Runs (execRequestUrgent die chan id s) := by
  unfold execRequestUrgent
  refine State.on_runs fun init => ?_
  have h := Dev.Leads.refl init
  repeat' first
    | with_reducible assumption
    | intro _
    | with_reducible apply Dev.until_leads
    | with_reducible apply Dev.makeUrgent_leads
    | (simp [*]; done)
    | split

theorem execRhWindowClear_runs (die chan rank : Nat) (s : State) : s.Runs (execRhWindowClear die chan rank s) := by
  unfold execRhWindowClear
  refine State.on_runs fun init => ?_
  have h := Dev.Leads.refl init
  repeat' first
    | with_reducible assumption
    | (intro v; refine (fun hv : init.Leads v => ?_) ?_; rotate_left; subst v)
    | intro _
    | (extract_lets -lift +onlyGivenNames w; revert w)
    | with_reducible apply Dev.modChan_leads
    | (simp [*]; done)
    | split

theorem execRhCooldownEnd_runs (die chan requester : Nat) (s : State) : s.Runs (execRhCooldownEnd die chan requester s) := by
  unfold execRhCooldownEnd
  refine State.on_runs fun init => ?_
  have h := Dev.Leads.refl init
  repeat' first
    | with_reducible assumption
    | intro _
    | with_reducible apply Dev.until_leads
    | with_reducible apply Dev.modChan_leads
    | with_reducible apply Dev.showThrottled_leads
    | (simp [*]; done)
    | split

theorem execRowCloseTimer_runs (die chan rank bank : Nat) (s : State) : s.Runs (execRowCloseTimer die chan rank bank s) := by
  unfold execRowCloseTimer
  refine State.on_runs fun init => ?_
  have h := Dev.Leads.refl init
  repeat' first
    | with_reducible assumption
    | intro _
    | with_reducible apply Dev.until_leads
    | with_reducible apply Dev.modChan_leads
    | with_reducible apply Dev.issue_leads
    | (simp [*]; done)
    | split

theorem execDramTempRead_runs (die chan dimm : Nat) (reading : Option Int) (sensor : Nat) (s : State) : s.Runs (execDramTempRead die chan dimm reading sensor s) := by
  unfold execDramTempRead
  refine State.on_runs fun init => ?_
  have h := Dev.Leads.refl init
  repeat' first
    | with_reducible assumption
    | intro _
    | with_reducible apply Dev.tempRead_leads
    | (simp [*]; done)

theorem execSelfRefreshIdle_runs (die chan rank : Nat) (s : State) : s.Runs (execSelfRefreshIdle die chan rank s) := by
  unfold execSelfRefreshIdle
  refine State.on_runs fun init => ?_
  have h := Dev.Leads.refl init
  repeat' first
    | with_reducible assumption
    | (intro v; refine (fun hv : init.Leads v => ?_) ?_; rotate_left; subst v)
    | intro _
    | (extract_lets -lift +onlyGivenNames w; revert w)
    | with_reducible apply Dev.until_leads
    | with_reducible apply Dev.selfRefresh_leads
    | (simp [*]; done)
    | split

theorem execPatrolScrubRead_runs (die chan : Nat) (beats : List Beat) (s : State) : s.Runs (execPatrolScrubRead die chan beats s) := by
  unfold execPatrolScrubRead
  refine State.on_runs fun init => ?_
  have h := Dev.Leads.refl init
  repeat' first
    | with_reducible assumption
    | intro _
    | with_reducible apply Dev.scrubRead_leads
    | (simp [*]; done)
    | split

theorem execCaParityAlert_runs (die chan dimm : Nat) (failed : Nat) (s : State) : s.Runs (execCaParityAlert die chan dimm failed s) := by
  unfold execCaParityAlert
  refine State.on_runs fun init => ?_
  have h := Dev.Leads.refl init
  repeat' first
    | with_reducible assumption
    | intro _
    | with_reducible apply Dev.caAlert_leads
    | (simp [*]; done)
    | split

theorem execAlertNHigh_runs (die chan : Nat) (s : State) : s.Runs (execAlertNHigh die chan s) := by
  unfold execAlertNHigh
  refine State.on_runs fun init => ?_
  have h := Dev.Leads.refl init
  repeat' first
    | with_reducible assumption
    | intro _
    | with_reducible apply Dev.alertHigh_leads
    | with_reducible apply Dev.retryStep_leads
    | (simp [*]; done)

theorem execCeRateInterval_runs (die chan : Nat) (s : State) : s.Runs (execCeRateInterval die chan s) := by
  unfold execCeRateInterval
  refine State.on_runs fun init => ?_
  have h := Dev.Leads.refl init
  repeat' first
    | with_reducible assumption
    | intro _
    | with_reducible apply Dev.ceInterval_leads
    | (simp [*]; done)

theorem execChanThaw_runs (die chan : Nat) (s : State) : s.Runs (execChanThaw die chan s) := by
  unfold execChanThaw
  refine State.on_runs fun init => ?_
  have h := Dev.Leads.refl init
  repeat' first
    | with_reducible assumption
    | intro _
    | with_reducible apply Dev.thaw_leads
    | (simp [*]; done)

theorem execChanAutoThaw_runs (die chan : Nat) (s : State) : s.Runs (execChanAutoThaw die chan s) := by
  unfold execChanAutoThaw
  refine State.on_runs fun init => ?_
  have h := Dev.Leads.refl init
  repeat' first
    | with_reducible assumption
    | (intro v; refine (fun hv : init.Leads v => ?_) ?_; rotate_left; subst v)
    | intro _
    | (extract_lets -lift +onlyGivenNames w; revert w)
    | with_reducible apply Dev.until_leads
    | with_reducible apply Dev.thaw_leads
    | (simp [*]; done)
    | split

theorem execChanFreezeNow_runs (die chan : Nat) (s : State) : s.Runs (execChanFreezeNow die chan s) := by
  unfold execChanFreezeNow
  refine State.on_runs fun init => ?_
  have h := Dev.Leads.refl init
  repeat' first
    | with_reducible assumption
    | intro _
    | with_reducible apply Dev.freeze_leads
    | (simp [*]; done)
    | split

theorem execTrnStart_runs (die chan step rank : Nat) (s : State) : s.Runs (execTrnStart die chan step rank s) := by
  unfold execTrnStart
  refine State.on_runs fun init => ?_
  have h := Dev.Leads.refl init
  repeat' first
    | with_reducible assumption
    | intro _
    | with_reducible apply Dev.setF_leads
    | with_reducible apply Dev.beginTrn_leads
    | (simp [*]; done)

theorem execTrnAbort_runs (die chan : Nat) (s : State) : s.Runs (execTrnAbort die chan s) := by
  unfold execTrnAbort
  refine State.on_runs fun init => ?_
  have h := Dev.Leads.refl init
  repeat' first
    | with_reducible assumption
    | intro _
    | with_reducible apply Dev.abortStep_leads
    | with_reducible apply Dev.afterStep_leads
    | (simp [*]; done)

theorem execTrnCommit_runs (die chan : Nat) (s : State) : s.Runs (execTrnCommit die chan s) := by
  unfold execTrnCommit
  refine State.on_runs fun init => ?_
  have h := Dev.Leads.refl init
  repeat' first
    | with_reducible assumption
    | intro _
    | with_reducible apply Dev.apply_leads
    | (simp [*]; done)
    | split

theorem execTrnRetrainNow_runs (die chan rank : Nat) (full : Bool) (s : State) : s.Runs (execTrnRetrainNow die chan rank full s) := by
  unfold execTrnRetrainNow
  refine State.on_runs fun init => ?_
  have h := Dev.Leads.refl init
  repeat' first
    | with_reducible assumption
    | (intro v; refine (fun hv : init.Leads v => ?_) ?_; rotate_left; subst v)
    | intro _
    | (extract_lets -lift +onlyGivenNames w; revert w)
    | with_reducible apply Dev.setF_leads
    | with_reducible apply Dev.setB_leads
    | with_reducible apply Dev.trnTrigger_leads
    | with_reducible apply Dev.beginCycle_leads
    | (simp [*]; done)
    | split

theorem execTrnAutoCycleStart_runs (die chan rank : Nat) (s : State) : s.Runs (execTrnAutoCycleStart die chan rank s) := by
  unfold execTrnAutoCycleStart
  refine State.on_runs fun init => ?_
  have h := Dev.Leads.refl init
  repeat' first
    | with_reducible assumption
    | intro _
    | with_reducible apply Dev.until_leads
    | with_reducible apply Dev.beginCycle_leads
    | (simp [*]; done)
    | split

theorem execTrnSubstepEnd_runs (die chan : Nat) (s : State) : s.Runs (execTrnSubstepEnd die chan s) := by
  unfold execTrnSubstepEnd
  refine State.on_runs fun init => ?_
  have h := Dev.Leads.refl init
  repeat' first
    | with_reducible assumption
    | (intro v; refine (fun hv : init.Leads v => ?_) ?_; rotate_left; subst v)
    | intro _
    | (extract_lets -lift +onlyGivenNames w; revert w)
    | with_reducible apply Dev.forEach_leads
    | with_reducible apply Dev.issueOwed_leads
    | with_reducible apply Dev.issueRfm_leads
    | (simp [*]; done)
    | split

theorem execTrnStepEnd_runs (die chan us : Nat) (scans : List TrnScan) (s : State) : s.Runs (execTrnStepEnd die chan us scans s) := by
  unfold execTrnStepEnd
  refine State.on_runs fun init => ?_
  have h := Dev.Leads.refl init
  repeat' first
    | with_reducible assumption
    | intro _
    | with_reducible apply Dev.until_leads
    | with_reducible apply Dev.stepEnd_leads
    | (simp [*]; done)
    | split

theorem execTrnGapElapsed_runs (die chan : Nat) (s : State) : s.Runs (execTrnGapElapsed die chan s) := by
  unfold execTrnGapElapsed
  refine State.on_runs fun init => ?_
  have h := Dev.Leads.refl init
  repeat' first
    | with_reducible assumption
    | (intro v; refine (fun hv : init.Leads v => ?_) ?_; rotate_left; subst v)
    | intro _
    | (extract_lets -lift +onlyGivenNames w; revert w)
    | with_reducible apply Dev.until_leads
    | with_reducible apply Dev.modChan_leads
    | with_reducible apply Dev.beginTrn_leads
    | (simp [*]; done)
    | split

theorem execTrnStepTimeout_runs (die chan : Nat) (s : State) : s.Runs (execTrnStepTimeout die chan s) := by
  unfold execTrnStepTimeout
  refine State.on_runs fun init => ?_
  have h := Dev.Leads.refl init
  repeat' first
    | with_reducible assumption
    | (intro v; refine (fun hv : init.Leads v => ?_) ?_; rotate_left; subst v)
    | intro _
    | (extract_lets -lift +onlyGivenNames w; revert w)
    | with_reducible apply Dev.raise_leads
    | with_reducible apply Dev.until_leads
    | with_reducible apply Dev.restoreLkg_leads
    | with_reducible apply Dev.endStep_leads
    | with_reducible apply Dev.failCycle_leads
    | with_reducible apply Dev.afterStep_leads
    | (simp [*]; done)
    | split

end Sys2Proof.Machine
end

