-- ==== Sys2Proof/Laws/LeadsFlash.lean ====
section
/-! SUPPORT. What the quench flash never break (Leads), one lemma a function; each command runs (Runs), one lemma a command. -/

namespace Sys2Proof.Machine

open Sys2Proof

set_option linter.tactic.unusedName false
set_option linter.unusedTactic false
set_option linter.unreachableTactic false
set_option linter.unusedSimpArgs false
set_option linter.unusedVariables false

@[simp] theorem Dev.slagAdd_leads {init d : Dev} (kind : Nat) (owner : Nat) (index : Nat) (cause : Nat) (h : init.Leads d) : init.Leads (Dev.slagAdd d kind owner index cause) := by
  simp [Dev.slagAdd, h]

@[simp] theorem Dev.exhaust_leads {init d : Dev} (kind : Nat) (die : Nat) (h : init.Leads d) : init.Leads (Dev.exhaust d kind die) := by
  unfold Dev.exhaust
  repeat' first
    | with_reducible assumption
    | (intro v; refine (fun hv : init.Leads v => ?_) ?_; rotate_left; subst v)
    | (intro v; refine (fun hv : init.Leads v.1 => ?_) ?_; rotate_left; subst v)
    | (intro v; refine (fun hv : init.Leads v.2 => ?_) ?_; rotate_left; subst v)
    | intro _
    | (extract_lets -lift +onlyGivenNames w; revert w)
    | dsimp -zeta -zetaDelta only
    | with_reducible apply Dev.setF_leads
    | with_reducible apply Dev.raiseR_leads
    | (simp [*]; done)
    | (split <;> try (rename_i e; try obtain rfl := congrArg Prod.fst e; try obtain rfl := congrArg Prod.snd e))

@[simp] theorem Dev.setPin_leads {init d : Dev} (name : String) (index : Nat) (level : Nat) (h : init.Leads d) : init.Leads (Dev.setPin d name index level) := by
  exact ⟨h.mem, h.regs, h.time, h.draws, h.sent.trans (List.prefix_append _ _), h.part⟩

@[simp] theorem Dev.setQfl_leads {init d : Dev} (f : QflState → QflState) (h : init.Leads d) : init.Leads (Dev.setQfl d f) := by
  simp [Dev.setQfl, h]

@[simp] theorem Dev.setQchan_leads {init d : Dev} (die : Nat) (c : Nat) (x : QChan) (h : init.Leads d) : init.Leads (Dev.setQchan d die c x) := by
  simp [Dev.setQchan, h]

@[simp] theorem Dev.modQchan_leads {init d : Dev} (die : Nat) (c : Nat) (f : QChan → QChan) (h : init.Leads d) : init.Leads (Dev.modQchan d die c f) := by
  simp [Dev.modQchan, h]

@[simp] theorem Dev.setQuad_leads {init d : Dev} (k : QKey) (q : Quad) (h : init.Leads d) : init.Leads (Dev.setQuad d k q) := by
  simp [Dev.setQuad, h]

@[simp] theorem Dev.logQuad_leads {init d : Dev} (k : QKey) (q : Quad) (h : init.Leads d) : init.Leads (Dev.logQuad d k q) := by
  simp [Dev.logQuad, h]

@[simp] theorem Dev.setSpares_leads {init d : Dev} (n : Nand) (plane : Nat) (l : List Nat) (h : init.Leads d) : init.Leads (Dev.setSpares d n plane l) := by
  simp [Dev.setSpares, h]

@[simp] theorem Dev.qflExhausted_leads {init d : Dev} (n : Nand) (plane : Nat) (h : init.Leads d) : init.Leads (Dev.qflExhausted d n plane) := by
  unfold Dev.qflExhausted
  repeat' first
    | with_reducible assumption
    | (intro v; refine (fun hv : init.Leads v => ?_) ?_; rotate_left; subst v)
    | (intro v; refine (fun hv : init.Leads v.1 => ?_) ?_; rotate_left; subst v)
    | (intro v; refine (fun hv : init.Leads v.2 => ?_) ?_; rotate_left; subst v)
    | intro _
    | (extract_lets -lift +onlyGivenNames w; revert w)
    | dsimp -zeta -zetaDelta only
    | with_reducible apply Dev.setB_leads
    | with_reducible apply Dev.raise_leads
    | with_reducible apply Dev.exhaust_leads
    | (simp [*]; done)
    | (split <;> try (rename_i e; try obtain rfl := congrArg Prod.fst e; try obtain rfl := congrArg Prod.snd e))

@[simp] theorem Dev.retireQuad_leads {init d : Dev} (k : QKey) (badPlane : Option Nat) (h : init.Leads d) : init.Leads (Dev.retireQuad d k badPlane) := by
  unfold Dev.retireQuad
  repeat' first
    | with_reducible assumption
    | (intro v; refine (fun hv : init.Leads v => ?_) ?_; rotate_left; subst v)
    | (intro v; refine (fun hv : init.Leads v.1 => ?_) ?_; rotate_left; subst v)
    | (intro v; refine (fun hv : init.Leads v.2 => ?_) ?_; rotate_left; subst v)
    | intro _
    | (extract_lets -lift +onlyGivenNames w; revert w)
    | dsimp -zeta -zetaDelta only
    | with_reducible apply Dev.forEach_leads
    | with_reducible apply Dev.raise_leads
    | with_reducible apply Dev.logQuad_leads
    | with_reducible apply Dev.setSpares_leads
    | (simp [*]; done)
    | (split <;> try (rename_i e; try obtain rfl := congrArg Prod.fst e; try obtain rfl := congrArg Prod.snd e))

@[simp] theorem Dev.retireBlock_leads {init d : Dev} (k : QKey) (plane : Nat) (cause : Nat) (h : init.Leads d) : init.Leads (Dev.retireBlock d k plane cause) := by
  have h1 (n : Nand) (sp : List Nat) (x : QflState → QflState) (p : Fields) :
      init.Leads (((d.setSpares n plane sp).setQfl x).raise .QFL_BLOCK_RETIRED n.die p) :=
    Dev.raise_leads _ _ _ (Dev.setQfl_leads _ (Dev.setSpares_leads _ _ _ h))
  simp only [Dev.retireBlock]
  split
  · exact Dev.logQuad_leads _ _ (h1 _ _ _ _)
  · exact Dev.qflExhausted_leads _ _ (Dev.retireQuad_leads _ _ (h1 _ _ _ _))

@[simp] theorem Dev.retireNand_leads {init d : Dev} (n : Nand) (cause : Nat) (h : init.Leads d) : init.Leads (Dev.retireNand d n cause) := by
  unfold Dev.retireNand
  repeat' first
    | with_reducible assumption
    | (intro v; refine (fun hv : init.Leads v => ?_) ?_; rotate_left; subst v)
    | (intro v; refine (fun hv : init.Leads v.1 => ?_) ?_; rotate_left; subst v)
    | (intro v; refine (fun hv : init.Leads v.2 => ?_) ?_; rotate_left; subst v)
    | intro _
    | (extract_lets -lift +onlyGivenNames w; revert w)
    | dsimp -zeta -zetaDelta only
    | with_reducible apply Dev.setF_leads
    | with_reducible apply Dev.raise_leads
    | with_reducible apply Dev.slagAdd_leads
    | with_reducible apply Dev.setQfl_leads
    | with_reducible apply Dev.qflExhausted_leads
    | (simp [*]; done)
    | (split <;> try (rename_i e; try obtain rfl := congrArg Prod.fst e; try obtain rfl := congrArg Prod.snd e))

@[simp] theorem Dev.channelCheck_leads {init d : Dev} (die : Nat) (c : Nat) (h : init.Leads d) : init.Leads (Dev.channelCheck d die c) := by
  unfold Dev.channelCheck
  repeat' first
    | with_reducible assumption
    | (intro v; refine (fun hv : init.Leads v => ?_) ?_; rotate_left; subst v)
    | (intro v; refine (fun hv : init.Leads v.1 => ?_) ?_; rotate_left; subst v)
    | (intro v; refine (fun hv : init.Leads v.2 => ?_) ?_; rotate_left; subst v)
    | intro _
    | (extract_lets -lift +onlyGivenNames w; revert w)
    | dsimp -zeta -zetaDelta only
    | with_reducible apply Dev.setF_leads
    | with_reducible apply Dev.raise_leads
    | (simp [*]; done)
    | (split <;> try (rename_i e; try obtain rfl := congrArg Prod.fst e; try obtain rfl := congrArg Prod.snd e))

@[simp] theorem Dev.nandAttach_leads {init d : Dev} (n : Nand) (l : NandLook) (h : init.Leads d) : init.Leads (Dev.nandAttach d n l) := by
  unfold Dev.nandAttach
  repeat' first
    | with_reducible assumption
    | (intro v; refine (fun hv : init.Leads v => ?_) ?_; rotate_left; subst v)
    | (intro v; refine (fun hv : init.Leads v.1 => ?_) ?_; rotate_left; subst v)
    | (intro v; refine (fun hv : init.Leads v.2 => ?_) ?_; rotate_left; subst v)
    | intro _
    | (extract_lets -lift +onlyGivenNames w; revert w)
    | dsimp -zeta -zetaDelta only
    | with_reducible apply Dev.setF_leads
    | with_reducible apply Dev.raise_leads
    | with_reducible apply Dev.setPin_leads
    | with_reducible apply Dev.modQchan_leads
    | (simp [*]; done)
    | (split <;> try (rename_i e; try obtain rfl := congrArg Prod.fst e; try obtain rfl := congrArg Prod.snd e))

@[simp] theorem Dev.checkpoint_leads {init d : Dev} (die : Nat) (c : Nat) (h : init.Leads d) : init.Leads (Dev.checkpoint d die c) := by
  simp [Dev.checkpoint, h]

@[simp] theorem Dev.readyErased_leads {init d : Dev} (k : QKey) (h : init.Leads d) : init.Leads (Dev.readyErased d k) := by
  simp [Dev.readyErased, h]

@[simp] theorem Dev.tableDelta_leads {init d : Dev} (die : Nat) (c : Nat) (h : init.Leads d) : init.Leads (Dev.tableDelta d die c) := by
  unfold Dev.tableDelta
  repeat' first
    | with_reducible assumption
    | (intro v; refine (fun hv : init.Leads v => ?_) ?_; rotate_left; subst v)
    | (intro v; refine (fun hv : init.Leads v.1 => ?_) ?_; rotate_left; subst v)
    | (intro v; refine (fun hv : init.Leads v.2 => ?_) ?_; rotate_left; subst v)
    | intro _
    | (extract_lets -lift +onlyGivenNames w; revert w)
    | dsimp -zeta -zetaDelta only
    | with_reducible apply Dev.forEach_leads
    | with_reducible apply Dev.modQchan_leads
    | with_reducible apply Dev.checkpoint_leads
    | with_reducible apply Dev.readyErased_leads
    | (simp [*]; done)
    | (split <;> try (rename_i e; try obtain rfl := congrArg Prod.fst e; try obtain rfl := congrArg Prod.snd e))

@[simp] theorem Dev.dropUnits_leads {init d : Dev} (p : QKey → Bool) (h : init.Leads d) : init.Leads (Dev.dropUnits d p) := by
  simp [Dev.dropUnits, h]

@[simp] theorem Dev.formatChan_leads {init d : Dev} (die : Nat) (c : Nat) (cause : Nat) (marks : List (Nat × Nat × Nat)) (h : init.Leads d) : init.Leads (Dev.formatChan d die c cause marks) := by
  unfold Dev.formatChan
  repeat' first
    | with_reducible assumption
    | (intro v; refine (fun hv : init.Leads v => ?_) ?_; rotate_left; subst v)
    | (intro v; refine (fun hv : init.Leads v.1 => ?_) ?_; rotate_left; subst v)
    | (intro v; refine (fun hv : init.Leads v.2 => ?_) ?_; rotate_left; subst v)
    | intro _
    | (extract_lets -lift +onlyGivenNames w; revert w)
    | dsimp -zeta -zetaDelta only
    | with_reducible apply Dev.forEach_leads
    | with_reducible apply Dev.raise_leads
    | with_reducible apply Dev.setQfl_leads
    | with_reducible apply Dev.modQchan_leads
    | with_reducible apply Dev.setQuad_leads
    | with_reducible apply Dev.setSpares_leads
    | with_reducible apply Dev.retireQuad_leads
    | with_reducible apply Dev.checkpoint_leads
    | with_reducible apply Dev.dropUnits_leads
    | (simp [*]; done)
    | (split <;> try (rename_i e; try obtain rfl := congrArg Prod.fst e; try obtain rfl := congrArg Prod.snd e))

@[simp] theorem Dev.scanReady_leads {init d : Dev} (die : Nat) (c : Nat) (h : init.Leads d) : init.Leads (Dev.scanReady d die c) := by
  unfold Dev.scanReady
  repeat' first
    | with_reducible assumption
    | (intro v; refine (fun hv : init.Leads v => ?_) ?_; rotate_left; subst v)
    | (intro v; refine (fun hv : init.Leads v.1 => ?_) ?_; rotate_left; subst v)
    | (intro v; refine (fun hv : init.Leads v.2 => ?_) ?_; rotate_left; subst v)
    | intro _
    | (extract_lets -lift +onlyGivenNames w; revert w)
    | dsimp -zeta -zetaDelta only
    | with_reducible apply Dev.forEach_leads
    | with_reducible apply Dev.logQuad_leads
    | (simp [*]; done)
    | (split <;> try (rename_i e; try obtain rfl := congrArg Prod.fst e; try obtain rfl := congrArg Prod.snd e))

@[simp] theorem Dev.tableRecover_leads {init d : Dev} (die : Nat) (c : Nat) (look : TableLook) (h : init.Leads d) : init.Leads (Dev.tableRecover d die c look) := by
  unfold Dev.tableRecover
  repeat' first
    | with_reducible assumption
    | (intro v; refine (fun hv : init.Leads v => ?_) ?_; rotate_left; subst v)
    | (intro v; refine (fun hv : init.Leads v.1 => ?_) ?_; rotate_left; subst v)
    | (intro v; refine (fun hv : init.Leads v.2 => ?_) ?_; rotate_left; subst v)
    | intro _
    | (extract_lets -lift +onlyGivenNames w; revert w)
    | dsimp -zeta -zetaDelta only
    | with_reducible apply Dev.forEach_leads
    | with_reducible apply Dev.raise_leads
    | with_reducible apply Dev.setQfl_leads
    | with_reducible apply Dev.setQchan_leads
    | with_reducible apply Dev.setQuad_leads
    | with_reducible apply Dev.checkpoint_leads
    | with_reducible apply Dev.formatChan_leads
    | with_reducible apply Dev.scanReady_leads
    | (simp [*]; done)
    | (split <;> try (rename_i e; try obtain rfl := congrArg Prod.fst e; try obtain rfl := congrArg Prod.snd e))

@[simp] theorem Dev.eraseIssue_leads {init d : Dev} (n : Nand) (h : init.Leads d) : init.Leads (Dev.eraseIssue d n) := by
  unfold Dev.eraseIssue
  repeat' first
    | with_reducible assumption
    | (intro v; refine (fun hv : init.Leads v => ?_) ?_; rotate_left; subst v)
    | (intro v; refine (fun hv : init.Leads v.1 => ?_) ?_; rotate_left; subst v)
    | (intro v; refine (fun hv : init.Leads v.2 => ?_) ?_; rotate_left; subst v)
    | intro _
    | (extract_lets -lift +onlyGivenNames w; revert w)
    | dsimp -zeta -zetaDelta only
    | with_reducible apply Dev.raise_leads
    | with_reducible apply Dev.setQuad_leads
    | with_reducible apply Dev.retireQuad_leads
    | (simp [*]; done)
    | (split <;> try (rename_i e; try obtain rfl := congrArg Prod.fst e; try obtain rfl := congrArg Prod.snd e))

@[simp] theorem Dev.eraseDone_leads {init d : Dev} (n : Nand) (failed : Option Nat) (h : init.Leads d) : init.Leads (Dev.eraseDone d n failed) := by
  unfold Dev.eraseDone
  repeat' first
    | with_reducible assumption
    | (intro v; refine (fun hv : init.Leads v => ?_) ?_; rotate_left; subst v)
    | (intro v; refine (fun hv : init.Leads v.1 => ?_) ?_; rotate_left; subst v)
    | (intro v; refine (fun hv : init.Leads v.2 => ?_) ?_; rotate_left; subst v)
    | intro _
    | (extract_lets -lift +onlyGivenNames w; revert w)
    | dsimp -zeta -zetaDelta only
    | with_reducible apply Dev.logQuad_leads
    | with_reducible apply Dev.retireBlock_leads
    | with_reducible apply Dev.dropUnits_leads
    | (simp [*]; done)
    | (split <;> try (rename_i e; try obtain rfl := congrArg Prod.fst e; try obtain rfl := congrArg Prod.snd e))

@[simp] theorem Dev.releaseQuads_leads {init d : Dev} (slot : Nat) (h : init.Leads d) : init.Leads (Dev.releaseQuads d slot) := by
  unfold Dev.releaseQuads
  repeat' first
    | with_reducible assumption
    | (intro v; refine (fun hv : init.Leads v => ?_) ?_; rotate_left; subst v)
    | (intro v; refine (fun hv : init.Leads v.1 => ?_) ?_; rotate_left; subst v)
    | (intro v; refine (fun hv : init.Leads v.2 => ?_) ?_; rotate_left; subst v)
    | intro _
    | (extract_lets -lift +onlyGivenNames w; revert w)
    | dsimp -zeta -zetaDelta only
    | with_reducible apply Dev.forEach_leads
    | with_reducible apply Dev.logQuad_leads
    | with_reducible apply Dev.retireQuad_leads
    | with_reducible apply Dev.dropUnits_leads
    | (simp [*]; done)
    | (split <;> try (rename_i e; try obtain rfl := congrArg Prod.fst e; try obtain rfl := congrArg Prod.snd e))

@[simp] theorem Dev.qComplete_leads {init d : Dev} (die : Nat) (st : Status) (onfi : Nat) (done : Nat) (maxCorr : Nat) (flags : Nat) (corr : Nat) (tag : Nat) (h : init.Leads d) : init.Leads (Dev.qComplete d die st onfi done maxCorr flags corr tag) := by
  unfold Dev.qComplete
  repeat' first
    | with_reducible assumption
    | (intro v; refine (fun hv : init.Leads v => ?_) ?_; rotate_left; subst v)
    | (intro v; refine (fun hv : init.Leads v.1 => ?_) ?_; rotate_left; subst v)
    | (intro v; refine (fun hv : init.Leads v.2 => ?_) ?_; rotate_left; subst v)
    | intro _
    | (extract_lets -lift +onlyGivenNames w; revert w)
    | dsimp -zeta -zetaDelta only
    | with_reducible apply Dev.setF_leads
    | with_reducible apply Dev.setQfl_leads
    | (simp [*]; done)
    | (split <;> try (rename_i e; try obtain rfl := congrArg Prod.fst e; try obtain rfl := congrArg Prod.snd e))

@[simp] theorem Dev.qCheck_leads {init d : Dev} (die : Nat) (e : QDesc) (h : init.Leads d) : init.LeadsE (Dev.qCheck d die e) := by
  unfold Dev.qCheck
  repeat' first
    | with_reducible assumption
    | (intro v; refine (fun hv : init.Leads v => ?_) ?_; rotate_left; subst v)
    | (intro v; refine (fun hv : init.Leads v.1 => ?_) ?_; rotate_left; subst v)
    | (intro v; refine (fun hf1 : ∀ d, init.Leads d → init.Leads (v d) => ?_) ?_; rotate_left; subst v)
    | (intro v; refine (fun hf2 : ∀ d x, init.Leads d → init.Leads (v d x) => ?_) ?_; rotate_left; subst v)
    | (intro v; refine (fun hf3 : ∀ d x y, init.Leads d → init.Leads (v d x y) => ?_) ?_; rotate_left; subst v)
    | (intro v; refine (fun hv : init.Leads v.2 => ?_) ?_; rotate_left; subst v)
    | intro _
    | (extract_lets -lift +onlyGivenNames w; revert w)
    | dsimp -zeta -zetaDelta only
    | with_reducible apply hf1
    | with_reducible apply hf2
    | with_reducible apply hf3
    | with_reducible apply Dev.badHandle_leads
    | with_reducible apply Dev.qComplete_leads
    | with_reducible apply Dev.leadsE_error
    | with_reducible apply Dev.leadsE_ok
    | (simp [*]; done)
    | (split <;> try (rename_i e; try obtain rfl := congrArg Prod.fst e; try obtain rfl := congrArg Prod.snd e))

@[simp] theorem Dev.qCommand_leads {init d : Dev} (die : Nat) (op : Nat) (act : Dev → QDesc → QKey → Option BufKey → Dev) (h : init.Leads d) (hact : ∀ x0 x1 x2 x3, init.Leads x0 → init.Leads (act x0 x1 x2 x3)) : init.Leads (Dev.qCommand d die op act) := by
  unfold Dev.qCommand
  repeat' first
    | with_reducible assumption
    | (intro v; refine (fun hv : init.Leads v => ?_) ?_; rotate_left; subst v)
    | (intro v; refine (fun hv : init.Leads v.1 => ?_) ?_; rotate_left; subst v)
    | (intro v; refine (fun hv : init.Leads v.2 => ?_) ?_; rotate_left; subst v)
    | intro _
    | (extract_lets -lift +onlyGivenNames w; revert w)
    | dsimp -zeta -zetaDelta only
    | with_reducible apply hact
    | with_reducible apply Dev.qComplete_leads
    | with_reducible apply Dev.qCheck_leads
    | refine Dev.LeadsE.of_error ?_ ‹_ = Except.error _›
    | with_reducible apply Dev.leadsE_error
    | with_reducible apply Dev.leadsE_ok
    | (simp [*]; done)
    | (split <;> try (rename_i e; try obtain rfl := congrArg Prod.fst e; try obtain rfl := congrArg Prod.snd e))

@[simp] theorem Dev.qWarn_leads {init d : Dev} (key : QKey) (page : Nat) (m : NandMedium) (h : init.Leads d) : init.Leads (Dev.qWarn d key page m).1 := by
  unfold Dev.qWarn
  repeat' first
    | with_reducible assumption
    | (intro v; refine (fun hv : init.Leads v => ?_) ?_; rotate_left; subst v)
    | (intro v; refine (fun hv : init.Leads v.1 => ?_) ?_; rotate_left; subst v)
    | (intro v; refine (fun hv : init.Leads v.2 => ?_) ?_; rotate_left; subst v)
    | intro _
    | (extract_lets -lift +onlyGivenNames w; revert w)
    | dsimp -zeta -zetaDelta only
    | with_reducible apply Dev.raise_leads
    | with_reducible apply Dev.setQuad_leads
    | (simp [*]; done)
    | (split <;> try (rename_i e; try obtain rfl := congrArg Prod.fst e; try obtain rfl := congrArg Prod.snd e))

@[simp] theorem Dev.qRead_leads {init d : Dev} (e : QDesc) (key : QKey) (k : Option BufKey) (m : NandMedium) (h : init.Leads d) : init.Leads (Dev.qRead d e key k m) := by
  unfold Dev.qRead
  repeat' first
    | with_reducible assumption
    | (intro v; refine (fun hv : init.Leads v => ?_) ?_; rotate_left; subst v)
    | (intro v; refine (fun hv : init.Leads v.1 => ?_) ?_; rotate_left; subst v)
    | (intro v; refine (fun hv : init.Leads v.2 => ?_) ?_; rotate_left; subst v)
    | intro _
    | (extract_lets -lift +onlyGivenNames w; revert w)
    | dsimp -zeta -zetaDelta only
    | with_reducible apply Dev.qComplete_leads
    | with_reducible apply Dev.qWarn_leads
    | (simp [*]; done)
    | (split <;> try (rename_i e; try obtain rfl := congrArg Prod.fst e; try obtain rfl := congrArg Prod.snd e))

@[simp] theorem Dev.qFetch_leads {init d : Dev} (e : QDesc) (key : QKey) (k : Option BufKey) (m : NandMedium) (h : init.Leads d) : init.Leads (Dev.qFetch d e key k m) := by
  unfold Dev.qFetch
  repeat' first
    | with_reducible assumption
    | (intro v; refine (fun hv : init.Leads v => ?_) ?_; rotate_left; subst v)
    | (intro v; refine (fun hv : init.Leads v.1 => ?_) ?_; rotate_left; subst v)
    | (intro v; refine (fun hv : init.Leads v.2 => ?_) ?_; rotate_left; subst v)
    | intro _
    | (extract_lets -lift +onlyGivenNames w; revert w)
    | dsimp -zeta -zetaDelta only
    | with_reducible apply Dev.qComplete_leads
    | (simp [*]; done)
    | (split <;> try (rename_i e; try obtain rfl := congrArg Prod.fst e; try obtain rfl := congrArg Prod.snd e))

@[simp] theorem Dev.qProgram_leads {init d : Dev} (e : QDesc) (key : QKey) (k : Option BufKey) (m : NandMedium) (h : init.Leads d) : init.Leads (Dev.qProgram d e key k m) := by
  unfold Dev.qProgram
  repeat' first
    | with_reducible assumption
    | (intro v; refine (fun hv : init.Leads v => ?_) ?_; rotate_left; subst v)
    | (intro v; refine (fun hv : init.Leads v.1 => ?_) ?_; rotate_left; subst v)
    | (intro v; refine (fun hv : init.Leads v.2 => ?_) ?_; rotate_left; subst v)
    | intro _
    | (extract_lets -lift +onlyGivenNames w; revert w)
    | dsimp -zeta -zetaDelta only
    | with_reducible apply Dev.setQfl_leads
    | with_reducible apply Dev.logQuad_leads
    | with_reducible apply Dev.retireBlock_leads
    | with_reducible apply Dev.qComplete_leads
    | (simp [*]; done)
    | (split <;> try (rename_i e; try obtain rfl := congrArg Prod.fst e; try obtain rfl := congrArg Prod.snd e))

@[simp] theorem Dev.qErase_leads {init d : Dev} (e : QDesc) (key : QKey) (m : NandMedium) (h : init.Leads d) : init.Leads (Dev.qErase d e key m) := by
  unfold Dev.qErase
  repeat' first
    | with_reducible assumption
    | (intro v; refine (fun hv : init.Leads v => ?_) ?_; rotate_left; subst v)
    | (intro v; refine (fun hv : init.Leads v.1 => ?_) ?_; rotate_left; subst v)
    | (intro v; refine (fun hv : init.Leads v.2 => ?_) ?_; rotate_left; subst v)
    | intro _
    | (extract_lets -lift +onlyGivenNames w; revert w)
    | dsimp -zeta -zetaDelta only
    | with_reducible apply Dev.logQuad_leads
    | with_reducible apply Dev.retireBlock_leads
    | with_reducible apply Dev.dropUnits_leads
    | with_reducible apply Dev.qComplete_leads
    | (simp [*]; done)
    | (split <;> try (rename_i e; try obtain rfl := congrArg Prod.fst e; try obtain rfl := congrArg Prod.snd e))

@[simp] theorem Dev.qBlank_leads {init d : Dev} (e : QDesc) (key : QKey) (m : NandMedium) (h : init.Leads d) : init.Leads (Dev.qBlank d e key m) := by
  simp [Dev.qBlank, h]

end Sys2Proof.Machine
end

