-- ==== Sys2Proof/Laws/LeadsBellows.lean ====
section
/-! SUPPORT. What the Bellows, the ceiling and the quench flash commands never break (Leads), one lemma a function; each command runs (Runs), one lemma a command. -/

namespace Sys2Proof.Machine

open Sys2Proof

set_option linter.tactic.unusedName false
set_option linter.unusedTactic false
set_option linter.unreachableTactic false
set_option linter.unusedSimpArgs false
set_option linter.unusedVariables false

@[simp] theorem Dev.setBell_leads {init d : Dev} (f : BellState → BellState) (h : init.Leads d) : init.Leads (Dev.setBell d f) := by
  simp [Dev.setBell, h]

@[simp] theorem Dev.modBstr_leads {init d : Dev} (n : Nat) (f : BStr → BStr) (h : init.Leads d) : init.Leads (Dev.modBstr d n f) := by
  simp [Dev.modBstr, h]

@[simp] theorem Dev.dryChanged_leads {init d : Dev} (h : init.Leads d) : init.Leads (Dev.dryChanged d) := by
  simp [Dev.dryChanged, h]

@[simp] theorem Dev.showStr_leads {init d : Dev} (n : Nat) (h : init.Leads d) : init.Leads (Dev.showStr d n) := by
  unfold Dev.showStr
  repeat' first
    | with_reducible assumption
    | (intro v; refine (fun hv : init.Leads v => ?_) ?_; rotate_left; subst v)
    | (intro v; refine (fun hv : init.Leads v.1 => ?_) ?_; rotate_left; subst v)
    | (intro v; refine (fun hv : init.Leads v.2 => ?_) ?_; rotate_left; subst v)
    | intro _
    | (extract_lets -lift +onlyGivenNames w; revert w)
    | dsimp -zeta -zetaDelta only
    | with_reducible apply Dev.setF_leads
    | with_reducible apply Dev.setB_leads
    | with_reducible apply Dev.setPin_leads
    | with_reducible apply Dev.dryChanged_leads
    | (simp [*]; done)
    | (split <;> try (rename_i e; try obtain rfl := congrArg Prod.fst e; try obtain rfl := congrArg Prod.snd e))

@[simp] theorem Dev.showStrs_leads {init d : Dev} (h : init.Leads d) : init.Leads (Dev.showStrs d) := by
  unfold Dev.showStrs
  repeat' first
    | with_reducible assumption
    | (intro v; refine (fun hv : init.Leads v => ?_) ?_; rotate_left; subst v)
    | (intro v; refine (fun hv : init.Leads v.1 => ?_) ?_; rotate_left; subst v)
    | (intro v; refine (fun hv : init.Leads v.2 => ?_) ?_; rotate_left; subst v)
    | intro _
    | (extract_lets -lift +onlyGivenNames w; revert w)
    | dsimp -zeta -zetaDelta only
    | with_reducible apply Dev.forEach_leads
    | with_reducible apply Dev.showStr_leads
    | (simp [*]; done)
    | (split <;> try (rename_i e; try obtain rfl := congrArg Prod.fst e; try obtain rfl := congrArg Prod.snd e))

@[simp] theorem Dev.unknown_leads {init d : Dev} (n : Nat) (h : init.Leads d) : init.Leads (Dev.unknown d n) := by
  simp [Dev.unknown, h]

@[simp] theorem Dev.setSerial_leads {init d : Dev} (n : Nat) (v : Nat) (h : init.Leads d) : init.Leads (Dev.setSerial d n v) := by
  simp [Dev.setSerial, h]

@[simp] theorem Dev.lvRecord_leads {init d : Dev} (n : Nat) (h : init.Leads d) : init.Leads (Dev.lvRecord d n) := by
  unfold Dev.lvRecord
  repeat' first
    | with_reducible assumption
    | (intro v; refine (fun hv : init.Leads v => ?_) ?_; rotate_left; subst v)
    | (intro v; refine (fun hv : init.Leads v.1 => ?_) ?_; rotate_left; subst v)
    | (intro v; refine (fun hv : init.Leads v.2 => ?_) ?_; rotate_left; subst v)
    | intro _
    | (extract_lets -lift +onlyGivenNames w; revert w)
    | dsimp -zeta -zetaDelta only
    | with_reducible apply Dev.setF_leads
    | with_reducible apply Dev.record_leads
    | (simp [*]; done)
    | (split <;> try (rename_i e; try obtain rfl := congrArg Prod.fst e; try obtain rfl := congrArg Prod.snd e))

@[simp] theorem Dev.dryRecord_leads {init d : Dev} (e : Nat) (r : Nat) (h : init.Leads d) : init.Leads (Dev.dryRecord d e r) := by
  simp [Dev.dryRecord, h]

@[simp] theorem Dev.setLearn_leads {init d : Dev} (n : Nat) (st : Nat) (h : init.Leads d) : init.Leads (Dev.setLearn d n st) := by
  unfold Dev.setLearn
  repeat' first
    | with_reducible assumption
    | (intro v; refine (fun hv : init.Leads v => ?_) ?_; rotate_left; subst v)
    | (intro v; refine (fun hv : init.Leads v.1 => ?_) ?_; rotate_left; subst v)
    | (intro v; refine (fun hv : init.Leads v.2 => ?_) ?_; rotate_left; subst v)
    | intro _
    | (extract_lets -lift +onlyGivenNames w; revert w)
    | dsimp -zeta -zetaDelta only
    | with_reducible apply Dev.setF_leads
    | with_reducible apply Dev.setB_leads
    | with_reducible apply Dev.setBell_leads
    | (simp [*]; done)
    | (split <;> try (rename_i e; try obtain rfl := congrArg Prod.fst e; try obtain rfl := congrArg Prod.snd e))

@[simp] theorem Dev.schedule'_leads {init d : Dev} (n : Nat) (cause : Nat) (h : init.Leads d) : init.Leads (Dev.schedule' d n cause) := by
  unfold Dev.schedule'
  repeat' first
    | with_reducible assumption
    | (intro v; refine (fun hv : init.Leads v => ?_) ?_; rotate_left; subst v)
    | (intro v; refine (fun hv : init.Leads v.1 => ?_) ?_; rotate_left; subst v)
    | (intro v; refine (fun hv : init.Leads v.2 => ?_) ?_; rotate_left; subst v)
    | intro _
    | (extract_lets -lift +onlyGivenNames w; revert w)
    | dsimp -zeta -zetaDelta only
    | with_reducible apply Dev.modBstr_leads
    | with_reducible apply Dev.setLearn_leads
    | (simp [*]; done)
    | (split <;> try (rename_i e; try obtain rfl := congrArg Prod.fst e; try obtain rfl := congrArg Prod.snd e))

@[simp] theorem Dev.abortLearn_leads {init d : Dev} (n : Nat) (cause : Nat) (h : init.Leads d) : init.Leads (Dev.abortLearn d n cause) := by
  unfold Dev.abortLearn
  repeat' first
    | with_reducible assumption
    | (intro v; refine (fun hv : init.Leads v => ?_) ?_; rotate_left; subst v)
    | (intro v; refine (fun hv : init.Leads v.1 => ?_) ?_; rotate_left; subst v)
    | (intro v; refine (fun hv : init.Leads v.2 => ?_) ?_; rotate_left; subst v)
    | intro _
    | (extract_lets -lift +onlyGivenNames w; revert w)
    | dsimp -zeta -zetaDelta only
    | with_reducible apply Dev.raiseB_leads
    | with_reducible apply Dev.modBstr_leads
    | with_reducible apply Dev.showStr_leads
    | with_reducible apply Dev.setLearn_leads
    | (simp [*]; done)
    | (split <;> try (rename_i e; try obtain rfl := congrArg Prod.fst e; try obtain rfl := congrArg Prod.snd e))

@[simp] theorem Dev.learnDone_leads {init d : Dev} (n : Nat) (removed : Nat) (h : init.Leads d) : init.Leads (Dev.learnDone d n removed) := by
  unfold Dev.learnDone
  repeat' first
    | with_reducible assumption
    | (intro v; refine (fun hv : init.Leads v => ?_) ?_; rotate_left; subst v)
    | (intro v; refine (fun hv : init.Leads v.1 => ?_) ?_; rotate_left; subst v)
    | (intro v; refine (fun hv : init.Leads v.2 => ?_) ?_; rotate_left; subst v)
    | intro _
    | (extract_lets -lift +onlyGivenNames w; revert w)
    | dsimp -zeta -zetaDelta only
    | with_reducible apply Dev.setF_leads
    | with_reducible apply Dev.setB_leads
    | with_reducible apply Dev.raiseB_leads
    | with_reducible apply Dev.modBstr_leads
    | with_reducible apply Dev.setLearn_leads
    | (simp [*]; done)
    | (split <;> try (rename_i e; try obtain rfl := congrArg Prod.fst e; try obtain rfl := congrArg Prod.snd e))

@[simp] theorem Dev.fullAnchor_leads {init d : Dev} (n : Nat) (h : init.Leads d) : init.Leads (Dev.fullAnchor d n) := by
  unfold Dev.fullAnchor
  repeat' first
    | with_reducible assumption
    | (intro v; refine (fun hv : init.Leads v => ?_) ?_; rotate_left; subst v)
    | (intro v; refine (fun hv : init.Leads v.1 => ?_) ?_; rotate_left; subst v)
    | (intro v; refine (fun hv : init.Leads v.2 => ?_) ?_; rotate_left; subst v)
    | intro _
    | (extract_lets -lift +onlyGivenNames w; revert w)
    | dsimp -zeta -zetaDelta only
    | with_reducible apply Dev.setB_leads
    | with_reducible apply Dev.raiseB_leads
    | with_reducible apply Dev.modBstr_leads
    | with_reducible apply Dev.showStr_leads
    | with_reducible apply Dev.lvRecord_leads
    | with_reducible apply Dev.setLearn_leads
    | (simp [*]; done)
    | (split <;> try (rename_i e; try obtain rfl := congrArg Prod.fst e; try obtain rfl := congrArg Prod.snd e))

@[simp] theorem Dev.emptyAnchor_leads {init d : Dev} (n : Nat) (h : init.Leads d) : init.Leads (Dev.emptyAnchor d n) := by
  unfold Dev.emptyAnchor
  repeat' first
    | with_reducible assumption
    | (intro v; refine (fun hv : init.Leads v => ?_) ?_; rotate_left; subst v)
    | (intro v; refine (fun hv : init.Leads v.1 => ?_) ?_; rotate_left; subst v)
    | (intro v; refine (fun hv : init.Leads v.2 => ?_) ?_; rotate_left; subst v)
    | intro _
    | (extract_lets -lift +onlyGivenNames w; revert w)
    | dsimp -zeta -zetaDelta only
    | with_reducible apply Dev.setB_leads
    | with_reducible apply Dev.raiseB_leads
    | with_reducible apply Dev.modBstr_leads
    | with_reducible apply Dev.showStr_leads
    | with_reducible apply Dev.lvRecord_leads
    | with_reducible apply Dev.learnDone_leads
    | (simp [*]; done)
    | (split <;> try (rename_i e; try obtain rfl := congrArg Prod.fst e; try obtain rfl := congrArg Prod.snd e))

@[simp] theorem Dev.conflictCheck_leads {init d : Dev} (n : Nat) (h : init.Leads d) : init.Leads (Dev.conflictCheck d n) := by
  unfold Dev.conflictCheck
  repeat' first
    | with_reducible assumption
    | (intro v; refine (fun hv : init.Leads v => ?_) ?_; rotate_left; subst v)
    | (intro v; refine (fun hv : init.Leads v.1 => ?_) ?_; rotate_left; subst v)
    | (intro v; refine (fun hv : init.Leads v.2 => ?_) ?_; rotate_left; subst v)
    | intro _
    | (extract_lets -lift +onlyGivenNames w; revert w)
    | dsimp -zeta -zetaDelta only
    | with_reducible apply Dev.setB_leads
    | with_reducible apply Dev.raiseB_leads
    | (simp [*]; done)
    | (split <;> try (rename_i e; try obtain rfl := congrArg Prod.fst e; try obtain rfl := congrArg Prod.snd e))

@[simp] theorem Dev.enterFault_leads {init d : Dev} (n : Nat) (fault : Nat) (h : init.Leads d) : init.Leads (Dev.enterFault d n fault) := by
  unfold Dev.enterFault
  repeat' first
    | with_reducible assumption
    | (intro v; refine (fun hv : init.Leads v => ?_) ?_; rotate_left; subst v)
    | (intro v; refine (fun hv : init.Leads v.1 => ?_) ?_; rotate_left; subst v)
    | (intro v; refine (fun hv : init.Leads v.2 => ?_) ?_; rotate_left; subst v)
    | intro _
    | (extract_lets -lift +onlyGivenNames w; revert w)
    | dsimp -zeta -zetaDelta only
    | with_reducible apply Dev.raiseB_leads
    | with_reducible apply Dev.modBstr_leads
    | (simp [*]; done)
    | (split <;> try (rename_i e; try obtain rfl := congrArg Prod.fst e; try obtain rfl := congrArg Prod.snd e))

@[simp] theorem Dev.countStr_leads {init d : Dev} (n : Nat) (ma : Int) (h : init.Leads d) : init.Leads (Dev.countStr d n ma) := by
  simp [Dev.countStr, h]

@[simp] theorem Dev.faultsOf_leads {init d : Dev} (n : Nat) (h : init.Leads d) : init.Leads (Dev.faultsOf d n) := by
  unfold Dev.faultsOf
  repeat' first
    | with_reducible assumption
    | (intro v; refine (fun hv : init.Leads v => ?_) ?_; rotate_left; subst v)
    | (intro v; refine (fun hv : init.Leads v.1 => ?_) ?_; rotate_left; subst v)
    | (intro v; refine (fun hv : init.Leads v.2 => ?_) ?_; rotate_left; subst v)
    | intro _
    | (extract_lets -lift +onlyGivenNames w; revert w)
    | dsimp -zeta -zetaDelta only
    | with_reducible apply Dev.unknown_leads
    | with_reducible apply Dev.enterFault_leads
    | (simp [*]; done)
    | (split <;> try (rename_i e; try obtain rfl := congrArg Prod.fst e; try obtain rfl := congrArg Prod.snd e))

@[simp] theorem Dev.anchorCheck_leads {init d : Dev} (n : Nat) (h : init.Leads d) : init.Leads (Dev.anchorCheck d n) := by
  unfold Dev.anchorCheck
  repeat' first
    | with_reducible assumption
    | (intro v; refine (fun hv : init.Leads v => ?_) ?_; rotate_left; subst v)
    | (intro v; refine (fun hv : init.Leads v.1 => ?_) ?_; rotate_left; subst v)
    | (intro v; refine (fun hv : init.Leads v.2 => ?_) ?_; rotate_left; subst v)
    | intro _
    | (extract_lets -lift +onlyGivenNames w; revert w)
    | dsimp -zeta -zetaDelta only
    | with_reducible apply Dev.modBstr_leads
    | with_reducible apply Dev.emptyAnchor_leads
    | with_reducible apply Dev.conflictCheck_leads
    | (simp [*]; done)
    | (split <;> try (rename_i e; try obtain rfl := congrArg Prod.fst e; try obtain rfl := congrArg Prod.snd e))

@[simp] theorem Dev.sampleStr_leads {init d : Dev} (n : Nat) (x : StrSample) (h : init.Leads d) : init.Leads (Dev.sampleStr d n x) := by
  unfold Dev.sampleStr
  repeat' first
    | with_reducible assumption
    | (intro v; refine (fun hv : init.Leads v => ?_) ?_; rotate_left; subst v)
    | (intro v; refine (fun hv : init.Leads v.1 => ?_) ?_; rotate_left; subst v)
    | (intro v; refine (fun hv : init.Leads v.2 => ?_) ?_; rotate_left; subst v)
    | intro _
    | (extract_lets -lift +onlyGivenNames w; revert w)
    | dsimp -zeta -zetaDelta only
    | with_reducible apply Dev.setF_leads
    | with_reducible apply Dev.showStr_leads
    | with_reducible apply Dev.abortLearn_leads
    | with_reducible apply Dev.countStr_leads
    | with_reducible apply Dev.faultsOf_leads
    | with_reducible apply Dev.anchorCheck_leads
    | (simp [*]; done)
    | (split <;> try (rename_i e; try obtain rfl := congrArg Prod.fst e; try obtain rfl := congrArg Prod.snd e))

@[simp] theorem Dev.dryEnergy_leads {init d : Dev} (xs : List StrSample) (h : init.Leads d) : init.Leads (Dev.dryEnergy d xs) := by
  unfold Dev.dryEnergy
  repeat' first
    | with_reducible assumption
    | (intro v; refine (fun hv : init.Leads v => ?_) ?_; rotate_left; subst v)
    | (intro v; refine (fun hv : init.Leads v.1 => ?_) ?_; rotate_left; subst v)
    | (intro v; refine (fun hv : init.Leads v.2 => ?_) ?_; rotate_left; subst v)
    | intro _
    | (extract_lets -lift +onlyGivenNames w; revert w)
    | dsimp -zeta -zetaDelta only
    | with_reducible apply Dev.setCeil_leads
    | with_reducible apply Dev.leads_foldl
    | (simp [*]; done)
    | (split <;> try (rename_i e; try obtain rfl := congrArg Prod.fst e; try obtain rfl := congrArg Prod.snd e))

@[simp] theorem Dev.sampleAll_leads {init d : Dev} (xs : List StrSample) (h : init.Leads d) : init.Leads (Dev.sampleAll d xs) := by
  unfold Dev.sampleAll
  repeat' first
    | with_reducible assumption
    | (intro v; refine (fun hv : init.Leads v => ?_) ?_; rotate_left; subst v)
    | (intro v; refine (fun hv : init.Leads v.1 => ?_) ?_; rotate_left; subst v)
    | (intro v; refine (fun hv : init.Leads v.2 => ?_) ?_; rotate_left; subst v)
    | intro _
    | (extract_lets -lift +onlyGivenNames w; revert w)
    | dsimp -zeta -zetaDelta only
    | with_reducible apply Dev.forEach_leads
    | with_reducible apply Dev.until_leads
    | with_reducible apply Dev.setBell_leads
    | with_reducible apply Dev.abortLearn_leads
    | with_reducible apply Dev.sampleStr_leads
    | with_reducible apply Dev.dryEnergy_leads
    | (simp [*]; done)
    | (split <;> try (rename_i e; try obtain rfl := congrArg Prod.fst e; try obtain rfl := congrArg Prod.snd e))

@[simp] theorem Dev.calStart_leads {init d : Dev} (n : Nat) (h : init.Leads d) : init.Leads (Dev.calStart d n) := by
  unfold Dev.calStart
  repeat' first
    | with_reducible assumption
    | (intro v; refine (fun hv : init.Leads v => ?_) ?_; rotate_left; subst v)
    | (intro v; refine (fun hv : init.Leads v.1 => ?_) ?_; rotate_left; subst v)
    | (intro v; refine (fun hv : init.Leads v.2 => ?_) ?_; rotate_left; subst v)
    | intro _
    | (extract_lets -lift +onlyGivenNames w; revert w)
    | dsimp -zeta -zetaDelta only
    | with_reducible apply Dev.setPin_leads
    | with_reducible apply Dev.setBell_leads
    | (simp [*]; done)
    | (split <;> try (rename_i e; try obtain rfl := congrArg Prod.fst e; try obtain rfl := congrArg Prod.snd e))

@[simp] theorem Dev.calEnd_leads {init d : Dev} (n : Nat) (r : Option Nat) (h : init.Leads d) : init.Leads (Dev.calEnd d n r) := by
  unfold Dev.calEnd
  repeat' first
    | with_reducible assumption
    | (intro v; refine (fun hv : init.Leads v => ?_) ?_; rotate_left; subst v)
    | (intro v; refine (fun hv : init.Leads v.1 => ?_) ?_; rotate_left; subst v)
    | (intro v; refine (fun hv : init.Leads v.2 => ?_) ?_; rotate_left; subst v)
    | intro _
    | (extract_lets -lift +onlyGivenNames w; revert w)
    | dsimp -zeta -zetaDelta only
    | with_reducible apply Dev.setF_leads
    | with_reducible apply Dev.incF_leads
    | with_reducible apply Dev.raiseB_leads
    | with_reducible apply Dev.setPin_leads
    | with_reducible apply Dev.setBell_leads
    | with_reducible apply Dev.modBstr_leads
    | (simp [*]; done)
    | (split <;> try (rename_i e; try obtain rfl := congrArg Prod.fst e; try obtain rfl := congrArg Prod.snd e))

@[simp] theorem Dev.sendNonce_leads {init d : Dev} (n : Nat) (h : init.Leads d) : init.Leads (Dev.sendNonce d n) := by
  simp [Dev.sendNonce, h]

@[simp] theorem Dev.startAuth_leads {init d : Dev} (n : Nat) (h : init.Leads d) : init.Leads (Dev.startAuth d n) := by
  unfold Dev.startAuth
  repeat' first
    | with_reducible assumption
    | (intro v; refine (fun hv : init.Leads v => ?_) ?_; rotate_left; subst v)
    | (intro v; refine (fun hv : init.Leads v.1 => ?_) ?_; rotate_left; subst v)
    | (intro v; refine (fun hv : init.Leads v.2 => ?_) ?_; rotate_left; subst v)
    | intro _
    | (extract_lets -lift +onlyGivenNames w; revert w)
    | dsimp -zeta -zetaDelta only
    | with_reducible apply Dev.modBstr_leads
    | with_reducible apply Dev.sendNonce_leads
    | (simp [*]; done)
    | (split <;> try (rename_i e; try obtain rfl := congrArg Prod.fst e; try obtain rfl := congrArg Prod.snd e))

@[simp] theorem Dev.authResult_leads {init d : Dev} (n : Nat) (failed : Option Nat) (h : init.Leads d) : init.Leads (Dev.authResult d n failed) := by
  unfold Dev.authResult
  repeat' first
    | with_reducible assumption
    | (intro v; refine (fun hv : init.Leads v => ?_) ?_; rotate_left; subst v)
    | (intro v; refine (fun hv : init.Leads v.1 => ?_) ?_; rotate_left; subst v)
    | (intro v; refine (fun hv : init.Leads v.2 => ?_) ?_; rotate_left; subst v)
    | intro _
    | (extract_lets -lift +onlyGivenNames w; revert w)
    | dsimp -zeta -zetaDelta only
    | with_reducible apply Dev.setB_leads
    | with_reducible apply Dev.raiseB_leads
    | with_reducible apply Dev.modBstr_leads
    | with_reducible apply Dev.showStr_leads
    | (simp [*]; done)
    | (split <;> try (rename_i e; try obtain rfl := congrArg Prod.fst e; try obtain rfl := congrArg Prod.snd e))

@[simp] theorem Dev.moduleChanged_leads {init d : Dev} (n : Nat) (serial : Nat) (h : init.Leads d) : init.Leads (Dev.moduleChanged d n serial) := by
  unfold Dev.moduleChanged
  repeat' first
    | with_reducible assumption
    | (intro v; refine (fun hv : init.Leads v => ?_) ?_; rotate_left; subst v)
    | (intro v; refine (fun hv : init.Leads v.1 => ?_) ?_; rotate_left; subst v)
    | (intro v; refine (fun hv : init.Leads v.2 => ?_) ?_; rotate_left; subst v)
    | intro _
    | (extract_lets -lift +onlyGivenNames w; revert w)
    | dsimp -zeta -zetaDelta only
    | with_reducible apply Dev.setF_leads
    | with_reducible apply Dev.setB_leads
    | with_reducible apply Dev.raiseB_leads
    | with_reducible apply Dev.modBstr_leads
    | with_reducible apply Dev.unknown_leads
    | with_reducible apply Dev.setSerial_leads
    | with_reducible apply Dev.lvRecord_leads
    | with_reducible apply Dev.abortLearn_leads
    | with_reducible apply Dev.startAuth_leads
    | (simp [*]; done)
    | (split <;> try (rename_i e; try obtain rfl := congrArg Prod.fst e; try obtain rfl := congrArg Prod.snd e))

@[simp] theorem Dev.pollStr_leads {init d : Dev} (n : Nat) (answer : Option Nat) (h : init.Leads d) : init.Leads (Dev.pollStr d n answer) := by
  unfold Dev.pollStr
  repeat' first
    | with_reducible assumption
    | (intro v; refine (fun hv : init.Leads v => ?_) ?_; rotate_left; subst v)
    | (intro v; refine (fun hv : init.Leads v.1 => ?_) ?_; rotate_left; subst v)
    | (intro v; refine (fun hv : init.Leads v.2 => ?_) ?_; rotate_left; subst v)
    | intro _
    | (extract_lets -lift +onlyGivenNames w; revert w)
    | dsimp -zeta -zetaDelta only
    | with_reducible apply Dev.setB_leads
    | with_reducible apply Dev.raiseB_leads
    | with_reducible apply Dev.modBstr_leads
    | with_reducible apply Dev.showStr_leads
    | with_reducible apply Dev.unknown_leads
    | with_reducible apply Dev.setSerial_leads
    | with_reducible apply Dev.abortLearn_leads
    | with_reducible apply Dev.startAuth_leads
    | with_reducible apply Dev.moduleChanged_leads
    | (simp [*]; done)
    | (split <;> try (rename_i e; try obtain rfl := congrArg Prod.fst e; try obtain rfl := congrArg Prod.snd e))

@[simp] theorem Dev.showDry_leads {init d : Dev} (h : init.Leads d) : init.Leads (Dev.showDry d) := by
  unfold Dev.showDry
  repeat' first
    | with_reducible assumption
    | (intro v; refine (fun hv : init.Leads v => ?_) ?_; rotate_left; subst v)
    | (intro v; refine (fun hv : init.Leads v.1 => ?_) ?_; rotate_left; subst v)
    | (intro v; refine (fun hv : init.Leads v.2 => ?_) ?_; rotate_left; subst v)
    | intro _
    | (extract_lets -lift +onlyGivenNames w; revert w)
    | dsimp -zeta -zetaDelta only
    | with_reducible apply Dev.setF_leads
    | with_reducible apply Dev.setB_leads
    | (simp [*]; done)
    | (split <;> try (rename_i e; try obtain rfl := congrArg Prod.fst e; try obtain rfl := congrArg Prod.snd e))

@[simp] theorem Dev.compute_leads {init d : Dev} (cause : Nat) (h : init.Leads d) : init.Leads (Dev.compute d cause) := by
  unfold Dev.compute
  repeat' first
    | with_reducible assumption
    | (intro v; refine (fun hv : init.Leads v => ?_) ?_; rotate_left; subst v)
    | (intro v; refine (fun hv : init.Leads v.1 => ?_) ?_; rotate_left; subst v)
    | (intro v; refine (fun hv : init.Leads v.2 => ?_) ?_; rotate_left; subst v)
    | intro _
    | (extract_lets -lift +onlyGivenNames w; revert w)
    | dsimp -zeta -zetaDelta only
    | with_reducible apply Dev.setF_leads
    | with_reducible apply Dev.forEach_leads
    | with_reducible apply Dev.raiseB_leads
    | with_reducible apply Dev.ceilCheck_leads
    | with_reducible apply Dev.showDry_leads
    | with_reducible apply Dev.setCeil_leads
    | (simp [*]; done)
    | (split <;> try (rename_i e; try obtain rfl := congrArg Prod.fst e; try obtain rfl := congrArg Prod.snd e))

@[simp] theorem Dev.releaseReceive_leads {init d : Dev} (h : init.Leads d) : init.Leads (Dev.releaseReceive d) := by
  simp [Dev.releaseReceive, h]

@[simp] theorem Dev.dryStart_leads {init d : Dev} (mib : Nat) (update : Bool) (auto : Bool) (h : init.Leads d) : init.Leads (Dev.dryStart d mib update auto) := by
  unfold Dev.dryStart
  repeat' first
    | with_reducible assumption
    | (intro v; refine (fun hv : init.Leads v => ?_) ?_; rotate_left; subst v)
    | (intro v; refine (fun hv : init.Leads v.1 => ?_) ?_; rotate_left; subst v)
    | (intro v; refine (fun hv : init.Leads v.2 => ?_) ?_; rotate_left; subst v)
    | intro _
    | (extract_lets -lift +onlyGivenNames w; revert w)
    | dsimp -zeta -zetaDelta only
    | with_reducible apply Dev.setB_leads
    | with_reducible apply Dev.raiseB_leads
    | with_reducible apply Dev.setCeil_leads
    | (simp [*]; done)
    | (split <;> try (rename_i e; try obtain rfl := congrArg Prod.fst e; try obtain rfl := congrArg Prod.snd e))

@[simp] theorem Dev.dryLeave_leads {init d : Dev} (ret : Ret) (st : Status) (h : init.Leads d) : init.Leads (Dev.dryLeave d ret st) := by
  unfold Dev.dryLeave
  repeat' first
    | with_reducible assumption
    | (intro v; refine (fun hv : init.Leads v => ?_) ?_; rotate_left; subst v)
    | (intro v; refine (fun hv : init.Leads v.1 => ?_) ?_; rotate_left; subst v)
    | (intro v; refine (fun hv : init.Leads v.2 => ?_) ?_; rotate_left; subst v)
    | intro _
    | (extract_lets -lift +onlyGivenNames w; revert w)
    | dsimp -zeta -zetaDelta only
    | with_reducible apply Dev.emit_leads
    | with_reducible apply Dev.setB_leads
    | with_reducible apply Dev.eraseKey_leads
    | with_reducible apply Dev.showStrs_leads
    | with_reducible apply Dev.setCeil_leads
    | (simp [*]; done)
    | (split <;> try (rename_i e; try obtain rfl := congrArg Prod.fst e; try obtain rfl := congrArg Prod.snd e))

@[simp] theorem Dev.abortDry_leads {init d : Dev} (cause : Nat) (h : init.Leads d) : init.Leads (Dev.abortDry d cause) := by
  unfold Dev.abortDry
  repeat' first
    | with_reducible assumption
    | (intro v; refine (fun hv : init.Leads v => ?_) ?_; rotate_left; subst v)
    | (intro v; refine (fun hv : init.Leads v.1 => ?_) ?_; rotate_left; subst v)
    | (intro v; refine (fun hv : init.Leads v.2 => ?_) ?_; rotate_left; subst v)
    | intro _
    | (extract_lets -lift +onlyGivenNames w; revert w)
    | dsimp -zeta -zetaDelta only
    | with_reducible apply Dev.raiseB_leads
    | with_reducible apply Dev.dryLeave_leads
    | (simp [*]; done)
    | (split <;> try (rename_i e; try obtain rfl := congrArg Prod.fst e; try obtain rfl := congrArg Prod.snd e))

@[simp] theorem Dev.rejectDry_leads {init d : Dev} (reason : Nat) (e : Nat) (r : Nat) (h : init.Leads d) : init.Leads (Dev.rejectDry d reason e r) := by
  simp [Dev.rejectDry, h]

@[simp] theorem Dev.dryOpenNow_leads {init d : Dev} (h : init.Leads d) : init.Leads (Dev.dryOpenNow d) := by
  unfold Dev.dryOpenNow
  repeat' first
    | with_reducible assumption
    | (intro v; refine (fun hv : init.Leads v => ?_) ?_; rotate_left; subst v)
    | (intro v; refine (fun hv : init.Leads v.1 => ?_) ?_; rotate_left; subst v)
    | (intro v; refine (fun hv : init.Leads v.2 => ?_) ?_; rotate_left; subst v)
    | intro _
    | (extract_lets -lift +onlyGivenNames w; revert w)
    | dsimp -zeta -zetaDelta only
    | with_reducible apply Dev.tick_leads
    | with_reducible apply Dev.forEach_leads
    | with_reducible apply Dev.drawInto_leads
    | with_reducible apply Dev.setQuad_leads
    | with_reducible apply Dev.dropUnits_leads
    | with_reducible apply Dev.showStrs_leads
    | with_reducible apply Dev.rejectDry_leads
    | with_reducible apply Dev.setCeil_leads
    | (simp [*]; done)
    | (split <;> try (rename_i e; try obtain rfl := congrArg Prod.fst e; try obtain rfl := congrArg Prod.snd e))

@[simp] theorem Dev.dryClose_leads {init d : Dev} (ms : Nat) (h : init.Leads d) : init.Leads (Dev.dryClose d ms) := by
  unfold Dev.dryClose
  repeat' first
    | with_reducible assumption
    | (intro v; refine (fun hv : init.Leads v => ?_) ?_; rotate_left; subst v)
    | (intro v; refine (fun hv : init.Leads v.1 => ?_) ?_; rotate_left; subst v)
    | (intro v; refine (fun hv : init.Leads v.2 => ?_) ?_; rotate_left; subst v)
    | intro _
    | (extract_lets -lift +onlyGivenNames w; revert w)
    | dsimp -zeta -zetaDelta only
    | with_reducible apply Dev.setF_leads
    | with_reducible apply Dev.setB_leads
    | with_reducible apply Dev.raiseB_leads
    | with_reducible apply Dev.until_leads
    | with_reducible apply Dev.dryRecord_leads
    | with_reducible apply Dev.dryLeave_leads
    | with_reducible apply Dev.rejectDry_leads
    | with_reducible apply Dev.setCeil_leads
    | (simp [*]; done)
    | (split <;> try (rename_i e; try obtain rfl := congrArg Prod.fst e; try obtain rfl := congrArg Prod.snd e))

@[simp] theorem Dev.untilLife_leads {init d : Dev} (s : Nat) (h : init.Leads d) : init.Leads (Dev.untilLife d s) := by
  simp [Dev.untilLife, h]

@[simp] theorem Dev.dryAuto_leads {init d : Dev} (h : init.Leads d) : init.Leads (Dev.dryAuto d) := by
  unfold Dev.dryAuto
  repeat' first
    | with_reducible assumption
    | (intro v; refine (fun hv : init.Leads v => ?_) ?_; rotate_left; subst v)
    | (intro v; refine (fun hv : init.Leads v.1 => ?_) ?_; rotate_left; subst v)
    | (intro v; refine (fun hv : init.Leads v.2 => ?_) ?_; rotate_left; subst v)
    | intro _
    | (extract_lets -lift +onlyGivenNames w; revert w)
    | dsimp -zeta -zetaDelta only
    | with_reducible apply Dev.raiseB_leads
    | with_reducible apply Dev.until_leads
    | with_reducible apply Dev.dryStart_leads
    | with_reducible apply Dev.untilLife_leads
    | with_reducible apply Dev.setCeil_leads
    | (simp [*]; done)
    | (split <;> try (rename_i e; try obtain rfl := congrArg Prod.fst e; try obtain rfl := congrArg Prod.snd e))

@[simp] theorem Dev.dryStale_leads {init d : Dev} (h : init.Leads d) : init.Leads (Dev.dryStale d) := by
  unfold Dev.dryStale
  repeat' first
    | with_reducible assumption
    | (intro v; refine (fun hv : init.Leads v => ?_) ?_; rotate_left; subst v)
    | (intro v; refine (fun hv : init.Leads v.1 => ?_) ?_; rotate_left; subst v)
    | (intro v; refine (fun hv : init.Leads v.2 => ?_) ?_; rotate_left; subst v)
    | intro _
    | (extract_lets -lift +onlyGivenNames w; revert w)
    | dsimp -zeta -zetaDelta only
    | with_reducible apply Dev.setB_leads
    | with_reducible apply Dev.raiseB_leads
    | with_reducible apply Dev.untilLife_leads
    | (simp [*]; done)
    | (split <;> try (rename_i e; try obtain rfl := congrArg Prod.fst e; try obtain rfl := congrArg Prod.snd e))

theorem execStringSample_runs (strings : List StrSample) (s : State) : s.Runs (execStringSample strings s) := by
  unfold execStringSample
  refine State.on_runs fun init => ?_
  have h := Dev.Leads.refl init
  repeat' first
    | with_reducible assumption
    | intro _
    | with_reducible apply Dev.sampleAll_leads
    | (simp [*]; done)

theorem execFullAnchor_runs (n : Nat) (s : State) : s.Runs (execFullAnchor n s) := by
  unfold execFullAnchor
  refine State.on_runs fun init => ?_
  have h := Dev.Leads.refl init
  repeat' first
    | with_reducible assumption
    | intro _
    | with_reducible apply Dev.fullAnchor_leads
    | (simp [*]; done)
    | split

theorem execFaultClear_runs (n fault : Nat) (s : State) : s.Runs (execFaultClear n fault s) := by
  unfold execFaultClear
  refine State.on_runs fun init => ?_
  have h := Dev.Leads.refl init
  repeat' first
    | with_reducible assumption
    | intro _
    | with_reducible apply Dev.modBstr_leads
    | with_reducible apply Dev.showStr_leads
    | (simp [*]; done)
    | split

theorem execCalStepStart_runs (s : State) : s.Runs (execCalStepStart s) := by
  unfold execCalStepStart
  refine State.on_runs fun init => ?_
  have h := Dev.Leads.refl init
  repeat' first
    | with_reducible assumption
    | intro _
    | with_reducible apply Dev.calStart_leads
    | (simp [*]; done)
    | split

theorem execCalStepEnd_runs (v1 i1 v2 i2 v3 i3 : Int) (s : State) : s.Runs (execCalStepEnd v1 i1 v2 i2 v3 i3 s) := by
  unfold execCalStepEnd
  refine State.on_runs fun init => ?_
  have h := Dev.Leads.refl init
  repeat' first
    | with_reducible assumption
    | intro _
    | with_reducible apply Dev.calEnd_leads
    | (simp [*]; done)
    | split

theorem execLearnCheck_runs (s : State) : s.Runs (execLearnCheck s) := by
  unfold execLearnCheck
  refine State.on_runs fun init => ?_
  have h := Dev.Leads.refl init
  repeat' first
    | with_reducible assumption
    | (intro v; refine (fun hv : init.Leads v => ?_) ?_; rotate_left; subst v)
    | intro _
    | (extract_lets -lift +onlyGivenNames w; revert w)
    | with_reducible apply Dev.forEach_leads
    | with_reducible apply Dev.raiseB_leads
    | with_reducible apply Dev.modBstr_leads
    | with_reducible apply Dev.showStr_leads
    | with_reducible apply Dev.setLearn_leads
    | with_reducible apply Dev.calStart_leads
    | (simp [*]; done)
    | split

theorem execLearnTimeout_runs (n : Nat) (s : State) : s.Runs (execLearnTimeout n s) := by
  unfold execLearnTimeout
  refine State.on_runs fun init => ?_
  have h := Dev.Leads.refl init
  repeat' first
    | with_reducible assumption
    | intro _
    | with_reducible apply Dev.until_leads
    | with_reducible apply Dev.abortLearn_leads
    | (simp [*]; done)
    | split

theorem execLearnRepend_runs (n : Nat) (s : State) : s.Runs (execLearnRepend n s) := by
  unfold execLearnRepend
  refine State.on_runs fun init => ?_
  have h := Dev.Leads.refl init
  repeat' first
    | with_reducible assumption
    | (intro v; refine (fun hv : init.Leads v => ?_) ?_; rotate_left; subst v)
    | intro _
    | (extract_lets -lift +onlyGivenNames w; revert w)
    | with_reducible apply Dev.until_leads
    | with_reducible apply Dev.modBstr_leads
    | (simp [*]; done)
    | split

theorem execLearnPeriod_runs (n : Nat) (s : State) : s.Runs (execLearnPeriod n s) := by
  unfold execLearnPeriod
  refine State.on_runs fun init => ?_
  have h := Dev.Leads.refl init
  repeat' first
    | with_reducible assumption
    | intro _
    | with_reducible apply Dev.untilLife_leads
    | (simp [*]; done)
    | split

theorem execAuthResponse_runs (n : Nat) (failed : Option Nat) (s : State) : s.Runs (execAuthResponse n failed s) := by
  unfold execAuthResponse
  refine State.on_runs fun init => ?_
  have h := Dev.Leads.refl init
  repeat' first
    | with_reducible assumption
    | intro _
    | with_reducible apply Dev.authResult_leads
    | (simp [*]; done)
    | split

theorem execAuthRetry_runs (n : Nat) (s : State) : s.Runs (execAuthRetry n s) := by
  unfold execAuthRetry
  refine State.on_runs fun init => ?_
  have h := Dev.Leads.refl init
  repeat' first
    | with_reducible assumption
    | intro _
    | with_reducible apply Dev.modBstr_leads
    | with_reducible apply Dev.sendNonce_leads
    | (simp [*]; done)
    | split

theorem execAuthPeriodic_runs (n : Nat) (s : State) : s.Runs (execAuthPeriodic n s) := by
  unfold execAuthPeriodic
  refine State.on_runs fun init => ?_
  have h := Dev.Leads.refl init
  repeat' first
    | with_reducible assumption
    | intro _
    | with_reducible apply Dev.startAuth_leads
    | (simp [*]; done)

theorem execSerialPoll_runs (answers : List (Option Nat)) (s : State) : s.Runs (execSerialPoll answers s) := by
  unfold execSerialPoll
  refine State.on_runs fun init => ?_
  have h := Dev.Leads.refl init
  repeat' first
    | with_reducible assumption
    | (intro v; refine (fun hv : init.Leads v => ?_) ?_; rotate_left; subst v)
    | intro _
    | (extract_lets -lift +onlyGivenNames w; revert w)
    | with_reducible apply Dev.forEach_leads
    | with_reducible apply Dev.pollStr_leads
    | with_reducible apply Dev.abortDry_leads
    | (simp [*]; done)
    | split

theorem execLvRecordWrite_runs (failed : List Nat) (status : Nat) (s : State) : s.Runs (execLvRecordWrite failed status s) := by
  unfold execLvRecordWrite
  refine State.on_runs fun init => ?_
  have h := Dev.Leads.refl init
  repeat' first
    | with_reducible assumption
    | intro _
    | with_reducible apply Dev.forEach_leads
    | with_reducible apply Dev.raiseB_leads
    | with_reducible apply Dev.lvRecord_leads
    | (simp [*]; done)
    | split

theorem execAonSenseLow_runs (mv ns : Nat) (s : State) : s.Runs (execAonSenseLow mv ns s) := by
  unfold execAonSenseLow
  refine State.on_runs fun init => ?_
  have h := Dev.Leads.refl init
  repeat' first
    | with_reducible assumption
    | (intro v; refine (fun hv : init.Leads v => ?_) ?_; rotate_left; subst v)
    | intro _
    | (extract_lets -lift +onlyGivenNames w; revert w)
    | with_reducible apply Dev.setB_leads
    | with_reducible apply Dev.setBell_leads
    | (simp [*]; done)
    | split

theorem execAonSenseRise_runs (mv : Nat) (s : State) : s.Runs (execAonSenseRise mv s) := by
  unfold execAonSenseRise
  refine State.on_runs fun init => ?_
  have h := Dev.Leads.refl init
  repeat' first
    | with_reducible assumption
    | (intro v; refine (fun hv : init.Leads v => ?_) ?_; rotate_left; subst v)
    | intro _
    | (extract_lets -lift +onlyGivenNames w; revert w)
    | with_reducible apply Dev.setB_leads
    | with_reducible apply Dev.raiseB_leads
    | with_reducible apply Dev.tmpProceed_leads
    | (simp [*]; done)
    | split

theorem execBellStrForceIsolate_runs (n : Nat) (value : Bool) (s : State) : s.Runs (execBellStrForceIsolate n value s) := by
  unfold execBellStrForceIsolate
  refine State.on_runs fun init => ?_
  have h := Dev.Leads.refl init
  repeat' first
    | with_reducible assumption
    | intro _
    | with_reducible apply Dev.setB_leads
    | with_reducible apply Dev.showStr_leads
    | (simp [*]; done)
    | split

theorem execBellStrLearn_runs (n : Nat) (s : State) : s.Runs (execBellStrLearn n s) := by
  unfold execBellStrLearn
  refine State.on_runs fun init => ?_
  have h := Dev.Leads.refl init
  repeat' first
    | with_reducible assumption
    | intro _
    | (simp [*]; done)
    | split

@[simp] theorem Dev.cancelLearn_leads {init d : Dev} (n : Nat) (h : init.Leads d) : init.Leads (Dev.cancelLearn d n) := by
  unfold Dev.cancelLearn
  repeat' first
    | with_reducible assumption
    | (intro v; refine (fun hv : init.Leads v => ?_) ?_; rotate_left; subst v)
    | (intro v; refine (fun hv : init.Leads v.1 => ?_) ?_; rotate_left; subst v)
    | (intro v; refine (fun hv : init.Leads v.2 => ?_) ?_; rotate_left; subst v)
    | intro _
    | (extract_lets -lift +onlyGivenNames w; revert w)
    | dsimp -zeta -zetaDelta only
    | with_reducible apply Dev.setLearn_leads
    | with_reducible apply Dev.abortLearn_leads
    | (simp [*]; done)
    | (split <;> try (rename_i e; try obtain rfl := congrArg Prod.fst e; try obtain rfl := congrArg Prod.snd e))

theorem execBellStrCancel_runs (n : Nat) (s : State) : s.Runs (execBellStrCancel n s) := by
  unfold execBellStrCancel
  refine State.on_runs fun init => ?_
  have h := Dev.Leads.refl init
  repeat' first
    | with_reducible assumption
    | intro _
    | with_reducible apply Dev.cancelLearn_leads
    | (simp [*]; done)

theorem execBellStrReauth_runs (n : Nat) (s : State) : s.Runs (execBellStrReauth n s) := by
  unfold execBellStrReauth
  refine State.on_runs fun init => ?_
  have h := Dev.Leads.refl init
  repeat' first
    | with_reducible assumption
    | intro _
    | with_reducible apply Dev.startAuth_leads
    | (simp [*]; done)

theorem execCeilingCompute_runs (cause : Nat) (s : State) : s.Runs (execCeilingCompute cause s) := by
  unfold execCeilingCompute
  refine State.on_runs fun init => ?_
  have h := Dev.Leads.refl init
  repeat' first
    | with_reducible assumption
    | intro _
    | with_reducible apply Dev.compute_leads
    | (simp [*]; done)
    | split

theorem execReceiveHoldRelease_runs (s : State) : s.Runs (execReceiveHoldRelease s) := by
  unfold execReceiveHoldRelease
  refine State.on_runs fun init => ?_
  have h := Dev.Leads.refl init
  repeat' first
    | with_reducible assumption
    | intro _
    | with_reducible apply Dev.releaseReceive_leads
    | (simp [*]; done)

theorem execDryQuenchAutoStart_runs (s : State) : s.Runs (execDryQuenchAutoStart s) := by
  unfold execDryQuenchAutoStart
  refine State.on_runs fun init => ?_
  have h := Dev.Leads.refl init
  repeat' first
    | with_reducible assumption
    | intro _
    | with_reducible apply Dev.dryAuto_leads
    | (simp [*]; done)

theorem execDryQuenchWindowOpen_runs (s : State) : s.Runs (execDryQuenchWindowOpen s) := by
  unfold execDryQuenchWindowOpen
  refine State.on_runs fun init => ?_
  have h := Dev.Leads.refl init
  repeat' first
    | with_reducible assumption
    | intro _
    | with_reducible apply Dev.dryOpenNow_leads
    | (simp [*]; done)

theorem execDryQuenchWindowClose_runs (ms : Nat) (s : State) : s.Runs (execDryQuenchWindowClose ms s) := by
  unfold execDryQuenchWindowClose
  refine State.on_runs fun init => ?_
  have h := Dev.Leads.refl init
  repeat' first
    | with_reducible assumption
    | intro _
    | with_reducible apply Dev.dryClose_leads
    | (simp [*]; done)

theorem execDryStale_runs (s : State) : s.Runs (execDryStale s) := by
  unfold execDryStale
  refine State.on_runs fun init => ?_
  have h := Dev.Leads.refl init
  repeat' first
    | with_reducible assumption
    | intro _
    | with_reducible apply Dev.dryStale_leads
    | (simp [*]; done)

theorem execNandAttach_runs (die chan nand : Nat) (look : NandLook) (s : State) : s.Runs (execNandAttach die chan nand look s) := by
  unfold execNandAttach
  refine State.on_runs fun init => ?_
  have h := Dev.Leads.refl init
  repeat' first
    | with_reducible assumption
    | intro _
    | with_reducible apply Dev.nandAttach_leads
    | (simp [*]; done)

theorem execQflEraseIssue_runs (die chan nand : Nat) (s : State) : s.Runs (execQflEraseIssue die chan nand s) := by
  unfold execQflEraseIssue
  refine State.on_runs fun init => ?_
  have h := Dev.Leads.refl init
  repeat' first
    | with_reducible assumption
    | intro _
    | with_reducible apply Dev.eraseIssue_leads
    | (simp [*]; done)

theorem execQflEraseDone_runs (die chan nand : Nat) (failed : Option Nat) (s : State) : s.Runs (execQflEraseDone die chan nand failed s) := by
  unfold execQflEraseDone
  refine State.on_runs fun init => ?_
  have h := Dev.Leads.refl init
  repeat' first
    | with_reducible assumption
    | intro _
    | with_reducible apply Dev.eraseDone_leads
    | (simp [*]; done)

theorem execQflTableDeltaDone_runs (die chan : Nat) (s : State) : s.Runs (execQflTableDeltaDone die chan s) := by
  unfold execQflTableDeltaDone
  refine State.on_runs fun init => ?_
  have h := Dev.Leads.refl init
  repeat' first
    | with_reducible assumption
    | intro _
    | with_reducible apply Dev.tableDelta_leads
    | (simp [*]; done)
    | split

theorem execQflZqCalibration_runs (die chan : Nat) (s : State) : s.Runs (execQflZqCalibration die chan s) := by
  unfold execQflZqCalibration
  refine State.on_runs fun init => ?_
  have h := Dev.Leads.refl init
  repeat' first
    | with_reducible assumption
    | intro _
    | with_reducible apply Dev.emits_leads
    | (simp [*]; done)

theorem execQflTableRecover_runs (die chan : Nat) (look : TableLook) (s : State) : s.Runs (execQflTableRecover die chan look s) := by
  unfold execQflTableRecover
  refine State.on_runs fun init => ?_
  have h := Dev.Leads.refl init
  repeat' first
    | with_reducible assumption
    | intro _
    | with_reducible apply Dev.tableRecover_leads
    | (simp [*]; done)

theorem execQflFormat_runs (die chan : Nat) (marks : List (Nat × Nat × Nat)) (s : State) : s.Runs (execQflFormat die chan marks s) := by
  unfold execQflFormat
  refine State.on_runs fun init => ?_
  have h := Dev.Leads.refl init
  repeat' first
    | with_reducible assumption
    | intro _
    | with_reducible apply Dev.formatChan_leads
    | (simp [*]; done)
    | split

theorem execQflRead_runs (die : Nat) (medium : NandMedium) (s : State) : s.Runs (execQflRead die medium s) := by
  unfold execQflRead
  refine State.on_runs fun init => ?_
  have h := Dev.Leads.refl init
  repeat' first
    | with_reducible assumption
    | intro _
    | with_reducible apply Dev.qCommand_leads
    | with_reducible apply Dev.qRead_leads
    | (simp [*]; done)

theorem execQflReadRaw_runs (die : Nat) (medium : NandMedium) (s : State) : s.Runs (execQflReadRaw die medium s) := by
  unfold execQflReadRaw
  refine State.on_runs fun init => ?_
  have h := Dev.Leads.refl init
  repeat' first
    | with_reducible assumption
    | intro _
    | with_reducible apply Dev.qCommand_leads
    | with_reducible apply Dev.qFetch_leads
    | (simp [*]; done)

theorem execQflProgram_runs (die : Nat) (medium : NandMedium) (s : State) : s.Runs (execQflProgram die medium s) := by
  unfold execQflProgram
  refine State.on_runs fun init => ?_
  have h := Dev.Leads.refl init
  repeat' first
    | with_reducible assumption
    | (intro v; refine (fun hv : init.Leads v => ?_) ?_; rotate_left; subst v)
    | intro _
    | (extract_lets -lift +onlyGivenNames w; revert w)
    | with_reducible apply Dev.qCommand_leads
    | with_reducible apply Dev.qProgram_leads
    | (simp [*]; done)
    | split

theorem execQflEraseQuad_runs (die : Nat) (medium : NandMedium) (s : State) : s.Runs (execQflEraseQuad die medium s) := by
  unfold execQflEraseQuad
  refine State.on_runs fun init => ?_
  have h := Dev.Leads.refl init
  repeat' first
    | with_reducible assumption
    | intro _
    | with_reducible apply Dev.qCommand_leads
    | with_reducible apply Dev.qErase_leads
    | (simp [*]; done)

theorem execQflReadParam_runs (die : Nat) (medium : NandMedium) (s : State) : s.Runs (execQflReadParam die medium s) := by
  unfold execQflReadParam
  refine State.on_runs fun init => ?_
  have h := Dev.Leads.refl init
  repeat' first
    | with_reducible assumption
    | intro _
    | with_reducible apply Dev.qCommand_leads
    | with_reducible apply Dev.qFetch_leads
    | (simp [*]; done)

theorem execQflGetFeature_runs (die : Nat) (medium : NandMedium) (s : State) : s.Runs (execQflGetFeature die medium s) := by
  unfold execQflGetFeature
  refine State.on_runs fun init => ?_
  have h := Dev.Leads.refl init
  repeat' first
    | with_reducible assumption
    | intro _
    | with_reducible apply Dev.qCommand_leads
    | with_reducible apply Dev.qFetch_leads
    | (simp [*]; done)

theorem execQflBlankCheck_runs (die : Nat) (medium : NandMedium) (s : State) : s.Runs (execQflBlankCheck die medium s) := by
  unfold execQflBlankCheck
  refine State.on_runs fun init => ?_
  have h := Dev.Leads.refl init
  repeat' first
    | with_reducible assumption
    | intro _
    | with_reducible apply Dev.qCommand_leads
    | with_reducible apply Dev.qBlank_leads
    | (simp [*]; done)

theorem execQflUnknownOpcode_runs (die : Nat) (s : State) : s.Runs (execQflUnknownOpcode die s) := by
  unfold execQflUnknownOpcode
  refine State.on_runs fun init => ?_
  have h := Dev.Leads.refl init
  repeat' first
    | with_reducible assumption
    | (intro v; refine (fun hv : init.Leads v => ?_) ?_; rotate_left; subst v)
    | intro _
    | (extract_lets -lift +onlyGivenNames w; revert w)
    | with_reducible apply Dev.qComplete_leads
    | (simp [*]; done)
    | split

theorem execQflOpFail_runs (die chan nand quad plane : Nat) (program : Bool) (s : State) : s.Runs (execQflOpFail die chan nand quad plane program s) := by
  unfold execQflOpFail
  refine State.on_runs fun init => ?_
  have h := Dev.Leads.refl init
  repeat' first
    | with_reducible assumption
    | (intro v; refine (fun hv : init.Leads v => ?_) ?_; rotate_left; subst v)
    | intro _
    | (extract_lets -lift +onlyGivenNames w; revert w)
    | with_reducible apply Dev.tick_leads
    | with_reducible apply Dev.retireBlock_leads
    | with_reducible apply Dev.rejectDry_leads
    | (simp [*]; done)
    | split

theorem execNandStatusTimeout_runs (die chan nand : Nat) (s : State) : s.Runs (execNandStatusTimeout die chan nand s) := by
  unfold execNandStatusTimeout
  refine State.on_runs fun init => ?_
  have h := Dev.Leads.refl init
  repeat' first
    | with_reducible assumption
    | intro _
    | with_reducible apply Dev.retireNand_leads
    | with_reducible apply Dev.channelCheck_leads
    | (simp [*]; done)
    | split

end Sys2Proof.Machine
end

