-- ==== Sys2Proof/Laws/LeadsQuench.lean ====
section
/-! SUPPORT. What the quench never break (Leads), one lemma a function; each command runs (Runs), one lemma a command. -/

namespace Sys2Proof.Machine

open Sys2Proof

set_option linter.tactic.unusedName false
set_option linter.unusedTactic false
set_option linter.unreachableTactic false
set_option linter.unusedSimpArgs false
set_option linter.unusedVariables false

@[simp] theorem Dev.tmpAbortAll_leads {init : Dev} (n : Nat) {d : Dev} (q : Nat) (h : init.Leads d) :
    init.Leads (Dev.tmpAbortAll n d q) := by
  induction n generalizing d with
  | zero => exact h
  | succ n ih =>
    unfold Dev.tmpAbortAll
    split
    · exact ih (Dev.tmpEnd_leads _ _ _ h)
    · exact h

@[simp] theorem Dev.qflAbort_leads {init : Dev} (n : Nat) {d : Dev} (die : Nat) (h : init.Leads d) :
    init.Leads (Dev.qflAbort n d die) := by
  induction n generalizing d with
  | zero => exact h
  | succ n ih =>
    unfold Dev.qflAbort
    split
    · exact h
    · exact ih (Dev.qComplete_leads _ _ _ _ _ _ _ _ h)

@[simp] theorem Dev.tmpAbort_leads {init d : Dev} (q : Nat) (h : init.Leads d) : init.Leads (d.tmpAbort q) := by
  unfold Dev.tmpAbort
  split
  · exact Dev.setF_leads _ _ _ _ _ (Dev.setF_leads _ _ _ _ _ (Dev.tmpAbortAll_leads _ _ (Dev.setF_leads _ _ _ _ _ h)))
  · exact Dev.setTmp_leads _ (Dev.tmpAbortAll_leads _ _ h) id

@[simp] theorem Dev.releaseHolds_leads {init d : Dev} (h : init.Leads d) : init.Leads (Dev.releaseHolds d) := by
  unfold Dev.releaseHolds
  repeat' first
    | with_reducible assumption
    | (intro v; refine (fun hv : init.Leads v => ?_) ?_; rotate_left; subst v)
    | (intro v; refine (fun hv : init.Leads v.1 => ?_) ?_; rotate_left; subst v)
    | (intro v; refine (fun hv : init.Leads v.2 => ?_) ?_; rotate_left; subst v)
    | intro _
    | (extract_lets -lift +onlyGivenNames w; revert w)
    | dsimp -zeta -zetaDelta only
    | with_reducible apply Dev.forEach_leads
    | with_reducible apply Dev.coherent_leads
    | (simp [*]; done)
    | (split <;> try (rename_i e; try obtain rfl := congrArg Prod.fst e; try obtain rfl := congrArg Prod.snd e))

@[simp] theorem Dev.notify_leads {init d : Dev} (q : Quench) (l : Nat × Nat) (phase : Nat) (flags : Nat) (h : init.Leads d) : init.Leads (Dev.notify d q l phase flags) := by
  simp [Dev.notify, h]

@[simp] theorem Dev.t0_leads {init d : Dev} (cause : Nat) (h : init.Leads d) : init.Leads (Dev.t0 d cause) := by
  unfold Dev.t0
  repeat' first
    | with_reducible assumption
    | (intro v; refine (fun hv : init.Leads v => ?_) ?_; rotate_left; subst v)
    | (intro v; refine (fun hv : init.Leads v.1 => ?_) ?_; rotate_left; subst v)
    | (intro v; refine (fun hv : init.Leads v.2 => ?_) ?_; rotate_left; subst v)
    | intro _
    | (extract_lets -lift +onlyGivenNames w; revert w)
    | dsimp -zeta -zetaDelta only
    | with_reducible apply Dev.forEach_leads
    | with_reducible apply Dev.raiseB_leads
    | with_reducible apply Dev.setCru_leads
    | with_reducible apply Dev.mbEnd_leads
    | with_reducible apply Dev.abortMaints_leads
    | with_reducible apply Dev.flushJournal_leads
    | with_reducible apply Dev.chanT0_leads
    | with_reducible apply Dev.setPin_leads
    | with_reducible apply Dev.showStrs_leads
    | with_reducible apply Dev.abortLearn_leads
    | with_reducible apply Dev.abortDry_leads
    | with_reducible apply Dev.qflAbort_leads
    | with_reducible apply Dev.tmpAbort_leads
    | with_reducible apply Dev.releaseHolds_leads
    | with_reducible apply Dev.notify_leads
    | (simp [*]; done)
    | (split <;> try (rename_i e; try obtain rfl := congrArg Prod.fst e; try obtain rfl := congrArg Prod.snd e))

@[simp] theorem Dev.trip_leads {init d : Dev} (cause : Nat) (h : init.Leads d) : init.Leads (Dev.trip d cause) := by
  unfold Dev.trip
  repeat' first
    | with_reducible assumption
    | (intro v; refine (fun hv : init.Leads v => ?_) ?_; rotate_left; subst v)
    | (intro v; refine (fun hv : init.Leads v.1 => ?_) ?_; rotate_left; subst v)
    | (intro v; refine (fun hv : init.Leads v.2 => ?_) ?_; rotate_left; subst v)
    | intro _
    | (extract_lets -lift +onlyGivenNames w; revert w)
    | dsimp -zeta -zetaDelta only
    | with_reducible apply Dev.incF_leads
    | with_reducible apply Dev.raiseB_leads
    | with_reducible apply Dev.t0_leads
    | (simp [*]; done)
    | (split <;> try (rename_i e; try obtain rfl := congrArg Prod.fst e; try obtain rfl := congrArg Prod.snd e))

@[simp] theorem Dev.writeTrigCtrl_leads {init d : Dev} (v : Nat) (h : init.Leads d) : init.Leads (Dev.writeTrigCtrl d v) := by
  unfold Dev.writeTrigCtrl
  repeat' first
    | with_reducible assumption
    | (intro v; refine (fun hv : init.Leads v => ?_) ?_; rotate_left; subst v)
    | (intro v; refine (fun hv : init.Leads v.1 => ?_) ?_; rotate_left; subst v)
    | (intro v; refine (fun hf1 : ∀ d, init.Leads d → init.Leads (v d) => ?_) ?_; rotate_left; subst v)
    | (intro v; refine (fun hf2 : ∀ d x, init.Leads d → init.Leads (v d x) => ?_) ?_; rotate_left; subst v)
    | (intro v; refine (fun hf3 : ∀ d x y, init.Leads d → init.Leads (v d x y) => ?_) ?_; rotate_left; subst v)
    | (intro v; refine (fun hv : init.Leads v.2 => ?_) ?_; rotate_left; subst v)
    | intro _
    | (extract_lets -lift +onlyGivenNames w; revert w)
    | dsimp -zeta -zetaDelta only
    | with_reducible apply hf1
    | with_reducible apply hf2
    | with_reducible apply hf3
    | with_reducible apply Dev.setF_leads
    | with_reducible apply Dev.setB_leads
    | (simp [*]; done)
    | (split <;> try (rename_i e; try obtain rfl := congrArg Prod.fst e; try obtain rfl := congrArg Prod.snd e))

@[simp] theorem Dev.modQuench_leads {init d : Dev} (f : Quench → Quench) (h : init.Leads d) : init.Leads (Dev.modQuench d f) := by
  simp [Dev.modQuench, h]

@[simp] theorem Dev.discardAll_leads {init d : Dev} (h : init.Leads d) : init.Leads (Dev.discardAll d) := by
  unfold Dev.discardAll
  repeat' first
    | with_reducible assumption
    | (intro v; refine (fun hv : init.Leads v => ?_) ?_; rotate_left; subst v)
    | (intro v; refine (fun hv : init.Leads v.1 => ?_) ?_; rotate_left; subst v)
    | (intro v; refine (fun hv : init.Leads v.2 => ?_) ?_; rotate_left; subst v)
    | intro _
    | (extract_lets -lift +onlyGivenNames w; revert w)
    | dsimp -zeta -zetaDelta only
    | with_reducible apply Dev.tick_leads
    | with_reducible apply Dev.forEach_leads
    | with_reducible apply Dev.incF_leads
    | with_reducible apply Dev.raiseB_leads
    | with_reducible apply Dev.raiseR_leads
    | with_reducible apply Dev.saveCounters_leads
    | with_reducible apply Dev.setCru_leads
    | with_reducible apply Dev.invalidate_leads
    | with_reducible apply Dev.delPoison_leads
    | with_reducible apply Dev.raiseC_leads
    | with_reducible apply Dev.completeThrough_leads
    | (simp [*]; done)
    | (split <;> try (rename_i e; try obtain rfl := congrArg Prod.fst e; try obtain rfl := congrArg Prod.snd e))

@[simp] theorem Dev.fenceDrained_leads {init d : Dev} (die : Nat) (slice : Nat) (h : init.Leads d) : init.Leads (Dev.fenceDrained d die slice) := by
  unfold Dev.fenceDrained
  repeat' first
    | with_reducible assumption
    | (intro v; refine (fun hv : init.Leads v => ?_) ?_; rotate_left; subst v)
    | (intro v; refine (fun hv : init.Leads v.1 => ?_) ?_; rotate_left; subst v)
    | (intro v; refine (fun hv : init.Leads v.2 => ?_) ?_; rotate_left; subst v)
    | intro _
    | (extract_lets -lift +onlyGivenNames w; revert w)
    | dsimp -zeta -zetaDelta only
    | with_reducible apply Dev.forEach_leads
    | with_reducible apply Dev.setCru_leads
    | with_reducible apply Dev.notify_leads
    | with_reducible apply Dev.modQuench_leads
    | with_reducible apply Dev.discardAll_leads
    | (simp [*]; done)
    | (split <;> try (rename_i e; try obtain rfl := congrArg Prod.fst e; try obtain rfl := congrArg Prod.snd e))

@[simp] theorem Dev.sendVdd_leads {init d : Dev} (die : Nat) (mv : Nat) (need : Nat) (island : Nat) (ack : Bool) (h : init.Leads d) : init.Leads (Dev.sendVdd d die mv need island ack) := by
  unfold Dev.sendVdd
  repeat' first
    | with_reducible assumption
    | (intro v; refine (fun hv : init.Leads v => ?_) ?_; rotate_left; subst v)
    | (intro v; refine (fun hv : init.Leads v.1 => ?_) ?_; rotate_left; subst v)
    | (intro v; refine (fun hv : init.Leads v.2 => ?_) ?_; rotate_left; subst v)
    | intro _
    | (extract_lets -lift +onlyGivenNames w; revert w)
    | dsimp -zeta -zetaDelta only
    | with_reducible apply Dev.setF_leads
    | with_reducible apply Dev.setB_leads
    | with_reducible apply Dev.raise_leads
    | (simp [*]; done)
    | (split <;> try (rename_i e; try obtain rfl := congrArg Prod.fst e; try obtain rfl := congrArg Prod.snd e))

@[simp] theorem Dev.shedDie_leads {init d : Dev} (die : Nat) (lowest : Nat) (ack : Bool) (h : init.Leads d) : init.Leads (Dev.shedDie d die lowest ack) := by
  unfold Dev.shedDie
  repeat' first
    | with_reducible assumption
    | (intro v; refine (fun hv : init.Leads v => ?_) ?_; rotate_left; subst v)
    | (intro v; refine (fun hv : init.Leads v.1 => ?_) ?_; rotate_left; subst v)
    | (intro v; refine (fun hv : init.Leads v.2 => ?_) ?_; rotate_left; subst v)
    | intro _
    | (extract_lets -lift +onlyGivenNames w; revert w)
    | dsimp -zeta -zetaDelta only
    | with_reducible apply Dev.tick_leads
    | with_reducible apply Dev.forEach_leads
    | with_reducible apply Dev.setB_leads
    | with_reducible apply Dev.raise_leads
    | with_reducible apply Dev.linkOff_leads
    | with_reducible apply Dev.linkDown_leads
    | with_reducible apply Dev.setQuad_leads
    | with_reducible apply Dev.modQuench_leads
    | with_reducible apply Dev.sendVdd_leads
    | (simp [*]; done)
    | (split <;> try (rename_i e; try obtain rfl := congrArg Prod.fst e; try obtain rfl := congrArg Prod.snd e))

@[simp] theorem Dev.qSwitch_leads {init d : Dev} (cause : Nat) (c : Nat × Nat) (h : init.Leads d) : init.Leads (Dev.qSwitch d cause c) := by
  unfold Dev.qSwitch
  repeat' first
    | with_reducible assumption
    | (intro v; refine (fun hv : init.Leads v => ?_) ?_; rotate_left; subst v)
    | (intro v; refine (fun hv : init.Leads v.1 => ?_) ?_; rotate_left; subst v)
    | (intro v; refine (fun hv : init.Leads v.2 => ?_) ?_; rotate_left; subst v)
    | intro _
    | (extract_lets -lift +onlyGivenNames w; revert w)
    | dsimp -zeta -zetaDelta only
    | with_reducible apply Dev.raiseB_leads
    | with_reducible apply Dev.modQuench_leads
    | (simp [*]; done)
    | (split <;> try (rename_i e; try obtain rfl := congrArg Prod.fst e; try obtain rfl := congrArg Prod.snd e))

@[simp] theorem Dev.qStart_leads {init d : Dev} (die : Nat) (u : QUnit) (k : QKey) (turn : Bool) (h : init.Leads d) : init.Leads (Dev.qStart d die u k turn) := by
  unfold Dev.qStart
  repeat' first
    | with_reducible assumption
    | (intro v; refine (fun hv : init.Leads v => ?_) ?_; rotate_left; subst v)
    | (intro v; refine (fun hv : init.Leads v.1 => ?_) ?_; rotate_left; subst v)
    | (intro v; refine (fun hv : init.Leads v.2 => ?_) ?_; rotate_left; subst v)
    | intro _
    | (extract_lets -lift +onlyGivenNames w; revert w)
    | dsimp -zeta -zetaDelta only
    | with_reducible apply Dev.slot_leads
    | with_reducible apply Dev.setQuad_leads
    | with_reducible apply Dev.modQuench_leads
    | (simp [*]; done)
    | (split <;> try (rename_i e; try obtain rfl := congrArg Prod.fst e; try obtain rfl := congrArg Prod.snd e))

@[simp] theorem Dev.qTry_leads {init d : Dev} (q : Quench) (p : QDie) (die : Nat) (u : QUnit) (c : Nat × Nat) (turn : Bool) (h : init.Leads d) : init.LeadsO (Dev.qTry d q p die u c turn) := by
  unfold Dev.qTry
  repeat' first
    | with_reducible assumption
    | (intro v; refine (fun hv : init.Leads v => ?_) ?_; rotate_left; subst v)
    | (intro v; refine (fun hv : init.Leads v.1 => ?_) ?_; rotate_left; subst v)
    | (intro v; refine (fun hv : init.Leads v.2 => ?_) ?_; rotate_left; subst v)
    | intro _
    | (extract_lets -lift +onlyGivenNames w; revert w)
    | dsimp -zeta -zetaDelta only
    | with_reducible apply Dev.qStart_leads
    | with_reducible apply Dev.leadsO_some
    | with_reducible apply Dev.leadsO_none
    | with_reducible apply Dev.leadsO_map
    | (simp [*]; done)
    | (split <;> try (rename_i e; try obtain rfl := congrArg Prod.fst e; try obtain rfl := congrArg Prod.snd e))

@[simp] theorem Dev.qPackage_leads {init d : Dev} (q : Quench) (p : QDie) (die : Nat) (u : QUnit) (h : init.Leads d) : init.LeadsO (Dev.qPackage d q p die u) := by
  unfold Dev.qPackage
  repeat' first
    | with_reducible assumption
    | (intro v; refine (fun hv : init.Leads v => ?_) ?_; rotate_left; subst v)
    | (intro v; refine (fun hv : init.Leads v.1 => ?_) ?_; rotate_left; subst v)
    | (intro v; refine (fun hv : init.Leads v.2 => ?_) ?_; rotate_left; subst v)
    | intro _
    | (extract_lets -lift +onlyGivenNames w; revert w)
    | dsimp -zeta -zetaDelta only
    | with_reducible apply Dev.qTry_leads
    | with_reducible apply Dev.leadsO_some
    | with_reducible apply Dev.leadsO_none
    | with_reducible apply Dev.leadsO_map
    | (simp [*]; done)
    | (split <;> try (rename_i e; try obtain rfl := congrArg Prod.fst e; try obtain rfl := congrArg Prod.snd e))

@[simp] theorem Dev.qPlace_leads {init d : Dev} (die : Nat) (h : init.Leads d) : init.LeadsO (Dev.qPlace d die) := by
  unfold Dev.qPlace
  repeat' first
    | with_reducible assumption
    | (intro v; refine (fun hv : init.Leads v => ?_) ?_; rotate_left; subst v)
    | (intro v; refine (fun hv : init.Leads v.1 => ?_) ?_; rotate_left; subst v)
    | (intro v; refine (fun hv : init.Leads v.2 => ?_) ?_; rotate_left; subst v)
    | (intro v; refine (fun hf1 : ∀ x, init.LeadsO (v x) => ?_) ?_; rotate_left; subst v)
    | intro _
    | (extract_lets -lift +onlyGivenNames w; revert w)
    | dsimp -zeta -zetaDelta only
    | with_reducible apply Dev.qSwitch_leads
    | with_reducible apply Dev.qTry_leads
    | with_reducible apply Dev.qPackage_leads
    | with_reducible apply hf1
    | with_reducible apply Dev.leadsO_some
    | with_reducible apply Dev.leadsO_none
    | with_reducible apply Dev.leadsO_map
    | (simp [*]; done)
    | (split <;> try (rename_i e; try obtain rfl := congrArg Prod.fst e; try obtain rfl := congrArg Prod.snd e))

@[simp] theorem Dev.qPumpDie_leads {init : Dev} (n : Nat) {d : Dev} (die : Nat) (h : init.Leads d) :
    init.Leads (Dev.qPumpDie n d die) := by
  induction n generalizing d with
  | zero => exact h
  | succ n ih =>
    unfold Dev.qPumpDie
    split
    · rename_i e
      exact ih ((Dev.qPlace_leads _ h).of_some e)
    · exact h

@[simp] theorem Dev.qPump_leads {init d : Dev} (h : init.Leads d) : init.Leads d.qPump := by
  unfold Dev.qPump
  split
  · exact h
  · split
    · exact h
    · exact Dev.forEach_leads _ _ h fun _ _ hd => Dev.qPumpDie_leads _ _ hd

@[simp] theorem Dev.walkStart_leads {init d : Dev} (die : Nat) (bad : List (Nat × Nat)) (h : init.Leads d) : init.Leads (Dev.walkStart d die bad) := by
  unfold Dev.walkStart
  repeat' first
    | with_reducible assumption
    | (intro v; refine (fun hv : init.Leads v => ?_) ?_; rotate_left; subst v)
    | (intro v; refine (fun hv : init.Leads v.1 => ?_) ?_; rotate_left; subst v)
    | (intro v; refine (fun hv : init.Leads v.2 => ?_) ?_; rotate_left; subst v)
    | intro _
    | (extract_lets -lift +onlyGivenNames w; revert w)
    | dsimp -zeta -zetaDelta only
    | with_reducible apply Dev.forEach_leads
    | with_reducible apply Dev.raise_leads
    | with_reducible apply Dev.modQuench_leads
    | with_reducible apply Dev.qPump_leads
    | (simp [*]; done)
    | (split <;> try (rename_i e; try obtain rfl := congrArg Prod.fst e; try obtain rfl := congrArg Prod.snd e))

@[simp] theorem Dev.programDone_leads {init d : Dev} (n : Nand) (h : init.Leads d) : init.Leads (Dev.programDone d n) := by
  unfold Dev.programDone
  repeat' first
    | with_reducible assumption
    | (intro v; refine (fun hv : init.Leads v => ?_) ?_; rotate_left; subst v)
    | (intro v; refine (fun hv : init.Leads v.1 => ?_) ?_; rotate_left; subst v)
    | (intro v; refine (fun hv : init.Leads v.2 => ?_) ?_; rotate_left; subst v)
    | intro _
    | (extract_lets -lift +onlyGivenNames w; revert w)
    | dsimp -zeta -zetaDelta only
    | with_reducible apply Dev.setQfl_leads
    | with_reducible apply Dev.modQuench_leads
    | with_reducible apply Dev.qPump_leads
    | (simp [*]; done)
    | (split <;> try (rename_i e; try obtain rfl := congrArg Prod.fst e; try obtain rfl := congrArg Prod.snd e))

@[simp] theorem Dev.rewriteUnit_leads {init d : Dev} (die : Nat) (u : QUnit) (h : init.Leads d) : init.Leads (Dev.rewriteUnit d die u) := by
  unfold Dev.rewriteUnit
  repeat' first
    | with_reducible assumption
    | (intro v; refine (fun hv : init.Leads v => ?_) ?_; rotate_left; subst v)
    | (intro v; refine (fun hv : init.Leads v.1 => ?_) ?_; rotate_left; subst v)
    | (intro v; refine (fun hv : init.Leads v.2 => ?_) ?_; rotate_left; subst v)
    | intro _
    | (extract_lets -lift +onlyGivenNames w; revert w)
    | dsimp -zeta -zetaDelta only
    | with_reducible apply Dev.modQuench_leads
    | (simp [*]; done)
    | (split <;> try (rename_i e; try obtain rfl := congrArg Prod.fst e; try obtain rfl := congrArg Prod.snd e))

@[simp] theorem Dev.qnchNandFail_leads {init d : Dev} (n : Nand) (h : init.Leads d) : init.Leads (Dev.qnchNandFail d n) := by
  unfold Dev.qnchNandFail
  repeat' first
    | with_reducible assumption
    | (intro v; refine (fun hv : init.Leads v => ?_) ?_; rotate_left; subst v)
    | (intro v; refine (fun hv : init.Leads v.1 => ?_) ?_; rotate_left; subst v)
    | (intro v; refine (fun hv : init.Leads v.2 => ?_) ?_; rotate_left; subst v)
    | intro _
    | (extract_lets -lift +onlyGivenNames w; revert w)
    | dsimp -zeta -zetaDelta only
    | with_reducible apply Dev.forEach_leads
    | with_reducible apply Dev.raise_leads
    | with_reducible apply Dev.modQuench_leads
    | with_reducible apply Dev.qSwitch_leads
    | with_reducible apply Dev.qPump_leads
    | with_reducible apply Dev.rewriteUnit_leads
    | (simp [*]; done)
    | (split <;> try (rename_i e; try obtain rfl := congrArg Prod.fst e; try obtain rfl := congrArg Prod.snd e))

@[simp] theorem Dev.qnchBlockFail_leads {init d : Dev} (n : Nand) (plane : Nat) (h : init.Leads d) : init.Leads (Dev.qnchBlockFail d n plane) := by
  unfold Dev.qnchBlockFail
  repeat' first
    | with_reducible assumption
    | (intro v; refine (fun hv : init.Leads v => ?_) ?_; rotate_left; subst v)
    | (intro v; refine (fun hv : init.Leads v.1 => ?_) ?_; rotate_left; subst v)
    | (intro v; refine (fun hv : init.Leads v.2 => ?_) ?_; rotate_left; subst v)
    | intro _
    | (extract_lets -lift +onlyGivenNames w; revert w)
    | dsimp -zeta -zetaDelta only
    | with_reducible apply Dev.number_leads
    | with_reducible apply Dev.raise_leads
    | with_reducible apply Dev.setQfl_leads
    | with_reducible apply Dev.setQuad_leads
    | with_reducible apply Dev.modQuench_leads
    | with_reducible apply Dev.qSwitch_leads
    | with_reducible apply Dev.qStart_leads
    | with_reducible apply Dev.qPump_leads
    | with_reducible apply Dev.qnchNandFail_leads
    | (simp [*]; done)
    | (split <;> try (rename_i e; try obtain rfl := congrArg Prod.fst e; try obtain rfl := congrArg Prod.snd e))

@[simp] theorem Dev.trailerStart_leads {init d : Dev} (die : Nat) (h : init.Leads d) : init.Leads (Dev.trailerStart d die) := by
  unfold Dev.trailerStart
  repeat' first
    | with_reducible assumption
    | (intro v; refine (fun hv : init.Leads v => ?_) ?_; rotate_left; subst v)
    | (intro v; refine (fun hv : init.Leads v.1 => ?_) ?_; rotate_left; subst v)
    | (intro v; refine (fun hv : init.Leads v.2 => ?_) ?_; rotate_left; subst v)
    | intro _
    | (extract_lets -lift +onlyGivenNames w; revert w)
    | dsimp -zeta -zetaDelta only
    | with_reducible apply Dev.modQuench_leads
    | with_reducible apply Dev.qPump_leads
    | with_reducible apply Dev.idle_leads
    | (simp [*]; done)
    | (split <;> try (rename_i e; try obtain rfl := congrArg Prod.fst e; try obtain rfl := congrArg Prod.snd e))

@[simp] theorem Dev.commitStart_leads {init d : Dev} (ms : Nat) (h : init.Leads d) : init.Leads (Dev.commitStart d ms) := by
  unfold Dev.commitStart
  repeat' first
    | with_reducible assumption
    | (intro v; refine (fun hv : init.Leads v => ?_) ?_; rotate_left; subst v)
    | (intro v; refine (fun hv : init.Leads v.1 => ?_) ?_; rotate_left; subst v)
    | (intro v; refine (fun hv : init.Leads v.2 => ?_) ?_; rotate_left; subst v)
    | intro _
    | (extract_lets -lift +onlyGivenNames w; revert w)
    | dsimp -zeta -zetaDelta only
    | with_reducible apply Dev.raiseB_leads
    | with_reducible apply Dev.until_leads
    | with_reducible apply Dev.slot_leads
    | with_reducible apply Dev.t0_leads
    | with_reducible apply Dev.modQuench_leads
    | with_reducible apply Dev.qPump_leads
    | (simp [*]; done)
    | (split <;> try (rename_i e; try obtain rfl := congrArg Prod.fst e; try obtain rfl := congrArg Prod.snd e))

@[simp] theorem Dev.addCommitEvents_leads {init d : Dev} (h : init.Leads d) : init.Leads (Dev.addCommitEvents d) := by
  unfold Dev.addCommitEvents
  repeat' first
    | with_reducible assumption
    | (intro v; refine (fun hv : init.Leads v => ?_) ?_; rotate_left; subst v)
    | (intro v; refine (fun hv : init.Leads v.1 => ?_) ?_; rotate_left; subst v)
    | (intro v; refine (fun hv : init.Leads v.2 => ?_) ?_; rotate_left; subst v)
    | intro _
    | (extract_lets -lift +onlyGivenNames w; revert w)
    | dsimp -zeta -zetaDelta only
    | with_reducible apply Dev.setQfl_leads
    | (simp [*]; done)
    | (split <;> try (rename_i e; try obtain rfl := congrArg Prod.fst e; try obtain rfl := congrArg Prod.snd e))

@[simp] theorem Dev.pointerStart_leads {init d : Dev} (ok : Bool) (status : Nat) (h : init.Leads d) : init.Leads (Dev.pointerStart d ok status) := by
  unfold Dev.pointerStart
  repeat' first
    | with_reducible assumption
    | (intro v; refine (fun hv : init.Leads v => ?_) ?_; rotate_left; subst v)
    | (intro v; refine (fun hv : init.Leads v.1 => ?_) ?_; rotate_left; subst v)
    | (intro v; refine (fun hv : init.Leads v.2 => ?_) ?_; rotate_left; subst v)
    | intro _
    | (extract_lets -lift +onlyGivenNames w; revert w)
    | dsimp -zeta -zetaDelta only
    | with_reducible apply Dev.forEach_leads
    | with_reducible apply Dev.raiseB_leads
    | with_reducible apply Dev.record_leads
    | with_reducible apply Dev.slot_leads
    | with_reducible apply Dev.notify_leads
    | with_reducible apply Dev.modQuench_leads
    | with_reducible apply Dev.addCommitEvents_leads
    | (simp [*]; done)
    | (split <;> try (rename_i e; try obtain rfl := congrArg Prod.fst e; try obtain rfl := congrArg Prod.snd e))

theorem execMainSenseTrip_runs (mv ns : Nat) (s : State) : s.Runs (execMainSenseTrip mv ns s) := by
  unfold execMainSenseTrip
  refine State.on_runs fun init => ?_
  have h := Dev.Leads.refl init
  repeat' first
    | with_reducible assumption
    | (intro v; refine (fun hv : init.Leads v => ?_) ?_; rotate_left; subst v)
    | intro _
    | (extract_lets -lift +onlyGivenNames w; revert w)
    | with_reducible apply Dev.setB_leads
    | with_reducible apply Dev.trip_leads
    | (simp [*]; done)
    | split

theorem execHoldSenseTrip_runs (mv ns : Nat) (s : State) : s.Runs (execHoldSenseTrip mv ns s) := by
  unfold execHoldSenseTrip
  refine State.on_runs fun init => ?_
  have h := Dev.Leads.refl init
  repeat' first
    | with_reducible assumption
    | (intro v; refine (fun hv : init.Leads v => ?_) ?_; rotate_left; subst v)
    | intro _
    | (extract_lets -lift +onlyGivenNames w; revert w)
    | with_reducible apply Dev.setB_leads
    | with_reducible apply Dev.trip_leads
    | (simp [*]; done)
    | split

theorem execPwrFailNTrip_runs (ns : Nat) (s : State) : s.Runs (execPwrFailNTrip ns s) := by
  unfold execPwrFailNTrip
  refine State.on_runs fun init => ?_
  have h := Dev.Leads.refl init
  repeat' first
    | with_reducible assumption
    | (intro v; refine (fun hv : init.Leads v => ?_) ?_; rotate_left; subst v)
    | intro _
    | (extract_lets -lift +onlyGivenNames w; revert w)
    | with_reducible apply Dev.setB_leads
    | with_reducible apply Dev.trip_leads
    | (simp [*]; done)
    | split

theorem execQnchTrigCtrlWrite_runs (value : Nat) (s : State) : s.Runs (execQnchTrigCtrlWrite value s) := by
  unfold execQnchTrigCtrlWrite
  refine State.on_runs fun init => ?_
  have h := Dev.Leads.refl init
  repeat' first
    | with_reducible assumption
    | intro _
    | with_reducible apply Dev.writeTrigCtrl_leads
    | (simp [*]; done)

theorem execFenceDrained_runs (die slice : Nat) (s : State) : s.Runs (execFenceDrained die slice s) := by
  unfold execFenceDrained
  refine State.on_runs fun init => ?_
  have h := Dev.Leads.refl init
  repeat' first
    | with_reducible assumption
    | intro _
    | with_reducible apply Dev.fenceDrained_leads
    | (simp [*]; done)

theorem execPowerShed_runs (die lowest : Nat) (ack : Bool) (s : State) : s.Runs (execPowerShed die lowest ack s) := by
  unfold execPowerShed
  refine State.on_runs fun init => ?_
  have h := Dev.Leads.refl init
  repeat' first
    | with_reducible assumption
    | intro _
    | with_reducible apply Dev.shedDie_leads
    | (simp [*]; done)

theorem execDirtyWalkStart_runs (die : Nat) (bad : List (Nat × Nat)) (s : State) : s.Runs (execDirtyWalkStart die bad s) := by
  unfold execDirtyWalkStart
  refine State.on_runs fun init => ?_
  have h := Dev.Leads.refl init
  repeat' first
    | with_reducible assumption
    | intro _
    | with_reducible apply Dev.walkStart_leads
    | (simp [*]; done)

theorem execSegmentProgramDone_runs (die chan nand : Nat) (s : State) : s.Runs (execSegmentProgramDone die chan nand s) := by
  unfold execSegmentProgramDone
  refine State.on_runs fun init => ?_
  have h := Dev.Leads.refl init
  repeat' first
    | with_reducible assumption
    | intro _
    | with_reducible apply Dev.programDone_leads
    | (simp [*]; done)

theorem execQuenchBlockFail_runs (die chan nand plane : Nat) (s : State) : s.Runs (execQuenchBlockFail die chan nand plane s) := by
  unfold execQuenchBlockFail
  refine State.on_runs fun init => ?_
  have h := Dev.Leads.refl init
  repeat' first
    | with_reducible assumption
    | intro _
    | with_reducible apply Dev.qnchBlockFail_leads
    | (simp [*]; done)

theorem execQuenchNandDieFail_runs (die chan nand : Nat) (s : State) : s.Runs (execQuenchNandDieFail die chan nand s) := by
  unfold execQuenchNandDieFail
  refine State.on_runs fun init => ?_
  have h := Dev.Leads.refl init
  repeat' first
    | with_reducible assumption
    | intro _
    | with_reducible apply Dev.qnchNandFail_leads
    | (simp [*]; done)
    | split

theorem execQuenchNandDieReady_runs (die chan nand : Nat) (s : State) : s.Runs (execQuenchNandDieReady die chan nand s) := by
  unfold execQuenchNandDieReady
  refine State.on_runs fun init => ?_
  have h := Dev.Leads.refl init
  repeat' first
    | with_reducible assumption
    | (intro v; refine (fun hv : init.Leads v => ?_) ?_; rotate_left; subst v)
    | intro _
    | (extract_lets -lift +onlyGivenNames w; revert w)
    | with_reducible apply Dev.modQuench_leads
    | with_reducible apply Dev.qPump_leads
    | with_reducible apply Dev.notReady_leads
    | (simp [*]; done)
    | split

theorem execTrailerProgram_runs (die : Nat) (s : State) : s.Runs (execTrailerProgram die s) := by
  unfold execTrailerProgram
  refine State.on_runs fun init => ?_
  have h := Dev.Leads.refl init
  repeat' first
    | with_reducible assumption
    | intro _
    | with_reducible apply Dev.trailerStart_leads
    | (simp [*]; done)

theorem execCommitRecordProgram_runs (ms : Nat) (s : State) : s.Runs (execCommitRecordProgram ms s) := by
  unfold execCommitRecordProgram
  refine State.on_runs fun init => ?_
  have h := Dev.Leads.refl init
  repeat' first
    | with_reducible assumption
    | intro _
    | with_reducible apply Dev.commitStart_leads
    | (simp [*]; done)

theorem execCommitPointerProgram_runs (ok : Bool) (status : Nat) (s : State) : s.Runs (execCommitPointerProgram ok status s) := by
  unfold execCommitPointerProgram
  refine State.on_runs fun init => ?_
  have h := Dev.Leads.refl init
  repeat' first
    | with_reducible assumption
    | intro _
    | with_reducible apply Dev.pointerStart_leads
    | (simp [*]; done)

end Sys2Proof.Machine
end

