-- ==== Sys2Proof/Laws/LeadsReheat.lean ====
section
/-! SUPPORT. What the reheat never break (Leads), one lemma a function; each command runs (Runs), one lemma a command. -/

namespace Sys2Proof.Machine

open Sys2Proof

set_option linter.tactic.unusedName false
set_option linter.unusedTactic false
set_option linter.unreachableTactic false
set_option linter.unusedSimpArgs false
set_option linter.unusedVariables false

@[simp] theorem Dev.showLastQuench_leads {init d : Dev} (us : List Found) (h : init.Leads d) : init.Leads (Dev.showLastQuench d us) := by
  unfold Dev.showLastQuench
  repeat' first
    | with_reducible assumption
    | (intro v; refine (fun hv : init.Leads v => ?_) ?_; rotate_left; subst v)
    | (intro v; refine (fun hv : init.Leads v.1 => ?_) ?_; rotate_left; subst v)
    | (intro v; refine (fun hv : init.Leads v.2 => ?_) ?_; rotate_left; subst v)
    | (intro w; clear_value w)
    | intro _
    | (extract_lets -lift +onlyGivenNames w; revert w)
    | dsimp -zeta -zetaDelta only
    | with_reducible apply Dev.setF_leads
    | with_reducible apply Dev.forEach_leads
    | with_reducible apply Dev.setB_leads
    | (simp [*]; done)
    | (split <;> try (rename_i e; try obtain rfl := congrArg Prod.fst e; try obtain rfl := congrArg Prod.snd e))

@[simp] theorem Dev.retireNamed_leads {init d : Dev} (r : EvRec) (h : init.Leads d) : init.Leads (Dev.retireNamed d r) := by
  unfold Dev.retireNamed
  repeat' first
    | with_reducible assumption
    | (intro v; refine (fun hv : init.Leads v => ?_) ?_; rotate_left; subst v)
    | (intro v; refine (fun hv : init.Leads v.1 => ?_) ?_; rotate_left; subst v)
    | (intro v; refine (fun hv : init.Leads v.2 => ?_) ?_; rotate_left; subst v)
    | intro _
    | (extract_lets -lift +onlyGivenNames w; revert w)
    | dsimp -zeta -zetaDelta only
    | with_reducible apply Dev.tick_leads
    | with_reducible apply Dev.retireBlock_leads
    | (simp [*]; done)
    | (split <;> try (rename_i e; try obtain rfl := congrArg Prod.fst e; try obtain rfl := congrArg Prod.snd e))

@[simp] theorem Dev.retireFailures_leads {init d : Dev} (us : List Found) (h : init.Leads d) : init.Leads (Dev.retireFailures d us) := by
  unfold Dev.retireFailures
  repeat' first
    | with_reducible assumption
    | (intro v; refine (fun hv : init.Leads v => ?_) ?_; rotate_left; subst v)
    | (intro v; refine (fun hv : init.Leads v.1 => ?_) ?_; rotate_left; subst v)
    | (intro v; refine (fun hv : init.Leads v.2 => ?_) ?_; rotate_left; subst v)
    | intro _
    | (extract_lets -lift +onlyGivenNames w; revert w)
    | dsimp -zeta -zetaDelta only
    | with_reducible apply Dev.forEach_leads
    | with_reducible apply Dev.retireNand_leads
    | with_reducible apply Dev.channelCheck_leads
    | with_reducible apply Dev.retireNamed_leads
    | (simp [*]; done)
    | (split <;> try (rename_i e; try obtain rfl := congrArg Prod.fst e; try obtain rfl := congrArg Prod.snd e))

@[simp] theorem Dev.modRestore_leads {init d : Dev} (f : Restore → Restore) (h : init.Leads d) : init.Leads (Dev.modRestore d f) := by
  simp [Dev.modRestore, h]

@[simp] theorem Dev.dieIncomplete_leads {init d : Dev} (die : Nat) (lost : Nat) (cause : Nat) (h : init.Leads d) : init.Leads (Dev.dieIncomplete d die lost cause) := by
  unfold Dev.dieIncomplete
  repeat' first
    | with_reducible assumption
    | (intro v; refine (fun hv : init.Leads v => ?_) ?_; rotate_left; subst v)
    | (intro v; refine (fun hv : init.Leads v.1 => ?_) ?_; rotate_left; subst v)
    | (intro v; refine (fun hv : init.Leads v.2 => ?_) ?_; rotate_left; subst v)
    | intro _
    | (extract_lets -lift +onlyGivenNames w; revert w)
    | dsimp -zeta -zetaDelta only
    | with_reducible apply Dev.forEach_leads
    | with_reducible apply Dev.setB_leads
    | with_reducible apply Dev.raise_leads
    | with_reducible apply Dev.setRegion_leads
    | with_reducible apply Dev.dscLoss_leads
    | with_reducible apply Dev.modRestore_leads
    | (simp [*]; done)
    | (split <;> try (rename_i e; try obtain rfl := congrArg Prod.fst e; try obtain rfl := congrArg Prod.snd e))

@[simp] theorem Dev.checkDie_leads {init d : Dev} (us : List Found) (x : Ingot) (kind : Nat) (die : Nat) (h : init.Leads d) : init.Leads (Dev.checkDie d us x kind die) := by
  unfold Dev.checkDie
  repeat' first
    | with_reducible assumption
    | (intro v; refine (fun hv : init.Leads v => ?_) ?_; rotate_left; subst v)
    | (intro v; refine (fun hv : init.Leads v.1 => ?_) ?_; rotate_left; subst v)
    | (intro v; refine (fun hv : init.Leads v.2 => ?_) ?_; rotate_left; subst v)
    | intro _
    | (extract_lets -lift +onlyGivenNames w; revert w)
    | dsimp -zeta -zetaDelta only
    | with_reducible apply Dev.tick_leads
    | with_reducible apply Dev.setB_leads
    | with_reducible apply Dev.dieIncomplete_leads
    | (simp [*]; done)
    | (split <;> try (rename_i e; try obtain rfl := congrArg Prod.fst e; try obtain rfl := congrArg Prod.snd e))

@[simp] theorem Dev.showFence_leads {init d : Dev} (x : Ingot) (h : init.Leads d) : init.Leads (Dev.showFence d x) := by
  unfold Dev.showFence
  repeat' first
    | with_reducible assumption
    | (intro v; refine (fun hv : init.Leads v => ?_) ?_; rotate_left; subst v)
    | (intro v; refine (fun hv : init.Leads v.1 => ?_) ?_; rotate_left; subst v)
    | (intro v; refine (fun hv : init.Leads v.2 => ?_) ?_; rotate_left; subst v)
    | intro _
    | (extract_lets -lift +onlyGivenNames w; revert w)
    | dsimp -zeta -zetaDelta only
    | with_reducible apply Dev.setF_leads
    | with_reducible apply Dev.forEach_leads
    | with_reducible apply Dev.setB_leads
    | (simp [*]; done)
    | (split <;> try (rename_i e; try obtain rfl := congrArg Prod.fst e; try obtain rfl := congrArg Prod.snd e))

@[simp] theorem Dev.raiseStart_leads {init d : Dev} (r : Restore) (h : init.Leads d) : init.Leads (Dev.raiseStart d r) := by
  simp [Dev.raiseStart, h]

@[simp] theorem Dev.keyLost_leads {init d : Dev} (r : Restore) (h : init.Leads d) : init.Leads (Dev.keyLost d r) := by
  unfold Dev.keyLost
  repeat' first
    | with_reducible assumption
    | (intro v; refine (fun hv : init.Leads v => ?_) ?_; rotate_left; subst v)
    | (intro v; refine (fun hv : init.Leads v.1 => ?_) ?_; rotate_left; subst v)
    | (intro v; refine (fun hv : init.Leads v.2 => ?_) ?_; rotate_left; subst v)
    | intro _
    | (extract_lets -lift +onlyGivenNames w; revert w)
    | dsimp -zeta -zetaDelta only
    | with_reducible apply Dev.setF_leads
    | with_reducible apply Dev.tick_leads
    | with_reducible apply Dev.forEach_leads
    | with_reducible apply Dev.raiseB_leads
    | with_reducible apply Dev.dieIncomplete_leads
    | with_reducible apply Dev.raiseStart_leads
    | (simp [*]; done)
    | (split <;> try (rename_i e; try obtain rfl := congrArg Prod.fst e; try obtain rfl := congrArg Prod.snd e))

@[simp] theorem Dev.notReady_leads {init d : Dev} (e : Ev) (h : init.Leads d) : init.Leads (Dev.notReady d e) := by
  simp [Dev.notReady, h]

@[simp] theorem Dev.ingotScan_leads {init d : Dev} (bad : List FlashAt) (h : init.Leads d) : init.Leads (Dev.ingotScan d bad) := by
  unfold Dev.ingotScan
  repeat' first
    | with_reducible assumption
    | (intro v; refine (fun hv : init.Leads v => ?_) ?_; rotate_left; subst v)
    | (intro v; refine (fun hv : init.Leads v.1 => ?_) ?_; rotate_left; subst v)
    | (intro v; refine (fun hv : init.Leads v.2 => ?_) ?_; rotate_left; subst v)
    | intro _
    | (extract_lets -lift +onlyGivenNames w; revert w)
    | dsimp -zeta -zetaDelta only
    | with_reducible apply Dev.setF_leads
    | with_reducible apply Dev.forEach_leads
    | with_reducible apply Dev.setB_leads
    | with_reducible apply Dev.raiseB_leads
    | with_reducible apply Dev.setRht_leads
    | with_reducible apply Dev.dscLoss_leads
    | with_reducible apply Dev.slot_leads
    | with_reducible apply Dev.showLastQuench_leads
    | with_reducible apply Dev.retireFailures_leads
    | with_reducible apply Dev.checkDie_leads
    | with_reducible apply Dev.showFence_leads
    | with_reducible apply Dev.raiseStart_leads
    | with_reducible apply Dev.keyLost_leads
    | with_reducible apply Dev.notReady_leads
    | (simp [*]; done)
    | (split <;> try (rename_i e; try obtain rfl := congrArg Prod.fst e; try obtain rfl := congrArg Prod.snd e))

@[simp] theorem Dev.modSeg_leads {init d : Dev} (g : Nat) (die : Nat) (num : Nat) (f : RSeg → RSeg) (h : init.Leads d) : init.Leads (Dev.modSeg d g die num f) := by
  simp [Dev.modSeg, h]

@[simp] theorem Dev.namePending_leads {init d : Dev} (slab : Nat) (die : Nat) (num : Nat) (h : init.Leads d) : init.Leads (Dev.namePending d slab die num).1 := by
  unfold Dev.namePending
  repeat' first
    | with_reducible assumption
    | (intro v; refine (fun hv : init.Leads v => ?_) ?_; rotate_left; subst v)
    | (intro v; refine (fun hv : init.Leads v.1 => ?_) ?_; rotate_left; subst v)
    | (intro v; refine (fun hv : init.Leads v.2 => ?_) ?_; rotate_left; subst v)
    | intro _
    | (extract_lets -lift +onlyGivenNames w; revert w)
    | dsimp -zeta -zetaDelta only
    | with_reducible apply Dev.setF_leads
    | with_reducible apply Dev.allocate_leads
    | with_reducible apply Dev.setRht_leads
    | (simp [*]; done)
    | (split <;> try (rename_i e; try obtain rfl := congrArg Prod.fst e; try obtain rfl := congrArg Prod.snd e))

@[simp] theorem Dev.noteDelta_leads {init d : Dev} (slab : Nat) (delta : Nat) (h : init.Leads d) : init.Leads (Dev.noteDelta d slab delta) := by
  simp [Dev.noteDelta, h]

@[simp] theorem Dev.indexEnds_leads {init d : Dev} (die : Nat) (h : init.Leads d) : init.Leads (Dev.indexEnds d die) := by
  unfold Dev.indexEnds
  repeat' first
    | with_reducible assumption
    | (intro v; refine (fun hv : init.Leads v => ?_) ?_; rotate_left; subst v)
    | (intro v; refine (fun hv : init.Leads v.1 => ?_) ?_; rotate_left; subst v)
    | (intro v; refine (fun hv : init.Leads v.2 => ?_) ?_; rotate_left; subst v)
    | intro _
    | (extract_lets -lift +onlyGivenNames w; revert w)
    | dsimp -zeta -zetaDelta only
    | with_reducible apply Dev.setB_leads
    | with_reducible apply Dev.retryAll_leads
    | (simp [*]; done)
    | (split <;> try (rename_i e; try obtain rfl := congrArg Prod.fst e; try obtain rfl := congrArg Prod.snd e))

@[simp] theorem Dev.indexPass_leads {init d : Dev} (die : Nat) (num : Nat) (seen : Option (List Nat)) (broken : Bool) (h : init.Leads d) : init.Leads (Dev.indexPass d die num seen broken) := by
  unfold Dev.indexPass
  repeat' first
    | with_reducible assumption
    | (intro v; refine (fun hv : init.Leads v => ?_) ?_; rotate_left; subst v)
    | (intro v; refine (fun hv : init.Leads v.1 => ?_) ?_; rotate_left; subst v)
    | (intro v; refine (fun hv : init.Leads v.2 => ?_) ?_; rotate_left; subst v)
    | intro _
    | (extract_lets -lift +onlyGivenNames w; revert w)
    | dsimp -zeta -zetaDelta only
    | with_reducible apply Dev.setF_leads
    | with_reducible apply Dev.forEach_leads
    | with_reducible apply Dev.dieIncomplete_leads
    | with_reducible apply Dev.modSeg_leads
    | with_reducible apply Dev.namePending_leads
    | with_reducible apply Dev.noteDelta_leads
    | with_reducible apply Dev.indexEnds_leads
    | with_reducible apply Dev.leads_foldl
    | (simp [*]; done)
    | (split <;> try (rename_i e; try obtain rfl := congrArg Prod.fst e; try obtain rfl := congrArg Prod.snd e))

@[simp] theorem Dev.staysPoisoned_leads {init d : Dev} (slab : Nat) (h : init.Leads d) : init.Leads (Dev.staysPoisoned d slab) := by
  unfold Dev.staysPoisoned
  repeat' first
    | with_reducible assumption
    | (intro v; refine (fun hv : init.Leads v => ?_) ?_; rotate_left; subst v)
    | (intro v; refine (fun hv : init.Leads v.1 => ?_) ?_; rotate_left; subst v)
    | (intro v; refine (fun hv : init.Leads v.2 => ?_) ?_; rotate_left; subst v)
    | intro _
    | (extract_lets -lift +onlyGivenNames w; revert w)
    | dsimp -zeta -zetaDelta only
    | with_reducible apply Dev.setCru_leads
    | with_reducible apply Dev.modTag_leads
    | with_reducible apply Dev.addPoison_leads
    | with_reducible apply Dev.answerOwed_leads
    | with_reducible apply Dev.failMirror_leads
    | with_reducible apply Dev.serveWaiting_leads
    | with_reducible apply Dev.leads_foldl
    | (simp [*]; done)
    | (split <;> try (rename_i e; try obtain rfl := congrArg Prod.fst e; try obtain rfl := congrArg Prod.snd e))

@[simp] theorem Dev.slabRestored_leads {init d : Dev} (slab : Nat) (h : init.Leads d) : init.Leads (Dev.slabRestored d slab) := by
  unfold Dev.slabRestored
  repeat' first
    | with_reducible assumption
    | (intro v; refine (fun hv : init.Leads v => ?_) ?_; rotate_left; subst v)
    | (intro v; refine (fun hv : init.Leads v.1 => ?_) ?_; rotate_left; subst v)
    | (intro v; refine (fun hv : init.Leads v.2 => ?_) ?_; rotate_left; subst v)
    | intro _
    | (extract_lets -lift +onlyGivenNames w; revert w)
    | dsimp -zeta -zetaDelta only
    | with_reducible apply Dev.issueFill_leads
    | with_reducible apply Dev.serveWaiting_leads
    | with_reducible apply Dev.landFill_leads
    | with_reducible apply Dev.unpend_leads
    | with_reducible apply Dev.settleFailed_leads
    | with_reducible apply Dev.staysPoisoned_leads
    | (simp [*]; done)
    | (split <;> try (rename_i e; try obtain rfl := congrArg Prod.fst e; try obtain rfl := congrArg Prod.snd e))

@[simp] theorem Dev.located_leads {init d : Dev} (slab : Nat) (die : Nat) (num : Nat) (h : init.Leads d) : init.Leads (Dev.located d slab die num) := by
  unfold Dev.located
  repeat' first
    | with_reducible assumption
    | (intro v; refine (fun hv : init.Leads v => ?_) ?_; rotate_left; subst v)
    | (intro v; refine (fun hv : init.Leads v.1 => ?_) ?_; rotate_left; subst v)
    | (intro v; refine (fun hv : init.Leads v.2 => ?_) ?_; rotate_left; subst v)
    | intro _
    | (extract_lets -lift +onlyGivenNames w; revert w)
    | dsimp -zeta -zetaDelta only
    | with_reducible apply Dev.serveWaiting_leads
    | with_reducible apply Dev.setRht_leads
    | with_reducible apply Dev.slabRestored_leads
    | (simp [*]; done)
    | (split <;> try (rename_i e; try obtain rfl := congrArg Prod.fst e; try obtain rfl := congrArg Prod.snd e))

@[simp] theorem Dev.indexMismatch_leads {init d : Dev} (slab : Nat) (die : Nat) (num : Nat) (h : init.Leads d) : init.Leads (Dev.indexMismatch d slab die num) := by
  unfold Dev.indexMismatch
  repeat' first
    | with_reducible assumption
    | (intro v; refine (fun hv : init.Leads v => ?_) ?_; rotate_left; subst v)
    | (intro v; refine (fun hv : init.Leads v.1 => ?_) ?_; rotate_left; subst v)
    | (intro v; refine (fun hv : init.Leads v.2 => ?_) ?_; rotate_left; subst v)
    | intro _
    | (extract_lets -lift +onlyGivenNames w; revert w)
    | dsimp -zeta -zetaDelta only
    | with_reducible apply Dev.forEach_leads
    | with_reducible apply Dev.raise_leads
    | with_reducible apply Dev.invalidate_leads
    | with_reducible apply Dev.coherent_leads
    | with_reducible apply Dev.setRht_leads
    | with_reducible apply Dev.unpend_leads
    | with_reducible apply Dev.slabRestored_leads
    | (simp [*]; done)
    | (split <;> try (rename_i e; try obtain rfl := congrArg Prod.fst e; try obtain rfl := congrArg Prod.snd e))

@[simp] theorem Dev.applySector_leads {init d : Dev} (newer : Bool) (slab : Nat) (i : Nat) (line : Line) (en : Mask) (h : init.Leads d) : init.Leads (Dev.applySector d newer slab i line en) := by
  unfold Dev.applySector
  repeat' first
    | with_reducible assumption
    | (intro v; refine (fun hv : init.Leads v => ?_) ?_; rotate_left; subst v)
    | (intro v; refine (fun hv : init.Leads v.1 => ?_) ?_; rotate_left; subst v)
    | (intro v; refine (fun hf1 : ∀ d, init.Leads d → init.Leads (v d) => ?_) ?_; rotate_left; subst v)
    | (intro v; refine (fun hf2 : ∀ d x, init.Leads d → init.Leads (v d x) => ?_) ?_; rotate_left; subst v)
    | (intro v; refine (fun hf3 : ∀ d x y, init.Leads d → init.Leads (v d x y) => ?_) ?_; rotate_left; subst v)
    | (intro v; refine (fun hv : init.Leads v.2 => ?_) ?_; rotate_left; subst v)
    | intro _
    | (extract_lets -lift +onlyGivenNames w; revert w)
    | dsimp -zeta -zetaDelta only
    | with_reducible apply hf1
    | with_reducible apply hf2
    | with_reducible apply hf3
    | with_reducible apply Dev.setCru_leads
    | with_reducible apply Dev.modTag_leads
    | with_reducible apply Dev.setLine_leads
    | with_reducible apply Dev.delPoison_leads
    | with_reducible apply Dev.append_leads
    | (simp [*]; done)
    | (split <;> try (rename_i e; try obtain rfl := congrArg Prod.fst e; try obtain rfl := congrArg Prod.snd e))

@[simp] theorem Dev.applyDesc_leads {init d : Dev} (newer : Bool) (delta : Nat) (x : Desc) (h : init.Leads d) : init.Leads (Dev.applyDesc d newer delta x).1 := by
  unfold Dev.applyDesc
  repeat' first
    | with_reducible assumption
    | (intro v; refine (fun hv : init.Leads v => ?_) ?_; rotate_left; subst v)
    | (intro v; refine (fun hv : init.Leads v.1 => ?_) ?_; rotate_left; subst v)
    | (intro v; refine (fun hv : init.Leads v.2 => ?_) ?_; rotate_left; subst v)
    | intro _
    | (extract_lets -lift +onlyGivenNames w; revert w)
    | dsimp -zeta -zetaDelta only
    | with_reducible apply Dev.forEach_leads
    | with_reducible apply Dev.allocate_leads
    | with_reducible apply Dev.setRht_leads
    | with_reducible apply Dev.noteDelta_leads
    | with_reducible apply Dev.applySector_leads
    | (simp [*]; done)
    | (split <;> try (rename_i e; try obtain rfl := congrArg Prod.fst e; try obtain rfl := congrArg Prod.snd e))

@[simp] theorem Dev.retireSeg_leads {init d : Dev} (g : Nat) (die : Nat) (num : Nat) (failed : Bool) (h : init.Leads d) : init.Leads (Dev.retireSeg d g die num failed) := by
  unfold Dev.retireSeg
  repeat' first
    | with_reducible assumption
    | (intro v; refine (fun hv : init.Leads v => ?_) ?_; rotate_left; subst v)
    | (intro v; refine (fun hv : init.Leads v.1 => ?_) ?_; rotate_left; subst v)
    | (intro v; refine (fun hv : init.Leads v.2 => ?_) ?_; rotate_left; subst v)
    | intro _
    | (extract_lets -lift +onlyGivenNames w; revert w)
    | dsimp -zeta -zetaDelta only
    | with_reducible apply Dev.setF_leads
    | with_reducible apply Dev.setRht_leads
    | with_reducible apply Dev.modSeg_leads
    | (simp [*]; done)
    | (split <;> try (rename_i e; try obtain rfl := congrArg Prod.fst e; try obtain rfl := congrArg Prod.snd e))

@[simp] theorem Dev.segApply_leads {init d : Dev} (r : Restore) (g : RSeg) (s : ISeg) (h : init.Leads d) : init.Leads (Dev.segApply d r g s) := by
  unfold Dev.segApply
  repeat' first
    | with_reducible assumption
    | (intro v; refine (fun hv : init.Leads v => ?_) ?_; rotate_left; subst v)
    | (intro v; refine (fun hv : init.Leads v.1 => ?_) ?_; rotate_left; subst v)
    | (intro v; refine (fun hv : init.Leads v.2 => ?_) ?_; rotate_left; subst v)
    | intro _
    | (extract_lets -lift +onlyGivenNames w; revert w)
    | dsimp -zeta -zetaDelta only
    | with_reducible apply Dev.forEach_leads
    | with_reducible apply Dev.ceilCheck_leads
    | with_reducible apply Dev.setRht_leads
    | with_reducible apply Dev.modSeg_leads
    | with_reducible apply Dev.slabRestored_leads
    | with_reducible apply Dev.located_leads
    | with_reducible apply Dev.indexMismatch_leads
    | with_reducible apply Dev.applyDesc_leads
    | with_reducible apply Dev.retireSeg_leads
    | with_reducible apply Dev.leads_foldl
    | (simp [*]; done)
    | (split <;> try (rename_i e; try obtain rfl := congrArg Prod.fst e; try obtain rfl := congrArg Prod.snd e))

@[simp] theorem Dev.segFail_leads {init d : Dev} (g : RSeg) (h : init.Leads d) : init.Leads (Dev.segFail d g) := by
  unfold Dev.segFail
  repeat' first
    | with_reducible assumption
    | (intro v; refine (fun hv : init.Leads v => ?_) ?_; rotate_left; subst v)
    | (intro v; refine (fun hv : init.Leads v.1 => ?_) ?_; rotate_left; subst v)
    | (intro v; refine (fun hv : init.Leads v.2 => ?_) ?_; rotate_left; subst v)
    | intro _
    | (extract_lets -lift +onlyGivenNames w; revert w)
    | dsimp -zeta -zetaDelta only
    | with_reducible apply Dev.setF_leads
    | with_reducible apply Dev.forEach_leads
    | with_reducible apply Dev.raise_leads
    | with_reducible apply Dev.ceilCheck_leads
    | with_reducible apply Dev.setRht_leads
    | with_reducible apply Dev.dieIncomplete_leads
    | with_reducible apply Dev.located_leads
    | with_reducible apply Dev.retireSeg_leads
    | (simp [*]; done)
    | (split <;> try (rename_i e; try obtain rfl := congrArg Prod.fst e; try obtain rfl := congrArg Prod.snd e))

@[simp] theorem Dev.predLost_leads {init d : Dev} (r : Restore) (g : RSeg) (s : ISeg) (h : init.Leads d) : init.Leads (Dev.predLost d r g s) := by
  unfold Dev.predLost
  repeat' first
    | with_reducible assumption
    | (intro v; refine (fun hv : init.Leads v => ?_) ?_; rotate_left; subst v)
    | (intro v; refine (fun hv : init.Leads v.1 => ?_) ?_; rotate_left; subst v)
    | (intro v; refine (fun hv : init.Leads v.2 => ?_) ?_; rotate_left; subst v)
    | intro _
    | (extract_lets -lift +onlyGivenNames w; revert w)
    | dsimp -zeta -zetaDelta only
    | with_reducible apply Dev.setRht_leads
    | with_reducible apply Dev.retireSeg_leads
    | (simp [*]; done)
    | (split <;> try (rename_i e; try obtain rfl := congrArg Prod.fst e; try obtain rfl := congrArg Prod.snd e))

@[simp] theorem Dev.segRestore_leads {init d : Dev} (gen : Nat) (die : Nat) (num : Nat) (auth : Bool) (m : NandMedium) (h : init.Leads d) : init.Leads (Dev.segRestore d gen die num auth m) := by
  unfold Dev.segRestore
  repeat' first
    | with_reducible assumption
    | (intro v; refine (fun hv : init.Leads v => ?_) ?_; rotate_left; subst v)
    | (intro v; refine (fun hv : init.Leads v.1 => ?_) ?_; rotate_left; subst v)
    | (intro v; refine (fun hv : init.Leads v.2 => ?_) ?_; rotate_left; subst v)
    | intro _
    | (extract_lets -lift +onlyGivenNames w; revert w)
    | dsimp -zeta -zetaDelta only
    | with_reducible apply Dev.retireBlock_leads
    | with_reducible apply Dev.qWarn_leads
    | with_reducible apply Dev.segApply_leads
    | with_reducible apply Dev.segFail_leads
    | with_reducible apply Dev.predLost_leads
    | (simp [*]; done)
    | (split <;> try (rename_i e; try obtain rfl := congrArg Prod.fst e; try obtain rfl := congrArg Prod.snd e))

@[simp] theorem Dev.restoreRecord_leads {init d : Dev} (r : Restore) (kind : Nat) (h : init.Leads d) : init.Leads (Dev.restoreRecord d r kind) := by
  simp [Dev.restoreRecord, h]

@[simp] theorem Dev.releaseIngots_leads {init d : Dev} (h : init.Leads d) : init.Leads (Dev.releaseIngots d) := by
  unfold Dev.releaseIngots
  repeat' first
    | with_reducible assumption
    | (intro v; refine (fun hv : init.Leads v => ?_) ?_; rotate_left; subst v)
    | (intro v; refine (fun hv : init.Leads v.1 => ?_) ?_; rotate_left; subst v)
    | (intro v; refine (fun hv : init.Leads v.2 => ?_) ?_; rotate_left; subst v)
    | intro _
    | (extract_lets -lift +onlyGivenNames w; revert w)
    | dsimp -zeta -zetaDelta only
    | with_reducible apply Dev.dropUnits_leads
    | with_reducible apply Dev.releaseQuads_leads
    | (simp [*]; done)
    | (split <;> try (rename_i e; try obtain rfl := congrArg Prod.fst e; try obtain rfl := congrArg Prod.snd e))

@[simp] theorem Dev.eagerJudge_leads {init d : Dev} (slab : Nat) (h : init.Leads d) : init.Leads (Dev.eagerJudge d slab) := by
  unfold Dev.eagerJudge
  repeat' first
    | with_reducible assumption
    | (intro v; refine (fun hv : init.Leads v => ?_) ?_; rotate_left; subst v)
    | (intro v; refine (fun hv : init.Leads v.1 => ?_) ?_; rotate_left; subst v)
    | (intro v; refine (fun hv : init.Leads v.2 => ?_) ?_; rotate_left; subst v)
    | intro _
    | (extract_lets -lift +onlyGivenNames w; revert w)
    | dsimp -zeta -zetaDelta only
    | with_reducible apply Dev.setF_leads
    | with_reducible apply Dev.allocate_leads
    | with_reducible apply Dev.setRht_leads
    | with_reducible apply Dev.settleFailed_leads
    | (simp [*]; done)
    | (split <;> try (rename_i e; try obtain rfl := congrArg Prod.fst e; try obtain rfl := congrArg Prod.snd e))

@[simp] theorem Dev.eagerDone_leads {init d : Dev} (h : init.Leads d) : init.Leads (Dev.eagerDone d) := by
  unfold Dev.eagerDone
  repeat' first
    | with_reducible assumption
    | (intro v; refine (fun hv : init.Leads v => ?_) ?_; rotate_left; subst v)
    | (intro v; refine (fun hv : init.Leads v.1 => ?_) ?_; rotate_left; subst v)
    | (intro v; refine (fun hv : init.Leads v.2 => ?_) ?_; rotate_left; subst v)
    | intro _
    | (extract_lets -lift +onlyGivenNames w; revert w)
    | dsimp -zeta -zetaDelta only
    | with_reducible apply Dev.setF_leads
    | with_reducible apply Dev.forEach_leads
    | with_reducible apply Dev.setB_leads
    | with_reducible apply Dev.setRht_leads
    | with_reducible apply Dev.slabRestored_leads
    | with_reducible apply Dev.eagerJudge_leads
    | (simp [*]; done)
    | (split <;> try (rename_i e; try obtain rfl := congrArg Prod.fst e; try obtain rfl := congrArg Prod.snd e))

@[simp] theorem Dev.ingotRelease_leads {init d : Dev} (h : init.Leads d) : init.Leads (Dev.ingotRelease d) := by
  unfold Dev.ingotRelease
  repeat' first
    | with_reducible assumption
    | (intro v; refine (fun hv : init.Leads v => ?_) ?_; rotate_left; subst v)
    | (intro v; refine (fun hv : init.Leads v.1 => ?_) ?_; rotate_left; subst v)
    | (intro v; refine (fun hv : init.Leads v.2 => ?_) ?_; rotate_left; subst v)
    | intro _
    | (extract_lets -lift +onlyGivenNames w; revert w)
    | dsimp -zeta -zetaDelta only
    | with_reducible apply Dev.setF_leads
    | with_reducible apply Dev.raiseB_leads
    | with_reducible apply Dev.setRht_leads
    | with_reducible apply Dev.restoreRecord_leads
    | with_reducible apply Dev.releaseIngots_leads
    | (simp [*]; done)
    | (split <;> try (rename_i e; try obtain rfl := congrArg Prod.fst e; try obtain rfl := congrArg Prod.snd e))

theorem execReheatLocate_runs (s : State) : s.Runs (execReheatLocate s) := by
  unfold execReheatLocate
  refine State.on_runs fun init => ?_
  have h := Dev.Leads.refl init
  repeat' first
    | with_reducible assumption
    | (intro v; refine (fun hv : init.Leads v => ?_) ?_; rotate_left; subst v)
    | intro _
    | (extract_lets -lift +onlyGivenNames w; revert w)
    | with_reducible apply Dev.setF_leads
    | with_reducible apply Dev.forEach_leads
    | with_reducible apply Dev.putRecord_leads
    | (simp [*]; done)
    | split

theorem execIngotScan_runs (bad : List FlashAt) (s : State) : s.Runs (execIngotScan bad s) := by
  unfold execIngotScan
  refine State.on_runs fun init => ?_
  have h := Dev.Leads.refl init
  repeat' first
    | with_reducible assumption
    | intro _
    | with_reducible apply Dev.ingotScan_leads
    | (simp [*]; done)
    | split

@[simp] theorem Dev.claimNext_leads {init d : Dev} (claimOk : Bool) (reserveOk : Bool) (status : Nat) (h : init.Leads d) : init.LeadsO (Dev.claimNext d claimOk reserveOk status) := by
  unfold Dev.claimNext
  repeat' first
    | with_reducible assumption
    | (intro v; refine (fun hv : init.Leads v => ?_) ?_; rotate_left; subst v)
    | (intro v; refine (fun hv : init.Leads v.1 => ?_) ?_; rotate_left; subst v)
    | (intro v; refine (fun hv : init.Leads v.2 => ?_) ?_; rotate_left; subst v)
    | intro _
    | (extract_lets -lift +onlyGivenNames w; revert w)
    | dsimp -zeta -zetaDelta only
    | with_reducible apply Dev.setF_leads
    | with_reducible apply Dev.setB_leads
    | with_reducible apply Dev.record_leads
    | with_reducible apply Dev.rollKeys_leads
    | with_reducible apply Dev.leadsO_some
    | with_reducible apply Dev.leadsO_none
    | with_reducible apply Dev.leadsO_map
    | (simp [*]; done)
    | (split <;> try (rename_i e; try obtain rfl := congrArg Prod.fst e; try obtain rfl := congrArg Prod.snd e))

@[simp] theorem Dev.firstHeat_leads {init d : Dev} (h : init.Leads d) : init.Leads (Dev.firstHeat d) := by
  unfold Dev.firstHeat
  repeat' first
    | with_reducible assumption
    | (intro v; refine (fun hv : init.Leads v => ?_) ?_; rotate_left; subst v)
    | (intro v; refine (fun hv : init.Leads v.1 => ?_) ?_; rotate_left; subst v)
    | (intro v; refine (fun hv : init.Leads v.2 => ?_) ?_; rotate_left; subst v)
    | intro _
    | (extract_lets -lift +onlyGivenNames w; revert w)
    | dsimp -zeta -zetaDelta only
    | with_reducible apply Dev.setF_leads
    | with_reducible apply Dev.programReservation_leads
    | with_reducible apply Dev.openHeatAt_leads
    | (simp [*]; done)
    | (split <;> try (rename_i e; try obtain rfl := congrArg Prod.fst e; try obtain rfl := congrArg Prod.snd e))

@[simp] theorem Dev.afterRecords_leads {init d : Dev} (h : init.Leads d) : init.Leads (Dev.afterRecords d) := by
  unfold Dev.afterRecords
  repeat' first
    | with_reducible assumption
    | (intro v; refine (fun hv : init.Leads v => ?_) ?_; rotate_left; subst v)
    | (intro v; refine (fun hv : init.Leads v.1 => ?_) ?_; rotate_left; subst v)
    | (intro v; refine (fun hv : init.Leads v.2 => ?_) ?_; rotate_left; subst v)
    | intro _
    | (extract_lets -lift +onlyGivenNames w; revert w)
    | dsimp -zeta -zetaDelta only
    | with_reducible apply Dev.setF_leads
    | with_reducible apply Dev.forEach_leads
    | with_reducible apply Dev.setRht_leads
    | with_reducible apply Dev.indexEnds_leads
    | with_reducible apply Dev.releaseIngots_leads
    | (simp [*]; done)
    | (split <;> try (rename_i e; try obtain rfl := congrArg Prod.fst e; try obtain rfl := congrArg Prod.snd e))

theorem execReheatRecordsProgram_runs (claimOk reserveOk : Bool) (status : Nat) (s : State) : s.Runs (execReheatRecordsProgram claimOk reserveOk status s) := by
  unfold execReheatRecordsProgram
  refine State.on_runs fun init => ?_
  have h := Dev.Leads.refl init
  repeat' first
    | with_reducible assumption
    | (intro v; refine (fun hv : init.Leads v => ?_) ?_; rotate_left; subst v)
    | intro _
    | (extract_lets -lift +onlyGivenNames w; revert w)
    | with_reducible apply Dev.raiseB_leads
    | with_reducible apply Dev.notReady_leads
    | with_reducible apply Dev.restoreRecord_leads
    | with_reducible apply Dev.claimNext_leads
    | with_reducible apply Dev.firstHeat_leads
    | with_reducible apply Dev.afterRecords_leads
    | refine Dev.LeadsO.of_some ?_ ‹_ = some _›
    | with_reducible apply Dev.leadsO_some
    | with_reducible apply Dev.leadsO_none
    | (simp [*]; done)
    | split

theorem execEagerRestoreDone_runs (s : State) : s.Runs (execEagerRestoreDone s) := by
  unfold execEagerRestoreDone
  refine State.on_runs fun init => ?_
  have h := Dev.Leads.refl init
  repeat' first
    | with_reducible assumption
    | intro _
    | with_reducible apply Dev.eagerDone_leads
    | (simp [*]; done)

theorem execIndexPassSegment_runs (die num : Nat) (seen : Option (List Nat)) (broken : Bool) (s : State) : s.Runs (execIndexPassSegment die num seen broken s) := by
  unfold execIndexPassSegment
  refine State.on_runs fun init => ?_
  have h := Dev.Leads.refl init
  repeat' first
    | with_reducible assumption
    | intro _
    | with_reducible apply Dev.indexPass_leads
    | (simp [*]; done)
    | split

theorem execIndexDeadline_runs (die : Nat) (s : State) : s.Runs (execIndexDeadline die s) := by
  unfold execIndexDeadline
  refine State.on_runs fun init => ?_
  have h := Dev.Leads.refl init
  repeat' first
    | with_reducible assumption
    | (intro v; refine (fun hv : init.Leads v => ?_) ?_; rotate_left; subst v)
    | intro _
    | (extract_lets -lift +onlyGivenNames w; revert w)
    | with_reducible apply Dev.setB_leads
    | with_reducible apply Dev.raise_leads
    | with_reducible apply Dev.until_leads
    | (simp [*]; done)
    | split

@[simp] theorem Dev.openGates_leads {init d : Dev} (h : init.Leads d) : init.Leads (Dev.openGates d) := by
  unfold Dev.openGates
  repeat' first
    | with_reducible assumption
    | (intro v; refine (fun hv : init.Leads v => ?_) ?_; rotate_left; subst v)
    | (intro v; refine (fun hv : init.Leads v.1 => ?_) ?_; rotate_left; subst v)
    | (intro v; refine (fun hv : init.Leads v.2 => ?_) ?_; rotate_left; subst v)
    | intro _
    | (extract_lets -lift +onlyGivenNames w; revert w)
    | dsimp -zeta -zetaDelta only
    | with_reducible apply Dev.setF_leads
    | with_reducible apply Dev.forEach_leads
    | with_reducible apply Dev.setB_leads
    | with_reducible apply Dev.raiseB_leads
    | (simp [*]; done)
    | (split <;> try (rename_i e; try obtain rfl := congrArg Prod.fst e; try obtain rfl := congrArg Prod.snd e))

theorem execGatesReopen_runs (s : State) : s.Runs (execGatesReopen s) := by
  unfold execGatesReopen
  refine State.on_runs fun init => ?_
  have h := Dev.Leads.refl init
  repeat' first
    | with_reducible assumption
    | (intro v; refine (fun hv : init.Leads v => ?_) ?_; rotate_left; subst v)
    | intro _
    | (extract_lets -lift +onlyGivenNames w; revert w)
    | with_reducible apply Dev.setF_leads
    | with_reducible apply Dev.raiseB_leads
    | with_reducible apply Dev.compute_leads
    | with_reducible apply Dev.modRestore_leads
    | with_reducible apply Dev.restoreRecord_leads
    | with_reducible apply Dev.openGates_leads
    | (simp [*]; done)
    | split

theorem execSegmentRestore_runs (gen die num : Nat) (auth : Bool) (m : NandMedium) (s : State) : s.Runs (execSegmentRestore gen die num auth m s) := by
  unfold execSegmentRestore
  refine State.on_runs fun init => ?_
  have h := Dev.Leads.refl init
  repeat' first
    | with_reducible assumption
    | intro _
    | with_reducible apply Dev.segRestore_leads
    | (simp [*]; done)
    | split

theorem execIngotRelease_runs (s : State) : s.Runs (execIngotRelease s) := by
  unfold execIngotRelease
  refine State.on_runs fun init => ?_
  have h := Dev.Leads.refl init
  repeat' first
    | with_reducible assumption
    | intro _
    | with_reducible apply Dev.ingotRelease_leads
    | (simp [*]; done)

theorem execRhtDiscard_runs (s : State) : s.Runs (execRhtDiscard s) := by
  unfold execRhtDiscard
  refine State.on_runs fun init => ?_
  have h := Dev.Leads.refl init
  repeat' first
    | with_reducible assumption
    | (intro v; refine (fun hv : init.Leads v => ?_) ?_; rotate_left; subst v)
    | intro _
    | (extract_lets -lift +onlyGivenNames w; revert w)
    | with_reducible apply Dev.setF_leads
    | with_reducible apply Dev.setRht_leads
    | with_reducible apply Dev.keyLost_leads
    | with_reducible apply Dev.releaseIngots_leads
    | (simp [*]; done)
    | split

end Sys2Proof.Machine
end

