-- ==== Sys2Proof/Laws/LeadsSecure.lean ====
section
/-! SUPPORT. What the reset and security commands never break (Leads), one lemma a function; each command runs (Runs), one lemma a command. -/

namespace Sys2Proof.Machine

open Sys2Proof

set_option linter.tactic.unusedName false
set_option linter.unusedTactic false
set_option linter.unreachableTactic false
set_option linter.unusedSimpArgs false
set_option linter.unusedVariables false

@[simp] theorem Dev.setRst_leads {init d : Dev} (f : RstState → RstState) (h : init.Leads d) : init.Leads (Dev.setRst d f) := by
  simp [Dev.setRst, h]

@[simp] theorem Dev.setSvc_leads {init d : Dev} (f : SvcState → SvcState) (h : init.Leads d) : init.Leads (Dev.setSvc d f) := by
  simp [Dev.setSvc, h]

@[simp] theorem Dev.setPhase_leads {init d : Dev} (p : Nat) (h : init.Leads d) : init.Leads (Dev.setPhase d p) := by
  simp [Dev.setPhase, h]

@[simp] theorem Dev.afterReset_leads {init d : Dev} (cold : Bool) (h : init.Leads d) : init.Leads (Dev.afterReset d cold) := by
  exact ⟨h.mem, fun w x hx => h.regs w x (List.mem_filter.1 hx).1, h.time, h.draws, h.sent, h.part⟩

@[simp] theorem Dev.startUp_leads {init d : Dev} (st : Straps) (h : init.Leads d) : init.Leads (Dev.startUp d st) := by
  unfold Dev.startUp
  repeat' first
    | with_reducible assumption
    | (intro v; refine (fun hv : init.Leads v => ?_) ?_; rotate_left; subst v)
    | (intro v; refine (fun hv : init.Leads v.1 => ?_) ?_; rotate_left; subst v)
    | (intro v; refine (fun hv : init.Leads v.2 => ?_) ?_; rotate_left; subst v)
    | intro _
    | (extract_lets -lift +onlyGivenNames w; revert w)
    | dsimp -zeta -zetaDelta only
    | with_reducible apply Dev.setF_leads
    | with_reducible apply Dev.setB_leads
    | with_reducible apply Dev.setRst_leads
    | with_reducible apply Dev.setPhase_leads
    | (simp [*]; done)
    | (split <;> try (rename_i e; try obtain rfl := congrArg Prod.fst e; try obtain rfl := congrArg Prod.snd e))

@[simp] theorem Dev.endStart_leads {init d : Dev} (k : Nat) (next : Nat) (h : init.Leads d) : init.Leads (Dev.endStart d k next) := by
  simp [Dev.endStart, h]

@[simp] theorem Dev.diesDown_leads {init d : Dev} (h : init.Leads d) : init.Leads (Dev.diesDown d) := by
  unfold Dev.diesDown
  repeat' first
    | with_reducible assumption
    | (intro v; refine (fun hv : init.Leads v => ?_) ?_; rotate_left; subst v)
    | (intro v; refine (fun hv : init.Leads v.1 => ?_) ?_; rotate_left; subst v)
    | (intro v; refine (fun hv : init.Leads v.2 => ?_) ?_; rotate_left; subst v)
    | intro _
    | (extract_lets -lift +onlyGivenNames w; revert w)
    | dsimp -zeta -zetaDelta only
    | with_reducible apply Dev.emit_leads
    | with_reducible apply Dev.forEach_leads
    | with_reducible apply Dev.setB_leads
    | with_reducible apply Dev.setRst_leads
    | (simp [*]; done)
    | (split <;> try (rename_i e; try obtain rfl := congrArg Prod.fst e; try obtain rfl := congrArg Prod.snd e))

@[simp] theorem Dev.takeReset_leads {init d : Dev} (p : PendingReset) (st : Straps) (h : init.Leads d) : init.Leads (Dev.takeReset d p st) := by
  unfold Dev.takeReset
  repeat' first
    | with_reducible assumption
    | (intro v; refine (fun hv : init.Leads v => ?_) ?_; rotate_left; subst v)
    | (intro v; refine (fun hv : init.Leads v.1 => ?_) ?_; rotate_left; subst v)
    | (intro v; refine (fun hv : init.Leads v.2 => ?_) ?_; rotate_left; subst v)
    | intro _
    | (extract_lets -lift +onlyGivenNames w; revert w)
    | dsimp -zeta -zetaDelta only
    | with_reducible apply Dev.setF_leads
    | with_reducible apply Dev.incF_leads
    | with_reducible apply Dev.setRst_leads
    | with_reducible apply Dev.afterReset_leads
    | with_reducible apply Dev.startUp_leads
    | with_reducible apply Dev.diesDown_leads
    | (simp [*]; done)
    | (split <;> try (rename_i e; try obtain rfl := congrArg Prod.fst e; try obtain rfl := congrArg Prod.snd e))

@[simp] theorem Dev.endWait_leads {init d : Dev} (p : PendingReset) (h : init.Leads d) : init.Leads (Dev.endWait d p) := by
  simp [Dev.endWait, h]

@[simp] theorem Dev.advanceReset_leads {init d : Dev} (drives : Bool) (st : Straps) (h : init.Leads d) : init.Leads (Dev.advanceReset d drives st) := by
  unfold Dev.advanceReset
  repeat' first
    | with_reducible assumption
    | (intro v; refine (fun hv : init.Leads v => ?_) ?_; rotate_left; subst v)
    | (intro v; refine (fun hv : init.Leads v.1 => ?_) ?_; rotate_left; subst v)
    | (intro v; refine (fun hv : init.Leads v.2 => ?_) ?_; rotate_left; subst v)
    | intro _
    | (extract_lets -lift +onlyGivenNames w; revert w)
    | dsimp -zeta -zetaDelta only
    | with_reducible apply Dev.forEach_leads
    | with_reducible apply Dev.shutdownCtrl_leads
    | with_reducible apply Dev.setRst_leads
    | with_reducible apply Dev.takeReset_leads
    | (simp [*]; done)
    | (split <;> try (rename_i e; try obtain rfl := congrArg Prod.fst e; try obtain rfl := congrArg Prod.snd e))

@[simp] theorem Dev.endNqWindow_leads {init d : Dev} (h : init.Leads d) : init.Leads (Dev.endNqWindow d) := by
  simp [Dev.endNqWindow, h]

@[simp] theorem Dev.decideReset_leads {init d : Dev} (cause : Nat) (tamper : Bool) (st : Straps) (h : init.Leads d) : init.Leads (Dev.decideReset d cause tamper st) := by
  unfold Dev.decideReset
  repeat' first
    | with_reducible assumption
    | (intro v; refine (fun hv : init.Leads v => ?_) ?_; rotate_left; subst v)
    | (intro v; refine (fun hv : init.Leads v.1 => ?_) ?_; rotate_left; subst v)
    | (intro v; refine (fun hf1 : ∀ d, init.Leads d → init.Leads (v d) => ?_) ?_; rotate_left; subst v)
    | (intro v; refine (fun hf2 : ∀ d x, init.Leads d → init.Leads (v d x) => ?_) ?_; rotate_left; subst v)
    | (intro v; refine (fun hf3 : ∀ d x y, init.Leads d → init.Leads (v d x y) => ?_) ?_; rotate_left; subst v)
    | (intro v; refine (fun hv : init.Leads v.2 => ?_) ?_; rotate_left; subst v)
    | intro _
    | (extract_lets -lift +onlyGivenNames w; revert w)
    | dsimp -zeta -zetaDelta only
    | with_reducible apply hf1
    | with_reducible apply hf2
    | with_reducible apply hf3
    | with_reducible apply Dev.trip_leads
    | with_reducible apply Dev.modQuench_leads
    | with_reducible apply Dev.setRst_leads
    | with_reducible apply Dev.advanceReset_leads
    | with_reducible apply Dev.endNqWindow_leads
    | (simp [*]; done)
    | (split <;> try (rename_i e; try obtain rfl := congrArg Prod.fst e; try obtain rfl := congrArg Prod.snd e))

@[simp] theorem Dev.loadString_leads {init d : Dev} (n : Nat) (h : init.Leads d) : init.Leads (Dev.loadString d n) := by
  unfold Dev.loadString
  repeat' first
    | with_reducible assumption
    | (intro v; refine (fun hv : init.Leads v => ?_) ?_; rotate_left; subst v)
    | (intro v; refine (fun hv : init.Leads v.1 => ?_) ?_; rotate_left; subst v)
    | (intro v; refine (fun hv : init.Leads v.2 => ?_) ?_; rotate_left; subst v)
    | intro _
    | (extract_lets -lift +onlyGivenNames w; revert w)
    | dsimp -zeta -zetaDelta only
    | with_reducible apply Dev.setF_leads
    | with_reducible apply Dev.setB_leads
    | with_reducible apply Dev.modBstr_leads
    | with_reducible apply Dev.setSerial_leads
    | (simp [*]; done)
    | (split <;> try (rename_i e; try obtain rfl := congrArg Prod.fst e; try obtain rfl := congrArg Prod.snd e))

@[simp] theorem Dev.loadLearned_leads {init d : Dev} (h : init.Leads d) : init.Leads (Dev.loadLearned d) := by
  unfold Dev.loadLearned
  extract_lets rs d1 d2
  have h1 : init.Leads d1 := Dev.setBell_leads _ h
  clear_value d1
  have h2 : init.Leads d2 := Dev.forEach_leads _ _ (Dev.setF_leads _ _ _ _ _ h1) fun _ _ hx => Dev.loadString_leads _ hx
  clear_value d2
  split
  · exact Dev.setCeil_leads _ h2
  · exact h2

@[simp] theorem Dev.loadCounters_leads {init d : Dev} (h : init.Leads d) : init.Leads (Dev.loadCounters d) := by
  unfold Dev.loadCounters
  repeat' first
    | with_reducible assumption
    | (intro v; refine (fun hv : init.Leads v => ?_) ?_; rotate_left; subst v)
    | (intro v; refine (fun hv : init.Leads v.1 => ?_) ?_; rotate_left; subst v)
    | (intro v; refine (fun hv : init.Leads v.2 => ?_) ?_; rotate_left; subst v)
    | intro _
    | (extract_lets -lift +onlyGivenNames w; revert w)
    | dsimp -zeta -zetaDelta only
    | with_reducible apply Dev.setF_leads
    | with_reducible apply Dev.setSvc_leads
    | (simp [*]; done)
    | (split <;> try (rename_i e; try obtain rfl := congrArg Prod.fst e; try obtain rfl := congrArg Prod.snd e))

@[simp] theorem Dev.cutOff_leads {init d : Dev} (group : Nat) (r : TmpRun) (h : init.Leads d) : init.Leads (Dev.cutOff d group r) := by
  unfold Dev.cutOff
  repeat' first
    | with_reducible assumption
    | (intro v; refine (fun hv : init.Leads v => ?_) ?_; rotate_left; subst v)
    | (intro v; refine (fun hv : init.Leads v.1 => ?_) ?_; rotate_left; subst v)
    | (intro v; refine (fun hv : init.Leads v.2 => ?_) ?_; rotate_left; subst v)
    | intro _
    | (extract_lets -lift +onlyGivenNames w; revert w)
    | dsimp -zeta -zetaDelta only
    | with_reducible apply Dev.setTmp_leads
    | with_reducible apply Dev.tmpPut_leads
    | (simp [*]; done)
    | (split <;> try (rename_i e; try obtain rfl := congrArg Prod.fst e; try obtain rfl := congrArg Prod.snd e))

@[simp] theorem Dev.powerDown_leads {init d : Dev} (h : init.Leads d) : init.Leads (Dev.powerDown d) := by
  unfold Dev.powerDown
  repeat' first
    | with_reducible assumption
    | (intro v; refine (fun hv : init.Leads v => ?_) ?_; rotate_left; subst v)
    | (intro v; refine (fun hv : init.Leads v.1 => ?_) ?_; rotate_left; subst v)
    | (intro v; refine (fun hv : init.Leads v.2 => ?_) ?_; rotate_left; subst v)
    | intro _
    | (extract_lets -lift +onlyGivenNames w; revert w)
    | dsimp -zeta -zetaDelta only
    | with_reducible apply Dev.setF_leads
    | with_reducible apply Dev.forEach_leads
    | with_reducible apply Dev.setPin_leads
    | with_reducible apply Dev.lvRecord_leads
    | with_reducible apply Dev.diesDown_leads
    | (simp [*]; done)
    | (split <;> try (rename_i e; try obtain rfl := congrArg Prod.fst e; try obtain rfl := congrArg Prod.snd e))

@[simp] theorem Dev.spdmReply_leads {init d : Dev} (t : Path) (name : String) (fields : Fields) (h : init.Leads d) : init.Leads (Dev.spdmReply d t name fields) := by
  simp [Dev.spdmReply, h]

@[simp] theorem Dev.spdmAnswer_leads {init d : Dev} (t : Path) (name : String) (fields : Fields) (h : init.Leads d) : init.Leads (Dev.spdmAnswer d t name fields) := by
  simp [Dev.spdmAnswer, h]

@[simp] theorem Dev.openSession_leads {init d : Dev} (t : Path) (byOwner : Bool) (h : init.Leads d) : init.Leads (Dev.openSession d t byOwner) := by
  unfold Dev.openSession
  repeat' first
    | with_reducible assumption
    | (intro v; refine (fun hv : init.Leads v => ?_) ?_; rotate_left; subst v)
    | (intro v; refine (fun hv : init.Leads v.1 => ?_) ?_; rotate_left; subst v)
    | (intro v; refine (fun hv : init.Leads v.2 => ?_) ?_; rotate_left; subst v)
    | intro _
    | (extract_lets -lift +onlyGivenNames w; revert w)
    | dsimp -zeta -zetaDelta only
    | with_reducible apply Dev.tick_leads
    | with_reducible apply Dev.forEach_leads
    | with_reducible apply Dev.raiseB_leads
    | with_reducible apply Dev.setSec_leads
    | with_reducible apply Dev.writeKey_leads
    | with_reducible apply Dev.drawKey_leads
    | with_reducible apply Dev.showSessions_leads
    | with_reducible apply Dev.spdmReply_leads
    | (simp [*]; done)
    | (split <;> try (rename_i e; try obtain rfl := congrArg Prod.fst e; try obtain rfl := congrArg Prod.snd e))

@[simp] theorem Dev.contextFails_leads {init d : Dev} (s : KeySlot) (group : Nat) (stream : Nat) (h : init.Leads d) : init.Leads (Dev.contextFails d s group stream) := by
  unfold Dev.contextFails
  repeat' first
    | with_reducible assumption
    | (intro v; refine (fun hv : init.Leads v => ?_) ?_; rotate_left; subst v)
    | (intro v; refine (fun hv : init.Leads v.1 => ?_) ?_; rotate_left; subst v)
    | (intro v; refine (fun hv : init.Leads v.2 => ?_) ?_; rotate_left; subst v)
    | (intro w; clear_value w)
    | intro _
    | (extract_lets -lift +onlyGivenNames w; revert w)
    | dsimp -zeta -zetaDelta only
    | with_reducible apply Dev.emit_leads
    | with_reducible apply Dev.setB_leads
    | with_reducible apply Dev.raise_leads
    | with_reducible apply Dev.setSec_leads
    | with_reducible apply Dev.linkLost_leads
    | (simp [*]; done)
    | (split <;> try (rename_i e; try obtain rfl := congrArg Prod.fst e; try obtain rfl := congrArg Prod.snd e))

@[simp] theorem Dev.startJob_leads {init d : Dev} (s : KeySlot) (stream : Option Nat) (h : init.Leads d) : init.Leads (Dev.startJob d s stream) := by
  unfold Dev.startJob
  repeat' first
    | with_reducible assumption
    | (intro v; refine (fun hv : init.Leads v => ?_) ?_; rotate_left; subst v)
    | (intro v; refine (fun hv : init.Leads v.1 => ?_) ?_; rotate_left; subst v)
    | (intro v; refine (fun hv : init.Leads v.2 => ?_) ?_; rotate_left; subst v)
    | intro _
    | (extract_lets -lift +onlyGivenNames w; revert w)
    | dsimp -zeta -zetaDelta only
    | with_reducible apply Dev.emit_leads
    | with_reducible apply Dev.setSec_leads
    | with_reducible apply Dev.setCell_leads
    | (simp [*]; done)
    | (split <;> try (rename_i e; try obtain rfl := congrArg Prod.fst e; try obtain rfl := congrArg Prod.snd e))

@[simp] theorem Dev.endJob_leads {init d : Dev} (id : Nat) (h : init.Leads d) : init.Leads (Dev.endJob d id) := by
  unfold Dev.endJob
  repeat' first
    | with_reducible assumption
    | (intro v; refine (fun hv : init.Leads v => ?_) ?_; rotate_left; subst v)
    | (intro v; refine (fun hv : init.Leads v.1 => ?_) ?_; rotate_left; subst v)
    | (intro v; refine (fun hv : init.Leads v.2 => ?_) ?_; rotate_left; subst v)
    | intro _
    | (extract_lets -lift +onlyGivenNames w; revert w)
    | dsimp -zeta -zetaDelta only
    | with_reducible apply Dev.emit_leads
    | with_reducible apply Dev.setSec_leads
    | with_reducible apply Dev.setCell_leads
    | with_reducible apply Dev.slot_leads
    | (simp [*]; done)
    | (split <;> try (rename_i e; try obtain rfl := congrArg Prod.fst e; try obtain rfl := congrArg Prod.snd e))

@[simp] theorem Dev.zeroize_leads {init d : Dev} (h : init.Leads d) : init.Leads (Dev.zeroize d) := by
  unfold Dev.zeroize
  repeat' first
    | with_reducible assumption
    | (intro v; refine (fun hv : init.Leads v => ?_) ?_; rotate_left; subst v)
    | (intro v; refine (fun hv : init.Leads v.1 => ?_) ?_; rotate_left; subst v)
    | (intro v; refine (fun hv : init.Leads v.2 => ?_) ?_; rotate_left; subst v)
    | intro _
    | (extract_lets -lift +onlyGivenNames w; revert w)
    | dsimp -zeta -zetaDelta only
    | with_reducible apply Dev.tick_leads
    | with_reducible apply Dev.forEach_leads
    | with_reducible apply Dev.setB_leads
    | with_reducible apply Dev.raiseB_leads
    | with_reducible apply Dev.eraseKey_leads
    | with_reducible apply Dev.endSessions_leads
    | with_reducible apply Dev.linkDown_leads
    | (simp [*]; done)
    | (split <;> try (rename_i e; try obtain rfl := congrArg Prod.fst e; try obtain rfl := congrArg Prod.snd e))

@[simp] theorem Dev.destroyBlobs_leads {init d : Dev} (h : init.Leads d) : init.Leads (Dev.destroyBlobs d) := by
  unfold Dev.destroyBlobs
  repeat' first
    | with_reducible assumption
    | (intro v; refine (fun hv : init.Leads v => ?_) ?_; rotate_left; subst v)
    | (intro v; refine (fun hv : init.Leads v.1 => ?_) ?_; rotate_left; subst v)
    | (intro v; refine (fun hv : init.Leads v.2 => ?_) ?_; rotate_left; subst v)
    | intro _
    | (extract_lets -lift +onlyGivenNames w; revert w)
    | dsimp -zeta -zetaDelta only
    | with_reducible apply Dev.raiseB_leads
    | with_reducible apply Dev.eraseRings_leads
    | with_reducible apply Dev.burnEpoch_leads
    | (simp [*]; done)
    | (split <;> try (rename_i e; try obtain rfl := congrArg Prod.fst e; try obtain rfl := congrArg Prod.snd e))

@[simp] theorem Dev.stopQuench_leads {init d : Dev} (h : init.Leads d) : init.Leads (Dev.stopQuench d) := by
  simp [Dev.stopQuench, h]

@[simp] theorem Dev.alarm_leads {init d : Dev} (src : Fld) (n : Nat) (tamper : Bool) (st : Straps) (h : init.Leads d) : init.Leads (Dev.alarm d src n tamper st) := by
  unfold Dev.alarm
  repeat' first
    | with_reducible assumption
    | (intro v; refine (fun hv : init.Leads v => ?_) ?_; rotate_left; subst v)
    | (intro v; refine (fun hv : init.Leads v.1 => ?_) ?_; rotate_left; subst v)
    | (intro v; refine (fun hv : init.Leads v.2 => ?_) ?_; rotate_left; subst v)
    | intro _
    | (extract_lets -lift +onlyGivenNames w; revert w)
    | dsimp -zeta -zetaDelta only
    | with_reducible apply Dev.setB_leads
    | with_reducible apply Dev.raiseB_leads
    | with_reducible apply Dev.setSec_leads
    | with_reducible apply Dev.setRht_leads
    | with_reducible apply Dev.advanceReset_leads
    | with_reducible apply Dev.decideReset_leads
    | with_reducible apply Dev.zeroize_leads
    | with_reducible apply Dev.destroyBlobs_leads
    | with_reducible apply Dev.stopQuench_leads
    | (simp [*]; done)
    | (split <;> try (rename_i e; try obtain rfl := congrArg Prod.fst e; try obtain rfl := congrArg Prod.snd e))

theorem execSpdmGetVersion_runs (t : Path) (s : State) : s.Runs (execSpdmGetVersion t s) := by
  unfold execSpdmGetVersion
  refine State.on_runs fun init => ?_
  have h := Dev.Leads.refl init
  repeat' first
    | with_reducible assumption
    | intro _
    | with_reducible apply Dev.spdmAnswer_leads
    | (simp [*]; done)

theorem execSpdmGetCapabilities_runs (t : Path) (s : State) : s.Runs (execSpdmGetCapabilities t s) := by
  unfold execSpdmGetCapabilities
  refine State.on_runs fun init => ?_
  have h := Dev.Leads.refl init
  repeat' first
    | with_reducible assumption
    | intro _
    | with_reducible apply Dev.spdmAnswer_leads
    | (simp [*]; done)

theorem execSpdmNegotiateAlgorithms_runs (t : Path) (s : State) : s.Runs (execSpdmNegotiateAlgorithms t s) := by
  unfold execSpdmNegotiateAlgorithms
  refine State.on_runs fun init => ?_
  have h := Dev.Leads.refl init
  repeat' first
    | with_reducible assumption
    | intro _
    | with_reducible apply Dev.spdmAnswer_leads
    | (simp [*]; done)

theorem execSpdmGetDigests_runs (t : Path) (s : State) : s.Runs (execSpdmGetDigests t s) := by
  unfold execSpdmGetDigests
  refine State.on_runs fun init => ?_
  have h := Dev.Leads.refl init
  repeat' first
    | with_reducible assumption
    | intro _
    | with_reducible apply Dev.spdmAnswer_leads
    | (simp [*]; done)

theorem execSpdmGetCertificate_runs (t : Path) (slot off len : Nat) (s : State) : s.Runs (execSpdmGetCertificate t slot off len s) := by
  unfold execSpdmGetCertificate
  refine State.on_runs fun init => ?_
  have h := Dev.Leads.refl init
  repeat' first
    | with_reducible assumption
    | (intro v; refine (fun hv : init.Leads v => ?_) ?_; rotate_left; subst v)
    | intro _
    | (extract_lets -lift +onlyGivenNames w; revert w)
    | with_reducible apply Dev.spdmAnswer_leads
    | (simp [*]; done)
    | split

theorem execSpdmChallenge_runs (t : Path) (slot _nonce : Nat) (s : State) : s.Runs (execSpdmChallenge t slot _nonce s) := by
  unfold execSpdmChallenge
  refine State.on_runs fun init => ?_
  have h := Dev.Leads.refl init
  repeat' first
    | with_reducible assumption
    | intro _
    | with_reducible apply Dev.tick_leads
    | with_reducible apply Dev.spdmAnswer_leads
    | (simp [*]; done)
    | split

theorem execSpdmGetMeasurements_runs (t : Path) (_nonce : Nat) (s : State) : s.Runs (execSpdmGetMeasurements t _nonce s) := by
  unfold execSpdmGetMeasurements
  refine State.on_runs fun init => ?_
  have h := Dev.Leads.refl init
  repeat' first
    | with_reducible assumption
    | intro _
    | with_reducible apply Dev.tick_leads
    | with_reducible apply Dev.spdmAnswer_leads
    | (simp [*]; done)

theorem execSpdmKeyExchange_runs (t : Path) (ownerKey : Bool) (s : State) : s.Runs (execSpdmKeyExchange t ownerKey s) := by
  unfold execSpdmKeyExchange
  refine State.on_runs fun init => ?_
  have h := Dev.Leads.refl init
  repeat' first
    | with_reducible assumption
    | intro _
    | with_reducible apply Dev.openSession_leads
    | (simp [*]; done)
    | split

theorem execSpdmFinish_runs (t : Path) (session : Nat) (signatureOk : Bool) (s : State) : s.Runs (execSpdmFinish t session signatureOk s) := by
  unfold execSpdmFinish
  refine State.on_runs fun init => ?_
  have h := Dev.Leads.refl init
  repeat' first
    | with_reducible assumption
    | (intro v; refine (fun hv : init.Leads v => ?_) ?_; rotate_left; subst v)
    | intro _
    | (extract_lets -lift +onlyGivenNames w; revert w)
    | with_reducible apply Dev.setSec_leads
    | with_reducible apply Dev.spdmReply_leads
    | (simp [*]; done)
    | split

theorem execSpdmEndSession_runs (t : Path) (session : Nat) (s : State) : s.Runs (execSpdmEndSession t session s) := by
  unfold execSpdmEndSession
  refine State.on_runs fun init => ?_
  have h := Dev.Leads.refl init
  repeat' first
    | with_reducible assumption
    | intro _
    | with_reducible apply Dev.endSession_leads
    | with_reducible apply Dev.spdmReply_leads
    | (simp [*]; done)
    | split

theorem execSpdmUnsupported_runs (t : Path) (s : State) : s.Runs (execSpdmUnsupported t s) := by
  unfold execSpdmUnsupported
  refine State.on_runs fun init => ?_
  have h := Dev.Leads.refl init
  repeat' first
    | with_reducible assumption
    | intro _
    | with_reducible apply Dev.spdmAnswer_leads
    | (simp [*]; done)

theorem execIdeKmQuery_runs (session die port : Nat) (s : State) : s.Runs (execIdeKmQuery session die port s) := by
  unfold execIdeKmQuery
  refine State.on_runs fun init => ?_
  have h := Dev.Leads.refl init
  repeat' first
    | with_reducible assumption
    | intro _
    | with_reducible apply Dev.spdmReply_leads
    | (simp [*]; done)
    | split

theorem execIdeKmKeyProg_runs (session die port stream set sub key : Nat) (s : State) : s.Runs (execIdeKmKeyProg session die port stream set sub key s) := by
  unfold execIdeKmKeyProg
  refine State.on_runs fun init => ?_
  have h := Dev.Leads.refl init
  repeat' first
    | with_reducible assumption
    | (intro v; refine (fun hv : init.Leads v => ?_) ?_; rotate_left; subst v)
    | (intro v; refine (fun hv : init.Leads v.1 => ?_) ?_; rotate_left; subst v)
    | (intro v; refine (fun hv : init.Leads v.2 => ?_) ?_; rotate_left; subst v)
    | intro _
    | (extract_lets -lift +onlyGivenNames w; revert w)
    | dsimp -zeta -zetaDelta only
    | with_reducible apply Dev.raise_leads
    | with_reducible apply Dev.writeKey_leads
    | with_reducible apply Dev.spdmReply_leads
    | (simp [*]; done)
    | (split <;> try (rename_i e; try obtain rfl := congrArg Prod.fst e; try obtain rfl := congrArg Prod.snd e))

theorem execIdeKmKSetGo_runs (session die port stream set : Nat) (s : State) : s.Runs (execIdeKmKSetGo session die port stream set s) := by
  unfold execIdeKmKSetGo
  refine State.on_runs fun init => ?_
  have h := Dev.Leads.refl init
  repeat' first
    | with_reducible assumption
    | (intro v; refine (fun hv : init.Leads v => ?_) ?_; rotate_left; subst v)
    | intro _
    | (extract_lets -lift +onlyGivenNames w; revert w)
    | with_reducible apply Dev.setB_leads
    | with_reducible apply Dev.raise_leads
    | with_reducible apply Dev.setSec_leads
    | with_reducible apply Dev.spdmReply_leads
    | (simp [*]; done)
    | split

theorem execIdeKmKSetStop_runs (session die port stream : Nat) (s : State) : s.Runs (execIdeKmKSetStop session die port stream s) := by
  unfold execIdeKmKSetStop
  refine State.on_runs fun init => ?_
  have h := Dev.Leads.refl init
  repeat' first
    | with_reducible assumption
    | (intro v; refine (fun hv : init.Leads v => ?_) ?_; rotate_left; subst v)
    | intro _
    | (extract_lets -lift +onlyGivenNames w; revert w)
    | with_reducible apply Dev.raise_leads
    | with_reducible apply Dev.eraseIde_leads
    | with_reducible apply Dev.spdmReply_leads
    | (simp [*]; done)
    | split

theorem execIdeKmGetkey_runs (session die port : Nat) (s : State) : s.Runs (execIdeKmGetkey session die port s) := by
  unfold execIdeKmGetkey
  refine State.on_runs fun init => ?_
  have h := Dev.Leads.refl init
  repeat' first
    | with_reducible assumption
    | intro _
    | with_reducible apply Dev.spdmReply_leads
    | (simp [*]; done)
    | split

theorem execCipherJobStart_runs (die slot group : Nat) (stream : Option Nat) (unwrapOk : Bool) (s : State) : s.Runs (execCipherJobStart die slot group stream unwrapOk s) := by
  unfold execCipherJobStart
  refine State.on_runs fun init => ?_
  have h := Dev.Leads.refl init
  repeat' first
    | with_reducible assumption
    | (intro v; refine (fun hv : init.Leads v => ?_) ?_; rotate_left; subst v)
    | intro _
    | (extract_lets -lift +onlyGivenNames w; revert w)
    | with_reducible apply Dev.contextFails_leads
    | with_reducible apply Dev.startJob_leads
    | (simp [*]; done)
    | split

theorem execCipherJobEnd_runs (job : Nat) (s : State) : s.Runs (execCipherJobEnd job s) := by
  unfold execCipherJobEnd
  refine State.on_runs fun init => ?_
  have h := Dev.Leads.refl init
  repeat' first
    | with_reducible assumption
    | intro _
    | with_reducible apply Dev.endJob_leads
    | (simp [*]; done)

theorem execDrbgHealthFail_runs (test : Nat) (s : State) : s.Runs (execDrbgHealthFail test s) := by
  unfold execDrbgHealthFail
  refine State.on_runs fun init => ?_
  have h := Dev.Leads.refl init
  repeat' first
    | with_reducible assumption
    | intro _
    | with_reducible apply Dev.setB_leads
    | with_reducible apply Dev.incF_leads
    | with_reducible apply Dev.raiseB_leads
    | (simp [*]; done)

theorem execDrbgHealthPass_runs (s : State) : s.Runs (execDrbgHealthPass s) := by
  unfold execDrbgHealthPass
  refine State.on_runs fun init => ?_
  have h := Dev.Leads.refl init
  repeat' first
    | with_reducible assumption
    | intro _
    | with_reducible apply Dev.setB_leads
    | (simp [*]; done)

theorem execTamperNAlarm_runs (ns : Nat) (st : Straps) (s : State) : s.Runs (execTamperNAlarm ns st s) := by
  unfold execTamperNAlarm
  refine State.on_runs fun init => ?_
  have h := Dev.Leads.refl init
  repeat' first
    | with_reducible assumption
    | intro _
    | with_reducible apply Dev.alarm_leads
    | (simp [*]; done)
    | split

theorem execShieldMeshAlarm_runs (st : Straps) (s : State) : s.Runs (execShieldMeshAlarm st s) := by
  unfold execShieldMeshAlarm
  refine State.on_runs fun init => ?_
  have h := Dev.Leads.refl init
  repeat' first
    | with_reducible assumption
    | intro _
    | with_reducible apply Dev.alarm_leads
    | (simp [*]; done)

theorem execVoltageAlarm_runs (rail mv ns : Nat) (st : Straps) (s : State) : s.Runs (execVoltageAlarm rail mv ns st s) := by
  unfold execVoltageAlarm
  refine State.on_runs fun init => ?_
  have h := Dev.Leads.refl init
  repeat' first
    | with_reducible assumption
    | (intro v; refine (fun hv : init.Leads v => ?_) ?_; rotate_left; subst v)
    | intro _
    | (extract_lets -lift +onlyGivenNames w; revert w)
    | with_reducible apply Dev.alarm_leads
    | (simp [*]; done)
    | split

theorem execClockAlarm_runs (offPct cycles : Nat) (st : Straps) (s : State) : s.Runs (execClockAlarm offPct cycles st s) := by
  unfold execClockAlarm
  refine State.on_runs fun init => ?_
  have h := Dev.Leads.refl init
  repeat' first
    | with_reducible assumption
    | intro _
    | with_reducible apply Dev.alarm_leads
    | (simp [*]; done)
    | split

theorem execTemperatureAlarm_runs (tj : Int) (st : Straps) (s : State) : s.Runs (execTemperatureAlarm tj st s) := by
  unfold execTemperatureAlarm
  refine State.on_runs fun init => ?_
  have h := Dev.Leads.refl init
  repeat' first
    | with_reducible assumption
    | intro _
    | with_reducible apply Dev.alarm_leads
    | (simp [*]; done)
    | split

theorem execKeyReload_runs (s : State) : s.Runs (execKeyReload s) := by
  unfold execKeyReload
  refine State.on_runs fun init => ?_
  have h := Dev.Leads.refl init
  repeat' first
    | with_reducible assumption
    | (intro v; refine (fun hv : init.Leads v => ?_) ?_; rotate_left; subst v)
    | intro _
    | (extract_lets -lift +onlyGivenNames w; revert w)
    | with_reducible apply Dev.setSec_leads
    | with_reducible apply Dev.loadSlot_leads
    | with_reducible apply Dev.qPump_leads
    | (simp [*]; done)
    | split

theorem execReserveRetry_runs (ok : Bool) (status : Nat) (s : State) : s.Runs (execReserveRetry ok status s) := by
  unfold execReserveRetry
  refine State.on_runs fun init => ?_
  have h := Dev.Leads.refl init
  repeat' first
    | with_reducible assumption
    | intro _
    | with_reducible apply Dev.stageReserve_leads
    | (simp [*]; done)
    | split

theorem execOwnerKeyBurn_runs (key : Nat) (s : State) : s.Runs (execOwnerKeyBurn key s) := by
  unfold execOwnerKeyBurn
  refine State.on_runs fun init => ?_
  have h := Dev.Leads.refl init
  repeat' first
    | with_reducible assumption
    | (intro v; refine (fun hv : init.Leads v => ?_) ?_; rotate_left; subst v)
    | intro _
    | (extract_lets -lift +onlyGivenNames w; revert w)
    | with_reducible apply Dev.setB_leads
    | with_reducible apply Dev.tmpPut_leads
    | with_reducible apply Dev.tmpEraseSector_leads
    | with_reducible apply Dev.setSec_leads
    | with_reducible apply Dev.setPkg_leads
    | (simp [*]; done)
    | split

end Sys2Proof.Machine
end

