-- ==== Sys2Proof/Laws/LeadsService.lean ====
section
/-! SUPPORT. What the service and reset commands never break (Leads), one lemma a function; each command runs (Runs), one lemma a command. -/

namespace Sys2Proof.Machine

open Sys2Proof

set_option linter.tactic.unusedName false
set_option linter.unusedTactic false
set_option linter.unreachableTactic false
set_option linter.unusedSimpArgs false
set_option linter.unusedVariables false

@[simp] theorem Dev.dropDieReqs_leads {init d : Dev} (die : Nat) (h : init.Leads d) : init.Leads (Dev.dropDieReqs d die) := by
  unfold Dev.dropDieReqs
  repeat' first
    | with_reducible assumption
    | (intro v; refine (fun hv : init.Leads v => ?_) ?_; rotate_left; subst v)
    | (intro v; refine (fun hv : init.Leads v.1 => ?_) ?_; rotate_left; subst v)
    | (intro v; refine (fun hv : init.Leads v.2 => ?_) ?_; rotate_left; subst v)
    | intro _
    | (extract_lets -lift +onlyGivenNames w; revert w)
    | dsimp -zeta -zetaDelta only
    | with_reducible apply Dev.forEach_leads
    | with_reducible apply Dev.endReq_leads
    | with_reducible apply Dev.hold_leads
    | with_reducible apply Dev.finishRead_leads
    | with_reducible apply Dev.fetch_leads
    | (simp [*]; done)
    | (split <;> try (rename_i e; try obtain rfl := congrArg Prod.fst e; try obtain rfl := congrArg Prod.snd e))

@[simp] theorem Dev.dropDieSlabs_leads {init d : Dev} (die : Nat) (h : init.Leads d) : init.Leads (Dev.dropDieSlabs d die) := by
  unfold Dev.dropDieSlabs
  repeat' first
    | with_reducible assumption
    | (intro v; refine (fun hv : init.Leads v => ?_) ?_; rotate_left; subst v)
    | (intro v; refine (fun hv : init.Leads v.1 => ?_) ?_; rotate_left; subst v)
    | (intro v; refine (fun hv : init.Leads v.2 => ?_) ?_; rotate_left; subst v)
    | intro _
    | (extract_lets -lift +onlyGivenNames w; revert w)
    | dsimp -zeta -zetaDelta only
    | with_reducible apply Dev.setCru_leads
    | with_reducible apply Dev.recover_leads
    | (simp [*]; done)
    | (split <;> try (rename_i e; try obtain rfl := congrArg Prod.fst e; try obtain rfl := congrArg Prod.snd e))

@[simp] theorem Dev.dropDiePorts_leads {init d : Dev} (die : Nat) (h : init.Leads d) : init.Leads (Dev.dropDiePorts d die) := by
  unfold Dev.dropDiePorts
  repeat' first
    | with_reducible assumption
    | (intro v; refine (fun hv : init.Leads v => ?_) ?_; rotate_left; subst v)
    | (intro v; refine (fun hv : init.Leads v.1 => ?_) ?_; rotate_left; subst v)
    | (intro v; refine (fun hv : init.Leads v.2 => ?_) ?_; rotate_left; subst v)
    | intro _
    | (extract_lets -lift +onlyGivenNames w; revert w)
    | dsimp -zeta -zetaDelta only
    | with_reducible apply Dev.forEach_leads
    | with_reducible apply Dev.setB_leads
    | with_reducible apply Dev.linkOff_leads
    | with_reducible apply Dev.dropPortMessages_leads
    | with_reducible apply Dev.linkDown_leads
    | with_reducible apply Dev.linkLost_leads
    | with_reducible apply Dev.ctrlFail_leads
    | (simp [*]; done)
    | (split <;> try (rename_i e; try obtain rfl := congrArg Prod.fst e; try obtain rfl := congrArg Prod.snd e))

@[simp] theorem Dev.dieInQuench_leads {init d : Dev} (die : Nat) (h : init.Leads d) : init.Leads (Dev.dieInQuench d die) := by
  unfold Dev.dieInQuench
  repeat' first
    | with_reducible assumption
    | (intro v; refine (fun hv : init.Leads v => ?_) ?_; rotate_left; subst v)
    | (intro v; refine (fun hv : init.Leads v.1 => ?_) ?_; rotate_left; subst v)
    | (intro v; refine (fun hv : init.Leads v.2 => ?_) ?_; rotate_left; subst v)
    | intro _
    | (extract_lets -lift +onlyGivenNames w; revert w)
    | dsimp -zeta -zetaDelta only
    | with_reducible apply Dev.forEach_leads
    | with_reducible apply Dev.modQuench_leads
    | with_reducible apply Dev.qPump_leads
    | with_reducible apply Dev.rewriteUnit_leads
    | (simp [*]; done)
    | (split <;> try (rename_i e; try obtain rfl := congrArg Prod.fst e; try obtain rfl := congrArg Prod.snd e))

@[simp] theorem Dev.dieOut_leads {init d : Dev} (die : Nat) (cause : Nat) (retire : Bool) (h : init.Leads d) : init.Leads (Dev.dieOut d die cause retire) := by
  unfold Dev.dieOut
  repeat' first
    | with_reducible assumption
    | (intro v; refine (fun hv : init.Leads v => ?_) ?_; rotate_left; subst v)
    | (intro v; refine (fun hv : init.Leads v.1 => ?_) ?_; rotate_left; subst v)
    | (intro v; refine (fun hv : init.Leads v.2 => ?_) ?_; rotate_left; subst v)
    | intro _
    | (extract_lets -lift +onlyGivenNames w; revert w)
    | dsimp -zeta -zetaDelta only
    | with_reducible apply Dev.setF_leads
    | with_reducible apply Dev.setB_leads
    | with_reducible apply Dev.raise_leads
    | with_reducible apply Dev.setRht_leads
    | with_reducible apply Dev.setHeat_leads
    | with_reducible apply Dev.slagAdd_leads
    | with_reducible apply Dev.dropDieReqs_leads
    | with_reducible apply Dev.dropDieSlabs_leads
    | with_reducible apply Dev.dropDiePorts_leads
    | with_reducible apply Dev.dieInQuench_leads
    | (simp [*]; done)
    | (split <;> try (rename_i e; try obtain rfl := congrArg Prod.fst e; try obtain rfl := congrArg Prod.snd e))

@[simp] theorem Dev.spareTakes_leads {init d : Dev} (die : Nat) (slice : Nat) (h : init.Leads d) : init.Leads (Dev.spareTakes d die slice) := by
  unfold Dev.spareTakes
  repeat' first
    | with_reducible assumption
    | (intro v; refine (fun hv : init.Leads v => ?_) ?_; rotate_left; subst v)
    | (intro v; refine (fun hv : init.Leads v.1 => ?_) ?_; rotate_left; subst v)
    | (intro v; refine (fun hv : init.Leads v.2 => ?_) ?_; rotate_left; subst v)
    | intro _
    | (extract_lets -lift +onlyGivenNames w; revert w)
    | dsimp -zeta -zetaDelta only
    | with_reducible apply Dev.setF_leads
    | with_reducible apply Dev.setB_leads
    | (simp [*]; done)
    | (split <;> try (rename_i e; try obtain rfl := congrArg Prod.fst e; try obtain rfl := congrArg Prod.snd e))

@[simp] theorem Dev.sliceFails_leads {init d : Dev} (die : Nat) (slice : Nat) (cause : Nat) (h : init.Leads d) : init.Leads (Dev.sliceFails d die slice cause) := by
  unfold Dev.sliceFails
  repeat' first
    | with_reducible assumption
    | (intro v; refine (fun hv : init.Leads v => ?_) ?_; rotate_left; subst v)
    | (intro v; refine (fun hv : init.Leads v.1 => ?_) ?_; rotate_left; subst v)
    | (intro v; refine (fun hv : init.Leads v.2 => ?_) ?_; rotate_left; subst v)
    | intro _
    | (extract_lets -lift +onlyGivenNames w; revert w)
    | dsimp -zeta -zetaDelta only
    | with_reducible apply Dev.raise_leads
    | with_reducible apply Dev.slagAdd_leads
    | with_reducible apply Dev.exhaust_leads
    | with_reducible apply Dev.dieOut_leads
    | with_reducible apply Dev.spareTakes_leads
    | (simp [*]; done)
    | (split <;> try (rename_i e; try obtain rfl := congrArg Prod.fst e; try obtain rfl := congrArg Prod.snd e))

@[simp] theorem Dev.quadMoves_leads {init d : Dev} (die : Nat) (quad : Nat) (cause : Nat) (h : init.Leads d) : init.Leads (Dev.quadMoves d die quad cause) := by
  unfold Dev.quadMoves
  repeat' first
    | with_reducible assumption
    | (intro v; refine (fun hv : init.Leads v => ?_) ?_; rotate_left; subst v)
    | (intro v; refine (fun hv : init.Leads v.1 => ?_) ?_; rotate_left; subst v)
    | (intro v; refine (fun hv : init.Leads v.2 => ?_) ?_; rotate_left; subst v)
    | intro _
    | (extract_lets -lift +onlyGivenNames w; revert w)
    | dsimp -zeta -zetaDelta only
    | with_reducible apply Dev.setF_leads
    | with_reducible apply Dev.forEach_leads
    | with_reducible apply Dev.setB_leads
    | with_reducible apply Dev.raise_leads
    | with_reducible apply Dev.linkLost_leads
    | with_reducible apply Dev.setBack_leads
    | with_reducible apply Dev.slagAdd_leads
    | with_reducible apply Dev.exhaust_leads
    | (simp [*]; done)
    | (split <;> try (rename_i e; try obtain rfl := congrArg Prod.fst e; try obtain rfl := congrArg Prod.snd e))

@[simp] theorem Dev.freeSmithBufs_leads {init d : Dev} (die : Nat) (h : init.Leads d) : init.Leads (Dev.freeSmithBufs d die) := by
  unfold Dev.freeSmithBufs
  repeat' first
    | with_reducible assumption
    | (intro v; refine (fun hv : init.Leads v => ?_) ?_; rotate_left; subst v)
    | (intro v; refine (fun hv : init.Leads v.1 => ?_) ?_; rotate_left; subst v)
    | (intro v; refine (fun hv : init.Leads v.2 => ?_) ?_; rotate_left; subst v)
    | intro _
    | (extract_lets -lift +onlyGivenNames w; revert w)
    | dsimp -zeta -zetaDelta only
    | with_reducible apply Dev.forEach_leads
    | with_reducible apply Dev.setBuf_leads
    | with_reducible apply Dev.dropBuf_leads
    | (simp [*]; done)
    | (split <;> try (rename_i e; try obtain rfl := congrArg Prod.fst e; try obtain rfl := congrArg Prod.snd e))

@[simp] theorem Dev.smithFails_leads {init d : Dev} (die : Nat) (cause : Nat) (h : init.Leads d) : init.Leads (Dev.smithFails d die cause) := by
  unfold Dev.smithFails
  repeat' first
    | with_reducible assumption
    | (intro v; refine (fun hv : init.Leads v => ?_) ?_; rotate_left; subst v)
    | (intro v; refine (fun hv : init.Leads v.1 => ?_) ?_; rotate_left; subst v)
    | (intro v; refine (fun hv : init.Leads v.2 => ?_) ?_; rotate_left; subst v)
    | intro _
    | (extract_lets -lift +onlyGivenNames w; revert w)
    | dsimp -zeta -zetaDelta only
    | with_reducible apply Dev.setF_leads
    | with_reducible apply Dev.forEach_leads
    | with_reducible apply Dev.setB_leads
    | with_reducible apply Dev.raise_leads
    | with_reducible apply Dev.modChan_leads
    | with_reducible apply Dev.abortStep_leads
    | with_reducible apply Dev.slagAdd_leads
    | with_reducible apply Dev.exhaust_leads
    | with_reducible apply Dev.freeSmithBufs_leads
    | (simp [*]; done)
    | (split <;> try (rename_i e; try obtain rfl := congrArg Prod.fst e; try obtain rfl := congrArg Prod.snd e))

@[simp] theorem Dev.rankSwitch_leads {init d : Dev} (die : Nat) (c : Nat) (rank : Nat) (cause : Nat) (ms : Nat) (h : init.Leads d) : init.Leads (Dev.rankSwitch d die c rank cause ms) := by
  unfold Dev.rankSwitch
  repeat' first
    | with_reducible assumption
    | (intro v; refine (fun hv : init.Leads v => ?_) ?_; rotate_left; subst v)
    | (intro v; refine (fun hv : init.Leads v.1 => ?_) ?_; rotate_left; subst v)
    | (intro v; refine (fun hv : init.Leads v.2 => ?_) ?_; rotate_left; subst v)
    | intro _
    | (extract_lets -lift +onlyGivenNames w; revert w)
    | dsimp -zeta -zetaDelta only
    | with_reducible apply Dev.setB_leads
    | with_reducible apply Dev.raise_leads
    | with_reducible apply Dev.modChan_leads
    | with_reducible apply Dev.slagAdd_leads
    | with_reducible apply Dev.exhaust_leads
    | (simp [*]; done)
    | (split <;> try (rename_i e; try obtain rfl := congrArg Prod.fst e; try obtain rfl := congrArg Prod.snd e))

@[simp] theorem Dev.copyDone_leads {init d : Dev} (die : Nat) (c : Nat) (h : init.Leads d) : init.Leads (Dev.copyDone d die c) := by
  unfold Dev.copyDone
  repeat' first
    | with_reducible assumption
    | (intro v; refine (fun hv : init.Leads v => ?_) ?_; rotate_left; subst v)
    | (intro v; refine (fun hv : init.Leads v.1 => ?_) ?_; rotate_left; subst v)
    | (intro v; refine (fun hv : init.Leads v.2 => ?_) ?_; rotate_left; subst v)
    | intro _
    | (extract_lets -lift +onlyGivenNames w; revert w)
    | dsimp -zeta -zetaDelta only
    | with_reducible apply Dev.setF_leads
    | with_reducible apply Dev.rankSwitch_leads
    | (simp [*]; done)
    | (split <;> try (rename_i e; try obtain rfl := congrArg Prod.fst e; try obtain rfl := congrArg Prod.snd e))

@[simp] theorem Dev.svcCmd_leads {init d : Dev} (die : Nat) (op : Nat) (target : Nat) (act : Dev → Dev × Status) (h : init.Leads d) (hact : ∀ x0, init.Leads x0 → init.Leads (act x0).1) : init.Leads (Dev.svcCmd d die op target act) := by
  unfold Dev.svcCmd
  repeat' first
    | with_reducible assumption
    | (intro v; refine (fun hv : init.Leads v => ?_) ?_; rotate_left; subst v)
    | (intro v; refine (fun hv : init.Leads v.1 => ?_) ?_; rotate_left; subst v)
    | (intro v; refine (fun hv : init.Leads v.2 => ?_) ?_; rotate_left; subst v)
    | intro _
    | (extract_lets -lift +onlyGivenNames w; revert w)
    | dsimp -zeta -zetaDelta only
    | with_reducible apply hact
    | with_reducible apply Dev.setF_leads
    | with_reducible apply Dev.setB_leads
    | (simp [*]; done)
    | (split <;> try (rename_i e; try obtain rfl := congrArg Prod.fst e; try obtain rfl := congrArg Prod.snd e))

@[simp] theorem Dev.vddControl_leads {init d : Dev} (die : Nat) (lowest : Nat) (island : Nat) (ack : Bool) (h : init.Leads d) : init.Leads (Dev.vddControl d die lowest island ack) := by
  unfold Dev.vddControl
  repeat' first
    | with_reducible assumption
    | (intro v; refine (fun hv : init.Leads v => ?_) ?_; rotate_left; subst v)
    | (intro v; refine (fun hv : init.Leads v.1 => ?_) ?_; rotate_left; subst v)
    | (intro v; refine (fun hv : init.Leads v.2 => ?_) ?_; rotate_left; subst v)
    | intro _
    | (extract_lets -lift +onlyGivenNames w; revert w)
    | dsimp -zeta -zetaDelta only
    | with_reducible apply Dev.setF_leads
    | with_reducible apply Dev.sendVdd_leads
    | with_reducible apply Dev.setSvc_leads
    | (simp [*]; done)
    | (split <;> try (rename_i e; try obtain rfl := congrArg Prod.fst e; try obtain rfl := congrArg Prod.snd e))

@[simp] theorem Dev.showLife_leads {init d : Dev} (h : init.Leads d) : init.Leads (Dev.showLife d) := by
  unfold Dev.showLife
  repeat' first
    | with_reducible assumption
    | (intro v; refine (fun hv : init.Leads v => ?_) ?_; rotate_left; subst v)
    | (intro v; refine (fun hv : init.Leads v.1 => ?_) ?_; rotate_left; subst v)
    | (intro v; refine (fun hv : init.Leads v.2 => ?_) ?_; rotate_left; subst v)
    | intro _
    | (extract_lets -lift +onlyGivenNames w; revert w)
    | dsimp -zeta -zetaDelta only
    | with_reducible apply Dev.setF_leads
    | with_reducible apply Dev.setB_leads
    | with_reducible apply Dev.raiseR_leads
    | with_reducible apply Dev.setSvc_leads
    | (simp [*]; done)
    | (split <;> try (rename_i e; try obtain rfl := congrArg Prod.fst e; try obtain rfl := congrArg Prod.snd e))

@[simp] theorem Dev.lifeTick_leads {init d : Dev} (die : Nat) (tj : Int) (h : init.Leads d) : init.Leads (Dev.lifeTick d die tj) := by
  unfold Dev.lifeTick
  repeat' first
    | with_reducible assumption
    | (intro v; refine (fun hv : init.Leads v => ?_) ?_; rotate_left; subst v)
    | (intro v; refine (fun hv : init.Leads v.1 => ?_) ?_; rotate_left; subst v)
    | (intro v; refine (fun hv : init.Leads v.2 => ?_) ?_; rotate_left; subst v)
    | intro _
    | (extract_lets -lift +onlyGivenNames w; revert w)
    | dsimp -zeta -zetaDelta only
    | with_reducible apply Dev.setF_leads
    | with_reducible apply Dev.setSvc_leads
    | with_reducible apply Dev.showLife_leads
    | (simp [*]; done)
    | (split <;> try (rename_i e; try obtain rfl := congrArg Prod.fst e; try obtain rfl := congrArg Prod.snd e))

theorem execD2dLinkFault_runs (die link : Nat) (s : State) : s.Runs (execD2dLinkFault die link s) := by
  unfold execD2dLinkFault
  refine State.on_runs fun init => ?_
  have h := Dev.Leads.refl init
  repeat' first
    | with_reducible assumption
    | intro _
    | (simp [*]; done)
    | split

theorem execD2dRetrainDone_runs (die link us : Nat) (ok : Bool) (s : State) : s.Runs (execD2dRetrainDone die link us ok s) := by
  unfold execD2dRetrainDone
  refine State.on_runs fun init => ?_
  have h := Dev.Leads.refl init
  repeat' first
    | with_reducible assumption
    | (intro v; refine (fun hv : init.Leads v => ?_) ?_; rotate_left; subst v)
    | intro _
    | (extract_lets -lift +onlyGivenNames w; revert w)
    | with_reducible apply Dev.incF_leads
    | with_reducible apply Dev.raise_leads
    | with_reducible apply Dev.dieOut_leads
    | (simp [*]; done)
    | split

theorem execSvcSliceSpare_runs (die slice : Nat) (s : State) : s.Runs (execSvcSliceSpare die slice s) := by
  unfold execSvcSliceSpare
  refine State.on_runs fun init => ?_
  have h := Dev.Leads.refl init
  repeat' first
    | with_reducible assumption
    | intro _
    | with_reducible apply Dev.sliceFails_leads
    | with_reducible apply Dev.svcCmd_leads
    | (simp [*]; done)
    | split

theorem execSvcQuadSpare_runs (die quad : Nat) (s : State) : s.Runs (execSvcQuadSpare die quad s) := by
  unfold execSvcQuadSpare
  refine State.on_runs fun init => ?_
  have h := Dev.Leads.refl init
  repeat' first
    | with_reducible assumption
    | intro _
    | with_reducible apply Dev.quadMoves_leads
    | with_reducible apply Dev.svcCmd_leads
    | (simp [*]; done)
    | split

theorem execSvcRankSpare_runs (die target : Nat) (s : State) : s.Runs (execSvcRankSpare die target s) := by
  unfold execSvcRankSpare
  refine State.on_runs fun init => ?_
  have h := Dev.Leads.refl init
  repeat' first
    | with_reducible assumption
    | (intro v; refine (fun hv : init.Leads v => ?_) ?_; rotate_left; subst v)
    | intro _
    | (extract_lets -lift +onlyGivenNames w; revert w)
    | with_reducible apply Dev.startCopy_leads
    | with_reducible apply Dev.svcCmd_leads
    | (simp [*]; done)
    | split

theorem execSvcSmithSwitch_runs (die : Nat) (s : State) : s.Runs (execSvcSmithSwitch die s) := by
  unfold execSvcSmithSwitch
  refine State.on_runs fun init => ?_
  have h := Dev.Leads.refl init
  repeat' first
    | with_reducible assumption
    | intro _
    | with_reducible apply Dev.smithFails_leads
    | with_reducible apply Dev.svcCmd_leads
    | (simp [*]; done)
    | split

theorem execSvcCmdUnsupported_runs (die op target : Nat) (s : State) : s.Runs (execSvcCmdUnsupported die op target s) := by
  unfold execSvcCmdUnsupported
  refine State.on_runs fun init => ?_
  have h := Dev.Leads.refl init
  repeat' first
    | with_reducible assumption
    | intro _
    | with_reducible apply Dev.svcCmd_leads
    | (simp [*]; done)
    | split

theorem execSliceParityError_runs (die slice : Nat) (s : State) : s.Runs (execSliceParityError die slice s) := by
  unfold execSliceParityError
  refine State.on_runs fun init => ?_
  have h := Dev.Leads.refl init
  repeat' first
    | with_reducible assumption
    | intro _
    | with_reducible apply Dev.sliceFails_leads
    | (simp [*]; done)

theorem execSliceProgressTimeout_runs (die slice : Nat) (s : State) : s.Runs (execSliceProgressTimeout die slice s) := by
  unfold execSliceProgressTimeout
  refine State.on_runs fun init => ?_
  have h := Dev.Leads.refl init
  repeat' first
    | with_reducible assumption
    | intro _
    | with_reducible apply Dev.sliceFails_leads
    | (simp [*]; done)

theorem execQuadTrainFailure_runs (die quad : Nat) (s : State) : s.Runs (execQuadTrainFailure die quad s) := by
  unfold execQuadTrainFailure
  refine State.on_runs fun init => ?_
  have h := Dev.Leads.refl init
  repeat' first
    | with_reducible assumption
    | intro _
    | with_reducible apply Dev.quadMoves_leads
    | (simp [*]; done)
    | split

theorem execSmithWatchdog_runs (die : Nat) (s : State) : s.Runs (execSmithWatchdog die s) := by
  unfold execSmithWatchdog
  refine State.on_runs fun init => ?_
  have h := Dev.Leads.refl init
  repeat' first
    | with_reducible assumption
    | intro _
    | with_reducible apply Dev.smithFails_leads
    | (simp [*]; done)

theorem execSmithMemoryUe_runs (die : Nat) (s : State) : s.Runs (execSmithMemoryUe die s) := by
  unfold execSmithMemoryUe
  refine State.on_runs fun init => ?_
  have h := Dev.Leads.refl init
  repeat' first
    | with_reducible assumption
    | intro _
    | with_reducible apply Dev.smithFails_leads
    | (simp [*]; done)

theorem execRankCopyDone_runs (die chan : Nat) (s : State) : s.Runs (execRankCopyDone die chan s) := by
  unfold execRankCopyDone
  refine State.on_runs fun init => ?_
  have h := Dev.Leads.refl init
  repeat' first
    | with_reducible assumption
    | intro _
    | with_reducible apply Dev.copyDone_leads
    | (simp [*]; done)

theorem execVddControl_runs (die lowest island : Nat) (ack : Bool) (s : State) : s.Runs (execVddControl die lowest island ack s) := by
  unfold execVddControl
  refine State.on_runs fun init => ?_
  have h := Dev.Leads.refl init
  repeat' first
    | with_reducible assumption
    | intro _
    | with_reducible apply Dev.vddControl_leads
    | (simp [*]; done)

theorem execLifeTick_runs (die : Nat) (tj : Int) (s : State) : s.Runs (execLifeTick die tj s) := by
  unfold execLifeTick
  refine State.on_runs fun init => ?_
  have h := Dev.Leads.refl init
  repeat' first
    | with_reducible assumption
    | intro _
    | with_reducible apply Dev.lifeTick_leads
    | (simp [*]; done)

theorem execLifeRecord_runs (s : State) : s.Runs (execLifeRecord s) := by
  unfold execLifeRecord
  refine State.on_runs fun init => ?_
  have h := Dev.Leads.refl init
  repeat' first
    | with_reducible assumption
    | intro _
    | with_reducible apply Dev.forEach_leads
    | with_reducible apply Dev.counterRecord_leads
    | (simp [*]; done)

theorem execResetNAssert_runs (lowNs : Nat) (st : Straps) (s : State) : s.Runs (execResetNAssert lowNs st s) := by
  unfold execResetNAssert
  refine State.on_runs fun init => ?_
  have h := Dev.Leads.refl init
  repeat' first
    | with_reducible assumption
    | intro _
    | with_reducible apply Dev.incF_leads
    | with_reducible apply Dev.setRst_leads
    | with_reducible apply Dev.decideReset_leads
    | (simp [*]; done)
    | split

theorem execResetNRelease_runs (st : Straps) (s : State) : s.Runs (execResetNRelease st s) := by
  unfold execResetNRelease
  refine State.on_runs fun init => ?_
  have h := Dev.Leads.refl init
  repeat' first
    | with_reducible assumption
    | (intro v; refine (fun hv : init.Leads v => ?_) ?_; rotate_left; subst v)
    | intro _
    | (extract_lets -lift +onlyGivenNames w; revert w)
    | with_reducible apply Dev.setRst_leads
    | with_reducible apply Dev.startUp_leads
    | (simp [*]; done)
    | split

theorem execNqWindowExpire_runs (s : State) : s.Runs (execNqWindowExpire s) := by
  unfold execNqWindowExpire
  refine State.on_runs fun init => ?_
  have h := Dev.Leads.refl init
  repeat' first
    | with_reducible assumption
    | intro _
    | with_reducible apply Dev.raiseB_leads
    | with_reducible apply Dev.until_leads
    | with_reducible apply Dev.endNqWindow_leads
    | (simp [*]; done)
    | split

@[simp] theorem Dev.resetProceeds_leads {init d : Dev} (st : Straps) (h : init.Leads d) : init.Leads (Dev.resetProceeds d st) := by
  unfold Dev.resetProceeds
  repeat' first
    | with_reducible assumption
    | (intro v; refine (fun hv : init.Leads v => ?_) ?_; rotate_left; subst v)
    | (intro v; refine (fun hv : init.Leads v.1 => ?_) ?_; rotate_left; subst v)
    | (intro v; refine (fun hv : init.Leads v.2 => ?_) ?_; rotate_left; subst v)
    | intro _
    | (extract_lets -lift +onlyGivenNames w; revert w)
    | dsimp -zeta -zetaDelta only
    | with_reducible apply Dev.takeReset_leads
    | with_reducible apply Dev.endWait_leads
    | with_reducible apply Dev.advanceReset_leads
    | (simp [*]; done)
    | (split <;> try (rename_i e; try obtain rfl := congrArg Prod.fst e; try obtain rfl := congrArg Prod.snd e))

theorem execResetProceed_runs (st : Straps) (s : State) : s.Runs (execResetProceed st s) := by
  unfold execResetProceed
  refine State.on_runs fun init => ?_
  have h := Dev.Leads.refl init
  repeat' first
    | with_reducible assumption
    | intro _
    | with_reducible apply Dev.resetProceeds_leads
    | (simp [*]; done)

@[simp] theorem Dev.quenchEnds_leads {init d : Dev} (q : Quench) (supplies : Bool) (st : Straps) (h : init.Leads d) : init.Leads (Dev.quenchEnds d q supplies st) := by
  unfold Dev.quenchEnds
  repeat' first
    | with_reducible assumption
    | (intro v; refine (fun hv : init.Leads v => ?_) ?_; rotate_left; subst v)
    | (intro v; refine (fun hv : init.Leads v.1 => ?_) ?_; rotate_left; subst v)
    | (intro v; refine (fun hv : init.Leads v.2 => ?_) ?_; rotate_left; subst v)
    | intro _
    | (extract_lets -lift +onlyGivenNames w; revert w)
    | dsimp -zeta -zetaDelta only
    | with_reducible apply Dev.setPin_leads
    | with_reducible apply Dev.setRst_leads
    | with_reducible apply Dev.endWait_leads
    | with_reducible apply Dev.advanceReset_leads
    | with_reducible apply Dev.powerDown_leads
    | (simp [*]; done)
    | (split <;> try (rename_i e; try obtain rfl := congrArg Prod.fst e; try obtain rfl := congrArg Prod.snd e))

theorem execQuenchEnd_runs (mainOk holdOk : Bool) (st : Straps) (s : State) : s.Runs (execQuenchEnd mainOk holdOk st s) := by
  unfold execQuenchEnd
  refine State.on_runs fun init => ?_
  have h := Dev.Leads.refl init
  repeat' first
    | with_reducible assumption
    | intro _
    | with_reducible apply Dev.quenchEnds_leads
    | (simp [*]; done)
    | split

@[simp] theorem Dev.aonFalls_leads {init d : Dev} (group : Nat) (h : init.Leads d) : init.Leads (Dev.aonFalls d group) := by
  unfold Dev.aonFalls
  repeat' first
    | with_reducible assumption
    | (intro v; refine (fun hv : init.Leads v => ?_) ?_; rotate_left; subst v)
    | (intro v; refine (fun hv : init.Leads v.1 => ?_) ?_; rotate_left; subst v)
    | (intro v; refine (fun hv : init.Leads v.2 => ?_) ?_; rotate_left; subst v)
    | intro _
    | (extract_lets -lift +onlyGivenNames w; revert w)
    | dsimp -zeta -zetaDelta only
    | with_reducible apply Dev.forEach_leads
    | with_reducible apply Dev.setRht_leads
    | with_reducible apply Dev.setRst_leads
    | with_reducible apply Dev.afterReset_leads
    | with_reducible apply Dev.diesDown_leads
    | with_reducible apply Dev.cutOff_leads
    | (simp [*]; done)
    | (split <;> try (rename_i e; try obtain rfl := congrArg Prod.fst e; try obtain rfl := congrArg Prod.snd e))

theorem execVddAonFall_runs (group : Nat) (s : State) : s.Runs (execVddAonFall group s) := by
  unfold execVddAonFall
  refine State.on_runs fun init => ?_
  have h := Dev.Leads.refl init
  repeat' first
    | with_reducible assumption
    | intro _
    | with_reducible apply Dev.aonFalls_leads
    | (simp [*]; done)
    | split

@[simp] theorem Dev.aonRises_leads {init d : Dev} (st : Straps) (h : init.Leads d) : init.Leads (Dev.aonRises d st) := by
  unfold Dev.aonRises
  repeat' first
    | with_reducible assumption
    | (intro v; refine (fun hv : init.Leads v => ?_) ?_; rotate_left; subst v)
    | (intro v; refine (fun hv : init.Leads v.1 => ?_) ?_; rotate_left; subst v)
    | (intro v; refine (fun hv : init.Leads v.2 => ?_) ?_; rotate_left; subst v)
    | intro _
    | (extract_lets -lift +onlyGivenNames w; revert w)
    | dsimp -zeta -zetaDelta only
    | with_reducible apply Dev.setF_leads
    | with_reducible apply Dev.tick_leads
    | with_reducible apply Dev.setB_leads
    | with_reducible apply Dev.setRst_leads
    | with_reducible apply Dev.startUp_leads
    | with_reducible apply Dev.loadLearned_leads
    | with_reducible apply Dev.loadCounters_leads
    | (simp [*]; done)
    | (split <;> try (rename_i e; try obtain rfl := congrArg Prod.fst e; try obtain rfl := congrArg Prod.snd e))

theorem execBellowsPor_runs (st : Straps) (s : State) : s.Runs (execBellowsPor st s) := by
  unfold execBellowsPor
  refine State.on_runs fun init => ?_
  have h := Dev.Leads.refl init
  repeat' first
    | with_reducible assumption
    | intro _
    | with_reducible apply Dev.aonFalls_leads
    | with_reducible apply Dev.aonRises_leads
    | (simp [*]; done)
    | split

theorem execRomResetRequest_runs (st : Straps) (s : State) : s.Runs (execRomResetRequest st s) := by
  unfold execRomResetRequest
  refine State.on_runs fun init => ?_
  have h := Dev.Leads.refl init
  repeat' first
    | with_reducible assumption
    | (intro v; refine (fun hv : init.Leads v => ?_) ?_; rotate_left; subst v)
    | intro _
    | (extract_lets -lift +onlyGivenNames w; revert w)
    | with_reducible apply Dev.mbVendor_leads
    | with_reducible apply Dev.setRst_leads
    | with_reducible apply Dev.advanceReset_leads
    | (simp [*]; done)
    | split

end Sys2Proof.Machine
end

