-- ==== Sys2Proof/Laws/LeadsStartup.lean ====
section
/-! SUPPORT. What the start-up never break (Leads), one lemma a function; each command runs (Runs), one lemma a command. -/

namespace Sys2Proof.Machine

open Sys2Proof

set_option linter.tactic.unusedName false
set_option linter.unusedTactic false
set_option linter.unreachableTactic false
set_option linter.unusedSimpArgs false
set_option linter.unusedVariables false

@[simp] theorem Dev.stopAt_leads {init d : Dev} (phase : Nat) (h : init.Leads d) : init.Leads (Dev.stopAt d phase) := by
  simp [Dev.stopAt, h]

@[simp] theorem Dev.firmwareStarts_leads {init d : Dev} (fallback : Option (Nat × Nat)) (h : init.Leads d) : init.Leads (Dev.firmwareStarts d fallback) := by
  have h1 : init.Leads ((d.seqStart d.commitHigh).forEach (List.range 9) fun d k => d.leafScan k) :=
    Dev.forEach_leads _ _ (Dev.seqStart_leads _ h) fun _ _ hx => Dev.leafScan_leads _ hx
  have h2 (e : Dev) (he : init.Leads e) : init.Leads (if e.f RST_STATUS.LAST_CAUSE = 0 then
      (e.raiseB .TMP_REMAP_RECOVERED [p4 (e.ringsRecords remapRings).length, p4 e.tmp.remap.length, p4 e.tmp.retired.length]).raiseB
        .RST_COLD_START [p1 (strapsByte e.rst.straps)]
    else e.raiseB .RST_RESET [p1 (e.f RST_STATUS.LAST_CAUSE), p8 e.rst.dirty]) :=
    Dev.leads_ite (Dev.raiseB_leads _ _ (Dev.raiseB_leads _ _ he)) (Dev.raiseB_leads _ _ he)
  have h3 (e : Dev) (he : init.Leads e) : init.Leads (e.forEach e.rst.deferred fun d e => d.raiseB .RST_RESET_DEFERRED [p1 e.1, p4 e.2]) :=
    Dev.forEach_leads _ _ he fun _ _ hx => Dev.raiseB_leads _ _ hx
  unfold Dev.firmwareStarts
  simp only
  split <;> (try with_reducible refine Dev.raiseB_leads _ _ ?_) <;> (with_reducible refine Dev.setRst_leads _ ?_; split)
  · exact Dev.raiseB_leads _ _ (Dev.tick_leads (h3 _ (h2 _ h1)))
  · exact h3 _ (h2 _ h1)
  · exact Dev.raiseB_leads _ _ (Dev.tick_leads (h3 _ (h2 _ h1)))
  · exact h3 _ (h2 _ h1)

@[simp] theorem Dev.romRecovers_leads {init d : Dev} (cause : Nat) (h : init.Leads d) : init.Leads (Dev.romRecovers d cause) := by
  unfold Dev.romRecovers
  repeat' first
    | with_reducible assumption
    | (intro v; refine (fun hv : init.Leads v => ?_) ?_; rotate_left; subst v)
    | (intro v; refine (fun hv : init.Leads v.1 => ?_) ?_; rotate_left; subst v)
    | (intro v; refine (fun hv : init.Leads v.2 => ?_) ?_; rotate_left; subst v)
    | intro _
    | (extract_lets -lift +onlyGivenNames w; revert w)
    | dsimp -zeta -zetaDelta only
    | with_reducible apply Dev.setRst_leads
    | with_reducible apply Dev.stopAt_leads
    | with_reducible apply Dev.setPkg_leads
    | (simp [*]; done)
    | (split <;> try (rename_i e; try obtain rfl := congrArg Prod.fst e; try obtain rfl := congrArg Prod.snd e))

@[simp] theorem Dev.runSlot_leads {init d : Dev} (slot : Nat) (fallback : Option (Nat × Nat)) (h : init.Leads d) : init.Leads (Dev.runSlot d slot fallback) := by
  unfold Dev.runSlot
  repeat' first
    | with_reducible assumption
    | (intro v; refine (fun hv : init.Leads v => ?_) ?_; rotate_left; subst v)
    | (intro v; refine (fun hv : init.Leads v.1 => ?_) ?_; rotate_left; subst v)
    | (intro v; refine (fun hv : init.Leads v.2 => ?_) ?_; rotate_left; subst v)
    | intro _
    | (extract_lets -lift +onlyGivenNames w; revert w)
    | dsimp -zeta -zetaDelta only
    | with_reducible apply Dev.setF_leads
    | with_reducible apply Dev.setB_leads
    | with_reducible apply Dev.setPhase_leads
    | with_reducible apply Dev.endStart_leads
    | with_reducible apply Dev.firmwareStarts_leads
    | with_reducible apply Dev.setPkg_leads
    | (simp [*]; done)
    | (split <;> try (rename_i e; try obtain rfl := congrArg Prod.fst e; try obtain rfl := congrArg Prod.snd e))

theorem execStartupRomVerify_runs (failA failB : Option Nat) (s : State) : s.Runs (execStartupRomVerify failA failB s) := by
  unfold execStartupRomVerify
  refine State.on_runs fun init => ?_
  have h := Dev.Leads.refl init
  repeat' first
    | with_reducible assumption
    | (intro v; refine (fun hv : init.Leads v => ?_) ?_; rotate_left; subst v)
    | intro _
    | (extract_lets -lift +onlyGivenNames w; revert w)
    | with_reducible apply Dev.romRecovers_leads
    | with_reducible apply Dev.runSlot_leads
    | (simp [*]; done)
    | split

theorem execRomGetFwInfo_runs (s : State) : s.Runs (execRomGetFwInfo s) := by
  unfold execRomGetFwInfo
  refine State.on_runs fun init => ?_
  have h := Dev.Leads.refl init
  repeat' first
    | with_reducible assumption
    | intro _
    | with_reducible apply Dev.mbOk_leads
    | (simp [*]; done)
    | split

theorem execRomTransferFw_runs (slot revision : Nat) (verifies : Bool) (s : State) : s.Runs (execRomTransferFw slot revision verifies s) := by
  unfold execRomTransferFw
  refine State.on_runs fun init => ?_
  have h := Dev.Leads.refl init
  repeat' first
    | with_reducible assumption
    | (intro v; refine (fun hv : init.Leads v => ?_) ?_; rotate_left; subst v)
    | intro _
    | (extract_lets -lift +onlyGivenNames w; revert w)
    | with_reducible apply Dev.tick_leads
    | with_reducible apply Dev.mbReply_leads
    | with_reducible apply Dev.mbOk_leads
    | with_reducible apply Dev.setRst_leads
    | (simp [*]; done)
    | split

theorem execRomActivateFw_runs (slot : Nat) (s : State) : s.Runs (execRomActivateFw slot s) := by
  unfold execRomActivateFw
  refine State.on_runs fun init => ?_
  have h := Dev.Leads.refl init
  repeat' first
    | with_reducible assumption
    | intro _
    | with_reducible apply Dev.counterRecord_leads
    | with_reducible apply Dev.mbReply_leads
    | with_reducible apply Dev.mbOk_leads
    | (simp [*]; done)
    | split

theorem execStartupChecks_runs (differs : Option Nat) (tripping : Nat) (s : State) : s.Runs (execStartupChecks differs tripping s) := by
  unfold execStartupChecks
  refine State.on_runs fun init => ?_
  have h := Dev.Leads.refl init
  split
  · exact h
  · extract_lets -lift +onlyGivenNames w
    have hv : init.Leads w := Dev.setSec_leads _ h
    split
    · exact Dev.stopAt_leads _ (Dev.raiseB_leads _ _ hv)
    · extract_lets -lift +onlyGivenNames w2
      have hv2 : init.Leads w2 := Dev.setB_leads _ _ _ _ _ hv
      split
      · exact Dev.stopAt_leads _ hv2
      · extract_lets -lift +onlyGivenNames w3
        have hv3 : init.Leads w3 := Dev.loadBlobs_leads hv2
        split
        · exact Dev.stopAt_leads _ (Dev.setB_leads _ _ _ _ _ hv3)
        · refine Dev.endStart_leads _ _ (Dev.setPhase_leads _ (Dev.leads_ite (Dev.drawInto_leads _ _ hv3) hv3))

@[simp] theorem Dev.showCfg_leads {init d : Dev} (h : init.Leads d) : init.Leads (Dev.showCfg d) := by
  unfold Dev.showCfg
  repeat' first
    | with_reducible assumption
    | (intro v; refine (fun hv : init.Leads v => ?_) ?_; rotate_left; subst v)
    | (intro v; refine (fun hv : init.Leads v.1 => ?_) ?_; rotate_left; subst v)
    | (intro v; refine (fun hv : init.Leads v.2 => ?_) ?_; rotate_left; subst v)
    | intro _
    | (extract_lets -lift +onlyGivenNames w; revert w)
    | dsimp -zeta -zetaDelta only
    | with_reducible apply Dev.setF_leads
    | with_reducible apply Dev.forEach_leads
    | with_reducible apply Dev.setB_leads
    | (simp [*]; done)
    | (split <;> try (rename_i e; try obtain rfl := congrArg Prod.fst e; try obtain rfl := congrArg Prod.snd e))

@[simp] theorem Dev.showPartial_leads {init d : Dev} (h : init.Leads d) : init.Leads (Dev.showPartial d) := by
  unfold Dev.showPartial
  repeat' first
    | with_reducible assumption
    | (intro v; refine (fun hv : init.Leads v => ?_) ?_; rotate_left; subst v)
    | (intro v; refine (fun hv : init.Leads v.1 => ?_) ?_; rotate_left; subst v)
    | (intro v; refine (fun hv : init.Leads v.2 => ?_) ?_; rotate_left; subst v)
    | intro _
    | (extract_lets -lift +onlyGivenNames w; revert w)
    | dsimp -zeta -zetaDelta only
    | with_reducible apply Dev.setF_leads
    | with_reducible apply Dev.forEach_leads
    | (simp [*]; done)
    | (split <;> try (rename_i e; try obtain rfl := congrArg Prod.fst e; try obtain rfl := congrArg Prod.snd e))

@[simp] theorem Dev.defaultStrings_leads {init d : Dev} (h : init.Leads d) : init.Leads (Dev.defaultStrings d) := by
  unfold Dev.defaultStrings
  repeat' first
    | with_reducible assumption
    | (intro v; refine (fun hv : init.Leads v => ?_) ?_; rotate_left; subst v)
    | (intro v; refine (fun hv : init.Leads v.1 => ?_) ?_; rotate_left; subst v)
    | (intro v; refine (fun hv : init.Leads v.2 => ?_) ?_; rotate_left; subst v)
    | intro _
    | (extract_lets -lift +onlyGivenNames w; revert w)
    | dsimp -zeta -zetaDelta only
    | with_reducible apply Dev.setF_leads
    | with_reducible apply Dev.forEach_leads
    | (simp [*]; done)
    | (split <;> try (rename_i e; try obtain rfl := congrArg Prod.fst e; try obtain rfl := congrArg Prod.snd e))

@[simp] theorem Dev.loadImage_leads {init d : Dev} (copy : Nat) (cfg : SwgCfg) (ss : List Sect) (h : init.Leads d) : init.Leads (Dev.loadImage d copy cfg ss) := by
  unfold Dev.loadImage
  repeat' first
    | with_reducible assumption
    | (intro v; refine (fun hv : init.Leads v => ?_) ?_; rotate_left; subst v)
    | (intro v; refine (fun hv : init.Leads v.1 => ?_) ?_; rotate_left; subst v)
    | (intro v; refine (fun hv : init.Leads v.2 => ?_) ?_; rotate_left; subst v)
    | intro _
    | (extract_lets -lift +onlyGivenNames w; revert w)
    | dsimp -zeta -zetaDelta only
    | with_reducible apply Dev.setF_leads
    | with_reducible apply Dev.forEach_leads
    | with_reducible apply Dev.setB_leads
    | with_reducible apply Dev.raiseB_leads
    | with_reducible apply Dev.showCfg_leads
    | with_reducible apply Dev.showPartial_leads
    | with_reducible apply Dev.defaultStrings_leads
    | (simp [*]; done)
    | (split <;> try (rename_i e; try obtain rfl := congrArg Prod.fst e; try obtain rfl := congrArg Prod.snd e))

theorem execSwageLoad_runs (signatureA signatureB : Bool) (bank : Nat) (s : State) : s.Runs (execSwageLoad signatureA signatureB bank s) := by
  unfold execSwageLoad
  refine State.on_runs fun init => ?_
  have h := Dev.Leads.refl init
  repeat' first
    | with_reducible assumption
    | (intro v; refine (fun hv : init.Leads v => ?_) ?_; rotate_left; subst v)
    | intro _
    | (extract_lets -lift +onlyGivenNames w; revert w)
    | with_reducible apply Dev.setB_leads
    | with_reducible apply Dev.raiseB_leads
    | with_reducible apply Dev.copyResult_leads
    | with_reducible apply Dev.setPhase_leads
    | with_reducible apply Dev.endStart_leads
    | with_reducible apply Dev.stopAt_leads
    | with_reducible apply Dev.loadImage_leads
    | (simp [*]; done)
    | split

@[simp] theorem Dev.keepOut_leads {init d : Dev} (F : Fld) (die : Nat) (h : init.Leads d) : init.Leads (Dev.keepOut d F die) := by
  simp [Dev.keepOut, h]

theorem execFenceWireTest_runs (failed : List WireFault) (s : State) : s.Runs (execFenceWireTest failed s) := by
  unfold execFenceWireTest
  refine State.on_runs fun init => ?_
  have h := Dev.Leads.refl init
  repeat' first
    | with_reducible assumption
    | (intro v; refine (fun hv : init.Leads v => ?_) ?_; rotate_left; subst v)
    | intro _
    | (extract_lets -lift +onlyGivenNames w; revert w)
    | with_reducible apply Dev.setF_leads
    | with_reducible apply Dev.forEach_leads
    | with_reducible apply Dev.raiseB_leads
    | with_reducible apply Dev.endStart_leads
    | with_reducible apply Dev.keepOut_leads
    | (simp [*]; done)
    | split

theorem execDiePowerEnable_runs (die : Nat) (s : State) : s.Runs (execDiePowerEnable die s) := by
  unfold execDiePowerEnable
  refine State.on_runs fun init => ?_
  have h := Dev.Leads.refl init
  repeat' first
    | with_reducible assumption
    | intro _
    | with_reducible apply Dev.emit_leads
    | with_reducible apply Dev.setRst_leads
    | (simp [*]; done)
    | split

@[simp] theorem Dev.diesSettle_leads {init d : Dev} (h : init.Leads d) : init.Leads (Dev.diesSettle d) := by
  unfold Dev.diesSettle
  repeat' first
    | with_reducible assumption
    | (intro v; refine (fun hv : init.Leads v => ?_) ?_; rotate_left; subst v)
    | (intro v; refine (fun hv : init.Leads v.1 => ?_) ?_; rotate_left; subst v)
    | (intro v; refine (fun hv : init.Leads v.2 => ?_) ?_; rotate_left; subst v)
    | intro _
    | (extract_lets -lift +onlyGivenNames w; revert w)
    | dsimp -zeta -zetaDelta only
    | with_reducible apply Dev.raiseB_leads
    | with_reducible apply Dev.setPhase_leads
    | with_reducible apply Dev.endStart_leads
    | (simp [*]; done)
    | (split <;> try (rename_i e; try obtain rfl := congrArg Prod.fst e; try obtain rfl := congrArg Prod.snd e))

@[simp] theorem Dev.lowerPower_leads {init d : Dev} (die : Nat) (h : init.Leads d) : init.Leads (Dev.lowerPower d die) := by
  simp [Dev.lowerPower, h]

@[simp] theorem Dev.dieStaysOut_leads {init d : Dev} (die : Nat) (cause : Nat) (h : init.Leads d) : init.Leads (Dev.dieStaysOut d die cause) := by
  unfold Dev.dieStaysOut
  repeat' first
    | with_reducible assumption
    | (intro v; refine (fun hv : init.Leads v => ?_) ?_; rotate_left; subst v)
    | (intro v; refine (fun hv : init.Leads v.1 => ?_) ?_; rotate_left; subst v)
    | (intro v; refine (fun hv : init.Leads v.2 => ?_) ?_; rotate_left; subst v)
    | intro _
    | (extract_lets -lift +onlyGivenNames w; revert w)
    | dsimp -zeta -zetaDelta only
    | with_reducible apply Dev.setF_leads
    | with_reducible apply Dev.raise_leads
    | with_reducible apply Dev.keepOut_leads
    | with_reducible apply Dev.lowerPower_leads
    | (simp [*]; done)
    | (split <;> try (rename_i e; try obtain rfl := congrArg Prod.fst e; try obtain rfl := congrArg Prod.snd e))

@[simp] theorem Dev.testSlices_leads {init d : Dev} (die : Nat) (t : DieTest) (h : init.Leads d) : init.Leads (Dev.testSlices d die t).1 := by
  unfold Dev.testSlices
  repeat' first
    | with_reducible assumption
    | (intro v; refine (fun hv : init.Leads v => ?_) ?_; rotate_left; subst v)
    | (intro v; refine (fun hv : init.Leads v.1 => ?_) ?_; rotate_left; subst v)
    | (intro v; refine (fun hv : init.Leads v.2 => ?_) ?_; rotate_left; subst v)
    | (intro w; clear_value w)
    | intro _
    | (extract_lets -lift +onlyGivenNames w; revert w)
    | dsimp -zeta -zetaDelta only
    | with_reducible apply Dev.setB_leads
    | with_reducible apply Dev.raise_leads
    | with_reducible apply Dev.slagAdd_leads
    | with_reducible apply Dev.exhaust_leads
    | with_reducible apply Dev.spareTakes_leads
    | (simp [*]; done)
    | (split <;> try (rename_i e; try obtain rfl := congrArg Prod.fst e; try obtain rfl := congrArg Prod.snd e))

@[simp] theorem Dev.testDie_leads {init d : Dev} (die : Nat) (t : DieTest) (h : init.Leads d) : init.Leads (Dev.testDie d die t) := by
  unfold Dev.testDie
  repeat' first
    | with_reducible assumption
    | (intro v; refine (fun hv : init.Leads v => ?_) ?_; rotate_left; subst v)
    | (intro v; refine (fun hv : init.Leads v.1 => ?_) ?_; rotate_left; subst v)
    | (intro v; refine (fun hv : init.Leads v.2 => ?_) ?_; rotate_left; subst v)
    | intro _
    | (extract_lets -lift +onlyGivenNames w; revert w)
    | dsimp -zeta -zetaDelta only
    | with_reducible apply Dev.setF_leads
    | with_reducible apply Dev.setB_leads
    | with_reducible apply Dev.raise_leads
    | with_reducible apply Dev.exhaust_leads
    | with_reducible apply Dev.setSvc_leads
    | (simp [*]; done)
    | (split <;> try (rename_i e; try obtain rfl := congrArg Prod.fst e; try obtain rfl := congrArg Prod.snd e))

@[simp] theorem Dev.dieJoins_leads {init d : Dev} (die : Nat) (h : init.Leads d) : init.Leads (Dev.dieJoins d die) := by
  unfold Dev.dieJoins
  repeat' first
    | with_reducible assumption
    | (intro v; refine (fun hv : init.Leads v => ?_) ?_; rotate_left; subst v)
    | (intro v; refine (fun hv : init.Leads v.1 => ?_) ?_; rotate_left; subst v)
    | (intro v; refine (fun hv : init.Leads v.2 => ?_) ?_; rotate_left; subst v)
    | intro _
    | (extract_lets -lift +onlyGivenNames w; revert w)
    | dsimp -zeta -zetaDelta only
    | with_reducible apply Dev.setF_leads
    | with_reducible apply Dev.forEach_leads
    | with_reducible apply Dev.setB_leads
    | (simp [*]; done)
    | (split <;> try (rename_i e; try obtain rfl := congrArg Prod.fst e; try obtain rfl := congrArg Prod.snd e))

theorem execDiePgAssert_runs (die : Nat) (bist : DieTest) (s : State) : s.Runs (execDiePgAssert die bist s) := by
  unfold execDiePgAssert
  refine State.on_runs fun init => ?_
  have h := Dev.Leads.refl init
  repeat' first
    | with_reducible assumption
    | (intro v; refine (fun hv : init.Leads v => ?_) ?_; rotate_left; subst v)
    | (intro v; refine (fun hv : init.Leads v.1 => ?_) ?_; rotate_left; subst v)
    | (intro v; refine (fun hv : init.Leads v.2 => ?_) ?_; rotate_left; subst v)
    | intro _
    | (extract_lets -lift +onlyGivenNames w; revert w)
    | dsimp -zeta -zetaDelta only
    | with_reducible apply Dev.slagAdd_leads
    | with_reducible apply Dev.setRst_leads
    | with_reducible apply Dev.diesSettle_leads
    | with_reducible apply Dev.dieStaysOut_leads
    | with_reducible apply Dev.testSlices_leads
    | with_reducible apply Dev.testDie_leads
    | with_reducible apply Dev.dieJoins_leads
    | (simp [*]; done)
    | (split <;> try (rename_i e; try obtain rfl := congrArg Prod.fst e; try obtain rfl := congrArg Prod.snd e))

theorem execDiePgTimeout_runs (die : Nat) (s : State) : s.Runs (execDiePgTimeout die s) := by
  unfold execDiePgTimeout
  refine State.on_runs fun init => ?_
  have h := Dev.Leads.refl init
  repeat' first
    | with_reducible assumption
    | intro _
    | with_reducible apply Dev.tick_leads
    | with_reducible apply Dev.diesSettle_leads
    | with_reducible apply Dev.dieStaysOut_leads
    | (simp [*]; done)
    | split

theorem execDiePgFall_runs (die ns : Nat) (s : State) : s.Runs (execDiePgFall die ns s) := by
  unfold execDiePgFall
  refine State.on_runs fun init => ?_
  have h := Dev.Leads.refl init
  repeat' first
    | with_reducible assumption
    | intro _
    | with_reducible apply Dev.tick_leads
    | with_reducible apply Dev.dieOut_leads
    | with_reducible apply Dev.lowerPower_leads
    | (simp [*]; done)
    | split

@[simp] theorem Dev.dropOldRanks_leads {init d : Dev} (p : Population) (h : init.Leads d) : init.Leads (Dev.dropOldRanks d p) := by
  unfold Dev.dropOldRanks
  repeat' first
    | with_reducible assumption
    | (intro v; refine (fun hv : init.Leads v => ?_) ?_; rotate_left; subst v)
    | (intro v; refine (fun hv : init.Leads v.1 => ?_) ?_; rotate_left; subst v)
    | (intro v; refine (fun hv : init.Leads v.2 => ?_) ?_; rotate_left; subst v)
    | intro _
    | (extract_lets -lift +onlyGivenNames w; revert w)
    | dsimp -zeta -zetaDelta only
    | with_reducible apply Dev.setSvc_leads
    | (simp [*]; done)
    | (split <;> try (rename_i e; try obtain rfl := congrArg Prod.fst e; try obtain rfl := congrArg Prod.snd e))

@[simp] theorem Dev.populate_leads {init d : Dev} (p : Population) (h : init.Leads d) : init.Leads (Dev.populate d p) := by
  unfold Dev.populate
  repeat' first
    | with_reducible assumption
    | (intro v; refine (fun hv : init.Leads v => ?_) ?_; rotate_left; subst v)
    | (intro v; refine (fun hv : init.Leads v.1 => ?_) ?_; rotate_left; subst v)
    | (intro v; refine (fun hv : init.Leads v.2 => ?_) ?_; rotate_left; subst v)
    | intro _
    | (extract_lets -lift +onlyGivenNames w; revert w)
    | dsimp -zeta -zetaDelta only
    | with_reducible apply Dev.setF_leads
    | with_reducible apply Dev.forEach_leads
    | with_reducible apply Dev.setB_leads
    | with_reducible apply Dev.modChan_leads
    | with_reducible apply Dev.exhaust_leads
    | with_reducible apply Dev.dropOldRanks_leads
    | (simp [*]; done)
    | (split <;> try (rename_i e; try obtain rfl := congrArg Prod.fst e; try obtain rfl := congrArg Prod.snd e))

theorem execSpdPopulationCheck_runs (chans : List Population) (s : State) : s.Runs (execSpdPopulationCheck chans s) := by
  unfold execSpdPopulationCheck
  refine State.on_runs fun init => ?_
  have h := Dev.Leads.refl init
  repeat' first
    | with_reducible assumption
    | (intro v; refine (fun hv : init.Leads v => ?_) ?_; rotate_left; subst v)
    | (intro w; clear_value w)
    | intro _
    | (extract_lets -lift +onlyGivenNames w; revert w)
    | with_reducible apply Dev.forEach_leads
    | with_reducible apply Dev.raise_leads
    | with_reducible apply Dev.notReady_leads
    | with_reducible apply Dev.setRst_leads
    | with_reducible apply Dev.endStart_leads
    | with_reducible apply Dev.populate_leads
    | (simp [*]; done)
    | split

@[simp] theorem Dev.repairRow_leads {init d : Dev} (r : Repair) (h : init.Leads d) : init.Leads (Dev.repairRow d r) := by
  unfold Dev.repairRow
  repeat' first
    | with_reducible assumption
    | (intro v; refine (fun hv : init.Leads v => ?_) ?_; rotate_left; subst v)
    | (intro v; refine (fun hv : init.Leads v.1 => ?_) ?_; rotate_left; subst v)
    | (intro v; refine (fun hv : init.Leads v.2 => ?_) ?_; rotate_left; subst v)
    | intro _
    | (extract_lets -lift +onlyGivenNames w; revert w)
    | dsimp -zeta -zetaDelta only
    | with_reducible apply Dev.raise_leads
    | with_reducible apply Dev.counterRecord_leads
    | with_reducible apply Dev.exhaust_leads
    | (simp [*]; done)
    | (split <;> try (rename_i e; try obtain rfl := congrArg Prod.fst e; try obtain rfl := congrArg Prod.snd e))

@[simp] theorem Dev.replayEvents_leads {init d : Dev} (h : init.Leads d) : init.Leads (Dev.replayEvents d) := by
  unfold Dev.replayEvents
  repeat' first
    | with_reducible assumption
    | (intro v; refine (fun hv : init.Leads v => ?_) ?_; rotate_left; subst v)
    | (intro v; refine (fun hv : init.Leads v.1 => ?_) ?_; rotate_left; subst v)
    | (intro v; refine (fun hv : init.Leads v.2 => ?_) ?_; rotate_left; subst v)
    | intro _
    | (extract_lets -lift +onlyGivenNames w; revert w)
    | dsimp -zeta -zetaDelta only
    | with_reducible apply Dev.forEach_leads
    | with_reducible apply Dev.leafProgram_leads
    | with_reducible apply Dev.pvRebuild_leads
    | (simp [*]; done)
    | (split <;> try (rename_i e; try obtain rfl := congrArg Prod.fst e; try obtain rfl := congrArg Prod.snd e))

@[simp] theorem Dev.rankFails_leads {init d : Dev} (t : RankTrain) (h : init.Leads d) : init.Leads (Dev.rankFails d t) := by
  unfold Dev.rankFails
  repeat' first
    | with_reducible assumption
    | (intro v; refine (fun hv : init.Leads v => ?_) ?_; rotate_left; subst v)
    | (intro v; refine (fun hv : init.Leads v.1 => ?_) ?_; rotate_left; subst v)
    | (intro v; refine (fun hv : init.Leads v.2 => ?_) ?_; rotate_left; subst v)
    | intro _
    | (extract_lets -lift +onlyGivenNames w; revert w)
    | dsimp -zeta -zetaDelta only
    | with_reducible apply Dev.setB_leads
    | with_reducible apply Dev.raise_leads
    | with_reducible apply Dev.modChan_leads
    | with_reducible apply Dev.exhaust_leads
    | (simp [*]; done)
    | (split <;> try (rename_i e; try obtain rfl := congrArg Prod.fst e; try obtain rfl := congrArg Prod.snd e))

@[simp] theorem Dev.chanUp_leads {init d : Dev} (die : Nat) (c : Nat) (h : init.Leads d) : init.Leads (Dev.chanUp d die c) := by
  unfold Dev.chanUp
  repeat' first
    | with_reducible assumption
    | (intro v; refine (fun hv : init.Leads v => ?_) ?_; rotate_left; subst v)
    | (intro v; refine (fun hv : init.Leads v.1 => ?_) ?_; rotate_left; subst v)
    | (intro v; refine (fun hv : init.Leads v.2 => ?_) ?_; rotate_left; subst v)
    | intro _
    | (extract_lets -lift +onlyGivenNames w; revert w)
    | dsimp -zeta -zetaDelta only
    | with_reducible apply Dev.setF_leads
    | with_reducible apply Dev.raise_leads
    | with_reducible apply Dev.modChan_leads
    | (simp [*]; done)
    | (split <;> try (rename_i e; try obtain rfl := congrArg Prod.fst e; try obtain rfl := congrArg Prod.snd e))

theorem execInitialTrainingDone_runs (failed : List RankTrain) (repairs : List Repair) (s : State) : s.Runs (execInitialTrainingDone failed repairs s) := by
  unfold execInitialTrainingDone
  refine State.on_runs fun init => ?_
  have h := Dev.Leads.refl init
  repeat' first
    | with_reducible assumption
    | (intro v; refine (fun hv : init.Leads v => ?_) ?_; rotate_left; subst v)
    | intro _
    | (extract_lets -lift +onlyGivenNames w; revert w)
    | with_reducible apply Dev.setF_leads
    | with_reducible apply Dev.forEach_leads
    | with_reducible apply Dev.setRht_leads
    | with_reducible apply Dev.notReady_leads
    | with_reducible apply Dev.setRst_leads
    | with_reducible apply Dev.setPhase_leads
    | with_reducible apply Dev.endStart_leads
    | with_reducible apply Dev.repairRow_leads
    | with_reducible apply Dev.replayEvents_leads
    | with_reducible apply Dev.rankFails_leads
    | with_reducible apply Dev.chanUp_leads
    | (simp [*]; done)
    | split

theorem execTagStoreInit_runs (s : State) : s.Runs (execTagStoreInit s) := by
  unfold execTagStoreInit
  refine State.on_runs fun init => ?_
  have h := Dev.Leads.refl init
  repeat' first
    | with_reducible assumption
    | (intro v; refine (fun hv : init.Leads v => ?_) ?_; rotate_left; subst v)
    | intro _
    | (extract_lets -lift +onlyGivenNames w; revert w)
    | with_reducible apply Dev.setF_leads
    | with_reducible apply Dev.forEach_leads
    | with_reducible apply Dev.setCru_leads
    | with_reducible apply Dev.setSvc_leads
    | with_reducible apply Dev.endStart_leads
    | with_reducible apply Dev.rankSwitch_leads
    | (simp [*]; done)
    | split

end Sys2Proof.Machine
end

