-- ==== Sys2Proof/Laws/LeadsRegisters.lean ====
section
/-! SUPPORT. What register accesses never break (Leads), one lemma a function; each command runs (Runs), one lemma a command. -/

namespace Sys2Proof.Machine

open Sys2Proof

set_option linter.tactic.unusedName false
set_option linter.unusedTactic false
set_option linter.unreachableTactic false
set_option linter.unusedSimpArgs false
set_option linter.unusedVariables false

@[simp] theorem Dev.writeField_leads {init d : Dev} (r : FieldRow) (mask : Nat) (v : Nat) (a : Nat) (b : Nat) (c : Nat) (h : init.Leads d) : init.Leads (Dev.writeField d r mask v a b c).1 := by
  unfold Dev.writeField
  repeat' first
    | with_reducible assumption
    | (intro v; refine (fun hv : init.Leads v => ?_) ?_; rotate_left; subst v)
    | (intro v; refine (fun hv : init.Leads v.1 => ?_) ?_; rotate_left; subst v)
    | (intro v; refine (fun hv : init.Leads v.2 => ?_) ?_; rotate_left; subst v)
    | intro _
    | (extract_lets -lift +onlyGivenNames w; revert w)
    | dsimp -zeta -zetaDelta only
    | with_reducible apply Dev.setF_leads
    | (simp [*]; done)
    | (split <;> try (rename_i e; try obtain rfl := congrArg Prod.fst e; try obtain rfl := congrArg Prod.snd e))

@[simp] theorem Dev.writeHit_leads {init d : Dev} (bar2 : Bool) (a : Nat) (rel : Nat) (width : Nat) (value : Nat) (h : RegHit) (ha : init.Leads d) : init.Leads (Dev.writeHit d bar2 a rel width value h) := by
  unfold Dev.writeHit
  refine Dev.when_leads _ _ (Dev.leads_foldl _ _ _ ha fun y z hy => ?_) fun hx => Dev.incF_leads _ _ _ _ hx
  dsimp only
  split
  · exact hy
  · exact Dev.writeField_leads _ _ _ _ _ _ hy

@[simp] theorem Dev.writeReg_leads {init d : Dev} (bar2 : Bool) (offset : Nat) (width : Nat) (value : Nat) (h : init.Leads d) : init.Leads (Dev.writeReg d bar2 offset width value) := by
  unfold Dev.writeReg
  repeat' first
    | with_reducible assumption
    | (intro v; refine (fun hv : init.Leads v => ?_) ?_; rotate_left; subst v)
    | (intro v; refine (fun hv : init.Leads v.1 => ?_) ?_; rotate_left; subst v)
    | (intro v; refine (fun hv : init.Leads v.2 => ?_) ?_; rotate_left; subst v)
    | intro _
    | (extract_lets -lift +onlyGivenNames w; revert w)
    | dsimp -zeta -zetaDelta only
    | with_reducible apply Dev.forEach_leads
    | with_reducible apply Dev.writeHit_leads
    | (simp [*]; done)
    | (split <;> try (rename_i e; try obtain rfl := congrArg Prod.fst e; try obtain rfl := congrArg Prod.snd e))

@[simp] theorem Dev.hcbEnd_leads {init d : Dev} (h : Nat) (st : Status) (ha : init.Leads d) : init.Leads (Dev.hcbEnd d h st) := by
  unfold Dev.hcbEnd
  repeat' first
    | with_reducible assumption
    | (intro v; refine (fun hv : init.Leads v => ?_) ?_; rotate_left; subst v)
    | (intro v; refine (fun hv : init.Leads v.1 => ?_) ?_; rotate_left; subst v)
    | (intro v; refine (fun hv : init.Leads v.2 => ?_) ?_; rotate_left; subst v)
    | intro _
    | (extract_lets -lift +onlyGivenNames w; revert w)
    | dsimp -zeta -zetaDelta only
    | with_reducible apply Dev.setF_leads
    | with_reducible apply Dev.setB_leads
    | (simp [*]; done)
    | (split <;> try (rename_i e; try obtain rfl := congrArg Prod.fst e; try obtain rfl := congrArg Prod.snd e))

@[simp] theorem Dev.hcbGo_leads {init d : Dev} (bar2 : Bool) (h : Nat) (count : Nat) (op : Nat) (discard : Bool) (ha : init.Leads d) : init.Leads (Dev.hcbGo d bar2 h count op discard) := by
  unfold Dev.hcbGo
  repeat' first
    | with_reducible assumption
    | (intro v; refine (fun hv : init.Leads v => ?_) ?_; rotate_left; subst v)
    | (intro v; refine (fun hv : init.Leads v.1 => ?_) ?_; rotate_left; subst v)
    | (intro v; refine (fun hv : init.Leads v.2 => ?_) ?_; rotate_left; subst v)
    | intro _
    | (extract_lets -lift +onlyGivenNames w; revert w)
    | dsimp -zeta -zetaDelta only
    | with_reducible apply Dev.setF_leads
    | with_reducible apply Dev.forEach_leads
    | with_reducible apply Dev.setB_leads
    | with_reducible apply Dev.addMaint_leads
    | with_reducible apply Dev.hcbEnd_leads
    | (simp [*]; done)
    | (split <;> try (rename_i e; try obtain rfl := congrArg Prod.fst e; try obtain rfl := congrArg Prod.snd e))

theorem execHcbCmdGo_runs (bar2 : Bool) (hearth count op : Nat) (discard : Bool) (s : State) : s.Runs (execHcbCmdGo bar2 hearth count op discard s) := by
  unfold execHcbCmdGo
  refine State.on_runs fun init => ?_
  have h := Dev.Leads.refl init
  repeat' first
    | with_reducible assumption
    | intro _
    | with_reducible apply Dev.hcbGo_leads
    | (simp [*]; done)

theorem execBar2BadAccess_runs (die port : Nat) (write : Bool) (offset width : Nat) (s : State) : s.Runs (execBar2BadAccess die port write offset width s) := by
  unfold execBar2BadAccess
  refine State.on_runs fun init => ?_
  have h := Dev.Leads.refl init
  repeat' first
    | with_reducible assumption
    | intro _
    | with_reducible apply Dev.emit_leads
    | (simp [*]; done)
    | split

theorem execRegisterWrite_runs (bar2 : Bool) (offset width value : Nat) (s : State) : s.Runs (execRegisterWrite bar2 offset width value s) := by
  unfold execRegisterWrite
  refine State.on_runs fun init => ?_
  have h := Dev.Leads.refl init
  repeat' first
    | with_reducible assumption
    | intro _
    | with_reducible apply Dev.writeReg_leads
    | (simp [*]; done)

end Sys2Proof.Machine
end

