-- ==== Sys2Proof/Laws/LeadsMailbox.lean ====
section
/-! SUPPORT. What the mailbox and the idle tick never break (Leads), one lemma a function; each command runs (Runs), one lemma a command. -/

namespace Sys2Proof.Machine

open Sys2Proof

set_option linter.tactic.unusedName false
set_option linter.unusedTactic false
set_option linter.unreachableTactic false
set_option linter.unusedSimpArgs false
set_option linter.unusedVariables false

@[simp] theorem Dev.setMbox_leads {init d : Dev} (f : MboxState → MboxState) (h : init.Leads d) : init.Leads (Dev.setMbox d f) := by
  simp [Dev.setMbox, h]

@[simp] theorem Dev.ticks_leads {init d : Dev} (n : Nat) (h : init.Leads d) : init.Leads (Dev.ticks d n) := by
  exact ⟨h.mem, h.regs, h.time, Nat.le_trans h.draws (Nat.le_add_right _ _), h.sent, h.part⟩

@[simp] theorem Dev.mbFails_leads {init d : Dev} (p : Path) (opcode : Nat) (h : init.Leads d) : init.Leads (Dev.mbFails d p opcode) := by
  simp [Dev.mbFails, h]

@[simp] theorem Dev.doIdentify_leads {init d : Dev} (p : Path) (h : init.Leads d) : init.Leads (Dev.doIdentify d p) := by
  simp [Dev.doIdentify, h]

@[simp] theorem Dev.doBackground_leads {init d : Dev} (p : Path) (h : init.Leads d) : init.Leads (Dev.doBackground d p) := by
  unfold Dev.doBackground
  repeat' first
    | with_reducible assumption
    | (intro v; refine (fun hv : init.Leads v => ?_) ?_; rotate_left; subst v)
    | (intro v; refine (fun hv : init.Leads v.1 => ?_) ?_; rotate_left; subst v)
    | (intro v; refine (fun hv : init.Leads v.2 => ?_) ?_; rotate_left; subst v)
    | intro _
    | (extract_lets -lift +onlyGivenNames w; revert w)
    | dsimp -zeta -zetaDelta only
    | with_reducible apply Dev.tick_leads
    | with_reducible apply Dev.mbOk_leads
    | (simp [*]; done)
    | (split <;> try (rename_i e; try obtain rfl := congrArg Prod.fst e; try obtain rfl := congrArg Prod.snd e))

@[simp] theorem Dev.doGetFwInfo_leads {init d : Dev} (p : Path) (h : init.Leads d) : init.Leads (Dev.doGetFwInfo d p) := by
  simp [Dev.doGetFwInfo, h]

@[simp] theorem Dev.doTransferFw_leads {init d : Dev} (p : Path) (slot : Nat) (revision : Nat) (verifies : Bool) (h : init.Leads d) : init.Leads (Dev.doTransferFw d p slot revision verifies) := by
  unfold Dev.doTransferFw
  repeat' first
    | with_reducible assumption
    | (intro v; refine (fun hv : init.Leads v => ?_) ?_; rotate_left; subst v)
    | (intro v; refine (fun hv : init.Leads v.1 => ?_) ?_; rotate_left; subst v)
    | (intro v; refine (fun hv : init.Leads v.2 => ?_) ?_; rotate_left; subst v)
    | intro _
    | (extract_lets -lift +onlyGivenNames w; revert w)
    | dsimp -zeta -zetaDelta only
    | with_reducible apply Dev.mbReply_leads
    | with_reducible apply Dev.mbOk_leads
    | with_reducible apply Dev.setRst_leads
    | (simp [*]; done)
    | (split <;> try (rename_i e; try obtain rfl := congrArg Prod.fst e; try obtain rfl := congrArg Prod.snd e))

@[simp] theorem Dev.doActivateFw_leads {init d : Dev} (p : Path) (slot : Nat) (online : Bool) (h : init.Leads d) : init.Leads (Dev.doActivateFw d p slot online) := by
  unfold Dev.doActivateFw
  repeat' first
    | with_reducible assumption
    | (intro v; refine (fun hv : init.Leads v => ?_) ?_; rotate_left; subst v)
    | (intro v; refine (fun hv : init.Leads v.1 => ?_) ?_; rotate_left; subst v)
    | (intro v; refine (fun hv : init.Leads v.2 => ?_) ?_; rotate_left; subst v)
    | intro _
    | (extract_lets -lift +onlyGivenNames w; revert w)
    | dsimp -zeta -zetaDelta only
    | with_reducible apply Dev.counterRecord_leads
    | with_reducible apply Dev.mbReply_leads
    | with_reducible apply Dev.mbOk_leads
    | (simp [*]; done)
    | (split <;> try (rename_i e; try obtain rfl := congrArg Prod.fst e; try obtain rfl := congrArg Prod.snd e))

@[simp] theorem Dev.doSetTimestamp_leads {init d : Dev} (p : Path) (v : Nat) (h : init.Leads d) : init.Leads (Dev.doSetTimestamp d p v) := by
  unfold Dev.doSetTimestamp
  repeat' first
    | with_reducible assumption
    | (intro v; refine (fun hv : init.Leads v => ?_) ?_; rotate_left; subst v)
    | (intro v; refine (fun hv : init.Leads v.1 => ?_) ?_; rotate_left; subst v)
    | (intro v; refine (fun hv : init.Leads v.2 => ?_) ?_; rotate_left; subst v)
    | intro _
    | (extract_lets -lift +onlyGivenNames w; revert w)
    | dsimp -zeta -zetaDelta only
    | with_reducible apply Dev.raiseB_leads
    | with_reducible apply Dev.mbOk_leads
    | with_reducible apply Dev.setMbox_leads
    | (simp [*]; done)
    | (split <;> try (rename_i e; try obtain rfl := congrArg Prod.fst e; try obtain rfl := congrArg Prod.snd e))

@[simp] theorem Dev.doSupportedLogs_leads {init d : Dev} (p : Path) (h : init.Leads d) : init.Leads (Dev.doSupportedLogs d p) := by
  simp [Dev.doSupportedLogs, h]

@[simp] theorem Dev.doGetLog_leads {init d : Dev} (p : Path) (log : Nat) (offset : Nat) (length : Nat) (h : init.Leads d) : init.Leads (Dev.doGetLog d p log offset length) := by
  unfold Dev.doGetLog
  repeat' first
    | with_reducible assumption
    | (intro v; refine (fun hv : init.Leads v => ?_) ?_; rotate_left; subst v)
    | (intro v; refine (fun hv : init.Leads v.1 => ?_) ?_; rotate_left; subst v)
    | (intro v; refine (fun hv : init.Leads v.2 => ?_) ?_; rotate_left; subst v)
    | intro _
    | (extract_lets -lift +onlyGivenNames w; revert w)
    | dsimp -zeta -zetaDelta only
    | with_reducible apply Dev.tick_leads
    | with_reducible apply Dev.mbOk_leads
    | with_reducible apply Dev.ticks_leads
    | with_reducible apply Dev.mbFails_leads
    | (simp [*]; done)
    | (split <;> try (rename_i e; try obtain rfl := congrArg Prod.fst e; try obtain rfl := congrArg Prod.snd e))

@[simp] theorem Dev.doIdentifyMemory_leads {init d : Dev} (p : Path) (h : init.Leads d) : init.Leads (Dev.doIdentifyMemory d p) := by
  unfold Dev.doIdentifyMemory
  repeat' first
    | with_reducible assumption
    | (intro v; refine (fun hv : init.Leads v => ?_) ?_; rotate_left; subst v)
    | (intro v; refine (fun hv : init.Leads v.1 => ?_) ?_; rotate_left; subst v)
    | (intro v; refine (fun hv : init.Leads v.2 => ?_) ?_; rotate_left; subst v)
    | intro _
    | (extract_lets -lift +onlyGivenNames w; revert w)
    | dsimp -zeta -zetaDelta only
    | with_reducible apply Dev.mbOk_leads
    | with_reducible apply Dev.ticks_leads
    | (simp [*]; done)
    | (split <;> try (rename_i e; try obtain rfl := congrArg Prod.fst e; try obtain rfl := congrArg Prod.snd e))

@[simp] theorem Dev.doHealth_leads {init d : Dev} (p : Path) (h : init.Leads d) : init.Leads (Dev.doHealth d p) := by
  unfold Dev.doHealth
  repeat' first
    | with_reducible assumption
    | (intro v; refine (fun hv : init.Leads v => ?_) ?_; rotate_left; subst v)
    | (intro v; refine (fun hv : init.Leads v.1 => ?_) ?_; rotate_left; subst v)
    | (intro v; refine (fun hv : init.Leads v.2 => ?_) ?_; rotate_left; subst v)
    | intro _
    | (extract_lets -lift +onlyGivenNames w; revert w)
    | dsimp -zeta -zetaDelta only
    | with_reducible apply Dev.mbOk_leads
    | (simp [*]; done)
    | (split <;> try (rename_i e; try obtain rfl := congrArg Prod.fst e; try obtain rfl := congrArg Prod.snd e))

@[simp] theorem Dev.doGetAlerts_leads {init d : Dev} (p : Path) (h : init.Leads d) : init.Leads (Dev.doGetAlerts d p) := by
  unfold Dev.doGetAlerts
  repeat' first
    | with_reducible assumption
    | (intro v; refine (fun hv : init.Leads v => ?_) ?_; rotate_left; subst v)
    | (intro v; refine (fun hv : init.Leads v.1 => ?_) ?_; rotate_left; subst v)
    | (intro v; refine (fun hv : init.Leads v.2 => ?_) ?_; rotate_left; subst v)
    | intro _
    | (extract_lets -lift +onlyGivenNames w; revert w)
    | dsimp -zeta -zetaDelta only
    | with_reducible apply Dev.mbOk_leads
    | with_reducible apply Dev.ticks_leads
    | (simp [*]; done)
    | (split <;> try (rename_i e; try obtain rfl := congrArg Prod.fst e; try obtain rfl := congrArg Prod.snd e))

@[simp] theorem Dev.doSetAlerts_leads {init d : Dev} (p : Path) (valid : Nat) (enable : Nat) (life : Nat) (temp : Nat) (ce : Nat) (h : init.Leads d) : init.Leads (Dev.doSetAlerts d p valid enable life temp ce) := by
  unfold Dev.doSetAlerts
  repeat' first
    | with_reducible assumption
    | (intro v; refine (fun hv : init.Leads v => ?_) ?_; rotate_left; subst v)
    | (intro v; refine (fun hv : init.Leads v.1 => ?_) ?_; rotate_left; subst v)
    | (intro v; refine (fun hv : init.Leads v.2 => ?_) ?_; rotate_left; subst v)
    | intro _
    | (extract_lets -lift +onlyGivenNames w; revert w)
    | dsimp -zeta -zetaDelta only
    | with_reducible apply Dev.mbOk_leads
    | with_reducible apply Dev.setMbox_leads
    | (simp [*]; done)
    | (split <;> try (rename_i e; try obtain rfl := congrArg Prod.fst e; try obtain rfl := congrArg Prod.snd e))

@[simp] theorem Dev.doSetShutdown_leads {init d : Dev} (p : Path) (dirty : Bool) (h : init.Leads d) : init.Leads (Dev.doSetShutdown d p dirty) := by
  unfold Dev.doSetShutdown
  repeat' first
    | with_reducible assumption
    | (intro v; refine (fun hv : init.Leads v => ?_) ?_; rotate_left; subst v)
    | (intro v; refine (fun hv : init.Leads v.1 => ?_) ?_; rotate_left; subst v)
    | (intro v; refine (fun hv : init.Leads v.2 => ?_) ?_; rotate_left; subst v)
    | intro _
    | (extract_lets -lift +onlyGivenNames w; revert w)
    | dsimp -zeta -zetaDelta only
    | with_reducible apply Dev.setB_leads
    | with_reducible apply Dev.saveCounters_leads
    | with_reducible apply Dev.mbOk_leads
    | (simp [*]; done)
    | (split <;> try (rename_i e; try obtain rfl := congrArg Prod.fst e; try obtain rfl := congrArg Prod.snd e))

@[simp] theorem Dev.doGetEvents_leads {init d : Dev} (p : Path) (log : Nat) (h : init.Leads d) : init.Leads (Dev.doGetEvents d p log) := by
  unfold Dev.doGetEvents
  repeat' first
    | with_reducible assumption
    | (intro v; refine (fun hv : init.Leads v => ?_) ?_; rotate_left; subst v)
    | (intro v; refine (fun hv : init.Leads v.1 => ?_) ?_; rotate_left; subst v)
    | (intro v; refine (fun hv : init.Leads v.2 => ?_) ?_; rotate_left; subst v)
    | intro _
    | (extract_lets -lift +onlyGivenNames w; revert w)
    | dsimp -zeta -zetaDelta only
    | with_reducible apply Dev.mbReply_leads
    | with_reducible apply Dev.mbOk_leads
    | (simp [*]; done)
    | (split <;> try (rename_i e; try obtain rfl := congrArg Prod.fst e; try obtain rfl := congrArg Prod.snd e))

@[simp] theorem Dev.viewDrop_leads {init d : Dev} (out : Nat × EvRec → Bool) (h : init.Leads d) : init.Leads (Dev.viewDrop d out) := by
  simp [Dev.viewDrop, h]

@[simp] theorem Dev.viewClear_leads {init d : Dev} (log : Nat) (out : Nat × EvRec → Bool) (h : init.Leads d) : init.Leads (Dev.viewClear d log out) := by
  simp [Dev.viewClear, h]

@[simp] theorem Dev.doClearEvents_leads {init d : Dev} (p : Path) (log : Nat) (all : Bool) (handles : List Nat) (h : init.Leads d) : init.Leads (Dev.doClearEvents d p log all handles) := by
  unfold Dev.doClearEvents
  repeat' first
    | with_reducible assumption
    | (intro v; refine (fun hv : init.Leads v => ?_) ?_; rotate_left; subst v)
    | (intro v; refine (fun hv : init.Leads v.1 => ?_) ?_; rotate_left; subst v)
    | (intro v; refine (fun hv : init.Leads v.2 => ?_) ?_; rotate_left; subst v)
    | intro _
    | (extract_lets -lift +onlyGivenNames w; revert w)
    | dsimp -zeta -zetaDelta only
    | with_reducible apply Dev.mbReply_leads
    | with_reducible apply Dev.mbOk_leads
    | with_reducible apply Dev.viewClear_leads
    | (simp [*]; done)
    | (split <;> try (rename_i e; try obtain rfl := congrArg Prod.fst e; try obtain rfl := congrArg Prod.snd e))

@[simp] theorem Dev.doGetPolicy_leads {init d : Dev} (p : Path) (h : init.Leads d) : init.Leads (Dev.doGetPolicy d p) := by
  simp [Dev.doGetPolicy, h]

@[simp] theorem Dev.doSetPolicy_leads {init d : Dev} (p : Path) (info : Bool) (warning : Bool) (failure : Bool) (fatal : Bool) (h : init.Leads d) : init.Leads (Dev.doSetPolicy d p info warning failure fatal) := by
  simp [Dev.doSetPolicy, h]

@[simp] theorem Dev.doPoisonList_leads {init d : Dev} (p : Path) (dpa : Nat) (lines : Nat) (h : init.Leads d) : init.Leads (Dev.doPoisonList d p dpa lines) := by
  unfold Dev.doPoisonList
  repeat' first
    | with_reducible assumption
    | (intro v; refine (fun hv : init.Leads v => ?_) ?_; rotate_left; subst v)
    | (intro v; refine (fun hv : init.Leads v.1 => ?_) ?_; rotate_left; subst v)
    | (intro v; refine (fun hv : init.Leads v.2 => ?_) ?_; rotate_left; subst v)
    | intro _
    | (extract_lets -lift +onlyGivenNames w; revert w)
    | dsimp -zeta -zetaDelta only
    | with_reducible apply Dev.mbOk_leads
    | with_reducible apply Dev.ticks_leads
    | with_reducible apply Dev.mbFails_leads
    | (simp [*]; done)
    | (split <;> try (rename_i e; try obtain rfl := congrArg Prod.fst e; try obtain rfl := congrArg Prod.snd e))

@[simp] theorem Dev.doInject_leads {init d : Dev} (p : Path) (dpa : Nat) (h : init.Leads d) : init.Leads (Dev.doInject d p dpa) := by
  unfold Dev.doInject
  repeat' first
    | with_reducible assumption
    | (intro v; refine (fun hv : init.Leads v => ?_) ?_; rotate_left; subst v)
    | (intro v; refine (fun hv : init.Leads v.1 => ?_) ?_; rotate_left; subst v)
    | (intro v; refine (fun hv : init.Leads v.2 => ?_) ?_; rotate_left; subst v)
    | intro _
    | (extract_lets -lift +onlyGivenNames w; revert w)
    | dsimp -zeta -zetaDelta only
    | with_reducible apply Dev.addPoison_leads
    | with_reducible apply Dev.mbOk_leads
    | with_reducible apply Dev.mbFails_leads
    | (simp [*]; done)
    | (split <;> try (rename_i e; try obtain rfl := congrArg Prod.fst e; try obtain rfl := congrArg Prod.snd e))

@[simp] theorem Dev.doClearPoison_leads {init d : Dev} (p : Path) (dpa : Nat) (data : Line) (h : init.Leads d) : init.Leads (Dev.doClearPoison d p dpa data) := by
  unfold Dev.doClearPoison
  repeat' first
    | with_reducible assumption
    | (intro v; refine (fun hv : init.Leads v => ?_) ?_; rotate_left; subst v)
    | (intro v; refine (fun hv : init.Leads v.1 => ?_) ?_; rotate_left; subst v)
    | (intro v; refine (fun hv : init.Leads v.2 => ?_) ?_; rotate_left; subst v)
    | intro _
    | (extract_lets -lift +onlyGivenNames w; revert w)
    | dsimp -zeta -zetaDelta only
    | with_reducible apply Dev.setCru_leads
    | with_reducible apply Dev.mbOk_leads
    | with_reducible apply Dev.mbFails_leads
    | (simp [*]; done)
    | (split <;> try (rename_i e; try obtain rfl := congrArg Prod.fst e; try obtain rfl := congrArg Prod.snd e))

@[simp] theorem Dev.sanitizeStop_leads {init d : Dev} (h : init.Leads d) : init.Leads (Dev.sanitizeStop d) := by
  unfold Dev.sanitizeStop
  repeat' first
    | with_reducible assumption
    | (intro v; refine (fun hv : init.Leads v => ?_) ?_; rotate_left; subst v)
    | (intro v; refine (fun hv : init.Leads v.1 => ?_) ?_; rotate_left; subst v)
    | (intro v; refine (fun hv : init.Leads v.2 => ?_) ?_; rotate_left; subst v)
    | intro _
    | (extract_lets -lift +onlyGivenNames w; revert w)
    | dsimp -zeta -zetaDelta only
    | with_reducible apply Dev.forEach_leads
    | with_reducible apply Dev.setCru_leads
    | with_reducible apply Dev.finishWrite_leads
    | with_reducible apply Dev.finishRead_leads
    | with_reducible apply Dev.setMbox_leads
    | (simp [*]; done)
    | (split <;> try (rename_i e; try obtain rfl := congrArg Prod.fst e; try obtain rfl := congrArg Prod.snd e))

@[simp] theorem Dev.sanitizeKeys_leads {init d : Dev} (h : init.Leads d) : init.Leads (Dev.sanitizeKeys d) := by
  unfold Dev.sanitizeKeys
  repeat' first
    | with_reducible assumption
    | (intro v; refine (fun hv : init.Leads v => ?_) ?_; rotate_left; subst v)
    | (intro v; refine (fun hv : init.Leads v.1 => ?_) ?_; rotate_left; subst v)
    | (intro v; refine (fun hv : init.Leads v.2 => ?_) ?_; rotate_left; subst v)
    | intro _
    | (extract_lets -lift +onlyGivenNames w; revert w)
    | dsimp -zeta -zetaDelta only
    | with_reducible apply Dev.forEach_leads
    | with_reducible apply Dev.setB_leads
    | with_reducible apply Dev.eraseKey_leads
    | with_reducible apply Dev.eraseRings_leads
    | with_reducible apply Dev.freshIngotKeys_leads
    | with_reducible apply Dev.freshBackingKeys_leads
    | with_reducible apply Dev.burnEpoch_leads
    | (simp [*]; done)
    | (split <;> try (rename_i e; try obtain rfl := congrArg Prod.fst e; try obtain rfl := congrArg Prod.snd e))

@[simp] theorem Dev.sanitizeTags_leads {init d : Dev} (h : init.Leads d) : init.Leads (Dev.sanitizeTags d) := by
  unfold Dev.sanitizeTags
  repeat' first
    | with_reducible assumption
    | (intro v; refine (fun hv : init.Leads v => ?_) ?_; rotate_left; subst v)
    | (intro v; refine (fun hv : init.Leads v.1 => ?_) ?_; rotate_left; subst v)
    | (intro v; refine (fun hv : init.Leads v.2 => ?_) ?_; rotate_left; subst v)
    | intro _
    | (extract_lets -lift +onlyGivenNames w; revert w)
    | dsimp -zeta -zetaDelta only
    | with_reducible apply Dev.setF_leads
    | with_reducible apply Dev.setCru_leads
    | with_reducible apply Dev.ceilCheck_leads
    | with_reducible apply Dev.setRht_leads
    | with_reducible apply Dev.setHeat_leads
    | (simp [*]; done)
    | (split <;> try (rename_i e; try obtain rfl := congrArg Prod.fst e; try obtain rfl := congrArg Prod.snd e))

@[simp] theorem Dev.doSanitize_leads {init d : Dev} (p : Path) (h : init.Leads d) : init.Leads (Dev.doSanitize d p) := by
  have k : init.Leads d.sanitizeStop.sanitizeKeys.sanitizeTags :=
    Dev.sanitizeTags_leads (Dev.sanitizeKeys_leads (Dev.sanitizeStop_leads h))
  simp only [Dev.doSanitize]
  refine Dev.leads_ite (Dev.mbReply_leads _ _ _ _ _ h) (Dev.leads_ite (Dev.mbReply_leads _ _ _ _ _ h) (Dev.leads_ite (Dev.mbFails_leads _ _ h) ?_))
  refine Dev.mbReply_leads _ _ _ _ _ (Dev.setMbox_leads _ (Dev.tick_leads ?_))
  split
  · rename_i e
    exact (Dev.claimNext_leads _ _ _ k).of_some e
  · exact k

@[simp] theorem Dev.sanitizeFlash_leads {init d : Dev} (h : init.Leads d) : init.Leads (Dev.sanitizeFlash d) := by
  unfold Dev.sanitizeFlash
  repeat' first
    | with_reducible assumption
    | (intro v; refine (fun hv : init.Leads v => ?_) ?_; rotate_left; subst v)
    | (intro v; refine (fun hv : init.Leads v.1 => ?_) ?_; rotate_left; subst v)
    | (intro v; refine (fun hv : init.Leads v.2 => ?_) ?_; rotate_left; subst v)
    | intro _
    | (extract_lets -lift +onlyGivenNames w; revert w)
    | dsimp -zeta -zetaDelta only
    | with_reducible apply Dev.forEach_leads
    | with_reducible apply Dev.setQfl_leads
    | with_reducible apply Dev.checkpoint_leads
    | with_reducible apply Dev.dropUnits_leads
    | (simp [*]; done)
    | (split <;> try (rename_i e; try obtain rfl := congrArg Prod.fst e; try obtain rfl := congrArg Prod.snd e))

@[simp] theorem Dev.sanitizeEnd_leads {init d : Dev} (h : init.Leads d) : init.Leads (Dev.sanitizeEnd d) := by
  unfold Dev.sanitizeEnd
  repeat' first
    | with_reducible assumption
    | (intro v; refine (fun hv : init.Leads v => ?_) ?_; rotate_left; subst v)
    | (intro v; refine (fun hv : init.Leads v.1 => ?_) ?_; rotate_left; subst v)
    | (intro v; refine (fun hv : init.Leads v.2 => ?_) ?_; rotate_left; subst v)
    | intro _
    | (extract_lets -lift +onlyGivenNames w; revert w)
    | dsimp -zeta -zetaDelta only
    | with_reducible apply Dev.emit_leads
    | with_reducible apply Dev.emits_leads
    | with_reducible apply Dev.forEach_leads
    | with_reducible apply Dev.setCru_leads
    | with_reducible apply Dev.writeLabel_leads
    | with_reducible apply Dev.setMbox_leads
    | with_reducible apply Dev.sanitizeFlash_leads
    | (simp [*]; done)
    | (split <;> try (rename_i e; try obtain rfl := congrArg Prod.fst e; try obtain rfl := congrArg Prod.snd e))

@[simp] theorem Dev.discardRange_leads {init d : Dev} (start : Nat) (size : Nat) (h : init.Leads d) : init.Leads (Dev.discardRange d start size) := by
  unfold Dev.discardRange
  repeat' first
    | with_reducible assumption
    | (intro v; refine (fun hv : init.Leads v => ?_) ?_; rotate_left; subst v)
    | (intro v; refine (fun hv : init.Leads v.1 => ?_) ?_; rotate_left; subst v)
    | (intro v; refine (fun hv : init.Leads v.2 => ?_) ?_; rotate_left; subst v)
    | intro _
    | (extract_lets -lift +onlyGivenNames w; revert w)
    | dsimp -zeta -zetaDelta only
    | with_reducible apply Dev.forEach_leads
    | with_reducible apply Dev.setCru_leads
    | with_reducible apply Dev.invalidate_leads
    | with_reducible apply Dev.ceilCheck_leads
    | with_reducible apply Dev.completeThrough_leads
    | (simp [*]; done)
    | (split <;> try (rename_i e; try obtain rfl := congrArg Prod.fst e; try obtain rfl := congrArg Prod.snd e))

@[simp] theorem Dev.onBacking_leads {init d : Dev} (start : Nat) (size : Nat) (name : Nat → String) (h : init.Leads d) : init.Leads (Dev.onBacking d start size name) := by
  simp [Dev.onBacking, h]

@[simp] theorem Dev.dcAdd_leads {init d : Dev} (g : DcRegion) (host : Nat) (start : Nat) (size : Nat) (h : init.Leads d) : init.Leads (Dev.dcAdd d g host start size) := by
  unfold Dev.dcAdd
  repeat' first
    | with_reducible assumption
    | (intro v; refine (fun hv : init.Leads v => ?_) ?_; rotate_left; subst v)
    | (intro v; refine (fun hv : init.Leads v.1 => ?_) ?_; rotate_left; subst v)
    | (intro v; refine (fun hv : init.Leads v.2 => ?_) ?_; rotate_left; subst v)
    | intro _
    | (extract_lets -lift +onlyGivenNames w; revert w)
    | dsimp -zeta -zetaDelta only
    | with_reducible apply Dev.emit_leads
    | with_reducible apply Dev.setFab_leads
    | with_reducible apply Dev.discardRange_leads
    | with_reducible apply Dev.onBacking_leads
    | (simp [*]; done)
    | (split <;> try (rename_i e; try obtain rfl := congrArg Prod.fst e; try obtain rfl := congrArg Prod.snd e))

@[simp] theorem Dev.doDcConfig_leads {init d : Dev} (p : Path) (first : Nat) (count : Nat) (h : init.Leads d) : init.Leads (Dev.doDcConfig d p first count) := by
  unfold Dev.doDcConfig
  repeat' first
    | with_reducible assumption
    | (intro v; refine (fun hv : init.Leads v => ?_) ?_; rotate_left; subst v)
    | (intro v; refine (fun hv : init.Leads v.1 => ?_) ?_; rotate_left; subst v)
    | (intro v; refine (fun hv : init.Leads v.2 => ?_) ?_; rotate_left; subst v)
    | intro _
    | (extract_lets -lift +onlyGivenNames w; revert w)
    | dsimp -zeta -zetaDelta only
    | with_reducible apply Dev.mbOk_leads
    | with_reducible apply Dev.ticks_leads
    | (simp [*]; done)
    | (split <;> try (rename_i e; try obtain rfl := congrArg Prod.fst e; try obtain rfl := congrArg Prod.snd e))

@[simp] theorem Dev.doDcExtents_leads {init d : Dev} (p : Path) (first : Nat) (count : Nat) (h : init.Leads d) : init.Leads (Dev.doDcExtents d p first count) := by
  unfold Dev.doDcExtents
  repeat' first
    | with_reducible assumption
    | (intro v; refine (fun hv : init.Leads v => ?_) ?_; rotate_left; subst v)
    | (intro v; refine (fun hv : init.Leads v.1 => ?_) ?_; rotate_left; subst v)
    | (intro v; refine (fun hv : init.Leads v.2 => ?_) ?_; rotate_left; subst v)
    | intro _
    | (extract_lets -lift +onlyGivenNames w; revert w)
    | dsimp -zeta -zetaDelta only
    | with_reducible apply Dev.mbOk_leads
    | with_reducible apply Dev.ticks_leads
    | (simp [*]; done)
    | (split <;> try (rename_i e; try obtain rfl := congrArg Prod.fst e; try obtain rfl := congrArg Prod.snd e))

@[simp] theorem Dev.setExtent_leads {init d : Dev} (e : Extent) (state : Nat) (h : init.Leads d) : init.Leads (Dev.setExtent d e state) := by
  simp [Dev.setExtent, h]

@[simp] theorem Dev.doDcAccept_leads {init d : Dev} (p : Path) (start : Nat) (size : Nat) (h : init.Leads d) : init.Leads (Dev.doDcAccept d p start size) := by
  unfold Dev.doDcAccept
  repeat' first
    | with_reducible assumption
    | (intro v; refine (fun hv : init.Leads v => ?_) ?_; rotate_left; subst v)
    | (intro v; refine (fun hv : init.Leads v.1 => ?_) ?_; rotate_left; subst v)
    | (intro v; refine (fun hv : init.Leads v.2 => ?_) ?_; rotate_left; subst v)
    | intro _
    | (extract_lets -lift +onlyGivenNames w; revert w)
    | dsimp -zeta -zetaDelta only
    | with_reducible apply Dev.mbReply_leads
    | with_reducible apply Dev.mbOk_leads
    | with_reducible apply Dev.setExtent_leads
    | (simp [*]; done)
    | (split <;> try (rename_i e; try obtain rfl := congrArg Prod.fst e; try obtain rfl := congrArg Prod.snd e))

@[simp] theorem Dev.doDcRelease_leads {init d : Dev} (p : Path) (start : Nat) (size : Nat) (h : init.Leads d) : init.Leads (Dev.doDcRelease d p start size) := by
  unfold Dev.doDcRelease
  repeat' first
    | with_reducible assumption
    | (intro v; refine (fun hv : init.Leads v => ?_) ?_; rotate_left; subst v)
    | (intro v; refine (fun hv : init.Leads v.1 => ?_) ?_; rotate_left; subst v)
    | (intro v; refine (fun hv : init.Leads v.2 => ?_) ?_; rotate_left; subst v)
    | intro _
    | (extract_lets -lift +onlyGivenNames w; revert w)
    | dsimp -zeta -zetaDelta only
    | with_reducible apply Dev.mbReply_leads
    | with_reducible apply Dev.mbHold_leads
    | with_reducible apply Dev.setExtent_leads
    | (simp [*]; done)
    | (split <;> try (rename_i e; try obtain rfl := congrArg Prod.fst e; try obtain rfl := congrArg Prod.snd e))

@[simp] theorem Dev.dcReleased_leads {init d : Dev} (h : init.Leads d) : init.Leads (Dev.dcReleased d) := by
  unfold Dev.dcReleased
  repeat' first
    | with_reducible assumption
    | (intro v; refine (fun hv : init.Leads v => ?_) ?_; rotate_left; subst v)
    | (intro v; refine (fun hv : init.Leads v.1 => ?_) ?_; rotate_left; subst v)
    | (intro v; refine (fun hv : init.Leads v.2 => ?_) ?_; rotate_left; subst v)
    | intro _
    | (extract_lets -lift +onlyGivenNames w; revert w)
    | dsimp -zeta -zetaDelta only
    | with_reducible apply Dev.mbEnd_leads
    | with_reducible apply Dev.discardRange_leads
    | with_reducible apply Dev.onBacking_leads
    | (simp [*]; done)
    | (split <;> try (rename_i e; try obtain rfl := congrArg Prod.fst e; try obtain rfl := congrArg Prod.snd e))

@[simp] theorem Dev.doQuenchTest_leads {init d : Dev} (p : Path) (mib : Nat) (update : Bool) (h : init.Leads d) : init.Leads (Dev.doQuenchTest d p mib update) := by
  unfold Dev.doQuenchTest
  repeat' first
    | with_reducible assumption
    | (intro v; refine (fun hv : init.Leads v => ?_) ?_; rotate_left; subst v)
    | (intro v; refine (fun hv : init.Leads v.1 => ?_) ?_; rotate_left; subst v)
    | (intro v; refine (fun hv : init.Leads v.2 => ?_) ?_; rotate_left; subst v)
    | intro _
    | (extract_lets -lift +onlyGivenNames w; revert w)
    | dsimp -zeta -zetaDelta only
    | with_reducible apply Dev.mbReply_leads
    | with_reducible apply Dev.mbVendor_leads
    | with_reducible apply Dev.dryStart_leads
    | with_reducible apply Dev.setMbox_leads
    | (simp [*]; done)
    | (split <;> try (rename_i e; try obtain rfl := congrArg Prod.fst e; try obtain rfl := congrArg Prod.snd e))

@[simp] theorem Dev.doQuenchNow_leads {init d : Dev} (p : Path) (confirm : Nat) (h : init.Leads d) : init.Leads (Dev.doQuenchNow d p confirm) := by
  simp [Dev.doQuenchNow, h]

@[simp] theorem Dev.doCeiling_leads {init d : Dev} (p : Path) (h : init.Leads d) : init.Leads (Dev.doCeiling d p) := by
  unfold Dev.doCeiling
  repeat' first
    | with_reducible assumption
    | (intro v; refine (fun hv : init.Leads v => ?_) ?_; rotate_left; subst v)
    | (intro v; refine (fun hv : init.Leads v.1 => ?_) ?_; rotate_left; subst v)
    | (intro v; refine (fun hv : init.Leads v.2 => ?_) ?_; rotate_left; subst v)
    | intro _
    | (extract_lets -lift +onlyGivenNames w; revert w)
    | dsimp -zeta -zetaDelta only
    | with_reducible apply Dev.mbVendor_leads
    | (simp [*]; done)
    | (split <;> try (rename_i e; try obtain rfl := congrArg Prod.fst e; try obtain rfl := congrArg Prod.snd e))

@[simp] theorem Dev.doHeatLength_leads {init d : Dev} (p : Path) (len : Nat) (h : init.Leads d) : init.Leads (Dev.doHeatLength d p len) := by
  unfold Dev.doHeatLength
  repeat' first
    | with_reducible assumption
    | (intro v; refine (fun hv : init.Leads v => ?_) ?_; rotate_left; subst v)
    | (intro v; refine (fun hv : init.Leads v.1 => ?_) ?_; rotate_left; subst v)
    | (intro v; refine (fun hv : init.Leads v.2 => ?_) ?_; rotate_left; subst v)
    | intro _
    | (extract_lets -lift +onlyGivenNames w; revert w)
    | dsimp -zeta -zetaDelta only
    | with_reducible apply Dev.mbVendor_leads
    | with_reducible apply Dev.writeHeatCtrl_leads
    | (simp [*]; done)
    | (split <;> try (rename_i e; try obtain rfl := congrArg Prod.fst e; try obtain rfl := congrArg Prod.snd e))

@[simp] theorem Dev.doHeatClose_leads {init d : Dev} (p : Path) (h : init.Leads d) : init.Leads (Dev.doHeatClose d p) := by
  simp [Dev.doHeatClose, h]

@[simp] theorem Dev.doCacheMode_leads {init d : Dev} (p : Path) (mode : Nat) (h : init.Leads d) : init.Leads (Dev.doCacheMode d p mode) := by
  unfold Dev.doCacheMode
  repeat' first
    | with_reducible assumption
    | (intro v; refine (fun hv : init.Leads v => ?_) ?_; rotate_left; subst v)
    | (intro v; refine (fun hv : init.Leads v.1 => ?_) ?_; rotate_left; subst v)
    | (intro v; refine (fun hv : init.Leads v.2 => ?_) ?_; rotate_left; subst v)
    | intro _
    | (extract_lets -lift +onlyGivenNames w; revert w)
    | dsimp -zeta -zetaDelta only
    | with_reducible apply Dev.mbVendor_leads
    | with_reducible apply Dev.modeRequest_leads
    | (simp [*]; done)
    | (split <;> try (rename_i e; try obtain rfl := congrArg Prod.fst e; try obtain rfl := congrArg Prod.snd e))

@[simp] theorem Dev.doMaint_leads {init d : Dev} (p : Path) (dpa : Nat) (count : Nat) (op : Nat) (discard : Bool) (h : init.Leads d) : init.Leads (Dev.doMaint d p dpa count op discard) := by
  unfold Dev.doMaint
  repeat' first
    | with_reducible assumption
    | (intro v; refine (fun hv : init.Leads v => ?_) ?_; rotate_left; subst v)
    | (intro v; refine (fun hv : init.Leads v.1 => ?_) ?_; rotate_left; subst v)
    | (intro v; refine (fun hv : init.Leads v.2 => ?_) ?_; rotate_left; subst v)
    | intro _
    | (extract_lets -lift +onlyGivenNames w; revert w)
    | dsimp -zeta -zetaDelta only
    | with_reducible apply Dev.mbVendor_leads
    | with_reducible apply Dev.mbHold_leads
    | with_reducible apply Dev.addMaint_leads
    | (simp [*]; done)
    | (split <;> try (rename_i e; try obtain rfl := congrArg Prod.fst e; try obtain rfl := congrArg Prod.snd e))

@[simp] theorem Dev.doEnergy_leads {init d : Dev} (p : Path) (h : init.Leads d) : init.Leads (Dev.doEnergy d p) := by
  simp [Dev.doEnergy, h]

@[simp] theorem Dev.doLearn_leads {init d : Dev} (p : Path) (n : Nat) (h : init.Leads d) : init.Leads (Dev.doLearn d p n) := by
  unfold Dev.doLearn
  repeat' first
    | with_reducible assumption
    | (intro v; refine (fun hv : init.Leads v => ?_) ?_; rotate_left; subst v)
    | (intro v; refine (fun hv : init.Leads v.1 => ?_) ?_; rotate_left; subst v)
    | (intro v; refine (fun hv : init.Leads v.2 => ?_) ?_; rotate_left; subst v)
    | intro _
    | (extract_lets -lift +onlyGivenNames w; revert w)
    | dsimp -zeta -zetaDelta only
    | with_reducible apply Dev.mbVendor_leads
    | (simp [*]; done)
    | (split <;> try (rename_i e; try obtain rfl := congrArg Prod.fst e; try obtain rfl := congrArg Prod.snd e))

@[simp] theorem Dev.doLearnCancel_leads {init d : Dev} (p : Path) (n : Nat) (h : init.Leads d) : init.Leads (Dev.doLearnCancel d p n) := by
  unfold Dev.doLearnCancel
  repeat' first
    | with_reducible assumption
    | (intro v; refine (fun hv : init.Leads v => ?_) ?_; rotate_left; subst v)
    | (intro v; refine (fun hv : init.Leads v.1 => ?_) ?_; rotate_left; subst v)
    | (intro v; refine (fun hv : init.Leads v.2 => ?_) ?_; rotate_left; subst v)
    | intro _
    | (extract_lets -lift +onlyGivenNames w; revert w)
    | dsimp -zeta -zetaDelta only
    | with_reducible apply Dev.mbVendor_leads
    | with_reducible apply Dev.cancelLearn_leads
    | (simp [*]; done)
    | (split <;> try (rename_i e; try obtain rfl := congrArg Prod.fst e; try obtain rfl := congrArg Prod.snd e))

@[simp] theorem Dev.doReadLeaf_leads {init d : Dev} (p : Path) (leaf : Nat) (max : Nat) (start : Nat) (h : init.Leads d) : init.Leads (Dev.doReadLeaf d p leaf max start) := by
  unfold Dev.doReadLeaf
  repeat' first
    | with_reducible assumption
    | (intro v; refine (fun hv : init.Leads v => ?_) ?_; rotate_left; subst v)
    | (intro v; refine (fun hv : init.Leads v.1 => ?_) ?_; rotate_left; subst v)
    | (intro v; refine (fun hv : init.Leads v.2 => ?_) ?_; rotate_left; subst v)
    | intro _
    | (extract_lets -lift +onlyGivenNames w; revert w)
    | dsimp -zeta -zetaDelta only
    | with_reducible apply Dev.mbVendor_leads
    | (simp [*]; done)
    | (split <;> try (rename_i e; try obtain rfl := congrArg Prod.fst e; try obtain rfl := congrArg Prod.snd e))

@[simp] theorem Dev.doClearLeaf_leads {init d : Dev} (p : Path) (leaf : Nat) (authority : Nat) (h : init.Leads d) : init.Leads (Dev.doClearLeaf d p leaf authority) := by
  unfold Dev.doClearLeaf
  repeat' first
    | with_reducible assumption
    | (intro v; refine (fun hv : init.Leads v => ?_) ?_; rotate_left; subst v)
    | (intro v; refine (fun hv : init.Leads v.1 => ?_) ?_; rotate_left; subst v)
    | (intro v; refine (fun hv : init.Leads v.2 => ?_) ?_; rotate_left; subst v)
    | intro _
    | (extract_lets -lift +onlyGivenNames w; revert w)
    | dsimp -zeta -zetaDelta only
    | with_reducible apply Dev.setB_leads
    | with_reducible apply Dev.viewAdd_leads
    | with_reducible apply Dev.tmpEraseSector_leads
    | with_reducible apply Dev.leafPointer_leads
    | with_reducible apply Dev.leafProgram_leads
    | with_reducible apply Dev.ownRecord_leads
    | with_reducible apply Dev.mbVendor_leads
    | (simp [*]; done)
    | (split <;> try (rename_i e; try obtain rfl := congrArg Prod.fst e; try obtain rfl := congrArg Prod.snd e))

@[simp] theorem Dev.doPoolStatus_leads {init d : Dev} (p : Path) (die : Nat) (h : init.Leads d) : init.Leads (Dev.doPoolStatus d p die) := by
  unfold Dev.doPoolStatus
  repeat' first
    | with_reducible assumption
    | (intro v; refine (fun hv : init.Leads v => ?_) ?_; rotate_left; subst v)
    | (intro v; refine (fun hv : init.Leads v.1 => ?_) ?_; rotate_left; subst v)
    | (intro v; refine (fun hv : init.Leads v.2 => ?_) ?_; rotate_left; subst v)
    | intro _
    | (extract_lets -lift +onlyGivenNames w; revert w)
    | dsimp -zeta -zetaDelta only
    | with_reducible apply Dev.mbVendor_leads
    | (simp [*]; done)
    | (split <;> try (rename_i e; try obtain rfl := congrArg Prod.fst e; try obtain rfl := congrArg Prod.snd e))

@[simp] theorem Dev.doPartial_leads {init d : Dev} (p : Path) (image : List Byte) (signatureOk : Bool) (h : init.Leads d) : init.Leads (Dev.doPartial d p image signatureOk) := by
  unfold Dev.doPartial
  repeat' first
    | with_reducible assumption
    | (intro v; refine (fun hv : init.Leads v => ?_) ?_; rotate_left; subst v)
    | (intro v; refine (fun hv : init.Leads v.1 => ?_) ?_; rotate_left; subst v)
    | (intro v; refine (fun hv : init.Leads v.2 => ?_) ?_; rotate_left; subst v)
    | intro _
    | (extract_lets -lift +onlyGivenNames w; revert w)
    | dsimp -zeta -zetaDelta only
    | with_reducible apply Dev.setF_leads
    | with_reducible apply Dev.setB_leads
    | with_reducible apply Dev.raiseB_leads
    | with_reducible apply Dev.mbVendor_leads
    | with_reducible apply Dev.showPartial_leads
    | (simp [*]; done)
    | (split <;> try (rename_i e; try obtain rfl := congrArg Prod.fst e; try obtain rfl := congrArg Prod.snd e))

@[simp] theorem Dev.doNoQuench_leads {init d : Dev} (p : Path) (confirm : Nat) (ms : Nat) (authority : Nat) (h : init.Leads d) : init.Leads (Dev.doNoQuench d p confirm ms authority) := by
  unfold Dev.doNoQuench
  repeat' first
    | with_reducible assumption
    | (intro v; refine (fun hv : init.Leads v => ?_) ?_; rotate_left; subst v)
    | (intro v; refine (fun hv : init.Leads v.1 => ?_) ?_; rotate_left; subst v)
    | (intro v; refine (fun hv : init.Leads v.2 => ?_) ?_; rotate_left; subst v)
    | intro _
    | (extract_lets -lift +onlyGivenNames w; revert w)
    | dsimp -zeta -zetaDelta only
    | with_reducible apply Dev.setB_leads
    | with_reducible apply Dev.raiseB_leads
    | with_reducible apply Dev.mbVendor_leads
    | with_reducible apply Dev.setRst_leads
    | (simp [*]; done)
    | (split <;> try (rename_i e; try obtain rfl := congrArg Prod.fst e; try obtain rfl := congrArg Prod.snd e))

@[simp] theorem Dev.doWeldStatus_leads {init d : Dev} (p : Path) (h : init.Leads d) : init.Leads (Dev.doWeldStatus d p) := by
  unfold Dev.doWeldStatus
  repeat' first
    | with_reducible assumption
    | (intro v; refine (fun hv : init.Leads v => ?_) ?_; rotate_left; subst v)
    | (intro v; refine (fun hv : init.Leads v.1 => ?_) ?_; rotate_left; subst v)
    | (intro v; refine (fun hv : init.Leads v.2 => ?_) ?_; rotate_left; subst v)
    | intro _
    | (extract_lets -lift +onlyGivenNames w; revert w)
    | dsimp -zeta -zetaDelta only
    | with_reducible apply Dev.mbVendor_leads
    | (simp [*]; done)
    | (split <;> try (rename_i e; try obtain rfl := congrArg Prod.fst e; try obtain rfl := congrArg Prod.snd e))

@[simp] theorem Dev.mbDo_leads {init d : Dev} (i : Instr) (h : init.Leads d) : init.Leads (Dev.mbDo d i) := by
  unfold Dev.mbDo
  repeat' first
    | with_reducible assumption
    | (intro v; refine (fun hv : init.Leads v => ?_) ?_; rotate_left; subst v)
    | (intro v; refine (fun hv : init.Leads v.1 => ?_) ?_; rotate_left; subst v)
    | (intro v; refine (fun hv : init.Leads v.2 => ?_) ?_; rotate_left; subst v)
    | intro _
    | (extract_lets -lift +onlyGivenNames w; revert w)
    | dsimp -zeta -zetaDelta only
    | with_reducible apply Dev.mbReply_leads
    | with_reducible apply Dev.mbVendor_leads
    | with_reducible apply Dev.mbOk_leads
    | with_reducible apply Dev.mbRun_leads
    | with_reducible apply Dev.doIdentify_leads
    | with_reducible apply Dev.doBackground_leads
    | with_reducible apply Dev.doGetFwInfo_leads
    | with_reducible apply Dev.doTransferFw_leads
    | with_reducible apply Dev.doActivateFw_leads
    | with_reducible apply Dev.doSetTimestamp_leads
    | with_reducible apply Dev.doSupportedLogs_leads
    | with_reducible apply Dev.doGetLog_leads
    | with_reducible apply Dev.doIdentifyMemory_leads
    | with_reducible apply Dev.doHealth_leads
    | with_reducible apply Dev.doGetAlerts_leads
    | with_reducible apply Dev.doSetAlerts_leads
    | with_reducible apply Dev.doSetShutdown_leads
    | with_reducible apply Dev.doGetEvents_leads
    | with_reducible apply Dev.doClearEvents_leads
    | with_reducible apply Dev.doGetPolicy_leads
    | with_reducible apply Dev.doSetPolicy_leads
    | with_reducible apply Dev.doPoisonList_leads
    | with_reducible apply Dev.doInject_leads
    | with_reducible apply Dev.doClearPoison_leads
    | with_reducible apply Dev.doSanitize_leads
    | with_reducible apply Dev.doDcConfig_leads
    | with_reducible apply Dev.doDcExtents_leads
    | with_reducible apply Dev.doDcAccept_leads
    | with_reducible apply Dev.doDcRelease_leads
    | with_reducible apply Dev.doQuenchTest_leads
    | with_reducible apply Dev.doQuenchNow_leads
    | with_reducible apply Dev.doCeiling_leads
    | with_reducible apply Dev.doHeatLength_leads
    | with_reducible apply Dev.doHeatClose_leads
    | with_reducible apply Dev.doCacheMode_leads
    | with_reducible apply Dev.doMaint_leads
    | with_reducible apply Dev.doEnergy_leads
    | with_reducible apply Dev.doLearn_leads
    | with_reducible apply Dev.doLearnCancel_leads
    | with_reducible apply Dev.doReadLeaf_leads
    | with_reducible apply Dev.doClearLeaf_leads
    | with_reducible apply Dev.doPoolStatus_leads
    | with_reducible apply Dev.doPartial_leads
    | with_reducible apply Dev.doNoQuench_leads
    | with_reducible apply Dev.doWeldStatus_leads
    | (simp [*]; done)
    | (split <;> try (rename_i e; try obtain rfl := congrArg Prod.fst e; try obtain rfl := congrArg Prod.snd e))

@[simp] theorem Dev.mbDrain_leads {init : Dev} (n : Nat) {d : Dev} (h : init.Leads d) : init.Leads (Dev.mbDrain n d) := by
  induction n generalizing d with
  | zero => exact h
  | succ n ih =>
    unfold Dev.mbDrain
    split
    · exact ih (Dev.mbDo_leads _ (Dev.setMbox_leads _ h))
    · exact h

@[simp] theorem Dev.ring_leads {init d : Dev} (i : Instr) (h : init.Leads d) : init.Leads (d.ring i) := by
  unfold Dev.ring
  exact Dev.leads_ite (Dev.setMbox_leads _ (Dev.mbDrain_leads _ h)) (Dev.mbDo_leads _ (Dev.mbDrain_leads _ h))

theorem execIdentify_runs (mb : Mb) (s : State) : s.Runs (execIdentify mb s) := by
  unfold execIdentify
  refine State.on_runs fun init => ?_
  have h := Dev.Leads.refl init
  repeat' first
    | with_reducible assumption
    | intro _
    | with_reducible apply Dev.ring_leads
    | (simp [*]; done)

theorem execBackgroundOperationStatus_runs (mb : Mb) (s : State) : s.Runs (execBackgroundOperationStatus mb s) := by
  unfold execBackgroundOperationStatus
  refine State.on_runs fun init => ?_
  have h := Dev.Leads.refl init
  repeat' first
    | with_reducible assumption
    | intro _
    | with_reducible apply Dev.ring_leads
    | (simp [*]; done)

theorem execGetEventRecords_runs (mb : Mb) (log : Nat) (s : State) : s.Runs (execGetEventRecords mb log s) := by
  unfold execGetEventRecords
  refine State.on_runs fun init => ?_
  have h := Dev.Leads.refl init
  repeat' first
    | with_reducible assumption
    | intro _
    | with_reducible apply Dev.ring_leads
    | (simp [*]; done)

theorem execClearEventRecords_runs (mb : Mb) (log : Nat) (all : Bool) (handles : List Nat) (s : State) : s.Runs (execClearEventRecords mb log all handles s) := by
  unfold execClearEventRecords
  refine State.on_runs fun init => ?_
  have h := Dev.Leads.refl init
  repeat' first
    | with_reducible assumption
    | intro _
    | with_reducible apply Dev.ring_leads
    | (simp [*]; done)

theorem execGetEventInterruptPolicy_runs (mb : Mb) (s : State) : s.Runs (execGetEventInterruptPolicy mb s) := by
  unfold execGetEventInterruptPolicy
  refine State.on_runs fun init => ?_
  have h := Dev.Leads.refl init
  repeat' first
    | with_reducible assumption
    | intro _
    | with_reducible apply Dev.ring_leads
    | (simp [*]; done)

theorem execSetEventInterruptPolicy_runs (mb : Mb) (info warning failure fatal : Bool) (s : State) : s.Runs (execSetEventInterruptPolicy mb info warning failure fatal s) := by
  unfold execSetEventInterruptPolicy
  refine State.on_runs fun init => ?_
  have h := Dev.Leads.refl init
  repeat' first
    | with_reducible assumption
    | intro _
    | with_reducible apply Dev.ring_leads
    | (simp [*]; done)

theorem execGetFwInfo_runs (mb : Mb) (s : State) : s.Runs (execGetFwInfo mb s) := by
  unfold execGetFwInfo
  refine State.on_runs fun init => ?_
  have h := Dev.Leads.refl init
  repeat' first
    | with_reducible assumption
    | intro _
    | with_reducible apply Dev.ring_leads
    | (simp [*]; done)

theorem execTransferFw_runs (mb : Mb) (slot revision : Nat) (verifies : Bool) (s : State) : s.Runs (execTransferFw mb slot revision verifies s) := by
  unfold execTransferFw
  refine State.on_runs fun init => ?_
  have h := Dev.Leads.refl init
  repeat' first
    | with_reducible assumption
    | intro _
    | with_reducible apply Dev.ring_leads
    | (simp [*]; done)

theorem execActivateFw_runs (mb : Mb) (slot : Nat) (online : Bool) (s : State) : s.Runs (execActivateFw mb slot online s) := by
  unfold execActivateFw
  refine State.on_runs fun init => ?_
  have h := Dev.Leads.refl init
  repeat' first
    | with_reducible assumption
    | intro _
    | with_reducible apply Dev.ring_leads
    | (simp [*]; done)

theorem execGetTimestamp_runs (mb : Mb) (s : State) : s.Runs (execGetTimestamp mb s) := by
  unfold execGetTimestamp
  refine State.on_runs fun init => ?_
  have h := Dev.Leads.refl init
  repeat' first
    | with_reducible assumption
    | intro _
    | with_reducible apply Dev.ring_leads
    | (simp [*]; done)

theorem execSetTimestamp_runs (mb : Mb) (value : Nat) (s : State) : s.Runs (execSetTimestamp mb value s) := by
  unfold execSetTimestamp
  refine State.on_runs fun init => ?_
  have h := Dev.Leads.refl init
  repeat' first
    | with_reducible assumption
    | intro _
    | with_reducible apply Dev.ring_leads
    | (simp [*]; done)

theorem execGetSupportedLogs_runs (mb : Mb) (s : State) : s.Runs (execGetSupportedLogs mb s) := by
  unfold execGetSupportedLogs
  refine State.on_runs fun init => ?_
  have h := Dev.Leads.refl init
  repeat' first
    | with_reducible assumption
    | intro _
    | with_reducible apply Dev.ring_leads
    | (simp [*]; done)

theorem execGetLog_runs (mb : Mb) (log offset length : Nat) (s : State) : s.Runs (execGetLog mb log offset length s) := by
  unfold execGetLog
  refine State.on_runs fun init => ?_
  have h := Dev.Leads.refl init
  repeat' first
    | with_reducible assumption
    | intro _
    | with_reducible apply Dev.ring_leads
    | (simp [*]; done)

theorem execIdentifyMemoryDevice_runs (mb : Mb) (s : State) : s.Runs (execIdentifyMemoryDevice mb s) := by
  unfold execIdentifyMemoryDevice
  refine State.on_runs fun init => ?_
  have h := Dev.Leads.refl init
  repeat' first
    | with_reducible assumption
    | intro _
    | with_reducible apply Dev.ring_leads
    | (simp [*]; done)

theorem execGetHealthInfo_runs (mb : Mb) (s : State) : s.Runs (execGetHealthInfo mb s) := by
  unfold execGetHealthInfo
  refine State.on_runs fun init => ?_
  have h := Dev.Leads.refl init
  repeat' first
    | with_reducible assumption
    | intro _
    | with_reducible apply Dev.ring_leads
    | (simp [*]; done)

theorem execGetAlertConfiguration_runs (mb : Mb) (s : State) : s.Runs (execGetAlertConfiguration mb s) := by
  unfold execGetAlertConfiguration
  refine State.on_runs fun init => ?_
  have h := Dev.Leads.refl init
  repeat' first
    | with_reducible assumption
    | intro _
    | with_reducible apply Dev.ring_leads
    | (simp [*]; done)

theorem execSetAlertConfiguration_runs (mb : Mb) (valid enable life temp ce : Nat) (s : State) : s.Runs (execSetAlertConfiguration mb valid enable life temp ce s) := by
  unfold execSetAlertConfiguration
  refine State.on_runs fun init => ?_
  have h := Dev.Leads.refl init
  repeat' first
    | with_reducible assumption
    | intro _
    | with_reducible apply Dev.ring_leads
    | (simp [*]; done)

theorem execGetShutdownState_runs (mb : Mb) (s : State) : s.Runs (execGetShutdownState mb s) := by
  unfold execGetShutdownState
  refine State.on_runs fun init => ?_
  have h := Dev.Leads.refl init
  repeat' first
    | with_reducible assumption
    | intro _
    | with_reducible apply Dev.ring_leads
    | (simp [*]; done)

theorem execSetShutdownState_runs (mb : Mb) (dirty : Bool) (s : State) : s.Runs (execSetShutdownState mb dirty s) := by
  unfold execSetShutdownState
  refine State.on_runs fun init => ?_
  have h := Dev.Leads.refl init
  repeat' first
    | with_reducible assumption
    | intro _
    | with_reducible apply Dev.ring_leads
    | (simp [*]; done)

theorem execGetPoisonList_runs (mb : Mb) (dpa lines : Nat) (s : State) : s.Runs (execGetPoisonList mb dpa lines s) := by
  unfold execGetPoisonList
  refine State.on_runs fun init => ?_
  have h := Dev.Leads.refl init
  repeat' first
    | with_reducible assumption
    | intro _
    | with_reducible apply Dev.ring_leads
    | (simp [*]; done)

theorem execInjectPoison_runs (mb : Mb) (dpa : Nat) (s : State) : s.Runs (execInjectPoison mb dpa s) := by
  unfold execInjectPoison
  refine State.on_runs fun init => ?_
  have h := Dev.Leads.refl init
  repeat' first
    | with_reducible assumption
    | intro _
    | with_reducible apply Dev.ring_leads
    | (simp [*]; done)

theorem execClearPoison_runs (mb : Mb) (dpa : Nat) (data : Line) (s : State) : s.Runs (execClearPoison mb dpa data s) := by
  unfold execClearPoison
  refine State.on_runs fun init => ?_
  have h := Dev.Leads.refl init
  repeat' first
    | with_reducible assumption
    | intro _
    | with_reducible apply Dev.ring_leads
    | (simp [*]; done)

theorem execSanitize_runs (mb : Mb) (s : State) : s.Runs (execSanitize mb s) := by
  unfold execSanitize
  refine State.on_runs fun init => ?_
  have h := Dev.Leads.refl init
  repeat' first
    | with_reducible assumption
    | intro _
    | with_reducible apply Dev.ring_leads
    | (simp [*]; done)

theorem execGetDcConfiguration_runs (mb : Mb) (first count : Nat) (s : State) : s.Runs (execGetDcConfiguration mb first count s) := by
  unfold execGetDcConfiguration
  refine State.on_runs fun init => ?_
  have h := Dev.Leads.refl init
  repeat' first
    | with_reducible assumption
    | intro _
    | with_reducible apply Dev.ring_leads
    | (simp [*]; done)

theorem execGetDcExtentList_runs (mb : Mb) (first count : Nat) (s : State) : s.Runs (execGetDcExtentList mb first count s) := by
  unfold execGetDcExtentList
  refine State.on_runs fun init => ?_
  have h := Dev.Leads.refl init
  repeat' first
    | with_reducible assumption
    | intro _
    | with_reducible apply Dev.ring_leads
    | (simp [*]; done)

theorem execAddDcResponse_runs (mb : Mb) (start size : Nat) (s : State) : s.Runs (execAddDcResponse mb start size s) := by
  unfold execAddDcResponse
  refine State.on_runs fun init => ?_
  have h := Dev.Leads.refl init
  repeat' first
    | with_reducible assumption
    | intro _
    | with_reducible apply Dev.ring_leads
    | (simp [*]; done)

theorem execReleaseDc_runs (mb : Mb) (start size : Nat) (s : State) : s.Runs (execReleaseDc mb start size s) := by
  unfold execReleaseDc
  refine State.on_runs fun init => ?_
  have h := Dev.Leads.refl init
  repeat' first
    | with_reducible assumption
    | intro _
    | with_reducible apply Dev.ring_leads
    | (simp [*]; done)

theorem execUnsupportedCommand_runs (mb : Mb) (opcode : Nat) (s : State) : s.Runs (execUnsupportedCommand mb opcode s) := by
  unfold execUnsupportedCommand
  refine State.on_runs fun init => ?_
  have h := Dev.Leads.refl init
  repeat' first
    | with_reducible assumption
    | intro _
    | with_reducible apply Dev.ring_leads
    | (simp [*]; done)

theorem execQuenchTest_runs (mb : Mb) (sampleMib : Nat) (update : Bool) (s : State) : s.Runs (execQuenchTest mb sampleMib update s) := by
  unfold execQuenchTest
  refine State.on_runs fun init => ?_
  have h := Dev.Leads.refl init
  repeat' first
    | with_reducible assumption
    | intro _
    | with_reducible apply Dev.ring_leads
    | (simp [*]; done)

theorem execQuenchNow_runs (mb : Mb) (confirm : Nat) (s : State) : s.Runs (execQuenchNow mb confirm s) := by
  unfold execQuenchNow
  refine State.on_runs fun init => ?_
  have h := Dev.Leads.refl init
  repeat' first
    | with_reducible assumption
    | intro _
    | with_reducible apply Dev.ring_leads
    | (simp [*]; done)

theorem execCeilingQuery_runs (mb : Mb) (s : State) : s.Runs (execCeilingQuery mb s) := by
  unfold execCeilingQuery
  refine State.on_runs fun init => ?_
  have h := Dev.Leads.refl init
  repeat' first
    | with_reducible assumption
    | intro _
    | with_reducible apply Dev.ring_leads
    | (simp [*]; done)

theorem execHeatControlRead_runs (mb : Mb) (s : State) : s.Runs (execHeatControlRead mb s) := by
  unfold execHeatControlRead
  refine State.on_runs fun init => ?_
  have h := Dev.Leads.refl init
  repeat' first
    | with_reducible assumption
    | intro _
    | with_reducible apply Dev.ring_leads
    | (simp [*]; done)

theorem execHeatControlSetLength_runs (mb : Mb) (lengthUs : Nat) (s : State) : s.Runs (execHeatControlSetLength mb lengthUs s) := by
  unfold execHeatControlSetLength
  refine State.on_runs fun init => ?_
  have h := Dev.Leads.refl init
  repeat' first
    | with_reducible assumption
    | intro _
    | with_reducible apply Dev.ring_leads
    | (simp [*]; done)

theorem execHeatControlCloseNow_runs (mb : Mb) (s : State) : s.Runs (execHeatControlCloseNow mb s) := by
  unfold execHeatControlCloseNow
  refine State.on_runs fun init => ?_
  have h := Dev.Leads.refl init
  repeat' first
    | with_reducible assumption
    | intro _
    | with_reducible apply Dev.ring_leads
    | (simp [*]; done)

theorem execCacheMode_runs (mb : Mb) (mode : Nat) (s : State) : s.Runs (execCacheMode mb mode s) := by
  unfold execCacheMode
  refine State.on_runs fun init => ?_
  have h := Dev.Leads.refl init
  repeat' first
    | with_reducible assumption
    | intro _
    | with_reducible apply Dev.ring_leads
    | (simp [*]; done)

theorem execCacheModeQuery_runs (mb : Mb) (s : State) : s.Runs (execCacheModeQuery mb s) := by
  unfold execCacheModeQuery
  refine State.on_runs fun init => ?_
  have h := Dev.Leads.refl init
  repeat' first
    | with_reducible assumption
    | intro _
    | with_reducible apply Dev.ring_leads
    | (simp [*]; done)

theorem execMaintByAddr_runs (mb : Mb) (dpaStart slabCount op : Nat) (discard : Bool) (s : State) : s.Runs (execMaintByAddr mb dpaStart slabCount op discard s) := by
  unfold execMaintByAddr
  refine State.on_runs fun init => ?_
  have h := Dev.Leads.refl init
  repeat' first
    | with_reducible assumption
    | intro _
    | with_reducible apply Dev.ring_leads
    | (simp [*]; done)

theorem execEnergyStatus_runs (mb : Mb) (s : State) : s.Runs (execEnergyStatus mb s) := by
  unfold execEnergyStatus
  refine State.on_runs fun init => ?_
  have h := Dev.Leads.refl init
  repeat' first
    | with_reducible assumption
    | intro _
    | with_reducible apply Dev.ring_leads
    | (simp [*]; done)

theorem execBatteryLearnSchedule_runs (mb : Mb) (string : Nat) (s : State) : s.Runs (execBatteryLearnSchedule mb string s) := by
  unfold execBatteryLearnSchedule
  refine State.on_runs fun init => ?_
  have h := Dev.Leads.refl init
  repeat' first
    | with_reducible assumption
    | intro _
    | with_reducible apply Dev.ring_leads
    | (simp [*]; done)

theorem execBatteryLearnCancel_runs (mb : Mb) (string : Nat) (s : State) : s.Runs (execBatteryLearnCancel mb string s) := by
  unfold execBatteryLearnCancel
  refine State.on_runs fun init => ?_
  have h := Dev.Leads.refl init
  repeat' first
    | with_reducible assumption
    | intro _
    | with_reducible apply Dev.ring_leads
    | (simp [*]; done)

theorem execLogReadLeaf_runs (mb : Mb) (leaf maxRecords startSeq : Nat) (s : State) : s.Runs (execLogReadLeaf mb leaf maxRecords startSeq s) := by
  unfold execLogReadLeaf
  refine State.on_runs fun init => ?_
  have h := Dev.Leads.refl init
  repeat' first
    | with_reducible assumption
    | intro _
    | with_reducible apply Dev.ring_leads
    | (simp [*]; done)

theorem execLogClearLeaf_runs (mb : Mb) (leaf : Nat) (s : State) : s.Runs (execLogClearLeaf mb leaf s) := by
  unfold execLogClearLeaf
  refine State.on_runs fun init => ?_
  have h := Dev.Leads.refl init
  repeat' first
    | with_reducible assumption
    | intro _
    | with_reducible apply Dev.ring_leads
    | (simp [*]; done)

theorem execPoolStatus_runs (mb : Mb) (die : Nat) (s : State) : s.Runs (execPoolStatus mb die s) := by
  unfold execPoolStatus
  refine State.on_runs fun init => ?_
  have h := Dev.Leads.refl init
  repeat' first
    | with_reducible assumption
    | intro _
    | with_reducible apply Dev.ring_leads
    | (simp [*]; done)

theorem execSwageApplyPartial_runs (mb : Mb) (image : List Byte) (signatureOk : Bool) (s : State) : s.Runs (execSwageApplyPartial mb image signatureOk s) := by
  unfold execSwageApplyPartial
  refine State.on_runs fun init => ?_
  have h := Dev.Leads.refl init
  repeat' first
    | with_reducible assumption
    | intro _
    | with_reducible apply Dev.ring_leads
    | (simp [*]; done)

theorem execResetNoQuench_runs (mb : Mb) (confirm windowMs : Nat) (s : State) : s.Runs (execResetNoQuench mb confirm windowMs s) := by
  unfold execResetNoQuench
  refine State.on_runs fun init => ?_
  have h := Dev.Leads.refl init
  repeat' first
    | with_reducible assumption
    | intro _
    | with_reducible apply Dev.ring_leads
    | (simp [*]; done)

theorem execWeldStatus_runs (mb : Mb) (s : State) : s.Runs (execWeldStatus mb s) := by
  unfold execWeldStatus
  refine State.on_runs fun init => ?_
  have h := Dev.Leads.refl init
  repeat' first
    | with_reducible assumption
    | intro _
    | with_reducible apply Dev.ring_leads
    | (simp [*]; done)

theorem execSanitizeComplete_runs (s : State) : s.Runs (execSanitizeComplete s) := by
  unfold execSanitizeComplete
  refine State.on_runs fun init => ?_
  have h := Dev.Leads.refl init
  repeat' first
    | with_reducible assumption
    | intro _
    | with_reducible apply Dev.sanitizeEnd_leads
    | (simp [*]; done)

theorem execReleaseDcComplete_runs (s : State) : s.Runs (execReleaseDcComplete s) := by
  unfold execReleaseDcComplete
  refine State.on_runs fun init => ?_
  have h := Dev.Leads.refl init
  repeat' first
    | with_reducible assumption
    | (intro v; refine (fun hv : init.Leads v => ?_) ?_; rotate_left; subst v)
    | intro _
    | (extract_lets -lift +onlyGivenNames w; revert w)
    | with_reducible apply Dev.dcReleased_leads
    | with_reducible apply Dev.mbDrain_leads
    | (simp [*]; done)

theorem execInitiateDcAdd_runs (regionStart regionSize block host start size : Nat) (s : State) : s.Runs (execInitiateDcAdd regionStart regionSize block host start size s) := by
  unfold execInitiateDcAdd
  refine State.on_runs fun init => ?_
  have h := Dev.Leads.refl init
  repeat' first
    | with_reducible assumption
    | intro _
    | with_reducible apply Dev.dcAdd_leads
    | (simp [*]; done)

@[simp] theorem Dev.idle_leads {init d : Dev} (h : init.Leads d) : init.Leads (Dev.idle d) := by
  exact Dev.mbDrain_leads _ ⟨h.mem, h.regs, Nat.le_trans h.time (Nat.le_add_right _ _), h.draws, h.sent, h.part⟩

end Sys2Proof.Machine
end

