-- ==== Sys2Proof/Laws/State.lean ====
section
/-! SUPPORT. What each elementary update of the block does to each of its fields: one lemma per field per update, true by rfl. -/

namespace Sys2Proof.Machine

open Sys2Proof

@[simp] theorem State.on_eq (f : Dev → Dev) (d : Dev) (q : List Instr) : State.on f ⟨d, q⟩ = .next ⟨f d, q⟩ := rfl

section
variable (d : Dev) (f : BackState → BackState)
@[simp] theorem Dev.setBack_now : (d.setBack f).now = d.now := rfl
@[simp] theorem Dev.setBack_free : (d.setBack f).free = d.free := rfl
@[simp] theorem Dev.setBack_out : (d.setBack f).out = d.out := rfl
@[simp] theorem Dev.setBack_regs : (d.setBack f).regs = d.regs := rfl
@[simp] theorem Dev.setBack_quenching : (d.setBack f).quenching = d.quenching := rfl
@[simp] theorem Dev.setBack_fence : (d.setBack f).fence = d.fence := rfl
@[simp] theorem Dev.setBack_committed : (d.setBack f).committed = d.committed := rfl
@[simp] theorem Dev.setBack_pkg : (d.setBack f).pkg = d.pkg := rfl
@[simp] theorem Dev.setBack_swg : (d.setBack f).swg = d.swg := rfl
@[simp] theorem Dev.setBack_mbox : (d.setBack f).mbox = d.mbox := rfl
@[simp] theorem Dev.setBack_evt : (d.setBack f).evt = d.evt := rfl
@[simp] theorem Dev.setBack_tmp : (d.setBack f).tmp = d.tmp := rfl
@[simp] theorem Dev.setBack_pool : (d.setBack f).pool = d.pool := rfl
@[simp] theorem Dev.setBack_fab : (d.setBack f).fab = d.fab := rfl
@[simp] theorem Dev.setBack_cru : (d.setBack f).cru = d.cru := rfl
@[simp] theorem Dev.setBack_heat : (d.setBack f).heat = d.heat := rfl
@[simp] theorem Dev.setBack_ceil : (d.setBack f).ceil = d.ceil := rfl
@[simp] theorem Dev.setBack_back : (d.setBack f).back = f d.back := rfl
@[simp] theorem Dev.setBack_weld : (d.setBack f).weld = d.weld := rfl
@[simp] theorem Dev.setBack_rht : (d.setBack f).rht = d.rht := rfl
@[simp] theorem Dev.setBack_sec : (d.setBack f).sec = d.sec := rfl
@[simp] theorem Dev.setBack_rst : (d.setBack f).rst = d.rst := rfl
@[simp] theorem Dev.setBack_svc : (d.setBack f).svc = d.svc := rfl
@[simp] theorem Dev.setBack_chans : (d.setBack f).chans = d.chans := rfl
@[simp] theorem Dev.setBack_ppr : (d.setBack f).ppr = d.ppr := rfl
@[simp] theorem Dev.setBack_slag : (d.setBack f).slag = d.slag := rfl
@[simp] theorem Dev.setBack_qfl : (d.setBack f).qfl = d.qfl := rfl
@[simp] theorem Dev.setBack_bell : (d.setBack f).bell = d.bell := rfl
@[simp] theorem Dev.setBack_quench : (d.setBack f).quench = d.quench := rfl
@[simp] theorem Dev.setBack_claim : (d.setBack f).claim = d.claim := rfl
@[simp] theorem Dev.setBack_lastSlot : (d.setBack f).lastSlot = d.lastSlot := rfl
@[simp] theorem Dev.setBack_poweredDown : (d.setBack f).poweredDown = d.poweredDown := rfl
@[simp] theorem Dev.setBack_pins : (d.setBack f).pins = d.pins := rfl
end

section
variable (d : Dev) (f : BellState → BellState)
@[simp] theorem Dev.setBell_now : (d.setBell f).now = d.now := rfl
@[simp] theorem Dev.setBell_free : (d.setBell f).free = d.free := rfl
@[simp] theorem Dev.setBell_out : (d.setBell f).out = d.out := rfl
@[simp] theorem Dev.setBell_regs : (d.setBell f).regs = d.regs := rfl
@[simp] theorem Dev.setBell_quenching : (d.setBell f).quenching = d.quenching := rfl
@[simp] theorem Dev.setBell_fence : (d.setBell f).fence = d.fence := rfl
@[simp] theorem Dev.setBell_committed : (d.setBell f).committed = d.committed := rfl
@[simp] theorem Dev.setBell_pkg : (d.setBell f).pkg = d.pkg := rfl
@[simp] theorem Dev.setBell_swg : (d.setBell f).swg = d.swg := rfl
@[simp] theorem Dev.setBell_mbox : (d.setBell f).mbox = d.mbox := rfl
@[simp] theorem Dev.setBell_evt : (d.setBell f).evt = d.evt := rfl
@[simp] theorem Dev.setBell_tmp : (d.setBell f).tmp = d.tmp := rfl
@[simp] theorem Dev.setBell_pool : (d.setBell f).pool = d.pool := rfl
@[simp] theorem Dev.setBell_fab : (d.setBell f).fab = d.fab := rfl
@[simp] theorem Dev.setBell_cru : (d.setBell f).cru = d.cru := rfl
@[simp] theorem Dev.setBell_heat : (d.setBell f).heat = d.heat := rfl
@[simp] theorem Dev.setBell_ceil : (d.setBell f).ceil = d.ceil := rfl
@[simp] theorem Dev.setBell_back : (d.setBell f).back = d.back := rfl
@[simp] theorem Dev.setBell_weld : (d.setBell f).weld = d.weld := rfl
@[simp] theorem Dev.setBell_rht : (d.setBell f).rht = d.rht := rfl
@[simp] theorem Dev.setBell_sec : (d.setBell f).sec = d.sec := rfl
@[simp] theorem Dev.setBell_rst : (d.setBell f).rst = d.rst := rfl
@[simp] theorem Dev.setBell_svc : (d.setBell f).svc = d.svc := rfl
@[simp] theorem Dev.setBell_chans : (d.setBell f).chans = d.chans := rfl
@[simp] theorem Dev.setBell_ppr : (d.setBell f).ppr = d.ppr := rfl
@[simp] theorem Dev.setBell_slag : (d.setBell f).slag = d.slag := rfl
@[simp] theorem Dev.setBell_qfl : (d.setBell f).qfl = d.qfl := rfl
@[simp] theorem Dev.setBell_bell : (d.setBell f).bell = f d.bell := rfl
@[simp] theorem Dev.setBell_quench : (d.setBell f).quench = d.quench := rfl
@[simp] theorem Dev.setBell_claim : (d.setBell f).claim = d.claim := rfl
@[simp] theorem Dev.setBell_lastSlot : (d.setBell f).lastSlot = d.lastSlot := rfl
@[simp] theorem Dev.setBell_poweredDown : (d.setBell f).poweredDown = d.poweredDown := rfl
@[simp] theorem Dev.setBell_pins : (d.setBell f).pins = d.pins := rfl
end

section
variable (d : Dev) (f : CruState → CruState)
@[simp] theorem Dev.setCru_now : (d.setCru f).now = d.now := rfl
@[simp] theorem Dev.setCru_free : (d.setCru f).free = d.free := rfl
@[simp] theorem Dev.setCru_out : (d.setCru f).out = d.out := rfl
@[simp] theorem Dev.setCru_regs : (d.setCru f).regs = d.regs := rfl
@[simp] theorem Dev.setCru_quenching : (d.setCru f).quenching = d.quenching := rfl
@[simp] theorem Dev.setCru_fence : (d.setCru f).fence = d.fence := rfl
@[simp] theorem Dev.setCru_committed : (d.setCru f).committed = d.committed := rfl
@[simp] theorem Dev.setCru_pkg : (d.setCru f).pkg = d.pkg := rfl
@[simp] theorem Dev.setCru_swg : (d.setCru f).swg = d.swg := rfl
@[simp] theorem Dev.setCru_mbox : (d.setCru f).mbox = d.mbox := rfl
@[simp] theorem Dev.setCru_evt : (d.setCru f).evt = d.evt := rfl
@[simp] theorem Dev.setCru_tmp : (d.setCru f).tmp = d.tmp := rfl
@[simp] theorem Dev.setCru_pool : (d.setCru f).pool = d.pool := rfl
@[simp] theorem Dev.setCru_fab : (d.setCru f).fab = d.fab := rfl
@[simp] theorem Dev.setCru_cru : (d.setCru f).cru = f d.cru := rfl
@[simp] theorem Dev.setCru_heat : (d.setCru f).heat = d.heat := rfl
@[simp] theorem Dev.setCru_ceil : (d.setCru f).ceil = d.ceil := rfl
@[simp] theorem Dev.setCru_back : (d.setCru f).back = d.back := rfl
@[simp] theorem Dev.setCru_weld : (d.setCru f).weld = d.weld := rfl
@[simp] theorem Dev.setCru_rht : (d.setCru f).rht = d.rht := rfl
@[simp] theorem Dev.setCru_sec : (d.setCru f).sec = d.sec := rfl
@[simp] theorem Dev.setCru_rst : (d.setCru f).rst = d.rst := rfl
@[simp] theorem Dev.setCru_svc : (d.setCru f).svc = d.svc := rfl
@[simp] theorem Dev.setCru_chans : (d.setCru f).chans = d.chans := rfl
@[simp] theorem Dev.setCru_ppr : (d.setCru f).ppr = d.ppr := rfl
@[simp] theorem Dev.setCru_slag : (d.setCru f).slag = d.slag := rfl
@[simp] theorem Dev.setCru_qfl : (d.setCru f).qfl = d.qfl := rfl
@[simp] theorem Dev.setCru_bell : (d.setCru f).bell = d.bell := rfl
@[simp] theorem Dev.setCru_quench : (d.setCru f).quench = d.quench := rfl
@[simp] theorem Dev.setCru_claim : (d.setCru f).claim = d.claim := rfl
@[simp] theorem Dev.setCru_lastSlot : (d.setCru f).lastSlot = d.lastSlot := rfl
@[simp] theorem Dev.setCru_poweredDown : (d.setCru f).poweredDown = d.poweredDown := rfl
@[simp] theorem Dev.setCru_pins : (d.setCru f).pins = d.pins := rfl
end

section
variable (d : Dev) (f : PkgState → PkgState)
@[simp] theorem Dev.setPkg_now : (d.setPkg f).now = d.now := rfl
@[simp] theorem Dev.setPkg_free : (d.setPkg f).free = d.free := rfl
@[simp] theorem Dev.setPkg_out : (d.setPkg f).out = d.out := rfl
@[simp] theorem Dev.setPkg_regs : (d.setPkg f).regs = d.regs := rfl
@[simp] theorem Dev.setPkg_quenching : (d.setPkg f).quenching = d.quenching := rfl
@[simp] theorem Dev.setPkg_fence : (d.setPkg f).fence = d.fence := rfl
@[simp] theorem Dev.setPkg_committed : (d.setPkg f).committed = d.committed := rfl
@[simp] theorem Dev.setPkg_pkg : (d.setPkg f).pkg = f d.pkg := rfl
@[simp] theorem Dev.setPkg_swg : (d.setPkg f).swg = d.swg := rfl
@[simp] theorem Dev.setPkg_mbox : (d.setPkg f).mbox = d.mbox := rfl
@[simp] theorem Dev.setPkg_evt : (d.setPkg f).evt = d.evt := rfl
@[simp] theorem Dev.setPkg_tmp : (d.setPkg f).tmp = d.tmp := rfl
@[simp] theorem Dev.setPkg_pool : (d.setPkg f).pool = d.pool := rfl
@[simp] theorem Dev.setPkg_fab : (d.setPkg f).fab = d.fab := rfl
@[simp] theorem Dev.setPkg_cru : (d.setPkg f).cru = d.cru := rfl
@[simp] theorem Dev.setPkg_heat : (d.setPkg f).heat = d.heat := rfl
@[simp] theorem Dev.setPkg_ceil : (d.setPkg f).ceil = d.ceil := rfl
@[simp] theorem Dev.setPkg_back : (d.setPkg f).back = d.back := rfl
@[simp] theorem Dev.setPkg_weld : (d.setPkg f).weld = d.weld := rfl
@[simp] theorem Dev.setPkg_rht : (d.setPkg f).rht = d.rht := rfl
@[simp] theorem Dev.setPkg_sec : (d.setPkg f).sec = d.sec := rfl
@[simp] theorem Dev.setPkg_rst : (d.setPkg f).rst = d.rst := rfl
@[simp] theorem Dev.setPkg_svc : (d.setPkg f).svc = d.svc := rfl
@[simp] theorem Dev.setPkg_chans : (d.setPkg f).chans = d.chans := rfl
@[simp] theorem Dev.setPkg_ppr : (d.setPkg f).ppr = d.ppr := rfl
@[simp] theorem Dev.setPkg_slag : (d.setPkg f).slag = d.slag := rfl
@[simp] theorem Dev.setPkg_qfl : (d.setPkg f).qfl = d.qfl := rfl
@[simp] theorem Dev.setPkg_bell : (d.setPkg f).bell = d.bell := rfl
@[simp] theorem Dev.setPkg_quench : (d.setPkg f).quench = d.quench := rfl
@[simp] theorem Dev.setPkg_claim : (d.setPkg f).claim = d.claim := rfl
@[simp] theorem Dev.setPkg_lastSlot : (d.setPkg f).lastSlot = d.lastSlot := rfl
@[simp] theorem Dev.setPkg_poweredDown : (d.setPkg f).poweredDown = d.poweredDown := rfl
@[simp] theorem Dev.setPkg_pins : (d.setPkg f).pins = d.pins := rfl
end

section
variable (d : Dev) (f : CeilState → CeilState)
@[simp] theorem Dev.setCeil_now : (d.setCeil f).now = d.now := rfl
@[simp] theorem Dev.setCeil_free : (d.setCeil f).free = d.free := rfl
@[simp] theorem Dev.setCeil_out : (d.setCeil f).out = d.out := rfl
@[simp] theorem Dev.setCeil_regs : (d.setCeil f).regs = d.regs := rfl
@[simp] theorem Dev.setCeil_quenching : (d.setCeil f).quenching = d.quenching := rfl
@[simp] theorem Dev.setCeil_fence : (d.setCeil f).fence = d.fence := rfl
@[simp] theorem Dev.setCeil_committed : (d.setCeil f).committed = d.committed := rfl
@[simp] theorem Dev.setCeil_pkg : (d.setCeil f).pkg = d.pkg := rfl
@[simp] theorem Dev.setCeil_swg : (d.setCeil f).swg = d.swg := rfl
@[simp] theorem Dev.setCeil_mbox : (d.setCeil f).mbox = d.mbox := rfl
@[simp] theorem Dev.setCeil_evt : (d.setCeil f).evt = d.evt := rfl
@[simp] theorem Dev.setCeil_tmp : (d.setCeil f).tmp = d.tmp := rfl
@[simp] theorem Dev.setCeil_pool : (d.setCeil f).pool = d.pool := rfl
@[simp] theorem Dev.setCeil_fab : (d.setCeil f).fab = d.fab := rfl
@[simp] theorem Dev.setCeil_cru : (d.setCeil f).cru = d.cru := rfl
@[simp] theorem Dev.setCeil_heat : (d.setCeil f).heat = d.heat := rfl
@[simp] theorem Dev.setCeil_ceil : (d.setCeil f).ceil = f d.ceil := rfl
@[simp] theorem Dev.setCeil_back : (d.setCeil f).back = d.back := rfl
@[simp] theorem Dev.setCeil_weld : (d.setCeil f).weld = d.weld := rfl
@[simp] theorem Dev.setCeil_rht : (d.setCeil f).rht = d.rht := rfl
@[simp] theorem Dev.setCeil_sec : (d.setCeil f).sec = d.sec := rfl
@[simp] theorem Dev.setCeil_rst : (d.setCeil f).rst = d.rst := rfl
@[simp] theorem Dev.setCeil_svc : (d.setCeil f).svc = d.svc := rfl
@[simp] theorem Dev.setCeil_chans : (d.setCeil f).chans = d.chans := rfl
@[simp] theorem Dev.setCeil_ppr : (d.setCeil f).ppr = d.ppr := rfl
@[simp] theorem Dev.setCeil_slag : (d.setCeil f).slag = d.slag := rfl
@[simp] theorem Dev.setCeil_qfl : (d.setCeil f).qfl = d.qfl := rfl
@[simp] theorem Dev.setCeil_bell : (d.setCeil f).bell = d.bell := rfl
@[simp] theorem Dev.setCeil_quench : (d.setCeil f).quench = d.quench := rfl
@[simp] theorem Dev.setCeil_claim : (d.setCeil f).claim = d.claim := rfl
@[simp] theorem Dev.setCeil_lastSlot : (d.setCeil f).lastSlot = d.lastSlot := rfl
@[simp] theorem Dev.setCeil_poweredDown : (d.setCeil f).poweredDown = d.poweredDown := rfl
@[simp] theorem Dev.setCeil_pins : (d.setCeil f).pins = d.pins := rfl
end

section
variable (d : Dev) (f : WeldState → WeldState)
@[simp] theorem Dev.setWeld_now : (d.setWeld f).now = d.now := rfl
@[simp] theorem Dev.setWeld_free : (d.setWeld f).free = d.free := rfl
@[simp] theorem Dev.setWeld_out : (d.setWeld f).out = d.out := rfl
@[simp] theorem Dev.setWeld_regs : (d.setWeld f).regs = d.regs := rfl
@[simp] theorem Dev.setWeld_quenching : (d.setWeld f).quenching = d.quenching := rfl
@[simp] theorem Dev.setWeld_fence : (d.setWeld f).fence = d.fence := rfl
@[simp] theorem Dev.setWeld_committed : (d.setWeld f).committed = d.committed := rfl
@[simp] theorem Dev.setWeld_pkg : (d.setWeld f).pkg = d.pkg := rfl
@[simp] theorem Dev.setWeld_swg : (d.setWeld f).swg = d.swg := rfl
@[simp] theorem Dev.setWeld_mbox : (d.setWeld f).mbox = d.mbox := rfl
@[simp] theorem Dev.setWeld_evt : (d.setWeld f).evt = d.evt := rfl
@[simp] theorem Dev.setWeld_tmp : (d.setWeld f).tmp = d.tmp := rfl
@[simp] theorem Dev.setWeld_pool : (d.setWeld f).pool = d.pool := rfl
@[simp] theorem Dev.setWeld_fab : (d.setWeld f).fab = d.fab := rfl
@[simp] theorem Dev.setWeld_cru : (d.setWeld f).cru = d.cru := rfl
@[simp] theorem Dev.setWeld_heat : (d.setWeld f).heat = d.heat := rfl
@[simp] theorem Dev.setWeld_ceil : (d.setWeld f).ceil = d.ceil := rfl
@[simp] theorem Dev.setWeld_back : (d.setWeld f).back = d.back := rfl
@[simp] theorem Dev.setWeld_weld : (d.setWeld f).weld = f d.weld := rfl
@[simp] theorem Dev.setWeld_rht : (d.setWeld f).rht = d.rht := rfl
@[simp] theorem Dev.setWeld_sec : (d.setWeld f).sec = d.sec := rfl
@[simp] theorem Dev.setWeld_rst : (d.setWeld f).rst = d.rst := rfl
@[simp] theorem Dev.setWeld_svc : (d.setWeld f).svc = d.svc := rfl
@[simp] theorem Dev.setWeld_chans : (d.setWeld f).chans = d.chans := rfl
@[simp] theorem Dev.setWeld_ppr : (d.setWeld f).ppr = d.ppr := rfl
@[simp] theorem Dev.setWeld_slag : (d.setWeld f).slag = d.slag := rfl
@[simp] theorem Dev.setWeld_qfl : (d.setWeld f).qfl = d.qfl := rfl
@[simp] theorem Dev.setWeld_bell : (d.setWeld f).bell = d.bell := rfl
@[simp] theorem Dev.setWeld_quench : (d.setWeld f).quench = d.quench := rfl
@[simp] theorem Dev.setWeld_claim : (d.setWeld f).claim = d.claim := rfl
@[simp] theorem Dev.setWeld_lastSlot : (d.setWeld f).lastSlot = d.lastSlot := rfl
@[simp] theorem Dev.setWeld_poweredDown : (d.setWeld f).poweredDown = d.poweredDown := rfl
@[simp] theorem Dev.setWeld_pins : (d.setWeld f).pins = d.pins := rfl
end

section
variable (d : Dev) (f : FabState → FabState)
@[simp] theorem Dev.setFab_now : (d.setFab f).now = d.now := rfl
@[simp] theorem Dev.setFab_free : (d.setFab f).free = d.free := rfl
@[simp] theorem Dev.setFab_out : (d.setFab f).out = d.out := rfl
@[simp] theorem Dev.setFab_regs : (d.setFab f).regs = d.regs := rfl
@[simp] theorem Dev.setFab_quenching : (d.setFab f).quenching = d.quenching := rfl
@[simp] theorem Dev.setFab_fence : (d.setFab f).fence = d.fence := rfl
@[simp] theorem Dev.setFab_committed : (d.setFab f).committed = d.committed := rfl
@[simp] theorem Dev.setFab_pkg : (d.setFab f).pkg = d.pkg := rfl
@[simp] theorem Dev.setFab_swg : (d.setFab f).swg = d.swg := rfl
@[simp] theorem Dev.setFab_mbox : (d.setFab f).mbox = d.mbox := rfl
@[simp] theorem Dev.setFab_evt : (d.setFab f).evt = d.evt := rfl
@[simp] theorem Dev.setFab_tmp : (d.setFab f).tmp = d.tmp := rfl
@[simp] theorem Dev.setFab_pool : (d.setFab f).pool = d.pool := rfl
@[simp] theorem Dev.setFab_fab : (d.setFab f).fab = f d.fab := rfl
@[simp] theorem Dev.setFab_cru : (d.setFab f).cru = d.cru := rfl
@[simp] theorem Dev.setFab_heat : (d.setFab f).heat = d.heat := rfl
@[simp] theorem Dev.setFab_ceil : (d.setFab f).ceil = d.ceil := rfl
@[simp] theorem Dev.setFab_back : (d.setFab f).back = d.back := rfl
@[simp] theorem Dev.setFab_weld : (d.setFab f).weld = d.weld := rfl
@[simp] theorem Dev.setFab_rht : (d.setFab f).rht = d.rht := rfl
@[simp] theorem Dev.setFab_sec : (d.setFab f).sec = d.sec := rfl
@[simp] theorem Dev.setFab_rst : (d.setFab f).rst = d.rst := rfl
@[simp] theorem Dev.setFab_svc : (d.setFab f).svc = d.svc := rfl
@[simp] theorem Dev.setFab_chans : (d.setFab f).chans = d.chans := rfl
@[simp] theorem Dev.setFab_ppr : (d.setFab f).ppr = d.ppr := rfl
@[simp] theorem Dev.setFab_slag : (d.setFab f).slag = d.slag := rfl
@[simp] theorem Dev.setFab_qfl : (d.setFab f).qfl = d.qfl := rfl
@[simp] theorem Dev.setFab_bell : (d.setFab f).bell = d.bell := rfl
@[simp] theorem Dev.setFab_quench : (d.setFab f).quench = d.quench := rfl
@[simp] theorem Dev.setFab_claim : (d.setFab f).claim = d.claim := rfl
@[simp] theorem Dev.setFab_lastSlot : (d.setFab f).lastSlot = d.lastSlot := rfl
@[simp] theorem Dev.setFab_poweredDown : (d.setFab f).poweredDown = d.poweredDown := rfl
@[simp] theorem Dev.setFab_pins : (d.setFab f).pins = d.pins := rfl
end

section
variable (d : Dev) (f : HeatState → HeatState)
@[simp] theorem Dev.setHeat_now : (d.setHeat f).now = d.now := rfl
@[simp] theorem Dev.setHeat_free : (d.setHeat f).free = d.free := rfl
@[simp] theorem Dev.setHeat_out : (d.setHeat f).out = d.out := rfl
@[simp] theorem Dev.setHeat_regs : (d.setHeat f).regs = d.regs := rfl
@[simp] theorem Dev.setHeat_quenching : (d.setHeat f).quenching = d.quenching := rfl
@[simp] theorem Dev.setHeat_fence : (d.setHeat f).fence = d.fence := rfl
@[simp] theorem Dev.setHeat_committed : (d.setHeat f).committed = d.committed := rfl
@[simp] theorem Dev.setHeat_pkg : (d.setHeat f).pkg = d.pkg := rfl
@[simp] theorem Dev.setHeat_swg : (d.setHeat f).swg = d.swg := rfl
@[simp] theorem Dev.setHeat_mbox : (d.setHeat f).mbox = d.mbox := rfl
@[simp] theorem Dev.setHeat_evt : (d.setHeat f).evt = d.evt := rfl
@[simp] theorem Dev.setHeat_tmp : (d.setHeat f).tmp = d.tmp := rfl
@[simp] theorem Dev.setHeat_pool : (d.setHeat f).pool = d.pool := rfl
@[simp] theorem Dev.setHeat_fab : (d.setHeat f).fab = d.fab := rfl
@[simp] theorem Dev.setHeat_cru : (d.setHeat f).cru = d.cru := rfl
@[simp] theorem Dev.setHeat_heat : (d.setHeat f).heat = f d.heat := rfl
@[simp] theorem Dev.setHeat_ceil : (d.setHeat f).ceil = d.ceil := rfl
@[simp] theorem Dev.setHeat_back : (d.setHeat f).back = d.back := rfl
@[simp] theorem Dev.setHeat_weld : (d.setHeat f).weld = d.weld := rfl
@[simp] theorem Dev.setHeat_rht : (d.setHeat f).rht = d.rht := rfl
@[simp] theorem Dev.setHeat_sec : (d.setHeat f).sec = d.sec := rfl
@[simp] theorem Dev.setHeat_rst : (d.setHeat f).rst = d.rst := rfl
@[simp] theorem Dev.setHeat_svc : (d.setHeat f).svc = d.svc := rfl
@[simp] theorem Dev.setHeat_chans : (d.setHeat f).chans = d.chans := rfl
@[simp] theorem Dev.setHeat_ppr : (d.setHeat f).ppr = d.ppr := rfl
@[simp] theorem Dev.setHeat_slag : (d.setHeat f).slag = d.slag := rfl
@[simp] theorem Dev.setHeat_qfl : (d.setHeat f).qfl = d.qfl := rfl
@[simp] theorem Dev.setHeat_bell : (d.setHeat f).bell = d.bell := rfl
@[simp] theorem Dev.setHeat_quench : (d.setHeat f).quench = d.quench := rfl
@[simp] theorem Dev.setHeat_claim : (d.setHeat f).claim = d.claim := rfl
@[simp] theorem Dev.setHeat_lastSlot : (d.setHeat f).lastSlot = d.lastSlot := rfl
@[simp] theorem Dev.setHeat_poweredDown : (d.setHeat f).poweredDown = d.poweredDown := rfl
@[simp] theorem Dev.setHeat_pins : (d.setHeat f).pins = d.pins := rfl
end

section
variable (d : Dev) (f : RhtState → RhtState)
@[simp] theorem Dev.setRht_now : (d.setRht f).now = d.now := rfl
@[simp] theorem Dev.setRht_free : (d.setRht f).free = d.free := rfl
@[simp] theorem Dev.setRht_out : (d.setRht f).out = d.out := rfl
@[simp] theorem Dev.setRht_regs : (d.setRht f).regs = d.regs := rfl
@[simp] theorem Dev.setRht_quenching : (d.setRht f).quenching = d.quenching := rfl
@[simp] theorem Dev.setRht_fence : (d.setRht f).fence = d.fence := rfl
@[simp] theorem Dev.setRht_committed : (d.setRht f).committed = d.committed := rfl
@[simp] theorem Dev.setRht_pkg : (d.setRht f).pkg = d.pkg := rfl
@[simp] theorem Dev.setRht_swg : (d.setRht f).swg = d.swg := rfl
@[simp] theorem Dev.setRht_mbox : (d.setRht f).mbox = d.mbox := rfl
@[simp] theorem Dev.setRht_evt : (d.setRht f).evt = d.evt := rfl
@[simp] theorem Dev.setRht_tmp : (d.setRht f).tmp = d.tmp := rfl
@[simp] theorem Dev.setRht_pool : (d.setRht f).pool = d.pool := rfl
@[simp] theorem Dev.setRht_fab : (d.setRht f).fab = d.fab := rfl
@[simp] theorem Dev.setRht_cru : (d.setRht f).cru = d.cru := rfl
@[simp] theorem Dev.setRht_heat : (d.setRht f).heat = d.heat := rfl
@[simp] theorem Dev.setRht_ceil : (d.setRht f).ceil = d.ceil := rfl
@[simp] theorem Dev.setRht_back : (d.setRht f).back = d.back := rfl
@[simp] theorem Dev.setRht_weld : (d.setRht f).weld = d.weld := rfl
@[simp] theorem Dev.setRht_rht : (d.setRht f).rht = f d.rht := rfl
@[simp] theorem Dev.setRht_sec : (d.setRht f).sec = d.sec := rfl
@[simp] theorem Dev.setRht_rst : (d.setRht f).rst = d.rst := rfl
@[simp] theorem Dev.setRht_svc : (d.setRht f).svc = d.svc := rfl
@[simp] theorem Dev.setRht_chans : (d.setRht f).chans = d.chans := rfl
@[simp] theorem Dev.setRht_ppr : (d.setRht f).ppr = d.ppr := rfl
@[simp] theorem Dev.setRht_slag : (d.setRht f).slag = d.slag := rfl
@[simp] theorem Dev.setRht_qfl : (d.setRht f).qfl = d.qfl := rfl
@[simp] theorem Dev.setRht_bell : (d.setRht f).bell = d.bell := rfl
@[simp] theorem Dev.setRht_quench : (d.setRht f).quench = d.quench := rfl
@[simp] theorem Dev.setRht_claim : (d.setRht f).claim = d.claim := rfl
@[simp] theorem Dev.setRht_lastSlot : (d.setRht f).lastSlot = d.lastSlot := rfl
@[simp] theorem Dev.setRht_poweredDown : (d.setRht f).poweredDown = d.poweredDown := rfl
@[simp] theorem Dev.setRht_pins : (d.setRht f).pins = d.pins := rfl
end

section
variable (d : Dev) (f : MboxState → MboxState)
@[simp] theorem Dev.setMbox_now : (d.setMbox f).now = d.now := rfl
@[simp] theorem Dev.setMbox_free : (d.setMbox f).free = d.free := rfl
@[simp] theorem Dev.setMbox_out : (d.setMbox f).out = d.out := rfl
@[simp] theorem Dev.setMbox_regs : (d.setMbox f).regs = d.regs := rfl
@[simp] theorem Dev.setMbox_quenching : (d.setMbox f).quenching = d.quenching := rfl
@[simp] theorem Dev.setMbox_fence : (d.setMbox f).fence = d.fence := rfl
@[simp] theorem Dev.setMbox_committed : (d.setMbox f).committed = d.committed := rfl
@[simp] theorem Dev.setMbox_pkg : (d.setMbox f).pkg = d.pkg := rfl
@[simp] theorem Dev.setMbox_swg : (d.setMbox f).swg = d.swg := rfl
@[simp] theorem Dev.setMbox_mbox : (d.setMbox f).mbox = f d.mbox := rfl
@[simp] theorem Dev.setMbox_evt : (d.setMbox f).evt = d.evt := rfl
@[simp] theorem Dev.setMbox_tmp : (d.setMbox f).tmp = d.tmp := rfl
@[simp] theorem Dev.setMbox_pool : (d.setMbox f).pool = d.pool := rfl
@[simp] theorem Dev.setMbox_fab : (d.setMbox f).fab = d.fab := rfl
@[simp] theorem Dev.setMbox_cru : (d.setMbox f).cru = d.cru := rfl
@[simp] theorem Dev.setMbox_heat : (d.setMbox f).heat = d.heat := rfl
@[simp] theorem Dev.setMbox_ceil : (d.setMbox f).ceil = d.ceil := rfl
@[simp] theorem Dev.setMbox_back : (d.setMbox f).back = d.back := rfl
@[simp] theorem Dev.setMbox_weld : (d.setMbox f).weld = d.weld := rfl
@[simp] theorem Dev.setMbox_rht : (d.setMbox f).rht = d.rht := rfl
@[simp] theorem Dev.setMbox_sec : (d.setMbox f).sec = d.sec := rfl
@[simp] theorem Dev.setMbox_rst : (d.setMbox f).rst = d.rst := rfl
@[simp] theorem Dev.setMbox_svc : (d.setMbox f).svc = d.svc := rfl
@[simp] theorem Dev.setMbox_chans : (d.setMbox f).chans = d.chans := rfl
@[simp] theorem Dev.setMbox_ppr : (d.setMbox f).ppr = d.ppr := rfl
@[simp] theorem Dev.setMbox_slag : (d.setMbox f).slag = d.slag := rfl
@[simp] theorem Dev.setMbox_qfl : (d.setMbox f).qfl = d.qfl := rfl
@[simp] theorem Dev.setMbox_bell : (d.setMbox f).bell = d.bell := rfl
@[simp] theorem Dev.setMbox_quench : (d.setMbox f).quench = d.quench := rfl
@[simp] theorem Dev.setMbox_claim : (d.setMbox f).claim = d.claim := rfl
@[simp] theorem Dev.setMbox_lastSlot : (d.setMbox f).lastSlot = d.lastSlot := rfl
@[simp] theorem Dev.setMbox_poweredDown : (d.setMbox f).poweredDown = d.poweredDown := rfl
@[simp] theorem Dev.setMbox_pins : (d.setMbox f).pins = d.pins := rfl
end

section
variable (d : Dev) (f : QflState → QflState)
@[simp] theorem Dev.setQfl_now : (d.setQfl f).now = d.now := rfl
@[simp] theorem Dev.setQfl_free : (d.setQfl f).free = d.free := rfl
@[simp] theorem Dev.setQfl_out : (d.setQfl f).out = d.out := rfl
@[simp] theorem Dev.setQfl_regs : (d.setQfl f).regs = d.regs := rfl
@[simp] theorem Dev.setQfl_quenching : (d.setQfl f).quenching = d.quenching := rfl
@[simp] theorem Dev.setQfl_fence : (d.setQfl f).fence = d.fence := rfl
@[simp] theorem Dev.setQfl_committed : (d.setQfl f).committed = d.committed := rfl
@[simp] theorem Dev.setQfl_pkg : (d.setQfl f).pkg = d.pkg := rfl
@[simp] theorem Dev.setQfl_swg : (d.setQfl f).swg = d.swg := rfl
@[simp] theorem Dev.setQfl_mbox : (d.setQfl f).mbox = d.mbox := rfl
@[simp] theorem Dev.setQfl_evt : (d.setQfl f).evt = d.evt := rfl
@[simp] theorem Dev.setQfl_tmp : (d.setQfl f).tmp = d.tmp := rfl
@[simp] theorem Dev.setQfl_pool : (d.setQfl f).pool = d.pool := rfl
@[simp] theorem Dev.setQfl_fab : (d.setQfl f).fab = d.fab := rfl
@[simp] theorem Dev.setQfl_cru : (d.setQfl f).cru = d.cru := rfl
@[simp] theorem Dev.setQfl_heat : (d.setQfl f).heat = d.heat := rfl
@[simp] theorem Dev.setQfl_ceil : (d.setQfl f).ceil = d.ceil := rfl
@[simp] theorem Dev.setQfl_back : (d.setQfl f).back = d.back := rfl
@[simp] theorem Dev.setQfl_weld : (d.setQfl f).weld = d.weld := rfl
@[simp] theorem Dev.setQfl_rht : (d.setQfl f).rht = d.rht := rfl
@[simp] theorem Dev.setQfl_sec : (d.setQfl f).sec = d.sec := rfl
@[simp] theorem Dev.setQfl_rst : (d.setQfl f).rst = d.rst := rfl
@[simp] theorem Dev.setQfl_svc : (d.setQfl f).svc = d.svc := rfl
@[simp] theorem Dev.setQfl_chans : (d.setQfl f).chans = d.chans := rfl
@[simp] theorem Dev.setQfl_ppr : (d.setQfl f).ppr = d.ppr := rfl
@[simp] theorem Dev.setQfl_slag : (d.setQfl f).slag = d.slag := rfl
@[simp] theorem Dev.setQfl_qfl : (d.setQfl f).qfl = f d.qfl := rfl
@[simp] theorem Dev.setQfl_bell : (d.setQfl f).bell = d.bell := rfl
@[simp] theorem Dev.setQfl_quench : (d.setQfl f).quench = d.quench := rfl
@[simp] theorem Dev.setQfl_claim : (d.setQfl f).claim = d.claim := rfl
@[simp] theorem Dev.setQfl_lastSlot : (d.setQfl f).lastSlot = d.lastSlot := rfl
@[simp] theorem Dev.setQfl_poweredDown : (d.setQfl f).poweredDown = d.poweredDown := rfl
@[simp] theorem Dev.setQfl_pins : (d.setQfl f).pins = d.pins := rfl
end

section
variable (d : Dev) (f : RstState → RstState)
@[simp] theorem Dev.setRst_now : (d.setRst f).now = d.now := rfl
@[simp] theorem Dev.setRst_free : (d.setRst f).free = d.free := rfl
@[simp] theorem Dev.setRst_out : (d.setRst f).out = d.out := rfl
@[simp] theorem Dev.setRst_regs : (d.setRst f).regs = d.regs := rfl
@[simp] theorem Dev.setRst_quenching : (d.setRst f).quenching = d.quenching := rfl
@[simp] theorem Dev.setRst_fence : (d.setRst f).fence = d.fence := rfl
@[simp] theorem Dev.setRst_committed : (d.setRst f).committed = d.committed := rfl
@[simp] theorem Dev.setRst_pkg : (d.setRst f).pkg = d.pkg := rfl
@[simp] theorem Dev.setRst_swg : (d.setRst f).swg = d.swg := rfl
@[simp] theorem Dev.setRst_mbox : (d.setRst f).mbox = d.mbox := rfl
@[simp] theorem Dev.setRst_evt : (d.setRst f).evt = d.evt := rfl
@[simp] theorem Dev.setRst_tmp : (d.setRst f).tmp = d.tmp := rfl
@[simp] theorem Dev.setRst_pool : (d.setRst f).pool = d.pool := rfl
@[simp] theorem Dev.setRst_fab : (d.setRst f).fab = d.fab := rfl
@[simp] theorem Dev.setRst_cru : (d.setRst f).cru = d.cru := rfl
@[simp] theorem Dev.setRst_heat : (d.setRst f).heat = d.heat := rfl
@[simp] theorem Dev.setRst_ceil : (d.setRst f).ceil = d.ceil := rfl
@[simp] theorem Dev.setRst_back : (d.setRst f).back = d.back := rfl
@[simp] theorem Dev.setRst_weld : (d.setRst f).weld = d.weld := rfl
@[simp] theorem Dev.setRst_rht : (d.setRst f).rht = d.rht := rfl
@[simp] theorem Dev.setRst_sec : (d.setRst f).sec = d.sec := rfl
@[simp] theorem Dev.setRst_rst : (d.setRst f).rst = f d.rst := rfl
@[simp] theorem Dev.setRst_svc : (d.setRst f).svc = d.svc := rfl
@[simp] theorem Dev.setRst_chans : (d.setRst f).chans = d.chans := rfl
@[simp] theorem Dev.setRst_ppr : (d.setRst f).ppr = d.ppr := rfl
@[simp] theorem Dev.setRst_slag : (d.setRst f).slag = d.slag := rfl
@[simp] theorem Dev.setRst_qfl : (d.setRst f).qfl = d.qfl := rfl
@[simp] theorem Dev.setRst_bell : (d.setRst f).bell = d.bell := rfl
@[simp] theorem Dev.setRst_quench : (d.setRst f).quench = d.quench := rfl
@[simp] theorem Dev.setRst_claim : (d.setRst f).claim = d.claim := rfl
@[simp] theorem Dev.setRst_lastSlot : (d.setRst f).lastSlot = d.lastSlot := rfl
@[simp] theorem Dev.setRst_poweredDown : (d.setRst f).poweredDown = d.poweredDown := rfl
@[simp] theorem Dev.setRst_pins : (d.setRst f).pins = d.pins := rfl
end

section
variable (d : Dev) (f : SvcState → SvcState)
@[simp] theorem Dev.setSvc_now : (d.setSvc f).now = d.now := rfl
@[simp] theorem Dev.setSvc_free : (d.setSvc f).free = d.free := rfl
@[simp] theorem Dev.setSvc_out : (d.setSvc f).out = d.out := rfl
@[simp] theorem Dev.setSvc_regs : (d.setSvc f).regs = d.regs := rfl
@[simp] theorem Dev.setSvc_quenching : (d.setSvc f).quenching = d.quenching := rfl
@[simp] theorem Dev.setSvc_fence : (d.setSvc f).fence = d.fence := rfl
@[simp] theorem Dev.setSvc_committed : (d.setSvc f).committed = d.committed := rfl
@[simp] theorem Dev.setSvc_pkg : (d.setSvc f).pkg = d.pkg := rfl
@[simp] theorem Dev.setSvc_swg : (d.setSvc f).swg = d.swg := rfl
@[simp] theorem Dev.setSvc_mbox : (d.setSvc f).mbox = d.mbox := rfl
@[simp] theorem Dev.setSvc_evt : (d.setSvc f).evt = d.evt := rfl
@[simp] theorem Dev.setSvc_tmp : (d.setSvc f).tmp = d.tmp := rfl
@[simp] theorem Dev.setSvc_pool : (d.setSvc f).pool = d.pool := rfl
@[simp] theorem Dev.setSvc_fab : (d.setSvc f).fab = d.fab := rfl
@[simp] theorem Dev.setSvc_cru : (d.setSvc f).cru = d.cru := rfl
@[simp] theorem Dev.setSvc_heat : (d.setSvc f).heat = d.heat := rfl
@[simp] theorem Dev.setSvc_ceil : (d.setSvc f).ceil = d.ceil := rfl
@[simp] theorem Dev.setSvc_back : (d.setSvc f).back = d.back := rfl
@[simp] theorem Dev.setSvc_weld : (d.setSvc f).weld = d.weld := rfl
@[simp] theorem Dev.setSvc_rht : (d.setSvc f).rht = d.rht := rfl
@[simp] theorem Dev.setSvc_sec : (d.setSvc f).sec = d.sec := rfl
@[simp] theorem Dev.setSvc_rst : (d.setSvc f).rst = d.rst := rfl
@[simp] theorem Dev.setSvc_svc : (d.setSvc f).svc = f d.svc := rfl
@[simp] theorem Dev.setSvc_chans : (d.setSvc f).chans = d.chans := rfl
@[simp] theorem Dev.setSvc_ppr : (d.setSvc f).ppr = d.ppr := rfl
@[simp] theorem Dev.setSvc_slag : (d.setSvc f).slag = d.slag := rfl
@[simp] theorem Dev.setSvc_qfl : (d.setSvc f).qfl = d.qfl := rfl
@[simp] theorem Dev.setSvc_bell : (d.setSvc f).bell = d.bell := rfl
@[simp] theorem Dev.setSvc_quench : (d.setSvc f).quench = d.quench := rfl
@[simp] theorem Dev.setSvc_claim : (d.setSvc f).claim = d.claim := rfl
@[simp] theorem Dev.setSvc_lastSlot : (d.setSvc f).lastSlot = d.lastSlot := rfl
@[simp] theorem Dev.setSvc_poweredDown : (d.setSvc f).poweredDown = d.poweredDown := rfl
@[simp] theorem Dev.setSvc_pins : (d.setSvc f).pins = d.pins := rfl
end

section
variable (d : Dev) (f : SecState → SecState)
@[simp] theorem Dev.setSec_now : (d.setSec f).now = d.now := rfl
@[simp] theorem Dev.setSec_free : (d.setSec f).free = d.free := rfl
@[simp] theorem Dev.setSec_out : (d.setSec f).out = d.out := rfl
@[simp] theorem Dev.setSec_regs : (d.setSec f).regs = d.regs := rfl
@[simp] theorem Dev.setSec_quenching : (d.setSec f).quenching = d.quenching := rfl
@[simp] theorem Dev.setSec_fence : (d.setSec f).fence = d.fence := rfl
@[simp] theorem Dev.setSec_committed : (d.setSec f).committed = d.committed := rfl
@[simp] theorem Dev.setSec_pkg : (d.setSec f).pkg = d.pkg := rfl
@[simp] theorem Dev.setSec_swg : (d.setSec f).swg = d.swg := rfl
@[simp] theorem Dev.setSec_mbox : (d.setSec f).mbox = d.mbox := rfl
@[simp] theorem Dev.setSec_evt : (d.setSec f).evt = d.evt := rfl
@[simp] theorem Dev.setSec_tmp : (d.setSec f).tmp = d.tmp := rfl
@[simp] theorem Dev.setSec_pool : (d.setSec f).pool = d.pool := rfl
@[simp] theorem Dev.setSec_fab : (d.setSec f).fab = d.fab := rfl
@[simp] theorem Dev.setSec_cru : (d.setSec f).cru = d.cru := rfl
@[simp] theorem Dev.setSec_heat : (d.setSec f).heat = d.heat := rfl
@[simp] theorem Dev.setSec_ceil : (d.setSec f).ceil = d.ceil := rfl
@[simp] theorem Dev.setSec_back : (d.setSec f).back = d.back := rfl
@[simp] theorem Dev.setSec_weld : (d.setSec f).weld = d.weld := rfl
@[simp] theorem Dev.setSec_rht : (d.setSec f).rht = d.rht := rfl
@[simp] theorem Dev.setSec_sec : (d.setSec f).sec = f d.sec := rfl
@[simp] theorem Dev.setSec_rst : (d.setSec f).rst = d.rst := rfl
@[simp] theorem Dev.setSec_svc : (d.setSec f).svc = d.svc := rfl
@[simp] theorem Dev.setSec_chans : (d.setSec f).chans = d.chans := rfl
@[simp] theorem Dev.setSec_ppr : (d.setSec f).ppr = d.ppr := rfl
@[simp] theorem Dev.setSec_slag : (d.setSec f).slag = d.slag := rfl
@[simp] theorem Dev.setSec_qfl : (d.setSec f).qfl = d.qfl := rfl
@[simp] theorem Dev.setSec_bell : (d.setSec f).bell = d.bell := rfl
@[simp] theorem Dev.setSec_quench : (d.setSec f).quench = d.quench := rfl
@[simp] theorem Dev.setSec_claim : (d.setSec f).claim = d.claim := rfl
@[simp] theorem Dev.setSec_lastSlot : (d.setSec f).lastSlot = d.lastSlot := rfl
@[simp] theorem Dev.setSec_poweredDown : (d.setSec f).poweredDown = d.poweredDown := rfl
@[simp] theorem Dev.setSec_pins : (d.setSec f).pins = d.pins := rfl
end

section
variable (d : Dev) (f : TmpState → TmpState)
@[simp] theorem Dev.setTmp_now : (d.setTmp f).now = d.now := rfl
@[simp] theorem Dev.setTmp_free : (d.setTmp f).free = d.free := rfl
@[simp] theorem Dev.setTmp_out : (d.setTmp f).out = d.out := rfl
@[simp] theorem Dev.setTmp_regs : (d.setTmp f).regs = d.regs := rfl
@[simp] theorem Dev.setTmp_quenching : (d.setTmp f).quenching = d.quenching := rfl
@[simp] theorem Dev.setTmp_fence : (d.setTmp f).fence = d.fence := rfl
@[simp] theorem Dev.setTmp_committed : (d.setTmp f).committed = d.committed := rfl
@[simp] theorem Dev.setTmp_pkg : (d.setTmp f).pkg = d.pkg := rfl
@[simp] theorem Dev.setTmp_swg : (d.setTmp f).swg = d.swg := rfl
@[simp] theorem Dev.setTmp_mbox : (d.setTmp f).mbox = d.mbox := rfl
@[simp] theorem Dev.setTmp_evt : (d.setTmp f).evt = d.evt := rfl
@[simp] theorem Dev.setTmp_tmp : (d.setTmp f).tmp = f d.tmp := rfl
@[simp] theorem Dev.setTmp_pool : (d.setTmp f).pool = d.pool := rfl
@[simp] theorem Dev.setTmp_fab : (d.setTmp f).fab = d.fab := rfl
@[simp] theorem Dev.setTmp_cru : (d.setTmp f).cru = d.cru := rfl
@[simp] theorem Dev.setTmp_heat : (d.setTmp f).heat = d.heat := rfl
@[simp] theorem Dev.setTmp_ceil : (d.setTmp f).ceil = d.ceil := rfl
@[simp] theorem Dev.setTmp_back : (d.setTmp f).back = d.back := rfl
@[simp] theorem Dev.setTmp_weld : (d.setTmp f).weld = d.weld := rfl
@[simp] theorem Dev.setTmp_rht : (d.setTmp f).rht = d.rht := rfl
@[simp] theorem Dev.setTmp_sec : (d.setTmp f).sec = d.sec := rfl
@[simp] theorem Dev.setTmp_rst : (d.setTmp f).rst = d.rst := rfl
@[simp] theorem Dev.setTmp_svc : (d.setTmp f).svc = d.svc := rfl
@[simp] theorem Dev.setTmp_chans : (d.setTmp f).chans = d.chans := rfl
@[simp] theorem Dev.setTmp_ppr : (d.setTmp f).ppr = d.ppr := rfl
@[simp] theorem Dev.setTmp_slag : (d.setTmp f).slag = d.slag := rfl
@[simp] theorem Dev.setTmp_qfl : (d.setTmp f).qfl = d.qfl := rfl
@[simp] theorem Dev.setTmp_bell : (d.setTmp f).bell = d.bell := rfl
@[simp] theorem Dev.setTmp_quench : (d.setTmp f).quench = d.quench := rfl
@[simp] theorem Dev.setTmp_claim : (d.setTmp f).claim = d.claim := rfl
@[simp] theorem Dev.setTmp_lastSlot : (d.setTmp f).lastSlot = d.lastSlot := rfl
@[simp] theorem Dev.setTmp_poweredDown : (d.setTmp f).poweredDown = d.poweredDown := rfl
@[simp] theorem Dev.setTmp_pins : (d.setTmp f).pins = d.pins := rfl
end

section
variable (d : Dev) (F : Fld) (v i j k : Nat)
@[simp] theorem Dev.setF_now : (d.setF F v i j k).now = d.now := rfl
@[simp] theorem Dev.setF_free : (d.setF F v i j k).free = d.free := rfl
@[simp] theorem Dev.setF_out : (d.setF F v i j k).out = d.out := rfl
@[simp] theorem Dev.setF_regs : (d.setF F v i j k).regs = tset d.regs ⟨F, i, j, k⟩ (v % 2 ^ F.width) := rfl
@[simp] theorem Dev.setF_quenching : (d.setF F v i j k).quenching = d.quenching := rfl
@[simp] theorem Dev.setF_fence : (d.setF F v i j k).fence = d.fence := rfl
@[simp] theorem Dev.setF_committed : (d.setF F v i j k).committed = d.committed := rfl
@[simp] theorem Dev.setF_pkg : (d.setF F v i j k).pkg = d.pkg := rfl
@[simp] theorem Dev.setF_swg : (d.setF F v i j k).swg = d.swg := rfl
@[simp] theorem Dev.setF_mbox : (d.setF F v i j k).mbox = d.mbox := rfl
@[simp] theorem Dev.setF_evt : (d.setF F v i j k).evt = d.evt := rfl
@[simp] theorem Dev.setF_tmp : (d.setF F v i j k).tmp = d.tmp := rfl
@[simp] theorem Dev.setF_pool : (d.setF F v i j k).pool = d.pool := rfl
@[simp] theorem Dev.setF_fab : (d.setF F v i j k).fab = d.fab := rfl
@[simp] theorem Dev.setF_cru : (d.setF F v i j k).cru = d.cru := rfl
@[simp] theorem Dev.setF_heat : (d.setF F v i j k).heat = d.heat := rfl
@[simp] theorem Dev.setF_ceil : (d.setF F v i j k).ceil = d.ceil := rfl
@[simp] theorem Dev.setF_back : (d.setF F v i j k).back = d.back := rfl
@[simp] theorem Dev.setF_weld : (d.setF F v i j k).weld = d.weld := rfl
@[simp] theorem Dev.setF_rht : (d.setF F v i j k).rht = d.rht := rfl
@[simp] theorem Dev.setF_sec : (d.setF F v i j k).sec = d.sec := rfl
@[simp] theorem Dev.setF_rst : (d.setF F v i j k).rst = d.rst := rfl
@[simp] theorem Dev.setF_svc : (d.setF F v i j k).svc = d.svc := rfl
@[simp] theorem Dev.setF_chans : (d.setF F v i j k).chans = d.chans := rfl
@[simp] theorem Dev.setF_ppr : (d.setF F v i j k).ppr = d.ppr := rfl
@[simp] theorem Dev.setF_slag : (d.setF F v i j k).slag = d.slag := rfl
@[simp] theorem Dev.setF_qfl : (d.setF F v i j k).qfl = d.qfl := rfl
@[simp] theorem Dev.setF_bell : (d.setF F v i j k).bell = d.bell := rfl
@[simp] theorem Dev.setF_quench : (d.setF F v i j k).quench = d.quench := rfl
@[simp] theorem Dev.setF_claim : (d.setF F v i j k).claim = d.claim := rfl
@[simp] theorem Dev.setF_lastSlot : (d.setF F v i j k).lastSlot = d.lastSlot := rfl
@[simp] theorem Dev.setF_poweredDown : (d.setF F v i j k).poweredDown = d.poweredDown := rfl
@[simp] theorem Dev.setF_pins : (d.setF F v i j k).pins = d.pins := rfl
end

section
variable (d : Dev) (F : Fld) (v : Bool) (i j k : Nat)
@[simp] theorem Dev.setB_now : (d.setB F v i j k).now = d.now := rfl
@[simp] theorem Dev.setB_free : (d.setB F v i j k).free = d.free := rfl
@[simp] theorem Dev.setB_out : (d.setB F v i j k).out = d.out := rfl
@[simp] theorem Dev.setB_regs : (d.setB F v i j k).regs = tset d.regs ⟨F, i, j, k⟩ (b2n v % 2 ^ F.width) := rfl
@[simp] theorem Dev.setB_quenching : (d.setB F v i j k).quenching = d.quenching := rfl
@[simp] theorem Dev.setB_fence : (d.setB F v i j k).fence = d.fence := rfl
@[simp] theorem Dev.setB_committed : (d.setB F v i j k).committed = d.committed := rfl
@[simp] theorem Dev.setB_pkg : (d.setB F v i j k).pkg = d.pkg := rfl
@[simp] theorem Dev.setB_swg : (d.setB F v i j k).swg = d.swg := rfl
@[simp] theorem Dev.setB_mbox : (d.setB F v i j k).mbox = d.mbox := rfl
@[simp] theorem Dev.setB_evt : (d.setB F v i j k).evt = d.evt := rfl
@[simp] theorem Dev.setB_tmp : (d.setB F v i j k).tmp = d.tmp := rfl
@[simp] theorem Dev.setB_pool : (d.setB F v i j k).pool = d.pool := rfl
@[simp] theorem Dev.setB_fab : (d.setB F v i j k).fab = d.fab := rfl
@[simp] theorem Dev.setB_cru : (d.setB F v i j k).cru = d.cru := rfl
@[simp] theorem Dev.setB_heat : (d.setB F v i j k).heat = d.heat := rfl
@[simp] theorem Dev.setB_ceil : (d.setB F v i j k).ceil = d.ceil := rfl
@[simp] theorem Dev.setB_back : (d.setB F v i j k).back = d.back := rfl
@[simp] theorem Dev.setB_weld : (d.setB F v i j k).weld = d.weld := rfl
@[simp] theorem Dev.setB_rht : (d.setB F v i j k).rht = d.rht := rfl
@[simp] theorem Dev.setB_sec : (d.setB F v i j k).sec = d.sec := rfl
@[simp] theorem Dev.setB_rst : (d.setB F v i j k).rst = d.rst := rfl
@[simp] theorem Dev.setB_svc : (d.setB F v i j k).svc = d.svc := rfl
@[simp] theorem Dev.setB_chans : (d.setB F v i j k).chans = d.chans := rfl
@[simp] theorem Dev.setB_ppr : (d.setB F v i j k).ppr = d.ppr := rfl
@[simp] theorem Dev.setB_slag : (d.setB F v i j k).slag = d.slag := rfl
@[simp] theorem Dev.setB_qfl : (d.setB F v i j k).qfl = d.qfl := rfl
@[simp] theorem Dev.setB_bell : (d.setB F v i j k).bell = d.bell := rfl
@[simp] theorem Dev.setB_quench : (d.setB F v i j k).quench = d.quench := rfl
@[simp] theorem Dev.setB_claim : (d.setB F v i j k).claim = d.claim := rfl
@[simp] theorem Dev.setB_lastSlot : (d.setB F v i j k).lastSlot = d.lastSlot := rfl
@[simp] theorem Dev.setB_poweredDown : (d.setB F v i j k).poweredDown = d.poweredDown := rfl
@[simp] theorem Dev.setB_pins : (d.setB F v i j k).pins = d.pins := rfl
end

section
variable (d : Dev) (o : Out)
@[simp] theorem Dev.emit_now : (d.emit o).now = d.now := rfl
@[simp] theorem Dev.emit_free : (d.emit o).free = d.free := rfl
@[simp] theorem Dev.emit_out : (d.emit o).out = d.out ++ [o] := rfl
@[simp] theorem Dev.emit_regs : (d.emit o).regs = d.regs := rfl
@[simp] theorem Dev.emit_quenching : (d.emit o).quenching = d.quenching := rfl
@[simp] theorem Dev.emit_fence : (d.emit o).fence = d.fence := rfl
@[simp] theorem Dev.emit_committed : (d.emit o).committed = d.committed := rfl
@[simp] theorem Dev.emit_pkg : (d.emit o).pkg = d.pkg := rfl
@[simp] theorem Dev.emit_swg : (d.emit o).swg = d.swg := rfl
@[simp] theorem Dev.emit_mbox : (d.emit o).mbox = d.mbox := rfl
@[simp] theorem Dev.emit_evt : (d.emit o).evt = d.evt := rfl
@[simp] theorem Dev.emit_tmp : (d.emit o).tmp = d.tmp := rfl
@[simp] theorem Dev.emit_pool : (d.emit o).pool = d.pool := rfl
@[simp] theorem Dev.emit_fab : (d.emit o).fab = d.fab := rfl
@[simp] theorem Dev.emit_cru : (d.emit o).cru = d.cru := rfl
@[simp] theorem Dev.emit_heat : (d.emit o).heat = d.heat := rfl
@[simp] theorem Dev.emit_ceil : (d.emit o).ceil = d.ceil := rfl
@[simp] theorem Dev.emit_back : (d.emit o).back = d.back := rfl
@[simp] theorem Dev.emit_weld : (d.emit o).weld = d.weld := rfl
@[simp] theorem Dev.emit_rht : (d.emit o).rht = d.rht := rfl
@[simp] theorem Dev.emit_sec : (d.emit o).sec = d.sec := rfl
@[simp] theorem Dev.emit_rst : (d.emit o).rst = d.rst := rfl
@[simp] theorem Dev.emit_svc : (d.emit o).svc = d.svc := rfl
@[simp] theorem Dev.emit_chans : (d.emit o).chans = d.chans := rfl
@[simp] theorem Dev.emit_ppr : (d.emit o).ppr = d.ppr := rfl
@[simp] theorem Dev.emit_slag : (d.emit o).slag = d.slag := rfl
@[simp] theorem Dev.emit_qfl : (d.emit o).qfl = d.qfl := rfl
@[simp] theorem Dev.emit_bell : (d.emit o).bell = d.bell := rfl
@[simp] theorem Dev.emit_quench : (d.emit o).quench = d.quench := rfl
@[simp] theorem Dev.emit_claim : (d.emit o).claim = d.claim := rfl
@[simp] theorem Dev.emit_lastSlot : (d.emit o).lastSlot = d.lastSlot := rfl
@[simp] theorem Dev.emit_poweredDown : (d.emit o).poweredDown = d.poweredDown := rfl
@[simp] theorem Dev.emit_pins : (d.emit o).pins = d.pins := rfl
end

section
variable (d : Dev) (o : List Out)
@[simp] theorem Dev.emits_now : (d.emits o).now = d.now := rfl
@[simp] theorem Dev.emits_free : (d.emits o).free = d.free := rfl
@[simp] theorem Dev.emits_out : (d.emits o).out = d.out ++ o := rfl
@[simp] theorem Dev.emits_regs : (d.emits o).regs = d.regs := rfl
@[simp] theorem Dev.emits_quenching : (d.emits o).quenching = d.quenching := rfl
@[simp] theorem Dev.emits_fence : (d.emits o).fence = d.fence := rfl
@[simp] theorem Dev.emits_committed : (d.emits o).committed = d.committed := rfl
@[simp] theorem Dev.emits_pkg : (d.emits o).pkg = d.pkg := rfl
@[simp] theorem Dev.emits_swg : (d.emits o).swg = d.swg := rfl
@[simp] theorem Dev.emits_mbox : (d.emits o).mbox = d.mbox := rfl
@[simp] theorem Dev.emits_evt : (d.emits o).evt = d.evt := rfl
@[simp] theorem Dev.emits_tmp : (d.emits o).tmp = d.tmp := rfl
@[simp] theorem Dev.emits_pool : (d.emits o).pool = d.pool := rfl
@[simp] theorem Dev.emits_fab : (d.emits o).fab = d.fab := rfl
@[simp] theorem Dev.emits_cru : (d.emits o).cru = d.cru := rfl
@[simp] theorem Dev.emits_heat : (d.emits o).heat = d.heat := rfl
@[simp] theorem Dev.emits_ceil : (d.emits o).ceil = d.ceil := rfl
@[simp] theorem Dev.emits_back : (d.emits o).back = d.back := rfl
@[simp] theorem Dev.emits_weld : (d.emits o).weld = d.weld := rfl
@[simp] theorem Dev.emits_rht : (d.emits o).rht = d.rht := rfl
@[simp] theorem Dev.emits_sec : (d.emits o).sec = d.sec := rfl
@[simp] theorem Dev.emits_rst : (d.emits o).rst = d.rst := rfl
@[simp] theorem Dev.emits_svc : (d.emits o).svc = d.svc := rfl
@[simp] theorem Dev.emits_chans : (d.emits o).chans = d.chans := rfl
@[simp] theorem Dev.emits_ppr : (d.emits o).ppr = d.ppr := rfl
@[simp] theorem Dev.emits_slag : (d.emits o).slag = d.slag := rfl
@[simp] theorem Dev.emits_qfl : (d.emits o).qfl = d.qfl := rfl
@[simp] theorem Dev.emits_bell : (d.emits o).bell = d.bell := rfl
@[simp] theorem Dev.emits_quench : (d.emits o).quench = d.quench := rfl
@[simp] theorem Dev.emits_claim : (d.emits o).claim = d.claim := rfl
@[simp] theorem Dev.emits_lastSlot : (d.emits o).lastSlot = d.lastSlot := rfl
@[simp] theorem Dev.emits_poweredDown : (d.emits o).poweredDown = d.poweredDown := rfl
@[simp] theorem Dev.emits_pins : (d.emits o).pins = d.pins := rfl
end

section
variable (d : Dev) 
@[simp] theorem Dev.tick_now : (d.tick).now = d.now := rfl
@[simp] theorem Dev.tick_free : (d.tick).free = d.free + 1 := rfl
@[simp] theorem Dev.tick_out : (d.tick).out = d.out := rfl
@[simp] theorem Dev.tick_regs : (d.tick).regs = d.regs := rfl
@[simp] theorem Dev.tick_quenching : (d.tick).quenching = d.quenching := rfl
@[simp] theorem Dev.tick_fence : (d.tick).fence = d.fence := rfl
@[simp] theorem Dev.tick_committed : (d.tick).committed = d.committed := rfl
@[simp] theorem Dev.tick_pkg : (d.tick).pkg = d.pkg := rfl
@[simp] theorem Dev.tick_swg : (d.tick).swg = d.swg := rfl
@[simp] theorem Dev.tick_mbox : (d.tick).mbox = d.mbox := rfl
@[simp] theorem Dev.tick_evt : (d.tick).evt = d.evt := rfl
@[simp] theorem Dev.tick_tmp : (d.tick).tmp = d.tmp := rfl
@[simp] theorem Dev.tick_pool : (d.tick).pool = d.pool := rfl
@[simp] theorem Dev.tick_fab : (d.tick).fab = d.fab := rfl
@[simp] theorem Dev.tick_cru : (d.tick).cru = d.cru := rfl
@[simp] theorem Dev.tick_heat : (d.tick).heat = d.heat := rfl
@[simp] theorem Dev.tick_ceil : (d.tick).ceil = d.ceil := rfl
@[simp] theorem Dev.tick_back : (d.tick).back = d.back := rfl
@[simp] theorem Dev.tick_weld : (d.tick).weld = d.weld := rfl
@[simp] theorem Dev.tick_rht : (d.tick).rht = d.rht := rfl
@[simp] theorem Dev.tick_sec : (d.tick).sec = d.sec := rfl
@[simp] theorem Dev.tick_rst : (d.tick).rst = d.rst := rfl
@[simp] theorem Dev.tick_svc : (d.tick).svc = d.svc := rfl
@[simp] theorem Dev.tick_chans : (d.tick).chans = d.chans := rfl
@[simp] theorem Dev.tick_ppr : (d.tick).ppr = d.ppr := rfl
@[simp] theorem Dev.tick_slag : (d.tick).slag = d.slag := rfl
@[simp] theorem Dev.tick_qfl : (d.tick).qfl = d.qfl := rfl
@[simp] theorem Dev.tick_bell : (d.tick).bell = d.bell := rfl
@[simp] theorem Dev.tick_quench : (d.tick).quench = d.quench := rfl
@[simp] theorem Dev.tick_claim : (d.tick).claim = d.claim := rfl
@[simp] theorem Dev.tick_lastSlot : (d.tick).lastSlot = d.lastSlot := rfl
@[simp] theorem Dev.tick_poweredDown : (d.tick).poweredDown = d.poweredDown := rfl
@[simp] theorem Dev.tick_pins : (d.tick).pins = d.pins := rfl
end

end Sys2Proof.Machine
end

