-- ==== Sys2Proof/Laws/Registers.lean ====
section
/-! SUPPORT. Reading a register field after a write: the written field holds the value cut to its width, every other field is as before. -/

namespace Sys2Proof.Machine

open Sys2Proof

@[simp] theorem tget_nil {κ ν : Type} [DecidableEq κ] (k : κ) : tget ([] : Tab κ ν) k = none := rfl

@[simp] theorem tget_tset_same {κ ν : Type} [DecidableEq κ] (t : Tab κ ν) (k : κ) (v : ν) : tget (tset t k v) k = some v := by
  induction t with
  | nil => simp [tset, tget]
  | cons e t ih =>
    obtain ⟨q, w⟩ := e
    by_cases h : q = k <;> simp [tset, tget, h, ih]

theorem tget_tset {κ ν : Type} [DecidableEq κ] (t : Tab κ ν) (k q : κ) (v : ν) :
    tget (tset t k v) q = if k = q then some v else tget t q := by
  induction t with
  | nil => simp [tset, tget]
  | cons e t ih =>
    obtain ⟨r, w⟩ := e
    by_cases h : r = k
    · subst h
      by_cases h2 : r = q <;> simp [tset, tget, h2]
    · by_cases h2 : r = q
      · subst h2
        simp [tset, tget, h, Ne.symm h]
      · simp [tset, tget, h, h2, ih]

theorem tget_tdel {κ ν : Type} [DecidableEq κ] (t : Tab κ ν) (k q : κ) : tget (tdel t k) q = if k = q then none else tget t q := by
  induction t with
  | nil => simp [tdel, tget]
  | cons e t ih =>
    obtain ⟨r, w⟩ := e
    simp only [tdel, List.filter_cons] at ih ⊢
    by_cases h : r = k
    · subst h
      by_cases h2 : r = q
      · simp_all
      · simp_all [tget]
    · by_cases h2 : r = q
      · subst h2
        simp [tget, h, Ne.symm h]
      · simp_all [tget]

@[simp] theorem tget_tdel_same {κ ν : Type} [DecidableEq κ] (t : Tab κ ν) (k : κ) : tget (tdel t k) k = none := by
  simp [tget_tdel]

/-- A field after a write of any field. -/
theorem Dev.f_setF (d : Dev) (F : Fld) (v i j k : Nat) (G : Fld) (a b c : Nat) :
    (d.setF F v i j k).f G a b c = if (⟨F, i, j, k⟩ : FKey) = ⟨G, a, b, c⟩ then v % 2 ^ F.width else d.f G a b c := by
  simp only [Dev.f, Dev.setF, tgetD, tget_tset]
  split <;> simp

@[simp] theorem Dev.f_setF_same (d : Dev) (F : Fld) (v i j k : Nat) : (d.setF F v i j k).f F i j k = v % 2 ^ F.width := by
  simp [Dev.f_setF]

theorem Dev.f_setF_fld (d : Dev) {F G : Fld} (h : F ≠ G) (v i j k a b c : Nat) : (d.setF F v i j k).f G a b c = d.f G a b c := by
  rw [Dev.f_setF, if_neg fun e => h (congrArg FKey.fld e)]

theorem Dev.f_setB (d : Dev) (F : Fld) (v : Bool) (i j k : Nat) (G : Fld) (a b c : Nat) :
    (d.setB F v i j k).f G a b c = if (⟨F, i, j, k⟩ : FKey) = ⟨G, a, b, c⟩ then b2n v % 2 ^ F.width else d.f G a b c :=
  Dev.f_setF _ _ _ _ _ _ _ _ _ _

/-- A field reads alike in two blocks with the same registers. -/
theorem Dev.f_congr {d e : Dev} (h : d.regs = e.regs) (F : Fld) (a b c : Nat) : d.f F a b c = e.f F a b c := by
  simp [Dev.f, h]

end Sys2Proof.Machine
end

