-- ==== Sys2Proof/Laws/Unmoved.lean ====
section
/-! SUPPORT. The updates that touch no register: every register, and what is read from the registers alone, is as before. -/

namespace Sys2Proof.Machine

open Sys2Proof

@[simp] theorem Dev.until_f (d : Dev) (t : Nat) (F : Fld) (a b c : Nat) : (d.until t).f F a b c = d.f F a b c := rfl
@[simp] theorem Dev.until_fb (d : Dev) (t : Nat) (F : Fld) (a b c : Nat) : (d.until t).fb F a b c = d.fb F a b c := rfl
@[simp] theorem Dev.until_pair (d : Dev) (t : Nat) : (d.until t).pair = d.pair := rfl
@[simp] theorem Dev.until_openHeat (d : Dev) (t : Nat) : (d.until t).openHeat = d.openHeat := rfl
@[simp] theorem Dev.until_heatNs (d : Dev) (t : Nat) : (d.until t).heatNs = d.heatNs := rfl
@[simp] theorem Dev.until_ceilState (d : Dev) (t : Nat) : (d.until t).ceilState = d.ceilState := rfl
@[simp] theorem Dev.until_aonLow (d : Dev) (t : Nat) : (d.until t).aonLow = d.aonLow := rfl
@[simp] theorem Dev.until_linkState (d : Dev) (t : Nat) (l : Nat × Nat) : (d.until t).linkState l = d.linkState l := rfl
@[simp] theorem Dev.until_gen (d : Dev) (t : Nat) : (d.until t).gen = d.gen := rfl
@[simp] theorem Dev.tick_f (d : Dev) (F : Fld) (a b c : Nat) : (d.tick).f F a b c = d.f F a b c := rfl
@[simp] theorem Dev.tick_fb (d : Dev) (F : Fld) (a b c : Nat) : (d.tick).fb F a b c = d.fb F a b c := rfl
@[simp] theorem Dev.tick_pair (d : Dev) : (d.tick).pair = d.pair := rfl
@[simp] theorem Dev.tick_openHeat (d : Dev) : (d.tick).openHeat = d.openHeat := rfl
@[simp] theorem Dev.tick_heatNs (d : Dev) : (d.tick).heatNs = d.heatNs := rfl
@[simp] theorem Dev.tick_ceilState (d : Dev) : (d.tick).ceilState = d.ceilState := rfl
@[simp] theorem Dev.tick_aonLow (d : Dev) : (d.tick).aonLow = d.aonLow := rfl
@[simp] theorem Dev.tick_linkState (d : Dev) (l : Nat × Nat) : (d.tick).linkState l = d.linkState l := rfl
@[simp] theorem Dev.tick_gen (d : Dev) : (d.tick).gen = d.gen := rfl
@[simp] theorem Dev.emit_f (d : Dev) (o : Out) (F : Fld) (a b c : Nat) : (d.emit o).f F a b c = d.f F a b c := rfl
@[simp] theorem Dev.emit_fb (d : Dev) (o : Out) (F : Fld) (a b c : Nat) : (d.emit o).fb F a b c = d.fb F a b c := rfl
@[simp] theorem Dev.emit_pair (d : Dev) (o : Out) : (d.emit o).pair = d.pair := rfl
@[simp] theorem Dev.emit_openHeat (d : Dev) (o : Out) : (d.emit o).openHeat = d.openHeat := rfl
@[simp] theorem Dev.emit_heatNs (d : Dev) (o : Out) : (d.emit o).heatNs = d.heatNs := rfl
@[simp] theorem Dev.emit_ceilState (d : Dev) (o : Out) : (d.emit o).ceilState = d.ceilState := rfl
@[simp] theorem Dev.emit_aonLow (d : Dev) (o : Out) : (d.emit o).aonLow = d.aonLow := rfl
@[simp] theorem Dev.emit_linkState (d : Dev) (o : Out) (l : Nat × Nat) : (d.emit o).linkState l = d.linkState l := rfl
@[simp] theorem Dev.emit_gen (d : Dev) (o : Out) : (d.emit o).gen = d.gen := rfl
@[simp] theorem Dev.emits_f (d : Dev) (o : List Out) (F : Fld) (a b c : Nat) : (d.emits o).f F a b c = d.f F a b c := rfl
@[simp] theorem Dev.emits_fb (d : Dev) (o : List Out) (F : Fld) (a b c : Nat) : (d.emits o).fb F a b c = d.fb F a b c := rfl
@[simp] theorem Dev.emits_pair (d : Dev) (o : List Out) : (d.emits o).pair = d.pair := rfl
@[simp] theorem Dev.emits_openHeat (d : Dev) (o : List Out) : (d.emits o).openHeat = d.openHeat := rfl
@[simp] theorem Dev.emits_heatNs (d : Dev) (o : List Out) : (d.emits o).heatNs = d.heatNs := rfl
@[simp] theorem Dev.emits_ceilState (d : Dev) (o : List Out) : (d.emits o).ceilState = d.ceilState := rfl
@[simp] theorem Dev.emits_aonLow (d : Dev) (o : List Out) : (d.emits o).aonLow = d.aonLow := rfl
@[simp] theorem Dev.emits_linkState (d : Dev) (o : List Out) (l : Nat × Nat) : (d.emits o).linkState l = d.linkState l := rfl
@[simp] theorem Dev.emits_gen (d : Dev) (o : List Out) : (d.emits o).gen = d.gen := rfl
@[simp] theorem Dev.setBack_f (d : Dev) (u : BackState → BackState) (F : Fld) (a b c : Nat) : (d.setBack u).f F a b c = d.f F a b c := rfl
@[simp] theorem Dev.setBack_fb (d : Dev) (u : BackState → BackState) (F : Fld) (a b c : Nat) : (d.setBack u).fb F a b c = d.fb F a b c := rfl
@[simp] theorem Dev.setBack_pair (d : Dev) (u : BackState → BackState) : (d.setBack u).pair = d.pair := rfl
@[simp] theorem Dev.setBack_openHeat (d : Dev) (u : BackState → BackState) : (d.setBack u).openHeat = d.openHeat := rfl
@[simp] theorem Dev.setBack_heatNs (d : Dev) (u : BackState → BackState) : (d.setBack u).heatNs = d.heatNs := rfl
@[simp] theorem Dev.setBack_ceilState (d : Dev) (u : BackState → BackState) : (d.setBack u).ceilState = d.ceilState := rfl
@[simp] theorem Dev.setBack_aonLow (d : Dev) (u : BackState → BackState) : (d.setBack u).aonLow = d.aonLow := rfl
@[simp] theorem Dev.setBack_linkState (d : Dev) (u : BackState → BackState) (l : Nat × Nat) : (d.setBack u).linkState l = d.linkState l := rfl
@[simp] theorem Dev.setBack_gen (d : Dev) (u : BackState → BackState) : (d.setBack u).gen = d.gen := rfl
@[simp] theorem Dev.setBell_f (d : Dev) (u : BellState → BellState) (F : Fld) (a b c : Nat) : (d.setBell u).f F a b c = d.f F a b c := rfl
@[simp] theorem Dev.setBell_fb (d : Dev) (u : BellState → BellState) (F : Fld) (a b c : Nat) : (d.setBell u).fb F a b c = d.fb F a b c := rfl
@[simp] theorem Dev.setBell_pair (d : Dev) (u : BellState → BellState) : (d.setBell u).pair = d.pair := rfl
@[simp] theorem Dev.setBell_openHeat (d : Dev) (u : BellState → BellState) : (d.setBell u).openHeat = d.openHeat := rfl
@[simp] theorem Dev.setBell_heatNs (d : Dev) (u : BellState → BellState) : (d.setBell u).heatNs = d.heatNs := rfl
@[simp] theorem Dev.setBell_ceilState (d : Dev) (u : BellState → BellState) : (d.setBell u).ceilState = d.ceilState := rfl
@[simp] theorem Dev.setBell_aonLow (d : Dev) (u : BellState → BellState) : (d.setBell u).aonLow = d.aonLow := rfl
@[simp] theorem Dev.setBell_linkState (d : Dev) (u : BellState → BellState) (l : Nat × Nat) : (d.setBell u).linkState l = d.linkState l := rfl
@[simp] theorem Dev.setBell_gen (d : Dev) (u : BellState → BellState) : (d.setBell u).gen = d.gen := rfl
@[simp] theorem Dev.setCru_f (d : Dev) (u : CruState → CruState) (F : Fld) (a b c : Nat) : (d.setCru u).f F a b c = d.f F a b c := rfl
@[simp] theorem Dev.setCru_fb (d : Dev) (u : CruState → CruState) (F : Fld) (a b c : Nat) : (d.setCru u).fb F a b c = d.fb F a b c := rfl
@[simp] theorem Dev.setCru_pair (d : Dev) (u : CruState → CruState) : (d.setCru u).pair = d.pair := rfl
@[simp] theorem Dev.setCru_openHeat (d : Dev) (u : CruState → CruState) : (d.setCru u).openHeat = d.openHeat := rfl
@[simp] theorem Dev.setCru_heatNs (d : Dev) (u : CruState → CruState) : (d.setCru u).heatNs = d.heatNs := rfl
@[simp] theorem Dev.setCru_ceilState (d : Dev) (u : CruState → CruState) : (d.setCru u).ceilState = d.ceilState := rfl
@[simp] theorem Dev.setCru_aonLow (d : Dev) (u : CruState → CruState) : (d.setCru u).aonLow = d.aonLow := rfl
@[simp] theorem Dev.setCru_linkState (d : Dev) (u : CruState → CruState) (l : Nat × Nat) : (d.setCru u).linkState l = d.linkState l := rfl
@[simp] theorem Dev.setCru_gen (d : Dev) (u : CruState → CruState) : (d.setCru u).gen = d.gen := rfl
@[simp] theorem Dev.setPkg_f (d : Dev) (u : PkgState → PkgState) (F : Fld) (a b c : Nat) : (d.setPkg u).f F a b c = d.f F a b c := rfl
@[simp] theorem Dev.setPkg_fb (d : Dev) (u : PkgState → PkgState) (F : Fld) (a b c : Nat) : (d.setPkg u).fb F a b c = d.fb F a b c := rfl
@[simp] theorem Dev.setPkg_pair (d : Dev) (u : PkgState → PkgState) : (d.setPkg u).pair = d.pair := rfl
@[simp] theorem Dev.setPkg_openHeat (d : Dev) (u : PkgState → PkgState) : (d.setPkg u).openHeat = d.openHeat := rfl
@[simp] theorem Dev.setPkg_heatNs (d : Dev) (u : PkgState → PkgState) : (d.setPkg u).heatNs = d.heatNs := rfl
@[simp] theorem Dev.setPkg_ceilState (d : Dev) (u : PkgState → PkgState) : (d.setPkg u).ceilState = d.ceilState := rfl
@[simp] theorem Dev.setPkg_aonLow (d : Dev) (u : PkgState → PkgState) : (d.setPkg u).aonLow = d.aonLow := rfl
@[simp] theorem Dev.setPkg_linkState (d : Dev) (u : PkgState → PkgState) (l : Nat × Nat) : (d.setPkg u).linkState l = d.linkState l := rfl
@[simp] theorem Dev.setPkg_gen (d : Dev) (u : PkgState → PkgState) : (d.setPkg u).gen = d.gen := rfl
@[simp] theorem Dev.setCeil_f (d : Dev) (u : CeilState → CeilState) (F : Fld) (a b c : Nat) : (d.setCeil u).f F a b c = d.f F a b c := rfl
@[simp] theorem Dev.setCeil_fb (d : Dev) (u : CeilState → CeilState) (F : Fld) (a b c : Nat) : (d.setCeil u).fb F a b c = d.fb F a b c := rfl
@[simp] theorem Dev.setCeil_pair (d : Dev) (u : CeilState → CeilState) : (d.setCeil u).pair = d.pair := rfl
@[simp] theorem Dev.setCeil_openHeat (d : Dev) (u : CeilState → CeilState) : (d.setCeil u).openHeat = d.openHeat := rfl
@[simp] theorem Dev.setCeil_heatNs (d : Dev) (u : CeilState → CeilState) : (d.setCeil u).heatNs = d.heatNs := rfl
@[simp] theorem Dev.setCeil_ceilState (d : Dev) (u : CeilState → CeilState) : (d.setCeil u).ceilState = d.ceilState := rfl
@[simp] theorem Dev.setCeil_aonLow (d : Dev) (u : CeilState → CeilState) : (d.setCeil u).aonLow = d.aonLow := rfl
@[simp] theorem Dev.setCeil_linkState (d : Dev) (u : CeilState → CeilState) (l : Nat × Nat) : (d.setCeil u).linkState l = d.linkState l := rfl
@[simp] theorem Dev.setCeil_gen (d : Dev) (u : CeilState → CeilState) : (d.setCeil u).gen = d.gen := rfl
@[simp] theorem Dev.setWeld_f (d : Dev) (u : WeldState → WeldState) (F : Fld) (a b c : Nat) : (d.setWeld u).f F a b c = d.f F a b c := rfl
@[simp] theorem Dev.setWeld_fb (d : Dev) (u : WeldState → WeldState) (F : Fld) (a b c : Nat) : (d.setWeld u).fb F a b c = d.fb F a b c := rfl
@[simp] theorem Dev.setWeld_pair (d : Dev) (u : WeldState → WeldState) : (d.setWeld u).pair = d.pair := rfl
@[simp] theorem Dev.setWeld_openHeat (d : Dev) (u : WeldState → WeldState) : (d.setWeld u).openHeat = d.openHeat := rfl
@[simp] theorem Dev.setWeld_heatNs (d : Dev) (u : WeldState → WeldState) : (d.setWeld u).heatNs = d.heatNs := rfl
@[simp] theorem Dev.setWeld_ceilState (d : Dev) (u : WeldState → WeldState) : (d.setWeld u).ceilState = d.ceilState := rfl
@[simp] theorem Dev.setWeld_aonLow (d : Dev) (u : WeldState → WeldState) : (d.setWeld u).aonLow = d.aonLow := rfl
@[simp] theorem Dev.setWeld_linkState (d : Dev) (u : WeldState → WeldState) (l : Nat × Nat) : (d.setWeld u).linkState l = d.linkState l := rfl
@[simp] theorem Dev.setWeld_gen (d : Dev) (u : WeldState → WeldState) : (d.setWeld u).gen = d.gen := rfl
@[simp] theorem Dev.setFab_f (d : Dev) (u : FabState → FabState) (F : Fld) (a b c : Nat) : (d.setFab u).f F a b c = d.f F a b c := rfl
@[simp] theorem Dev.setFab_fb (d : Dev) (u : FabState → FabState) (F : Fld) (a b c : Nat) : (d.setFab u).fb F a b c = d.fb F a b c := rfl
@[simp] theorem Dev.setFab_pair (d : Dev) (u : FabState → FabState) : (d.setFab u).pair = d.pair := rfl
@[simp] theorem Dev.setFab_openHeat (d : Dev) (u : FabState → FabState) : (d.setFab u).openHeat = d.openHeat := rfl
@[simp] theorem Dev.setFab_heatNs (d : Dev) (u : FabState → FabState) : (d.setFab u).heatNs = d.heatNs := rfl
@[simp] theorem Dev.setFab_ceilState (d : Dev) (u : FabState → FabState) : (d.setFab u).ceilState = d.ceilState := rfl
@[simp] theorem Dev.setFab_aonLow (d : Dev) (u : FabState → FabState) : (d.setFab u).aonLow = d.aonLow := rfl
@[simp] theorem Dev.setFab_linkState (d : Dev) (u : FabState → FabState) (l : Nat × Nat) : (d.setFab u).linkState l = d.linkState l := rfl
@[simp] theorem Dev.setFab_gen (d : Dev) (u : FabState → FabState) : (d.setFab u).gen = d.gen := rfl
@[simp] theorem Dev.setHeat_f (d : Dev) (u : HeatState → HeatState) (F : Fld) (a b c : Nat) : (d.setHeat u).f F a b c = d.f F a b c := rfl
@[simp] theorem Dev.setHeat_fb (d : Dev) (u : HeatState → HeatState) (F : Fld) (a b c : Nat) : (d.setHeat u).fb F a b c = d.fb F a b c := rfl
@[simp] theorem Dev.setHeat_pair (d : Dev) (u : HeatState → HeatState) : (d.setHeat u).pair = d.pair := rfl
@[simp] theorem Dev.setHeat_openHeat (d : Dev) (u : HeatState → HeatState) : (d.setHeat u).openHeat = d.openHeat := rfl
@[simp] theorem Dev.setHeat_heatNs (d : Dev) (u : HeatState → HeatState) : (d.setHeat u).heatNs = d.heatNs := rfl
@[simp] theorem Dev.setHeat_ceilState (d : Dev) (u : HeatState → HeatState) : (d.setHeat u).ceilState = d.ceilState := rfl
@[simp] theorem Dev.setHeat_aonLow (d : Dev) (u : HeatState → HeatState) : (d.setHeat u).aonLow = d.aonLow := rfl
@[simp] theorem Dev.setHeat_linkState (d : Dev) (u : HeatState → HeatState) (l : Nat × Nat) : (d.setHeat u).linkState l = d.linkState l := rfl
@[simp] theorem Dev.setHeat_gen (d : Dev) (u : HeatState → HeatState) : (d.setHeat u).gen = d.gen := rfl
@[simp] theorem Dev.setRht_f (d : Dev) (u : RhtState → RhtState) (F : Fld) (a b c : Nat) : (d.setRht u).f F a b c = d.f F a b c := rfl
@[simp] theorem Dev.setRht_fb (d : Dev) (u : RhtState → RhtState) (F : Fld) (a b c : Nat) : (d.setRht u).fb F a b c = d.fb F a b c := rfl
@[simp] theorem Dev.setRht_pair (d : Dev) (u : RhtState → RhtState) : (d.setRht u).pair = d.pair := rfl
@[simp] theorem Dev.setRht_openHeat (d : Dev) (u : RhtState → RhtState) : (d.setRht u).openHeat = d.openHeat := rfl
@[simp] theorem Dev.setRht_heatNs (d : Dev) (u : RhtState → RhtState) : (d.setRht u).heatNs = d.heatNs := rfl
@[simp] theorem Dev.setRht_ceilState (d : Dev) (u : RhtState → RhtState) : (d.setRht u).ceilState = d.ceilState := rfl
@[simp] theorem Dev.setRht_aonLow (d : Dev) (u : RhtState → RhtState) : (d.setRht u).aonLow = d.aonLow := rfl
@[simp] theorem Dev.setRht_linkState (d : Dev) (u : RhtState → RhtState) (l : Nat × Nat) : (d.setRht u).linkState l = d.linkState l := rfl
@[simp] theorem Dev.setRht_gen (d : Dev) (u : RhtState → RhtState) : (d.setRht u).gen = d.gen := rfl
@[simp] theorem Dev.setMbox_f (d : Dev) (u : MboxState → MboxState) (F : Fld) (a b c : Nat) : (d.setMbox u).f F a b c = d.f F a b c := rfl
@[simp] theorem Dev.setMbox_fb (d : Dev) (u : MboxState → MboxState) (F : Fld) (a b c : Nat) : (d.setMbox u).fb F a b c = d.fb F a b c := rfl
@[simp] theorem Dev.setMbox_pair (d : Dev) (u : MboxState → MboxState) : (d.setMbox u).pair = d.pair := rfl
@[simp] theorem Dev.setMbox_openHeat (d : Dev) (u : MboxState → MboxState) : (d.setMbox u).openHeat = d.openHeat := rfl
@[simp] theorem Dev.setMbox_heatNs (d : Dev) (u : MboxState → MboxState) : (d.setMbox u).heatNs = d.heatNs := rfl
@[simp] theorem Dev.setMbox_ceilState (d : Dev) (u : MboxState → MboxState) : (d.setMbox u).ceilState = d.ceilState := rfl
@[simp] theorem Dev.setMbox_aonLow (d : Dev) (u : MboxState → MboxState) : (d.setMbox u).aonLow = d.aonLow := rfl
@[simp] theorem Dev.setMbox_linkState (d : Dev) (u : MboxState → MboxState) (l : Nat × Nat) : (d.setMbox u).linkState l = d.linkState l := rfl
@[simp] theorem Dev.setMbox_gen (d : Dev) (u : MboxState → MboxState) : (d.setMbox u).gen = d.gen := rfl
@[simp] theorem Dev.setRst_f (d : Dev) (u : RstState → RstState) (F : Fld) (a b c : Nat) : (d.setRst u).f F a b c = d.f F a b c := rfl
@[simp] theorem Dev.setRst_fb (d : Dev) (u : RstState → RstState) (F : Fld) (a b c : Nat) : (d.setRst u).fb F a b c = d.fb F a b c := rfl
@[simp] theorem Dev.setRst_pair (d : Dev) (u : RstState → RstState) : (d.setRst u).pair = d.pair := rfl
@[simp] theorem Dev.setRst_openHeat (d : Dev) (u : RstState → RstState) : (d.setRst u).openHeat = d.openHeat := rfl
@[simp] theorem Dev.setRst_heatNs (d : Dev) (u : RstState → RstState) : (d.setRst u).heatNs = d.heatNs := rfl
@[simp] theorem Dev.setRst_ceilState (d : Dev) (u : RstState → RstState) : (d.setRst u).ceilState = d.ceilState := rfl
@[simp] theorem Dev.setRst_aonLow (d : Dev) (u : RstState → RstState) : (d.setRst u).aonLow = d.aonLow := rfl
@[simp] theorem Dev.setRst_linkState (d : Dev) (u : RstState → RstState) (l : Nat × Nat) : (d.setRst u).linkState l = d.linkState l := rfl
@[simp] theorem Dev.setRst_gen (d : Dev) (u : RstState → RstState) : (d.setRst u).gen = d.gen := rfl
@[simp] theorem Dev.setSvc_f (d : Dev) (u : SvcState → SvcState) (F : Fld) (a b c : Nat) : (d.setSvc u).f F a b c = d.f F a b c := rfl
@[simp] theorem Dev.setSvc_fb (d : Dev) (u : SvcState → SvcState) (F : Fld) (a b c : Nat) : (d.setSvc u).fb F a b c = d.fb F a b c := rfl
@[simp] theorem Dev.setSvc_pair (d : Dev) (u : SvcState → SvcState) : (d.setSvc u).pair = d.pair := rfl
@[simp] theorem Dev.setSvc_openHeat (d : Dev) (u : SvcState → SvcState) : (d.setSvc u).openHeat = d.openHeat := rfl
@[simp] theorem Dev.setSvc_heatNs (d : Dev) (u : SvcState → SvcState) : (d.setSvc u).heatNs = d.heatNs := rfl
@[simp] theorem Dev.setSvc_ceilState (d : Dev) (u : SvcState → SvcState) : (d.setSvc u).ceilState = d.ceilState := rfl
@[simp] theorem Dev.setSvc_aonLow (d : Dev) (u : SvcState → SvcState) : (d.setSvc u).aonLow = d.aonLow := rfl
@[simp] theorem Dev.setSvc_linkState (d : Dev) (u : SvcState → SvcState) (l : Nat × Nat) : (d.setSvc u).linkState l = d.linkState l := rfl
@[simp] theorem Dev.setSvc_gen (d : Dev) (u : SvcState → SvcState) : (d.setSvc u).gen = d.gen := rfl
@[simp] theorem Dev.setQfl_f (d : Dev) (u : QflState → QflState) (F : Fld) (a b c : Nat) : (d.setQfl u).f F a b c = d.f F a b c := rfl
@[simp] theorem Dev.setQfl_fb (d : Dev) (u : QflState → QflState) (F : Fld) (a b c : Nat) : (d.setQfl u).fb F a b c = d.fb F a b c := rfl
@[simp] theorem Dev.setQfl_pair (d : Dev) (u : QflState → QflState) : (d.setQfl u).pair = d.pair := rfl
@[simp] theorem Dev.setQfl_openHeat (d : Dev) (u : QflState → QflState) : (d.setQfl u).openHeat = d.openHeat := rfl
@[simp] theorem Dev.setQfl_heatNs (d : Dev) (u : QflState → QflState) : (d.setQfl u).heatNs = d.heatNs := rfl
@[simp] theorem Dev.setQfl_ceilState (d : Dev) (u : QflState → QflState) : (d.setQfl u).ceilState = d.ceilState := rfl
@[simp] theorem Dev.setQfl_aonLow (d : Dev) (u : QflState → QflState) : (d.setQfl u).aonLow = d.aonLow := rfl
@[simp] theorem Dev.setQfl_linkState (d : Dev) (u : QflState → QflState) (l : Nat × Nat) : (d.setQfl u).linkState l = d.linkState l := rfl
@[simp] theorem Dev.setQfl_gen (d : Dev) (u : QflState → QflState) : (d.setQfl u).gen = d.gen := rfl
@[simp] theorem Dev.setTmp_f (d : Dev) (u : TmpState → TmpState) (F : Fld) (a b c : Nat) : (d.setTmp u).f F a b c = d.f F a b c := rfl
@[simp] theorem Dev.setTmp_fb (d : Dev) (u : TmpState → TmpState) (F : Fld) (a b c : Nat) : (d.setTmp u).fb F a b c = d.fb F a b c := rfl
@[simp] theorem Dev.setTmp_pair (d : Dev) (u : TmpState → TmpState) : (d.setTmp u).pair = d.pair := rfl
@[simp] theorem Dev.setTmp_openHeat (d : Dev) (u : TmpState → TmpState) : (d.setTmp u).openHeat = d.openHeat := rfl
@[simp] theorem Dev.setTmp_heatNs (d : Dev) (u : TmpState → TmpState) : (d.setTmp u).heatNs = d.heatNs := rfl
@[simp] theorem Dev.setTmp_ceilState (d : Dev) (u : TmpState → TmpState) : (d.setTmp u).ceilState = d.ceilState := rfl
@[simp] theorem Dev.setTmp_aonLow (d : Dev) (u : TmpState → TmpState) : (d.setTmp u).aonLow = d.aonLow := rfl
@[simp] theorem Dev.setTmp_linkState (d : Dev) (u : TmpState → TmpState) (l : Nat × Nat) : (d.setTmp u).linkState l = d.linkState l := rfl
@[simp] theorem Dev.setTmp_gen (d : Dev) (u : TmpState → TmpState) : (d.setTmp u).gen = d.gen := rfl
@[simp] theorem Dev.setSec_f (d : Dev) (u : SecState → SecState) (F : Fld) (a b c : Nat) : (d.setSec u).f F a b c = d.f F a b c := rfl
@[simp] theorem Dev.setSec_fb (d : Dev) (u : SecState → SecState) (F : Fld) (a b c : Nat) : (d.setSec u).fb F a b c = d.fb F a b c := rfl
@[simp] theorem Dev.setSec_pair (d : Dev) (u : SecState → SecState) : (d.setSec u).pair = d.pair := rfl
@[simp] theorem Dev.setSec_openHeat (d : Dev) (u : SecState → SecState) : (d.setSec u).openHeat = d.openHeat := rfl
@[simp] theorem Dev.setSec_heatNs (d : Dev) (u : SecState → SecState) : (d.setSec u).heatNs = d.heatNs := rfl
@[simp] theorem Dev.setSec_ceilState (d : Dev) (u : SecState → SecState) : (d.setSec u).ceilState = d.ceilState := rfl
@[simp] theorem Dev.setSec_aonLow (d : Dev) (u : SecState → SecState) : (d.setSec u).aonLow = d.aonLow := rfl
@[simp] theorem Dev.setSec_linkState (d : Dev) (u : SecState → SecState) (l : Nat × Nat) : (d.setSec u).linkState l = d.linkState l := rfl
@[simp] theorem Dev.setSec_gen (d : Dev) (u : SecState → SecState) : (d.setSec u).gen = d.gen := rfl

end Sys2Proof.Machine
end

