-- ==== Sys2Proof/Tests/Slice0.lean ====
section
/-! SUPPORT. The model's own tests: ill-formed commands that the checks of WellFormed refuse; small cases whose results are the manual's worked
examples; and, for each clause of the statements that has hypotheses, a block and operands that meet all of them (wit_<statement>_<clause>). -/

namespace Sys2Proof.Tests

open Sys2Proof Machine

set_option linter.unusedVariables false
set_option Elab.async false

/-! ### Small blocks -/

/-- A configuration: one fabric port, one drive and one Weld link on die 1, a mirrored and a plain region. -/
def tCfg : SwgCfg :=
  { SwgCfg.empty with
    lanes := [⟨[⟨1, 0, 0, 0⟩, ⟨2, 0, 0, 0⟩, ⟨4, 1, 0, 0⟩, ⟨4, 1, 0, 0⟩], 0xFFFF⟩, ⟨[⟨1, 0, 0, 0⟩], 0⟩],
    dram := { dpaLimit := 0x40000000, dieBits := 0, rankBits := 0, dpc := 1, speed := 0, uePolicy := 0, chanFlags := 1, sets := 4, masks := [] },
    quench := { chanEnable := [1, 1], diesPerChan := 1, planes := 4, pages := 16, blocks := 8, onfiRate := 100, sparePct := 5, scratch := 4 },
    energy := { SwgCfg.empty.energy with strings := [⟨100, 1000, 3000, 0, 0, 0⟩] },
    backing := { stripe := 1, nss := [⟨1, 0, 1, 1000⟩] },
    weld := some { side := 0, heatLength := 1000, twinId := 7, regions := [⟨0, 0x10000000, 0, 0, 0⟩, ⟨0x10000000, 0x10000000, 0, 1, 0⟩] } }

/-- A register field. -/
def tF (F : Fld) (v : Nat) (a : Nat := 0) (b : Nat := 0) (c : Nat := 0) : FKey × Nat := (⟨F, a, b, c⟩, v)

/-- A block that serves: the dies of an OGL-2D in service, a port with its link, the firmware running. -/
def tUp : Dev :=
  { Dev.reset with
    fence := false, pkg := { Dev.reset.pkg with part := .ogl2d, runningSlot := some 0 }, swg := { Dev.reset.swg with cfg := tCfg, loaded := true },
    regs := [tF HCB_STATUS.IN_SERVICE 1 1, tF HCB_STATUS.IN_SERVICE 1 2, tF HCB_STATUS.IN_SERVICE 1 16, tF FAB_PORT_STATUS.LINK_UP 1 1,
      tF FAB_PORT_STATUS.MEM_ACTIVE 1 1, tF FAB_PORT_STATUS.CFG_READY 1 1, tF RST_STATUS.PHASE 6, tF BACK_PORT_STATUS.LINK_UP 1 1] }

/-- A block with register fields set. -/
def tR (l : List (FKey × Nat)) (d : Dev := tUp) : Dev := { d with regs := l ++ d.regs }

/-- Whether an answer is a success with a value. -/
def tOk {ε α : Type} [DecidableEq α] (x : Except ε α) (v : α) : Bool := match x with | .ok y => decide (y = v) | .error _ => false

theorem eq_of_tOk {ε α : Type} [DecidableEq α] {x : Except ε α} {v : α} (h : tOk x v = true) : x = .ok v := by
  cases x <;> simp_all [tOk]

theorem took {α β : Type} {x : α × β} {b : β} (h : x.2 = b) : x = (x.1, b) := by
  cases x; simp_all

theorem eta2 {α β : Type} {x : α × β} : x = (x.1, x.2) := rfl

/-- An event record of die 1. -/
def tRec : EvRec := { seq := 5, code := 0x1001, source := 1, severity := 0, quench := false, truncated := false, replayed := false, payload := List.replicate 16 0 }

/-- The block with other quads on die 1. -/
def tQuads (l : List QuadCfg) : Dev :=
  { tUp with swg := { tUp.swg with cfg := { tCfg with lanes := [⟨l, 0xFFFF⟩] } } }

/-- A request of port 0 for a slab outside the mirrored regions, and a block that holds requests. -/
def tReq : Req := ⟨1, .port 1 0 5 none, .write, 0x30000, 0, 0, fullMask, 7, 0, .arrival, 0⟩
def tQ (r : Req) (d : Dev := tUp) : Dev := { d with cru := { d.cru with reqs := [r] } }

/-- A block whose cache holds a slab. -/
def tTag (slab : Nat) (st : SlabState) (mask : Mask := 0) : Tag := ⟨slab, mask, st, 0, 0, 0, false⟩
def tHolds (t : Tag) (d : Dev := tUp) : Dev := { d with cru := { d.cru with tags := [(⟨d.setOf t.slab, 0⟩, t)] } }

/-- A Weld link of die 1 that is up, the pair up; its side set; a state of the link. -/
def tWeld : Dev := tR [tF WELD_LINK_STATUS.STATE 2 1 0, tF WELD_PAIR_STATUS.STATE 1]
def tSide (n : Nat) (d : Dev := tWeld) : Dev :=
  { d with swg := { d.swg with cfg := { tCfg with weld := tCfg.weld.map fun w => { w with side := n } } } }
def tLink (k : Link) (d : Dev := tWeld) : Dev := { d with weld := { d.weld with links := [((1, 0), k)] } }
def tK : Link := tUp.link (1, 0)
def tH : Head := ⟨1, 0, 0, 0, true, none⟩

/-- A region in a role. -/
def tRegion (n : Nat) (r : Role) (d : Dev := tWeld) : Dev := d.setRegion n { d.region n with role := r }

/-- The block's namespace in a state. -/
def tNs (st : NsState) (d : Dev := tUp) : Dev := { d with back := { d.back with ns := [(0, { d.ns 0 with state := st })] } }

/-- One string present and authenticated, its supplies up; one NAND die in service. -/
def tBstr : BStr := { tUp.bstr 0 with present := true, known := true }
def tPower : List (FKey × Nat) :=
  [tF BELL_STR_STATUS.AUTHENTICATED 1 0 0, tF BELL_STR_TEMP.NTC_A 250 0 0, tF BELL_STR_TEMP.NTC_B 250 0 0, tF BELL_SUPPLY_STATUS.MAIN_ABOVE 1,
    tF BELL_SUPPLY_STATUS.HOLD_ABOVE 1, tF BELL_SUPPLY_STATUS.PFN_LEVEL 1, tF QFL_NAND_STATUS.STATE 2 1 0 0, tF QFL_CHAN_STATUS.STATE 2 1 0, tF BELL_STR_STATUS.UNKNOWN 0 0 0]
def tQuad (st : QState) : Quad := ⟨st, 0, [0, 0, 0, 0], 0, 0, false⟩

/-- A block with one NAND die in service, one of its quads in a state. -/
def tNand (st : QState) (l : List (FKey × Nat) := []) : Dev :=
  { tR (l ++ tPower) with
    bell := { tUp.bell with strs := [(0, tBstr)] },
    qfl := { tUp.qfl with chans := [((1, 0), { tUp.qchan 1 0 with tabled := true })], quads := [(⟨1, 0, 0, 0⟩, tQuad st)] } }

/-- A Hearth channel of die 1 that serves. -/
def tC : Chan := { tUp.chan 1 0 with ranks := [0] }
def tChan (c : Chan) (l : List (FKey × Nat) := []) : Dev := { tR (l ++ [tF CHAN_STATUS.STATE 2 1 0]) with chans := [((1, 0), c)] }
def tCr : CReq := ⟨1, 0, 1, false, 0, 0, 0, 0, 0, false, false, false, false⟩

/-- A quench of die 1. -/
def tQd : QDie := ⟨0, [], [], 0, 0, 0, 0, 0, 0, [], none, [], false, none⟩
def tQn : Quench :=
  { cause := 1, t0 := 0, lastHeat := 0, sanitize := false, empty := false, gen := 1, keySlot := 0, keyGen := 0, slot := 0, chained := none,
    packageMode := true, dies := [1], tagWalk := [], parts := [(1, tQd)], notReady := [], lost := [], gone := [], fails := [], commit := none,
    drainSent := false, shed := [], kept := [], pointer := none }
def tQnch (q : Quench) (d : Dev := tUp) : Dev :=
  { d with quenching := true, quench := some q, cru := { d.cru with drained := slicesOf 1 ++ slicesOf 2 } }

theorem some_getD {α : Type} {o : Option α} {a : α} (h : o.isSome = true) : o = some (o.getD a) := by
  cases o <;> simp_all

def tStraps : Straps := ⟨false, false, false, false⟩

/-- Two authenticated strings, of which one may learn. -/
def tTwo (l : List (FKey × Nat) := []) (s : BStr := tBstr) : Dev :=
  { tR (l ++ [tF BELL_STR_STATUS.AUTHENTICATED 1 0 1, tF BELL_STR_TEMP.NTC_A 250 0 1, tF BELL_STR_STATUS.UNKNOWN 0 0 1] ++ tPower) with
    swg := { tUp.swg with cfg := { tCfg with energy := { tCfg.energy with flags := 1, strings := [⟨100, 1000, 3000, 0, 0, 0⟩, ⟨100, 1000, 3000, 0, 0, 0⟩] } } },
    bell := { tUp.bell with pending := [0], strs := [(0, s), (1, tBstr)] } }

/-- A state of the reset sequence; a step of the start-up (R560). -/
def tRs (r : RstState) (l : List (FKey × Nat) := []) : Dev := { tR l with rst := r }
def tStep (n : Nat) (l : List (FKey × Nat) := []) : Dev :=
  tRs { tUp.rst with powered := true, step := n, fw := [⟨1, true⟩, ⟨2, true⟩] } l

theorem eta3 {α β γ : Type} {x : α × β × γ} : x = (x.1, x.2.1, x.2.2) := rfl

/-- A Swage image of an OGL-2D, as the bytes of R43 to R60: one fabric port, one drive, one string. -/
def tSect (ty : Nat) (v : List Byte) : List Byte := leBytes 4 (ty + 256) ++ leBytes 4 v.length ++ v
def tImg : List Byte :=
  leBytes 4 (magicOf 0x53 0x57 0x47 0x32) ++ leBytes 8 (2 + 648 * 2 ^ 32) ++ leBytes 4 1 ++ leBytes 8 0 ++ leBytes 2 1 ++ leBytes 2 7 ++ leBytes 4 0 ++
  tSect 1 (leBytes 8 0) ++
  tSect 2 (leBytes 4 1 ++ leBytes 4 2 ++ leBytes 136 0) ++
  tSect 3 (leBytes 8 0x40000000 ++ leBytes 8 (1 + 2 ^ 16) ++ leBytes 8 1 ++
    ([1, 0, 0, 2, 4, 8, 16, 32, 0, 0, 0, 64, 128, 256, 512, 1024].map fun m => leBytes 8 (256 * m)).flatten) ++
  tSect 4 (leBytes 8 1 ++ leBytes 4 (1 + 4 * 2 ^ 8 + 64 * 2 ^ 16) ++ leBytes 4 256 ++ leBytes 4 (800 + 8 * 2 ^ 16) ++ leBytes 4 4) ++
  tSect 5 (leBytes 12 1 ++ leBytes 4 200 ++ leBytes 4 1 ++ leBytes 4 1000 ++ leBytes 8 0 ++ leBytes 16 0) ++
  tSect 9 (leBytes 8 0 ++ List.replicate 48 0xFF) ++
  tSect 10 (leBytes 4 1 ++ leBytes 4 1 ++ leBytes 8 1 ++ leBytes 16 262144)
def tCopy (copy : Nat) (d : Dev) : Dev :=
  { d with tmp := { d.tmp with mem := (tImg.zipIdx (copy * 0x100000)).filterMap fun e => if e.1 = 0xFF then none else some (e.2, e.1) } }

/-- A management session, and commands of the sideband. -/
def tMgr (d : Dev) : Dev := { d with sec := { d.sec with sessions := [⟨1, .sideband, true, true, true⟩] } }
def tMb (n : Nat) : Mb := ⟨.sideband, n, .session 1⟩
def tPlain (d : Dev) : Dev := { d with swg := { d.swg with cfg := { d.swg.cfg with weld := none } } }

theorem first_eq {α β γ : Type} {x : α × β × γ} {a : α} (h : x.1 = a) : x = (a, x.2.1, x.2.2) := by
  cases x; simp_all

/-! ### The checks of WellFormed refuse an ill-formed command -/

/-- The command passes the checks with an operand in its range and fails with one out of it. -/
def tRefuses (good bad : Instr) : Bool := good.wf && !bad.wf

theorem test_wf_die : tRefuses (.compactRecord 8 false) (.compactRecord 9 false) = true := by decide +kernel
theorem test_wf_die_zero : tRefuses (.compactRecord 1 false) (.compactRecord 0 false) = true := by decide +kernel
theorem test_wf_link : tRefuses (.weldTxRoom 1) (.weldTxRoom 0) = true := by decide +kernel
theorem test_wf_weld_link : tRefuses (.weldKeyRollNow 1 1) (.weldKeyRollNow 1 2) = true := by decide +kernel
theorem test_wf_fabric_port : tRefuses (.gpfRequest 1 15) (.gpfRequest 1 16) = true := by decide +kernel
theorem test_wf_root_port : tRefuses (.nvmeLinkDown 1 7) (.nvmeLinkDown 1 8) = true := by decide +kernel
theorem test_wf_dpa : tRefuses (.memRd 1 0 none 0 (2 ^ 52 - 1) 0 0) (.memRd 1 0 none 0 (2 ^ 52) 0 0) = true := by decide +kernel
theorem test_wf_line : tRefuses (.birsp 0 (2 ^ 46 - 1)) (.birsp 0 (2 ^ 46)) = true := by decide +kernel
theorem test_wf_slab : tRefuses (.fetchTimeout (2 ^ 40 - 1)) (.fetchTimeout (2 ^ 40)) = true := by decide +kernel
theorem test_wf_slice : tRefuses (.sliceParityError 1 8) (.sliceParityError 1 9) = true := by decide +kernel
theorem test_wf_quad : tRefuses (.quadTrainFailure 1 16) (.quadTrainFailure 1 17) = true := by decide +kernel
theorem test_wf_hearth_channel : tRefuses (.chanThaw 1 3) (.chanThaw 1 4) = true := by decide +kernel
theorem test_wf_rank : tRefuses (.refreshDue 1 0 7) (.refreshDue 1 0 8) = true := by decide +kernel
theorem test_wf_dimm : tRefuses (.caParityAlert 1 0 1 0) (.caParityAlert 1 0 2 0) = true := by decide +kernel
theorem test_wf_flash_channel : tRefuses (.qflZqCalibration 1 7) (.qflZqCalibration 1 8) = true := by decide +kernel
theorem test_wf_nand : tRefuses (.nandStatusTimeout 1 0 7) (.nandStatusTimeout 1 0 8) = true := by decide +kernel
theorem test_wf_plane : tRefuses (.qflOpFail 1 0 0 0 3 false) (.qflOpFail 1 0 0 0 4 false) = true := by decide +kernel
theorem test_wf_string : tRefuses (.bellStrLearn 7) (.bellStrLearn 8) = true := by decide +kernel
theorem test_wf_leaf : tRefuses (.leafClearErase 8) (.leafClearErase 9) = true := by decide +kernel
theorem test_wf_region : tRefuses (.forceSolo 15) (.forceSolo 16) = true := by decide +kernel
theorem test_wf_hearth : tRefuses (.evtWinNext 255) (.evtWinNext 256) = true := by decide +kernel
theorem test_wf_heat : tRefuses (.heatSeal 1 (2 ^ 64 - 1) true) (.heatSeal 1 (2 ^ 64) true) = true := by decide +kernel
theorem test_wf_class : tRefuses (.poolAlloc 1 0 1 3 false) (.poolAlloc 1 0 1 4 false) = true := by decide +kernel
theorem test_wf_requester : tRefuses (.poolAlloc 1 31 1 0 false) (.poolAlloc 1 32 1 0 false) = true := by decide +kernel
theorem test_wf_pool_die : tRefuses (.poolAllocFallback 0) (.poolAllocFallback 9) = true := by decide +kernel
theorem test_wf_queue : tRefuses (.tmpBlankCheck 10) (.tmpBlankCheck 11) = true := by decide +kernel
theorem test_wf_path : tRefuses (.spdmGetVersion (.port 1 0 (some 0xFFFF))) (.spdmGetVersion (.port 1 0 (some 16))) = true := by decide +kernel
theorem test_wf_head : tRefuses (.weldNak 1 1 0) (.keyRollOffer ⟨1, 2, 0, 0, true, none⟩ 0 0 true true) = true := by decide +kernel
theorem test_wf_mailbox : tRefuses (.identify ⟨.sideband, 2 ^ 21 - 1, .none⟩) (.identify ⟨.sideband, 2 ^ 21, .none⟩) = true := by decide +kernel
theorem test_wf_opcode : tRefuses (.unsupportedCommand ⟨.sideband, 0, .none⟩ 0xFFFF) (.unsupportedCommand ⟨.sideband, 0, .none⟩ 0x10000) = true := by decide +kernel
theorem test_wf_heat_length : tRefuses (.heatCtrlWrite (2 ^ 20 - 1) true true) (.heatCtrlWrite (2 ^ 20) true true) = true := by decide +kernel
theorem test_wf_spid : tRefuses (.gfamAccessTableSet 1 0 4095 true) (.gfamAccessTableSet 1 0 4096 true) = true := by decide +kernel
theorem test_wf_confirm : tRefuses (.quenchNow ⟨.sideband, 8, .none⟩ (2 ^ 32 - 1)) (.quenchNow ⟨.sideband, 8, .none⟩ (2 ^ 32)) = true := by decide +kernel
theorem test_wf_event_code : tRefuses (.tokenRefill 0xFFFF) (.tokenRefill 0x10000) = true := by decide +kernel
theorem test_wf_log_leaf : tRefuses (.logClearLeaf ⟨.sideband, 8, .none⟩ 0xFF) (.logClearLeaf ⟨.sideband, 8, .none⟩ 0x100) = true := by decide +kernel

/-! ### The manual's worked examples and its boundary values -/

/-- The block after a command. -/
def tAfter (c : Instr) (d : Dev) : Dev := match step { dev := d, pending := [c] } with | .next t => t.dev | _ => d

theorem test_reset_queue : State.reset.pending = [] := rfl

/-- A mask of the DPA bits it selects, as the register holds it: each bit four places lower (R52, R72). -/
def tMask (bits : List Nat) : Nat := sumOf (bits.map fun b => 2 ^ (b - 4))

/-- The address map of the worked example of Swage Image. -/
def tMap : DramCfg :=
  { SwgCfg.empty.dram with dieBits := 1, rankBits := 1, sets := 32129, masks := [tMask [12, 25, 38], 0, 0, tMask [13, 26, 39], tMask [14, 27, 40],
      tMask [15, 28, 41], tMask [16, 29, 42], tMask [17, 30, 43], tMask [18, 31, 44], 0, 0, tMask [19, 32, 45], tMask [20, 33, 46], tMask [21, 34, 47],
      tMask [22, 35, 48], tMask [23, 36, 49]] }

/-- Step 4 of that example: MASK[0] is 0x0004_0020_0100. -/
theorem test_map_mask : tMap.masks.getD 0 0 = 0x000400200100 := by decide +kernel
/-- Step 5: DPA 0x0000_0000_0200_1000 lies on die 1. -/
theorem test_map_die : (tMap.place (slabOf 0x02001000)).die = 1 := by decide +kernel
/-- Step 6: one stride of 32 MiB further lies on die 2. -/
theorem test_map_stride : (tMap.place (slabOf 0x04001000)).die = 2 := by decide +kernel
/-- Steps 3 and 7: the masks are independent; with bank0 = channel0 XOR bank1 they are not. -/
theorem test_map_independent : independent tMap.usedMasks 16 = true := by decide +kernel
theorem test_map_dependent :
    independent ({ tMap with masks := (tMap.masks.set 6 (tMask [16, 29])).set 14 (tMask [16, 29, 42]) |>.set 15 (tMask [42]) } : DramCfg).usedMasks 16 = false := by
  decide +kernel

/-- Backing Tier, locating a slab, steps 3 and 4: namespace 9. -/
theorem test_backing_namespace :
    ({ tUp with swg := { tUp.swg with cfg := { tCfg with backing := ⟨256, List.replicate 12 ⟨1, 0, 1, 2147483648⟩⟩ } } } : Dev).nsOf 0x01234567 = 9 := by
  decide +kernel

/-- Quench Flash, media terms, step 2: 82 spare blocks of a plane, 942 rated quads of 50,331,648 bytes. -/
def tMedia : Dev :=
  { tUp with swg := { tUp.swg with cfg := { tCfg with quench := { tCfg.quench with pages := 768, blocks := 1024, sparePct := 8, diesPerChan := 4 } } } }
theorem test_flash_spares : tMedia.spareCount = 82 ∧ tMedia.ratedQuads = 942 ∧ tMedia.quadBytes = 50331648 := by decide +kernel

/-- Buffer Pools, the last buffer of class 3, steps 3 and 5: the handle of buffer 57 of die 2 is 0x2759_0000, and 0x2759_8000 is no handle. -/
theorem test_pool_handle : tUp.handle ⟨2, 3, 57⟩ = 0x27590000 := by decide +kernel
theorem test_pool_bad_handle :
    (match ({ tUp with pool := { tUp.pool with bufs := [(⟨2, 3, 57⟩, ⟨false, 24, 2, 0⟩)] } } : Dev).checkHandle 0x27598000 with
      | .ok _ => false | .error n => decide (n = 4)) = true := by decide +kernel

/-- Heats, the wrap day, steps 4 and 5: heat numbers extended across the wrap. -/
theorem test_heat_before_wrap : (tR [tF HEAT_CURRENT.HEAT 0x5FFFFFFFE]).extend 0x00000001 = some 0x600000001 := by decide +kernel
theorem test_heat_after_wrap : (tR [tF HEAT_CURRENT.HEAT 0x600000002]).extend 0xFFFFFFFF = some 0x5FFFFFFFF := by decide +kernel

/-- Register Map, finding registers, steps 1, 2 and 4: blocks, areas and elements. -/
theorem test_map_block : blockAt 0x00162008 = some (.die, 3, 0x2008) := by decide +kernel
theorem test_map_journal : ((hitsAt .die 0x2008 4).map fun h => h.place.reg) = [.HEAT_JRNL_STATUS] := by decide +kernel
theorem test_map_rank : blockAt 0x0018A110 = some (.die, 4, 0xA110) ∧
    ((hitsAt .die 0xA110 4).map fun h => (h.place.reg, h.i, h.j)) = [(.CHAN_RANK_STATUS, 1, 1)] := by decide +kernel
theorem test_map_eye : ((hitsAt .die 0x11C94 4).map fun h => (h.place.reg, h.i, h.j)) = [(.TRN_EYE, 2, 37)] := by decide +kernel

/-- Pins, setting MAIN_SENSE, step 2: with code 101 the threshold is 0.804 V. -/
def tMain : Dev :=
  { tR [tF QNCH_TRIG_CTRL.MAIN_THRESH 101, tF QNCH_TRIG_CTRL.MAIN_EN 1, tF QNCH_TRIG_CTRL.MAIN_FILTER 0] with heat := { tUp.heat with opened := true } }
theorem test_main_sense_below : (tAfter (.mainSenseTrip 803 1000) tMain).quenching = true := by decide +kernel
theorem test_main_sense_at : (tAfter (.mainSenseTrip 804 1000) tMain).quenching = false := by decide +kernel

/-- Service and Spares, life used, steps 4 and 5: V_base 0.720 V and V_need 0.745 V give 19. -/
theorem test_life_voltage : (tR [tF SVC_VDD.BASE 720 1, tF SVC_VDD.NEEDED 745 1]).lifeV 1 = 19 := by decide +kernel
/-- Step 3: 30,992.5 weighted hours give 14. -/
theorem test_life_heat :
    ({ tUp with svc := { tUp.svc with weighted := [(1, 309925 * 360 * 2 ^ 32)] } } : Dev).lifeT 1 = 14 := by decide +kernel

/-- CRC-32 (IEEE 802.3) of "123456789": the check value published with that code. -/
theorem test_crc : crc32 [0x31, 0x32, 0x33, 0x34, 0x35, 0x36, 0x37, 0x38, 0x39] = 0xCBF43926 := by decide +kernel

/-- R554: a pulse below 1 µs is counted in GLITCHES and resets nothing. -/
theorem test_reset_glitch :
    (tAfter (.resetNAssert 999 tStraps) (tRs { tUp.rst with powered := true })).f RST_GLITCHES.COUNT = 1 := by decide +kernel

/-! ### Witnesses of the statements' hypotheses, clause by clause -/

/-- A block with a buffer of die 1 that requester 3 owns. -/
def tBuf (b : Buf) : Dev := { tUp with pool := { tUp.pool with bufs := [(⟨1, 1, 0⟩, b)] } }

theorem wit_PoolCommandsRun_1 :
    ∃ (d : Dev) (die : Nat) (r : Nat) (srcDie : Nat) (c : Nat) (i : Nat) (nf : Bool), die ≠ 0 ∧ d.inService die = true ∧ c ≤ 3 ∧ d.mayAlloc r =
    true ∧ r ≠ 26 ∧ r ≠ 30 ∧ d.quarantined die r = false ∧ d.held die r c < d.quota r c ∧ d.reserve die c < d.freeBufs die c ∧ d.lowestFree die
    c = some i := by
  exact
    ⟨tUp, 1, 3, 1, 0, 0, false, by decide +kernel, by decide +kernel, by decide +kernel, by decide +kernel, by decide +kernel,
    by decide +kernel, by decide +kernel, by decide +kernel, by decide +kernel, by decide +kernel⟩

theorem wit_PoolCommandsRun_2 :
    ∃ (d : Dev) (die : Nat) (c : Nat) (r : Nat) (srcDie : Nat), d.pool.fallback.find? (fun q => decide (q.1 = die)) = some (die, c, r, srcDie) := by
  exact
    ⟨({ tUp with pool := { tUp.pool with fallback := [(1, 1, 3, 1)] } }), 1, 1, 3, 1, by decide +kernel⟩

theorem wit_PoolCommandsRun_3 :
    ∃ (d : Dev) (r : Nat) (srcDie : Nat) (h : Nat) (k : BufKey) (b : Buf), (d.poolCmd (handleDie h) r srcDie 2 h).checkHandle h = .ok k ∧ tget
    d.pool.bufs k = some b ∧ b.ownedBy r srcDie = true ∧ b.pending = false := by
  exact
    ⟨(tBuf ⟨false, 3, 1, 0⟩), 3, 1, 0x12400000, ⟨1, 1, 0⟩, ⟨false, 3, 1, 0⟩, eq_of_tOk (by decide +kernel), by decide +kernel,
    by decide +kernel, by decide +kernel⟩

theorem wit_PoolCommandsRun_4 :
    ∃ (d : Dev) (r : Nat) (srcDie : Nat) (h : Nat) (k : BufKey) (b : Buf), (d.poolCmd (handleDie h) r srcDie 3 h).checkHandle h = .ok k ∧ tget
    d.pool.bufs k = some b ∧ ((d.poolCmd (handleDie h) r srcDie 3 h).arbiterPast (handleDie h) k.cls r).quarantined (handleDie h) r = false ∧
    b.pending = false ∧ b.share < 255 := by
  exact
    ⟨(tBuf ⟨false, 3, 1, 254⟩), 3, 1, 0x12400000, ⟨1, 1, 0⟩, ⟨false, 3, 1, 254⟩, eq_of_tOk (by decide +kernel), by decide +kernel,
    by decide +kernel, by decide +kernel, by decide +kernel⟩

theorem wit_PoolCommandsRun_5 :
    ∃ (d : Dev) (r : Nat) (srcDie : Nat) (h : Nat) (k : BufKey) (b : Buf), (d.poolCmd (handleDie h) r srcDie 4 h).checkHandle h = .ok k ∧ tget
    d.pool.bufs k = some b ∧ b.share ≠ 0 := by
  exact
    ⟨(tBuf ⟨false, 3, 1, 255⟩), 3, 1, 0x12400000, ⟨1, 1, 0⟩, ⟨false, 3, 1, 255⟩, eq_of_tOk (by decide +kernel), by decide +kernel,
    by decide +kernel⟩

theorem wit_PoolCommandsRun_6 :
    ∃ (d : Dev) (r : Nat) (srcDie : Nat) (h : Nat) (newReq : Nat) (newDie : Nat) (k : BufKey) (b : Buf) (x : Dev), x = (d.poolCmd (handleDie h)
    r srcDie 5 h).arbiterPast (handleDie h) k.cls r ∧ (d.poolCmd (handleDie h) r srcDie 5 h).checkHandle h = .ok k ∧ tget d.pool.bufs k = some b
    ∧ x.quarantined (handleDie h) r = false ∧ b.ownedBy r srcDie = true ∧ b.pending = false ∧ x.held (handleDie h) newReq k.cls < x.quota newReq
    k.cls := by
  exact
    ⟨(tBuf ⟨false, 3, 1, 0⟩), 3, 1, 0x12400000, 4, 1, ⟨1, 1, 0⟩, ⟨false, 3, 1, 0⟩, _, rfl, eq_of_tOk (by decide +kernel), by decide +kernel,
    by decide +kernel, by decide +kernel, by decide +kernel, by decide +kernel⟩

theorem wit_PoolCommandsRun_7 :
    ∃ (d : Dev) (die : Nat) (op : Nat), d.inService die = true ∧ (op = 0 ∨ op = 6 ∨ op = 7) ∧ d.fb POOL_CMD_STATUS.BUSY die = false := by
  exact
    ⟨tUp, 1, 7, by decide +kernel, by decide +kernel, by decide +kernel⟩

theorem wit_PoolCommandsRun_8 :
    ∃ (d : Dev) (die : Nat) (r : Nat) (n : Nat), d.inService die = true ∧ r < 32 ∧ d.quarantined die r = true ∧ n = d.f POOL_VIOLATIONS.COUNT
    die r ∧ (bitsOf 32 (2 ^ r)).filter (d.quarantined die) = [r] := by
  exact
    ⟨(tR [tF POOL_QUARANTINE.MASK 8 1]), 1, 3, _, by decide +kernel, by decide +kernel, by decide +kernel, rfl, by decide +kernel⟩

def tImage (d : Dev) (copy : Nat) : Nat × SwgCfg × List Sect :=
  verifyImage ⟨d.pkg.part, d.pkg.ownerKeyId, true, 1000000000, none⟩ (d.copyRead copy)

theorem image_copy (d e : Dev) (copy : Nat) (h1 : d.pkg = e.pkg) (h2 : d.tmp = e.tmp) (h3 : d.free = e.free) : tImage d copy = tImage e copy := by
  have hp : d.phys = e.phys := by funext a; simp only [Dev.phys, Dev.physSector, h2]
  have hu : d.tmpUndefined = e.tmpUndefined := by funext a; simp only [Dev.tmpUndefined, hp, h2]
  have hb : d.tmpByte = e.tmpByte := by funext a; simp only [Dev.tmpByte, hu, hp, h2, h3]
  have h : d.copyRead copy = e.copyRead copy := by funext a b; simp only [Dev.copyRead, Dev.tmpRange, hb]
  unfold tImage
  rw [h1, h]

theorem image_a : (tImage (tCopy 0 tUp) 0).1 = 0 := by decide +kernel
theorem image_b : (tImage (tCopy 1 tUp) 1).1 = 0 := by decide +kernel

theorem image_eq (d : Dev) (copy : Nat) : verifyImage ⟨d.pkg.part, d.pkg.ownerKeyId, true, 1000000000, none⟩ (d.copyRead copy) =
    ((tImage d copy).1, (tImage d copy).2.1, (tImage d copy).2.2) := by
  unfold tImage
  exact eta3

/-- A block with one descriptor in a Temper queue, its buffer 0 of the Bellows pool in use. -/
def tTmp (q w0 w1 : Nat) : Dev :=
  { tR [tF TMP_Q_TAIL.TAIL 1 0 q, tF TMP_DESC.WORD w0 0 q 0, tF TMP_DESC.WORD w1 0 q 1] with
    pool := { tUp.pool with bufs := [(⟨0, 1, 0⟩, ⟨false, 0, 0, 0⟩)] } }
/-- A running operation of the Temper store. -/
def tRun : TmpRun := { banks := [0], op := .eraseSector, queue := some 0, addr := 0, words := 512, tag := 0, old := [] }

theorem wit_TemperReadsRun_1 :
    ∃ (d : Dev) (q : Nat) (m : List (Nat × Bool)) (k : BufKey), d.tmpReady q (some .read) ∧ d.tmpCheck q (d.headDesc q) = .ok (.read, some k) ∧
    d.tmpMustWait q (d.headDesc q) .read = false := by
  exact
    ⟨(tTmp 0 (1 + 8 * 2 ^ 16) 0x02000000), 0, [], ⟨0, 1, 0⟩, by unfold Dev.tmpReady; decide +kernel, eq_of_tOk (by decide +kernel),
    by decide +kernel⟩

theorem wit_TemperReadsRun_2 :
    ∃ (d : Dev) (q : Nat), d.tmpReady q (some .blankCheck) ∧ d.tmpCheck q (d.headDesc q) = .ok (.blankCheck, none) ∧ d.tmpMustWait q (d.headDesc
    q) .blankCheck = false := by
  exact
    ⟨(tTmp 0 (5 + 8 * 2 ^ 16) 0), 0, by unfold Dev.tmpReady; decide +kernel, eq_of_tOk (by decide +kernel), by decide +kernel⟩

theorem wit_TemperReadsRun_3 :
    ∃ (d : Dev) (q : Nat) (diffs : List Nat) (k : BufKey), d.tmpReady q (some .marginRead) ∧ d.tmpCheck q (d.headDesc q) = .ok (.marginRead,
    some k) ∧ d.tmpMustWait q (d.headDesc q) .marginRead = false := by
  exact
    ⟨(tTmp 0 (6 + 8 * 2 ^ 16) 0x02000000), 0, [], ⟨0, 1, 0⟩, by unfold Dev.tmpReady; decide +kernel, eq_of_tOk (by decide +kernel),
    by decide +kernel⟩

theorem wit_TemperReadsRun_4 :
    ∃ (d : Dev) (q : Nat), d.tmpReady q none := by
  exact
    ⟨(tTmp 0 7 0), 0, by unfold Dev.tmpReady; decide +kernel⟩

theorem wit_TemperReadsRun_5 :
    ∃ (d : Dev) (c : Nat) (u : Nat) (l : Nat) (n : Nat), d.fb TMP_CTRL.PATROL_EN = true ∧ ((List.range 11776).filter d.sectorProgrammed).find?
    (fun x => decide (d.f TMP_PATROL_POS.SECTOR ≤ x)) = some l ∧ ((List.range 11776).filter d.sectorProgrammed).find? (fun x => decide (l < x))
    = some n ∧ c < d.f TMP_CTRL.WARN_BITS := by
  exact
    ⟨({ tUp with tmp := { tUp.tmp with mem := [(0, 0), (4096, 0)] } }), 3, 0, 0, 1, by decide +kernel, by decide +kernel, by decide +kernel,
    by decide +kernel⟩

theorem wit_TemperWritesRun_1 :
    ∃ (d : Dev) (q : Nat) (data : List Word) (k : BufKey) (x : Dev), d.tmpReady q (some .program) ∧ d.checkHandle (d.headDesc q).handle = .ok k
    ∧ x = { d with pool := { d.pool with data := tset d.pool.data k data } } ∧ x.tmpCheck q (d.headDesc q) = .ok (.program, some k) ∧
    x.tmpMustWait q (d.headDesc q) .program = false := by
  exact
    ⟨(tTmp 0 (2 + 8 * 2 ^ 16 + 0x2000000 * 2 ^ 32) 0x02000000), 0, [], ⟨0, 1, 0⟩, _, by unfold Dev.tmpReady; decide +kernel,
    eq_of_tOk (by decide +kernel), rfl, eq_of_tOk (by decide +kernel), by decide +kernel⟩

theorem wit_TemperWritesRun_2 :
    ∃ (d : Dev) (q : Nat) (data : List Word) (k : BufKey) (x : Dev), d.tmpReady q (some .programAnd) ∧ d.checkHandle (d.headDesc q).handle = .ok
    k ∧ x = { d with pool := { d.pool with data := tset d.pool.data k data } } ∧ x.tmpCheck q (d.headDesc q) = .ok (.programAnd, some k) ∧
    x.tmpMustWait q (d.headDesc q) .programAnd = false := by
  exact
    ⟨(tTmp 0 (3 + 8 * 2 ^ 16 + 0x1F70000 * 2 ^ 32) 0x02000000), 0, [], ⟨0, 1, 0⟩, _, by unfold Dev.tmpReady; decide +kernel,
    eq_of_tOk (by decide +kernel), rfl, eq_of_tOk (by decide +kernel), by decide +kernel⟩

theorem wit_TemperWritesRun_3 :
    ∃ (d : Dev) (q : Nat), d.tmpReady q (some .eraseSector) ∧ d.tmpCheck q (d.headDesc q) = .ok (.eraseSector, none) ∧ d.tmpMustWait q
    (d.headDesc q) .eraseSector = false := by
  exact
    ⟨(tTmp 0 (4 + 512 * 2 ^ 16 + 0x2000000 * 2 ^ 32) 0), 0, by unfold Dev.tmpReady; decide +kernel, eq_of_tOk (by decide +kernel),
    by decide +kernel⟩

theorem wit_TemperWritesRun_4 :
    ∃ (d : Dev) (q : Nat) (r : TmpRun), d.tmp.running.find? (fun r => decide (r.queue = some q)) = some r ∧ r.op = .eraseSector := by
  exact
    ⟨({ tUp with tmp := { tUp.tmp with running := [tRun] } }), 0, tRun, by decide +kernel, by decide +kernel⟩

theorem wit_TemperWritesRun_5 :
    ∃ (d : Dev) (l : Nat) (spare : Nat), d.tmp.scrubs.contains l = true ∧ d.tmp.spares.contains spare = true := by
  exact
    ⟨({ tUp with tmp := { tUp.tmp with scrubs := [3] } }), 3, 11840, by decide +kernel, by decide +kernel⟩

theorem wit_RecorderCommandsRun_2 :
    ∃ (d : Dev) (k : Nat) (r : EvRec), d.aonLow = false ∧ d.evt.queue.find? (fun q => d.slotErased q.1 (d.f EVT_LEAF_STATUS.RECORDS 0 q.1)) =
    some (k, r) ∧ d.f EVT_LEAF_STATUS.RECORDS 0 k < leafSlots := by
  exact
    ⟨({ tUp with evt := { tUp.evt with queue := [(1, tRec)] } }), 1, tRec, by decide +kernel, by decide +kernel, by decide +kernel⟩

theorem wit_RecorderCommandsRun_3 :
    ∃ (d : Dev) (code : Nat), (d.bucket code).tokens < 8 ∧ (d.bucket code).suppressed = 0 := by
  exact
    ⟨({ tUp with evt := { tUp.evt with buckets := [(0x1001, ⟨7, 0, 0, 0, 0⟩)] } }), 0x1001, by decide +kernel, by decide +kernel⟩

theorem wit_RecorderCommandsRun_4 :
    ∃ (d : Dev), d.evt.reservation ≤ d.evt.nextSeq + 2 ^ 19 ∧
    (({ d with evt := { d.evt with reservation := d.evt.reservation + 2 ^ 20 } }).saveReservation).fb EVT_STATUS.SEQ_STALL = false := by
  exact
    ⟨({ tUp with evt := { tUp.evt with reservation := 2 ^ 19, nextSeq := 1 } }), by decide +kernel, by decide +kernel⟩

theorem wit_RecorderCommandsRun_5 :
    ∃ (d : Dev) (leaf : Nat) (sector : Nat), tget d.evt.clearing leaf = some sector ∧ sector < 95 := by
  exact
    ⟨({ tUp with evt := { tUp.evt with clearing := [(1, 94)] } }), 1, 94, by decide +kernel, by decide +kernel⟩

theorem wit_RecorderCommandsRun_6 :
    ∃ (d : Dev) (h : Nat) (seq : Nat), d.hearthExists h = true := by
  exact
    ⟨tUp, 1, 0, by decide +kernel⟩

theorem wit_RecorderCommandsRun_7 :
    ∃ (d : Dev) (h : Nat) (r : EvRec), d.hearthExists h = true ∧ d.winRecord h = some r := by
  exact
    ⟨({ tUp with evt := { tUp.evt with view := [(0, tRec)] } }), 1, tRec, by decide +kernel, by decide +kernel⟩

theorem wit_SwageChecksRun_1 :
    ∃ (d : Dev), d.fb SWG_CHECK.CHECK_BUSY = false := by
  exact
    ⟨tUp, by decide +kernel⟩

theorem wit_SwageChecksRun_2 :
    ∃ (d : Dev), d.fb SWG_CHECK.CHECK_BUSY = false := by
  exact
    ⟨tUp, by decide +kernel⟩

theorem wit_SwageChecksRun_3 :
    ∃ (d : Dev) (ok : Bool) (bank : Nat) (copy : Nat), d.swg.checking = some copy ∧ (verifyImage ⟨d.pkg.part, d.pkg.ownerKeyId, ok, bank, none⟩
    (d.copyRead copy)).1 = 0 := by
  exact
    ⟨({ tCopy 0 tUp with swg := { (tCopy 0 tUp).swg with checking := some 0 } }), true, 1000000000, 0, by decide +kernel,
    by exact (congrArg Prod.fst (image_copy _ (tCopy 0 tUp) 0 rfl rfl rfl)).trans image_a⟩

/-- A staging buffer of request 1 in a phase. -/
def tSg (p : Nat) : Staging := ⟨0x30000, 0, [], [], p, 0⟩
def tStage (p : Nat) (be : Mask) : Dev :=
  { tQ { tReq with be := be, wait := .staging } with cru := { (tQ { tReq with be := be, wait := .staging }).cru with staging := [(1, tSg p)] } }

theorem wit_FabricAccessesRun_1 :
    ∃ (d : Dev) (die : Nat) (port : Nat) (host : Nat) (dpa : Nat) (tag : Nat) (a : Nat) (ld : Option Nat) (data : Line) (be : Mask) (x : Dev),
    d.portTakes die port = true ∧ d.f FAB_PORT_CREDITS.RWD_FREE die port ≠ 0 ∧ d.fence = false ∧ x = (d.setF FAB_PORT_CREDITS.RWD_FREE (d.f
    FAB_PORT_CREDITS.RWD_FREE die port - 1) die port).countAccepted die port 1 ∧ x.accessCause die port ld host dpa = (none, a) := by
  exact
    ⟨tUp, 1, 0, 5, 0x30000000, 7, 0x30000000, none, 0, fullMask, _, by decide +kernel, by decide +kernel, by decide +kernel, rfl,
    by decide +kernel⟩

theorem wit_FabricAccessesRun_2 :
    ∃ (d : Dev) (die : Nat) (port : Nat) (host : Nat) (dpa : Nat) (tag : Nat) (ld : Option Nat) (data : Line) (be : Mask), d.portTakes die port
    = true ∧ d.f FAB_PORT_CREDITS.RWD_FREE die port ≠ 0 ∧ d.fence = true := by
  exact
    ⟨({ tUp with fence := true }), 1, 0, 5, 0, 7, none, 0, fullMask, by decide +kernel, by decide +kernel, by decide +kernel⟩

theorem wit_FabricAccessesRun_3 :
    ∃ (d : Dev) (die : Nat) (port : Nat) (host : Nat) (dpa : Nat) (own : Nat) (tag : Nat) (a : Nat) (ld : Option Nat) (x : Dev), d.portTakes die
    port = true ∧ d.f FAB_PORT_CREDITS.REQ_FREE die port ≠ 0 ∧ x = d.setF FAB_PORT_CREDITS.REQ_FREE (d.f FAB_PORT_CREDITS.REQ_FREE die port - 1)
    die port ∧ x.accessCause die port ld host dpa = (none, a) := by
  exact
    ⟨tUp, 1, 0, 5, 0x30000000, 0, 7, 0x30000000, none, _, by decide +kernel, by decide +kernel, rfl, by decide +kernel⟩

theorem wit_FabricAccessesRun_4 :
    ∃ (d : Dev) (host : Nat) (line : Nat) (x : Dev), d.fab.snoops.contains (line, host) = true ∧ x = (d.dirRemove line host).afterSnoops := by
  exact
    ⟨({ tUp with fab := { tUp.fab with snoops := [(8, 5)] } }), 5, 8, _, by decide +kernel, rfl⟩

theorem wit_FabricAccessesRun_6 :
    ∃ (d : Dev) (die : Nat) (port : Nat) (spid : Nat), d.isDie die = true ∧ d.swg.cfg.hasPort die port = true ∧ d.swg.cfg.portMode die port = 2 := by
  exact
    ⟨(tQuads [⟨1, 0, 0, 4⟩]), 1, 0, 5, by decide +kernel, by decide +kernel, by decide +kernel⟩

theorem wit_FabricLinksRun_1 :
    ∃ (d : Dev) (die : Nat) (port : Nat) (ld : Nat) (start : Nat) (size : Nat), d.swg.cfg.hasPort die port = true ∧ ld < d.swg.cfg.portLds die
    port ∧ start % 2 ^ 28 = 0 ∧ size % 2 ^ 28 = 0 ∧ size ≠ 0 ∧ start + size ≤ d.swg.cfg.dram.dpaLimit ∧ ((d.fab.lds.any fun e => decide (e.1 ≠
    (die, port, ld) ∧ start < e.2.1 + e.2.2 ∧ e.2.1 < start + size)) = false) ∧ d.dirtyIn (tgetD d.fab.lds (die, port, ld) (0, 0)).1 (tgetD
    d.fab.lds (die, port, ld) (0, 0)).2 = false ∧ d.dirtyIn start size = false := by
  exact
    ⟨(tQuads [⟨1, 0, 0, 2 + 16⟩]), 1, 0, 1, (2 ^ 28), (2 ^ 28), by decide +kernel, by decide +kernel, by decide +kernel, by decide +kernel,
    by decide +kernel, by decide +kernel, by decide +kernel, by decide +kernel, by decide +kernel⟩

theorem wit_FabricLinksRun_2 :
    ∃ (d : Dev) (die : Nat) (port : Nat), d.isDie die = true ∧ d.swg.cfg.hasPort die port = true ∧ d.portUp die port = true := by
  exact
    ⟨tUp, 1, 0, by decide +kernel, by decide +kernel, by decide +kernel⟩

theorem wit_FabricLinksRun_3 :
    ∃ (d : Dev) (die : Nat) (port : Nat) (g : GpfWait), (d.fab.gpf.find? (fun g => decide (g.die = die ∧ g.port = port)) = some g) ∧
    (d.cru.reqs.any fun r => g.rids.contains r.rid && r.notPassed) = false := by
  exact
    ⟨({ tUp with fab := { tUp.fab with gpf := [⟨1, 0, [], 0⟩] } }), 1, 0, ⟨1, 0, [], 0⟩, by decide +kernel, by decide +kernel⟩

theorem wit_FabricLinksRun_4 :
    ∃ (d : Dev) (die : Nat) (port : Nat), d.inService die = true ∧ d.swg.cfg.hasPort die port = true ∧ d.quenching = false := by
  exact
    ⟨tUp, 1, 0, by decide +kernel, by decide +kernel, by decide +kernel⟩

theorem wit_FabricLinksRun_5 :
    ∃ (d : Dev) (die : Nat) (port : Nat) (ld : Nat), d.inService die = true ∧ d.swg.cfg.hasPort die port = true ∧ d.quenching = false ∧
    d.mbox.running = none := by
  exact
    ⟨tUp, 1, 0, 0, by decide +kernel, by decide +kernel, by decide +kernel, by decide +kernel⟩

theorem wit_FabricLinksRun_6 :
    ∃ (d : Dev) (die : Nat) (port : Nat) (stream : Nat) (slot : Nat), d.isDie die = true ∧ d.swg.cfg.hasPort die port = true ∧ d.portUp die port
    = true ∧ stream ≠ 0 := by
  exact
    ⟨tUp, 1, 0, 1, 0, by decide +kernel, by decide +kernel, by decide +kernel, by decide +kernel⟩

theorem wit_FabricLinksRun_7 :
    ∃ (d : Dev) (die : Nat) (port : Nat) (width : Nat) (rate : Nat) (r : Nat) (w : Nat), d.inService die = true ∧ d.swg.cfg.hasPort die port =
    true ∧ d.quenching = false ∧ d.swg.loaded = true ∧ d.portUp die port = false ∧ r = Nat.min rate (d.swg.cfg.fabricQuad die port).rate ∧ w =
    Nat.min width (4 * widthQuads (d.swg.cfg.fabricQuad die port).width) := by
  exact
    ⟨(tR [tF FAB_PORT_STATUS.LINK_UP 0 1 0]), 1, 0, 8, 5, _, _, by decide +kernel, by decide +kernel, by decide +kernel, by decide +kernel,
    by decide +kernel, rfl, rfl⟩

theorem wit_FabricLinksRun_8 :
    ∃ (d : Dev) (die : Nat) (port : Nat) (ltssm : Nat), d.isDie die = true ∧ d.swg.cfg.hasPort die port = true ∧ d.portUp die port = true := by
  exact
    ⟨tUp, 1, 0, 0, by decide +kernel, by decide +kernel, by decide +kernel⟩

theorem wit_CrucibleRequestsRun_1 :
    ∃ (d : Dev) (rid : Nat) (look : TagLook) (bad : Bool) (r : Req), d.req rid = some r ∧ r.isRead = false := by
  exact
    ⟨(tQ tReq), 1, .hit, false, tReq, by decide +kernel, by decide +kernel⟩

theorem wit_CrucibleRequestsRun_2 :
    ∃ (d : Dev) (rid : Nat) (look : TagLook) (bad : Bool) (r : Req), d.req rid = some r ∧ r.isRead = true := by
  exact
    ⟨(tQ { tReq with kind := .read 0 }), 1, .miss, true, ({ tReq with kind := .read 0 }), by decide +kernel, by decide +kernel⟩

theorem wit_CrucibleRequestsRun_3 :
    ∃ (d : Dev) (slab : Nat) (data : List Line), tget d.cru.fills slab = some false ∧ d.quenching = false ∧ d.frozenSlab slab = false := by
  exact
    ⟨({ tUp with cru := { tUp.cru with fills := [(3, false)] } }), 3, [], by decide +kernel, by decide +kernel, by decide +kernel⟩

theorem wit_CrucibleRequestsRun_4 :
    ∃ (d : Dev) (slab : Nat) (status : Nat), tget d.cru.fills slab = some false ∧ d.quenching = false := by
  exact
    ⟨({ tUp with cru := { tUp.cru with fills := [(3, false)] } }), 3, 4, by decide +kernel, by decide +kernel⟩

theorem wit_CrucibleRequestsRun_5 :
    ∃ (d : Dev) (slab : Nat), d.selects slab = true ∧ d.quenching = false := by
  exact
    ⟨(tNs .online { tHolds (tTag 0x30000 .dirty 1) with cru := { (tHolds (tTag 0x30000 .dirty 1)).cru with engine := true } }), 0x30000,
    by decide +kernel, by decide +kernel⟩

theorem wit_CrucibleRequestsRun_6 :
    ∃ (d : Dev) (slab : Nat), d.stateOf slab = .dirty ∧ d.f CRUC_DESTAGE_CTRL.IDLE_MS ≠ 0 ∧ d.cru.idleDue.contains slab = false := by
  exact
    ⟨(tR [tF CRUC_DESTAGE_CTRL.IDLE_MS 1] (tHolds (tTag 3 .dirty 1))), 3, by decide +kernel, by decide +kernel, by decide +kernel⟩

theorem wit_CrucibleRequestsRun_7 :
    ∃ (d : Dev) (slab : Nat), (tget d.cru.destages slab).isSome = true ∧ d.quenching = false := by
  exact
    ⟨({ tUp with cru := { tUp.cru with destages := [(3, ⟨0, []⟩)] } }), 3, by decide +kernel, by decide +kernel⟩

theorem wit_CrucibleRequestsRun_8 :
    ∃ (d : Dev) (slab : Nat) (status : Nat) (g : Destage), tget d.cru.destages slab = some g ∧ d.quenching = false := by
  exact
    ⟨({ tUp with cru := { tUp.cru with destages := [(3, ⟨0, []⟩)] } }), 3, 6, ⟨0, []⟩, by decide +kernel, by decide +kernel⟩

theorem wit_CrucibleWaitsRun_1 :
    ∃ (d : Dev) (rid : Nat) (r : Req), d.req rid = some r ∧ d.mayRetry r = true ∧ d.quenching = false := by
  exact
    ⟨(tQ { tReq with wait := .setStall 9 }), 1, ({ tReq with wait := .setStall 9 }), by decide +kernel, by decide +kernel, by decide +kernel⟩

theorem wit_CrucibleWaitsRun_2 :
    ∃ (d : Dev) (rid : Nat) (t : Nat) (r : Req), d.req rid = some r ∧ r.wait = .way t ∧ tget d.cru.heldAt (d.setOf r.slab) = none := by
  exact
    ⟨(tQ { tReq with wait := .way 0 }), 1, 0, ({ tReq with wait := .way 0 }), by decide +kernel, by decide +kernel, by decide +kernel⟩

theorem wit_CrucibleWaitsRun_3 :
    ∃ (d : Dev) (rid : Nat) (r : Req) (data : List Line), d.req rid = some r ∧ r.wait = .uncached ∧ d.quenching = false ∧ d.cru.poison.contains
    (r.slab, r.sector) = false := by
  exact
    ⟨(tQ { tReq with kind := .read 0, wait := .uncached }), 1, ({ tReq with kind := .read 0, wait := .uncached }), [], by decide +kernel,
    by decide +kernel, by decide +kernel, by decide +kernel⟩

theorem wit_CrucibleWaitsRun_4 :
    ∃ (d : Dev) (rid : Nat) (status : Nat) (g : Staging) (data : List Line), tget d.cru.staging rid = some g ∧ g.phase = 0 ∧ d.quenching = false := by
  exact
    ⟨(tStage 0 1), 1, 0, (tSg 0), [], by decide +kernel, by decide +kernel, by decide +kernel⟩

theorem wit_CrucibleWaitsRun_5 :
    ∃ (d : Dev) (rid : Nat) (status : Nat) (g : Staging) (r : Req), tget d.cru.staging rid = some g ∧ d.req rid = some r ∧ g.phase = 1 ∧
    d.quenching = false := by
  exact
    ⟨(tStage 1 1), 1, 4, (tSg 1), ({ tReq with be := 1, wait := .staging }), by decide +kernel, by decide +kernel, by decide +kernel,
    by decide +kernel⟩

theorem wit_CrucibleWaitsRun_6 :
    ∃ (d : Dev) (rid : Nat) (status : Nat) (g : Staging) (r : Req) (x : Dev), tget d.cru.staging rid = some g ∧ d.req rid = some r ∧ g.phase = 1
    ∧ d.quenching = false ∧ r.be ≠ fullMask ∧ x = d.setCru (fun c =>
    { c with staging := tdel c.staging rid, notBefore := tdel c.notBefore g.slab }) ∧ x.mirrorsSlab g.slab = none := by
  exact
    ⟨(tStage 1 1), 1, 0, (tSg 1), ({ tReq with be := 1, wait := .staging }), _, by decide +kernel, by decide +kernel, by decide +kernel,
    by decide +kernel, by decide +kernel, rfl, by decide +kernel⟩

theorem wit_CrucibleWaitsRun_7 :
    ∃ (d : Dev) (rid : Nat) (g : Staging), tget d.cru.staging rid = some g ∧ g.phase = 2 ∧ d.quenching = false := by
  exact
    ⟨(tStage 2 1), 1, (tSg 2), by decide +kernel, by decide +kernel, by decide +kernel⟩

theorem wit_CrucibleWaitsRun_8 :
    ∃ (d : Dev) (slab : Nat) (lost : List Nat), tget d.cru.rebuilds (d.setOf slab) = some lost ∧ ((d.candidates (d.setOf slab) lost).any fun x
    => (tget d.weld.fetches x).isSome) = false := by
  exact
    ⟨({ tUp with cru := { tUp.cru with rebuilds := [(tUp.setOf 3, [0])] } }), 3, [0], by decide +kernel, by decide +kernel⟩

theorem wit_ModesAndMaintenanceRun_1 :
    ∃ (d : Dev), d.quenching = false ∧ d.f CRUC_MODE.CURRENT = 1 := by
  exact
    ⟨(tR [tF CRUC_MODE.CURRENT 1]), by decide +kernel, by decide +kernel⟩

theorem wit_ModesAndMaintenanceRun_2 :
    ∃ (d : Dev) (m : Nat), d.quenching = false ∧ m ≤ 2 ∧ d.f CRUC_MODE.CURRENT = 4 := by
  exact
    ⟨(tR [tF CRUC_MODE.CURRENT 4]), 2, by decide +kernel, by decide +kernel, by decide +kernel⟩

theorem wit_ModesAndMaintenanceRun_3 :
    ∃ (d : Dev) (x : Dev), d.quenching = false ∧ d.f CRUC_MODE.CURRENT = 3 ∧ d.poisonedSlabs = 0 ∧ x = d.setB CRUC_MODE.DRAIN_BLOCKED false ∧
    x.D = 0 ∧ (x.cru.reqs.any fun r => decide (r.wait = .destage)) = false := by
  exact
    ⟨(tR [tF CRUC_MODE.CURRENT 3]), _, by decide +kernel, by decide +kernel, by decide +kernel, rfl, by decide +kernel, by decide +kernel⟩

theorem wit_ModesAndMaintenanceRun_4 :
    ∃ (d : Dev), d.quenching = false ∧ d.f CRUC_MODE.CURRENT = 4 := by
  exact
    ⟨(tR [tF CRUC_MODE.CURRENT 4]), by decide +kernel, by decide +kernel⟩

theorem wit_ModesAndMaintenanceRun_11 :
    ∃ (d : Dev) (die : Nat) (slab : Nat) (count : Nat) (op : Nat) (discard : Bool) (o : MaintOp) (x : Dev), d.inService die = true ∧ d.smithDead
    die = false ∧ d.fb CRUC_MAINT_STATUS.BUSY die = false ∧ d.quenching = false ∧ x = ((((d.setF CRUC_MAINT_DPA.SLAB slab die).setF
    CRUC_MAINT_CTRL.COUNT count die).setF CRUC_MAINT_CTRL.OP op die).setB CRUC_MAINT_CTRL.DISCARD discard die).setB CRUC_MAINT_STATUS.DONE false
    die ∧ x.f CRUC_MAINT_CTRL.COUNT die ≠ 0 ∧ x.f CRUC_MAINT_CTRL.COUNT die ≤ 65536 ∧ maintOpOf (x.f CRUC_MAINT_CTRL.OP die) = some o := by
  exact
    ⟨tUp, 1, 0, 65536, 0, false, .clean, _, by decide +kernel, by decide +kernel, by decide +kernel, by decide +kernel, rfl, by decide +kernel,
    by decide +kernel, by decide +kernel⟩

theorem wit_WeldLinksRun_1 :
    ∃ (d : Dev) (die : Nat) (link : Nat) (width : Nat) (rate : Nat) (spare : Bool) (x : Dev), d.hasLink (die, link) = true ∧ d.inService die =
    true ∧ d.swg.loaded = true ∧ d.quenching = false ∧ d.linkState (die, link) ≤ 1 ∧ d.fb WELD_LINK_CTRL.DISABLE die link = false ∧ x =
    ((((d.linkDown (die, link) 1).setF WELD_LINK_STATUS.WIDTH (if width = 8 then 2 else 1) die link).setB WELD_LINK_STATUS.RATE (decide (rate =
    64)) die link).setB WELD_LINK_STATUS.SPARE_QUAD spare die link) := by
  exact
    ⟨tUp, 1, 0, 8, 64, false, _, by decide +kernel, by decide +kernel, by decide +kernel, by decide +kernel, by decide +kernel,
    by decide +kernel, rfl⟩

theorem wit_WeldLinksRun_2 :
    ∃ (d : Dev) (die : Nat) (link : Nat) (side : Nat) (peerLink : Nat) (x : Dev), d.hasLink (die, link) = true ∧ d.linkState (die, link) = 1 ∧
    (d.link (die, link)).hello = false ∧ side ≠ d.side ∧ x = (((d.setF WELD_LINK_STATUS.PEER_DIE die die link).setF WELD_LINK_STATUS.PEER_LINK
    peerLink die link).modLink (die, link) fun k =>
    { k with hello := true, lastRx := ((d.setF WELD_LINK_STATUS.PEER_DIE die die link).setF WELD_LINK_STATUS.PEER_LINK peerLink die link).now }) := by
  exact
    ⟨(tR [tF WELD_LINK_STATUS.STATE 1 1 0]), 1, 0, 1, 0, _, by decide +kernel, by decide +kernel, by decide +kernel, by decide +kernel, rfl⟩

theorem wit_WeldLinksRun_3 :
    ∃ (d : Dev) (die : Nat) (link : Nat) (version : Nat) (side : Nat) (peerDie : Nat) (peerLink : Nat), d.hasLink (die, link) = true ∧
    d.linkState (die, link) = 1 ∧ (d.link (die, link)).hello = false ∧ version ≠ (if d.version1 then 1 else 2) := by
  exact
    ⟨(tR [tF WELD_LINK_STATUS.STATE 1 1 0]), 1, 0, 3, 1, 1, 0, by decide +kernel, by decide +kernel, by decide +kernel, by decide +kernel⟩

theorem wit_WeldLinksRun_4 :
    ∃ (d : Dev) (die : Nat) (link : Nat) (t : Nat) (x : Dev), (d.link (die, link)).refusedAt = some t ∧ d.linkState (die, link) = 0 ∧ d.fb
    WELD_LINK_CTRL.DISABLE die link = false ∧ d.quenching = false ∧ x = ((d.until (t + 1000000000)).linkDown (die, link) 1).setF
    WELD_LINK_STATUS.STATE 1 die link := by
  exact
    ⟨(tLink { tK with refusedAt := some 0 } tUp), 1, 0, 0, _, by decide +kernel, by decide +kernel, by decide +kernel, by decide +kernel, rfl⟩

theorem wit_WeldLinksRun_5 :
    ∃ (d : Dev) (die : Nat) (link : Nat), d.linkState (die, link) = 2 ∧ 2 ^ 48 - 2 ^ 16 ≤ d.f WELD_TX_COUNTER.COUNT die link := by
  exact
    ⟨(tR [tF WELD_TX_COUNTER.COUNT (2 ^ 48 - 2 ^ 16) 1 0] tWeld), 1, 0, by decide +kernel, by decide +kernel⟩

theorem wit_WeldLinksRun_6 :
    ∃ (d : Dev) (die : Nat) (link : Nat), d.linkState (die, link) = 2 := by
  exact
    ⟨tWeld, 1, 0, by decide +kernel⟩

theorem wit_WeldLinksRun_7 :
    ∃ (d : Dev) (die : Nat) (link : Nat), d.linkState (die, link) = 3 := by
  exact
    ⟨(tR [tF WELD_LINK_STATUS.STATE 3 1 0]), 1, 0, by decide +kernel⟩

theorem wit_WeldLinksRun_8 :
    ∃ (d : Dev) (die : Nat) (link : Nat), d.hasLink (die, link) = true := by
  exact
    ⟨tUp, 1, 0, by decide +kernel⟩

theorem wit_WeldLinksRun_9 :
    ∃ (d : Dev) (die : Nat) (link : Nat), d.hasLink (die, link) = true := by
  exact
    ⟨tUp, 1, 0, by decide +kernel⟩

theorem wit_WeldLinksRun_10 :
    ∃ (d : Dev) (die : Nat) (link : Nat), d.hasLink (die, link) = true := by
  exact
    ⟨tUp, 1, 0, by decide +kernel⟩

theorem wit_WeldKeysRun_1 :
    ∃ (d : Dev) (h : Head) (rollId : Nat) (switchSeq : Nat) (x : Dev), d.takeFrame h 0x0A (d.framesOf (.keyRoll false 0 0)) true true true = (x,
    true) ∧ x.quenching = false ∧ x.side = 1 ∧ x.linkState (h.die, h.link) ≠ 1 := by
  exact
    ⟨(tSide 1), tH, 1, 0, (((tSide 1).takeFrame (tH) 0x0A ((tSide 1).framesOf (.keyRoll false 0 0)) true true true).1),
    by exact took (by decide +kernel), by decide +kernel, by decide +kernel, by decide +kernel⟩

theorem wit_WeldKeysRun_2 :
    ∃ (d : Dev) (h : Head) (rollId : Nat) (switchSeq : Nat) (sw : Nat) (x : Dev) (y : Dev), d.takeFrame h 0x0A (d.framesOf (.keyRoll false 0 0))
    true true true = (x, true) ∧ x.quenching = false ∧ x.side = 1 ∧ sw = ((x.link (h.die, h.link)).txSeq + 4 + x.freeVal % 2 ^ 30) % 2 ^ 32 ∧ y
    = x.tick.modLink (h.die, h.link) (fun k => { k with roll := none }) ∧ y.canSend (h.die, h.link) (.keyRoll true rollId sw) = true := by
  exact
    ⟨(tSide 1), tH, 1, 0, _, (((tSide 1).takeFrame (tH) 0x0A ((tSide 1).framesOf (.keyRoll false 0 0)) true true true).1), _,
    by exact took (by decide +kernel), by decide +kernel, by decide +kernel, rfl, rfl, by decide +kernel⟩

theorem wit_WeldKeysRun_3 :
    ∃ (d : Dev) (h : Head) (switchSeq : Nat) (x : Dev) (r : Roll), d.takeFrame h 0x0A (d.framesOf (.keyRoll true 0 0)) true true true = (x,
    true) ∧ (x.link (h.die, h.link)).roll = some r := by
  exact
    ⟨(tLink { tK with roll := some ⟨1, 0, 8⟩ }), tH, 9, (((tLink { tK with roll := some ⟨1, 0, 8⟩ }).takeFrame (tH) 0x0A ((tLink
    { tK with roll := some ⟨1, 0, 8⟩ }).framesOf (.keyRoll true 0 0)) true true true).1), ⟨1, 0, 8⟩, by exact took (by decide +kernel),
    by decide +kernel⟩

theorem wit_WeldKeysRun_4 :
    ∃ (d : Dev) (die : Nat) (link : Nat) (r : Roll), (d.link (die, link)).roll = some r := by
  exact
    ⟨(tLink { tK with roll := some ⟨1, 0, 8⟩ }), 1, 0, ⟨1, 0, 8⟩, by decide +kernel⟩

theorem wit_WeldKeysRun_5 :
    ∃ (d : Dev) (die : Nat) (link : Nat), d.linkState (die, link) = 2 ∧ d.quenching = false ∧ 2 ^ 47 ≤ d.f WELD_TX_COUNTER.COUNT die link := by
  exact
    ⟨(tR [tF WELD_TX_COUNTER.COUNT (2 ^ 47) 1 0] tWeld), 1, 0, by decide +kernel, by decide +kernel, by decide +kernel⟩

theorem wit_WeldKeysRun_6 :
    ∃ (d : Dev) (die : Nat) (link : Nat) (t : Nat), (d.link (die, link)).rollFailedAt = some t ∧ d.quenching = false := by
  exact
    ⟨(tLink { tK with rollFailedAt := some 0 }), 1, 0, 0, by decide +kernel, by decide +kernel⟩

theorem wit_WeldKeysRun_7 :
    ∃ (d : Dev) (die : Nat) (link : Nat), (d.linkState (die, link) = 2 ∨ d.linkState (die, link) = 3) ∧ d.quenching = false := by
  exact
    ⟨tWeld, 1, 0, by decide +kernel, by decide +kernel⟩

theorem wit_WeldKeysRun_8 :
    ∃ (d : Dev) (die : Nat) (link : Nat) (ack : Nat), (d.linkState (die, link) = 2 ∨ d.linkState (die, link) = 3) := by
  exact
    ⟨tWeld, 1, 0, 0, by decide +kernel⟩

theorem wit_WeldKeysRun_9 :
    ∃ (d : Dev) (h : Head) (heat : Nat) (links : Nat) (pair : Nat) (n : Nat) (x : Dev), d.extend heat = some n ∧ d.takeFrame h 0x01 1 false true
    true = (x, true) := by
  exact
    ⟨tWeld, tH, 0, 0, 1, 0, (((tWeld).takeFrame (tH) 0x01 1 false true true).1), by decide +kernel, by exact took (by decide +kernel)⟩

theorem wit_WeldKeysRun_10 :
    ∃ (d : Dev) (die : Nat) (link : Nat), d.linkState (die, link) = 2 := by
  exact
    ⟨tWeld, 1, 0, by decide +kernel⟩

theorem wit_WeldKeysRun_11 :
    ∃ (d : Dev) (die : Nat) (link : Nat), (d.linkState (die, link) = 2 ∨ d.linkState (die, link) = 3) := by
  exact
    ⟨tWeld, 1, 0, by decide +kernel⟩

theorem wit_WeldMirrorsRun_1 :
    ∃ (d : Dev) (h : Head) (heat : Nat) (length : Nat) (side : Nat) (regions : Nat) (roles : List JoinRole) (x : Dev), d.takeFrame h 0x0B
    (d.framesOf (.join 0 0 0 0 0 [])) false (decide (d.pair = 0) && decide (d.linkState (h.die, h.link) = 2)) true = (x, true) := by
  exact
    ⟨(tR [tF WELD_LINK_STATUS.STATE 2 1 0]), tH, 0, 1000, 1, 2, [], (((tR [tF WELD_LINK_STATUS.STATE 2 1 0]).takeFrame (tH) 0x0B ((tR [tF
    WELD_LINK_STATUS.STATE 2 1 0]).framesOf (.join 0 0 0 0 0 [])) false (decide ((tR [tF WELD_LINK_STATUS.STATE 2 1 0]).pair = 0) && decide ((tR
    [tF WELD_LINK_STATUS.STATE 2 1 0]).linkState ((tH).die, (tH).link) = 2)) true).1), by exact took (by decide +kernel)⟩

theorem wit_WeldMirrorsRun_2 :
    ∃ (d : Dev) (h : Head) (heat : Nat) (side : Nat) (x : Dev) (y : Dev), d.takeFrame h 0x0B (d.framesOf (.join 0 0 0 0 0 [])) false (decide
    (d.pair = 0) && decide (d.linkState (h.die, h.link) = 2)) true = (x, true) ∧ x.quenching = false ∧ y = ((x.setF WELD_PAIR_STATUS.STATE
    1).setB WELD_PAIR_STATUS.JOINED true).showTwinHeat heat := by
  exact
    ⟨(tR [tF WELD_LINK_STATUS.STATE 2 1 0]), tH, 0, 1, (((tR [tF WELD_LINK_STATUS.STATE 2 1 0]).takeFrame (tH) 0x0B ((tR [tF
    WELD_LINK_STATUS.STATE 2 1 0]).framesOf (.join 0 0 0 0 0 [])) false (decide ((tR [tF WELD_LINK_STATUS.STATE 2 1 0]).pair = 0) && decide ((tR
    [tF WELD_LINK_STATUS.STATE 2 1 0]).linkState ((tH).die, (tH).link) = 2)) true).1), _, by exact took (by decide +kernel), by decide +kernel,
    rfl⟩

theorem wit_WeldMirrorsRun_3 :
    ∃ (d : Dev) (h : Head) (heat : Nat) (firstId : Nat) (n : Nat) (e : MirrorEntry) (x : Dev), h.breach = none ∧ e.sector < 64 ∧ d.extend heat =
    some n ∧ d.takeFrame h 0x02 1 false (d.mirrorAllowed (h.die, h.link)) true = (x, true) ∧ (x.showTwinHeat n).fence = false ∧ (x.showTwinHeat
    n).windowEnded = false := by
  exact
    ⟨tWeld, tH, 0, 1, 0, ⟨0, 63, false, 0⟩, (((tWeld).takeFrame (tH) 0x02 1 false ((tWeld).mirrorAllowed ((tH).die, (tH).link)) true).1),
    by decide +kernel, by decide +kernel, by decide +kernel, by exact took (by decide +kernel), by decide +kernel, by decide +kernel⟩

theorem wit_WeldMirrorsRun_5 :
    ∃ (d : Dev) (h : Head) (runs : List AckRun) (x : Dev), d.takeFrame h 0x03 1 false (decide (d.pair = 1) || d.quenching ||
    d.weld.notice.isSome) true = (x, true) := by
  exact
    ⟨tWeld, tH, [], (((tWeld).takeFrame (tH) 0x03 1 false (decide ((tWeld).pair = 1) || (tWeld).quenching || (tWeld).weld.notice.isSome)
    true).1), by exact took (by decide +kernel)⟩

theorem wit_WeldMirrorsRun_6 :
    ∃ (d : Dev) (die : Nat) (l : Nat × Nat) (x : Dev), (tgetD d.weld.acks die []).isEmpty = false ∧ d.usable.isEmpty = false ∧ d.version1 =
    false ∧ x = d.setWeld (fun w => { w with acks := tset w.acks die ((tgetD d.weld.acks die []).drop 27) }) ∧ x.usable.find? (fun l => decide
    (l.1 = die)) = some l := by
  exact
    ⟨({ tWeld with weld := { tWeld.weld with acks := [(1, [⟨0, 1, 1, false⟩])] } }), 1, (1, 0), _, by decide +kernel, by decide +kernel,
    by decide +kernel, rfl, by decide +kernel⟩

theorem wit_WeldMirrorsRun_7 :
    ∃ (d : Dev) (h : Head) (heat : Nat) (linkMask : Nat) (n : Nat) (x : Dev), d.extend heat = some n ∧ d.takeFrame h 0x04 1 false d.upNow true =
    (x, true) ∧ tget (x.showTwinHeat n).weld.closes n = none := by
  exact
    ⟨tWeld, tH, 0, 1, 0, (((tWeld).takeFrame (tH) 0x04 1 false (tWeld).upNow true).1), by decide +kernel, by exact took (by decide +kernel),
    by decide +kernel⟩

theorem wit_WeldMirrorsRun_8 :
    ∃ (d : Dev) (h : Head) (heat : Nat) (mask : Nat) (n : Nat) (x : Dev), d.extend heat = some n ∧ d.takeFrame h 0x05 1 false d.upNow true = (x,
    true) := by
  exact
    ⟨tWeld, tH, 0, 1, 0, (((tWeld).takeFrame (tH) 0x05 1 false (tWeld).upNow true).1), by decide +kernel, by exact took (by decide +kernel)⟩

/-- A notice of the twin whose link 0 of die 1 has drained. -/
def tNotice : Notice := ⟨0, [(1, 0)], [(1, 0)], false, false⟩
def tNoted : Dev := { tWeld with weld := { tWeld.weld with notice := some tNotice } }
def tFetch (d : Dev := tWeld) : Dev := { d with weld := { d.weld with fetches := [(3, true)] } }
def tRq : Req := ⟨0, .weld 1 0, .resync 1 0 [], 3, 0, 0, 0, 0, 0, .arrival, 0⟩
/-- A role record of region 1 under way. -/
def tP (c : RoleCause) (done : Bool) : RolePend := ⟨1, (tUp.region 1).record, .solo, c, done⟩
def tPend (p : RolePend) : Dev := { tUp with rht := { tUp.rht with pends := [p] }, weld := { tUp.weld with lossAt := some (0, false) } }

theorem wit_WeldNoticesRun_1 :
    ∃ (d : Dev) (h : Head) (heat : Nat) (cause : Nat) (generation : Nat) (n : Nat) (x : Dev) (y : Dev), d.extend heat = some n ∧ d.takeFrame h
    0x06 1 false true true = (x, true) ∧ x.weld.notice = none ∧ y = x.raiseR .WELD_QUENCH_NOTICE_RX [p1 0, p8 n, p4 generation, p1 0] ∧ y.pair =
    0 := by
  exact
    ⟨(tR [tF WELD_PAIR_STATUS.STATE 0] tWeld), tH, 0, 0, 0, 0, (((tR [tF WELD_PAIR_STATUS.STATE 0] tWeld).takeFrame (tH) 0x06 1 false true
    true).1), _, by decide +kernel, by exact took (by decide +kernel), by decide +kernel, rfl, by decide +kernel⟩

theorem wit_WeldNoticesRun_2 :
    ∃ (d : Dev) (h : Head) (heat : Nat) (cause : Nat) (generation : Nat) (n : Nat) (x : Dev) (w : Notice), d.extend heat = some n ∧ d.takeFrame
    h 0x06 1 false d.weld.notice.isSome true = (x, true) ∧ x.weld.notice = some w ∧ w.drained.isEmpty = false ∧ w.drained.contains (h.die,
    h.link) = true := by
  exact
    ⟨tNoted, tH, 0, 0, 0, 0, (((tNoted).takeFrame (tH) 0x06 1 false (tNoted).weld.notice.isSome true).1), tNotice, by decide +kernel,
    by exact took (by decide +kernel), by decide +kernel, by decide +kernel, by decide +kernel⟩

theorem wit_WeldNoticesRun_3 :
    ∃ (d : Dev) (h : Head) (heat : Nat) (flags : Nat) (cause : Nat) (generation : Nat) (n : Nat) (x : Dev) (w : Notice), d.extend heat = some n
    ∧ d.takeFrame h 0x06 1 false d.weld.notice.isSome true = (x, true) ∧ x.weld.notice = some w ∧ w.final = false := by
  exact
    ⟨tNoted, tH, 0, 0, 0, 0, 0, (((tNoted).takeFrame (tH) 0x06 1 false (tNoted).weld.notice.isSome true).1), tNotice, by decide +kernel,
    by exact took (by decide +kernel), by decide +kernel, by decide +kernel⟩

theorem wit_WeldNoticesRun_4 :
    ∃ (d : Dev) (w : Notice), d.weld.notice = some w ∧ w.ended = false := by
  exact
    ⟨tNoted, tNotice, by decide +kernel, by decide +kernel⟩

theorem wit_WeldNoticesRun_5 :
    ∃ (d : Dev) (h : Head) (region : Nat) (x : Dev), d.takeFrame h 0x07 1 false d.upNow true = (x, true) ∧ x.quenching = false ∧ (x.region
    region).role = .owner ∧ x.resyncKind region = 0 := by
  exact
    ⟨(tRegion 1 .owner), tH, 1, (((tRegion 1 .owner).takeFrame (tH) 0x07 1 false (tRegion 1 .owner).upNow true).1),
    by exact took (by decide +kernel), by decide +kernel, by decide +kernel, by decide +kernel⟩

theorem wit_WeldNoticesRun_6 :
    ∃ (d : Dev) (h : Head) (region : Nat) (epoch : Nat) (x : Dev), d.takeFrame h 0x07 1 false d.upNow true = (x, true) ∧ x.quenching = false ∧
    (x.region region).role ≠ .owner := by
  exact
    ⟨(tRegion 1 .shadow), tH, 1, 0, (((tRegion 1 .shadow).takeFrame (tH) 0x07 1 false (tRegion 1 .shadow).upNow true).1),
    by exact took (by decide +kernel), by decide +kernel, by decide +kernel⟩

theorem wit_WeldNoticesRun_7 :
    ∃ (d : Dev) (h : Head) (region : Nat) (epoch : Nat) (heat : Nat) (n : Nat) (x : Dev), d.extend heat = some n ∧ d.takeFrame h 0x07 1 false
    d.upNow true = (x, true) ∧ x.quenching = false ∧ (x.region region).claimed = true := by
  exact
    ⟨(tWeld.setRegion 1 { tWeld.region 1 with claimed := true }), tH, 1, 0, 0, 0, (((tWeld.setRegion 1
    { tWeld.region 1 with claimed := true }).takeFrame (tH) 0x07 1 false (tWeld.setRegion 1 { tWeld.region 1 with claimed := true }).upNow
    true).1), by decide +kernel, by exact took (by decide +kernel), by decide +kernel, by decide +kernel⟩

theorem wit_WeldNoticesRun_8 :
    ∃ (d : Dev) (h : Head) (region : Nat) (epoch : Nat) (x : Dev), d.takeFrame h 0x07 1 false d.upNow true = (x, true) := by
  exact
    ⟨tWeld, tH, 1, 0, (((tWeld).takeFrame (tH) 0x07 1 false (tWeld).upNow true).1), by exact took (by decide +kernel)⟩

theorem wit_WeldFetchesRun_1 :
    ∃ (d : Dev) (h : Head) (region : Nat) (incremental : Bool) (slabs : List Nat) (x : Dev), d.takeFrame h 0x08 (d.framesOf (.rejoinReq region 0
    slabs true)) false d.upNow true = (x, true) ∧ x.quenching = false ∧ x.mirror region ≠ 0 ∧ x.resyncKind region = 0 ∧ (x.region region).role =
    .solo := by
  exact
    ⟨(tRegion 1 .solo), tH, 1, false, [], (((tRegion 1 .solo).takeFrame (tH) 0x08 ((tRegion 1 .solo).framesOf (.rejoinReq (1) 0 ([]) true))
    false (tRegion 1 .solo).upNow true).1), by exact took (by decide +kernel), by decide +kernel, by decide +kernel, by decide +kernel,
    by decide +kernel⟩

theorem wit_WeldFetchesRun_2 :
    ∃ (d : Dev) (h : Head) (slab : Nat) (mask : Mask) (heat : Nat) (region : Nat) (lines : List Line) (n : Nat) (x : Dev), d.extend heat = some
    n ∧ d.takeFrame h 0x09 (d.framesOf (.resyncData slab 1 0 0 region [])) false d.upNow true = (x, true) ∧ x.fence = true := by
  exact
    ⟨({ tWeld with fence := true }), tH, 3, 0, 0, 1, [], 0, ((({ tWeld with fence := true }).takeFrame (tH) 0x09
    (({ tWeld with fence := true }).framesOf (.resyncData (3) 1 0 0 (1) [])) false ({ tWeld with fence := true }).upNow true).1),
    by decide +kernel, by exact took (by decide +kernel), by decide +kernel⟩

theorem wit_WeldFetchesRun_3 :
    ∃ (d : Dev) (h : Head) (slab : Nat) (mask : Mask) (heat : Nat) (region : Nat) (lines : List Line) (n : Nat) (x : Dev) (y : Dev) (z : Dev) (r
    : Req), d.extend heat = some n ∧ d.takeFrame h 0x09 (d.framesOf (.resyncData slab 1 0 0 region [])) false d.upNow true = (x, true) ∧ x.fence
    = false ∧ y = x.countAccepted h.die (24 + h.link) 1 ∧ z = y.arrive (.weld h.die h.link) (.resync 1 mask lines) slab 0 0 0 0 n ∧ z.req
    y.cru.nextRid = some r := by
  exact
    ⟨tWeld, tH, 3, 0, 0, 1, [], 0, (((tWeld).takeFrame (tH) 0x09 ((tWeld).framesOf (.resyncData (3) 1 0 0 (1) [])) false (tWeld).upNow true).1),
    _, _, tRq, by decide +kernel, by exact took (by decide +kernel), by decide +kernel, rfl, rfl, by decide +kernel⟩

theorem wit_WeldFetchesRun_4 :
    ∃ (d : Dev) (h : Head) (slab : Nat) (region : Nat) (x : Dev), d.takeFrame h 0x0C 1 false (d.upNow && !d.version1) true = (x, true) ∧
    x.quenching = false := by
  exact
    ⟨tWeld, tH, 3, 1, (((tWeld).takeFrame (tH) 0x0C 1 false ((tWeld).upNow && !(tWeld).version1) true).1), by exact took (by decide +kernel),
    by decide +kernel⟩

theorem wit_WeldFetchesRun_5 :
    ∃ (d : Dev) (h : Head) (slab : Nat) (mask : Mask) (heat : Nat) (region : Nat) (lines : List Line) (n : Nat) (x : Dev), d.extend heat = some
    n ∧ d.takeFrame h 0x09 (d.framesOf (.resyncData slab 2 0 0 region ((List.range 64).map fun i => (i, 0)))) false d.upNow true = (x, true) ∧
    x.fence = false ∧ tget x.weld.fetches slab = some true ∧ (x.endFetch slab).rht.judge.contains slab = false := by
  exact
    ⟨tFetch, tH, 3, 0, 0, 1, [], 0, (((tFetch).takeFrame (tH) 0x09 ((tFetch).framesOf (.resyncData (3) 2 0 0 (1) ((List.range 64).map fun i =>
    (i, 0)))) false (tFetch).upNow true).1), by decide +kernel, by exact took (by decide +kernel), by decide +kernel, by decide +kernel,
    by decide +kernel⟩

theorem wit_WeldFetchesRun_6 :
    ∃ (d : Dev) (h : Head) (slab : Nat) (region : Nat) (x : Dev), d.takeFrame h 0x09 1 false d.upNow true = (x, true) ∧ x.fence = false ∧ tget
    x.weld.fetches slab = some true := by
  exact
    ⟨tFetch, tH, 3, 1, (((tFetch).takeFrame (tH) 0x09 1 false (tFetch).upNow true).1), by exact took (by decide +kernel), by decide +kernel,
    by decide +kernel⟩

theorem wit_WeldFetchesRun_7 :
    ∃ (d : Dev) (slab : Nat), tget d.weld.fetches slab = some true := by
  exact
    ⟨tFetch, 3, by decide +kernel⟩

theorem wit_RolesRun_1 :
    ∃ (d : Dev) (region : Nat) (r : RoleRec), d.mirror region ≠ 0 ∧ (d.region region).role = .fenced ∧ d.usable = [] ∧ d.quenching = false ∧ r =
    { (d.region region).record with solo := true, owner := d.side, epoch := (d.region region).record.epoch + 1, splitHeat := d.openHeat, ackedHeat := if (d.region region).record.solo then (d.region region).record.ackedHeat else 0 } := by
  exact
    ⟨tUp, 1, _, by decide +kernel, by decide +kernel, by decide +kernel, by decide +kernel, rfl⟩

theorem wit_RolesRun_2 :
    ∃ (d : Dev) (region : Nat), d.mirror region ≠ 0 ∧ (d.region region).role = .fenced ∧ (d.region region).twinSolo = true ∧ d.pair = 1 ∧
    d.quenching = false := by
  exact
    ⟨(tWeld.setRegion 1 { tWeld.region 1 with twinSolo := true }), 1, by decide +kernel, by decide +kernel, by decide +kernel,
    by decide +kernel, by decide +kernel⟩

theorem wit_RolesRun_3 :
    ∃ (d : Dev) (region : Nat) (c : RegionCfg), d.mirror region ≠ 0 ∧ (d.region region).role = .shadow ∧ d.regionCfgs[region]? = some c ∧
    c.ownerSide = d.side ∧ d.pair = 1 ∧ d.quenching = false ∧ (d.region region).claimed = false := by
  exact
    ⟨(tRegion 1 .shadow), 1, ⟨0x10000000, 0x10000000, 0, 1, 0⟩, by decide +kernel, by decide +kernel, by decide +kernel, by decide +kernel,
    by decide +kernel, by decide +kernel, by decide +kernel⟩

theorem wit_RolesRun_4 :
    ∃ (d : Dev) (region : Nat), d.backHeld region = true := by
  exact
    ⟨(tR [tF RHT_REGION_STATUS.BACKING_HELD 1 0 1]), 1, by decide +kernel⟩

theorem wit_RolesRun_5 :
    ∃ (d : Dev) (region : Nat) (p : RolePend) (x : Dev), d.rht.pends.find? (fun p => decide (p.region = region) && !p.done) = some p ∧
    d.quenching = false ∧ p.cause = .forced ∧ x = ((d.setRht fun x => { x with pends := x.pends.filter fun q => decide (q ≠ p) }).storeRole
    p.region p.record).putRecord p.region p.record := by
  exact
    ⟨(tPend (tP .forced false)), 1, (tP .forced false), _, by decide +kernel, by decide +kernel, by decide +kernel, rfl⟩

theorem wit_RolesRun_6 :
    ∃ (d : Dev) (region : Nat) (status : Nat) (p : RolePend), d.rht.pends.find? (fun p => decide (p.region = region) && !p.done) = some p ∧
    d.quenching = false ∧ status ≠ 0 ∧ p.cause = .loss := by
  exact
    ⟨(tPend (tP .loss false)), 1, 3, (tP .loss false), by decide +kernel, by decide +kernel, by decide +kernel, by decide +kernel⟩

theorem wit_RolesRun_7 :
    ∃ (d : Dev) (region : Nat), d.resyncDone region = true ∧ (d.rht.pends.any fun p => decide (p.region = region)) = false ∧ (d.region
    region).role = .rejoining := by
  exact
    ⟨(tR [tF RHT_REGION_STATUS.RESYNC 1 0 1] (tRegion 1 .rejoining)), 1, by decide +kernel, by decide +kernel, by decide +kernel⟩

theorem wit_RolesRun_8 :
    ∃ (d : Dev) (t : Nat) (notice : Bool) (p : RolePend) (x : Dev) (y : Dev), d.weld.lossAt = some (t, notice) ∧ d.pair = 0 ∧ d.quenching =
    false ∧ (d.rht.pends.filter fun p => decide (p.cause = .loss)) = [p] ∧ p.done = true ∧ x = (d.setRht fun x =>
    { x with pends := x.pends.filter fun p => decide (p.cause ≠ .loss) }) ∧ y = (x.enterSolo p.region (!notice && decide ((x.region
    p.region).role = .shadow))).setWeld (fun w => { w with lossAt := none }) := by
  exact
    ⟨(tPend (tP .loss true)), 0, false, (tP .loss true), _, _, by decide +kernel, by decide +kernel, by decide +kernel, by decide +kernel,
    by decide +kernel, rfl, rfl⟩

/-- A block whose first heat is open, with a directory of die 1. -/
def tHeat (l : List (FKey × Nat)) (dir : List Entry := []) : Dev :=
  { tR l with heat := { tUp.heat with opened := true, dirs := [(1, dir)] } }
def tEntry (w : List JRec) : Entry := ⟨0, false, .compacting, w, []⟩
/-- A dry quench under way. -/
def tDry (o : Option Nat) : DryRun := ⟨4, true, true, o, 0, false⟩
def tDrying (o : Option Nat) (l : List (FKey × Nat)) : Dev := { tR l with ceil := { tUp.ceil with dry := some (tDry o) } }
/-- An automatic dry quench is due. -/
def tDue (l : List (FKey × Nat)) : Dev :=
  { tR ([tF CEIL_DRY_CTRL.AUTO_EN 1, tF CEIL_DRY_CTRL.AUTO_MIB 16] ++ l) with ceil := { tUp.ceil with computed := true, nextAuto := some 0 } }
def tDueOk : Dev :=
  { tR [tF CEIL_DRY_CTRL.AUTO_MIB 1] (tDue tPower) with
    ceil := { tUp.ceil with computed := true, nextAuto := some 0 }, bell := { tUp.bell with strs := [(0, tBstr)] },
    qfl := { tUp.qfl with chans := [((1, 0), { tUp.qchan 1 0 with tabled := true })], quads := [(⟨1, 0, 0, 0⟩, tQuad (.scratch false))] } }

theorem wit_HeatBoundariesRun_1 :
    ∃ (d : Dev) (x : Dev), d.heat.opened = true ∧ d.fb HEAT_STATUS.LOCKED = false ∧ d.quenching = false ∧ x = (d.until d.heat.tExp).setHeat (fun
    h => { h with edgeSeen := false }) ∧ (x.diesUp.any fun die => decide (1024 ≤ (x.dirOf die).length)) = false ∧ x.nextHeat = x.openHeat + 1 ∧
    x.openHeat + 1 < x.f HEAT_RESERVATION.R := by
  exact
    ⟨(tHeat [tF HEAT_RESERVATION.R 2]), _, by decide +kernel, by decide +kernel, by decide +kernel, rfl, by decide +kernel, by decide +kernel,
    by decide +kernel⟩

theorem wit_HeatBoundariesRun_2 :
    ∃ (d : Dev) (r : Nat), d.heat.opened = true ∧ d.fb HEAT_STATUS.LOCKED = true ∧ d.quenching = false ∧ d.heat.deferred = none ∧ (d.diesUp.any
    fun die => decide (1024 ≤ (d.dirOf die).length)) = false ∧ d.nextHeat = d.openHeat + 1 ∧ r = d.f HEAT_RESERVATION.R ∧ r ≤ d.openHeat + 1 := by
  exact
    ⟨(tHeat [tF HEAT_STATUS.LOCKED 1, tF HEAT_RESERVATION.R 1]), _, by decide +kernel, by decide +kernel, by decide +kernel, by decide +kernel,
    by decide +kernel, by decide +kernel, rfl, by decide +kernel⟩

theorem wit_HeatBoundariesRun_3 :
    ∃ (d : Dev) (after : Nat), d.fb HEAT_CTRL.SYNC_EN = false := by
  exact
    ⟨(tR [tF HEAT_CTRL.SYNC_EN 0]), 100, by decide +kernel⟩

theorem wit_HeatBoundariesRun_4 :
    ∃ (d : Dev) (after : Nat) (x : Dev), x = d.until (d.now + after) ∧ d.fb HEAT_CTRL.SYNC_EN = true ∧ d.fb HEAT_STATUS.LOCKED = true ∧
    x.heat.tExp ≤ x.now + x.heatNs / 4 ∧ x.now ≤ x.heat.tExp + x.heatNs / 4 := by
  exact
    ⟨(tHeat [tF HEAT_STATUS.LOCKED 1, tF HEAT_CTRL.SYNC_EN 1, tF HEAT_CTRL.LENGTH_US 1000]), 250000, _, rfl, by decide +kernel,
    by decide +kernel, by decide +kernel, by decide +kernel⟩

theorem wit_HeatBoundariesRun_5 :
    ∃ (d : Dev) (after : Nat) (x : Dev), x = d.until (d.now + after) ∧ d.fb HEAT_CTRL.SYNC_EN = true ∧ d.fb HEAT_STATUS.LOCKED = true ∧
    x.heat.tExp + x.heatNs / 4 < x.now := by
  exact
    ⟨(tHeat [tF HEAT_STATUS.LOCKED 1, tF HEAT_CTRL.SYNC_EN 1, tF HEAT_CTRL.LENGTH_US 1000]), 250001, _, rfl, by decide +kernel,
    by decide +kernel, by decide +kernel⟩

theorem wit_HeatBoundariesRun_6 :
    ∃ (d : Dev) (x : Dev), d.fb HEAT_STATUS.LOCKED = true ∧ d.heat.missedRow < 7 ∧ x = ((d.until (d.heat.tExp + d.heatNs / 4)).incF
    HEAT_SYNC_MISSED.COUNT).setHeat (fun h => { h with edgeSeen := false, missedRow := h.missedRow + 1 }) := by
  exact
    ⟨(tHeat [tF HEAT_STATUS.LOCKED 1]), _, by decide +kernel, by decide +kernel, rfl⟩

theorem wit_HeatBoundariesRun_7 :
    ∃ (d : Dev) (lengthUs : Nat) (syncOut : Bool), lengthUs ≠ d.f HEAT_CTRL.LENGTH_US ∧ 50 ≤ lengthUs ∧ lengthUs ≤ 1000000 ∧ d.mirrored = [] := by
  exact
    ⟨({ tUp with swg := { tUp.swg with cfg := { tCfg with weld := none } } }), 1000000, false, by decide +kernel, by decide +kernel,
    by decide +kernel, by decide +kernel⟩

theorem wit_HeatBoundariesRun_8 :
    ∃ (d : Dev) (lengthUs : Nat) (syncOut : Bool), lengthUs ≠ d.f HEAT_CTRL.LENGTH_US ∧ (lengthUs < 50 ∨ 1000000 < lengthUs ∨ d.mirrored ≠ []) := by
  exact
    ⟨tUp, 49, true, by decide +kernel, by decide +kernel⟩

theorem wit_HeatBoundariesRun_9 :
    ∃ (d : Dev) (r : Nat), d.heat.reserve = some r ∧ d.aonLow = false := by
  exact
    ⟨({ tUp with heat := { tUp.heat with reserve := some 16777216 } }), 16777216, by decide +kernel, by decide +kernel⟩

theorem wit_HeatBoundariesRun_10 :
    ∃ (d : Dev) (r : Nat) (status : Nat), d.heat.reserve = some r := by
  exact
    ⟨({ tUp with heat := { tUp.heat with reserve := some 16777216 } }), 16777216, 3, by decide +kernel⟩

theorem wit_JournalRuns_2 :
    ∃ (d : Dev) (die : Nat) (heat : Nat) (x : Dev), (x = d.setDir die ((d.dirOf die).map fun e => if e.heat = heat ∧ e.receive = false then (if
    e.state = .closing ∧ e.buffered = [] then { e with state := .isSealed } else e) else e)) := by
  exact
    ⟨tUp, 1, 0, _, rfl⟩

theorem wit_JournalRuns_4 :
    ∃ (d : Dev) (die : Nat) (e : Entry), d.inService die = true ∧ d.compacts die = true ∧ d.quenching = false ∧ d.compactEntry die = some e ∧
    e.written = [] := by
  exact
    ⟨(tHeat [] [tEntry []]), 1, (tEntry []), by decide +kernel, by decide +kernel, by decide +kernel, by decide +kernel, by decide +kernel⟩

theorem wit_JournalRuns_5 :
    ∃ (d : Dev) (die : Nat) (e : Entry) (r : JRec) (s : JRec) (rs : List JRec), d.inService die = true ∧ d.compacts die = true ∧ d.quenching =
    false ∧ d.compactEntry die = some e ∧ e.written = r :: s :: rs ∧ d.lockBusy r.slab = false := by
  exact
    ⟨(tHeat [] [tEntry [⟨3, 0⟩, ⟨4, 0⟩]]), 1, (tEntry [⟨3, 0⟩, ⟨4, 0⟩]), ⟨3, 0⟩, ⟨4, 0⟩, [], by decide +kernel, by decide +kernel,
    by decide +kernel, by decide +kernel, by decide +kernel, by decide +kernel⟩

theorem wit_JournalRuns_6 :
    ∃ (d : Dev) (die : Nat) (e : Entry) (x : Dev), d.inService die = true ∧ d.compacts die = true ∧ d.quenching = false ∧ d.compactEntry die =
    some e ∧ x = (d.modEntry die e.heat e.receive fun x => { x with written := x.written.drop 504 }).setB HEAT_JRNL_STATUS.TAG_WALK true die := by
  exact
    ⟨(tHeat [] [tEntry []]), 1, (tEntry []), _, by decide +kernel, by decide +kernel, by decide +kernel, by decide +kernel, rfl⟩

theorem wit_JournalRuns_7 :
    ∃ (d : Dev) (x : Dev), x = d.retryAll (fun r => decide (r.wait = .journal) && !d.atReserve (d.place r.slab).die) := by
  exact
    ⟨tUp, _, rfl⟩

theorem wit_JournalRuns_8 :
    ∃ (d : Dev) (die : Nat), d.fb HEAT_JRNL_STATUS.TAG_WALK die = true := by
  exact
    ⟨(tR [tF HEAT_JRNL_STATUS.TAG_WALK 1 1]), 1, by decide +kernel⟩

theorem wit_CeilingRuns_1 :
    ∃ (d : Dev) (cause : Nat), d.quenching = false ∧ d.swg.loaded = true := by
  exact
    ⟨tUp, 0, by decide +kernel, by decide +kernel⟩

theorem wit_CeilingRuns_3 :
    ∃ (d : Dev) (t : Nat) (x : Dev), d.ceil.nextAuto = some t ∧ x = d.until t ∧ x.dryDue = true ∧ x.dryRefusal (Nat.min (x.f
    CEIL_DRY_CTRL.AUTO_MIB) x.scratchMib) = none := by
  exact
    ⟨tDueOk, 0, _, by decide +kernel, rfl, by decide +kernel, by decide +kernel⟩

theorem wit_CeilingRuns_4 :
    ∃ (d : Dev) (t : Nat) (st : Status) (x : Dev), d.ceil.nextAuto = some t ∧ x = d.until t ∧ x.dryDue = true ∧ x.dryRefusal (Nat.min (x.f
    CEIL_DRY_CTRL.AUTO_MIB) x.scratchMib) = some st := by
  exact
    ⟨(tDue []), 0, .lengthError, _, by decide +kernel, rfl, by decide +kernel, by decide +kernel⟩

theorem wit_CeilingRuns_5 :
    ∃ (d : Dev) (r : DryRun), d.ceil.dry = some r ∧ r.openedAt = none ∧ d.fb SEC_DRBG_STATUS.HEALTHY = true := by
  exact
    ⟨(tDrying none [tF SEC_DRBG_STATUS.HEALTHY 1]), (tDry none), by decide +kernel, by decide +kernel, by decide +kernel⟩

theorem wit_CeilingRuns_6 :
    ∃ (d : Dev) (r : DryRun), d.ceil.dry = some r ∧ r.openedAt = none ∧ d.fb SEC_DRBG_STATUS.HEALTHY = false := by
  exact
    ⟨(tDrying none [tF SEC_DRBG_STATUS.HEALTHY 0]), (tDry none), by decide +kernel, by decide +kernel, by decide +kernel⟩

theorem wit_CeilingRuns_7 :
    ∃ (d : Dev) (r : DryRun) (t : Nat) (ms : Nat) (e : Nat) (mb : Nat) (x : Dev), d.ceil.dry = some r ∧ r.openedAt = some t ∧ ms < 200 ∧ e =
    r.energy.toNat * 1000 / (r.sampleMib * 2 ^ 20) ∧ mb = r.sampleMib * 2 ^ 20 * 1000 / ms / 1000000 ∧ x = (((d.until (t + 1000000 * ms)).setF
    CEIL_DRY_E_MEAS.PJ (saturate 32 e)).setF CEIL_DRY_R_MEAS.MBPS (saturate 32 mb)) := by
  exact
    ⟨(tDrying (some 0) []), (tDry (some 0)), 0, 199, _, _, _, by decide +kernel, by decide +kernel, by decide +kernel, rfl, rfl, rfl⟩

theorem wit_CeilingRuns_8 :
    ∃ (d : Dev) (r : DryRun) (t : Nat) (ms : Nat) (e : Nat) (mb : Nat) (x : Dev) (y : Dev) (z : Dev), d.ceil.dry = some r ∧ r.openedAt = some t
    ∧ 200 ≤ ms ∧ e = r.energy.toNat * 1000 / (r.sampleMib * 2 ^ 20) ∧ mb = r.sampleMib * 2 ^ 20 * 1000 / ms / 1000000 ∧ x = (((d.until (t +
    1000000 * ms)).setF CEIL_DRY_E_MEAS.PJ (saturate 32 e)).setF CEIL_DRY_R_MEAS.MBPS (saturate 32 mb)) ∧ x.swg.cfg.energy.eByteDefault ≤ 2 * e
    ∧ r.sampleMib * 2 ^ 20 * 1000 / ms ≤ x.rNom ∧ r.changed = false ∧ r.auto = true ∧ y = (x.raiseB .DRY_DONE [p4 e, p4 mb, p4 ms, p1
    1]).dryLeave .success .ok ∧ z = (y.setCeil fun c => { c with applied := some (e, mb, y.lifeS), nextAuto := none }).dryRecord e mb := by
  exact
    ⟨(tDrying (some 0) []), (tDry (some 0)), 0, 200, _, _, _, _, _, by decide +kernel, by decide +kernel, by decide +kernel, rfl, rfl, rfl,
    by decide +kernel, by decide +kernel, by decide +kernel, by decide +kernel, rfl, rfl⟩

theorem wit_CeilingRuns_9 :
    ∃ (d : Dev) (a : Nat × Nat × Nat) (x : Dev), d.ceil.applied = some a ∧ d.fb CEIL_STATUS.DRY_STALE = false ∧ x = d.untilLife (a.2.2 + 2 *
    d.swg.cfg.energy.dryPeriod) := by
  exact
    ⟨({ tUp with ceil := { tUp.ceil with applied := some (1, 1, 0) } }), (1, 1, 0), _, by decide +kernel, by decide +kernel, rfl⟩

/-- An attach of the drive of port 0 at a step, and a fill of slab 3 outstanding. -/
def tAttach (n : Nat) : Attach := ⟨n, [0], false, 8⟩
def tAttaching (n : Nat) : Dev := { tUp with back := { tUp.back with attach := [((1, 0), tAttach n)] } }
def tDown : Dev := tR [tF BACK_PORT_STATUS.LINK_UP 0 1 0, tF BACK_CTRL.AUTO_ATTACH 0]
def tFill : Dev := { tNs .online with cru := { tUp.cru with fills := [(3, false)] } }

theorem wit_BackingAttachRuns_1 :
    ∃ (d : Dev) (die : Nat) (port : Nat) (width : Nat) (rate : Nat) (x : Dev) (y : Dev), d.hasRoot (die, port) = true ∧ d.inService die = true ∧
    d.quenching = false ∧ d.fb BACK_PORT_STATUS.LINK_UP die port = false ∧ x = ((d.setB BACK_PORT_STATUS.LINK_UP true die port).setF
    BACK_PORT_STATUS.WIDTH width die port).setF BACK_PORT_STATUS.RATE rate die port ∧ y = x.setBack (fun b =>
    { b with downAt := tdel b.downAt (die, port) }) ∧ y.fb BACK_CTRL.AUTO_ATTACH = false ∧ y.back.attach = [] := by
  exact
    ⟨tDown, 1, 0, 4, 5, _, _, by decide +kernel, by decide +kernel, by decide +kernel, by decide +kernel, rfl, rfl, by decide +kernel,
    by decide +kernel⟩

theorem wit_BackingAttachRuns_2 :
    ∃ (d : Dev) (die : Nat) (port : Nat) (x : Dev), d.fb BACK_PORT_STATUS.LINK_UP die port = true ∧ x = ((d.setB BACK_PORT_STATUS.LINK_UP false
    die port).setF BACK_PORT_STATUS.WIDTH 0 die port).setF BACK_PORT_STATUS.RATE 0 die port := by
  exact
    ⟨tUp, 1, 0, _, by decide +kernel, rfl⟩

theorem wit_BackingAttachRuns_3 :
    ∃ (d : Dev) (die : Nat) (port : Nat) (t : Nat) (x : Dev), tget d.back.downAt (die, port) = some t ∧ x = (d.until (t + 1000000000)).setBack
    (fun b => { b with downAt := tdel b.downAt (die, port) }) := by
  exact
    ⟨({ tUp with back := { tUp.back with downAt := [((1, 0), 0)] } }), 1, 0, 0, _, by decide +kernel, rfl⟩

theorem wit_BackingAttachRuns_4 :
    ∃ (d : Dev) (die : Nat) (port : Nat), d.hasRoot (die, port) = true := by
  exact
    ⟨tUp, 1, 0, by decide +kernel⟩

theorem wit_BackingAttachRuns_5 :
    ∃ (d : Dev) (die : Nat) (port : Nat) (ready : Bool) (cssOk : Bool) (pageOk : Bool) (a : Attach), tget d.back.attach (die, port) = some a ∧
    a.step = 2 := by
  exact
    ⟨(tAttaching 2), 1, 0, true, true, true, (tAttach 2), by decide +kernel, by decide +kernel⟩

theorem wit_BackingAttachRuns_6 :
    ∃ (d : Dev) (die : Nat) (port : Nat) (a : Attach), tget d.back.attach (die, port) = some a ∧ a.step = 1 := by
  exact
    ⟨(tAttaching 1), 1, 0, (tAttach 1), by decide +kernel, by decide +kernel⟩

theorem wit_BackingAttachRuns_7 :
    ∃ (d : Dev) (die : Nat) (port : Nat) (ns : Nat) (sq : Nat) (cq : Nat) (a : Attach), tget d.back.attach (die, port) = some a ∧ a.step = 6 := by
  exact
    ⟨(tAttaching 6), 1, 0, 0, 63, 63, (tAttach 6), by decide +kernel, by decide +kernel⟩

theorem wit_BackingAttachRuns_8 :
    ∃ (d : Dev) (ns : Nat) (x : Dev), ns < d.swg.cfg.backing.nss.length ∧ (d.ns ns).state = .absent ∧ d.quenching = false ∧ x = d.setNs ns
    { d.ns ns with state := .attaching } ∧ x.fb BACK_PORT_STATUS.LINK_UP (d.nsPort ns).1 (d.nsPort ns).2 = false := by
  exact
    ⟨tDown, 0, _, by decide +kernel, by decide +kernel, by decide +kernel, rfl, by decide +kernel⟩

theorem wit_BackingAttachRuns_9 :
    ∃ (d : Dev) (ns : Nat), (d.ns ns).state = .blank ∧ d.quenching = false := by
  exact
    ⟨(tNs .blank), 0, by decide +kernel, by decide +kernel⟩

theorem wit_BackingAttachRuns_10 :
    ∃ (d : Dev) (ns : Nat), (d.ns ns).state = .online := by
  exact
    ⟨(tNs .online), 0, by decide +kernel⟩

theorem wit_BackingAttachRuns_11 :
    ∃ (d : Dev) (ns : Nat) (x : Dev) (y : Dev), (d.ns ns).state = .detaching ∧ d.cru.tags = [] ∧ d.cru.staging = [] ∧ d.commandSlabs ns = [] ∧ x
    = d.setNs ns { d.ns ns with state := .absent, tried := true } ∧ y = x.raiseN .BACK_NS_DETACHED ns [p4 ns, p4 (x.ns ns).detached] ∧ (y.nsIn
    (d.nsPort ns) fun s => decide (s = .online)) = [] := by
  exact
    ⟨(tNs .detaching), 0, _, _, by decide +kernel, by decide +kernel, by decide +kernel, by decide +kernel, rfl, rfl, by decide +kernel⟩

theorem wit_BackingCommandsRun_1 :
    ∃ (d : Dev) (slab : Nat) (dnr : Bool) (data : List Line) (errorLog : Nat) (c : BackCmd) (x : Dev), d.outstanding slab = some c ∧ x = (if
    c.reads then d.incF BACK_PORT_READS.COUNT (d.nsPort (d.nsOf slab)).1 (d.nsPort (d.nsOf slab)).2 else d.incF BACK_PORT_WRITES.COUNT (d.nsPort
    (d.nsOf slab)).1 (d.nsPort (d.nsOf slab)).2) := by
  exact
    ⟨tFill, 3, false, [], 0, .fill, _, by decide +kernel, rfl⟩

theorem wit_BackingCommandsRun_2 :
    ∃ (d : Dev) (slab : Nat) (dnr : Bool) (data : List Line) (errorLog : Nat) (c : BackCmd), d.outstanding slab = some c ∧ c.reads = true := by
  exact
    ⟨tFill, 3, false, [], 0, .fill, by decide +kernel, by decide +kernel⟩

theorem wit_BackingCommandsRun_3 :
    ∃ (d : Dev) (slab : Nat) (status : Nat) (data : List Line) (errorLog : Nat) (c : BackCmd) (x : Dev), d.outstanding slab = some c ∧ status ≠
    0 ∧ status ≠ 0x280 ∧ status ≠ 0x281 ∧ x = d.readLogs (d.nsOf slab) ∧ tgetD x.back.retries slab 0 < 3 := by
  exact
    ⟨tFill, 3, 0x282, [], 0, .fill, _, by decide +kernel, by decide +kernel, by decide +kernel, by decide +kernel, rfl, by decide +kernel⟩

theorem wit_BackingCommandsRun_4 :
    ∃ (d : Dev) (slab : Nat), d.back.delayed.contains slab = true ∧ d.quenching = false := by
  exact
    ⟨({ tUp with back := { tUp.back with delayed := [3] } }), 3, by decide +kernel, by decide +kernel⟩

theorem wit_BackingCommandsRun_5 :
    ∃ (d : Dev) (slab : Nat) (sIn : Nat) (c : BackCmd) (p : Nat × Nat) (n : Nat) (x : Dev), d.outstanding slab = some c ∧ n = d.nsOf slab ∧ p =
    d.nsPort n ∧ sIn = slab / d.swg.cfg.backing.stripe / d.swg.cfg.backing.nss.length * d.swg.cfg.backing.stripe + slab %
    d.swg.cfg.backing.stripe ∧ x = (d.incF BACK_PORT_TIMEOUTS.COUNT p.1 p.2).raiseN .BACK_CMD_TIMEOUT n [p4 n, p2 c.opcode, p1 (sIn % d.f
    BACK_NS_STATUS.QUEUES 0 n)] ∧ x.back.reissued.contains slab = false ∧ x.back.resetting.contains p = false := by
  exact
    ⟨tFill, 3, _, .fill, _, _, _, by decide +kernel, rfl, rfl, rfl, rfl, by decide +kernel, by decide +kernel⟩

theorem wit_BackingCommandsRun_6 :
    ∃ (d : Dev) (die : Nat) (port : Nat) (x : Dev), d.back.resetting.contains (die, port) = true ∧ x = (((d.setBack fun b =>
    { b with resetting := b.resetting.filter fun x => decide (x ≠ (die, port)) }).incF BACK_PORT_RESETS.COUNT die port).raise .BACK_CTRL_RESET
    die [p1 port, p4 1]) := by
  exact
    ⟨({ tUp with back := { tUp.back with resetting := [(1, 0)] } }), 1, 0, _, by decide +kernel, rfl⟩

theorem wit_BackingCommandsRun_7 :
    ∃ (d : Dev) (die : Nat) (port : Nat) (warning : Nat) (used : Nat), d.hasRoot (die, port) = true ∧ d.fb BACK_PORT_STATUS.CTRL_READY die port
    = true ∧ d.quenching = false := by
  exact
    ⟨(tR [tF BACK_PORT_STATUS.CTRL_READY 1 1 0]), 1, 0, 0, 5, by decide +kernel, by decide +kernel, by decide +kernel⟩

theorem wit_ChannelRequestsRun_1 :
    ∃ (d : Dev) (die : Nat) (chan : Nat) (q : ChanReq) (r : CReq) (x : Dev), q.rank ∈ (d.chan die chan).ranks ∧ d.chanState die chan ≠ 0 ∧ r =
    ⟨(d.chan die chan).nextId, q.requester, q.srcDie, q.write, q.rank, q.bank % 32, q.row, q.line % 256, d.now, false, false, false, false⟩ ∧ x
    = (d.modChan die chan fun y => { y with nextId := y.nextId + 1, lastReq := tset y.lastReq q.rank d.now }).pressure die chan q.requester
    q.pressure ∧ (x.chanState die chan ≠ 3 ∨ q.write = true) := by
  exact
    ⟨(tChan tC), 1, 0, ⟨0, 1, false, 0, 31, 0, 255, 0⟩, _, _, by decide +kernel, by decide +kernel, rfl, rfl, by decide +kernel⟩

theorem wit_ChannelRequestsRun_2 :
    ∃ (d : Dev) (die : Nat) (chan : Nat) (illegal : List Nat) (pressure : Nat) (r : CReq) (byPanic : Bool) (x : Dev) (y : Dev), (d.chan die
    chan).alert = none ∧ d.chanState die chan = 2 ∧ (d.chan die chan).run = none ∧ x = d.modChan die chan (fun y =>
    { y with busWrite := d.busTurn die chan }) ∧ x.schedule die chan illegal (d.busTurn die chan) = some (r, byPanic) ∧ y = x.modChan die chan
    (fun y => { y with exiting := y.exiting.filter fun k => decide (k ≠ r.rank) }) ∧ y.nextCmd die chan r = .column := by
  exact
    ⟨(tChan { tC with queue := [tCr], rows := [⟨0, 0, 0, 0⟩] }), 1, 0, [], 0, tCr, false, _, _, by decide +kernel, by decide +kernel,
    by decide +kernel, rfl, by decide +kernel, rfl, by decide +kernel⟩

theorem wit_ChannelRequestsRun_3 :
    ∃ (d : Dev) (die : Nat) (chan : Nat) (id : Nat) (beats : List Beat) (r : CReq) (x : Dev), (d.chan die chan).flying.find? (fun r => decide
    (r.id = id)) = some r ∧ hasBad beats = true ∧ r.reread = false ∧ x = (d.modChan die chan fun x =>
    { x with flying := x.flying.filter fun q => decide (q.id ≠ id) }).correctedBeats die chan r beats := by
  exact
    ⟨(tChan { tC with flying := [tCr] }), 1, 0, 1, [.bad 1], tCr, _, by decide +kernel, by decide +kernel, by decide +kernel, rfl⟩

theorem wit_ChannelRequestsRun_4 :
    ∃ (d : Dev) (die : Nat) (chan : Nat) (id : Nat) (beats : List Beat) (r : CReq) (x : Dev), (d.chan die chan).flying.find? (fun r => decide
    (r.id = id)) = some r ∧ hasBad beats = false ∧ hasCorrected beats = false ∧ r.reread = false ∧ r.thaw = false ∧ x = (d.modChan die chan fun
    x => { x with flying := x.flying.filter fun q => decide (q.id ≠ id) }).correctedBeats die chan r beats := by
  exact
    ⟨(tChan { tC with flying := [tCr] }), 1, 0, 1, [.clean], tCr, _, by decide +kernel, by decide +kernel, by decide +kernel, by decide +kernel,
    by decide +kernel, rfl⟩

theorem wit_ChannelRequestsRun_6 :
    ∃ (d : Dev) (die : Nat) (chan : Nat) (id : Nat) (r : CReq), (d.chan die chan).queue.find? (fun r => decide (r.id = id)) = some r ∧ r.urgent
    = false := by
  exact
    ⟨(tChan { tC with queue := [tCr] }), 1, 0, 1, tCr, by decide +kernel, by decide +kernel⟩

theorem wit_ChannelRequestsRun_7 :
    ∃ (d : Dev) (die : Nat) (chan : Nat) (rank : Nat) (bank : Nat) (o : OpenRow), (d.chan die chan).openRow rank bank = some o ∧ d.chanState die
    chan ≠ 3 := by
  exact
    ⟨(tChan { tC with rows := [⟨0, 0, 0, 0⟩] }), 1, 0, 0, 0, ⟨0, 0, 0, 0⟩, by decide +kernel, by decide +kernel⟩

theorem wit_ChannelRequestsRun_8 :
    ∃ (d : Dev) (die : Nat) (chan : Nat) (beats : List Beat), d.chanState die chan = 2 := by
  exact
    ⟨(tChan tC), 1, 0, [], by decide +kernel⟩

theorem wit_ChannelRequestsRun_9 :
    ∃ (d : Dev) (die : Nat) (chan : Nat) (dimm : Nat) (failed : Nat), (d.chanState die chan = 2 ∨ d.chanState die chan = 4) := by
  exact
    ⟨(tChan tC), 1, 0, 0, 0, by decide +kernel⟩

theorem wit_ChannelRequestsRun_10 :
    ∃ (d : Dev) (die : Nat) (chan : Nat) (a : CaAlert) (x : Dev), (d.chan die chan).alert = some a ∧ a.low = true ∧ a.count = 0 ∧ x = d.forEach
    (d.chan die chan).ranks (fun d p => d.preAll die chan p) := by
  exact
    ⟨(tChan { tC with alert := some ⟨0, true, [], 0⟩ }), 1, 0, ⟨0, true, [], 0⟩, _, by decide +kernel, by decide +kernel, by decide +kernel,
    rfl⟩

theorem wit_ChannelUpkeepRuns_1 :
    ∃ (d : Dev) (die : Nat) (chan : Nat) (rank : Nat) (x : Dev), rank ∈ (d.chan die chan).ranks ∧ d.fb CHAN_RANK_STATUS.SELF_REFRESH die chan
    rank = false ∧ x = d.setF CHAN_RANK_STATUS.OWED (d.f CHAN_RANK_STATUS.OWED die chan rank + 1) die chan rank ∧ (x.chan die chan).busy rank =
    false := by
  exact
    ⟨(tChan tC), 1, 0, 0, _, by decide +kernel, by decide +kernel, rfl, by decide +kernel⟩

theorem wit_ChannelUpkeepRuns_2 :
    ∃ (d : Dev) (die : Nat) (chan : Nat) (rank : Nat), d.fb CHAN_REF_CTRL.MODE die chan = false := by
  exact
    ⟨(tChan tC [tF CHAN_REF_CTRL.MODE 0 1 0]), 1, 0, 0, by decide +kernel⟩

theorem wit_ChannelUpkeepRuns_3 :
    ∃ (d : Dev) (die : Nat) (chan : Nat) (requester : Nat) (t : Nat), tget (d.chan die chan).throttled requester = some t := by
  exact
    ⟨(tChan { tC with throttled := [(5, 100)] }), 1, 0, 5, 100, by decide +kernel⟩

theorem wit_ChannelUpkeepRuns_4 :
    ∃ (d : Dev) (die : Nat) (chan : Nat) (dimm : Nat) (sensor : Nat) (t : Int) (x : Dev), x = d.forEach ((d.chan die chan).ranksOf dimm) (fun e
    p => e.rankReading die chan p t ((d.chan die chan).tempLost.contains dimm)) := by
  exact
    ⟨(tChan tC), 1, 0, 0, 0, 850, _, rfl⟩

theorem wit_ChannelUpkeepRuns_5 :
    ∃ (d : Dev) (die : Nat) (chan : Nat) (dimm : Nat) (sensor : Nat), tgetD (d.chan die chan).tempFails dimm 0 ≠ 2 := by
  exact
    ⟨(tChan tC), 1, 0, 0, 0, by decide +kernel⟩

theorem wit_ChannelUpkeepRuns_6 :
    ∃ (d : Dev) (die : Nat) (chan : Nat) (rank : Nat), rank ∈ (d.chan die chan).ranks ∧ (d.chan die chan).busy rank = false ∧ d.fb
    CHAN_RANK_STATUS.SELF_REFRESH die chan rank = false ∧ d.chanState die chan = 2 ∧ (d.chan die chan).run = none ∧ (d.chan die chan).flying.any
    (fun r => decide (r.rank = rank)) = false := by
  exact
    ⟨(tChan tC), 1, 0, 0, by decide +kernel, by decide +kernel, by decide +kernel, by decide +kernel, by decide +kernel, by decide +kernel⟩

theorem wit_ChannelUpkeepRuns_8 :
    ∃ (d : Dev) (die : Nat) (chan : Nat), d.chanState die chan = 2 := by
  exact
    ⟨(tChan tC), 1, 0, by decide +kernel⟩

theorem wit_ChannelUpkeepRuns_9 :
    ∃ (d : Dev) (die : Nat) (chan : Nat) (x : Dev) (y : Dev) (z : Dev), d.chanState die chan = 3 ∧ (d.chan die chan).run = none ∧ d.quenching =
    false ∧ x = d.setF CHAN_STATUS.STATE 2 die chan ∧ y = x.forEach (x.chan die chan).ranks (fun d p => (d.preAll die chan p).issue die chan 14
    p 0 0 0 0 none) ∧ z = y.forEach (y.chan die chan).ranks (fun d p => d.issueOwed die chan p) := by
  exact
    ⟨(tChan tC [tF CHAN_STATUS.STATE 3 1 0]), 1, 0, _, _, _, by decide +kernel, by decide +kernel, by decide +kernel, rfl, rfl, rfl⟩

theorem wit_ChannelUpkeepRuns_10 :
    ∃ (d : Dev) (die : Nat) (chan : Nat), d.f CHAN_CTRL.AUTO_THAW_MS die chan ≠ 0 ∧ d.chanState die chan = 3 := by
  exact
    ⟨(tChan tC [tF CHAN_STATUS.STATE 3 1 0, tF CHAN_CTRL.AUTO_THAW_MS 1 1 0]), 1, 0, by decide +kernel, by decide +kernel⟩

/-- A training step under way. -/
def tRunning : TrnRun := ⟨2, 0, 0, []⟩
def tTrains : Dev := tChan { tC with run := some tRunning }

theorem wit_TrainingRuns_1 :
    ∃ (d : Dev) (die : Nat) (chan : Nat) (step : Nat) (rank : Nat) (x : Dev), x = (d.setF TRN_CTRL.STEP step die chan).setF TRN_CTRL.RANK rank
    die chan ∧ x.mayStep die chan (step % 8) (rank % 8) = true ∧ x.stepWaits die chan = false := by
  exact
    ⟨(tChan tC [tF CHAN_STATUS.STATE 1 1 0]), 1, 0, 6, 0, _, rfl, by decide +kernel, by decide +kernel⟩

theorem wit_TrainingRuns_2 :
    ∃ (d : Dev) (die : Nat) (chan : Nat) (r : TrnRun) (x : Dev), (d.chan die chan).run = some r ∧ x = ((d.endStep die chan 3 ((d.now - r.start)
    / 1000)).failCycle die chan).restoreLkg die chan r.rank := by
  exact
    ⟨tTrains, 1, 0, tRunning, _, by decide +kernel, rfl⟩

theorem wit_TrainingRuns_3 :
    ∃ (d : Dev) (die : Nat) (chan : Nat) (rank : Nat) (step : Nat) (codes : List Nat × Option Nat), (d.chan die chan).cand = some (rank, step,
    codes) ∧ d.fb TRN_STATUS.ACTIVE die chan = false := by
  exact
    ⟨(tChan { tC with cand := some (0, 2, ([], none)) }), 1, 0, 0, 2, ([], none), by decide +kernel, by decide +kernel⟩

theorem wit_TrainingRuns_4 :
    ∃ (d : Dev) (die : Nat) (chan : Nat) (rank : Nat) (full : Bool) (x : Dev), x = (d.setF TRN_CTRL.RANK rank die chan).setB TRN_CTRL.FULL full
    die chan ∧ rank ∈ (x.chan die chan).ranks ∧ (x.trnTrigger die chan rank 3).chanState die chan ≠ 3 := by
  exact
    ⟨(tChan tC), 1, 0, 0, false, _, rfl, by decide +kernel, by decide +kernel⟩

theorem wit_TrainingRuns_5 :
    ∃ (d : Dev) (die : Nat) (chan : Nat) (rank : Nat) (full : Bool) (x : Dev), x = ((d.setF TRN_CTRL.RANK rank die chan).setB TRN_CTRL.FULL full
    die chan).trnTrigger die chan rank 3 ∧ rank ∈ (((d.setF TRN_CTRL.RANK rank die chan).setB TRN_CTRL.FULL full die chan).chan die chan).ranks
    ∧ x.chanState die chan = 3 ∧ x.mayCycle die chan rank = true := by
  exact
    ⟨(tChan tC [tF CHAN_STATUS.STATE 3 1 0]), 1, 0, 0, false, _, rfl, by decide +kernel, by decide +kernel, by decide +kernel⟩

theorem wit_TrainingRuns_6 :
    ∃ (d : Dev) (die : Nat) (chan : Nat) (rank : Nat), d.mayCycle die chan rank = true := by
  exact
    ⟨(tChan tC [tF TRN_RANK.PENDING 1 1 0 0]), 1, 0, 0, by decide +kernel⟩

theorem wit_TrainingRuns_7 :
    ∃ (d : Dev) (die : Nat) (chan : Nat) (r : TrnRun) (x : Dev), (d.chan die chan).run = some r ∧ x = d.issueOwed die chan r.rank := by
  exact
    ⟨tTrains, 1, 0, tRunning, _, by decide +kernel, rfl⟩

theorem wit_TrainingRuns_8 :
    ∃ (d : Dev) (die : Nat) (chan : Nat) (us : Nat) (scans : List TrnScan) (r : TrnRun), (d.chan die chan).run = some r ∧ (d.chanState die chan
    ≠ 2 ∨ us < 190) := by
  exact
    ⟨tTrains, 1, 0, 189, [], tRunning, by decide +kernel, by decide +kernel⟩

theorem wit_TrainingRuns_9 :
    ∃ (d : Dev) (die : Nat) (chan : Nat) (k : TrnCycle) (x : Dev), (d.chan die chan).cycle = some k ∧ (d.chan die chan).run = none ∧ (d.chan die
    chan).runWait = none ∧ x = d.until (k.lastEnd + 1000000 * d.f TRN_RETRAIN_CTRL.GAP_MS die chan) := by
  exact
    ⟨(tChan { tC with cycle := some ⟨0, 3, 2, 0, 0⟩ }), 1, 0, ⟨0, 3, 2, 0, 0⟩, _, by decide +kernel, by decide +kernel, by decide +kernel, rfl⟩

theorem wit_TrainingRuns_10 :
    ∃ (d : Dev) (die : Nat) (chan : Nat) (r : TrnRun) (x : Dev), (d.chan die chan).run = some r ∧ d.chanState die chan ≠ 3 ∧ x = (((d.until
    (r.start + 190000)).endStep die chan 2 190).failCycle die chan).restoreLkg die chan r.rank := by
  exact
    ⟨tTrains, 1, 0, tRunning, _, by decide +kernel, by decide +kernel, rfl⟩

/-- A log of the quad table, and one descriptor in the queue of die 1. -/
def tLog : TableLog := ⟨0, tCfg.quench, false, [], []⟩
def tQch (c : QChan) (l : List (FKey × Nat) := []) : Dev := { tR l with qfl := { tUp.qfl with chans := [((1, 0), c)] } }
def tQc : QChan := tUp.qchan 1 0
def tDesc (op : Nat) (st : QState := .scratch false) : Dev :=
  { tNand st [tF QFL_Q_TAIL.TAIL 1 1, tF QFL_DESC.WORD op 1 0, tF QFL_DESC.WORD (2 ^ 16 + 0x02000000 * 2 ^ 32) 1 1] with
    pool := { tUp.pool with bufs := [(⟨0, 1, 0⟩, ⟨false, 0, 0, 0⟩)] } }
def tMed : NandMedium := ⟨0, [], none, false, []⟩

theorem wit_QuenchFlashRuns_1 :
    ∃ (d : Dev) (die : Nat) (chan : Nat) (nand : Nat) (look : NandLook) (x : Dev) (p : Nat) (y : Dev), d.qEnabled die chan = true ∧ nand <
    d.qcfg.diesPerChan ∧ (d.qchan die chan).attached.contains nand = false ∧ x = (if (d.modQchan die chan fun y =>
    { y with attached := y.attached ++ [nand] }).f QFL_CHAN_STATUS.STATE die chan = 0 then (d.modQchan die chan fun y =>
    { y with attached := y.attached ++ [nand] }).setF QFL_CHAN_STATUS.STATE 1 die chan else d.modQchan die chan fun y =>
    { y with attached := y.attached ++ [nand] }) ∧ x.nandFails ⟨die, chan, nand⟩ look = some p ∧ x.qfl.lostNands.contains ⟨die, chan, nand⟩ =
    false ∧ y = (x.setF QFL_NAND_STATUS.STATE 1 die chan nand).raise .QFL_NAND_REFUSED die [p1 chan, p1 nand, p4 p] ∧ (y.qchan die
    chan).attached.length < y.qcfg.diesPerChan := by
  exact
    ⟨({ tUp with swg := { tUp.swg with cfg := { tCfg with quench := { tCfg.quench with diesPerChan := 2 } } } }), 1, 0, 0, ⟨false, true, 16384,
    2048, 4, true, 16, 8, true⟩, _, 0, _, by decide +kernel, by decide +kernel, by decide +kernel, rfl, by decide +kernel, by decide +kernel,
    rfl, by decide +kernel⟩

theorem wit_QuenchFlashRuns_2 :
    ∃ (d : Dev) (die : Nat) (chan : Nat) (nand : Nat) (n : Nand) (k : QKey), n = ⟨die, chan, nand⟩ ∧ d.counts n = true ∧ d.quenching = false ∧
    d.dryOpen = false ∧ d.ingotOn n = false ∧ d.quadsIn n (fun s => decide (s = .erasing)) = [] ∧ d.eraseChoice n = some k ∧ (d.quad k).pe + 1 <
    d.f QFL_PE_LIMIT.CYCLES die := by
  exact
    ⟨(tNand .ready [tF QFL_PE_LIMIT.CYCLES 100 1]), 1, 0, 0, _, ⟨1, 0, 0, 1⟩, rfl, by decide +kernel, by decide +kernel, by decide +kernel,
    by decide +kernel, by decide +kernel, by decide +kernel, by decide +kernel⟩

theorem wit_QuenchFlashRuns_3 :
    ∃ (d : Dev) (die : Nat) (chan : Nat) (nand : Nat) (k : QKey) (ks : List QKey) (x : Dev), d.quadsIn ⟨die, chan, nand⟩ (fun s => decide (s =
    .erasing)) = k :: ks ∧ x = d.dropUnits (fun j => decide (j = k)) := by
  exact
    ⟨(tNand .erasing), 1, 0, 0, ⟨1, 0, 0, 0⟩, [], _, by decide +kernel, rfl⟩

theorem wit_QuenchFlashRuns_4 :
    ∃ (d : Dev) (die : Nat) (chan : Nat) (l : TableLog) (x : Dev), (d.qchan die chan).dirty ≠ [] ∧ (d.qchan die chan).log = some l ∧ x =
    d.forEach (d.qchan die chan).dirty (fun d e => d.readyErased ⟨die, chan, e.1, e.2⟩) ∧ partsOf l.base + l.deltas.length < x.qcfg.pages := by
  exact
    ⟨(tQch { tQc with dirty := [(0, 0)], log := some tLog }), 1, 0, tLog, _, by decide +kernel, by decide +kernel, rfl, by decide +kernel⟩

theorem wit_QuenchFlashRuns_6 :
    ∃ (d : Dev) (die : Nat) (chan : Nat) (marks : List (Nat × Nat × Nat)), (d.qchan die chan).tabled = false ∧ d.f QFL_CHAN_STATUS.STATE die
    chan = 2 := by
  exact
    ⟨(tR [tF QFL_CHAN_STATUS.STATE 2 1 0]), 1, 0, [], by decide +kernel, by decide +kernel⟩

theorem wit_QuenchFlashRuns_7 :
    ∃ (d : Dev) (die : Nat) (chan : Nat) (marks : List (Nat × Nat × Nat)), (d.qchan die chan).oldGeometry = true ∧ d.rht.held = none ∧
    d.rht.restore = none ∧ d.quenching = false := by
  exact
    ⟨(tQch { tQc with oldGeometry := true }), 1, 0, [], by decide +kernel, by decide +kernel, by decide +kernel, by decide +kernel⟩

theorem wit_QuenchFlashRuns_8 :
    ∃ (d : Dev) (die : Nat) (chan : Nat) (nand : Nat) (quad : Nat) (plane : Nat), d.quenching = false := by
  exact
    ⟨tUp, 1, 0, 0, 0, 3, by decide +kernel⟩

theorem wit_QuenchFlashRuns_9 :
    ∃ (d : Dev) (die : Nat) (chan : Nat) (nand : Nat), d.nandUp ⟨die, chan, nand⟩ = true ∧ d.quenching = false := by
  exact
    ⟨(tNand .ready), 1, 0, 0, by decide +kernel, by decide +kernel⟩

theorem wit_QuenchFlashQueueRuns_1 :
    ∃ (d : Dev) (die : Nat) (m : NandMedium) (k : Option BufKey), d.qflReady die 1 k := by
  exact
    ⟨(tDesc 1), 1, tMed, (some ⟨0, 1, 0⟩),
    ⟨by decide +kernel, by decide +kernel, by decide +kernel, eq_of_tOk (by decide +kernel), by decide +kernel⟩⟩

theorem wit_QuenchFlashQueueRuns_2 :
    ∃ (d : Dev) (die : Nat) (m : NandMedium) (k : BufKey) (x : Dev), d.qflReady die 2 (some k) ∧ x =
    { d with pool := { d.pool with data := tset d.pool.data k ((List.range (8 * (d.qdesc die).length)).map fun i => m.words.getD i 0) } } := by
  exact
    ⟨(tDesc 2), 1, tMed, ⟨0, 1, 0⟩, _,
    ⟨by decide +kernel, by decide +kernel, by decide +kernel, eq_of_tOk (by decide +kernel), by decide +kernel⟩, rfl⟩

theorem wit_QuenchFlashQueueRuns_3 :
    ∃ (d : Dev) (die : Nat) (m : NandMedium) (k : BufKey), d.qflReady die 3 (some k) := by
  exact
    ⟨(tDesc 3), 1, tMed, ⟨0, 1, 0⟩, ⟨by decide +kernel, by decide +kernel, by decide +kernel, eq_of_tOk (by decide +kernel), by decide +kernel⟩⟩

theorem wit_QuenchFlashQueueRuns_4 :
    ∃ (d : Dev) (die : Nat) (m : NandMedium) (k : Option BufKey) (x : Dev), d.qflReady die 4 k ∧ bit m.onfi 0 = false ∧ x = (d.dropUnits fun j
    => decide (j = d.qflQuad die)).logQuad (d.qflQuad die)
    { d.quad (d.qflQuad die) with pe := (d.quad (d.qflQuad die)).pe + 1, state := .scratch true, ptr := 0 } := by
  exact
    ⟨(tDesc 4), 1, tMed, none, _, ⟨by decide +kernel, by decide +kernel, by decide +kernel, eq_of_tOk (by decide +kernel), by decide +kernel⟩,
    by decide +kernel, rfl⟩

theorem wit_QuenchFlashQueueRuns_5 :
    ∃ (d : Dev) (die : Nat) (m : NandMedium) (k : BufKey) (x : Dev), d.qflReady die 5 (some k) ∧ x =
    { d with pool := { d.pool with data := tset d.pool.data k ((List.range (8 * (d.qdesc die).length)).map fun i => m.words.getD i 0) } } := by
  exact
    ⟨(tDesc 5), 1, tMed, ⟨0, 1, 0⟩, _,
    ⟨by decide +kernel, by decide +kernel, by decide +kernel, eq_of_tOk (by decide +kernel), by decide +kernel⟩, rfl⟩

theorem wit_QuenchFlashQueueRuns_6 :
    ∃ (d : Dev) (die : Nat) (m : NandMedium) (k : BufKey) (x : Dev), d.qflReady die 6 (some k) ∧ x =
    { d with pool := { d.pool with data := tset d.pool.data k ((List.range (8 * (d.qdesc die).length)).map fun i => m.words.getD i 0) } } := by
  exact
    ⟨(tDesc 6), 1, tMed, ⟨0, 1, 0⟩, _,
    ⟨by decide +kernel, by decide +kernel, by decide +kernel, eq_of_tOk (by decide +kernel), by decide +kernel⟩, rfl⟩

theorem wit_QuenchFlashQueueRuns_7 :
    ∃ (d : Dev) (die : Nat) (m : NandMedium) (k : Option BufKey) (blank : Bool), d.qflReady die 7 k ∧ blank = (!(d.qfl.units.any fun x => decide
    (x.1.1 = d.qflQuad die)) && decide ((d.quad (d.qflQuad die)).ptr = 0)) := by
  exact
    ⟨(tDesc 7), 1, tMed, none, _, ⟨by decide +kernel, by decide +kernel, by decide +kernel, eq_of_tOk (by decide +kernel), by decide +kernel⟩,
    rfl⟩

theorem wit_QuenchFlashQueueRuns_8 :
    ∃ (d : Dev) (die : Nat), d.f QFL_Q_TAIL.TAIL die ≠ d.f QFL_Q_HEAD.HEAD die ∧ d.quenching = false ∧ ((d.qdesc die).opcode = 0 ∨ 7 < (d.qdesc
    die).opcode) := by
  exact
    ⟨(tDesc 8), 1, by decide +kernel, by decide +kernel, by decide +kernel⟩

theorem wit_BellowsMeasuresRun_1 :
    ∃ (d : Dev) (strings : List StrSample) (x : Dev) (y : Dev) (z : Dev), x = d.until (d.bell.sampleAt + 1000000) ∧ y = (x.setBell fun b =>
    { b with sampleAt := x.now }).dryEnergy strings ∧ z = y.forEach (strings.zipIdx.filter fun x => y.strings.contains x.2) (fun d x =>
    d.sampleStr x.2 x.1) ∧ z.discharging = none := by
  exact
    ⟨(tNand .ready), [⟨3300, 0, 250, 250⟩], _, _, _, rfl, rfl, rfl, by decide +kernel⟩

theorem wit_BellowsMeasuresRun_2 :
    ∃ (d : Dev) (n : Nat), n ∈ d.strings ∧ (d.bstr n).present = true ∧ d.switchOf n ≠ 3 ∧ -180000 * d.strI n < Int.ofNat (d.qref n) := by
  exact
    ⟨(tNand .ready), 0, by decide +kernel, by decide +kernel, by decide +kernel, by decide +kernel⟩

theorem wit_BellowsMeasuresRun_3 :
    ∃ (d : Dev) (n : Nat) (fault : Nat), d.faultHolds n fault = false := by
  exact
    ⟨(tNand .ready), 0, 1, by decide +kernel⟩

theorem wit_BellowsMeasuresRun_4 :
    ∃ (d : Dev) (n : Nat), d.fb BELL_CAL_CTRL.EN = true ∧ d.bell.cal = none ∧ d.quenching = false ∧ d.calNext = some n := by
  exact
    ⟨(tNand .ready [tF BELL_CAL_CTRL.EN 1]), 0, by decide +kernel, by decide +kernel, by decide +kernel, by decide +kernel⟩

theorem wit_BellowsMeasuresRun_5 :
    ∃ (d : Dev) (n : Nat) (v1 : Int) (i1 : Int) (v2 : Int) (i2 : Int) (v3 : Int) (i3 : Int) (x : Dev), d.bell.cal = some n ∧ calResult v1 i1 v2
    i2 v3 i3 = none ∧ x = ((d.setBell fun b => { b with cal := none }).setPin "CAL_LOAD" 0 0).incF BELL_STR_STATUS.CAL_REJECTS 0 n ∧ x.f
    BELL_STR_STATUS.CAL_REJECTS 0 n ≠ 60 := by
  exact
    ⟨({ tNand .ready with bell := { (tNand .ready).bell with cal := some 0 } }), 0, 10, 0, 0, 9999, 10, 0, _, by decide +kernel,
    by decide +kernel, rfl, by decide +kernel⟩

theorem wit_BellowsMeasuresRun_6 :
    ∃ (d : Dev) (n : Nat) (m : Nat) (v : Nat) (v1 : Int) (i1 : Int) (v2 : Int) (i2 : Int) (v3 : Int) (i3 : Int) (x : Dev), d.bell.cal = some n ∧
    calResult v1 i1 v2 i2 v3 i3 = some m ∧ x = (d.setBell fun b => { b with cal := none }).setPin "CAL_LOAD" 0 0 ∧ v = ((x.f BELL_STR_R_EST.UOHM
    0 n : Int) + ((m : Int) - x.f BELL_STR_R_EST.UOHM 0 n) / 8).toNat ∧ (x.strCfg n).rEst ≤ 4 * v ∧ v ≤ 4 * (x.strCfg n).rEst := by
  exact
    ⟨({ tNand .ready [tF BELL_STR_R_EST.UOHM 1000 0 0] with bell := { (tNand .ready).bell with cal := some 0 } }), 0, 1000, _, 10, 0, 0, 10000,
    10, 0, _, by decide +kernel, by decide +kernel, rfl, rfl, by decide +kernel, by decide +kernel⟩

theorem wit_BellowsMeasuresRun_7 :
    ∃ (d : Dev) (n : Nat) (value : Bool), n ∈ d.strings := by
  exact
    ⟨tUp, 0, true, by decide +kernel⟩

theorem wit_BellowsMeasuresRun_9 :
    ∃ (d : Dev) (mv : Nat) (ns : Nat), mv < 400 + 4 * d.f BELL_AON_CTRL.THRESH ∧ 32 ≤ ns ∧ d.aonLow = false := by
  exact
    ⟨tUp, 399, 32, by decide +kernel, by decide +kernel, by decide +kernel⟩

theorem wit_BellowsMeasuresRun_10 :
    ∃ (d : Dev) (mv : Nat) (x : Dev), 400 + 4 * d.f BELL_AON_CTRL.THRESH ≤ mv ∧ d.aonLow = true ∧ x = (d.setB BELL_SUPPLY_STATUS.AON_ABOVE
    true).setB BELL_SUPPLY_STATUS.AON_LOW false := by
  exact
    ⟨(tR [tF BELL_SUPPLY_STATUS.AON_LOW 1]), 1420, _, by decide +kernel, by decide +kernel, rfl⟩

theorem wit_BellowsLearningRuns_1 :
    ∃ (d : Dev) (n : Nat), d.bell.pending = [n] ∧ d.learnWaits n = none := by
  exact
    ⟨(tTwo [] { tBstr with sinceFull := some 0 }), 0, by decide +kernel, by decide +kernel⟩

theorem wit_BellowsLearningRuns_2 :
    ∃ (d : Dev) (n : Nat) (w : Nat), d.bell.pending = [n] ∧ d.learnWaits n = some w ∧ (d.bstr n).waitSaid = false := by
  exact
    ⟨tTwo, 0, 0, by decide +kernel, by decide +kernel, by decide +kernel⟩

theorem wit_BellowsLearningRuns_3 :
    ∃ (d : Dev) (n : Nat), d.learnState n = 2 := by
  exact
    ⟨(tTwo [tF BELL_STR_STATUS.LEARN 2 0 0]), 0, by decide +kernel⟩

theorem wit_BellowsLearningRuns_4 :
    ∃ (d : Dev) (n : Nat) (t : Nat), (d.bstr n).rependAt = some t := by
  exact
    ⟨(tTwo [] { tBstr with rependAt := some 5 }), 0, 5, by decide +kernel⟩

theorem wit_BellowsLearningRuns_5 :
    ∃ (d : Dev) (n : Nat), d.fb BELL_LEARN_CTRL.AUTO_EN = true ∧ n ∈ d.strings ∧ d.learnState n = 0 := by
  exact
    ⟨(tTwo [tF BELL_LEARN_CTRL.AUTO_EN 1]), 0, by decide +kernel, by decide +kernel, by decide +kernel⟩

theorem wit_BellowsLearningRuns_6 :
    ∃ (d : Dev) (n : Nat) (x : Dev), d.mayLearn n = true ∧ d.learnState n = 0 ∧ x = d.setLearn n 1 := by
  exact
    ⟨tTwo, 0, _, by decide +kernel, by decide +kernel, rfl⟩

theorem wit_BellowsLearningRuns_7 :
    ∃ (d : Dev) (n : Nat), d.learnState n = 1 := by
  exact
    ⟨(tTwo [tF BELL_STR_STATUS.LEARN 1 0 0]), 0, by decide +kernel⟩

theorem wit_BellowsLearningRuns_8 :
    ∃ (d : Dev) (n : Nat) (x : Dev), d.learnState n = 2 ∧ x = (d.setLearn n 0).modBstr n (fun s => { s with rependAt := none }) := by
  exact
    ⟨(tTwo [tF BELL_STR_STATUS.LEARN 2 0 0]), 0, _, by decide +kernel, rfl⟩

theorem wit_BellowsLearningRuns_9 :
    ∃ (d : Dev) (n : Nat) (a : AuthRun) (x : Dev), d.quenching = false ∧ (d.bstr n).auth = some a ∧ x = (d.modBstr n fun s =>
    { s with auth := none }).setB BELL_STR_STATUS.AUTHENTICATED true 0 n := by
  exact
    ⟨(tTwo [] { tBstr with auth := some ⟨0, false⟩ }), 0, ⟨0, false⟩, _, by decide +kernel, by decide +kernel, rfl⟩

theorem wit_BellowsLearningRuns_10 :
    ∃ (d : Dev) (n : Nat) (a : AuthRun) (x : Dev), (d.bstr n).auth = some a ∧ a.waits = true ∧ d.quenching = false ∧ x = d.modBstr n (fun s =>
    { s with auth := some { a with waits := false } }) := by
  exact
    ⟨(tTwo [] { tBstr with auth := some ⟨0, true⟩ }), 0, ⟨0, true⟩, _, by decide +kernel, by decide +kernel, by decide +kernel, rfl⟩

theorem wit_BellowsLearningRuns_11 :
    ∃ (d : Dev) (n : Nat) (x : Dev), d.quenching = false ∧ (d.bstr n).present = true ∧ x = d.modBstr n (fun s =>
    { s with auth := some ⟨0, false⟩ }) := by
  exact
    ⟨tTwo, 0, _, by decide +kernel, by decide +kernel, rfl⟩

theorem wit_BellowsLearningRuns_12 :
    ∃ (d : Dev) (answers : List (Option Nat)) (x : Dev), d.quenching = false ∧ x = d.forEach (answers.zipIdx.filter fun x => d.strings.contains
    x.2) (fun d x => d.pollStr x.2 x.1) ∧ ((∀ n ∈ d.countedBut [], (x.bstr n).present = true)) := by
  exact
    ⟨tTwo, [some 0, none], _, by decide +kernel, rfl, by decide +kernel⟩

def tOpened (l : List (FKey × Nat)) : Dev := { tR l with heat := { tUp.heat with opened := true } }
def tPut (u : Machine.Unit) (done : Bool) : QPlaced := ⟨⟨u, 0, none⟩, ⟨1, 0, 0, 0⟩, 0, done⟩
def tDumps (p : QDie) : Quench := { tQn with parts := [(1, p)] }
def tTrailer : Trailer := ⟨false, 1, true, 1, 0, 0, 0, 0, 0, [], []⟩
def tCommit : CommitRec := tUp.commitRec tQn

theorem wit_QuenchTripsRun_1 :
    ∃ (d : Dev) (mv : Nat) (ns : Nat) (x : Dev), d.fb QNCH_TRIG_CTRL.MAIN_EN = true ∧ mv < 400 + 4 * d.f QNCH_TRIG_CTRL.MAIN_THRESH ∧ filterNs
    (d.f QNCH_TRIG_CTRL.MAIN_FILTER) ≤ ns ∧ x = d.setB BELL_SUPPLY_STATUS.MAIN_ABOVE false ∧ x.poweredDown = false ∧ x.quenching = false ∧
    x.heat.opened = true := by
  exact
    ⟨(tOpened [tF QNCH_TRIG_CTRL.MAIN_EN 1, tF QNCH_TRIG_CTRL.MAIN_THRESH 100, tF QNCH_TRIG_CTRL.MAIN_FILTER 3]), 799, 32, _, by decide +kernel,
    by decide +kernel, by decide +kernel, rfl, by decide +kernel, by decide +kernel, by decide +kernel⟩

theorem wit_QuenchTripsRun_2 :
    ∃ (d : Dev) (mv : Nat) (ns : Nat) (x : Dev), d.fb QNCH_TRIG_CTRL.HOLD_EN = true ∧ mv < 400 + 4 * d.f QNCH_TRIG_CTRL.HOLD_THRESH ∧ filterNs
    (d.f QNCH_TRIG_CTRL.HOLD_FILTER) ≤ ns ∧ x = d.setB BELL_SUPPLY_STATUS.HOLD_ABOVE false ∧ x.poweredDown = false ∧ x.quenching = false ∧
    x.heat.opened = true := by
  exact
    ⟨(tOpened [tF QNCH_TRIG_CTRL.HOLD_EN 1, tF QNCH_TRIG_CTRL.HOLD_THRESH 0, tF QNCH_TRIG_CTRL.HOLD_FILTER 4]), 399, 128, _, by decide +kernel,
    by decide +kernel, by decide +kernel, rfl, by decide +kernel, by decide +kernel, by decide +kernel⟩

theorem wit_QuenchTripsRun_3 :
    ∃ (d : Dev) (ns : Nat) (x : Dev), d.fb QNCH_TRIG_CTRL.PFN_EN = true ∧ filterNs (d.f QNCH_TRIG_CTRL.PFN_FILTER) ≤ ns ∧ x = d.setB
    BELL_SUPPLY_STATUS.PFN_LEVEL (decide (ns = 0)) ∧ x.poweredDown = false ∧ x.quenching = false ∧ x.heat.opened = true := by
  exact
    ⟨(tOpened [tF QNCH_TRIG_CTRL.PFN_EN 1, tF QNCH_TRIG_CTRL.PFN_FILTER 0]), 0, _, by decide +kernel, by decide +kernel, rfl, by decide +kernel,
    by decide +kernel, by decide +kernel⟩

theorem wit_QuenchTripsRun_4 :
    ∃ (d : Dev) (ns : Nat) (x : Dev), d.fb QNCH_TRIG_CTRL.PFN_EN = true ∧ filterNs (d.f QNCH_TRIG_CTRL.PFN_FILTER) ≤ ns ∧ x = d.setB
    BELL_SUPPLY_STATUS.PFN_LEVEL (decide (ns = 0)) ∧ x.poweredDown = false ∧ x.quenching = true := by
  exact
    ⟨({ tOpened [tF QNCH_TRIG_CTRL.PFN_EN 1, tF QNCH_TRIG_CTRL.PFN_FILTER 1] with quenching := true }), 2, _, by decide +kernel,
    by decide +kernel, rfl, by decide +kernel, by decide +kernel⟩

theorem wit_QuenchTripsRun_5 :
    ∃ (d : Dev) (value : Nat), d.fb QNCH_TRIG_CTRL.LOCK = true := by
  exact
    ⟨(tR [tF QNCH_TRIG_CTRL.LOCK 1]), 0, by decide +kernel⟩

theorem wit_QuenchTripsRun_6 :
    ∃ (d : Dev) (value : Nat), d.fb QNCH_TRIG_CTRL.LOCK = false ∧ bits value 16 3 ≤ 4 ∧ bits value 19 3 ≤ 4 ∧ bits value 22 3 ≤ 4 ∧ bits value
    25 3 = 0 ∧ bit value 31 = false := by
  exact
    ⟨(tR [tF QNCH_TRIG_CTRL.LOCK 0]), 0x01240000, by decide +kernel, by decide +kernel, by decide +kernel, by decide +kernel, by decide +kernel,
    by decide +kernel⟩

theorem wit_QuenchTripsRun_7 :
    ∃ (d : Dev) (die : Nat) (slice : Nat) (q : Quench) (x : Dev), d.quench = some q ∧ slice < 8 ∧ die ∈ q.dies ∧ sliceId die slice ∉
    d.cru.drained ∧ d.slicePassed die (sliceId die slice) = true ∧ x = d.setCru (fun c =>
    { c with drained := c.drained ++ [sliceId die slice] }) ∧ x.allDrained q = false := by
  exact
    ⟨({ tQnch tQn with cru := { tUp.cru with drained := [] } }), 1, 7, tQn, _, by decide +kernel, by decide +kernel, by decide +kernel,
    by decide +kernel, by decide +kernel, rfl, by decide +kernel⟩

theorem wit_QuenchTripsRun_8 :
    ∃ (d : Dev) (die : Nat) (slice : Nat) (q : Quench) (x : Dev), d.quench = some q ∧ slice < 8 ∧ die ∈ q.dies ∧ sliceId die slice ∉
    d.cru.drained ∧ d.slicePassed die (sliceId die slice) = true ∧ x = d.setCru (fun c =>
    { c with drained := c.drained ++ [sliceId die slice] }) ∧ x.allDrained q = true ∧ q.drainSent = false ∧ x.rst.discard = false := by
  exact
    ⟨({ tQnch tQn with cru := { tUp.cru with drained := (List.range 7).map (sliceId 1) } }), 1, 7, tQn, _, by decide +kernel, by decide +kernel,
    by decide +kernel, by decide +kernel, by decide +kernel, rfl, by decide +kernel, by decide +kernel, by decide +kernel⟩

theorem wit_QuenchDumpRuns_1 :
    ∃ (d : Dev) (die : Nat) (bad : List (Nat × Nat)) (q : Quench) (p : QDie) (w : Walk) (found : Nat) (x : Dev) (y : Dev), d.quench = some q ∧
    q.part die = some p ∧ q.sanitize = false ∧ p.walked = false ∧ d.dieDrained die = true ∧ d.rst.discard = false ∧ d.walk q die bad = (w,
    found) ∧ q.tagWalk.contains die = false ∧ x = d.modQuench (fun z => z.modPart die fun p =>
    { p with waiting := d.walkUnits q die ((q.part die).getD p) w, nextSeg := (d.walkSegs q die w).length, maps := (d.mapSegments q die).length, slabs := w.pack.slabs, walked := true })
    ∧ y = x.forEach w.ues (fun d e => d.raise .QNCH_SECTOR_UE die [p1 die, p5 e.1, p1 e.2]) := by
  exact
    ⟨(tQnch tQn), 1, [], tQn, tQd, (((tQnch tQn).walk tQn 1 []).1), (((tQnch tQn).walk tQn 1 []).2), _, _, by decide +kernel, by decide +kernel,
    by decide +kernel, by decide +kernel, by decide +kernel, by decide +kernel, by rfl, by decide +kernel, rfl, rfl⟩

theorem wit_QuenchDumpRuns_2 :
    ∃ (d : Dev) (die : Nat) (chan : Nat) (nand : Nat) (writer : Nat) (q : Quench) (p : QPlaced) (x : Dev), d.quench = some q ∧ q.running ⟨die,
    chan, nand⟩ = some (writer, p) ∧ x = d.setQfl (fun x => { x with units := tset x.units (p.key, p.page) p.unit.unit }) := by
  exact
    ⟨(tQnch (tDumps { tQd with placed := [tPut .undef false] })), 1, 0, 0, 1, (tDumps { tQd with placed := [tPut .undef false] }), (tPut .undef
    false), _, by decide +kernel, by decide +kernel, rfl⟩

theorem wit_QuenchDumpRuns_3 :
    ∃ (d : Dev) (die : Nat) (chan : Nat) (nand : Nat) (plane : Nat) (writer : Nat) (n : Nand) (q : Quench) (p : QPlaced) (g : QDie) (u : Quad)
    (x : Dev), n = ⟨die, chan, nand⟩ ∧ d.quench = some q ∧ q.running n = some (writer, p) ∧ q.part n.die = some g ∧ (2 ≤ tgetD q.fails n 0 ∨ 8 ≤
    g.reprograms) ∧ u = d.quad p.key ∧ x = (((d.setQfl fun y => { y with units := tset y.units (p.key, p.page) .undef }).setQuad p.key
    { u with ptr := d.qcfg.pages }).modQuench fun z => { z with fails := tset z.fails n (tgetD q.fails n 0 + 1) }) := by
  exact
    ⟨(tQnch { tDumps { tQd with placed := [tPut .undef false] } with fails := [(⟨1, 0, 0⟩, 2)] }), 1, 0, 0, 3, 1, _,
    ({ tDumps { tQd with placed := [tPut .undef false] } with fails := [(⟨1, 0, 0⟩, 2)] }), (tPut .undef false),
    ({ tQd with placed := [tPut .undef false] }), _, _, rfl, by decide +kernel, by decide +kernel, by decide +kernel, by decide +kernel, rfl,
    rfl⟩

theorem wit_QuenchDumpRuns_4 :
    ∃ (d : Dev) (die : Nat) (chan : Nat) (nand : Nat), d.nandUp ⟨die, chan, nand⟩ = true := by
  exact
    ⟨(tNand .ready), 1, 0, 0, by decide +kernel⟩

theorem wit_QuenchDumpRuns_5 :
    ∃ (d : Dev) (die : Nat) (chan : Nat) (nand : Nat) (q : Quench) (n : Nand), n = ⟨die, chan, nand⟩ ∧ d.quench = some q ∧ d.quadsIn n (fun s =>
    decide (s = .erasing)) = [] := by
  exact
    ⟨(tQnch tQn), 1, 0, 0, tQn, _, rfl, by decide +kernel, by decide +kernel⟩

theorem wit_QuenchDumpRuns_6 :
    ∃ (d : Dev) (die : Nat) (q : Quench) (p : QDie), d.quench = some q ∧ q.part die = some p ∧ p.walked = true ∧ p.idle = true ∧ p.trailer =
    none := by
  exact
    ⟨(tQnch (tDumps { tQd with walked := true })), 1, (tDumps { tQd with walked := true }), ({ tQd with walked := true }), by decide +kernel,
    by decide +kernel, by decide +kernel, by decide +kernel, by decide +kernel⟩

theorem wit_QuenchDumpRuns_7 :
    ∃ (d : Dev) (ms : Nat) (q : Quench) (x : Dev) (y : Dev) (c : CommitRec), d.quench = some q ∧ q.sanitize = false ∧ q.commit = none ∧
    d.trailersDone q = true ∧ x = d.until (q.t0 + 1000000 * ms) ∧ y = x.raiseB .QNCH_DONE [p4 q.gen, p1 q.slot, p4 (x.commitRec q).durationMs,
    p8 (sumOf (q.parts.map fun e => e.2.bytes)), p1 (x.commitRec q).flags] ∧ c = (if y.version1 then x.commitRec q else
    { x.commitRec q with events := y.evt.quenchRecs, eventsLost := y.evt.eventsLost }) := by
  exact
    ⟨(tQnch (tDumps { tQd with walked := true, trailer := some tTrailer })), 20, (tDumps { tQd with walked := true, trailer := some tTrailer }),
    _, _, _, by decide +kernel, by decide +kernel, by decide +kernel, by decide +kernel, rfl, rfl, rfl⟩

theorem wit_QuenchDumpRuns_8 :
    ∃ (d : Dev) (status : Nat) (q : Quench) (x : Dev) (y : Dev), d.quench = some q ∧ q.pointer = none ∧ d.commitsDone q = true ∧ q.kept = [] ∧ x
    = (d.raiseB .QNCH_PTR_FAIL [p1 status]).addCommitEvents ∧ y =
    { x with committed := true, lastSlot := if q.isCommitted then some q.slot else x.lastSlot } := by
  exact
    ⟨(tQnch { tDumps { tQd with placed := [tPut (.commit tCommit) true] } with commit := some tCommit }), 2,
    ({ tDumps { tQd with placed := [tPut (.commit tCommit) true] } with commit := some tCommit }), _, _, by decide +kernel, by decide +kernel,
    by decide +kernel, by decide +kernel, rfl, rfl⟩

def tRest : Restore := ⟨1, 0, 0, 0, 0, false, false, none, [1], [], [⟨1, 1, 0, [3], true, true, false, false, []⟩], 0⟩
def tRestores (p : Nat) : Dev := { tR [tF RHT_STATUS.PHASE p] with rht := { tUp.rht with restore := some tRest } }
def tScanned : Dev :=
  { tR [tF HEAT_JRNL_PAGES.TOTAL 64 1] with
    rht := { tUp.rht with scanned := true }, sec := { tUp.sec with cells := [(.package 0, ⟨some 5, 0, 0, 0, none⟩)] } }
def tScannedR : Dev := { tScanned with rht := { tScanned.rht with recorded := true } }
def tServes : Dev :=
  { tR [tF RHT_STATUS.PHASE 6] with fence := true, rht := { tUp.rht with recorded := true }, ceil := { tUp.ceil with computed := true } }
def tPended (n : Nat) : Dev := tRs { tUp.rst with powered := true, pending := some ⟨1, 0, n, 0⟩ }

theorem wit_ReheatStepsRun_1 :
    ∃ (d : Dev) (x : Dev), d.f RHT_STATUS.PHASE = 1 ∧ d.quenching = false ∧ x = (d.setF HEAT_RESERVATION.R d.storedReservation).setF
    RHT_STATUS.PHASE 2 := by
  exact
    ⟨(tR [tF RHT_STATUS.PHASE 1]), _, by decide +kernel, by decide +kernel, rfl⟩

theorem wit_ReheatStepsRun_2 :
    ∃ (d : Dev) (bad : List FlashAt), d.f RHT_STATUS.PHASE = 2 ∧ d.rht.scanned = false ∧ d.quenching = false := by
  exact
    ⟨(tR [tF RHT_STATUS.PHASE 2]), [], by decide +kernel, by decide +kernel, by decide +kernel⟩

theorem wit_ReheatStepsRun_3 :
    ∃ (d : Dev) (status : Nat), d.rht.scanned = true ∧ d.rht.recorded = false ∧ d.rht.held = none ∧ d.quenching = false ∧ d.f
    HEAT_JRNL_PAGES.TOTAL (d.diesUp.headD 0) ≠ 0 := by
  exact
    ⟨tScanned, 3, by decide +kernel, by decide +kernel, by decide +kernel, by decide +kernel, by decide +kernel⟩

theorem wit_ReheatStepsRun_4 :
    ∃ (d : Dev) (status : Nat) (x : Dev) (y : Dev), d.rht.scanned = true ∧ d.rht.recorded = false ∧ d.rht.held = none ∧ d.quenching = false ∧
    d.f HEAT_JRNL_PAGES.TOTAL (d.diesUp.headD 0) ≠ 0 ∧ d.claimNext true true status = some x ∧ x.rht.restore = none ∧ y = x.firstHeat ∧
    y.rht.restore = none := by
  exact
    ⟨tScanned, 0, ((tScanned.claimNext true true 0).getD tUp), _, by decide +kernel, by decide +kernel, by decide +kernel, by decide +kernel,
    by decide +kernel, by exact some_getD (by decide +kernel), by decide +kernel, rfl, by decide +kernel⟩

theorem wit_ReheatStepsRun_5 :
    ∃ (d : Dev) (r : Restore) (x : Dev) (y : Dev), d.rht.restore = some r ∧ r.lazy = false ∧ d.f RHT_STATUS.PHASE = 3 ∧ d.quenching = false ∧
    r.segs.all (·.retired) = true ∧ d.rht.judge = [] ∧ x = d.forEach (dedup (r.segs.map (·.named)).flatten) (fun d s => d.slabRestored s) ∧
    x.rht.judge = [] ∧ y = x.forEach x.dies (fun d die => d.setB RHT_DIE_STATUS.INDEX_DONE true die) := by
  exact
    ⟨(tRestores 3), tRest, _, _, by decide +kernel, by decide +kernel, by decide +kernel, by decide +kernel, by decide +kernel,
    by decide +kernel, rfl, by decide +kernel, rfl⟩

theorem wit_ReheatStepsRun_6 :
    ∃ (d : Dev) (die : Nat) (num : Nat) (seen : Option (List Nat)) (broken : Bool), 4 ≤ d.f RHT_STATUS.PHASE := by
  exact
    ⟨(tR [tF RHT_STATUS.PHASE 4]), 1, 0, none, false, by decide +kernel⟩

theorem wit_ReheatStepsRun_7 :
    ∃ (d : Dev) (die : Nat) (r : Restore) (x : Dev), d.f RHT_STATUS.PHASE = 4 ∧ d.fb RHT_DIE_STATUS.INDEX_DONE die = false ∧ d.fb
    RHT_DIE_STATUS.INDEX_PARTIAL die = false ∧ d.isDie die = true ∧ d.quenching = false ∧ x = d.until (d.rht.indexAt + 6000000000) ∧
    x.rht.restore = some r := by
  exact
    ⟨(tRestores 4), 1, tRest, _, by decide +kernel, by decide +kernel, by decide +kernel, by decide +kernel, by decide +kernel, rfl,
    by decide +kernel⟩

theorem wit_ReheatStepsRun_8 :
    ∃ (d : Dev) (x : Dev) (y : Dev), d.mayServe = true ∧ d.ceil.computed = true ∧ x = { d with fab := { d.fab with mediaError := false } } ∧ y =
    (x.openGates.setF RST_STATUS.PHASE 6).setF ROOT_STATUS.PHASE 6 ∧ y.rht.restore = none := by
  exact
    ⟨tServes, _, _, by decide +kernel, by decide +kernel, rfl, rfl, by decide +kernel⟩

theorem wit_ReheatStepsRun_9 :
    ∃ (d : Dev) (gen : Nat) (die : Nat) (num : Nat) (auth : Bool) (m : NandMedium), d.rht.recorded = true := by
  exact
    ⟨tScannedR, 1, 1, 0, true, ⟨0, [], none, false, []⟩, by decide +kernel⟩

theorem wit_ReheatStepsRun_10 :
    ∃ (d : Dev) (r : Restore) (x : Dev) (y : Dev), d.rht.restore = some r ∧ d.fence = false ∧ d.quenching = false ∧ r.segs.all (·.retired) =
    true ∧ x = (d.restoreRecord r 2).releaseIngots ∧ y = (x.setRht fun z => { z with restore := none, demands := [] }).setF RHT_STATUS.PHASE 6 := by
  exact
    ⟨(tRestores 6), tRest, _, _, by decide +kernel, by decide +kernel, by decide +kernel, by decide +kernel, rfl, rfl⟩

theorem wit_ReheatStepsRun_11 :
    ∃ (d : Dev) (r : Restore) (x : Dev), d.rht.held = some r ∧ x = d.setRht (fun z => { z with held := none, scanned := true }) := by
  exact
    ⟨({ tUp with rht := { tUp.rht with held := some tRest } }), tRest, _, by decide +kernel, rfl⟩

theorem wit_ResetCommandsRun_1 :
    ∃ (d : Dev) (st : Straps) (q : Quench) (x : Dev), d.quench = some q ∧ q.pointer.isSome = true ∧ d.rst.pending = none ∧ x =
    { (d.setPin "QUENCH_OUT" 0 0) with quenching := false, quench := none } := by
  exact
    ⟨(tQnch { tQn with pointer := some true }), tStraps, ({ tQn with pointer := some true }), _, by decide +kernel, by decide +kernel,
    by decide +kernel, rfl⟩

theorem wit_ResetCommandsRun_2 :
    ∃ (d : Dev) (st : Straps) (q : Quench) (x : Dev), d.quench = some q ∧ q.pointer.isSome = true ∧ d.rst.pending = none ∧ x =
    { (d.setPin "QUENCH_OUT" 0 0) with quenching := false, quench := none } := by
  exact
    ⟨(tQnch { tQn with pointer := some true }), tStraps, ({ tQn with pointer := some true }), _, by decide +kernel, by decide +kernel,
    by decide +kernel, rfl⟩

theorem wit_ResetCommandsRun_3 :
    ∃ (d : Dev) (st : Straps), d.rst.powered = false := by
  exact
    ⟨(tRs { tUp.rst with powered := false }), tStraps, by decide +kernel⟩

theorem wit_ResetCommandsRun_4 :
    ∃ (d : Dev) (st : Straps), d.rst.powered = true := by
  exact
    ⟨(tRs { tUp.rst with powered := true }), tStraps, by decide +kernel⟩

theorem wit_ResetCommandsRun_5 :
    ∃ (d : Dev) (lowNs : Nat) (st : Straps), d.rst.powered = true ∧ d.rst.asserted = false ∧ lowNs < 1000 := by
  exact
    ⟨(tRs { tUp.rst with powered := true }), 999, tStraps, by decide +kernel, by decide +kernel, by decide +kernel⟩

theorem wit_ResetCommandsRun_6 :
    ∃ (d : Dev) (lowNs : Nat) (st : Straps), d.rst.powered = true ∧ d.rst.asserted = false ∧ 1000 ≤ lowNs := by
  exact
    ⟨(tRs { tUp.rst with powered := true }), 1000, tStraps, by decide +kernel, by decide +kernel, by decide +kernel⟩

theorem wit_ResetCommandsRun_7 :
    ∃ (d : Dev) (st : Straps), d.rst.inReset = true := by
  exact
    ⟨(tRs { tUp.rst with powered := true, inReset := true }), tStraps, by decide +kernel⟩

theorem wit_ResetCommandsRun_8 :
    ∃ (d : Dev) (t : Nat), d.rst.window = some t := by
  exact
    ⟨(tRs { tUp.rst with window := some 5 }), 5, by decide +kernel⟩

theorem wit_ResetCommandsRun_9 :
    ∃ (d : Dev) (st : Straps) (p : PendingReset), d.rst.pending = some p ∧ p.waits = 0 ∧ d.quenching = false := by
  exact
    ⟨(tPended 0), tStraps, ⟨1, 0, 0, 0⟩, by decide +kernel, by decide +kernel, by decide +kernel⟩

theorem wit_ResetCommandsRun_10 :
    ∃ (d : Dev) (st : Straps) (p : PendingReset), d.rst.pending = some p ∧ p.waits = 1 := by
  exact
    ⟨(tPended 1), tStraps, ⟨1, 0, 1, 0⟩, by decide +kernel, by decide +kernel⟩

theorem wit_ResetCommandsRun_11 :
    ∃ (d : Dev) (st : Straps) (p : PendingReset), d.rst.pending = some p ∧ 2 ≤ p.waits ∧ d.tmp.running = [] := by
  exact
    ⟨(tPended 2), tStraps, ⟨1, 0, 2, 0⟩, by decide +kernel, by decide +kernel, by decide +kernel⟩

theorem wit_ResetCommandsRun_12 :
    ∃ (d : Dev) (st : Straps) (x : Dev), d.f RST_STATUS.PHASE = 8 ∧ d.rst.powered = true ∧ d.rst.inReset = false ∧ x = d.mbVendor .sideband
    0xC0FF .ok [] := by
  exact
    ⟨(tRs { tUp.rst with powered := true, inReset := false } [tF RST_STATUS.PHASE 8]), tStraps, _, by decide +kernel, by decide +kernel,
    by decide +kernel, rfl⟩

theorem wit_ResetCommandsRun_13 :
    ∃ (d : Dev) (group : Nat), d.rst.powered = true := by
  exact
    ⟨(tRs { tUp.rst with powered := true }), 0, by decide +kernel⟩

def tD2d : Dev := { tUp with fab := { tUp.fab with d2d := [(1, 0)] } }
def tSpare : Dev := tR [tF SVC_DIE_STATUS.SPARE_SLICE_OK 1 1]
def tStandby : Dev := tR [tF SVC_DIE_STATUS.STANDBY_OK 1 1]

theorem wit_ServiceEventsRun_1 :
    ∃ (d : Dev) (die : Nat) (link : Nat), d.inService die = true ∧ (die, link) ∉ d.fab.d2d := by
  exact
    ⟨tUp, 1, 0, by decide +kernel, by decide +kernel⟩

theorem wit_ServiceEventsRun_2 :
    ∃ (d : Dev) (die : Nat) (link : Nat) (us : Nat) (x : Dev), (die, link) ∈ d.fab.d2d ∧ x =
    { d with fab := { d.fab with d2d := d.fab.d2d.filter fun l => decide (l ≠ (die, link)) } } := by
  exact
    ⟨tD2d, 1, 0, 5, _, by decide +kernel, rfl⟩

theorem wit_ServiceEventsRun_3 :
    ∃ (d : Dev) (die : Nat) (link : Nat) (us : Nat) (x : Dev), (die, link) ∈ d.fab.d2d ∧ x =
    { d with fab := { d.fab with d2d := d.fab.d2d.filter fun l => decide (l ≠ (die, link)) } } := by
  exact
    ⟨tD2d, 1, 0, 5, _, by decide +kernel, rfl⟩

theorem wit_ServiceEventsRun_4 :
    ∃ (d : Dev) (die : Nat) (slice : Nat), d.inService die = true ∧ slice < 8 ∧ d.spareSlice die = true := by
  exact
    ⟨tSpare, 1, 7, by decide +kernel, by decide +kernel, by decide +kernel⟩

theorem wit_ServiceEventsRun_5 :
    ∃ (d : Dev) (die : Nat) (slice : Nat), d.inService die = true ∧ slice < 8 ∧ d.spareSlice die = true := by
  exact
    ⟨tSpare, 1, 7, by decide +kernel, by decide +kernel, by decide +kernel⟩

theorem wit_ServiceEventsRun_6 :
    ∃ (d : Dev) (die : Nat) (slice : Nat), d.inService die = true ∧ slice < 8 ∧ d.spareSlice die = false := by
  exact
    ⟨tUp, 1, 7, by decide +kernel, by decide +kernel, by decide +kernel⟩

theorem wit_ServiceEventsRun_7 :
    ∃ (d : Dev) (die : Nat) (quad : Nat), d.fb SVC_CTRL.AUTO_QUAD = true ∧ d.spareQuad die quad = true := by
  exact
    ⟨(tR [tF SVC_CTRL.AUTO_QUAD 1]), 1, 15, by decide +kernel, by decide +kernel⟩

theorem wit_ServiceEventsRun_8 :
    ∃ (d : Dev) (die : Nat) (a : Nat) (x : Dev), d.inService die = true ∧ d.smithDead die = false ∧ d.standby die = true ∧ a = d.f
    SVC_DIE_STATUS.SMITH_ACTIVE die ∧ x = (((d.slagAdd 3 die a 2).forEach (List.range 4) fun d c => (d.abortStep die c 2).modChan die c fun x =>
    { x with runWait := none })).freeSmithBufs die := by
  exact
    ⟨tStandby, 1, _, _, by decide +kernel, by decide +kernel, by decide +kernel, rfl, rfl⟩

theorem wit_ServiceEventsRun_9 :
    ∃ (d : Dev) (die : Nat) (a : Nat) (x : Dev), d.inService die = true ∧ d.smithDead die = false ∧ d.standby die = true ∧ a = d.f
    SVC_DIE_STATUS.SMITH_ACTIVE die ∧ x = (((d.slagAdd 3 die a 5).forEach (List.range 4) fun d c => (d.abortStep die c 2).modChan die c fun x =>
    { x with runWait := none })).freeSmithBufs die := by
  exact
    ⟨tStandby, 1, _, _, by decide +kernel, by decide +kernel, by decide +kernel, rfl, rfl⟩

theorem wit_ServiceEventsRun_10 :
    ∃ (d : Dev) (die : Nat) (c : Nat) (k : RankCopy), (d.chan die c).copy = some k ∧ d.quenching = false ∧ (d.chan die c).run = none ∧
    d.chanState die c ≠ 3 := by
  exact
    ⟨(tChan { tC with copy := some ⟨0, 8, 0⟩ }), 1, 0, ⟨0, 8, 0⟩, by decide +kernel, by decide +kernel, by decide +kernel, by decide +kernel⟩

theorem wit_ServiceEventsRun_11 :
    ∃ (d : Dev) (die : Nat) (lowest : Nat) (island : Nat) (ack : Bool) (x : Dev), d.inService die = true ∧ d.quenching = false ∧ x = d.setF
    SVC_VDD.NEEDED (saturate 10 (lowest + 10)) die ∧ x.f SVC_VDD.SETPOINT die < vddTarget (lowest + 10) := by
  exact
    ⟨(tR [tF SVC_VDD.SETPOINT 650 1]), 1, 641, 0, true, _, by decide +kernel, by decide +kernel, rfl, by decide +kernel⟩

theorem wit_ServiceEventsRun_12 :
    ∃ (d : Dev) (die : Nat) (tj : Int) (x : Dev), d.inService die = true ∧ x = d.setF HCB_TJ.TJ (temp8 tj) die := by
  exact
    ⟨tUp, 1, 85, _, by decide +kernel, rfl⟩

theorem wit_ServiceCommandsRun_1 :
    ∃ (d : Dev) (die : Nat) (slice : Nat) (x : Dev), d.inService die = true ∧ d.smithDead die = false ∧ d.quench = none ∧ d.fb
    SVC_CMD_STATUS.BUSY die = false ∧ x = ((d.setF SVC_CMD.OP 1 die).setF SVC_CMD.TARGET slice die).setB SVC_CMD_STATUS.DONE false die ∧ slice <
    8 ∧ x.spareSlice die = true := by
  exact
    ⟨tSpare, 1, 7, _, by decide +kernel, by decide +kernel, by decide +kernel, by decide +kernel, rfl, by decide +kernel, by decide +kernel⟩

theorem wit_ServiceCommandsRun_2 :
    ∃ (d : Dev) (die : Nat) (quad : Nat) (x : Dev), d.inService die = true ∧ d.smithDead die = false ∧ d.quench = none ∧ d.fb
    SVC_CMD_STATUS.BUSY die = false ∧ x = ((d.setF SVC_CMD.OP 2 die).setF SVC_CMD.TARGET quad die).setB SVC_CMD_STATUS.DONE false die ∧
    x.spareQuad die quad = true := by
  exact
    ⟨tUp, 1, 15, _, by decide +kernel, by decide +kernel, by decide +kernel, by decide +kernel, rfl, by decide +kernel⟩

theorem wit_ServiceCommandsRun_3 :
    ∃ (d : Dev) (die : Nat) (target : Nat) (x : Dev), d.inService die = true ∧ d.smithDead die = false ∧ d.quench = none ∧ d.fb
    SVC_CMD_STATUS.BUSY die = false ∧ x = ((d.setF SVC_CMD.OP 3 die).setF SVC_CMD.TARGET target die).setB SVC_CMD_STATUS.DONE false die ∧
    (List.range 4).any (fun c => (x.chan die c).copy.isSome) = false ∧ x.canSpare die (target / 8) (target % 8) = true := by
  exact
    ⟨(tChan { tC with map := [0], spare := some 1 }), 1, 0, _, by decide +kernel, by decide +kernel, by decide +kernel, by decide +kernel, rfl,
    by decide +kernel, by decide +kernel⟩

theorem wit_ServiceCommandsRun_4 :
    ∃ (d : Dev) (die : Nat) (x : Dev), d.inService die = true ∧ d.smithDead die = false ∧ d.quench = none ∧ d.fb SVC_CMD_STATUS.BUSY die = false
    ∧ x = ((d.setF SVC_CMD.OP 4 die).setF SVC_CMD.TARGET 0 die).setB SVC_CMD_STATUS.DONE false die ∧ x.standby die = true := by
  exact
    ⟨tStandby, 1, _, by decide +kernel, by decide +kernel, by decide +kernel, by decide +kernel, rfl, by decide +kernel⟩

theorem wit_ServiceCommandsRun_5 :
    ∃ (d : Dev) (die : Nat) (op : Nat) (target : Nat) (x : Dev), (op % 8 = 0 ∨ 4 < op % 8) ∧ d.inService die = true ∧ d.smithDead die = false ∧
    d.quench = none ∧ d.fb SVC_CMD_STATUS.BUSY die = false ∧ x = ((d.setF SVC_CMD.OP op die).setF SVC_CMD.TARGET target die).setB
    SVC_CMD_STATUS.DONE false die := by
  exact
    ⟨tUp, 1, 5, 0, _, by decide +kernel, by decide +kernel, by decide +kernel, by decide +kernel, by decide +kernel, rfl⟩

def tSess (t : Path) : Session := ⟨1, t, false, true, false⟩
def tOn (t : Path) (cells : Tab KeySlot KeyCell := []) : Dev := { tUp with sec := { tUp.sec with sessions := [tSess t], cells := cells } }
def tPow : RstState := { tUp.rst with powered := true }

theorem wit_SpdmRequestsRun_1 :
    ∃ (d : Dev) (t : Path), d.spdmReady t = true := by
  exact
    ⟨tUp, .sideband, by decide +kernel⟩

theorem wit_SpdmRequestsRun_2 :
    ∃ (d : Dev) (t : Path) (off : Nat) (len : Nat) (n : Nat), d.spdmReady t = true ∧ n = Nat.min len (Config.certLen 0 - off) := by
  exact
    ⟨tUp, .sideband, 0, 8, _, by decide +kernel, rfl⟩

theorem wit_SpdmRequestsRun_3 :
    ∃ (d : Dev) (t : Path) (slot : Nat) (off : Nat) (len : Nat) (nonce : Nat), d.spdmReady t = true ∧ slot ≠ 0 := by
  exact
    ⟨tUp, .sideband, 1, 0, 8, 0, by decide +kernel, by decide +kernel⟩

theorem wit_SpdmRequestsRun_4 :
    ∃ (d : Dev) (t : Path) (nonce : Nat), d.spdmReady t = true := by
  exact
    ⟨tUp, .sideband, 0, by decide +kernel⟩

theorem wit_SpdmRequestsRun_5 :
    ∃ (d : Dev) (t : Path) (byOwner : Bool), d.spdmReady t = true ∧ d.sec.sessions.length < 8 := by
  exact
    ⟨tUp, .sideband, true, by decide +kernel, by decide +kernel⟩

theorem wit_SpdmRequestsRun_6 :
    ∃ (d : Dev) (t : Path) (id : Nat) (ok : Bool) (x : Session), d.sessionOn t id = some x := by
  exact
    ⟨(tOn .sideband), .sideband, 1, true, (tSess .sideband), by decide +kernel⟩

theorem wit_SpdmRequestsRun_7 :
    ∃ (d : Dev) (t : Path) (id : Nat) (x : Session), d.sessionOn t id = some x := by
  exact
    ⟨(tOn .sideband), .sideband, 1, (tSess .sideband), by decide +kernel⟩

theorem wit_KeyMessagesRun_1 :
    ∃ (d : Dev) (session : Nat) (die : Nat) (port : Nat) (t : Path), d.ideSession session die port = some t := by
  exact
    ⟨(tOn (.port 1 0 none)), 1, 1, 0, (.port 1 0 none), by decide +kernel⟩

theorem wit_KeyMessagesRun_2 :
    ∃ (d : Dev) (session : Nat) (die : Nat) (port : Nat) (stream : Nat) (set : Nat) (sub : Nat) (key : Nat) (t : Path) (x : Dev), d.ideSession
    session die port = some t ∧ set < 2 ∧ sub < 8 ∧ d.writeKey (.ide die port set sub) 1 key = (x, true) := by
  exact
    ⟨(tOn (.port 1 0 none)), 1, 1, 0, 0, 1, 7, 5, (.port 1 0 none), (((tOn (.port 1 0 none)).writeKey (.ide 1 0 1 7) 1 5).1), by decide +kernel,
    by decide +kernel, by decide +kernel, by exact took (by decide +kernel)⟩

theorem wit_KeyMessagesRun_3 :
    ∃ (d : Dev) (session : Nat) (die : Nat) (port : Nat) (stream : Nat) (set : Nat) (t : Path) (x : Dev), d.ideSession session die port = some t
    ∧ x = (d.raise .SEC_IDE_KEY die [p1 port, p4 stream, p4 set, p1 1]).setSec (fun x =>
    { x with ideSets := tset x.ideSets (die, port) (set % 2) }) ∧ x.ideHolds die port (set % 2) = false := by
  exact
    ⟨(tOn (.port 1 0 none)), 1, 1, 0, 0, 1, (.port 1 0 none), _, by decide +kernel, rfl, by decide +kernel⟩

theorem wit_KeyMessagesRun_4 :
    ∃ (d : Dev) (session : Nat) (die : Nat) (port : Nat) (stream : Nat) (set : Nat) (t : Path) (x : Dev) (y : Dev), d.ideSession session die
    port = some t ∧ x = (d.raise .SEC_IDE_KEY die [p1 port, p4 stream, p4 set, p1 1]).setSec (fun x =>
    { x with ideSets := tset x.ideSets (die, port) (set % 2) }) ∧ x.ideHolds die port (set % 2) = true ∧ y = x.setB FAB_PORT_STATUS.IDE_SECURE
    true die port := by
  exact
    ⟨(tOn (.port 1 0 none) [(.ide 1 0 1 0, ⟨some 5, 1, 1, 0, none⟩)]), 1, 1, 0, 0, 1, (.port 1 0 none), _, _, by decide +kernel, rfl,
    by decide +kernel, rfl⟩

theorem wit_KeyMessagesRun_5 :
    ∃ (d : Dev) (session : Nat) (die : Nat) (port : Nat) (stream : Nat) (t : Path) (x : Dev), d.ideSession session die port = some t ∧ x =
    (d.raise .SEC_IDE_KEY die [p1 port, p4 stream, p4 (tgetD d.sec.ideSets (die, port) 0), p1 2]).eraseIde die port ∧ (die, port) ∉
    x.fab.insecure := by
  exact
    ⟨(tOn (.port 1 0 none)), 1, 1, 0, 0, (.port 1 0 none), _, by decide +kernel, rfl, by decide +kernel⟩

theorem wit_KeyMessagesRun_6 :
    ∃ (d : Dev) (die : Nat) (slot : Nat) (group : Nat) (ok : Bool), d.hasSlot die slot = true ∧ d.rst.powered = true := by
  exact
    ⟨(tRs tPow), 1, 259, 0, true, by decide +kernel, by decide +kernel⟩

theorem wit_KeyMessagesRun_7 :
    ∃ (d : Dev) (die : Nat) (slot : Nat) (group : Nat) (t : Nat) (ok : Bool), d.hasSlot die slot = true ∧ d.rst.powered = true ∧ tget
    d.sec.streams t = none := by
  exact
    ⟨(tRs tPow), 0, 63, 0, 5, true, by decide +kernel, by decide +kernel, by decide +kernel⟩

theorem wit_KeyMessagesRun_8 :
    ∃ (d : Dev) (die : Nat) (slot : Nat) (group : Nat) (t : Nat) (job : Nat) (ok : Bool), d.hasSlot die slot = true ∧ d.rst.powered = true ∧
    tget d.sec.streams t = some job ∧ ((ok = true → (d.cell (.package 7)).key = none)) := by
  exact
    ⟨({ tRs tPow with sec := { tUp.sec with streams := [(5, 1)] } }), 0, 63, 0, 5, 1, true, by decide +kernel, by decide +kernel,
    by decide +kernel, by decide +kernel⟩

theorem wit_KeyMessagesRun_9 :
    ∃ (d : Dev) (j : CipherJob) (id : Nat) (x : Dev), (d.sec.jobs.find? fun y => decide (y.id = id)) = some j ∧ (d.cell j.slot).gen = j.gen ∧ x
    = d.setSec (fun c => { c with jobs := c.jobs.filter fun y => decide (y.id ≠ id), streams := c.streams.filter fun e => decide (e.2 ≠ id) }) := by
  exact
    ⟨({ tUp with sec := { tUp.sec with jobs := [⟨1, .package 0, 0, false⟩] } }), ⟨1, .package 0, 0, false⟩, 1, _, by decide +kernel,
    by decide +kernel, rfl⟩

theorem wit_AlarmsRun_3 :
    ∃ (d : Dev) (ns : Nat) (st : Straps), 50 ≤ ns := by
  exact
    ⟨tUp, 50, tStraps, by decide +kernel⟩

theorem wit_AlarmsRun_5 :
    ∃ (d : Dev) (mv : Nat) (ns : Nat) (st : Straps), (mv < 2800 ∨ 3800 < mv) ∧ 5 ≤ ns := by
  exact
    ⟨tUp, 2799, 5, tStraps, by decide +kernel, by decide +kernel⟩

theorem wit_AlarmsRun_6 :
    ∃ (d : Dev) (die : Nat) (mv : Nat) (ns : Nat) (st : Straps), die ≠ 0 ∧ d.isDie die = true ∧ (mv + 100 < d.f SVC_VDD.SETPOINT die ∨ d.f
    SVC_VDD.SETPOINT die + 100 < mv) ∧ 5 ≤ ns := by
  exact
    ⟨(tR [tF SVC_VDD.SETPOINT 700 1]), 1, 599, 5, tStraps, by decide +kernel, by decide +kernel, by decide +kernel, by decide +kernel⟩

theorem wit_AlarmsRun_7 :
    ∃ (d : Dev) (off : Nat) (n : Nat) (st : Straps), 25 < off ∧ 2 ≤ n := by
  exact
    ⟨tUp, 26, 2, tStraps, by decide +kernel, by decide +kernel⟩

theorem wit_AlarmsRun_8 :
    ∃ (d : Dev) (tj : Int) (st : Straps), (125 < tj ∨ tj < -40) := by
  exact
    ⟨tUp, (-41), tStraps, by decide +kernel⟩

theorem wit_AlarmsRun_9 :
    ∃ (d : Dev) (q : Quench), d.sec.reload = true ∧ d.quench = some q := by
  exact
    ⟨({ tQnch tQn with sec := { tUp.sec with reload := true } }), tQn, by decide +kernel, by decide +kernel⟩

theorem wit_AlarmsRun_10 :
    ∃ (d : Dev) (ok : Bool) (status : Nat), d.sec.reserveRetry = true ∧ d.quenching = false := by
  exact
    ⟨({ tUp with sec := { tUp.sec with reserveRetry := true } }), true, 0, by decide +kernel, by decide +kernel⟩

theorem wit_AlarmsRun_11 :
    ∃ (d : Dev) (key : Nat) (h : Nat) (x : Dev), d.mbReady .sideband = true ∧ d.sec.ownerHash = none ∧ d.aonLow = false ∧ h = Config.hash384 key
    % 2 ^ 384 ∧ x = ((d.setSec fun x => { x with ownerHash := some h }).setB SEC_STATUS.OWNER_LOCK true).setPkg (fun x =>
    { x with ownerKeyId := h % 2 ^ 64 }) := by
  exact
    ⟨tUp, 5, _, _, by decide +kernel, by decide +kernel, by decide +kernel, rfl, rfl⟩

def tRecover : Dev := tRs { (tStep 2).rst with straps := ⟨false, false, false, true⟩ }
def tRom : Dev := tStep 0 [tF RST_STATUS.PHASE 8]
def tPop (die c : Nat) : Population := ⟨die, c, 1, 1, 4, 1, 16, 2, true, true, 100, []⟩
def tPops : List Population := [tPop 1 0, tPop 1 1, tPop 1 2, tPop 1 3, tPop 2 0, tPop 2 1, tPop 2 2, tPop 2 3]
def tDies (n : Nat) (good : List Nat) : Dev := tRs { (tStep n).rst with enabled := [1], good := good }
def tTest (bad : List Nat) : DieTest := ⟨bad, true, true, 0, 0, false⟩

theorem wit_StartupFirmwareRuns_1 :
    ∃ (d : Dev) (a : Option Nat) (b : Option Nat), d.atStep 2 = true ∧ d.rst.straps.recovery = true := by
  exact
    ⟨tRecover, none, none, by decide +kernel, by decide +kernel⟩

theorem wit_StartupFirmwareRuns_2 :
    ∃ (d : Dev) (b : Option Nat) (w : FwSlot), d.atStep 2 = true ∧ d.rst.straps.recovery = false ∧ d.namedSlot = 0 ∧ d.rst.fw[0]? = some w ∧
    w.ok = true := by
  exact
    ⟨(tStep 2), none, ⟨1, true⟩, by decide +kernel, by decide +kernel, by decide +kernel, by decide +kernel, by decide +kernel⟩

theorem wit_StartupFirmwareRuns_3 :
    ∃ (d : Dev) (b : Option Nat) (w : FwSlot), d.atStep 2 = true ∧ d.rst.straps.recovery = false ∧ d.namedSlot = 1 ∧ d.rst.fw[1]? = some w ∧
    w.ok = true := by
  exact
    ⟨(tStep 2).counterRecord magicFWSL [p1 1], none, ⟨2, true⟩, by decide +kernel, by decide +kernel, by decide +kernel, by decide +kernel,
    by decide +kernel⟩

theorem wit_StartupFirmwareRuns_4 :
    ∃ (d : Dev) (c : Nat) (w : FwSlot), d.atStep 2 = true ∧ d.rst.straps.recovery = false ∧ d.namedSlot = 0 ∧ d.rst.fw[1]? = some w ∧ w.ok =
    true := by
  exact
    ⟨(tStep 2), 3, ⟨2, true⟩, by decide +kernel, by decide +kernel, by decide +kernel, by decide +kernel, by decide +kernel⟩

theorem wit_StartupFirmwareRuns_5 :
    ∃ (d : Dev) (c : Nat) (e : Nat), d.atStep 2 = true ∧ d.rst.straps.recovery = false := by
  exact
    ⟨(tStep 2), 3, 3, by decide +kernel, by decide +kernel⟩

theorem wit_StartupFirmwareRuns_6 :
    ∃ (d : Dev), d.inRecovery = true := by
  exact
    ⟨tRom, by decide +kernel⟩

theorem wit_StartupFirmwareRuns_7 :
    ∃ (d : Dev) (slot : Nat) (revision : Nat), d.inRecovery = true ∧ slot < 2 := by
  exact
    ⟨tRom, 1, 5, by decide +kernel, by decide +kernel⟩

theorem wit_StartupFirmwareRuns_8 :
    ∃ (d : Dev) (slot : Nat), d.inRecovery = true ∧ slot < 2 := by
  exact
    ⟨tRom, 1, by decide +kernel, by decide +kernel⟩

theorem wit_StartupFirmwareRuns_9 :
    ∃ (d : Dev) (slot : Nat) (revision : Nat) (v : Bool), d.inRecovery = true ∧ 2 ≤ slot := by
  exact
    ⟨tRom, 2, 5, true, by decide +kernel, by decide +kernel⟩

theorem wit_StartupFirmwareRuns_10 :
    ∃ (d : Dev) (die : Nat) (tripping : Nat), d.atStep 3 = true := by
  exact
    ⟨(tStep 3), 1, 0, by decide +kernel⟩

theorem wit_StartupFirmwareRuns_11 :
    ∃ (d : Dev) (x : Dev), d.atStep 3 = true ∧ x = ((d.setSec fun x => { x with tripping := 0 }).setB SEC_STATUS.BINDING_OK true).loadBlobs ∧
    x.fb SEC_STATUS.OWNER_LOCK = false := by
  exact
    ⟨(tStep 3 [tF SEC_STATUS.OWNER_LOCK 0]), _, by decide +kernel, rfl, by decide +kernel⟩

theorem wit_StartupFirmwareRuns_12 :
    ∃ (d : Dev) (x : Dev), d.atStep 3 = true ∧ x = ((d.setSec fun x => { x with tripping := 0 }).setB SEC_STATUS.BINDING_OK true).loadBlobs ∧
    x.fb SEC_STATUS.OWNER_LOCK = true ∧ x.fb SEC_DRBG_STATUS.HEALTHY = true := by
  exact
    ⟨(tStep 3 [tF SEC_STATUS.OWNER_LOCK 1, tF SEC_DRBG_STATUS.HEALTHY 1, tF BELL_SUPPLY_STATUS.AON_LOW 1]), _, by decide +kernel, rfl,
    by decide +kernel, by decide +kernel⟩

theorem wit_StartupFirmwareRuns_13 :
    ∃ (d : Dev) (sa : Bool) (sb : Bool) (bank : Nat) (ca : Nat) (cb : Nat) (ga : SwgCfg) (gb : SwgCfg) (la : List Sect) (lb : List Sect),
    d.atStep 4 = true ∧ verifyImage ⟨d.pkg.part, d.pkg.ownerKeyId, sa, bank, none⟩ (d.copyRead 0) = (ca, ga, la) ∧ verifyImage ⟨d.pkg.part,
    d.pkg.ownerKeyId, sb, bank, none⟩ (d.copyRead 1) = (cb, gb, lb) ∧ ca = 0 ∧ (cb ≠ 0 ∨ gb.serial ≤ ga.serial) := by
  exact
    ⟨(tCopy 0 (tStep 4)), true, true, 1000000000, ((tImage (tCopy 0 (tStep 4)) 0).1), ((tImage (tCopy 0 (tStep 4)) 1).1), ((tImage (tCopy 0
    (tStep 4)) 0).2.1), ((tImage (tCopy 0 (tStep 4)) 1).2.1), ((tImage (tCopy 0 (tStep 4)) 0).2.2), ((tImage (tCopy 0 (tStep 4)) 1).2.2),
    by decide +kernel, by exact image_eq _ _, by exact image_eq _ _, by exact (congrArg Prod.fst (image_copy _ _ 0 rfl rfl rfl)).trans image_a,
    by decide +kernel⟩

theorem wit_StartupFirmwareRuns_14 :
    ∃ (d : Dev) (sa : Bool) (sb : Bool) (bank : Nat) (ca : Nat) (cb : Nat) (ga : SwgCfg) (gb : SwgCfg) (la : List Sect) (lb : List Sect),
    d.atStep 4 = true ∧ verifyImage ⟨d.pkg.part, d.pkg.ownerKeyId, sa, bank, none⟩ (d.copyRead 0) = (ca, ga, la) ∧ verifyImage ⟨d.pkg.part,
    d.pkg.ownerKeyId, sb, bank, none⟩ (d.copyRead 1) = (cb, gb, lb) ∧ cb = 0 ∧ (ca ≠ 0 ∨ ga.serial < gb.serial) := by
  exact
    ⟨(tCopy 1 (tStep 4)), true, true, 1000000000, ((tImage (tCopy 1 (tStep 4)) 0).1), ((tImage (tCopy 1 (tStep 4)) 1).1), ((tImage (tCopy 1
    (tStep 4)) 0).2.1), ((tImage (tCopy 1 (tStep 4)) 1).2.1), ((tImage (tCopy 1 (tStep 4)) 0).2.2), ((tImage (tCopy 1 (tStep 4)) 1).2.2),
    by decide +kernel, by exact image_eq _ _, by exact image_eq _ _, by exact (congrArg Prod.fst (image_copy _ _ 1 rfl rfl rfl)).trans image_b,
    by decide +kernel⟩

theorem wit_StartupFirmwareRuns_15 :
    ∃ (d : Dev) (sa : Bool) (sb : Bool) (bank : Nat) (ca : Nat) (cb : Nat) (ga : SwgCfg) (gb : SwgCfg) (la : List Sect) (lb : List Sect),
    d.atStep 4 = true ∧ verifyImage ⟨d.pkg.part, d.pkg.ownerKeyId, sa, bank, none⟩ (d.copyRead 0) = (ca, ga, la) ∧ verifyImage ⟨d.pkg.part,
    d.pkg.ownerKeyId, sb, bank, none⟩ (d.copyRead 1) = (cb, gb, lb) ∧ ca ≠ 0 ∧ cb ≠ 0 := by
  exact
    ⟨(tStep 4), true, true, 1000000000, ((tImage (tStep 4) 0).1), ((tImage (tStep 4) 1).1), ((tImage (tStep 4) 0).2.1), ((tImage (tStep 4)
    1).2.1), ((tImage (tStep 4) 0).2.2), ((tImage (tStep 4) 1).2.2), by decide +kernel, by exact image_eq _ _, by exact image_eq _ _,
    by decide +kernel, by decide +kernel⟩

theorem wit_StartupDiesRun_1 :
    ∃ (d : Dev) (failed : List WireFault) (x : Dev), d.atStep 5 = true ∧ x = d.forEach (failed.filter fun w => d.isDie w.die) (fun d w =>
    (d.keepOut RST_DIE_OUT.FENCE_WIRE w.die).raiseB .RST_FENCE_WIRE_FAIL [p1 w.die, pB (!w.trunk), p4 w.wire]) := by
  exact
    ⟨(tStep 5), [], _, by decide +kernel, rfl⟩

theorem wit_StartupDiesRun_2 :
    ∃ (d : Dev) (die : Nat), d.atStep 6 = true ∧ d.isDie die = true ∧ d.keptOut die = false ∧ die ∉ d.rst.enabled := by
  exact
    ⟨(tStep 6), 1, by decide +kernel, by decide +kernel, by decide +kernel, by decide +kernel⟩

theorem wit_StartupDiesRun_3 :
    ∃ (d : Dev) (die : Nat) (bist : DieTest) (x : Dev), d.atStep 6 = true ∧ die ∈ d.rst.enabled ∧ die ∉ d.rst.good ∧ (d.setRst fun r =>
    { r with good := r.good ++ [die] }).testSlices die bist = (x, true) := by
  exact
    ⟨(tDies 6 []), 1, (tTest []), ((({ tDies 6 [] with rst := { (tDies 6 []).rst with good := [1] } } : Dev).testSlices 1 (tTest [])).1),
    by decide +kernel, by decide +kernel, by decide +kernel, by exact took (by decide +kernel)⟩

theorem wit_StartupDiesRun_4 :
    ∃ (d : Dev) (die : Nat) (bist : DieTest) (x : Dev), d.atStep 6 = true ∧ die ∈ d.rst.enabled ∧ die ∉ d.rst.good ∧ (d.setRst fun r =>
    { r with good := r.good ++ [die] }).testSlices die bist = (x, false) := by
  exact
    ⟨(tDies 6 []), 1, (tTest [0, 8]), ((({ tDies 6 [] with rst := { (tDies 6 []).rst with good := [1] } } : Dev).testSlices 1 (tTest [0,
    8])).1), by decide +kernel, by decide +kernel, by decide +kernel, by decide +kernel⟩

theorem wit_StartupDiesRun_5 :
    ∃ (d : Dev) (die : Nat), d.atStep 6 = true ∧ die ∈ d.rst.enabled ∧ die ∉ d.rst.good := by
  exact
    ⟨(tDies 6 []), 1, by decide +kernel, by decide +kernel, by decide +kernel⟩

theorem wit_StartupDiesRun_6 :
    ∃ (d : Dev) (die : Nat) (ns : Nat), die ∈ d.rst.enabled ∧ die ∈ d.rst.good ∧ 1000 ≤ ns ∧ d.quenching = false := by
  exact
    ⟨(tDies 0 [1]), 1, 1000, by decide +kernel, by decide +kernel, by decide +kernel, by decide +kernel⟩

theorem wit_StartupDiesRun_7 :
    ∃ (d : Dev) (die : Nat) (ns : Nat), die ∈ d.rst.enabled ∧ die ∈ d.rst.good ∧ 1000 ≤ ns ∧ d.quenching = true := by
  exact
    ⟨({ tDies 0 [1] with quenching := true }), 1, 1000, by decide +kernel, by decide +kernel, by decide +kernel, by decide +kernel⟩

theorem wit_StartupDiesRun_8 :
    ∃ (d : Dev) (chans : List Population) (a : Population) (ps : List Population), d.atStep 8 = true ∧ d.popOf chans = a :: ps ∧ ((∀ p ∈ a ::
    ps, d.swg.cfg.dram.popFails a p = [])) := by
  exact
    ⟨(tStep 8), tPops, (tPop 1 0), tPops.tail, by decide +kernel, by decide +kernel, by decide +kernel⟩

theorem wit_StartupDiesRun_9 :
    ∃ (d : Dev) (failed : List RankTrain) (repairs : List Repair) (x : Dev) (y : Dev) (z : Dev), d.atStep 9 = true ∧ failed.any (fun t =>
    d.inService t.die && (d.chan t.die t.chan).map.contains t.rank) = false ∧ x = d.forEach (failed.filter fun t => d.inService t.die) (fun d t
    => d.rankFails t) ∧ y = x.forEach x.diesUp (fun d die => d.forEach (List.range 4) fun d c => d.chanUp die c) ∧ z = ((y.forEach (firstRepairs
    repairs) fun d r => d.repairRow r).replayEvents.setPhase 5).setF RHT_STATUS.PHASE 1 := by
  exact
    ⟨(tStep 9), [], [], _, _, _, by decide +kernel, by decide +kernel, rfl, rfl, rfl⟩

theorem wit_StartupDiesRun_10 :
    ∃ (d : Dev) (x : Dev) (y : Dev), d.atStep 10 = true ∧ x = d.forEach d.svc.owed (fun d o => if (d.chan o.die o.chan).map.contains o.rank then
    d.rankSwitch o.die o.chan o.rank o.cause 0 else d) ∧ y = (x.setSvc fun u => { u with owed := [] }).setCru (fun c =>
    { c with tags := [], dram := [] }) := by
  exact
    ⟨(tStep 10), _, _, by decide +kernel, rfl, rfl⟩

theorem wit_MailboxDeviceCommandsRun_1 :
    ∃ (d : Dev) (x : Dev) (mb : Mb), d.mbTurn x ∧ x.mbPasses mb (mbOpen 0x0001 0 0) := by
  exact
    ⟨(tMgr tUp), (tMgr tUp), (tMb 0), by exact ⟨rfl, by decide +kernel⟩, by unfold Dev.mbPasses; decide +kernel⟩

theorem wit_MailboxDeviceCommandsRun_2 :
    ∃ (d : Dev) (x : Dev) (mb : Mb), d.mbTurn x ∧ x.mbPasses mb (mbOpen 0x0002 0 0) ∧ x.mbox.background = none := by
  exact
    ⟨(tMgr tUp), (tMgr tUp), (tMb 0), by exact ⟨rfl, by decide +kernel⟩, by unfold Dev.mbPasses; decide +kernel, by decide +kernel⟩

theorem wit_MailboxDeviceCommandsRun_3 :
    ∃ (d : Dev) (x : Dev) (mb : Mb) (pct : Nat), d.mbTurn x ∧ x.mbPasses mb (mbOpen 0x0002 0 0) ∧ x.mbox.background = some (.sanitize, pct) := by
  exact
    ⟨(tMgr { tUp with mbox := { tUp.mbox with background := some (.sanitize, 40) } }), (tMgr
    { tUp with mbox := { tUp.mbox with background := some (.sanitize, 40) } }), (tMb 0), 40, by exact ⟨rfl, by decide +kernel⟩,
    by unfold Dev.mbPasses; decide +kernel, by decide +kernel⟩

theorem wit_MailboxDeviceCommandsRun_4 :
    ∃ (d : Dev) (x : Dev) (mb : Mb) (log : Nat) (rs : List (Nat × EvRec)) (ovf : Nat), d.mbTurn x ∧ x.mbPasses mb (mbOpen 0x0100 1 1) ∧ log < 4
    ∧ x.fb EVT_STATUS.PV_IN_SERVICE = true ∧ rs = x.logRecords log ∧ rs.length ≤ (pathLimit mb.path - 32) / 128 ∧ ovf = x.f EVT_PV_OVF.COUNT 0
    log := by
  exact
    ⟨(tR [tF EVT_STATUS.PV_IN_SERVICE 1]), (tR [tF EVT_STATUS.PV_IN_SERVICE 1]), (tMb 1), 3, _, _, by exact ⟨rfl, by decide +kernel⟩,
    by unfold Dev.mbPasses; decide +kernel, by decide +kernel, by decide +kernel, rfl, by decide +kernel, rfl⟩

theorem wit_MailboxDeviceCommandsRun_5 :
    ∃ (d : Dev) (x : Dev) (mb : Mb) (log : Nat) (handles : List Nat), d.mbTurn x ∧ x.mbPasses mb (mbOpen 0x0101 6 65536) ∧ log < 4 := by
  exact
    ⟨(tMgr tUp), (tMgr tUp), (tMb 6), 3, [], by exact ⟨rfl, by decide +kernel⟩, by unfold Dev.mbPasses; decide +kernel, by decide +kernel⟩

theorem wit_MailboxDeviceCommandsRun_6 :
    ∃ (d : Dev) (x : Dev) (mb : Mb) (log : Nat) (handles : List Nat), d.mbTurn x ∧ x.mbPasses mb (mbOpen 0x0101 6 65536) ∧ log < 4 ∧ ((∀ h ∈
    handles, ∃ e ∈ x.logRecords log, e.1 = h)) := by
  exact
    ⟨({ tUp with evt := { tUp.evt with view := [(9, { tRec with severity := 3 })] } }),
    ({ tUp with evt := { tUp.evt with view := [(9, { tRec with severity := 3 })] } }), (tMb 6), 3, [9], by exact ⟨rfl, by decide +kernel⟩,
    by unfold Dev.mbPasses; decide +kernel, by decide +kernel, by decide +kernel⟩

theorem wit_MailboxDeviceCommandsRun_7 :
    ∃ (d : Dev) (x : Dev) (mb : Mb), d.mbTurn x ∧ x.mbPasses mb (mbOpen 0x0102 0 0) := by
  exact
    ⟨(tMgr tUp), (tMgr tUp), (tMb 0), by exact ⟨rfl, by decide +kernel⟩, by unfold Dev.mbPasses; decide +kernel⟩

theorem wit_MailboxDeviceCommandsRun_8 :
    ∃ (d : Dev) (x : Dev) (mb : Mb) (info : Bool) (warning : Bool) (failure : Bool) (fatal : Bool), d.mbTurn x ∧ x.mbPasses mb (mbOpen 0x0103 4
    4) := by
  exact
    ⟨(tMgr tUp), (tMgr tUp), (tMb 4), true, false, true, false, by exact ⟨rfl, by decide +kernel⟩, by unfold Dev.mbPasses; decide +kernel⟩

theorem wit_MailboxDeviceCommandsRun_9 :
    ∃ (d : Dev) (x : Dev) (mb : Mb), d.mbTurn x ∧ x.mbPasses mb (mbOpen 0x0300 0 0) := by
  exact
    ⟨(tMgr tUp), (tMgr tUp), (tMb 0), by exact ⟨rfl, by decide +kernel⟩, by unfold Dev.mbPasses; decide +kernel⟩

theorem wit_MailboxDeviceCommandsRun_10 :
    ∃ (d : Dev) (x : Dev) (mb : Mb) (value : Nat), d.mbTurn x ∧ x.mbPasses mb (mbOpen 0x0301 8 8) := by
  exact
    ⟨(tMgr tUp), (tMgr tUp), (tMb 8), 5, by exact ⟨rfl, by decide +kernel⟩, by unfold Dev.mbPasses; decide +kernel⟩

theorem wit_MailboxDeviceCommandsRun_11 :
    ∃ (d : Dev) (x : Dev) (mb : Mb), d.mbTurn x ∧ x.mbPasses mb (mbOpen 0x0400 0 0) := by
  exact
    ⟨(tMgr tUp), (tMgr tUp), (tMb 0), by exact ⟨rfl, by decide +kernel⟩, by unfold Dev.mbPasses; decide +kernel⟩

theorem wit_MailboxDeviceCommandsRun_12 :
    ∃ (d : Dev) (x : Dev) (mb : Mb) (offset : Nat) (length : Nat), d.mbTurn x ∧ x.mbPasses mb (mbOpen 0x0401 24 24) ∧ length ≤ pathLimit mb.path := by
  exact
    ⟨(tMgr tUp), (tMgr tUp), (tMb 24), 0, 4096, by exact ⟨rfl, by decide +kernel⟩, by unfold Dev.mbPasses; decide +kernel, by decide +kernel⟩

theorem wit_MailboxDeviceCommandsRun_13 :
    ∃ (d : Dev) (x : Dev) (mb : Mb) (offset : Nat) (length : Nat), d.mbTurn x ∧ x.mbPasses mb (mbOpen 0x0401 24 24) ∧ length ≤ pathLimit mb.path
    ∧ offset + length ≤ 4 * supportedOpcodes.length := by
  exact
    ⟨(tMgr tUp), (tMgr tUp), (tMb 24), 0, 164, by exact ⟨rfl, by decide +kernel⟩, by unfold Dev.mbPasses; decide +kernel, by decide +kernel,
    by decide +kernel⟩

theorem wit_MailboxDeviceCommandsRun_14 :
    ∃ (d : Dev) (x : Dev) (mb : Mb) (c : Nat), d.mbTurn x ∧ x.mbPasses mb (mbOpen 0x4000 0 0) ∧ c = (x.mbSpace mb.path).2 / 2 ^ 28 := by
  exact
    ⟨(tMgr tUp), (tMgr tUp), (tMb 0), _, by exact ⟨rfl, by decide +kernel⟩, by unfold Dev.mbPasses; decide +kernel, rfl⟩

theorem wit_MailboxDeviceCommandsRun_15 :
    ∃ (d : Dev) (x : Dev) (mb : Mb), d.mbTurn x ∧ x.mbPasses mb (mbOpen 0x4200 0 0) ∧ x.mbox.alerts = [0, 0, 0] := by
  exact
    ⟨(tMgr tUp), (tMgr tUp), (tMb 0), by exact ⟨rfl, by decide +kernel⟩, by unfold Dev.mbPasses; decide +kernel, by decide +kernel⟩

theorem wit_MailboxDeviceCommandsRun_16 :
    ∃ (d : Dev) (x : Dev) (mb : Mb), d.mbTurn x ∧ x.mbPasses mb (mbOpen 0x4201 0 0) ∧ x.mbox.alerts = [0, 0, 0] := by
  exact
    ⟨(tMgr tUp), (tMgr tUp), (tMb 0), by exact ⟨rfl, by decide +kernel⟩, by unfold Dev.mbPasses; decide +kernel, by decide +kernel⟩

theorem wit_MailboxDeviceCommandsRun_17 :
    ∃ (d : Dev) (x : Dev) (mb : Mb) (life : Nat) (temp : Nat) (ce : Nat), d.mbTurn x ∧ x.mbPasses mb (mbOpen 0x4202 12 12) := by
  exact
    ⟨(tMgr tUp), (tMgr tUp), (tMb 12), 90, 80, 5, by exact ⟨rfl, by decide +kernel⟩, by unfold Dev.mbPasses; decide +kernel⟩

theorem wit_MailboxDeviceCommandsRun_18 :
    ∃ (d : Dev) (x : Dev) (mb : Mb), d.mbTurn x ∧ x.mbPasses mb (mbOpen 0x4203 0 0) := by
  exact
    ⟨(tMgr tUp), (tMgr tUp), (tMb 0), by exact ⟨rfl, by decide +kernel⟩, by unfold Dev.mbPasses; decide +kernel⟩

theorem wit_MailboxMemoryCommandsRun_1 :
    ∃ (d : Dev) (x : Dev) (mb : Mb), d.mbTurn x ∧ x.mbPasses mb (mbOpen 0x0200 0 0) := by
  exact
    ⟨(tMgr tUp), (tMgr tUp), (tMb 0), by exact ⟨rfl, by decide +kernel⟩, by unfold Dev.mbPasses; decide +kernel⟩

theorem wit_MailboxMemoryCommandsRun_2 :
    ∃ (d : Dev) (x : Dev) (mb : Mb) (slot : Nat) (revision : Nat) (verifies : Bool), d.mbTurn x ∧ x.mbPasses mb ⟨0x0201, true, true, false, 128,
    32768⟩ ∧ slot < 2 ∧ (x.useAuth mb.auth).pkg.runningSlot ≠ some slot := by
  exact
    ⟨(tMgr tUp), (tMgr tUp), (tMb 128), 1, 5, true, by exact ⟨rfl, by decide +kernel⟩, by unfold Dev.mbPasses; decide +kernel,
    by decide +kernel, by decide +kernel⟩

theorem wit_MailboxMemoryCommandsRun_3 :
    ∃ (d : Dev) (x : Dev) (mb : Mb) (slot : Nat), d.mbTurn x ∧ x.mbPasses mb ⟨0x0202, true, true, false, 2, 2⟩ ∧ slot < 2 := by
  exact
    ⟨(tMgr tUp), (tMgr tUp), (tMb 2), 1, by exact ⟨rfl, by decide +kernel⟩, by unfold Dev.mbPasses; decide +kernel, by decide +kernel⟩

theorem wit_MailboxMemoryCommandsRun_4 :
    ∃ (d : Dev) (x : Dev) (mb : Mb) (slot : Nat), d.mbTurn x ∧ x.mbPasses mb ⟨0x0202, true, true, false, 2, 2⟩ := by
  exact
    ⟨(tMgr tUp), (tMgr tUp), (tMb 2), 0, by exact ⟨rfl, by decide +kernel⟩, by unfold Dev.mbPasses; decide +kernel⟩

theorem wit_MailboxMemoryCommandsRun_5 :
    ∃ (d : Dev) (x : Dev) (mb : Mb) (dirty : Bool), d.mbTurn x ∧ x.mbPasses mb ⟨0x4204, true, true, false, 1, 1⟩ := by
  exact
    ⟨(tMgr tUp), (tMgr tUp), (tMb 1), true, by exact ⟨rfl, by decide +kernel⟩, by unfold Dev.mbPasses; decide +kernel⟩

theorem wit_MailboxMemoryCommandsRun_6 :
    ∃ (d : Dev) (x : Dev) (mb : Mb) (dpa : Nat) (lines : Nat) (a : Nat), d.mbTurn x ∧ x.mbPasses mb (mbOpen 0x4300 16 16) ∧ x.mbDpa mb.path dpa
    = some a ∧ x.cru.poison = [] ∧ x.mbox.poisonOvf = none := by
  exact
    ⟨(tMgr tUp), (tMgr tUp), (tMb 16), 0, 1, 0, by exact ⟨rfl, by decide +kernel⟩, by unfold Dev.mbPasses; decide +kernel, by decide +kernel,
    by decide +kernel, by decide +kernel⟩

theorem wit_MailboxMemoryCommandsRun_7 :
    ∃ (d : Dev) (x : Dev) (mb : Mb) (dpa : Nat) (a : Nat), d.mbTurn x ∧ x.mbPasses mb ⟨0x4301, true, false, false, 8, 8⟩ ∧ (x.useAuth
    mb.auth).mbDpa mb.path dpa = some a := by
  exact
    ⟨(tMgr tUp), (tMgr tUp), (tMb 8), 0x3FFFFFC0, 0x3FFFFFC0, by exact ⟨rfl, by decide +kernel⟩, by unfold Dev.mbPasses; decide +kernel,
    by decide +kernel⟩

theorem wit_MailboxMemoryCommandsRun_8 :
    ∃ (d : Dev) (x : Dev) (mb : Mb) (dpa : Nat) (a : Nat) (data : Line) (y : Dev) (r : Req), d.mbTurn x ∧ x.mbPasses mb ⟨0x4302, true, false,
    false, 72, 72⟩ ∧ y = x.useAuth mb.auth ∧ y.mbDpa mb.path dpa = some a ∧ y.unserved a = none ∧ r =
    { rid := y.cru.nextRid, src := .gone, kind := .write, slab := slabOf a, sector := a / 64 % 64, data := data, be := fullMask, tag := 0, heat := 0, wait := .arrival, since := y.now } := by
  exact
    ⟨(tMgr tUp), (tMgr tUp), (tMb 72), 0x30000000, 0x30000000, 0, _, _, by exact ⟨rfl, by decide +kernel⟩,
    by unfold Dev.mbPasses; decide +kernel, rfl, by decide +kernel, by decide +kernel, rfl⟩

theorem wit_MailboxMemoryCommandsRun_9 :
    ∃ (d : Dev) (x : Dev) (mb : Mb) (y : Dev) (w : Dev) (z : Dev), d.mbTurn x ∧ x.mbPasses mb ⟨0x4400, true, true, false, 0, 0⟩ ∧ y = x.useAuth
    mb.auth ∧ y.mbox.background = none ∧ y.regionCfgs = [] ∧ y.fb SEC_DRBG_STATUS.HEALTHY = true ∧ y.aonLow = false ∧ w =
    y.sanitizeStop.sanitizeKeys.sanitizeTags ∧ z = (w.claimNext true true 0).getD w := by
  exact
    ⟨(tPlain (tMgr (tR [tF SEC_DRBG_STATUS.HEALTHY 1]))), (tPlain (tMgr (tR [tF SEC_DRBG_STATUS.HEALTHY 1]))), (tMb 0), _, _, _,
    by exact ⟨rfl, by decide +kernel⟩, by unfold Dev.mbPasses; decide +kernel, rfl, by decide +kernel, by decide +kernel, by decide +kernel,
    by decide +kernel, rfl, rfl⟩

theorem wit_MailboxMemoryCommandsRun_10 :
    ∃ (d : Dev) (x : Dev) (mb : Mb) (first : Nat) (count : Nat), d.mbTurn x ∧ x.mbPasses mb (mbOpen 0x4800 2 2) ∧ x.fab.dcRegions = [] := by
  exact
    ⟨(tMgr tUp), (tMgr tUp), (tMb 2), 0, 1, by exact ⟨rfl, by decide +kernel⟩, by unfold Dev.mbPasses; decide +kernel, by decide +kernel⟩

theorem wit_MailboxMemoryCommandsRun_11 :
    ∃ (d : Dev) (x : Dev) (mb : Mb) (first : Nat) (count : Nat), d.mbTurn x ∧ x.mbPasses mb (mbOpen 0x4801 8 8) ∧ x.fab.extents = [] := by
  exact
    ⟨(tMgr tUp), (tMgr tUp), (tMb 8), 0, 1, by exact ⟨rfl, by decide +kernel⟩, by unfold Dev.mbPasses; decide +kernel, by decide +kernel⟩

theorem wit_MailboxMemoryCommandsRun_12 :
    ∃ (d : Dev) (x : Dev) (mb : Mb) (start : Nat) (size : Nat) (a : Nat) (e : Extent), d.mbTurn x ∧ x.mbPasses mb (mbOpen 0x4802 8 65536) ∧
    x.mbDpa mb.path start = some a ∧ x.extentAt a size 0 = some e := by
  exact
    ⟨(tMgr { tUp with fab := { tUp.fab with extents := [⟨0, 4096, 0, 0⟩] } }), (tMgr
    { tUp with fab := { tUp.fab with extents := [⟨0, 4096, 0, 0⟩] } }), (tMb 8), 0, 4096, 0, ⟨0, 4096, 0, 0⟩, by exact ⟨rfl, by decide +kernel⟩,
    by unfold Dev.mbPasses; decide +kernel, by decide +kernel, by decide +kernel⟩

theorem wit_MailboxMemoryCommandsRun_13 :
    ∃ (d : Dev) (x : Dev) (mb : Mb) (start : Nat) (size : Nat) (a : Nat) (e : Extent), d.mbTurn x ∧ x.mbPasses mb (mbOpen 0x4803 8 65536) ∧
    x.mbDpa mb.path start = some a ∧ x.extentAt a size 1 = some e := by
  exact
    ⟨(tMgr { tUp with fab := { tUp.fab with extents := [⟨0, 4096, 0, 1⟩] } }), (tMgr
    { tUp with fab := { tUp.fab with extents := [⟨0, 4096, 0, 1⟩] } }), (tMb 8), 0, 4096, 0, ⟨0, 4096, 0, 1⟩, by exact ⟨rfl, by decide +kernel⟩,
    by unfold Dev.mbPasses; decide +kernel, by decide +kernel, by decide +kernel⟩

theorem wit_MailboxMemoryCommandsRun_14 :
    ∃ (d : Dev) (x : Dev) (mb : Mb) (opcode : Nat), d.mbTurn x ∧ x.mbPasses mb ⟨opcode, false, false, decide (0xC000 ≤ opcode), 0, pathLimit
    mb.path⟩ ∧ opcode ∉ supportedOpcodes := by
  exact
    ⟨(tMgr tUp), (tMgr tUp), (tMb 0), 5, by exact ⟨rfl, by decide +kernel⟩, by unfold Dev.mbPasses; decide +kernel, by decide +kernel⟩

theorem wit_MailboxQuenchCommandsRun_1 :
    ∃ (d : Dev) (x : Dev) (mb : Mb) (mib : Nat) (update : Bool) (y : Dev), d.mbTurn x ∧ x.mbPasses mb (mbMgmt 0xC000 8 8 true) ∧ y = x.useAuth
    mb.auth ∧ y.mbox.background = none ∧ y.dryRefusal mib = none := by
  exact
    ⟨(tMgr (tNand (.scratch false))), (tMgr (tNand (.scratch false))), (tMb 8), 1, true, _, by exact ⟨rfl, by decide +kernel⟩,
    by unfold Dev.mbPasses; decide +kernel, rfl, by decide +kernel, by decide +kernel⟩

theorem wit_MailboxQuenchCommandsRun_2 :
    ∃ (d : Dev) (x : Dev) (mb : Mb) (mib : Nat) (update : Bool) (y : Dev) (st : Status), d.mbTurn x ∧ x.mbPasses mb (mbMgmt 0xC000 8 8 true) ∧ y
    = x.useAuth mb.auth ∧ y.mbox.background = none ∧ y.dryRefusal mib = some st := by
  exact
    ⟨(tMgr tUp), (tMgr tUp), (tMb 8), 0, false, _, .lengthError, by exact ⟨rfl, by decide +kernel⟩, by unfold Dev.mbPasses; decide +kernel, rfl,
    by decide +kernel, by decide +kernel⟩

theorem wit_MailboxQuenchCommandsRun_3 :
    ∃ (d : Dev) (x : Dev) (mb : Mb) (y : Dev), d.mbTurn x ∧ x.mbPasses mb (mbMgmt 0xC001 8 8 true) ∧ y = x.useAuth mb.auth ∧ y.poweredDown =
    false ∧ y.quenching = false ∧ y.heat.opened = true := by
  exact
    ⟨(tMgr { tUp with heat := { tUp.heat with opened := true } }), (tMgr { tUp with heat := { tUp.heat with opened := true } }), (tMb 8), _,
    by exact ⟨rfl, by decide +kernel⟩, by unfold Dev.mbPasses; decide +kernel, rfl, by decide +kernel, by decide +kernel, by decide +kernel⟩

theorem wit_MailboxQuenchCommandsRun_4 :
    ∃ (d : Dev) (x : Dev) (mb : Mb) (confirm : Nat), d.mbTurn x ∧ x.mbPasses mb (mbMgmt 0xC001 8 8 true) ∧ confirm ≠ 0x4E455551 := by
  exact
    ⟨(tMgr tUp), (tMgr tUp), (tMb 8), 0, by exact ⟨rfl, by decide +kernel⟩, by unfold Dev.mbPasses; decide +kernel, by decide +kernel⟩

theorem wit_MailboxQuenchCommandsRun_5 :
    ∃ (d : Dev) (x : Dev) (mb : Mb) (c : Nat), d.mbTurn x ∧ x.mbPasses mb (mbVend 0xC002 0) ∧ c = x.f CEIL_C.C := by
  exact
    ⟨(tMgr tUp), (tMgr tUp), (tMb 0), _, by exact ⟨rfl, by decide +kernel⟩, by unfold Dev.mbPasses; decide +kernel, rfl⟩

theorem wit_MailboxQuenchCommandsRun_6 :
    ∃ (d : Dev) (x : Dev) (mb : Mb) (y : Dev), d.mbTurn x ∧ x.mbPasses mb (mbMgmt 0xC003 8 8 true) ∧ y = x.useAuth mb.auth := by
  exact
    ⟨(tMgr tUp), (tMgr tUp), (tMb 8), _, by exact ⟨rfl, by decide +kernel⟩, by unfold Dev.mbPasses; decide +kernel, rfl⟩

theorem wit_MailboxQuenchCommandsRun_7 :
    ∃ (d : Dev) (x : Dev) (mb : Mb) (len : Nat) (y : Dev) (z : Dev), d.mbTurn x ∧ x.mbPasses mb (mbMgmt 0xC003 8 8 true) ∧ y = x.useAuth mb.auth
    ∧ y.mirrored = [] ∧ 50 ≤ len ∧ len ≤ 1000000 ∧ z = y.writeHeatCtrl len (y.fb HEAT_CTRL.SYNC_EN) (y.fb HEAT_CTRL.SYNC_OUT_EN) 0 := by
  exact
    ⟨(tPlain (tMgr tUp)), (tPlain (tMgr tUp)), (tMb 8), 50, _, _, by exact ⟨rfl, by decide +kernel⟩, by unfold Dev.mbPasses; decide +kernel,
    rfl, by decide +kernel, by decide +kernel, by decide +kernel, rfl⟩

theorem wit_MailboxQuenchCommandsRun_8 :
    ∃ (d : Dev) (x : Dev) (mb : Mb) (len : Nat) (y : Dev), d.mbTurn x ∧ x.mbPasses mb (mbMgmt 0xC003 8 8 true) ∧ y = x.useAuth mb.auth ∧
    (y.mirrored ≠ [] ∨ len < 50 ∨ 1000000 < len) := by
  exact
    ⟨(tMgr tUp), (tMgr tUp), (tMb 8), 49, _, by exact ⟨rfl, by decide +kernel⟩, by unfold Dev.mbPasses; decide +kernel, rfl, by decide +kernel⟩

theorem wit_MailboxQuenchCommandsRun_9 :
    ∃ (d : Dev) (x : Dev) (mb : Mb) (y : Dev) (z : Dev), d.mbTurn x ∧ x.mbPasses mb (mbMgmt 0xC003 8 8 true) ∧ y = x.useAuth mb.auth ∧ z =
    y.boundary := by
  exact
    ⟨(tMgr tUp), (tMgr tUp), (tMb 8), _, _, by exact ⟨rfl, by decide +kernel⟩, by unfold Dev.mbPasses; decide +kernel, rfl, rfl⟩

theorem wit_MailboxQuenchCommandsRun_10 :
    ∃ (d : Dev) (x : Dev) (mb : Mb) (mode : Nat) (y : Dev) (z : Dev), d.mbTurn x ∧ x.mbPasses mb (mbMgmt 0xC004 8 8 true) ∧ y = x.useAuth
    mb.auth ∧ mode ≤ 2 ∧ y.modeRequest mode = (z, .ok) := by
  exact
    ⟨(tMgr (tR [tF CRUC_MODE.CURRENT 1])), (tMgr (tR [tF CRUC_MODE.CURRENT 1])), (tMb 8), 2, _, ((((tMgr (tR [tF CRUC_MODE.CURRENT 1])).useAuth
    (tMb 8).auth).modeRequest (2)).1), by exact ⟨rfl, by decide +kernel⟩, by unfold Dev.mbPasses; decide +kernel, rfl, by decide +kernel,
    by exact took (by decide +kernel)⟩

theorem wit_MailboxQuenchCommandsRun_11 :
    ∃ (d : Dev) (x : Dev) (mb : Mb) (mode : Nat) (y : Dev) (z : Dev) (st : Status), d.mbTurn x ∧ x.mbPasses mb (mbMgmt 0xC004 8 8 true) ∧ y =
    x.useAuth mb.auth ∧ mode ≤ 2 ∧ y.modeRequest mode = (z, st) ∧ st ≠ .ok := by
  exact
    ⟨(tMgr (tR [tF CRUC_MODE.CURRENT 4])), (tMgr (tR [tF CRUC_MODE.CURRENT 4])), (tMb 8), 2, _, ((((tMgr (tR [tF CRUC_MODE.CURRENT 4])).useAuth
    (tMb 8).auth).modeRequest (2)).1), .busy, by exact ⟨rfl, by decide +kernel⟩, by unfold Dev.mbPasses; decide +kernel, rfl, by decide +kernel,
    by exact took (by decide +kernel), by decide +kernel⟩

theorem wit_MailboxQuenchCommandsRun_12 :
    ∃ (d : Dev) (x : Dev) (mb : Mb) (y : Dev), d.mbTurn x ∧ x.mbPasses mb (mbMgmt 0xC004 8 8 true) ∧ y = x.useAuth mb.auth := by
  exact
    ⟨(tMgr tUp), (tMgr tUp), (tMb 8), _, by exact ⟨rfl, by decide +kernel⟩, by unfold Dev.mbPasses; decide +kernel, rfl⟩

theorem wit_MailboxQuenchCommandsRun_13 :
    ∃ (d : Dev) (x : Dev) (mb : Mb) (dpa : Nat) (count : Nat) (op : Nat) (start : Nat) (size : Nat) (o : MaintOp), d.mbTurn x ∧ x.mbPasses mb
    ⟨0xC005, false, false, true, 16, 16⟩ ∧ x.mbSpace mb.path = (start, size) ∧ dpa % 4096 = 0 ∧ 1 ≤ count ∧ count ≤ 65536 ∧ maintOpOf op = some
    o := by
  exact
    ⟨(tMgr tUp), (tMgr tUp), (tMb 16), 4096, 65536, 0, 0, 0x40000000, .clean, by exact ⟨rfl, by decide +kernel⟩,
    by unfold Dev.mbPasses; decide +kernel, by decide +kernel, by decide +kernel, by decide +kernel, by decide +kernel, by decide +kernel⟩

theorem wit_MailboxQuenchCommandsRun_14 :
    ∃ (d : Dev) (x : Dev) (mb : Mb) (dpa : Nat) (count : Nat) (op : Nat) (start : Nat) (size : Nat) (o : MaintOp) (y : Dev), d.mbTurn x ∧
    x.mbPasses mb ⟨0xC005, true, false, true, 16, 16⟩ ∧ y = x.useAuth mb.auth ∧ y.mbSpace mb.path = (start, size) ∧ dpa % 4096 = 0 ∧ 1 ≤ count ∧
    count ≤ 65536 ∧ maintOpOf op = some o := by
  exact
    ⟨(tMgr tUp), (tMgr tUp), (tMb 16), 4096, 65536, 0, 0, 0x40000000, .clean, _, by exact ⟨rfl, by decide +kernel⟩,
    by unfold Dev.mbPasses; decide +kernel, rfl, by decide +kernel, by decide +kernel, by decide +kernel, by decide +kernel, by decide +kernel⟩

theorem wit_MailboxServiceCommandsRun_1 :
    ∃ (d : Dev) (x : Dev) (mb : Mb), d.mbTurn x ∧ x.mbPasses mb (mbVend 0xC006 0) := by
  exact
    ⟨(tMgr tUp), (tMgr tUp), (tMb 0), by exact ⟨rfl, by decide +kernel⟩, by unfold Dev.mbPasses; decide +kernel⟩

theorem wit_MailboxServiceCommandsRun_2 :
    ∃ (d : Dev) (x : Dev) (mb : Mb) (string : Nat) (y : Dev), d.mbTurn x ∧ x.mbPasses mb (mbMgmt 0xC007 8 8 true) ∧ y = x.useAuth mb.auth ∧
    y.mayLearn string = true := by
  exact
    ⟨(tMgr tTwo), (tMgr tTwo), (tMb 8), 0, _, by exact ⟨rfl, by decide +kernel⟩, by unfold Dev.mbPasses; decide +kernel, rfl, by decide +kernel⟩

theorem wit_MailboxServiceCommandsRun_3 :
    ∃ (d : Dev) (x : Dev) (mb : Mb) (string : Nat) (y : Dev), d.mbTurn x ∧ x.mbPasses mb (mbMgmt 0xC007 8 8 true) ∧ y = x.useAuth mb.auth ∧
    y.mayLearn string = true := by
  exact
    ⟨(tMgr tTwo), (tMgr tTwo), (tMb 8), 0, _, by exact ⟨rfl, by decide +kernel⟩, by unfold Dev.mbPasses; decide +kernel, rfl, by decide +kernel⟩

theorem wit_MailboxServiceCommandsRun_4 :
    ∃ (d : Dev) (x : Dev) (mb : Mb) (string : Nat) (y : Dev), d.mbTurn x ∧ x.mbPasses mb (mbMgmt 0xC007 8 8 true) ∧ y = x.useAuth mb.auth ∧
    y.mayLearn string = false := by
  exact
    ⟨(tMgr tUp), (tMgr tUp), (tMb 8), 5, _, by exact ⟨rfl, by decide +kernel⟩, by unfold Dev.mbPasses; decide +kernel, rfl, by decide +kernel⟩

theorem wit_MailboxServiceCommandsRun_5 :
    ∃ (d : Dev) (x : Dev) (mb : Mb) (leaf : Nat) (k : Nat) (max : Nat) (start : Nat) (n : Nat) (rs : List EvRec), d.mbTurn x ∧ x.mbPasses mb
    (mbVend 0xC008 16) ∧ x.leafNamed leaf = some k ∧ 1 ≤ max ∧ max ≤ 1020 ∧ n = (if mb.path = .sideband then Nat.min max 127 else max) ∧ rs =
    ((sortBy (fun r : EvRec => r.seq) (x.leafRecords k)).filter fun r => decide (start ≤ r.seq)).take n := by
  exact
    ⟨(tMgr tUp), (tMgr tUp), (tMb 16), 0x0B, 8, 1020, 0, _, _, by exact ⟨rfl, by decide +kernel⟩, by unfold Dev.mbPasses; decide +kernel,
    by decide +kernel, by decide +kernel, by decide +kernel, rfl, rfl⟩

theorem wit_MailboxServiceCommandsRun_6 :
    ∃ (d : Dev) (x : Dev) (mb : Mb) (leaf : Nat) (k : Nat) (y : Dev) (z : Dev) (r : EvRec) (w : Dev), d.mbTurn x ∧ x.mbPasses mb (mbMgmt 0xC009
    8 8 true) ∧ y = x.useAuth mb.auth ∧ y.leafNamed leaf = some k ∧ y.evt.clearing = [] ∧ y.evt.nextSeq < y.evt.reservation ∧ y.aonLow = false ∧
    y.ownRecord .EVT_LOG_CLEARED [p1 k, p4 (y.leafRecords k).length, p4 (y.droppedTotal k), p1 (authCode mb.auth), p4 (if authCode mb.auth = 1
    then y.f FAB_AUTH_COUNT.COUNT else 0)] = (r, z) ∧ w = ((((z.tmpEraseSector (leafBase k / 4096)).leafPointer k 0).leafProgram k r).viewAdd
    r).setB EVT_LEAF_STATUS.CLEARING true 0 k := by
  exact
    ⟨(tMgr { tUp with evt := { tUp.evt with reservation := 2 ^ 20, nextSeq := 1 } }), (tMgr
    { tUp with evt := { tUp.evt with reservation := 2 ^ 20, nextSeq := 1 } }), (tMb 8), 0x0B, 8, _, ((((tMgr
    { tUp with evt := { tUp.evt with reservation := 2 ^ 20, nextSeq := 1 } }).useAuth (tMb 8).auth).ownRecord .EVT_LOG_CLEARED [p1 (8), p4
    (((tMgr { tUp with evt := { tUp.evt with reservation := 2 ^ 20, nextSeq := 1 } }).useAuth (tMb 8).auth).leafRecords (8)).length, p4 (((tMgr
    { tUp with evt := { tUp.evt with reservation := 2 ^ 20, nextSeq := 1 } }).useAuth (tMb 8).auth).droppedTotal (8)), p1 (authCode (tMb
    8).auth), p4 (if authCode (tMb 8).auth = 1 then ((tMgr { tUp with evt := { tUp.evt with reservation := 2 ^ 20, nextSeq := 1 } }).useAuth
    (tMb 8).auth).f FAB_AUTH_COUNT.COUNT else 0)]).2), ((((tMgr
    { tUp with evt := { tUp.evt with reservation := 2 ^ 20, nextSeq := 1 } }).useAuth (tMb 8).auth).ownRecord .EVT_LOG_CLEARED [p1 (8), p4
    (((tMgr { tUp with evt := { tUp.evt with reservation := 2 ^ 20, nextSeq := 1 } }).useAuth (tMb 8).auth).leafRecords (8)).length, p4 (((tMgr
    { tUp with evt := { tUp.evt with reservation := 2 ^ 20, nextSeq := 1 } }).useAuth (tMb 8).auth).droppedTotal (8)), p1 (authCode (tMb
    8).auth), p4 (if authCode (tMb 8).auth = 1 then ((tMgr { tUp with evt := { tUp.evt with reservation := 2 ^ 20, nextSeq := 1 } }).useAuth
    (tMb 8).auth).f FAB_AUTH_COUNT.COUNT else 0)]).1), _, by exact ⟨rfl, by decide +kernel⟩, by unfold Dev.mbPasses; decide +kernel, rfl,
    by decide +kernel, by decide +kernel, by decide +kernel, by decide +kernel, by exact eta2, rfl⟩

theorem wit_MailboxServiceCommandsRun_7 :
    ∃ (d : Dev) (x : Dev) (mb : Mb) (die : Nat), d.mbTurn x ∧ x.mbPasses mb (mbVend 0xC00A 8) ∧ x.isDie die = true := by
  exact
    ⟨(tMgr tUp), (tMgr tUp), (tMb 8), 1, by exact ⟨rfl, by decide +kernel⟩, by unfold Dev.mbPasses; decide +kernel, by decide +kernel⟩

theorem wit_MailboxServiceCommandsRun_8 :
    ∃ (d : Dev) (x : Dev) (mb : Mb) (image : List Byte) (ok : Bool), d.mbTurn x ∧ x.mbPasses mb ⟨0xC00B, false, false, true, 128, 4096⟩ := by
  exact
    ⟨(tMgr tUp), (tMgr tUp), (tMb 128), [], true, by exact ⟨rfl, by decide +kernel⟩, by unfold Dev.mbPasses; decide +kernel⟩

theorem wit_MailboxServiceCommandsRun_9 :
    ∃ (d : Dev) (x : Dev) (mb : Mb) (ms : Nat) (y : Dev), d.mbTurn x ∧ x.mbPasses mb (mbMgmt 0xC00C 8 8 true) ∧ y = x.useAuth mb.auth ∧
    y.rht.held = none ∧ y.rht.restore = none ∧ 1 ≤ ms ∧ ms ≤ 10000 := by
  exact
    ⟨(tMgr tUp), (tMgr tUp), (tMb 8), 1, _, by exact ⟨rfl, by decide +kernel⟩, by unfold Dev.mbPasses; decide +kernel, rfl, by decide +kernel,
    by decide +kernel, by decide +kernel, by decide +kernel⟩

theorem wit_MailboxServiceCommandsRun_10 :
    ∃ (d : Dev) (x : Dev) (mb : Mb), d.mbTurn x ∧ x.mbPasses mb (mbVend 0xC00D 0) := by
  exact
    ⟨(tMgr tUp), (tMgr tUp), (tMb 0), by exact ⟨rfl, by decide +kernel⟩, by unfold Dev.mbPasses; decide +kernel⟩

theorem wit_MailboxServiceCommandsRun_11 :
    ∃ (d : Dev) (pct : Nat) (x : Dev) (y : Dev), d.mbox.background = some (.sanitize, pct) ∧ x = (d.sanitizeFlash.emits
    (d.sanitizeFlash.servingNs.map fun n => .nvmeCmd (d.sanitizeFlash.deallocName n) n 0 (((d.sanitizeFlash.swg.cfg.backing.nss[n]?).map
    (·.slabs)).getD 0))).setCru (fun c => { c with poison := [], frameless := [] }) ∧ y = x.forEach x.servingNs (fun d n => d.writeLabel n
    ((d.ns n).labelGen + 1) 1) := by
  exact
    ⟨({ tUp with mbox := { tUp.mbox with background := some (.sanitize, 40) } }), 40, _, _, by decide +kernel, rfl, rfl⟩

theorem wit_MailboxServiceCommandsRun_12 :
    ∃ (d : Dev) (r : Running) (e : Extent) (x : Dev) (y : Dev), d.mbox.running = some r ∧ r.opcode = 0x4803 ∧ (d.fab.extents.find? fun e =>
    decide (e.state = 2)) = some e ∧ d.quenching = false ∧ (d.cru.reqs.any fun q => inRange e.start e.size q.slab && q.notPassed) = false ∧ x =
    (d.discardRange e.start e.size).onBacking e.start e.size d.deallocName ∧ y =
    { x with fab := { x.fab with extents := x.fab.extents.filter fun u => decide (u ≠ e) } }.mbEnd .success .ok [] := by
  exact
    ⟨({ tUp with fab := { tUp.fab with extents := [⟨0, 4096, 0, 2⟩] }, mbox := { tUp.mbox with running := some ⟨.sideband, 0x4803, true⟩ } }),
    ⟨.sideband, 0x4803, true⟩, ⟨0, 4096, 0, 2⟩, _, _, by decide +kernel, by decide +kernel, by decide +kernel, by decide +kernel,
    by decide +kernel, rfl, rfl⟩

theorem wit_MailboxServiceCommandsRun_13 :
    ∃ (d : Dev) (rs : Nat) (rz : Nat) (block : Nat) (host : Nat) (start : Nat) (size : Nat) (x : Dev), d.fab.dcRegions = [] ∧ d.fab.extents = []
    ∧ d.quenching = false ∧ ((∃ i < 10, block = 2 ^ (21 + i))) ∧ rs + rz ≤ d.swg.cfg.dram.dpaLimit ∧ size ≠ 0 ∧ start % block = 0 ∧ size % block
    = 0 ∧ rs ≤ start ∧ start + size ≤ rs + rz ∧ x = (d.discardRange start size).onBacking start size (fun _ => "Write Zeroes") := by
  exact
    ⟨tUp, 0, (2 ^ 30), (2 ^ 21), 5, 0, (2 ^ 21), _, by decide +kernel, by decide +kernel, by decide +kernel, by decide +kernel,
    by decide +kernel, by decide +kernel, by decide +kernel, by decide +kernel, by decide +kernel, by decide +kernel, rfl⟩

theorem wit_RegisterAccessesRun_1 :
    ∃ (d : Dev) (die : Nat) (port : Nat) (write : Bool) (offset : Nat) (width : Nat), goodAccess offset width = false := by
  exact
    ⟨tUp, 1, 0, false, 2, 32, by decide +kernel⟩

theorem wit_RegisterAccessesRun_2 :
    ∃ (d : Dev) (bar2 : Bool) (offset : Nat) (width : Nat) (value : Nat), goodAccess offset width = false := by
  exact
    ⟨tUp, false, 4, 64, 0, by decide +kernel⟩

theorem wit_RegisterAccessesRun_3 :
    ∃ (d : Dev) (bar2 : Bool) (offset : Nat) (width : Nat) (value : Nat) (blk : RegBlk) (a : Nat) (rel : Nat), goodAccess offset width = true ∧
    blockAt offset = some (blk, a, rel) ∧ d.blockThere blk a = true := by
  exact
    ⟨tUp, true, 0x100000, 32, 0, .root, 0, 0, by decide +kernel, by decide +kernel, by decide +kernel⟩

theorem wit_RegisterAccessesRun_4 :
    ∃ (d : Dev) (bar2 : Bool) (offset : Nat) (width : Nat) (value : Nat) (blk : RegBlk) (a : Nat) (rel : Nat), goodAccess offset width = true ∧
    blockAt offset = some (blk, a, rel) ∧ d.blockThere blk a = false := by
  exact
    ⟨tUp, true, 0x21FFF8, 64, 0, .die, 8, 0x1FFF8, by decide +kernel, by decide +kernel, by decide +kernel⟩

theorem wit_RegisterAccessesRun_5 :
    ∃ (d : Dev) (bar2 : Bool) (discard : Bool) (h : Nat) (count : Nat) (op : Nat) (s : Nat) (ss : List Nat) (o : MaintOp) (x : Dev),
    d.blockThere .hcb h = true ∧ d.fb HCB_CMD_STATUS.BUSY h = false ∧ d.quenching = false ∧ h ≠ bellowsId ∧ (bar2 = false ∨ discard = false) ∧ x
    = (((d.setF HCB_CMD.COUNT count h).setF HCB_CMD.OP op h).setB HCB_CMD.DISCARD discard h).setB HCB_CMD_STATUS.DONE false h ∧ 1 ≤ x.f
    HCB_CMD.COUNT h ∧ x.f HCB_CMD.COUNT h ≤ 65536 ∧ maintOpOf (x.f HCB_CMD.OP h) = some o ∧ x.slicesUnder h = s :: ss := by
  exact
    ⟨tUp, false, true, 1, 65536, 0, 16, [], .clean, _, by decide +kernel, by decide +kernel, by decide +kernel, by decide +kernel,
    by decide +kernel, rfl, by decide +kernel, by decide +kernel, by decide +kernel, by decide +kernel⟩

theorem wit_RegisterAccessesRun_6 :
    ∃ (d : Dev) (h : Nat) (count : Nat) (op : Nat) (x : Dev), d.blockThere .hcb h = true ∧ d.fb HCB_CMD_STATUS.BUSY h = false ∧ d.quenching =
    false ∧ h ≠ bellowsId ∧ x = (((d.setF HCB_CMD.COUNT count h).setF HCB_CMD.OP op h).setB HCB_CMD.DISCARD true h).setB HCB_CMD_STATUS.DONE
    false h := by
  exact
    ⟨tUp, 1, 1, 0, _, by decide +kernel, by decide +kernel, by decide +kernel, by decide +kernel, rfl⟩

theorem wit_RegisterAccessesRun_7 :
    ∃ (d : Dev) (bar2 : Bool) (discard : Bool) (count : Nat) (op : Nat) (x : Dev), d.fb HCB_CMD_STATUS.BUSY bellowsId = false ∧ d.quenching =
    false ∧ d.blockThere .hcb bellowsId = true ∧ x = (((d.setF HCB_CMD.COUNT count bellowsId).setF HCB_CMD.OP op bellowsId).setB HCB_CMD.DISCARD
    discard bellowsId).setB HCB_CMD_STATUS.DONE false bellowsId := by
  exact
    ⟨tUp, true, false, 1, 0, _, by decide +kernel, by decide +kernel, by decide +kernel, rfl⟩

theorem wit_MailboxTurns_1 :
    ∃ (d : Dev) (x : Dev) (mb : Mb), x = Dev.mbDrain d.mbox.held.length d ∧ x.mbox.running.isSome = true := by
  exact
    ⟨({ tUp with mbox := { tUp.mbox with running := some ⟨.sideband, 0x4803, true⟩ } }), _, (tMb 0), rfl, by decide +kernel⟩

theorem wit_MailboxTurns_2 :
    ∃ (d : Dev) (x : Dev) (mb : Mb) (dirty : Bool), d.mbTurn x ∧ x.mbReady mb.path = true ∧ pathPackage mb.path = false := by
  exact
    ⟨(tQuads [⟨1, 0, 0, 2 + 16⟩]), (tQuads [⟨1, 0, 0, 2 + 16⟩]), ⟨.port 1 0 (some 1), 0, .none⟩, true, by exact ⟨rfl, by decide +kernel⟩,
    by decide +kernel, by decide +kernel⟩

theorem wit_MailboxTurns_3 :
    ∃ (d : Dev) (x : Dev) (mb : Mb) (value : Nat), d.mbTurn x ∧ x.mbReady mb.path = true ∧ mb.size ≠ 8 := by
  exact
    ⟨tUp, tUp, (tMb 7), 0, by exact ⟨rfl, by decide +kernel⟩, by decide +kernel, by decide +kernel⟩

theorem wit_MailboxTurns_4 :
    ∃ (d : Dev) (x : Dev) (mb : Mb) (confirm : Nat) (reason : Nat) (path : Nat), d.mbTurn x ∧ x.mbReady mb.path = true ∧ pathPackage mb.path =
    true ∧ mb.size = 8 ∧ x.authReason mb.auth 0xC001 = some reason ∧ path = (match mb.path with | .sideband => 1 | .port _ _ _ => 0) := by
  exact
    ⟨tUp, tUp, ⟨.sideband, 8, .none⟩, 0, 0, _, by exact ⟨rfl, by decide +kernel⟩, by decide +kernel, by decide +kernel, by decide +kernel,
    by decide +kernel, rfl⟩

theorem wit_QueueInOrder : ∃ s t : State, step s = .next t ∧ s.queueWf = true :=
  ⟨{ dev := tUp, pending := [.drbgHealthPass] }, { dev := tUp.setB SEC_DRBG_STATUS.HEALTHY true, pending := [] }, rfl, by decide +kernel⟩

theorem wit_StepLeads : ∃ s t : State, step s = .next t :=
  ⟨{ dev := tUp, pending := [.drbgHealthPass] }, { dev := tUp.setB SEC_DRBG_STATUS.HEALTHY true, pending := [] }, rfl⟩

theorem wit_StepKeepsSound : ∃ s t : State, s.dev.Sound ∧ step s = .next t :=
  ⟨{ dev := tUp, pending := [.drbgHealthPass] }, { dev := tUp.setB SEC_DRBG_STATUS.HEALTHY true, pending := [] },
    ⟨by decide +kernel, by unfold regsFit; decide +kernel⟩, rfl⟩

theorem wit_MediumReadsBack : ∃ m n : List Host.Cell, Memory.wf m = true ∧ Memory.wf n = true ∧ ∀ a, memGet m a = memGet n a :=
  ⟨[(0, 0), (4095, 1)], [(0, 0), (4095, 1)], by decide +kernel, by decide +kernel, fun _ => rfl⟩

theorem wit_ResetIsSound : ∃ (r : Reg) (x : FieldRow), x ∈ r.rows := ⟨.CRUC_MODE, Reg.CRUC_MODE.rows.head (by decide), by decide⟩

theorem wit_RegisterWritesKeepReadOnly_ro : ∃ (d : Dev) (r : Reg) (x : FieldRow), x ∈ r.rows ∧ x.fld ≠ ROOT_RWL_IGNORED.COUNT ∧
    (x.access = .RO ∨ x.access = .WO ∨ (x.access = .RWL ∧ d.swg.sealed = true)) :=
  ⟨tUp, .CHAN_STATUS, ⟨CHAN_STATUS.STATE, .RO, 0, none⟩, by decide, by decide, by decide⟩

theorem wit_RegisterWritesKeepReadOnly_rwl : ∃ (d : Dev) (r : Reg) (x : FieldRow), x ∈ r.rows ∧ x.fld ≠ ROOT_RWL_IGNORED.COUNT ∧
    (x.access = .RWL ∧ d.swg.sealed = true) :=
  ⟨{ tUp with swg := { tUp.swg with sealed := true } }, .QFL_PE_LIMIT, ⟨QFL_PE_LIMIT.CYCLES, .RWL, 50000, none⟩, by decide, by decide, by decide⟩

theorem wit_HeatNumbersExtend_1a : ∃ (d : Dev) (w x : Nat), x < 2 ^ 32 ∧ (d.openHeat + x) % 2 ^ 32 = w ∧ x < 2 ^ 31 :=
  ⟨tUp, 2 ^ 31 - 1, 2 ^ 31 - 1, by decide, by decide +kernel, by decide⟩

theorem wit_HeatNumbersExtend_1b : ∃ (d : Dev) (w x : Nat), x < 2 ^ 32 ∧ (d.openHeat + x) % 2 ^ 32 = w ∧ 2 ^ 31 < x ∧
    2 ^ 32 - x ≤ d.openHeat :=
  ⟨tR [tF HEAT_CURRENT.HEAT (2 ^ 31 - 1)] tUp, 0, 2 ^ 31 + 1, by decide, by decide +kernel, by decide, by decide +kernel⟩

theorem wit_HeatNumbersExtend_1c : ∃ (d : Dev) (w x : Nat), x < 2 ^ 32 ∧ (d.openHeat + x) % 2 ^ 32 = w ∧ x = 2 ^ 31 :=
  ⟨tUp, 2 ^ 31, 2 ^ 31, by decide, by decide +kernel, rfl⟩

theorem wit_HeatNumbersExtend_2 : ∃ (d : Dev) (h : Nat), h ≤ d.openHeat + (2 ^ 31 - 1) ∧ d.openHeat ≤ h + (2 ^ 31 - 1) :=
  ⟨tUp, 2 ^ 31 - 1, by decide +kernel, by decide +kernel⟩

/-- The image with a POOLS section that fills 24 MiB: 98,304 buffers of class 0, and its reader. -/
def tPoolImg : List Byte :=
  leBytes 4 (magicOf 0x53 0x57 0x47 0x32) ++ leBytes 8 (2 + 976 * 2 ^ 32) ++ leBytes 4 1 ++ leBytes 8 0 ++ leBytes 2 1 ++ leBytes 2 8 ++ leBytes 4 0 ++
  ((tImg.drop 32).take 416) ++ tSect 7 (leBytes 16 98304 ++ leBytes 8 65535 ++ leBytes 8 16 ++ leBytes 288 0) ++ (tImg.drop 448)
def tPoolRd (off size : Nat) : Nat := leValue ((tPoolImg.drop off).take size)
def tPoolIn : VerifyIn := ⟨.ogl2d, 0, true, 1000000000, none⟩

theorem wit_PoolsSectionFits : ∃ (v : VerifyIn) (rd : Nat → Nat → Nat) (c : SwgCfg) (ss : List Sect), verifyImage v rd = (0, c, ss) ∧ ∃ s ∈ ss, s.ty = 7 :=
  ⟨tPoolIn, tPoolRd, (verifyImage tPoolIn tPoolRd).2.1, (verifyImage tPoolIn tPoolRd).2.2,
    by have h : (verifyImage tPoolIn tPoolRd).1 = 0 := by decide +kernel
       exact first_eq h, by decide +kernel⟩

theorem wit_HandlesNameFirstBytes_1 : ∃ (d : Dev) (k : BufKey), k.die < 16 ∧ k.cls < 8 ∧ d.classBase k.die k.cls + k.idx * classSize k.cls < 2 ^ 25 :=
  ⟨tUp, ⟨8, 3, 95⟩, by decide, by decide, by decide +kernel⟩

theorem wit_HandlesNameFirstBytes_2 : ∃ (d : Dev) (k : BufKey) (b : Buf), d.classBase k.die k.cls + k.idx * classSize k.cls < 2 ^ 25 ∧
    k.idx < d.classCount k.die k.cls ∧ (k.die = 0 ∧ k.cls = 1 ∨ k.die < 16 ∧ d.inService k.die = true ∧ k.die ≠ 0 ∧ k.cls < 4) ∧
    tget d.pool.bufs k = some b :=
  ⟨{ tUp with pool := { tUp.pool with bufs := [(⟨2, 3, 95⟩, ⟨false, 24, 2, 0⟩)] } }, ⟨2, 3, 95⟩, ⟨false, 24, 2, 0⟩, by decide +kernel, by decide +kernel,
    by decide +kernel, by decide +kernel⟩

theorem wit_HandlesNameFirstBytes_3 : ∃ (d : Dev) (h : Nat) (k : BufKey), h < 2 ^ 32 ∧ d.checkHandle h = .ok k :=
  ⟨{ tUp with pool := { tUp.pool with bufs := [(⟨2, 3, 57⟩, ⟨false, 24, 2, 0⟩)] } }, 0x27590000, ⟨2, 3, 57⟩, by decide, eq_of_tOk (by decide +kernel)⟩

theorem wit_AddressParts_1 : ∃ a : Nat, a < 2 ^ 52 := ⟨2 ^ 52 - 1, by decide⟩
theorem wit_AddressParts_2 : ∃ (d : Dev) (a : Nat), d.swg.cfg.dram.dpaLimit ≤ a := ⟨tUp, 0x40000000, by decide +kernel⟩

theorem wit_RecordsReadBack : ∃ r : EvRec, r.seq < 2 ^ 64 ∧ r.code < 2 ^ 16 ∧ r.source < 256 ∧ r.severity < 16 ∧ r.payload.length = 16 :=
  ⟨{ tRec with seq := 2 ^ 64 - 1, code := 0xFFFF, source := 255, severity := 15 }, by decide, by decide, by decide, by decide, by decide⟩

end Sys2Proof.Tests
end

section
/-! PROOFS. The Swage image's verification and its address map: what a result OK says of each check (R63), the POOLS section of a verified image
(R57), and the parts and the limit of a device physical address (R71). -/

namespace Sys2Proof.Machine

open Sys2Proof

/-! ### A verification that answers OK passed every check (R63) -/

/-- OK is the code 0, so a list whose codes are failure codes answers OK exactly when every check passes. -/
theorem firstFail_eq_zero_iff {cs : List Check} (hcode : ∀ x ∈ cs, x.2 ≠ 0) : firstFail cs = 0 ↔ ∀ x ∈ cs, x.1 = true := by
  induction cs with
  | nil => simp [firstFail]
  | cons x xs ih =>
    obtain ⟨ok, code⟩ := x
    obtain ⟨hx, hxs⟩ := List.forall_mem_cons.1 hcode
    cases ok with
    | true => simpa [firstFail] using ih hxs
    | false => simpa [firstFail] using hx

/-- No check of a section fails with the code of OK. -/
theorem sectChecks_code_ne_zero (rd : Nat → Nat → Nat) (part : Part) (bank : Nat) (c : SwgCfg) (s : Sect) :
    ∀ x ∈ sectChecks rd part bank c s, x.2 ≠ 0 := by
  unfold sectChecks
  split <;> simp

/-- The result code is that of the first check to fail: those of the header and of the sections' list, none of which fails with the code of OK,
then those of every section, made on the configuration that the verification answers with. -/
theorem verifyImage_result (v : VerifyIn) (rd : Nat → Nat → Nat) : ∃ front : List Check, (∀ x ∈ front, x.2 ≠ 0) ∧
    (verifyImage v rd).1 = firstFail (front ++
      ((verifyImage v rd).2.2.map (sectChecks rd v.part v.bank (verifyImage v rd).2.1)).flatten) := by
  refine ⟨_, ?_, rfl⟩
  cases v.partialOf with
  | none => simp
  | some loaded => simp

/-- An image that passes verification passes every check of every section it carries. -/
theorem verifyImage_ok_sectChecks {v : VerifyIn} {rd : Nat → Nat → Nat} {c : SwgCfg} {ss : List Sect} (h : verifyImage v rd = (0, c, ss))
    {s : Sect} (hs : s ∈ ss) : ∀ x ∈ sectChecks rd v.part v.bank c s, x.1 = true := by
  obtain ⟨front, hfront, hcode⟩ := verifyImage_result v rd
  rw [h] at hcode
  have hall : ∀ x ∈ front ++ (ss.map (sectChecks rd v.part v.bank c)).flatten, x.2 ≠ 0 := by
    simp only [List.mem_append, List.mem_flatten, List.mem_map]
    rintro x (hx | ⟨_, ⟨t, -, rfl⟩, hx⟩)
    · exact hfront x hx
    · exact sectChecks_code_ne_zero rd v.part v.bank c t x hx
  intro x hx
  have hpass := (firstFail_eq_zero_iff hall).1 hcode.symm
  exact hpass x (List.mem_append_right _ (List.mem_flatten_of_mem (List.mem_map_of_mem hs) hx))

/-! ### The POOLS section (R57) -/

/-- What the check of a POOLS section asks: zero reserved bytes, buffers that fit in 24 MiB, and no floor above its class's count. -/
theorem poolsRange_iff (rd : Nat → Nat → Nat) (o : Nat) (c : PoolsCfg) : poolsRange rd o c = true ↔
    zeroBytes rd (o + 26) 6 = true ∧
      c.count.getD 0 0 * 256 + c.count.getD 1 0 * 4096 + c.count.getD 2 0 * 16384 + c.count.getD 3 0 * 65536 ≤ 25165824 ∧
      ∀ i < 4, c.floor.getD i 0 ≤ c.count.getD i 0 := by
  have hsum : sumOf (tab 4 fun i => c.count.getD i 0 * classSize i) =
      c.count.getD 0 0 * 256 + c.count.getD 1 0 * 4096 + c.count.getD 2 0 * 16384 + c.count.getD 3 0 * 65536 := by
    simp [sumOf, tab, classSize, List.range_succ]
  rw [poolsRange, hsum]
  simp only [Bool.and_eq_true, decide_eq_true_eq, List.all_eq_true, List.mem_range, and_assoc]

/-- A section of type 7 is checked as POOLS. -/
theorem poolsRange_mem_sectChecks (rd : Nat → Nat → Nat) (part : Part) (bank : Nat) (c : SwgCfg) {s : Sect} (hty : s.ty = 7) :
    (poolsRange rd s.off c.pools, 0xB) ∈ sectChecks rd part bank c s := by
  simp [sectChecks, hty]

/-- Settles O56: the section's check is among those that a result OK says have passed, and it asks what R57 says. -/
theorem poolsSectionFits : Obligations.PoolsSectionFits := by
  unfold Obligations.PoolsSectionFits
  rintro v rd c ss h ⟨s, hs, hty⟩
  have hpools : poolsRange rd s.off c.pools = true :=
    verifyImage_ok_sectChecks h hs _ (poolsRange_mem_sectChecks rd v.part v.bank c hty)
  exact ((poolsRange_iff rd s.off c.pools).1 hpools).2

/-! ### A device physical address (R71) -/

theorem slabOf_lt (a : Nat) : slabOf a < 2 ^ 40 := Nat.mod_lt _ (by decide)

theorem sectorOf_lt (a : Nat) : sectorOf a < 64 := Nat.mod_lt _ (by decide)

/-- The slab, the sector and the byte spell a DPA of 52 bits: its slab index is not cut. -/
theorem dpa_eq_slab_sector_byte {a : Nat} (ha : a < 2 ^ 52) : a = slabOf a * 4096 + sectorOf a * 64 + a % 64 := by
  have hslab : slabOf a = a / 4096 := Nat.mod_eq_of_lt (by omega)
  rw [hslab, sectorOf]
  omega

/-- The limit is the first cause that R81 lists, so it decides before any other. -/
theorem Dev.unserved_of_dpaLimit_le {d : Dev} {a : Nat} (h : d.swg.cfg.dram.dpaLimit ≤ a) : d.unserved a = some 0 := if_pos h

/-- Settles O58: the three fields of R71 partition the address, and the limit is the first cause of not serving it. -/
theorem addressParts : Obligations.AddressParts := by
  unfold Obligations.AddressParts
  exact ⟨fun a ha => ⟨dpa_eq_slab_sector_byte ha, slabOf_lt a, sectorOf_lt a⟩, fun _ _ => Dev.unserved_of_dpaLimit_le⟩

end Sys2Proof.Machine
end

section
/-! PROOFS. The handles of the buffer pools: the fields that a handle spells (R491) and the handles that a pool takes (R492). -/

namespace Sys2Proof.Machine

open Sys2Proof

/-! ### The fields of a handle (R491) -/

/-- A die, a class and an offset that fit their fields are read back from the number that they spell. -/
theorem handleFields_of_fit {die c off : Nat} (hdie : die < 16) (hc : c < 8) (hoff : off < 2 ^ 25) :
    handleDie (die * 2 ^ 28 + c * 2 ^ 25 + off) = die ∧ handleClass (die * 2 ^ 28 + c * 2 ^ 25 + off) = c ∧
      handleOffset (die * 2 ^ 28 + c * 2 ^ 25 + off) = off := by
  simp only [handleDie, handleClass, handleOffset, bits, Nat.shiftRight_eq_div_pow]
  omega

/-- The fields leave no bit of a 32-bit handle out. -/
theorem eq_of_handleFields {h : Nat} (hh : h < 2 ^ 32) : h = handleDie h * 2 ^ 28 + handleClass h * 2 ^ 25 + handleOffset h := by
  simp only [handleDie, handleClass, handleOffset, bits, Nat.shiftRight_eq_div_pow]
  omega

/-! ### The handles that a pool takes (R492) -/

theorem classSize_pos {c : Nat} (hc : c < 4) : 0 < classSize c := by
  interval_cases c <;> decide

/-- Checks 3 and 4: an offset within its class and aligned to it is the first byte of one of its buffers, the one that the quotient names. -/
theorem firstByte_iff {base count size off i : Nat} (hsize : 0 < size) :
    (¬ (off < base ∨ base + count * size ≤ off) ∧ (off - base) % size = 0 ∧ (off - base) / size = i) ↔
      off = base + i * size ∧ i < count := by
  constructor
  · rintro ⟨hin, halign, rfl⟩
    have hoff : (off - base) / size * size = off - base := Nat.div_mul_cancel (Nat.dvd_of_mod_eq_zero halign)
    exact ⟨by omega, (Nat.div_lt_iff_lt_mul hsize).2 (by omega)⟩
  · rintro ⟨rfl, hi⟩
    have hend : i * size < count * size := Nat.mul_lt_mul_of_pos_right hi hsize
    exact ⟨by omega, by simp, by simp [hsize]⟩

/-- Checks 1 and 2: the pools and classes that there are, the one class of the Bellows pool and four on each Hearth die in service. -/
def Dev.hasClass (d : Dev) (die c : Nat) : Prop :=
  (die = 0 ∨ d.inService die = true) ∧ (if die = 0 then c = 1 else c ≤ 3)

theorem Dev.hasClass_iff (d : Dev) (die c : Nat) :
    d.hasClass die c ↔ die = 0 ∧ c = 1 ∨ d.inService die = true ∧ die ≠ 0 ∧ c < 4 := by
  unfold Dev.hasClass
  by_cases hdie : die = 0
  · simp [hdie]
  · simp [hdie, Nat.lt_succ_iff]

theorem Dev.hasClass.lt_four {d : Dev} {die c : Nat} (h : d.hasClass die c) : c < 4 := by
  rcases (d.hasClass_iff die c).1 h with ⟨-, rfl⟩ | ⟨-, -, hc⟩
  · decide
  · exact hc

/-- A check that fails answers its number, so an answer OK passed it. -/
theorem ite_error_eq_ok_iff {ε α : Type} {p : Prop} [Decidable p] {e : ε} {x : Except ε α} {a : α} :
    (if p then .error e else x) = .ok a ↔ ¬ p ∧ x = .ok a := by
  by_cases hp : p <;> simp [hp]

/-- The five checks, and the buffer that a handle which passes them names. -/
theorem Dev.checkHandle_eq_ok_iff_checks (d : Dev) (h : Nat) (k : BufKey) : d.checkHandle h = .ok k ↔
    d.hasClass (handleDie h) (handleClass h) ∧
      ¬ (handleOffset h < d.classBase (handleDie h) (handleClass h) ∨
        d.classBase (handleDie h) (handleClass h) + d.classCount (handleDie h) (handleClass h) * classSize (handleClass h) ≤ handleOffset h) ∧
      (handleOffset h - d.classBase (handleDie h) (handleClass h)) % classSize (handleClass h) = 0 ∧
      ⟨handleDie h, handleClass h, (handleOffset h - d.classBase (handleDie h) (handleClass h)) / classSize (handleClass h)⟩ = k ∧
      (tget d.pool.bufs k).isSome := by
  have hclass : (¬ (!(decide (handleDie h = 0) || d.inService (handleDie h))) = true ∧
      ¬ (!(if handleDie h = 0 then decide (handleClass h = 1) else decide (handleClass h ≤ 3))) = true) ↔
      d.hasClass (handleDie h) (handleClass h) := by
    unfold Dev.hasClass
    by_cases hdie : handleDie h = 0 <;> simp [hdie]
  have hheld : ∀ b : BufKey, (if (tget d.pool.bufs b).isSome then Except.ok b else .error 5) = .ok k ↔
      b = k ∧ (tget d.pool.bufs k).isSome := by
    intro b
    split
    · next hb => simpa using fun hk : b = k => hk ▸ hb
    · next hb => simpa using fun hk : b = k => hk ▸ Option.not_isSome_iff_eq_none.1 hb
  simp only [Dev.checkHandle, ite_error_eq_ok_iff, hheld, ← hclass, and_assoc, ne_eq, not_not]

/-- The pool takes a handle for a buffer exactly when the handle's fields are the buffer's die, its class and the offset of its first byte, and the
buffer is one of its class's and is given out. -/
theorem Dev.checkHandle_eq_ok_iff (d : Dev) (h : Nat) (k : BufKey) : d.checkHandle h = .ok k ↔
    (handleDie h = k.die ∧ handleClass h = k.cls ∧ handleOffset h = d.classBase k.die k.cls + k.idx * classSize k.cls) ∧
      d.hasClass k.die k.cls ∧ k.idx < d.classCount k.die k.cls ∧ (tget d.pool.bufs k).isSome := by
  rw [Dev.checkHandle_eq_ok_iff_checks]
  constructor
  · rintro ⟨hclass, hin, halign, rfl, hheld⟩
    obtain ⟨hoff, hidx⟩ := (firstByte_iff (classSize_pos hclass.lt_four)).1 ⟨hin, halign, rfl⟩
    exact ⟨⟨rfl, rfl, hoff⟩, hclass, hidx, hheld⟩
  · rintro ⟨⟨hdie, hcls, hoff⟩, hclass, hidx, hheld⟩
    obtain ⟨hin, halign, hquot⟩ := (firstByte_iff (classSize_pos hclass.lt_four)).2 ⟨hoff, hidx⟩
    rw [hdie, hcls]
    exact ⟨hclass, hin, halign, by rw [hquot], hheld⟩

/-- Settles O57: the fields of a handle read back, and R492's checks pass exactly for the first byte of a buffer given out. -/
theorem handlesNameFirstBytes : Obligations.HandlesNameFirstBytes := by
  unfold Obligations.HandlesNameFirstBytes
  refine ⟨fun d k hdie hcls hoff => handleFields_of_fit hdie hcls hoff, ?_, ?_⟩
  · intro d k b hoff hidx hclass hheld
    have hdie : k.die < 16 := by omega
    have hhas : d.hasClass k.die k.cls := (d.hasClass_iff k.die k.cls).2 (hclass.imp_right And.right)
    have hcls : k.cls < 8 := hhas.lt_four.trans (by decide)
    exact (d.checkHandle_eq_ok_iff _ k).2 ⟨handleFields_of_fit hdie hcls hoff, hhas, hidx, by simp [hheld]⟩
  · intro d h k hh hok
    obtain ⟨⟨hdie, hcls, hoff⟩, -⟩ := (d.checkHandle_eq_ok_iff h k).1 hok
    calc h = handleDie h * 2 ^ 28 + handleClass h * 2 ^ 25 + handleOffset h := eq_of_handleFields hh
      _ = d.handle k := by rw [hdie, hcls, hoff, Dev.handle]

end Sys2Proof.Machine
end

section
/-! PROOFS. What holds of every command and of every step: no command stops the block, the queue is served in order, and what no step
breaks (Leads), from the lemma of each command (Laws). -/

namespace Sys2Proof.Machine

open Sys2Proof

/-! ### Commands -/

/-- No command stops the block, whatever the state, and none breaks what Leads says: one lemma a command, in Laws. -/
theorem exec_runs (c : Instr) (s : State) : s.Runs (exec c s) := by
  cases c with
  | d2dLinkFault die link => exact execD2dLinkFault_runs die link s
  | d2dRetrainDone die link us ok => exact execD2dRetrainDone_runs die link us ok s
  | memWr die port ld host dpa data be tag => exact execMemWr_runs die port ld host dpa data be tag s
  | memRd die port ld host dpa own tag => exact execMemRd_runs die port ld host dpa own tag s
  | writeAdmit rid look bad => exact execWriteAdmit_runs rid look bad s
  | readAdmit rid look bad => exact execReadAdmit_runs rid look bad s
  | birsp host line => exact execBirsp_runs host line s
  | fabBiReset mask => exact execFabBiReset_runs mask s
  | fmLdAllocate die port ld start size => exact execFmLdAllocate_runs die port ld start size s
  | gpfRequest die port => exact execGpfRequest_runs die port s
  | gpfPhase2Response die port => exact execGpfPhase2Response_runs die port s
  | perstN die port => exact execPerstN_runs die port s
  | flr die port ld => exact execFlr_runs die port ld s
  | ideCheckFail die port stream keySlot => exact execIdeCheckFail_runs die port stream keySlot s
  | fabLinkUp die port width rate => exact execFabLinkUp_runs die port width rate s
  | fabLinkDown die port width ltssm => exact execFabLinkDown_runs die port width ltssm s
  | identify mb => exact execIdentify_runs mb s
  | backgroundOperationStatus mb => exact execBackgroundOperationStatus_runs mb s
  | getEventRecords mb log => exact execGetEventRecords_runs mb log s
  | clearEventRecords mb log all handles => exact execClearEventRecords_runs mb log all handles s
  | getEventInterruptPolicy mb => exact execGetEventInterruptPolicy_runs mb s
  | setEventInterruptPolicy mb info warning failure fatal => exact execSetEventInterruptPolicy_runs mb info warning failure fatal s
  | getFwInfo mb => exact execGetFwInfo_runs mb s
  | transferFw mb slot revision verifies => exact execTransferFw_runs mb slot revision verifies s
  | activateFw mb slot online => exact execActivateFw_runs mb slot online s
  | getTimestamp mb => exact execGetTimestamp_runs mb s
  | setTimestamp mb value => exact execSetTimestamp_runs mb value s
  | getSupportedLogs mb => exact execGetSupportedLogs_runs mb s
  | getLog mb log offset length => exact execGetLog_runs mb log offset length s
  | identifyMemoryDevice mb => exact execIdentifyMemoryDevice_runs mb s
  | getHealthInfo mb => exact execGetHealthInfo_runs mb s
  | getAlertConfiguration mb => exact execGetAlertConfiguration_runs mb s
  | setAlertConfiguration mb valid enable life temp ce => exact execSetAlertConfiguration_runs mb valid enable life temp ce s
  | getShutdownState mb => exact execGetShutdownState_runs mb s
  | setShutdownState mb dirty => exact execSetShutdownState_runs mb dirty s
  | getPoisonList mb dpa lines => exact execGetPoisonList_runs mb dpa lines s
  | injectPoison mb dpa => exact execInjectPoison_runs mb dpa s
  | clearPoison mb dpa data => exact execClearPoison_runs mb dpa data s
  | sanitize mb => exact execSanitize_runs mb s
  | sanitizeComplete => exact execSanitizeComplete_runs s
  | getDcConfiguration mb first count => exact execGetDcConfiguration_runs mb first count s
  | getDcExtentList mb first count => exact execGetDcExtentList_runs mb first count s
  | addDcResponse mb start size => exact execAddDcResponse_runs mb start size s
  | releaseDc mb start size => exact execReleaseDc_runs mb start size s
  | releaseDcComplete => exact execReleaseDcComplete_runs s
  | unsupportedCommand mb opcode => exact execUnsupportedCommand_runs mb opcode s
  | quenchTest mb sampleMib update => exact execQuenchTest_runs mb sampleMib update s
  | quenchNow mb confirm => exact execQuenchNow_runs mb confirm s
  | ceilingQuery mb => exact execCeilingQuery_runs mb s
  | heatControlRead mb => exact execHeatControlRead_runs mb s
  | heatControlSetLength mb lengthUs => exact execHeatControlSetLength_runs mb lengthUs s
  | heatControlCloseNow mb => exact execHeatControlCloseNow_runs mb s
  | cacheMode mb mode => exact execCacheMode_runs mb mode s
  | cacheModeQuery mb => exact execCacheModeQuery_runs mb s
  | maintByAddr mb dpaStart slabCount op discard => exact execMaintByAddr_runs mb dpaStart slabCount op discard s
  | energyStatus mb => exact execEnergyStatus_runs mb s
  | batteryLearnSchedule mb string => exact execBatteryLearnSchedule_runs mb string s
  | batteryLearnCancel mb string => exact execBatteryLearnCancel_runs mb string s
  | logReadLeaf mb leaf maxRecords startSeq => exact execLogReadLeaf_runs mb leaf maxRecords startSeq s
  | logClearLeaf mb leaf => exact execLogClearLeaf_runs mb leaf s
  | poolStatus mb die => exact execPoolStatus_runs mb die s
  | swageApplyPartial mb image signatureOk => exact execSwageApplyPartial_runs mb image signatureOk s
  | resetNoQuench mb confirm windowMs => exact execResetNoQuench_runs mb confirm windowMs s
  | weldStatus mb => exact execWeldStatus_runs mb s
  | fillLands slab data => exact execFillLands_runs slab data s
  | fillFail slab status => exact execFillFail_runs slab status s
  | destageSelect slab bad => exact execDestageSelect_runs slab bad s
  | idleDestageTimer slab => exact execIdleDestageTimer_runs slab s
  | destageComplete slab => exact execDestageComplete_runs slab s
  | destageFail slab status => exact execDestageFail_runs slab status s
  | setStallRetry rid => exact execSetStallRetry_runs rid s
  | setStallHeldTimer rid => exact execSetStallHeldTimer_runs rid s
  | uncachedReadDone rid ok data => exact execUncachedReadDone_runs rid ok data s
  | bypassBackingReadDone rid ok status data => exact execBypassBackingReadDone_runs rid ok status data s
  | bypassBackingWriteDone rid ok status => exact execBypassBackingWriteDone_runs rid ok status s
  | bypassRetry rid => exact execBypassRetry_runs rid s
  | crucModeRequest request => exact execCrucModeRequest_runs request s
  | drainExitCheck => exact execDrainExitCheck_runs s
  | generationSweepDone => exact execGenerationSweepDone_runs s
  | maintClean id => exact execMaintClean_runs id s
  | maintInvalidate id => exact execMaintInvalidate_runs id s
  | maintEvict id => exact execMaintEvict_runs id s
  | maintPin id => exact execMaintPin_runs id s
  | maintUnpin id => exact execMaintUnpin_runs id s
  | maintFillAhead id => exact execMaintFillAhead_runs id s
  | crucMaintGo die slab count op discard => exact execCrucMaintGo_runs die slab count op discard s
  | setRebuildDone slab => exact execSetRebuildDone_runs slab s
  | fenceDrained die slice => exact execFenceDrained_runs die slice s
  | heatBoundary => exact execHeatBoundary_runs s
  | heatSyncInEdge after => exact execHeatSyncInEdge_runs after s
  | heatSyncMiss => exact execHeatSyncMiss_runs s
  | heatCtrlWrite lengthUs syncEn syncOut => exact execHeatCtrlWrite_runs lengthUs syncEn syncOut s
  | heatCtrlCloseNow => exact execHeatCtrlCloseNow_runs s
  | heatReservationDone ok status => exact execHeatReservationDone_runs ok status s
  | journalPageWrite die heat receive => exact execJournalPageWrite_runs die heat receive s
  | heatSeal die heat receive => exact execHeatSeal_runs die heat receive s
  | compactRecord die lost => exact execCompactRecord_runs die lost s
  | journalStallRelease => exact execJournalStallRelease_runs s
  | tagWalkDone die => exact execTagWalkDone_runs die s
  | ceilingCompute cause => exact execCeilingCompute_runs cause s
  | receiveHoldRelease => exact execReceiveHoldRelease_runs s
  | dryQuenchAutoStart => exact execDryQuenchAutoStart_runs s
  | dryQuenchWindowOpen => exact execDryQuenchWindowOpen_runs s
  | dryQuenchWindowClose ms => exact execDryQuenchWindowClose_runs ms s
  | dryStale => exact execDryStale_runs s
  | mainSenseTrip mv ns => exact execMainSenseTrip_runs mv ns s
  | holdSenseTrip mv ns => exact execHoldSenseTrip_runs mv ns s
  | pwrFailNTrip ns => exact execPwrFailNTrip_runs ns s
  | qnchTrigCtrlWrite value => exact execQnchTrigCtrlWrite_runs value s
  | powerShed die lowest ack => exact execPowerShed_runs die lowest ack s
  | dirtyWalkStart die bad => exact execDirtyWalkStart_runs die bad s
  | segmentProgramDone die chan nand => exact execSegmentProgramDone_runs die chan nand s
  | quenchBlockFail die chan nand plane => exact execQuenchBlockFail_runs die chan nand plane s
  | quenchNandDieFail die chan nand => exact execQuenchNandDieFail_runs die chan nand s
  | trailerProgram die => exact execTrailerProgram_runs die s
  | commitRecordProgram ms => exact execCommitRecordProgram_runs ms s
  | commitPointerProgram ok status => exact execCommitPointerProgram_runs ok status s
  | quenchEnd mainOk holdOk st => exact execQuenchEnd_runs mainOk holdOk st s
  | reheatLocate => exact execReheatLocate_runs s
  | ingotScan bad => exact execIngotScan_runs bad s
  | reheatRecordsProgram claimOk reserveOk status => exact execReheatRecordsProgram_runs claimOk reserveOk status s
  | eagerRestoreDone => exact execEagerRestoreDone_runs s
  | indexPassSegment die num seen broken => exact execIndexPassSegment_runs die num seen broken s
  | indexDeadline die => exact execIndexDeadline_runs die s
  | gatesReopen => exact execGatesReopen_runs s
  | segmentRestore gen die num auth m => exact execSegmentRestore_runs gen die num auth m s
  | ingotRelease => exact execIngotRelease_runs s
  | rhtDiscard => exact execRhtDiscard_runs s
  | forceSolo region => exact execForceSolo_runs region s
  | yield region => exact execYield_runs region s
  | reclaim region => exact execReclaim_runs region s
  | confirmSole region => exact execConfirmSole_runs region s
  | roleRecordDone region status => exact execRoleRecordDone_runs region status s
  | resyncComplete region => exact execResyncComplete_runs region s
  | promotion => exact execPromotion_runs s
  | drainWindowEnd => exact execDrainWindowEnd_runs s
  | weldHello die link version side peerDie peerLink => exact execWeldHello_runs die link version side peerDie peerLink s
  | weldHelloRetry die link => exact execWeldHelloRetry_runs die link s
  | keyRollOffer h rollId switchSeq identOk sigOk => exact execKeyRollOffer_runs h rollId switchSeq identOk sigOk s
  | keyRollAnswer h rollId switchSeq identOk sigOk => exact execKeyRollAnswer_runs h rollId switchSeq identOk sigOk s
  | keyRollAnswerTimeout die link => exact execKeyRollAnswerTimeout_runs die link s
  | keyRollCounter die link => exact execKeyRollCounter_runs die link s
  | keyRollRetry die link => exact execKeyRollRetry_runs die link s
  | keyStallEnter die link => exact execKeyStallEnter_runs die link s
  | join h heat length side regions digestOk roles => exact execJoin_runs h heat length side regions digestOk roles s
  | heartbeat h heat links pair stall => exact execHeartbeat_runs h heat links pair stall s
  | heartbeatSend die link => exact execHeartbeatSend_runs die link s
  | ackHeartbeat die link => exact execAckHeartbeat_runs die link s
  | mirrorWrite h heat firstId entries => exact execMirrorWrite_runs h heat firstId entries s
  | weldTxRoom die => exact execWeldTxRoom_runs die s
  | mirrorAck h runs => exact execMirrorAck_runs h runs s
  | heatClose h heat linkMask => exact execHeatClose_runs h heat linkMask s
  | heatAck h heat regionMask => exact execHeatAck_runs h heat regionMask s
  | quenchNoticeNotice h heat cause generation => exact execQuenchNoticeNotice_runs h heat cause generation s
  | quenchNoticeDrained h heat cause generation => exact execQuenchNoticeDrained_runs h heat cause generation s
  | quenchNoticeFinal h heat flags cause generation => exact execQuenchNoticeFinal_runs h heat flags cause generation s
  | roleClaimClaim h region epoch => exact execRoleClaimClaim_runs h region epoch s
  | roleClaimHandover h region epoch heat => exact execRoleClaimHandover_runs h region epoch heat s
  | roleClaimRefuse h region epoch => exact execRoleClaimRefuse_runs h region epoch s
  | rejoinReq h region incremental slabs => exact execRejoinReq_runs h region incremental slabs s
  | resyncData h slab kind mask heat region lines => exact execResyncData_runs h slab kind mask heat region lines s
  | fetch h slab region => exact execFetch_runs h slab region s
  | fetchData h slab mask heat region lines => exact execFetchData_runs h slab mask heat region lines s
  | fetchMiss h slab region => exact execFetchMiss_runs h slab region s
  | fetchTimeout slab => exact execFetchTimeout_runs slab s
  | weldNak die link ack => exact execWeldNak_runs die link ack s
  | linkHeartbeatLoss die link => exact execLinkHeartbeatLoss_runs die link s
  | linkElectricalLoss die link => exact execLinkElectricalLoss_runs die link s
  | weldLinkDisable die link disable => exact execWeldLinkDisable_runs die link disable s
  | weldLinkRetrain die link => exact execWeldLinkRetrain_runs die link s
  | weldKeyRollNow die link => exact execWeldKeyRollNow_runs die link s
  | nvmeLinkUp die port width rate => exact execNvmeLinkUp_runs die port width rate s
  | nsAttach ns => exact execNsAttach_runs ns s
  | nvmeAdminComplete die port ns result => exact execNvmeAdminComplete_runs die port ns result s
  | nsAdopt ns => exact execNsAdopt_runs ns s
  | nsDetach ns => exact execNsDetach_runs ns s
  | detachComplete ns => exact execDetachComplete_runs ns s
  | nvmeIoComplete slab status dnr data errorLog => exact execNvmeIoComplete_runs slab status dnr data errorLog s
  | nvmeRetry slab => exact execNvmeRetry_runs slab s
  | nvmeIoTimeout slab => exact execNvmeIoTimeout_runs slab s
  | controllerResetDone die port ok => exact execControllerResetDone_runs die port ok s
  | smartPoll die port warning used => exact execSmartPoll_runs die port warning used s
  | nvmeLinkDownTimeout die port => exact execNvmeLinkDownTimeout_runs die port s
  | chanRequest die chan req => exact execChanRequest_runs die chan req s
  | chanReadDecode die chan id beats => exact execChanReadDecode_runs die chan id beats s
  | refreshDue die chan rank => exact execRefreshDue_runs die chan rank s
  | creditRefill die chan => exact execCreditRefill_runs die chan s
  | requestUrgent die chan id => exact execRequestUrgent_runs die chan id s
  | rhWindowClear die chan rank => exact execRhWindowClear_runs die chan rank s
  | rhCooldownEnd die chan requester => exact execRhCooldownEnd_runs die chan requester s
  | rowCloseTimer die chan rank bank => exact execRowCloseTimer_runs die chan rank bank s
  | dramTempRead die chan dimm reading sensor => exact execDramTempRead_runs die chan dimm reading sensor s
  | selfRefreshIdle die chan rank => exact execSelfRefreshIdle_runs die chan rank s
  | patrolScrubRead die chan beats => exact execPatrolScrubRead_runs die chan beats s
  | caParityAlert die chan dimm failed => exact execCaParityAlert_runs die chan dimm failed s
  | alertNHigh die chan => exact execAlertNHigh_runs die chan s
  | ceRateInterval die chan => exact execCeRateInterval_runs die chan s
  | chanThaw die chan => exact execChanThaw_runs die chan s
  | chanAutoThaw die chan => exact execChanAutoThaw_runs die chan s
  | chanFreezeNow die chan => exact execChanFreezeNow_runs die chan s
  | trnStart die chan step rank => exact execTrnStart_runs die chan step rank s
  | trnAbort die chan => exact execTrnAbort_runs die chan s
  | trnCommit die chan => exact execTrnCommit_runs die chan s
  | trnRetrainNow die chan rank full => exact execTrnRetrainNow_runs die chan rank full s
  | trnAutoCycleStart die chan rank => exact execTrnAutoCycleStart_runs die chan rank s
  | trnSubstepEnd die chan => exact execTrnSubstepEnd_runs die chan s
  | trnStepEnd die chan us scans => exact execTrnStepEnd_runs die chan us scans s
  | trnGapElapsed die chan => exact execTrnGapElapsed_runs die chan s
  | trnStepTimeout die chan => exact execTrnStepTimeout_runs die chan s
  | nandAttach die chan nand look => exact execNandAttach_runs die chan nand look s
  | qflEraseIssue die chan nand => exact execQflEraseIssue_runs die chan nand s
  | qflEraseDone die chan nand failed => exact execQflEraseDone_runs die chan nand failed s
  | qflTableDeltaDone die chan => exact execQflTableDeltaDone_runs die chan s
  | qflZqCalibration die chan => exact execQflZqCalibration_runs die chan s
  | qflTableRecover die chan look => exact execQflTableRecover_runs die chan look s
  | qflFormat die chan marks => exact execQflFormat_runs die chan marks s
  | qflRead die medium => exact execQflRead_runs die medium s
  | qflReadRaw die medium => exact execQflReadRaw_runs die medium s
  | qflProgram die medium => exact execQflProgram_runs die medium s
  | qflEraseQuad die medium => exact execQflEraseQuad_runs die medium s
  | qflReadParam die medium => exact execQflReadParam_runs die medium s
  | qflGetFeature die medium => exact execQflGetFeature_runs die medium s
  | qflBlankCheck die medium => exact execQflBlankCheck_runs die medium s
  | qflUnknownOpcode die => exact execQflUnknownOpcode_runs die s
  | qflOpFail die chan nand quad plane program => exact execQflOpFail_runs die chan nand quad plane program s
  | nandStatusTimeout die chan nand => exact execNandStatusTimeout_runs die chan nand s
  | stringSample strings => exact execStringSample_runs strings s
  | fullAnchor n => exact execFullAnchor_runs n s
  | faultClear n fault => exact execFaultClear_runs n fault s
  | calStepStart => exact execCalStepStart_runs s
  | calStepEnd v1 i1 v2 i2 v3 i3 => exact execCalStepEnd_runs v1 i1 v2 i2 v3 i3 s
  | learnCheck => exact execLearnCheck_runs s
  | learnTimeout n => exact execLearnTimeout_runs n s
  | learnRepend n => exact execLearnRepend_runs n s
  | learnPeriod n => exact execLearnPeriod_runs n s
  | authResponse n failed => exact execAuthResponse_runs n failed s
  | authRetry n => exact execAuthRetry_runs n s
  | authPeriodic n => exact execAuthPeriodic_runs n s
  | serialPoll answers => exact execSerialPoll_runs answers s
  | lvRecordWrite failed status => exact execLvRecordWrite_runs failed status s
  | aonSenseLow mv ns => exact execAonSenseLow_runs mv ns s
  | aonSenseRise mv => exact execAonSenseRise_runs mv s
  | bellStrForceIsolate n value => exact execBellStrForceIsolate_runs n value s
  | bellStrLearn n => exact execBellStrLearn_runs n s
  | bellStrCancel n => exact execBellStrCancel_runs n s
  | bellStrReauth n => exact execBellStrReauth_runs n s
  | bellowsPor st => exact execBellowsPor_runs st s
  | tmpRead q medium => exact execTmpRead_runs q medium s
  | tmpProgram q data => exact execTmpProgram_runs q data s
  | tmpProgramAnd q data => exact execTmpProgramAnd_runs q data s
  | tmpEraseSector q => exact execTmpEraseSector_runs q s
  | tmpBlankCheck q => exact execTmpBlankCheck_runs q s
  | tmpMarginRead q diffs => exact execTmpMarginRead_runs q diffs s
  | tmpUnknownOpcode q => exact execTmpUnknownOpcode_runs q s
  | tmpOpDone q fail => exact execTmpOpDone_runs q fail s
  | tmpScrub sector spare uncorrectable => exact execTmpScrub_runs sector spare uncorrectable s
  | tmpPatrolRead corrected uncorrectable => exact execTmpPatrolRead_runs corrected uncorrectable s
  | poolAlloc die r srcDie cls noFallback => exact execPoolAlloc_runs die r srcDie cls noFallback s
  | poolAllocFallback die => exact execPoolAllocFallback_runs die s
  | poolFree r srcDie handle => exact execPoolFree_runs r srcDie handle s
  | poolShare r srcDie handle => exact execPoolShare_runs r srcDie handle s
  | poolRelease r srcDie handle => exact execPoolRelease_runs r srcDie handle s
  | poolHandoff r srcDie handle newReq newDie => exact execPoolHandoff_runs r srcDie handle newReq newDie s
  | poolCmdUnsupported die op => exact execPoolCmdUnsupported_runs die op s
  | poolQuarantineRelease die mask => exact execPoolQuarantineRelease_runs die mask s
  | eventRaise ev source payload => exact execEventRaise_runs ev source payload s
  | leafProgramDone => exact execLeafProgramDone_runs s
  | tokenRefill code => exact execTokenRefill_runs code s
  | seqReservationDone ok => exact execSeqReservationDone_runs ok s
  | leafClearErase leaf => exact execLeafClearErase_runs leaf s
  | evtWinSeqWrite hearth seq => exact execEvtWinSeqWrite_runs hearth seq s
  | evtWinNext hearth => exact execEvtWinNext_runs hearth s
  | spdmGetVersion t => exact execSpdmGetVersion_runs t s
  | spdmGetCapabilities t => exact execSpdmGetCapabilities_runs t s
  | spdmNegotiateAlgorithms t => exact execSpdmNegotiateAlgorithms_runs t s
  | spdmGetDigests t => exact execSpdmGetDigests_runs t s
  | spdmGetCertificate t slot off len => exact execSpdmGetCertificate_runs t slot off len s
  | spdmChallenge t slot nonce => exact execSpdmChallenge_runs t slot nonce s
  | spdmGetMeasurements t nonce => exact execSpdmGetMeasurements_runs t nonce s
  | spdmKeyExchange t ownerKey => exact execSpdmKeyExchange_runs t ownerKey s
  | spdmFinish t session signatureOk => exact execSpdmFinish_runs t session signatureOk s
  | spdmEndSession t session => exact execSpdmEndSession_runs t session s
  | spdmUnsupported t => exact execSpdmUnsupported_runs t s
  | ideKmQuery session die port => exact execIdeKmQuery_runs session die port s
  | ideKmKeyProg session die port stream set sub key => exact execIdeKmKeyProg_runs session die port stream set sub key s
  | ideKmKSetGo session die port stream set => exact execIdeKmKSetGo_runs session die port stream set s
  | ideKmKSetStop session die port stream => exact execIdeKmKSetStop_runs session die port stream s
  | ideKmGetkey session die port => exact execIdeKmGetkey_runs session die port s
  | cipherJobStart die slot group stream unwrapOk => exact execCipherJobStart_runs die slot group stream unwrapOk s
  | cipherJobEnd job => exact execCipherJobEnd_runs job s
  | drbgHealthFail test => exact execDrbgHealthFail_runs test s
  | tamperNAlarm ns st => exact execTamperNAlarm_runs ns st s
  | shieldMeshAlarm st => exact execShieldMeshAlarm_runs st s
  | voltageAlarm rail mv ns st => exact execVoltageAlarm_runs rail mv ns st s
  | clockAlarm offPct cycles st => exact execClockAlarm_runs offPct cycles st s
  | temperatureAlarm tj st => exact execTemperatureAlarm_runs tj st s
  | keyReload => exact execKeyReload_runs s
  | reserveRetry ok status => exact execReserveRetry_runs ok status s
  | ownerKeyBurn key => exact execOwnerKeyBurn_runs key s
  | resetNAssert lowNs st => exact execResetNAssert_runs lowNs st s
  | resetNRelease st => exact execResetNRelease_runs st s
  | nqWindowExpire => exact execNqWindowExpire_runs s
  | resetProceed st => exact execResetProceed_runs st s
  | startupRomVerify failA failB => exact execStartupRomVerify_runs failA failB s
  | startupChecks differs tripping => exact execStartupChecks_runs differs tripping s
  | swageLoad signatureA signatureB bank => exact execSwageLoad_runs signatureA signatureB bank s
  | fenceWireTest failed => exact execFenceWireTest_runs failed s
  | diePowerEnable die => exact execDiePowerEnable_runs die s
  | diePgAssert die bist => exact execDiePgAssert_runs die bist s
  | diePgTimeout die => exact execDiePgTimeout_runs die s
  | diePgFall die ns => exact execDiePgFall_runs die ns s
  | spdPopulationCheck chans => exact execSpdPopulationCheck_runs chans s
  | initialTrainingDone failed repairs => exact execInitialTrainingDone_runs failed repairs s
  | tagStoreInit => exact execTagStoreInit_runs s
  | romGetFwInfo => exact execRomGetFwInfo_runs s
  | romTransferFw slot revision verifies => exact execRomTransferFw_runs slot revision verifies s
  | romActivateFw slot => exact execRomActivateFw_runs slot s
  | romResetRequest st => exact execRomResetRequest_runs st s
  | swgCheckA => exact execSwgCheckA_runs s
  | swgCheckB => exact execSwgCheckB_runs s
  | swgCheckDone signatureOk bank => exact execSwgCheckDone_runs signatureOk bank s
  | svcSliceSpare die slice => exact execSvcSliceSpare_runs die slice s
  | svcQuadSpare die quad => exact execSvcQuadSpare_runs die quad s
  | svcRankSpare die target => exact execSvcRankSpare_runs die target s
  | svcSmithSwitch die => exact execSvcSmithSwitch_runs die s
  | svcCmdUnsupported die op target => exact execSvcCmdUnsupported_runs die op target s
  | sliceParityError die slice => exact execSliceParityError_runs die slice s
  | sliceProgressTimeout die slice => exact execSliceProgressTimeout_runs die slice s
  | quadTrainFailure die quad => exact execQuadTrainFailure_runs die quad s
  | smithWatchdog die => exact execSmithWatchdog_runs die s
  | smithMemoryUe die => exact execSmithMemoryUe_runs die s
  | rankCopyDone die chan => exact execRankCopyDone_runs die chan s
  | vddControl die lowest island ack => exact execVddControl_runs die lowest island ack s
  | lifeTick die tj => exact execLifeTick_runs die tj s
  | lifeRecord => exact execLifeRecord_runs s
  | hcbCmdGo bar2 hearth count op discard => exact execHcbCmdGo_runs bar2 hearth count op discard s
  | bar2BadAccess die port write offset width => exact execBar2BadAccess_runs die port write offset width s
  | registerWrite bar2 offset width value => exact execRegisterWrite_runs bar2 offset width value s
  | vddAonFall group => exact execVddAonFall_runs group s
  | weldLinkTrained die link width rate spareQuad => exact execWeldLinkTrained_runs die link width rate spareQuad s
  | chanCommandIssue die chan illegal maintenance pressure => exact execChanCommandIssue_runs die chan illegal maintenance pressure s
  | mirrorAckBatchTimer die => exact execMirrorAckBatchTimer_runs die s
  | nvmeLinkDown die port => exact execNvmeLinkDown_runs die port s
  | nvmeControllerFatal die port => exact execNvmeControllerFatal_runs die port s
  | nvmeControllerReady die port ready cssOk pageOk => exact execNvmeControllerReady_runs die port ready cssOk pageOk s
  | nvmeAttachLinkTimeout die port => exact execNvmeAttachLinkTimeout_runs die port s
  | initiateDcAdd regionStart regionSize block host start size => exact execInitiateDcAdd_runs regionStart regionSize block host start size s
  | gfamAccessTableSet die port spid enable => exact execGfamAccessTableSet_runs die port spid enable s
  | quenchNandDieReady die chan nand => exact execQuenchNandDieReady_runs die chan nand s
  | drbgHealthPass => exact execDrbgHealthPass_runs s

/-! ### Steps -/

/-- Every step answers a next state, one command shorter, that follows from the state before it. -/
theorem step_cases (s : State) : ∃ t, step s = .next t ∧ t.pending = s.pending.tail ∧ s.dev.Leads t.dev := by
  obtain ⟨d, q⟩ := s
  cases q with
  | nil => exact ⟨_, rfl, rfl, Dev.idle_leads (Dev.Leads.refl d)⟩
  | cons c q => exact exec_runs c ⟨d, q⟩

theorem step_next {s t : State} (h : step s = .next t) : t.pending = s.pending.tail ∧ s.dev.Leads t.dev := by
  obtain ⟨u, hu, hp, hl⟩ := step_cases s
  cases h.symm.trans hu
  exact ⟨hp, hl⟩

theorem Dev.Leads.sound {a b : Dev} (h : a.Leads b) (ha : a.Sound) : b.Sound := ⟨h.mem ha.mem, h.regs ha.regs⟩

/-- Settles O50, from what each command does (exec_runs) and the idle step. -/
theorem stepLeads : Obligations.StepLeads :=
  fun _ _ h => (step_next h).2

/-- Settles O51: soundness is the two parts of Leads that speak of one block. -/
theorem stepKeepsSound : Obligations.StepKeepsSound :=
  fun _ _ hs h => (step_next h).2.sound hs

/-- Settles O48. -/
theorem noCommandStops : Obligations.NoCommandStops := by
  intro c s
  obtain ⟨t, ht, hp, -⟩ := exec_runs c s
  exact ⟨t, ht, hp⟩

/-- Settles O49: the tail of a well-formed queue is well formed. -/
theorem queueInOrder : Obligations.QueueInOrder := by
  intro s t h
  obtain ⟨hp, -⟩ := step_next h
  refine ⟨hp, fun hw => ?_⟩
  simp only [State.queueWf, List.all_eq_true, hp] at hw ⊢
  exact fun c hc => hw c (List.mem_of_mem_tail hc)

/-- Settles O46: the step's own equation at a queue that is not empty. -/
theorem stepRunsFront : Obligations.StepRunsFront :=
  fun _ _ _ => rfl

/-- Settles O47: the step's own equation at an empty queue (Dev.idle). -/
theorem idleStepMovesTime : Obligations.IdleStepMovesTime :=
  fun _ => rfl

end Sys2Proof.Machine
end

section
/-! PROOFS. The register map: a field has one row, the block after reset, and what a write of the map leaves (R8, R65, R584, R594). -/

namespace Sys2Proof.Machine

open Sys2Proof

/-! ### The register tables -/

/-- A register's table lists fields of the register. -/
theorem Reg.reg_of_mem_rows {r : Reg} {x : FieldRow} (h : x ∈ r.rows) : x.fld.reg = r := by
  cases r <;> exact of_decide_eq_true (List.mem_filter.1 h).2

theorem Reg.rows_fld_nodup (r : Reg) : (r.rows.map (·.fld)).Nodup := by
  cases r <;> decide +kernel

/-- A field has one row in the register map. -/
theorem FieldRow.eq_of_fld_eq {r s : Reg} {x y : FieldRow} (hx : x ∈ r.rows) (hy : y ∈ s.rows) (h : x.fld = y.fld) : x = y := by
  have hrs : r = s := by rw [← Reg.reg_of_mem_rows hx, ← Reg.reg_of_mem_rows hy, h]
  subst hrs
  exact List.inj_on_of_nodup_map r.rows_fld_nodup hx hy h

/-- The reset value of a field is its row's. -/
theorem FieldRow.resetValue_fld {r : Reg} {x : FieldRow} (hx : x ∈ r.rows) : x.fld.resetValue = x.reset := by
  have hreg : x.fld.reg = r := Reg.reg_of_mem_rows hx
  cases hy : r.rows.find? (fun y => decide (y.fld = x.fld)) with
  | none => simpa using List.find?_eq_none.1 hy x hx
  | some y =>
    have hfld : y.fld = x.fld := by simpa using List.find?_some hy
    have hyx : y = x := FieldRow.eq_of_fld_eq (List.mem_of_find?_eq_some hy) hx hfld
    rw [Fld.resetValue, hreg, hy, hyx, Option.map_some, Option.getD_some]

/-- Settles O52: the block after reset lists no register field, so that each reads its row's reset value. -/
theorem resetIsSound : Obligations.ResetIsSound := by
  have hregs : State.reset.dev.regs = [] := rfl
  refine ⟨⟨rfl, ?_⟩, rfl, fun _ => rfl, rfl, rfl, rfl, fun r x hx a b c => ?_, fun _ _ => ⟨rfl, rfl⟩, rfl, rfl, fun _ _ => rfl⟩
  · simp [regsFit, hregs]
  · rw [Dev.f, hregs, tgetD, tget_nil, Option.getD_none, FieldRow.resetValue_fld hx]

/-! ### A write to the register map (R8, R584) -/

/-- A row that no write of the register map changes: read-only, write-only, or sealed (R8, R65). -/
def FieldRow.keeps (x : FieldRow) (isSealed : Bool) : Prop :=
  x.access = .RO ∨ x.access = .WO ∨ x.access = .RWL ∧ isSealed = true

/-- What a register write leaves of a block: all but registers, and of these the rows that a write keeps. -/
structure Dev.RegsOnly (d e : Dev) : Prop where
  frame : { e with regs := d.regs } = d
  kept : ∀ (r : Reg) (x : FieldRow), x ∈ r.rows → x.fld ≠ ROOT_RWL_IGNORED.COUNT → x.keeps d.swg.sealed →
    ∀ a b c : Nat, e.f x.fld a b c = d.f x.fld a b c

theorem Dev.RegsOnly.refl (d : Dev) : d.RegsOnly d := ⟨rfl, fun _ _ _ _ _ _ _ _ => rfl⟩

theorem Dev.RegsOnly.swg {d e : Dev} (h : d.RegsOnly e) : e.swg = d.swg :=
  show ({ e with regs := d.regs } : Dev).swg = d.swg by rw [h.frame]

theorem Dev.RegsOnly.trans {d e g : Dev} (h : d.RegsOnly e) (k : e.RegsOnly g) : d.RegsOnly g := by
  refine ⟨?_, fun r x hx hne hkeep a b c => ?_⟩
  · have hdg : ({ g with regs := d.regs } : Dev) = { e with regs := d.regs } := congrArg (fun z : Dev => { z with regs := d.regs }) k.frame
    exact hdg.trans h.frame
  · rw [k.kept r x hx hne (h.swg ▸ hkeep), h.kept r x hx hne hkeep]

/-- A field that no kept row describes may be written. -/
theorem Dev.RegsOnly.setF (d : Dev) (F : Fld) (v a b c : Nat)
    (h : ∀ (r : Reg) (x : FieldRow), x ∈ r.rows → x.fld = F → x.fld ≠ ROOT_RWL_IGNORED.COUNT → ¬ x.keeps d.swg.sealed) :
    d.RegsOnly (d.setF F v a b c) :=
  ⟨rfl, fun r x hx hne hkeep _ _ _ => d.f_setF_fld (fun hF => h r x hx hF.symm hne hkeep) v _ _ _ _ _ _⟩

theorem Dev.RegsOnly.forEach {α : Type} {f : Dev → α → Dev} (hf : ∀ (d : Dev) (x : α), d.RegsOnly (f d x)) (l : List α) (d : Dev) :
    d.RegsOnly (d.forEach l f) := by
  induction l generalizing d with
  | nil => exact .refl d
  | cons x l ih => exact (hf d x).trans (ih (f d x))

/-- A field's row decides what a write of the field does (R8). -/
theorem Dev.writeField_regsOnly (d : Dev) {r : Reg} {x : FieldRow} (hx : x ∈ r.rows) (mask v a b c : Nat) :
    d.RegsOnly (d.writeField x mask v a b c).1 := by
  have hset : ¬ x.keeps d.swg.sealed → ∀ n, d.RegsOnly (d.setF x.fld n a b c) := fun hkeep n =>
    .setF d x.fld n a b c fun s y hy hfld _ hk => hkeep (FieldRow.eq_of_fld_eq hy hx hfld ▸ hk)
  have hopen : ¬ x.keeps d.swg.sealed → ∀ n, d.RegsOnly (if d.fieldTakes x n a b c then d.setF x.fld n a b c else d) := by
    intro hkeep n
    split
    · exact hset hkeep n
    · exact .refl d
  cases hacc : x.access with
  | RO | WO => simpa [Dev.writeField, hacc] using Dev.RegsOnly.refl d
  | W1C => simpa [Dev.writeField, hacc] using hset (by simp [FieldRow.keeps, hacc]) _
  | RW | RWS => simpa [Dev.writeField, hacc] using hopen (by simp [FieldRow.keeps, hacc]) _
  | RWL =>
    cases hs : d.swg.sealed with
    | true => simpa [Dev.writeField, hacc, hs] using Dev.RegsOnly.refl d
    | false => simpa [Dev.writeField, hacc, hs] using hopen (by simp [FieldRow.keeps, hacc, hs]) _

/-- Each row of the register is written, or left; a sealed one raises the count of ignored writes alone (R594). -/
theorem Dev.writeHit_regsOnly (d : Dev) (bar2 : Bool) (a rel width value : Nat) (h : RegHit) :
    d.RegsOnly (d.writeHit bar2 a rel width value h) := by
  unfold Dev.writeHit
  dsimp only
  have hrows : ∀ f : Dev × Bool → FieldRow → Dev × Bool, (∀ (y : Dev × Bool), ∀ x ∈ h.place.reg.rows, y.1.RegsOnly (f y x).1) →
      d.RegsOnly (h.place.reg.rows.foldl f (d, false)).1 := fun f hf =>
    List.foldlRecOn (motive := fun y : Dev × Bool => d.RegsOnly y.1) _ f (.refl d) fun y hy x hx => hy.trans (hf y x hx)
  have hcount : ∀ (e : Dev) (locked : Bool), e.RegsOnly (e.when locked (·.incF ROOT_RWL_IGNORED.COUNT)) := by
    intro e locked
    cases locked with
    | false => exact .refl e
    | true => exact .setF e _ _ _ _ _ fun _ x _ hfld hne _ => hne hfld
  refine (hrows _ fun y x hx => ?_).trans (hcount _ _)
  split
  · exact .refl y.1
  · exact y.1.writeField_regsOnly hx _ _ _ _ _

theorem Dev.writeReg_regsOnly (d : Dev) (bar2 : Bool) (offset width value : Nat) : d.RegsOnly (d.writeReg bar2 offset width value) := by
  unfold Dev.writeReg
  split
  · exact .refl d
  · split
    · exact .refl d
    · split
      · exact .forEach (fun d h => d.writeHit_regsOnly bar2 _ _ width value h) _ d
      · exact .refl d

/-- Settles O54: a write is a list of field writes, and each leaves the rows that its access types keep. -/
theorem registerWritesKeepReadOnly : Obligations.RegisterWritesKeepReadOnly := fun d bar2 offset width value =>
  have h := d.writeReg_regsOnly bar2 offset width value
  ⟨d.writeReg bar2 offset width value, fun _ => rfl, h.frame, h.kept⟩

end Sys2Proof.Machine
end

section
/-! PROOFS. What is read back of what was written: the medium of the Temper store, the bytes of an event record, and heat numbers on a Weld link. -/

namespace Sys2Proof.Machine

open Sys2Proof

/-! ### The medium of the Temper store (R465, R475) -/

theorem memGet_eq_of_mem {m : List Host.Cell} (h : m.Pairwise (fun x y => x.1 < y.1)) {a : Nat} {v : Byte} (hav : (a, v) ∈ m) :
    memGet m a = v := by
  induction m with
  | nil => cases hav
  | cons e m ih =>
    obtain ⟨hrise, htail⟩ := List.pairwise_cons.1 h
    rcases List.mem_cons.1 hav with rfl | hin
    · simp [memGet]
    · rw [memGet, if_neg (Nat.ne_of_lt (hrise _ hin)), ih htail hin]

theorem mem_of_memGet {m : List Host.Cell} {a : Nat} (h : memGet m a ≠ erasedByte) : (a, memGet m a) ∈ m := by
  induction m with
  | nil => exact absurd rfl h
  | cons e m ih =>
    obtain ⟨b, w⟩ := e
    by_cases hb : b = a
    · simp [memGet, hb]
    · rw [memGet, if_neg hb] at h ⊢
      exact List.mem_cons_of_mem _ (ih h)

/-- A medium in its canonical form lists the bytes that do not read erased. -/
theorem mem_iff_memGet {m : List Host.Cell} (h : Memory.wf m = true) (a : Nat) (v : Byte) :
    (a, v) ∈ m ↔ memGet m a = v ∧ v ≠ erasedByte := by
  obtain ⟨hheld, hrise⟩ := (Memory.wf_iff m).1 h
  constructor
  · exact fun hav => ⟨memGet_eq_of_mem hrise hav, hheld _ hav⟩
  · rintro ⟨rfl, hne⟩
    exact mem_of_memGet hne

/-- Two media in the canonical form that read alike list the same bytes, and both in the order of the addresses. -/
theorem Memory.ext_memGet {m n : List Host.Cell} (hm : Memory.wf m = true) (hn : Memory.wf n = true)
    (h : ∀ a, memGet m a = memGet n a) : m = n := by
  have hmem : ∀ c, c ∈ m ↔ c ∈ n := fun ⟨a, v⟩ => by rw [mem_iff_memGet hm, mem_iff_memGet hn, h]
  have hpm := ((Memory.wf_iff m).1 hm).2
  have hpn := ((Memory.wf_iff n).1 hn).2
  have hnodup : ∀ {l : List Host.Cell}, l.Pairwise (fun x y => x.1 < y.1) → l.Nodup :=
    fun hl => hl.imp fun hlt heq => Nat.ne_of_lt hlt (congrArg Prod.fst heq)
  have hperm : m.Perm n := (List.perm_ext_iff_of_nodup (hnodup hpm) (hnodup hpn)).2 hmem
  exact hperm.eq_of_pairwise (fun _ _ _ _ hxy hyx => absurd hxy (Nat.lt_asymm hyx)) hpm hpn

/-- Settles O53, from the reads after a write and after an erase (Laws) and the canonical form. -/
theorem mediumReadsBack : Obligations.MediumReadsBack := by
  intro m hm
  refine ⟨fun a b v => ⟨memSet_wf a v hm, ?_⟩, fun a n b => ⟨memErase_wf a n hm, memGet_memErase a n b⟩, fun n hn h => Memory.ext_memGet hm hn h⟩
  rw [memGet_memSet a v b hm]
  simp only [eq_comm]

/-! ### Bytes in order (R7) -/

@[simp] theorem length_leBytes (n v : Nat) : (leBytes n v).length = n := by
  induction n generalizing v with
  | zero => rfl
  | succ n ih => simp [leBytes, ih]

theorem leValue_leBytes {n v : Nat} (h : v < 256 ^ n) : leValue (leBytes n v) = v := by
  induction n generalizing v with
  | zero => simp_all [leBytes, leValue]
  | succ n ih =>
    have hdiv : v / 256 < 256 ^ n := Nat.div_lt_of_lt_mul (by rwa [pow_succ, Nat.mul_comm] at h)
    simp only [leBytes, leValue, ih hdiv, BitVec.toNat_ofNat]
    omega

theorem padTo_of_length {n : Nat} {bs : List Byte} (h : bs.length = n) : padTo n bs = bs := by
  simp [padTo, ← h]

theorem crc32_lt (bs : List Byte) : crc32 bs < 2 ^ 32 := BitVec.isLt _

theorem leAt_leBytes {n v : Nat} (h : v < 256 ^ n) (ys : List Byte) : leAt (leBytes n v ++ ys) 0 n = v := by
  rw [leAt, List.drop_zero, List.take_left' (length_leBytes n v), leValue_leBytes h]

theorem leAt_skip {xs ys : List Byte} {off size : Nat} (h : xs.length ≤ off) : leAt (xs ++ ys) off size = leAt ys (off - xs.length) size := by
  rw [leAt, leAt, List.drop_append, List.drop_eq_nil_of_le h, List.nil_append]

/-! ### The bytes of an event record (R505, R506) -/

/-- The byte at offset 11: the severity and the three flags. -/
def EvRec.flags (r : EvRec) : Nat := r.severity + 16 * b2n r.quench + 32 * b2n r.truncated + 64 * b2n r.replayed

/-- The twelve bytes in front of CHECK. -/
def EvRec.head (r : EvRec) : List Byte := leBytes 8 r.seq ++ leBytes 2 r.code ++ leBytes 1 r.source ++ leBytes 1 r.flags

/-- The value of CHECK: a CRC-32 of the record with CHECK at 0. -/
def EvRec.check (r : EvRec) : Nat := crc32 (r.head ++ leBytes 4 0 ++ r.payload)

theorem EvRec.length_head (r : EvRec) : r.head.length = 12 := by simp [EvRec.head]

theorem EvRec.bytes_eq (r : EvRec) (h : r.payload.length = 16) : r.bytes = r.head ++ (leBytes 4 r.check ++ r.payload) := by
  simp only [EvRec.bytes, padTo_of_length h, EvRec.check, EvRec.head, EvRec.flags, List.append_assoc]

theorem EvRec.flags_lt (r : EvRec) (h : r.severity < 16) : r.flags < 256 := by
  cases hq : r.quench <;> cases ht : r.truncated <;> cases hr : r.replayed <;> simp [EvRec.flags, b2n, hq, ht, hr] <;> omega

/-- The severity and the flags read back from their byte. -/
theorem EvRec.flags_readBack (r : EvRec) (h : r.severity < 16) : bits r.flags 0 4 = r.severity ∧ bit r.flags 4 = r.quench ∧
    bit r.flags 5 = r.truncated ∧ bit r.flags 6 = r.replayed := by
  simp only [bits, bit, Nat.testBit_eq_decide_div_mod_eq, Nat.shiftRight_zero]
  cases hq : r.quench <;> cases ht : r.truncated <;> cases hr : r.replayed <;> simp [EvRec.flags, b2n, hq, ht, hr] <;> omega

/-- Each item of the record reads back at its offset. -/
theorem EvRec.leAt_bytes (r : EvRec) (hseq : r.seq < 2 ^ 64) (hcode : r.code < 2 ^ 16) (hsource : r.source < 256) (hsev : r.severity < 16)
    (hpay : r.payload.length = 16) : leAt r.bytes 0 8 = r.seq ∧ leAt r.bytes 8 2 = r.code ∧ leAt r.bytes 10 1 = r.source ∧
      leAt r.bytes 11 1 = r.flags ∧ leAt r.bytes 12 4 = r.check := by
  have hflags := r.flags_lt hsev
  have hcheck : r.check < 2 ^ 32 := crc32_lt _
  simp only [r.bytes_eq hpay, EvRec.head, List.append_assoc]
  refine ⟨leAt_leBytes hseq _, ?_, ?_, ?_, ?_⟩
  · simpa [leAt_skip] using leAt_leBytes hcode _
  · simpa [leAt_skip] using leAt_leBytes (n := 1) hsource _
  · simpa [leAt_skip] using leAt_leBytes (n := 1) hflags _
  · simpa [leAt_skip] using leAt_leBytes hcheck _

/-- Settles O59: the items read back at their offsets, and so the record that the bytes hold passes CHECK and is the record. -/
theorem recordsReadBack : Obligations.RecordsReadBack := by
  intro r hseq hcode hsource hsev hpay
  have hbytes := r.bytes_eq hpay
  have htake : r.bytes.take 12 = r.head := by rw [hbytes, List.take_left' r.length_head]
  have hdrop : r.bytes.drop 16 = r.payload := by rw [hbytes, ← List.append_assoc, List.drop_left' (by simp [r.length_head])]
  obtain ⟨hseq', hcode', hsource', hflags', hcheck'⟩ := r.leAt_bytes hseq hcode hsource hsev hpay
  obtain ⟨hsev', hquench, htrunc, hreplay⟩ := r.flags_readBack hsev
  refine ⟨by simp [hbytes, r.length_head, hpay], ?_⟩
  simp only [recOfBytes, htake, hdrop, hseq', hcode', hsource', hflags', hcheck', hsev', hquench, htrunc, hreplay, EvRec.check, if_true]

/-! ### Heat numbers on the Weld link (R183) -/

/-- Settles O55: the difference of the carried number and the open heat, modulo 2^32, is x. -/
theorem heatNumbersExtend : Obligations.HeatNumbersExtend := by
  have hext : ∀ (d : Dev) (w x : Nat), x < 2 ^ 32 → (d.openHeat + x) % 2 ^ 32 = w →
      d.extend w = if x < 2 ^ 31 then some (d.openHeat + x) else if x = 2 ^ 31 then none else some (d.openHeat - (2 ^ 32 - x)) := by
    intro d w x hx hw
    have hdiff : (w % 2 ^ 32 + 2 ^ 32 - d.openHeat % 2 ^ 32) % 2 ^ 32 = x := by omega
    rw [Dev.extend, hdiff]
  refine ⟨fun d w x hx hw => ?_, fun d h hhi hlo => ?_⟩
  · rw [hext d w x hx hw]
    exact ⟨fun hlt => if_pos hlt, fun hgt _ => by rw [if_neg (by omega), if_neg (by omega)], fun heq => by rw [if_neg (by omega), if_pos heq]⟩
  · rcases Nat.lt_or_ge h d.openHeat with hlt | hge
    · rw [hext d _ (2 ^ 32 - (d.openHeat - h)) (by omega) (by omega), if_neg (by omega), if_neg (by omega)]
      congr 1
      omega
    · rw [hext d _ (h - d.openHeat) (by omega) (by omega), if_pos (by omega), Nat.add_sub_cancel' hge]

end Sys2Proof.Machine
end

section
/-! PROOFS. How a statement that a command takes the block to a next state is proved: the command's meaning is a change of the block, whose guards
the clause's hypotheses decide; and the turn and the checks of a mailbox command. -/

namespace Sys2Proof.Machine

open Sys2Proof

/-- A command's effect on the block, read off its meaning, is all that there is to say of it. -/
theorem Dev.takes_of_eq {d e : Dev} {i : Instr} {g : List Instr → Dev} (hi : ∀ q, exec i ⟨d, q⟩ = .next ⟨g q, q⟩) (h : ∀ q, g q = e) :
    d.Takes i e :=
  fun q => (hi q).trans (by rw [h])

theorem Dev.f_setB_fld (d : Dev) {F G : Fld} (h : F ≠ G) (v : Bool) (i j k a b c : Nat) : (d.setB F v i j k).f G a b c = d.f G a b c :=
  d.f_setF_fld h _ _ _ _ _ _ _

theorem Dev.f_addF_fld (d : Dev) {F G : Fld} (h : F ≠ G) (n i j k a b c : Nat) : (d.addF F n i j k).f G a b c = d.f G a b c :=
  d.f_setF_fld h _ _ _ _ _ _ _

theorem Dev.fb_setB_fld (d : Dev) {F G : Fld} (h : F ≠ G) (v : Bool) (i j k a b c : Nat) : (d.setB F v i j k).fb G a b c = d.fb G a b c := by
  simp only [Dev.fb, d.f_setB_fld h]

theorem b2n_false : b2n false = 0 := rfl

theorem b2n_true : b2n true = 1 := rfl

/-! ### Mailbox commands (R100 to R105) -/

theorem Dev.ring_of_turn {d x : Dev} (h : d.mbTurn x) (i : Instr) : d.ring i = x.mbDo i := by
  obtain ⟨rfl, hrunning⟩ := h
  simp [Dev.ring, hrunning]

theorem Dev.ring_of_running {d x : Dev} (hx : x = Dev.mbDrain d.mbox.held.length d) (hrunning : x.mbox.running.isSome = true) (i : Instr) :
    d.ring i = x.setMbox fun m => { m with held := m.held ++ [i] } := by
  subst hx
  simp [Dev.ring, hrunning]

/-- The checks of R100, R105 and R106 let a command through to its authority. -/
theorem Dev.mbRun_of_passes {x : Dev} {mb : Mb} {c : MbSpec} (h : x.mbPasses mb c) (f : Dev → Dev) :
    x.mbRun mb c f = if c.mgmt then f (x.useAuth mb.auth) else f x := by
  obtain ⟨hready, hpkg, hlimit, hlo, hhi, hauth⟩ := h
  have hscope : (c.pkg && !pathPackage mb.path) = false := by cases hc : c.pkg <;> simp_all
  have hsize : ¬ (pathLimit mb.path < mb.size ∨ mb.size < c.lo ∨ c.hi < mb.size) := by omega
  cases hm : c.mgmt with
  | false => simp [Dev.mbRun, hready, hscope, hsize, hm]
  | true => simp [Dev.mbRun, hready, hscope, hsize, hm, hauth hm]

/-- A command whose turn it is does what the command processor makes of it on the block as its turn finds it. -/
theorem Dev.takes_of_run {d x e : Dev} {i : Instr} {mb : Mb} {c : MbSpec} {f : Dev → Dev} (hturn : d.mbTurn x)
    (hi : ∀ q, exec i ⟨d, q⟩ = .next ⟨d.ring i, q⟩) (hdo : x.mbDo i = x.mbRun mb c f) (h : x.mbRun mb c f = e) : d.Takes i e :=
  Dev.takes_of_eq hi fun _ => ((Dev.ring_of_turn hturn i).trans hdo).trans h

/-- An open command that passes its checks has its effect. -/
theorem Dev.takes_open {d x e : Dev} {i : Instr} {mb : Mb} {c : MbSpec} {f : Dev → Dev} (hturn : d.mbTurn x) (hpasses : x.mbPasses mb c)
    (hi : ∀ q, exec i ⟨d, q⟩ = .next ⟨d.ring i, q⟩) (hdo : x.mbDo i = x.mbRun mb c f) (hopen : c.mgmt = false) (h : f x = e) :
    d.Takes i e :=
  Dev.takes_of_run hturn hi hdo (by rw [Dev.mbRun_of_passes hpasses, hopen, if_neg (by decide), h])

/-- A management command that passes its checks uses up its token before its effect (R104). -/
theorem Dev.takes_mgmt {d x e : Dev} {i : Instr} {mb : Mb} {c : MbSpec} {f : Dev → Dev} (hturn : d.mbTurn x) (hpasses : x.mbPasses mb c)
    (hi : ∀ q, exec i ⟨d, q⟩ = .next ⟨d.ring i, q⟩) (hdo : x.mbDo i = x.mbRun mb c f) (hmgmt : c.mgmt = true)
    (h : f (x.useAuth mb.auth) = e) : d.Takes i e :=
  Dev.takes_of_run hturn hi hdo (by rw [Dev.mbRun_of_passes hpasses, hmgmt, if_pos rfl, h])

end Sys2Proof.Machine
end

section
/-! PROOFS. Buffer pools, the Temper store, the event recorder and the Swage checks: what the commands do. -/

namespace Sys2Proof.Machine

open Sys2Proof

/-! ### Buffer pools (R494 to R502) -/

theorem Dev.poolDone_of_ne {r : Nat} (h : r ≠ 30) (d : Dev) (die srcDie : Nat) (st : Status) (handle : Nat) :
    d.poolDone die r srcDie st handle = d.emit (.poolResult die r srcDie st handle) := by
  simp [Dev.poolDone, h]

section
variable (d : Dev) (die c r a b : Nat)
@[simp] theorem Dev.arbiterPast_quarantined : (d.arbiterPast die c r).quarantined a b = d.quarantined a b := rfl
@[simp] theorem Dev.arbiterPast_held : (d.arbiterPast die c r).held a b = d.held a b := rfl
@[simp] theorem Dev.arbiterPast_quota : (d.arbiterPast die c r).quota a b = d.quota a b := rfl
@[simp] theorem Dev.arbiterPast_reserve : (d.arbiterPast die c r).reserve a b = d.reserve a b := rfl
@[simp] theorem Dev.arbiterPast_freeBufs : (d.arbiterPast die c r).freeBufs a b = d.freeBufs a b := rfl
@[simp] theorem Dev.arbiterPast_lowestFree : (d.arbiterPast die c r).lowestFree a b = d.lowestFree a b := rfl
end

/-- Steps 1 to 5 of R496 for a requester that is neither the quench reader nor a die's firmware, within its quota and above the reserve. -/
theorem Dev.allocAt_of_free {d : Dev} {die r c i : Nat} (srcDie : Nat) (nf : Bool) (hr : r ≠ 26) (hr' : r ≠ 30)
    (hquarantined : d.quarantined die r = false) (hheld : d.held die r c < d.quota r c) (hreserve : d.reserve die c < d.freeBufs die c)
    (hlowest : d.lowestFree die c = some i) :
    d.allocAt die r srcDie c nf =
      (({ d with pool := { d.pool with
          rr := tset d.pool.rr (die, c) ((r + 1) % 32), bufs := tset d.pool.bufs ⟨die, c, i⟩ ⟨false, r, srcDie, 0⟩,
          data := tdel d.pool.data ⟨die, c, i⟩ } }).emit (.poolResult die r srcDie .ok (d.handle ⟨die, c, i⟩))) := by
  simp [Dev.allocAt, hquarantined, Nat.not_le.2 hheld, hr, hr', hreserve, hlowest, Dev.poolDone_of_ne hr']
  rfl

@[simp] theorem Dev.poolCmd_pool (d : Dev) (die r srcDie op handle : Nat) : (d.poolCmd die r srcDie op handle).pool = d.pool := by
  unfold Dev.poolCmd
  split <;> rfl

/-- An operation on a buffer whose handle passes R492's checks runs on the buffer. -/
theorem Dev.onBuf_of_held {d : Dev} {h : Nat} {k : BufKey} {b : Buf} (hhandle : d.checkHandle h = .ok k) (hbufs : tget d.pool.bufs k = some b)
    (r srcDie : Nat) (op : Dev → Nat → BufKey → Buf → Dev) :
    d.onBuf r srcDie h op = op (d.arbiterPast (handleDie h) k.cls r) (handleDie h) k b := by
  simp [Dev.onBuf, hhandle, hbufs]

/-- Settles O1, clause by clause: the guards of each command hold, and its branch is the effect that the clause states. -/
theorem poolCommandsRun : Obligations.PoolCommandsRun := by
  refine ⟨?poolAlloc, ?poolAllocFallback, ?poolFree, ?poolShare, ?poolRelease, ?poolHandoff, ?poolCmdUnsupported, ?poolQuarantineRelease⟩
  case poolAlloc =>
    intro d die r srcDie c i nf hdie hserv hc hmayAlloc hr hr' hquarantined hheld hreserve hlowestFree
    refine Dev.takes_of_eq (fun _ => rfl) fun _ => ?_
    simp [hdie, hserv, hc, hmayAlloc, hr', Dev.allocAt_of_free srcDie nf hr hr' hquarantined hheld hreserve hlowestFree]
  case poolAllocFallback =>
    intro d die c r srcDie hfallback
    refine Dev.takes_of_eq (fun _ => rfl) fun _ => ?_
    simp [hfallback]
  case poolFree =>
    intro d r srcDie h k b hhandle hbufs hownedBy hpending
    refine Dev.takes_of_eq (fun _ => rfl) fun _ => ?_
    simp [Dev.onBuf_of_held hhandle (by simpa using hbufs), hownedBy, hpending]
  case poolShare =>
    intro d r srcDie h k b hhandle hbufs hquarantined hpending hshare
    refine Dev.takes_of_eq (fun _ => rfl) fun _ => ?_
    simp [Dev.onBuf_of_held hhandle (by simpa using hbufs), hquarantined, hpending, hshare]
  case poolRelease =>
    intro d r srcDie h k b hhandle hbufs hshare
    refine Dev.takes_of_eq (fun _ => rfl) fun _ => ?_
    simp [Dev.onBuf_of_held hhandle (by simpa using hbufs), hshare]
  case poolHandoff =>
    rintro d r srcDie h newReq newDie k b x rfl hhandle hbufs hquarantined hownedBy hpending hheld
    rw [Dev.arbiterPast_held, Dev.arbiterPast_quota] at hheld
    refine Dev.takes_of_eq (fun _ => rfl) fun _ => ?_
    simp [Dev.onBuf_of_held hhandle (by simpa using hbufs), hquarantined, hownedBy, hpending, hheld]
  case poolCmdUnsupported =>
    intro d die op hserv hop hbusy
    refine Dev.takes_of_eq (fun _ => rfl) fun _ => ?_
    simp [hserv, hop, hbusy, Dev.poolDone]
  case poolQuarantineRelease =>
    intro d die r n hserv hr hquarantined hn hfilter
    refine Dev.takes_of_eq (fun _ => rfl) fun _ => ?_
    simp [hserv, hn, hfilter, Dev.forEach]

/-! ### The Temper store (R468 to R480) -/

/-- A descriptor command that its queue is ready for takes the descriptor at HEAD. -/
theorem Dev.tmpCommand_of_ready {d : Dev} {q : Nat} {op : Option TmpOp} (hready : d.tmpReady q op) (m : TmpMedium) :
    d.tmpCommand q op m none = d.tmpTake q m := by
  obtain ⟨hhas, hop, hrunning, hwaiting⟩ := hready
  simp only [Dev.tmpCommand, hhas, hop, hrunning, hwaiting]
  simp

/-- Where the command carries data, the client's buffer holds it first (R477). -/
theorem Dev.tmpCommand_of_ready_data {d : Dev} {q : Nat} {op : Option TmpOp} {k : BufKey} (hready : d.tmpReady q op)
    (hhandle : d.checkHandle (d.headDesc q).handle = .ok k) (m : TmpMedium) (data : List Word) :
    d.tmpCommand q op m (some data) = { d with pool := { d.pool with data := tset d.pool.data k data } }.tmpTake q m := by
  obtain ⟨hhas, hop, hrunning, hwaiting⟩ := hready
  simp only [Dev.tmpCommand, hhas, hop, hrunning, hwaiting, hhandle]
  simp

/-- Settles O2: a descriptor that passes its checks and need not wait runs the operation of its opcode. -/
theorem temperReadsRun : Obligations.TemperReadsRun := by
  refine ⟨?tmpRead, ?tmpBlankCheck, ?tmpMarginRead, ?tmpUnknownOpcode, ?tmpPatrolRead⟩
  case tmpRead =>
    intro d q m k hready hcheck hwait
    refine Dev.takes_of_eq (fun _ => rfl) fun _ => ?_
    simp [Dev.tmpCommand_of_ready hready, Dev.tmpTake, hcheck, hwait]
  case tmpBlankCheck =>
    intro d q hready hcheck hwait
    refine Dev.takes_of_eq (fun _ => rfl) fun _ => ?_
    simp [Dev.tmpCommand_of_ready hready, Dev.tmpTake, hcheck, hwait]
  case tmpMarginRead =>
    intro d q diffs k hready hcheck hwait
    refine Dev.takes_of_eq (fun _ => rfl) fun _ => ?_
    simp [Dev.tmpCommand_of_ready hready, Dev.tmpTake, hcheck, hwait]
  case tmpUnknownOpcode =>
    intro d q hready
    refine Dev.takes_of_eq (fun _ => rfl) fun _ => ?_
    obtain ⟨-, hop, -, -⟩ := id hready
    simp [Dev.tmpCommand_of_ready hready, Dev.tmpTake, Dev.tmpCheck, hop]
  case tmpPatrolRead =>
    intro d c u l n hpatrolEn hfilter hfilter' hc
    refine Dev.takes_of_eq (fun _ => rfl) fun _ => ?_
    have hwarn : ((d.addF TMP_CORRECTED.COUNT c).addF TMP_UNCORRECTABLE.COUNT u).f TMP_CTRL.WARN_BITS = d.f TMP_CTRL.WARN_BITS := by
      rw [Dev.f_addF_fld _ (by decide), Dev.f_addF_fld _ (by decide)]
    simp [hpatrolEn, hfilter, hfilter', hwarn, Nat.not_le.2 hc]

/-- Settles O3: as O2; a program moves the command's data into the client's buffer first. -/
theorem temperWritesRun : Obligations.TemperWritesRun := by
  refine ⟨?tmpProgram, ?tmpProgramAnd, ?tmpEraseSector, ?tmpOpDone, ?tmpScrub⟩
  case tmpProgram =>
    intro d q data k x hready hhandle hx hcheck hwait
    have hdesc : d.headDesc q = x.headDesc q := by rw [hx]; rfl
    rw [hdesc] at hcheck hwait ⊢
    refine Dev.takes_of_eq (fun _ => rfl) fun _ => ?_
    dsimp only
    rw [Dev.tmpCommand_of_ready_data hready hhandle, ← hx]
    simp [Dev.tmpTake, hcheck, hwait]
  case tmpProgramAnd =>
    intro d q data k x hready hhandle hx hcheck hwait
    have hdesc : d.headDesc q = x.headDesc q := by rw [hx]; rfl
    rw [hdesc] at hcheck hwait ⊢
    refine Dev.takes_of_eq (fun _ => rfl) fun _ => ?_
    dsimp only
    rw [Dev.tmpCommand_of_ready_data hready hhandle, ← hx]
    simp [Dev.tmpTake, hcheck, hwait, Dev.tmpDoAnd]
  case tmpEraseSector =>
    intro d q hready hcheck hwait
    refine Dev.takes_of_eq (fun _ => rfl) fun _ => ?_
    simp [Dev.tmpCommand_of_ready hready, Dev.tmpTake, hcheck, hwait]
  case tmpOpDone =>
    intro d q r hrunning hop
    refine Dev.takes_of_eq (fun _ => rfl) fun _ => ?_
    simp [hrunning, hop]
  case tmpScrub =>
    intro d l spare hscrubs hspares
    refine ⟨_, rfl, Dev.takes_of_eq (fun _ => rfl) fun _ => ?_⟩
    rw [List.contains_iff_mem] at hscrubs hspares
    simp [hscrubs, hspares, List.ne_nil_of_mem hspares]

/-! ### The event recorder (R507 to R522) and the checks of the Swage copies (R63, R76) -/

/-- Settles O4: the guards of each command hold, and its branch is the effect that the clause states. -/
theorem recorderCommandsRun : Obligations.RecorderCommandsRun := by
  refine ⟨?eventRaise, ?leafProgramDone, ?tokenRefill, ?seqReservationDone, ?leafClearErase, ?evtWinSeqWrite, ?evtWinNext⟩
  case eventRaise =>
    exact fun d ev source payload => Dev.takes_of_eq (fun _ => rfl) fun _ => rfl
  case leafProgramDone =>
    intro d k r haonLow hqueue hrecords
    refine Dev.takes_of_eq (fun _ => rfl) fun _ => ?_
    simp only [haonLow, hqueue]
    exact if_neg (Nat.not_le.2 hrecords)
  case tokenRefill =>
    intro d code htokens hsuppressed
    refine Dev.takes_of_eq (fun _ => rfl) fun _ => ?_
    simp [htokens, hsuppressed]
  case seqReservationDone =>
    intro d hreservation hseqStall
    have hlate : ¬ d.evt.nextSeq + 2 ^ 19 < d.evt.reservation := Nat.not_lt.2 hreservation
    refine Dev.takes_of_eq (fun _ => rfl) fun _ => ?_
    simp [hlate, hseqStall, -Nat.reducePow]
  case leafClearErase =>
    intro d leaf sector hclearing hsector
    refine ⟨_, rfl, Dev.takes_of_eq (fun _ => rfl) fun _ => ?_⟩
    simp [hclearing, hsector]
  case evtWinSeqWrite =>
    intro d h seq hhearthExists
    refine Dev.takes_of_eq (fun _ => rfl) fun _ => ?_
    simp [hhearthExists]
  case evtWinNext =>
    intro d h r hhearthExists hwinRecord
    refine Dev.takes_of_eq (fun _ => rfl) fun _ => ?_
    simp [hhearthExists, hwinRecord]

/-- A check starts where none is in progress (R76). -/
theorem Dev.startCheck_of_idle {d : Dev} (hidle : d.fb SWG_CHECK.CHECK_BUSY = false) (copy : Nat) :
    d.startCheck copy =
      { (d.setB SWG_CHECK.CHECK_BUSY true).setF (resultField copy) 0xF with
        swg := { ((d.setB SWG_CHECK.CHECK_BUSY true).setF (resultField copy) 0xF).swg with checking := some copy } } := by
  simp [Dev.startCheck, hidle]

/-- Settles O5: a check starts where none is in progress, and a copy that verifies gives its field the result 0. -/
theorem swageChecksRun : Obligations.SwageChecksRun := by
  refine ⟨?swgCheckA, ?swgCheckB, ?swgCheckDone⟩
  case swgCheckA =>
    exact fun d hidle => ⟨_, rfl, Dev.takes_of_eq (fun _ => rfl) fun _ => Dev.startCheck_of_idle hidle 0⟩
  case swgCheckB =>
    exact fun d hidle => ⟨_, rfl, Dev.takes_of_eq (fun _ => rfl) fun _ => Dev.startCheck_of_idle hidle 1⟩
  case swgCheckDone =>
    intro d ok bank copy hchecking hverifyImage
    refine ⟨_, rfl, Dev.takes_of_eq (fun _ => rfl) fun _ => ?_⟩
    simp only [hchecking, hverifyImage, Dev.copyResult, if_true]

end Sys2Proof.Machine
end

section
/-! PROOFS. The fabric ports and the Crucible: what the commands do. -/

namespace Sys2Proof.Machine

open Sys2Proof

/-! ### The fabric ports (R79 to R94, R553) -/

/-- Settles O6: a port that takes messages takes a credit for each, and what is not refused goes to its slice. -/
theorem fabricAccessesRun : Obligations.FabricAccessesRun := by
  refine ⟨?memWrAccepted, ?memWrFenced, ?memRd, ?birsp, ?fabBiReset, ?gfamAccessTableSet⟩
  case memWrAccepted =>
    rintro d die port host dpa tag a ld data be x hportTakes hrwdFree hfence rfl haccessCause
    refine Dev.takes_of_eq (fun _ => rfl) fun _ => ?_
    simp [hportTakes, hrwdFree, Dev.takeCredit, hfence, haccessCause]
  case memWrFenced =>
    intro d die port host dpa tag ld data be hportTakes hrwdFree hfence
    refine Dev.takes_of_eq (fun _ => rfl) fun _ => ?_
    simp [hportTakes, hrwdFree, Dev.takeCredit, hfence]
  case memRd =>
    rintro d die port host dpa own tag a ld x hportTakes hreqFree rfl haccessCause
    refine Dev.takes_of_eq (fun _ => rfl) fun _ => ?_
    simp [hportTakes, hreqFree, Dev.takeCredit, haccessCause]
  case birsp =>
    rintro d host line x hsnoops rfl
    refine Dev.takes_of_eq (fun _ => rfl) fun _ => ?_
    simp only [hsnoops, if_true]
  case fabBiReset =>
    intro d mask
    exact Dev.takes_of_eq (fun _ => rfl) fun _ => rfl
  case gfamAccessTableSet =>
    intro d die port spid hdie hhasPort hportMode
    refine Dev.takes_of_eq (fun _ => rfl) fun _ => ?_
    simp [hdie, hhasPort, hportMode]

/-- Settles O7: the guards of each command hold, and its branch is the effect that the clause states. -/
theorem fabricLinksRun : Obligations.FabricLinksRun := by
  refine ⟨?fmLdAllocate, ?gpfRequest, ?gpfPhase2Response, ?perstN, ?flr, ?ideCheckFail, ?fabLinkUp, ?fabLinkDown⟩
  case fmLdAllocate =>
    intro d die port ld start size hport hld hstart hsize hpos hfit hmeets hold hnew
    refine Dev.takes_of_eq (fun _ => rfl) fun _ => ?_
    simp only [hport, Nat.not_le.2 hld, hstart, hsize, hpos, Nat.not_lt.2 hfit, hmeets, hold, hnew]
    rfl
  case gpfRequest =>
    intro d die port hdie hhasPort hportUp
    refine Dev.takes_of_eq (fun _ => rfl) fun _ => ?_
    simp [hdie, hhasPort, hportUp]
  case gpfPhase2Response =>
    intro d die port g hgpf hreqs
    refine Dev.takes_of_eq (fun _ => rfl) fun _ => ?_
    simp only [hgpf, hreqs]
    rfl
  case perstN =>
    intro d die port hserv hhasPort hquench
    refine Dev.takes_of_eq (fun _ => rfl) fun _ => ?_
    simp [hserv, hhasPort, hquench]
  case flr =>
    intro d die port ld hserv hhasPort hquench hrunning
    refine Dev.takes_of_eq (fun _ => rfl) fun _ => ?_
    simp [hserv, hhasPort, hquench, hrunning]
  case ideCheckFail =>
    intro d die port stream slot hdie hhasPort hportUp hstream
    refine Dev.takes_of_eq (fun _ => rfl) fun _ => ?_
    simp [hdie, hhasPort, hportUp, hstream]
  case fabLinkUp =>
    intro d die port width rate r w hserv hport hquench hloaded hdown hr hw
    refine ⟨_, Dev.takes_of_eq (fun _ => rfl) fun _ => ?_, rfl⟩
    simp [hserv, hport, hquench, hloaded, hdown, hr, hw]
  case fabLinkDown =>
    intro d die port ltssm hdie hhasPort hportUp
    refine Dev.takes_of_eq (fun _ => rfl) fun _ => ?_
    simp [hdie, hhasPort, hportUp]

/-- Settles O8: the request or the slab is in the state that its command ends, and the command's branch is the effect that the clause states. -/
theorem crucibleRequestsRun : Obligations.CrucibleRequestsRun := by
  refine ⟨?writeAdmit, ?readAdmit, ?fillLands, ?fillFail, ?destageSelect, ?idleDestageTimer, ?destageComplete, ?destageFail⟩
  case writeAdmit =>
    intro d rid look bad r hreq hisRead
    refine Dev.takes_of_eq (fun _ => rfl) fun _ => ?_
    simp [hreq, hisRead]
  case readAdmit =>
    intro d rid look bad r hreq hisRead
    refine Dev.takes_of_eq (fun _ => rfl) fun _ => ?_
    simp [hreq, hisRead]
  case fillLands =>
    intro d slab data hfills hquench hfrozenSlab
    refine Dev.takes_of_eq (fun _ => rfl) fun _ => ?_
    simp [hfills, hquench, hfrozenSlab]
  case fillFail =>
    intro d slab status hfills hquench
    refine Dev.takes_of_eq (fun _ => rfl) fun _ => ?_
    simp [hfills, hquench]
  case destageSelect =>
    intro d slab hselects hquench
    refine Dev.takes_of_eq (fun _ => rfl) fun _ => ?_
    simp [hselects, hquench]
  case idleDestageTimer =>
    intro d slab hstateOf hidleMs hidleDue
    refine Dev.takes_of_eq (fun _ => rfl) fun _ => ?_
    simp [hstateOf, hidleMs, hidleDue, -List.contains_eq_mem]
  case destageComplete =>
    intro d slab hdestages hquench
    refine Dev.takes_of_eq (fun _ => rfl) fun _ => ?_
    simp [hdestages, hquench]
  case destageFail =>
    intro d slab status g hdestages hquench
    refine Dev.takes_of_eq (fun _ => rfl) fun _ => ?_
    simp [hdestages, hquench, Dev.failDestage]

/-- Settles O9: the wait that the command ends is the request's, and the command's branch is the effect that the clause states. -/
theorem crucibleWaitsRun : Obligations.CrucibleWaitsRun := by
  refine ⟨?setStallRetry, ?setStallHeldTimer, ?uncachedReadDone, ?bypassBackingReadDone, ?bypassBackingWriteFail, ?bypassBackingWriteDone,
    ?bypassRetry, ?setRebuildDone⟩
  case setStallRetry =>
    intro d rid r hreq hmayRetry hquench
    refine Dev.takes_of_eq (fun _ => rfl) fun _ => ?_
    simp [hreq, hmayRetry, hquench]
  case setStallHeldTimer =>
    intro d rid t r hreq hwait hheldAt
    refine Dev.takes_of_eq (fun _ => rfl) fun _ => ?_
    simp [hreq, hwait, hheldAt]
  case uncachedReadDone =>
    intro d rid r data hreq hwait hquench hpoison
    refine Dev.takes_of_eq (fun _ => rfl) fun _ => ?_
    simp [hreq, hwait, hquench, hpoison, Dev.uncachedDone, -List.contains_eq_mem]
  case bypassBackingReadDone =>
    intro d rid status g data hstaging hphase hquench
    refine Dev.takes_of_eq (fun _ => rfl) fun _ => ?_
    simp [hstaging, hphase, hquench, Dev.stageReadDone]
  case bypassBackingWriteFail =>
    intro d rid status g r hstaging hreq hphase hquench
    refine Dev.takes_of_eq (fun _ => rfl) fun _ => ?_
    simp [hstaging, hreq, hphase, hquench, Dev.stageWriteDone]
  case bypassBackingWriteDone =>
    rintro d rid status g r x hstaging hreq hphase hquench hbe rfl hmirrorsSlab
    refine Dev.takes_of_eq (fun _ => rfl) fun _ => ?_
    simp [hstaging, hreq, hphase, hquench, hbe, hmirrorsSlab, Dev.stageWriteDone]
  case bypassRetry =>
    intro d rid g hstaging hphase hquench
    refine Dev.takes_of_eq (fun _ => rfl) fun _ => ?_
    simp [hstaging, hphase, hquench]
  case setRebuildDone =>
    intro d slab lost hrebuilds hcandidates
    refine Dev.takes_of_eq (fun _ => rfl) fun _ => ?_
    simp [hrebuilds, hcandidates]

/-- Settles O10: the mode allows the command, and its branch is the effect that the clause states. -/
theorem modesAndMaintenanceRun : Obligations.ModesAndMaintenanceRun := by
  refine ⟨?crucModeRequestAccepted, ?crucModeRequestRefused, ?drainExitCheck, ?generationSweepDone, ?maintClean, ?maintInvalidate, ?maintEvict,
    ?maintPin, ?maintUnpin, ?maintFillAhead, ?crucMaintGo⟩
  case crucModeRequestAccepted =>
    intro d hquench hcurrent
    refine Dev.takes_of_eq (fun _ => rfl) fun _ => ?_
    simp [hquench, hcurrent, Dev.modeRequest, Dev.headFor]
  case crucModeRequestRefused =>
    intro d m hquench hm hcurrent
    refine Dev.takes_of_eq (fun _ => rfl) fun _ => ?_
    simp [hquench, hm, hcurrent, Dev.modeRequest]
  case drainExitCheck =>
    rintro d x hquench hcurrent hpoisonedSlabs rfl hd hreqs
    refine Dev.takes_of_eq (fun _ => rfl) fun _ => ?_
    simp only [hquench, hcurrent, hpoisonedSlabs, hd, hreqs, Bool.false_eq_true, ne_eq, not_true, or_false, and_true, if_false, if_true,
      Bool.not_false]
  case generationSweepDone =>
    intro d hquench hcurrent
    refine Dev.takes_of_eq (fun _ => rfl) fun _ => ?_
    simp [hquench, hcurrent]
  case maintClean =>
    intro d id
    exact Dev.takes_of_eq (fun _ => rfl) fun _ => rfl
  case maintInvalidate =>
    intro d id
    exact Dev.takes_of_eq (fun _ => rfl) fun _ => rfl
  case maintEvict =>
    intro d id
    exact Dev.takes_of_eq (fun _ => rfl) fun _ => rfl
  case maintPin =>
    intro d id
    exact Dev.takes_of_eq (fun _ => rfl) fun _ => rfl
  case maintUnpin =>
    intro d id
    exact Dev.takes_of_eq (fun _ => rfl) fun _ => rfl
  case maintFillAhead =>
    intro d id
    exact Dev.takes_of_eq (fun _ => rfl) fun _ => rfl
  case crucMaintGo =>
    rintro d die slab count op discard o x hserv hsmithDead hbusy hquench rfl hcount hcount' hmaintOpOf
    refine ⟨_, rfl, Dev.takes_of_eq (fun _ => rfl) fun _ => ?_⟩
    simp [hserv, hsmithDead, hbusy, hquench, hcount, hcount', hmaintOpOf]

end Sys2Proof.Machine
end

section
/-! PROOFS. The Weld: links, keys, the pair's messages and roles: what the commands do. -/

namespace Sys2Proof.Machine

open Sys2Proof

/-- Settles O11: the guards of each command hold, and its branch is the effect that the clause states. -/
theorem weldLinksRun : Obligations.WeldLinksRun := by
  refine ⟨?weldLinkTrained, ?weldHello, ?weldHelloBadVersion, ?weldHelloRetry, ?keyStallEnter, ?heartbeatLossUp, ?heartbeatLossStalled,
    ?linkElectricalLoss, ?weldLinkDisable, ?weldLinkRetrain⟩
  case weldLinkTrained =>
    rintro d die link width rate spare x hhasLink hserv hloaded hquench hlinkState hdisable rfl
    refine Dev.takes_of_eq (fun _ => rfl) fun _ => ?_
    simp [hhasLink, hserv, hloaded, hquench, hlinkState, hdisable, Dev.trainLink]
  case weldHello =>
    rintro d die link side peerLink x hhasLink hlinkState hhello hside rfl
    refine Dev.takes_of_eq (fun _ => rfl) fun _ => ?_
    simp [hhasLink, hlinkState, hhello, hside]
  case weldHelloBadVersion =>
    intro d die link version side peerDie peerLink hhasLink hlinkState hhello hversion
    refine Dev.takes_of_eq (fun _ => rfl) fun _ => ?_
    simp [hhasLink, hlinkState, hhello, hversion]
  case weldHelloRetry =>
    rintro d die link t x hrefusedAt hlinkState hdisable hquench rfl
    refine Dev.takes_of_eq (fun _ => rfl) fun _ => ?_
    simp [hrefusedAt, hlinkState, hdisable, hquench]
  case keyStallEnter =>
    intro d die link hstate hcount
    refine Dev.takes_of_eq (fun _ => rfl) fun _ => ?_
    simp only [hstate, hcount, true_or, decide_true, Bool.and_self, if_true]
  case heartbeatLossUp =>
    intro d die link hlinkState
    refine Dev.takes_of_eq (fun _ => rfl) fun _ => ?_
    simp [hlinkState]
  case heartbeatLossStalled =>
    intro d die link hlinkState
    refine Dev.takes_of_eq (fun _ => rfl) fun _ => ?_
    simp [hlinkState]
  case linkElectricalLoss =>
    intro d die link hhasLink
    refine Dev.takes_of_eq (fun _ => rfl) fun _ => ?_
    simp [hhasLink]
  case weldLinkDisable =>
    intro d die link hhasLink
    refine Dev.takes_of_eq (fun _ => rfl) fun _ => ?_
    simp [hhasLink]
  case weldLinkRetrain =>
    intro d die link hhasLink
    refine Dev.takes_of_eq (fun _ => rfl) fun _ => ?_
    simp [hhasLink]

/-- Settles O12: the link takes the frame or is due, and the command's branch is the effect that the clause states. -/
theorem weldKeysRun : Obligations.WeldKeysRun := by
  refine ⟨?keyRollOfferBadSignature, ?keyRollOffer, ?keyRollAnswer, ?keyRollAnswerTimeout, ?keyRollCounter, ?keyRollRetry, ?weldKeyRollNow, ?weldNak,
    ?heartbeat, ?heartbeatSend, ?ackHeartbeat⟩
  case keyRollOfferBadSignature =>
    intro d h rollId switchSeq x htakeFrame hquench hside hlinkState
    refine Dev.takes_of_eq (fun _ => rfl) fun _ => ?_
    simp [htakeFrame, hquench, hside, hlinkState]
  case keyRollOffer =>
    intro d h rollId switchSeq sw x y hframe hquench hside hsw hy hroom
    refine Dev.takes_of_eq (fun _ => rfl) fun _ => ?_
    have hyields : decide (x.side = 0) = false := by simp [hside]
    simp only [hframe, hquench, hyields, ← hsw, ← hy, hroom, Bool.not_true, Bool.false_and, Bool.and_self, Bool.or_self, Bool.false_eq_true,
      if_false, if_true]
  case keyRollAnswer =>
    intro d h switchSeq x r htakeFrame hroll
    refine Dev.takes_of_eq (fun _ => rfl) fun _ => ?_
    simp [htakeFrame, hroll]
  case keyRollAnswerTimeout =>
    intro d die link r hroll
    refine Dev.takes_of_eq (fun _ => rfl) fun _ => ?_
    simp [hroll]
  case keyRollCounter =>
    intro d die link hstate hquench hcount
    refine Dev.takes_of_eq (fun _ => rfl) fun _ => ?_
    simp only [hstate, hquench, hcount, true_or, decide_true, Bool.not_false, Bool.and_self, if_true]
  case keyRollRetry =>
    intro d die link t hrollFailedAt hquench
    refine Dev.takes_of_eq (fun _ => rfl) fun _ => ?_
    simp [hrollFailedAt, hquench]
  case weldKeyRollNow =>
    intro d die link hlinkState hquench
    refine Dev.takes_of_eq (fun _ => rfl) fun _ => ?_
    simp [hlinkState, hquench]
  case weldNak =>
    intro d die link ack hlinkState
    refine Dev.takes_of_eq (fun _ => rfl) fun _ => ?_
    simp [hlinkState]
  case heartbeat =>
    intro d h heat links pair n x hextend htakeFrame
    refine Dev.takes_of_eq (fun _ => rfl) fun _ => ?_
    simp [hextend, htakeFrame, Dev.showTwinHeat]
  case heartbeatSend =>
    intro d die link hlinkState
    refine Dev.takes_of_eq (fun _ => rfl) fun _ => ?_
    simp [hlinkState]
  case ackHeartbeat =>
    intro d die link hlinkState
    refine Dev.takes_of_eq (fun _ => rfl) fun _ => ?_
    simp [hlinkState]

/-- Settles O13: the frame is taken or the pair's message is due, and the command's branch is the effect that the clause states. -/
theorem weldMirrorsRun : Obligations.WeldMirrorsRun := by
  refine ⟨?joinRefused, ?join, ?mirrorWrite, ?weldTxRoom, ?mirrorAck, ?mirrorAckBatchTimer, ?heatClose, ?heatAck⟩
  case joinRefused =>
    intro d h heat length side regions roles x htakeFrame
    refine Dev.takes_of_eq (fun _ => rfl) fun _ => ?_
    simp [htakeFrame]
  case join =>
    rintro d h heat side x y htakeFrame hquench rfl
    refine ⟨_, rfl, Dev.takes_of_eq (fun _ => rfl) fun _ => ?_⟩
    simp [htakeFrame, hquench, Dev.forEach, Dev.joinRegion]
  case mirrorWrite =>
    intro d h heat firstId n e x hbreach hsector hheat hframe hfence hwindow
    refine ⟨_, rfl, Dev.takes_of_eq (fun _ => rfl) fun _ => ?_⟩
    have hfits : (decide ([e].length ≤ (if d.version1 then 1 else 3)) && [e].all fun e => decide (e.sector < 64)) = true := by
      cases d.version1 <;> simp [hsector]
    simp only [hfits, hheat, hframe, hfence, hwindow, Option.isSome_some, Option.getD_some, Bool.not_true, Bool.and_false, Bool.or_self,
      Bool.false_eq_true, if_false]
    rfl
  case weldTxRoom =>
    intro d die
    exact Dev.takes_of_eq (fun _ => rfl) fun _ => rfl
  case mirrorAck =>
    intro d h runs x htakeFrame
    refine Dev.takes_of_eq (fun _ => rfl) fun _ => ?_
    simp [htakeFrame]
  case mirrorAckBatchTimer =>
    rintro d die l x hacks husable hversion1 rfl husable'
    refine Dev.takes_of_eq (fun _ => rfl) fun _ => ?_
    simp [hacks, husable, hversion1, husable']
  case heatClose =>
    intro d h heat linkMask n x hextend htakeFrame hcloses
    refine ⟨_, rfl, Dev.takes_of_eq (fun _ => rfl) fun _ => ?_⟩
    simp [hextend, htakeFrame, hcloses]
  case heatAck =>
    intro d h heat mask n x hextend htakeFrame
    refine ⟨_, rfl, Dev.takes_of_eq (fun _ => rfl) fun _ => ?_⟩
    simp [hextend, htakeFrame]

/-- Settles O14: the frame is taken, and the command's branch is the effect that the clause states. -/
theorem weldNoticesRun : Obligations.WeldNoticesRun := by
  refine ⟨?quenchNoticeNotice, ?quenchNoticeDrained, ?quenchNoticeFinal, ?drainWindowEnd, ?roleClaimClaim, ?roleClaimNotOwner, ?roleClaimHandover,
    ?roleClaimRefuse⟩
  case quenchNoticeNotice =>
    rintro d h heat cause generation n x y hextend htakeFrame hnotice rfl hpair
    refine Dev.takes_of_eq (fun _ => rfl) fun _ => ?_
    simp [hextend, htakeFrame, hnotice, hpair]
  case quenchNoticeDrained =>
    intro d h heat cause generation n x w hheat hframe hnotice hnoted hdrained
    refine Dev.takes_of_eq (fun _ => rfl) fun _ => ?_
    simp only [hheat, Option.isSome_some, hframe, hnotice, hnoted, hdrained, Bool.not_true, Bool.false_eq_true, if_false, if_true]
  case quenchNoticeFinal =>
    intro d h heat flags cause generation n x w hextend htakeFrame hnotice hfinal
    refine Dev.takes_of_eq (fun _ => rfl) fun _ => ?_
    simp [hextend, htakeFrame, hnotice, hfinal]
  case drainWindowEnd =>
    intro d w hnotice hended
    refine Dev.takes_of_eq (fun _ => rfl) fun _ => ?_
    simp [hnotice, hended]
  case roleClaimClaim =>
    intro d h region x htakeFrame hquench hrole hresyncKind
    refine Dev.takes_of_eq (fun _ => rfl) fun _ => ?_
    simp [htakeFrame, hquench, hrole, hresyncKind]
  case roleClaimNotOwner =>
    intro d h region epoch x htakeFrame hquench hrole
    refine Dev.takes_of_eq (fun _ => rfl) fun _ => ?_
    simp [htakeFrame, hquench, hrole]
  case roleClaimHandover =>
    intro d h region epoch heat n x hextend htakeFrame hquench hclaimed
    refine Dev.takes_of_eq (fun _ => rfl) fun _ => ?_
    simp [hextend, htakeFrame, hquench, hclaimed]
  case roleClaimRefuse =>
    intro d h region epoch x htakeFrame
    refine Dev.takes_of_eq (fun _ => rfl) fun _ => ?_
    simp [htakeFrame]

/-- Settles O15: the frame is taken, and the command's branch is the effect that the clause states. -/
theorem weldFetchesRun : Obligations.WeldFetchesRun := by
  refine ⟨?rejoinReq, ?resyncDataFenced, ?resyncData, ?fetch, ?fetchData, ?fetchMiss, ?fetchTimeout⟩
  case rejoinReq =>
    intro d h region incremental slabs x htakeFrame hquench hmirror hresyncKind hrole
    refine Dev.takes_of_eq (fun _ => rfl) fun _ => ?_
    simp [htakeFrame, hquench, hmirror, hresyncKind, hrole]
  case resyncDataFenced =>
    intro d h slab mask heat region lines n x hextend htakeFrame hfence
    refine Dev.takes_of_eq (fun _ => rfl) fun _ => ?_
    simp [hextend, htakeFrame, hfence]
  case resyncData =>
    intro d h slab mask heat region lines n x y z r hheat hframe hfence hy hz hreq
    refine Dev.takes_of_eq (fun _ => rfl) fun _ => ?_
    simp only [true_or, or_true, decide_true, Bool.and_false, hheat, Option.isSome_some, if_true, hframe, hfence, ← hy, Option.getD_some, ← hz, hreq,
      Bool.not_true, Bool.false_eq_true, if_false]
  case fetch =>
    intro d h slab region x htakeFrame hquench
    refine Dev.takes_of_eq (fun _ => rfl) fun _ => ?_
    simp [htakeFrame, hquench]
  case fetchData =>
    intro d h slab mask heat region lines n x hheat hframe hfence hfetch hjudge
    refine Dev.takes_of_eq (fun _ => rfl) fun _ => ?_
    simp only [hheat, Option.isSome_some, hframe, hfence, hfetch, hjudge, ne_eq, not_true, Bool.not_true, Bool.false_eq_true, if_false]
  case fetchMiss =>
    intro d h slab region x htakeFrame hfence hfetches
    refine Dev.takes_of_eq (fun _ => rfl) fun _ => ?_
    simp [htakeFrame, hfence, hfetches]
  case fetchTimeout =>
    intro d slab hfetches
    refine Dev.takes_of_eq (fun _ => rfl) fun _ => ?_
    simp [hfetches]

/-- Settles O16: the guards of each command hold, and its branch is the effect that the clause states. -/
theorem rolesRun : Obligations.RolesRun := by
  refine ⟨?forceSolo, ?yield, ?reclaim, ?confirmSole, ?roleRecordDone, ?roleRecordFails, ?resyncComplete, ?promotion⟩
  case forceSolo =>
    intro d region r hmirror hrole husable hquench hr
    refine Dev.takes_of_eq (fun _ => rfl) fun _ => ?_
    simp [hmirror, hrole, husable, hquench, hr, Dev.addPend]
  case yield =>
    intro d region hmirror hrole htwinSolo hpair hquench
    refine Dev.takes_of_eq (fun _ => rfl) fun _ => ?_
    simp [hmirror, hrole, htwinSolo, hpair, hquench]
  case reclaim =>
    intro d region c hmirror hrole hregionCfgs hownerSide hpair hquench hclaimed
    refine Dev.takes_of_eq (fun _ => rfl) fun _ => ?_
    simp [hmirror, hrole, hregionCfgs, hownerSide, hpair, hquench, hclaimed]
  case confirmSole =>
    intro d region hbackHeld
    refine Dev.takes_of_eq (fun _ => rfl) fun _ => ?_
    simp [hbackHeld, Dev.endHold]
  case roleRecordDone =>
    intro d region p x hpends hquench hcause hx
    refine Dev.takes_of_eq (fun _ => rfl) fun _ => ?_
    simp [hpends, hquench, hcause, hx, Dev.recordDone]
  case roleRecordFails =>
    intro d region status p hpends hquench hstatus hcause
    refine Dev.takes_of_eq (fun _ => rfl) fun _ => ?_
    simp [hpends, hquench, hstatus, hcause, Dev.recordFails]
  case resyncComplete =>
    intro d region hresyncDone hpends hrole
    refine Dev.takes_of_eq (fun _ => rfl) fun _ => ?_
    simp [hresyncDone, hpends, hrole]
  case promotion =>
    rintro d t notice p x y hlossAt hpair hquench hfilter hdone hx rfl
    refine Dev.takes_of_eq (fun _ => rfl) fun _ => ?_
    simp [hlossAt, hpair, hquench, hfilter, hdone, hx, Dev.forEach]

end Sys2Proof.Machine
end

section
/-! PROOFS. Heats, the dirty journal and the ceiling: what the commands do. -/

namespace Sys2Proof.Machine

open Sys2Proof

/-- A boundary that nothing defers opens the next heat (R182). -/
theorem Dev.boundary_opens {x : Dev} (hopened : x.heat.opened = true) (hquench : x.quenching = false)
    (hdirs : (x.diesUp.any fun die => decide (1024 ≤ (x.dirOf die).length)) = false) (hnext : x.nextHeat = x.openHeat + 1)
    (hreserved : x.openHeat + 1 < x.f HEAT_RESERVATION.R) : x.boundary = x.openHeatAt (x.openHeat + 1) := by
  simp only [Dev.boundary, hopened, hquench, hdirs, hnext, Nat.lt_irrefl, Nat.not_le.2 hreserved, Bool.not_true, Bool.or_self, Bool.false_eq_true,
    false_and, if_false]

/-- A boundary whose heat is not below the reservation is deferred (R182). -/
theorem Dev.boundary_of_unreserved {x : Dev} (hopened : x.heat.opened = true) (hquench : x.quenching = false)
    (hdirs : (x.diesUp.any fun die => decide (1024 ≤ (x.dirOf die).length)) = false) (hnext : x.nextHeat = x.openHeat + 1)
    (hreserved : x.f HEAT_RESERVATION.R ≤ x.openHeat + 1) :
    x.boundary = (x.setHeat fun h => { h with reserve := some (x.f HEAT_RESERVATION.R + 2 ^ 24) }).deferBoundary (x.openHeat + 1) 0 := by
  simp only [Dev.boundary, hopened, hquench, hdirs, hnext, Nat.lt_irrefl, hreserved, Bool.not_true, Bool.or_self, Bool.false_eq_true,
    false_and, if_false, if_true]

/-- Settles O17: the guards of each command hold, and its branch is the effect that the clause states. -/
theorem heatBoundariesRun : Obligations.HeatBoundariesRun := by
  refine ⟨?heatBoundary, ?heatCtrlCloseNow, ?heatSyncInEdgeUnsynchronized, ?heatSyncInEdgeInWindow, ?heatSyncInEdgeLate, ?heatSyncMiss,
    ?heatCtrlWrite, ?heatCtrlWriteRefused, ?heatReservationDone, ?heatReservationFails⟩
  case heatBoundary =>
    intro d x hopened hlocked hquench hx hdirs hnext hreserved
    refine Dev.takes_of_eq (fun _ => rfl) fun _ => ?_
    have hopened' : x.heat.opened = true := by rw [hx]; exact hopened
    have hquench' : x.quenching = false := by rw [hx]; exact hquench
    simp only [hopened, hlocked, hquench, Bool.not_true, Bool.or_self, Bool.false_eq_true, if_false, ← hx,
      Dev.boundary_opens hopened' hquench' hdirs hnext hreserved]
  case heatCtrlCloseNow =>
    rintro d r hopened hlocked hquench hdeferred hdirs hnext rfl hreserved
    refine Dev.takes_of_eq (fun _ => rfl) fun _ => ?_
    simp only [Dev.boundary_of_unreserved hopened hquench hdirs hnext hreserved, Dev.deferBoundary, Dev.setHeat_heat, hdeferred, Option.isSome_none,
      Bool.false_eq_true, if_false]
  case heatSyncInEdgeUnsynchronized =>
    intro d after hsyncEn
    refine Dev.takes_of_eq (fun _ => rfl) fun _ => ?_
    simp [hsyncEn, Dev.syncEdge]
  case heatSyncInEdgeInWindow =>
    intro d after x hx hsyncEn hlocked hnotEarly hnotLate
    refine Dev.takes_of_eq (fun _ => rfl) fun _ => ?_
    have hsyncEn' : x.fb HEAT_CTRL.SYNC_EN = true := by simp [hx, hsyncEn]
    have hlocked' : x.fb HEAT_STATUS.LOCKED = true := by simp [hx, hlocked]
    simp only [← hx, Dev.syncEdge, hsyncEn', hlocked', hnotEarly, hnotLate, and_self, Bool.not_true, Bool.false_eq_true, if_false, if_true]
  case heatSyncInEdgeLate =>
    intro d after x hx hsyncEn hlocked hlate
    refine Dev.takes_of_eq (fun _ => rfl) fun _ => ?_
    have hsyncEn' : x.fb HEAT_CTRL.SYNC_EN = true := by simp [hx, hsyncEn]
    have hlocked' : x.fb HEAT_STATUS.LOCKED = true := by simp [hx, hlocked]
    have hoff : ¬ (x.now : Int) - x.heat.tExp < 0 := by omega
    have hoffset : ((x.now : Int) - x.heat.tExp).toNat = x.now - x.heat.tExp := by omega
    simp only [← hx, Dev.syncEdge, Dev.ignoreEdge, hsyncEn', hlocked', Nat.not_le.2 hlate, hoff, hoffset, and_false, Bool.not_true,
      Bool.false_eq_true, if_false, if_true]
  case heatSyncMiss =>
    intro d x hlocked hmissed hx
    refine Dev.takes_of_eq (fun _ => rfl) fun _ => ?_
    have hmissed' : ¬ 8 ≤ x.heat.missedRow := by rw [hx]; exact Nat.not_le.2 (Nat.succ_lt_succ hmissed)
    simp only [Dev.syncMiss, hlocked, ← hx, hmissed', Bool.not_true, Bool.false_eq_true, if_false]
  case heatCtrlWrite =>
    intro d lengthUs syncOut hnew hlo hhi hmirrored
    refine Dev.takes_of_eq (fun _ => rfl) fun _ => ?_
    have hrange : ¬ (lengthUs < 50 ∨ 1000000 < lengthUs) := by omega
    simp [Dev.writeHeatCtrl, hnew, hrange, hmirrored]
  case heatCtrlWriteRefused =>
    intro d lengthUs syncOut hnew hrefused
    refine Dev.takes_of_eq (fun _ => rfl) fun _ => ?_
    have hrefused' : (decide (lengthUs ≠ d.f HEAT_CTRL.LENGTH_US) &&
        (decide (lengthUs < 50 ∨ 1000000 < lengthUs) || !d.mirrored.isEmpty)) = true := by
      simpa [hnew, or_assoc] using hrefused
    simp only [Dev.writeHeatCtrl, hrefused', if_true, Bool.false_eq_true, if_false]
  case heatReservationDone =>
    intro d r hreserve haonLow
    refine Dev.takes_of_eq (fun _ => rfl) fun _ => ?_
    simp [hreserve, haonLow]
  case heatReservationFails =>
    intro d r status hreserve
    refine Dev.takes_of_eq (fun _ => rfl) fun _ => ?_
    simp [hreserve]

/-- Settles O18: the guards of each command hold, and its branch is the effect that the clause states. -/
theorem journalRuns : Obligations.JournalRuns := by
  refine ⟨?journalPageWrite, ?heatSealOwn, ?heatSealReceive, ?compactRecordEmpty, ?compactRecord, ?compactRecordLost, ?journalStallRelease,
    ?tagWalkDone⟩
  case journalPageWrite =>
    intro d die heat receive
    exact Dev.takes_of_eq (fun _ => rfl) fun _ => rfl
  case heatSealOwn =>
    rintro d die heat x rfl
    refine Dev.takes_of_eq (fun _ => rfl) fun _ => ?_
    simp [Dev.sealEntry, Dev.modEntry]
  case heatSealReceive =>
    intro d die heat
    exact Dev.takes_of_eq (fun _ => rfl) fun _ => rfl
  case compactRecordEmpty =>
    intro d die e hserv hcompacts hquench hentry hwritten
    refine Dev.takes_of_eq (fun _ => rfl) fun _ => ?_
    simp only [hserv, hcompacts, hquench, Dev.compactRecord, hentry, hwritten, Bool.not_true, Bool.or_self, Bool.false_eq_true, if_false]
  case compactRecord =>
    intro d die e r s rs hserv hcompacts hquench hentry hwritten hlock
    refine Dev.takes_of_eq (fun _ => rfl) fun _ => ?_
    simp only [hserv, hcompacts, hquench, Dev.compactRecord, hentry, hwritten, hlock, reduceCtorEq, Bool.not_true, Bool.or_self, Bool.false_eq_true,
      if_false]
  case compactRecordLost =>
    intro d die e x hserv hcompacts hquench hcompactEntry hx
    refine Dev.takes_of_eq (fun _ => rfl) fun _ => ?_
    simp [hserv, hcompacts, hquench, hcompactEntry, hx, Dev.losePage]
  case journalStallRelease =>
    rintro d x rfl
    exact Dev.takes_of_eq (fun _ => rfl) fun _ => rfl
  case tagWalkDone =>
    intro d die htagWalk
    refine Dev.takes_of_eq (fun _ => rfl) fun _ => ?_
    simp [htagWalk, Dev.endTagWalk]

/-- Settles O19: the guards of each command hold, and its branch is the effect that the clause states. -/
theorem ceilingRuns : Obligations.CeilingRuns := by
  refine ⟨?ceilingCompute, ?receiveHoldRelease, ?dryQuenchAutoStart, ?dryQuenchAutoDeferred, ?dryQuenchWindowOpen, ?dryQuenchWindowOpenUnhealthy,
    ?dryQuenchWindowCloseShort, ?dryQuenchWindowClose, ?dryStale⟩
  case ceilingCompute =>
    intro d cause hquench hloaded
    refine Dev.takes_of_eq (fun _ => rfl) fun _ => ?_
    simp [hquench, hloaded]
  case receiveHoldRelease =>
    intro d
    exact Dev.takes_of_eq (fun _ => rfl) fun _ => rfl
  case dryQuenchAutoStart =>
    intro d t x hnextAuto hx hdryDue hdryRefusal
    refine Dev.takes_of_eq (fun _ => rfl) fun _ => ?_
    simp only [Dev.dryAuto, hnextAuto, ← hx, hdryDue, hdryRefusal, Bool.not_true, Bool.false_eq_true, if_false]
  case dryQuenchAutoDeferred =>
    intro d t st x hnextAuto hx hdryDue hdryRefusal
    refine Dev.takes_of_eq (fun _ => rfl) fun _ => ?_
    simp only [Dev.dryAuto, hnextAuto, ← hx, hdryDue, hdryRefusal, Bool.not_true, Bool.false_eq_true, if_false]
  case dryQuenchWindowOpen =>
    intro d r hdry hopenedAt hhealthy
    refine ⟨_, _, rfl, rfl, Dev.takes_of_eq (fun _ => rfl) fun _ => ?_⟩
    simp only [Dev.dryOpenNow, hdry, hopenedAt, hhealthy, Option.isSome_none, Bool.not_true, Bool.false_eq_true, if_false]
  case dryQuenchWindowOpenUnhealthy =>
    intro d r hdry hopenedAt hhealthy
    refine Dev.takes_of_eq (fun _ => rfl) fun _ => ?_
    simp [hdry, hopenedAt, hhealthy, Dev.dryOpenNow]
  case dryQuenchWindowCloseShort =>
    rintro d r t ms e mb x hdry hopenedAt hms he hmb rfl
    refine Dev.takes_of_eq (fun _ => rfl) fun _ => ?_
    simp [hdry, hopenedAt, hms, he, hmb, Dev.dryClose]
  case dryQuenchWindowClose =>
    intro d r t ms e mb x y z hdry hopenedAt hms he hmb hx heByteDefault hsampleMib hchanged hauto hy hz
    refine Dev.takes_of_eq (fun _ => rfl) fun _ => ?_
    simp only [Dev.dryClose, hdry, hopenedAt, ← he, ← hmb, ← hx, Nat.not_lt.2 hms, Nat.not_lt.2 heByteDefault, Nat.not_lt.2 hsampleMib, hchanged,
      hauto, Bool.or_true, b2n_true, ← hy, ← hz, Bool.false_eq_true, if_false, if_true]
  case dryStale =>
    intro d a x happlied hdryStale hx
    refine Dev.takes_of_eq (fun _ => rfl) fun _ => ?_
    simp only [Dev.dryStale, happlied, hdryStale, ← hx, Bool.false_eq_true, if_false]

end Sys2Proof.Machine
end

section
/-! PROOFS. The backing drives and the Hearth channels: what the commands do. -/

namespace Sys2Proof.Machine

open Sys2Proof

/-- Settles O20: the guards of each command hold, and its branch is the effect that the clause states. -/
theorem backingAttachRuns : Obligations.BackingAttachRuns := by
  refine ⟨?nvmeLinkUp, ?nvmeLinkDown, ?nvmeLinkDownTimeout, ?nvmeControllerFatal, ?nvmeControllerReady, ?nvmeAttachLinkTimeout, ?nvmeAdminComplete,
    ?nsAttach, ?nsAdopt, ?nsDetach, ?detachComplete⟩
  case nvmeLinkUp =>
    rintro d die port width rate x y hroot hserv hquench hdown rfl rfl hauto hattach
    refine Dev.takes_of_eq (fun _ => rfl) fun _ => ?_
    simp only [hroot, hserv, hquench, hdown, hauto, Bool.false_eq_true, if_false, hattach]
    rfl
  case nvmeLinkDown =>
    rintro d die port x hlinkUp rfl
    refine Dev.takes_of_eq (fun _ => rfl) fun _ => ?_
    simp [hlinkUp]
  case nvmeLinkDownTimeout =>
    rintro d die port t x hdownAt rfl
    refine Dev.takes_of_eq (fun _ => rfl) fun _ => ?_
    simp [hdownAt]
  case nvmeControllerFatal =>
    intro d die port hhasRoot
    refine Dev.takes_of_eq (fun _ => rfl) fun _ => ?_
    simp [hhasRoot, Dev.ctrlFail]
  case nvmeControllerReady =>
    intro d die port ready cssOk pageOk a hattach hstep
    refine Dev.takes_of_eq (fun _ => rfl) fun _ => ?_
    simp [hattach, hstep]
  case nvmeAttachLinkTimeout =>
    intro d die port a hattach hstep
    refine Dev.takes_of_eq (fun _ => rfl) fun _ => ?_
    simp [hattach, hstep]
  case nvmeAdminComplete =>
    intro d die port ns sq cq a hattach hstep
    refine Dev.takes_of_eq (fun _ => rfl) fun _ => ?_
    simp [hattach, hstep, Dev.attachAnswer]
  case nsAttach =>
    rintro d ns x hns hstate hquench rfl hlinkUp
    refine Dev.takes_of_eq (fun _ => rfl) fun _ => ?_
    simp [hns, hstate, hquench, hlinkUp, Dev.startAttach]
  case nsAdopt =>
    intro d ns hstate hquench
    refine Dev.takes_of_eq (fun _ => rfl) fun _ => ?_
    simp [hstate, hquench]
  case nsDetach =>
    intro d ns hstate
    refine Dev.takes_of_eq (fun _ => rfl) fun _ => ?_
    simp [hstate]
  case detachComplete =>
    rintro d ns x y hstate htags hstaging hcommandSlabs rfl rfl hnsIn
    refine Dev.takes_of_eq (fun _ => rfl) fun _ => ?_
    simp [hstate, htags, hstaging, hcommandSlabs, hnsIn, Dev.validTags, Dev.nsOf]

/-- Settles O21: the guards of each command hold, and its branch is the effect that the clause states. -/
theorem backingCommandsRun : Obligations.BackingCommandsRun := by
  refine ⟨?nvmeIoComplete, ?nvmeIoReadError, ?nvmeIoRetries, ?nvmeRetry, ?nvmeIoTimeout, ?controllerResetDone, ?smartPoll⟩
  case nvmeIoComplete =>
    rintro d slab dnr data errorLog c x houtstanding rfl
    refine Dev.takes_of_eq (fun _ => rfl) fun _ => ?_
    simp [houtstanding, Dev.ioOutcome]
  case nvmeIoReadError =>
    intro d slab dnr data errorLog c houtstanding hreads
    refine Dev.takes_of_eq (fun _ => rfl) fun _ => ?_
    simp [houtstanding, hreads, Dev.ioOutcome]
  case nvmeIoRetries =>
    rintro d slab status data errorLog c x houtstanding hstatus hstatus' hstatus'' rfl hretries
    refine Dev.takes_of_eq (fun _ => rfl) fun _ => ?_
    simp [houtstanding, hstatus, hstatus', hstatus'', hretries, Dev.ioOutcome]
  case nvmeRetry =>
    intro d slab hdelayed hquench
    refine Dev.takes_of_eq (fun _ => rfl) fun _ => ?_
    simp [hdelayed, hquench, -List.contains_eq_mem]
  case nvmeIoTimeout =>
    rintro d slab sIn c p n x houtstanding rfl rfl rfl rfl hreissued hresetting
    refine Dev.takes_of_eq (fun _ => rfl) fun _ => ?_
    simp only [houtstanding, hreissued, Dev.setB_back, Bool.false_eq_true, if_false, hresetting]
  case controllerResetDone =>
    rintro d die port x hresetting rfl
    refine Dev.takes_of_eq (fun _ => rfl) fun _ => ?_
    simp only [hresetting]
    rfl
  case smartPoll =>
    intro d die port warning used hhasRoot hctrlReady hquench
    refine Dev.takes_of_eq (fun _ => rfl) fun _ => ?_
    simp [hhasRoot, hctrlReady, hquench]

/-- Settles O22: the guards of each command hold, and its branch is the effect that the clause states. -/
theorem channelRequestsRun : Obligations.ChannelRequestsRun := by
  refine ⟨?chanRequest, ?chanCommandIssue, ?chanReadDecodeBad, ?chanReadDecodeClean, ?creditRefill, ?requestUrgent, ?rowCloseTimer, ?patrolScrubRead,
    ?caParityAlert, ?alertNHigh⟩
  case chanRequest =>
    intro d die chan q r x hrank hstate hr hx hrefresh
    refine Dev.takes_of_eq (fun _ => rfl) fun _ => ?_
    have hnotRefused : ¬ (x.chanState die chan = 3 ∧ (!q.write) = true) := by
      simpa [imp_iff_not_or] using hrefresh
    simp only [Dev.chanRequest, List.contains_iff_mem.2 hrank, hstate, ← hr, ← hx, hnotRefused, Bool.not_true, decide_false, Bool.or_self,
      Bool.false_eq_true, if_false]
  case chanCommandIssue =>
    intro d die chan illegal pressure r byPanic x y halert hstate hrun hx hschedule hy hcmd
    refine Dev.takes_of_eq (fun _ => rfl) fun _ => ?_
    simp only [Dev.slot, halert, hstate, hrun, ← hx, hschedule, ← hy, hcmd, Option.isSome_none, decide_true, Bool.true_or, Bool.not_true,
      Bool.or_self, Bool.false_eq_true, if_false]
  case chanReadDecodeBad =>
    intro d die chan id beats r x hflying hhasBad hreread hx
    refine Dev.takes_of_eq (fun _ => rfl) fun _ => ?_
    simp [hflying, hhasBad, hreread, hx, Dev.readDecode]
  case chanReadDecodeClean =>
    intro d die chan id beats r x hflying hhasBad hhasCorrected hreread hthaw hx
    refine Dev.takes_of_eq (fun _ => rfl) fun _ => ?_
    simp [hflying, hhasBad, hhasCorrected, hreread, hthaw, hx, Dev.readDecode, Dev.when]
  case creditRefill =>
    intro d die chan
    exact Dev.takes_of_eq (fun _ => rfl) fun _ => rfl
  case requestUrgent =>
    intro d die chan id r hqueue hurgent
    refine Dev.takes_of_eq (fun _ => rfl) fun _ => ?_
    simp [hqueue, hurgent]
  case rowCloseTimer =>
    intro d die chan rank bank o hopenRow hchanState
    refine Dev.takes_of_eq (fun _ => rfl) fun _ => ?_
    simp [hopenRow, hchanState]
  case patrolScrubRead =>
    intro d die chan beats hchanState
    refine Dev.takes_of_eq (fun _ => rfl) fun _ => ?_
    simp [hchanState]
  case caParityAlert =>
    intro d die chan dimm failed hchanState
    refine Dev.takes_of_eq (fun _ => rfl) fun _ => ?_
    simp [hchanState]
  case alertNHigh =>
    rintro d die chan a x halert hlow hcount rfl
    refine Dev.takes_of_eq (fun _ => rfl) fun _ => ?_
    simp [halert, hlow, hcount, Dev.alertHigh]

/-- Settles O23: the guards of each command hold, and its branch is the effect that the clause states. -/
theorem channelUpkeepRuns : Obligations.ChannelUpkeepRuns := by
  refine ⟨?refreshDue, ?rhWindowClear, ?rhCooldownEnd, ?dramTempRead, ?dramTempReadFails, ?selfRefreshIdle, ?ceRateInterval, ?chanFreezeNow,
    ?chanThaw, ?chanAutoThaw⟩
  case refreshDue =>
    intro d die chan rank x hrank hselfRefresh hx hbusy
    refine Dev.takes_of_eq (fun _ => rfl) fun _ => ?_
    simp only [List.contains_iff_mem.2 hrank, Dev.refreshDue, hselfRefresh, ← hx, hbusy, Bool.not_false, Bool.false_eq_true, if_false, if_true]
  case rhWindowClear =>
    intro d die chan rank hmode
    refine Dev.takes_of_eq (fun _ => rfl) fun _ => ?_
    simp [hmode]
  case rhCooldownEnd =>
    intro d die chan requester t hthrottled
    refine Dev.takes_of_eq (fun _ => rfl) fun _ => ?_
    simp [hthrottled]
  case dramTempRead =>
    rintro d die chan dimm sensor t x rfl
    exact Dev.takes_of_eq (fun _ => rfl) fun _ => rfl
  case dramTempReadFails =>
    intro d die chan dimm sensor htempFails
    refine Dev.takes_of_eq (fun _ => rfl) fun _ => ?_
    simp [htempFails, Dev.tempRead]
  case selfRefreshIdle =>
    intro d die chan rank hrank hbusy hselfRefresh hchanState hrun hflying
    refine Dev.takes_of_eq (fun _ => rfl) fun _ => ?_
    simp [hrank, hbusy, hselfRefresh, hchanState, hrun, hflying]
  case ceRateInterval =>
    intro d die chan
    refine Dev.takes_of_eq (fun _ => rfl) fun _ => ?_
    simp only [Dev.ceInterval, Dev.when, decide_eq_true_eq]
  case chanFreezeNow =>
    intro d die chan hchanState
    refine Dev.takes_of_eq (fun _ => rfl) fun _ => ?_
    simp [hchanState]
  case chanThaw =>
    rintro d die chan x y z hchanState hrun hquench rfl rfl rfl
    refine Dev.takes_of_eq (fun _ => rfl) fun _ => ?_
    simp [hchanState, hrun, hquench, Dev.thaw] <;> rfl
  case chanAutoThaw =>
    intro d die chan hautoThawMs hchanState
    refine Dev.takes_of_eq (fun _ => rfl) fun _ => ?_
    simp [hautoThawMs, hchanState]

/-- Settles O24: the guards of each command hold, and its branch is the effect that the clause states. -/
theorem trainingRuns : Obligations.TrainingRuns := by
  refine ⟨?trnStart, ?trnAbort, ?trnCommit, ?trnRetrainNow, ?trnRetrainNowCycles, ?trnAutoCycleStart, ?trnSubstepEnd, ?trnStepEnd, ?trnGapElapsed,
    ?trnStepTimeout⟩
  case trnStart =>
    rintro d die chan step rank x rfl hmayStep hstepWaits
    refine ⟨_, rfl, Dev.takes_of_eq (fun _ => rfl) fun _ => ?_⟩
    simp [hmayStep, hstepWaits, Dev.beginTrn, Dev.forEach]
  case trnAbort =>
    rintro d die chan r x hrun rfl
    refine Dev.takes_of_eq (fun _ => rfl) fun _ => ?_
    simp [hrun, Dev.abortStep]
  case trnCommit =>
    intro d die chan rank step codes hcand hactive
    refine Dev.takes_of_eq (fun _ => rfl) fun _ => ?_
    simp [hcand, hactive, Dev.apply]
  case trnRetrainNow =>
    rintro d die chan rank full x rfl hrank hchanState
    refine Dev.takes_of_eq (fun _ => rfl) fun _ => ?_
    simp [hrank, hchanState]
  case trnRetrainNowCycles =>
    rintro d die chan rank full x rfl hrank hchanState hmayCycle
    refine Dev.takes_of_eq (fun _ => rfl) fun _ => ?_
    simp [hrank, hchanState, hmayCycle]
  case trnAutoCycleStart =>
    intro d die chan rank hmayCycle
    refine Dev.takes_of_eq (fun _ => rfl) fun _ => ?_
    simp [hmayCycle]
  case trnSubstepEnd =>
    rintro d die chan r x hrun rfl
    refine Dev.takes_of_eq (fun _ => rfl) fun _ => ?_
    simp [hrun]
  case trnStepEnd =>
    intro d die chan us scans r hrun hrunning
    refine Dev.takes_of_eq (fun _ => rfl) fun _ => ?_
    have hnotSubstep : ¬ (d.chanState die chan = 2 ∧ 190 ≤ us) := by omega
    simp only [hrun, hnotSubstep, if_false]
  case trnGapElapsed =>
    rintro d die chan k x hcycle hrun hrunWait rfl
    refine Dev.takes_of_eq (fun _ => rfl) fun _ => ?_
    simp [hcycle, hrun, hrunWait]
  case trnStepTimeout =>
    rintro d die chan r x hrun hchanState rfl
    refine Dev.takes_of_eq (fun _ => rfl) fun _ => ?_
    simp [hrun, hchanState]

end Sys2Proof.Machine
end

section
/-! PROOFS. Quench flash and the Bellows: what the commands do. -/

namespace Sys2Proof.Machine

open Sys2Proof

/-- Settles O25: the guards of each command hold, and its branch is the effect that the clause states. -/
theorem quenchFlashRuns : Obligations.QuenchFlashRuns := by
  refine ⟨?nandAttach, ?qflEraseIssue, ?qflEraseDone, ?qflTableDeltaDone, ?qflZqCalibration, ?qflTableRecover, ?qflFormat, ?qflOpFail,
    ?nandStatusTimeout⟩
  case nandAttach =>
    intro d die chan nand look x p y henabled hnand hattached hx hfails hlost hy hmore
    refine Dev.takes_of_eq (fun _ => rfl) fun _ => ?_
    simp only [Dev.nandAttach, henabled, Nat.not_le.2 hnand, hattached, ← hx, hfails, hlost, ← hy, hmore, Bool.not_true, decide_false, Bool.or_self,
      Bool.false_eq_true, if_false, if_true]
  case qflEraseIssue =>
    rintro d die chan nand n k rfl hcounts hquench hdry hingot herasing hchoice hpe
    refine Dev.takes_of_eq (fun _ => rfl) fun _ => ?_
    simp only [Dev.eraseIssue, hcounts, hquench, hdry, hingot, herasing, hchoice, Nat.not_le.2 hpe, List.isEmpty_nil, Bool.not_true, Bool.or_self,
      Bool.false_eq_true, if_false]
  case qflEraseDone =>
    rintro d die chan nand k ks x hquadsIn rfl
    refine Dev.takes_of_eq (fun _ => rfl) fun _ => ?_
    simp [hquadsIn, Dev.eraseDone]
  case qflTableDeltaDone =>
    rintro d die chan l x hdirty hlog rfl hpartsOf
    refine Dev.takes_of_eq (fun _ => rfl) fun _ => ?_
    simp [hdirty, hlog, hpartsOf, Dev.tableDelta]
  case qflZqCalibration =>
    intro d die chan
    exact Dev.takes_of_eq (fun _ => rfl) fun _ => rfl
  case qflTableRecover =>
    intro d die chan marks htabled hstate
    refine Dev.takes_of_eq (fun _ => rfl) fun _ => ?_
    simp [htabled, hstate, Dev.tableRecover]
  case qflFormat =>
    intro d die chan marks holdGeometry hheld hrestore hquench
    refine Dev.takes_of_eq (fun _ => rfl) fun _ => ?_
    simp [holdGeometry, hheld, hrestore, hquench]
  case qflOpFail =>
    intro d die chan nand quad plane hquench
    refine Dev.takes_of_eq (fun _ => rfl) fun _ => ?_
    simp [hquench]
  case nandStatusTimeout =>
    intro d die chan nand hnandUp hquench
    refine Dev.takes_of_eq (fun _ => rfl) fun _ => ?_
    simp [hnandUp, hquench]

/-- A descriptor of the opcode that is asked for, that passes its checks and whose NAND die is not erasing, runs (R425). -/
theorem Dev.qCommand_of_ready {d : Dev} {die op : Nat} {k : Option BufKey} (h : d.qflReady die op k)
    (act : Dev → QDesc → QKey → Option BufKey → Dev) : d.qCommand die op act = act d (d.qdesc die) (d.qflQuad die) k := by
  obtain ⟨hwaits, hquench, hop, hcheck, herasing⟩ := h
  simp [Dev.qCommand, hwaits, hquench, hop, hcheck, QKey.on, herasing, Dev.qflQuad]

/-- Settles O26: the descriptor is ready, and the operation of its opcode is the effect that the clause states. -/
theorem quenchFlashQueueRuns : Obligations.QuenchFlashQueueRuns := by
  refine ⟨?qflRead, ?qflReadRaw, ?qflProgram, ?qflEraseQuad, ?qflReadParam, ?qflGetFeature, ?qflBlankCheck, ?qflUnknownOpcode⟩
  case qflRead =>
    intro d die m k hready
    exact Dev.takes_of_eq (fun _ => rfl) fun _ => Dev.qCommand_of_ready hready _
  case qflReadRaw =>
    rintro d die m k x hready rfl
    exact Dev.takes_of_eq (fun _ => rfl) fun _ => Dev.qCommand_of_ready hready _
  case qflProgram =>
    intro d die m k hready
    exact Dev.takes_of_eq (fun _ => rfl) fun _ => Dev.qCommand_of_ready hready _
  case qflEraseQuad =>
    rintro d die m k x hready hok rfl
    refine Dev.takes_of_eq (fun _ => rfl) fun _ => (Dev.qCommand_of_ready hready _).trans ?_
    simp [Dev.qErase, hok, Dev.qflQuad]
  case qflReadParam =>
    rintro d die m k x hready rfl
    exact Dev.takes_of_eq (fun _ => rfl) fun _ => Dev.qCommand_of_ready hready _
  case qflGetFeature =>
    rintro d die m k x hready rfl
    exact Dev.takes_of_eq (fun _ => rfl) fun _ => Dev.qCommand_of_ready hready _
  case qflBlankCheck =>
    rintro d die m k blank hready rfl
    exact Dev.takes_of_eq (fun _ => rfl) fun _ => Dev.qCommand_of_ready hready _
  case qflUnknownOpcode =>
    intro d die hwaits hquench hop
    refine Dev.takes_of_eq (fun _ => rfl) fun _ => ?_
    have hunknown : ¬ (1 ≤ (d.qdesc die).opcode ∧ (d.qdesc die).opcode ≤ 7) := by omega
    simp only [hwaits, hquench, hunknown, Bool.false_eq_true, or_self, if_false]

/-- Settles O27: the guards of each command hold, and its branch is the effect that the clause states. -/
theorem bellowsMeasuresRun : Obligations.BellowsMeasuresRun := by
  refine ⟨?stringSample, ?fullAnchor, ?faultClear, ?calStepStart, ?calStepEnd, ?calStepEndMeasured, ?bellStrForceIsolate, ?lvRecordWrite,
    ?aonSenseLow, ?aonSenseRise⟩
  case stringSample =>
    rintro d strings x y z rfl rfl rfl hdischarging
    refine Dev.takes_of_eq (fun _ => rfl) fun _ => ?_
    simp only [Dev.sampleAll, hdischarging]
  case fullAnchor =>
    intro d n hn hpresent hclosed hbelow
    have habove : ¬ Int.ofNat (d.qref n) ≤ -180000 * d.strI n := Int.not_le.2 hbelow
    refine Dev.takes_of_eq (fun _ => rfl) fun _ => ?_
    simp only [List.contains_iff_mem.2 hn, hpresent, hclosed, habove]
    rfl
  case faultClear =>
    intro d n fault hfaultHolds
    refine Dev.takes_of_eq (fun _ => rfl) fun _ => ?_
    simp [hfaultHolds]
  case calStepStart =>
    intro d n hen hcal hquench hcalNext
    refine Dev.takes_of_eq (fun _ => rfl) fun _ => ?_
    simp [hen, hcal, hquench, hcalNext, Dev.calStart]
  case calStepEnd =>
    rintro d n v1 i1 v2 i2 v3 i3 x hcal hcalResult rfl hcalRejects
    refine Dev.takes_of_eq (fun _ => rfl) fun _ => ?_
    simp [hcal, hcalResult, hcalRejects, Dev.calEnd]
  case calStepEndMeasured =>
    rintro d n m v v1 i1 v2 i2 v3 i3 x hcal hresult rfl hv hlo hhi
    refine Dev.takes_of_eq (fun _ => rfl) fun _ => ?_
    simp only [hcal, hresult, Dev.calEnd, ← hv, Nat.not_lt.2 hlo, Nat.not_lt.2 hhi, if_false, ne_eq, not_true_eq_false]
  case bellStrForceIsolate =>
    intro d n value hn
    refine Dev.takes_of_eq (fun _ => rfl) fun _ => ?_
    simp [hn]
  case lvRecordWrite =>
    intro d failed status
    exact Dev.takes_of_eq (fun _ => rfl) fun _ => rfl
  case aonSenseLow =>
    intro d mv ns hmv hns haonLow
    refine ⟨_, rfl, Dev.takes_of_eq (fun _ => rfl) fun _ => ?_⟩
    simp [hmv, hns, haonLow]
  case aonSenseRise =>
    rintro d mv x hf haonLow rfl
    refine Dev.takes_of_eq (fun _ => rfl) fun _ => ?_
    simp [hf, haonLow]

/-! ### The Bellows (R438 to R461) -/

theorem Dev.startAuth_of_present {d : Dev} {n : Nat} (hquench : d.quenching = false) (hpresent : (d.bstr n).present = true) :
    d.startAuth n = (d.modBstr n fun s => { s with auth := some ⟨0, false⟩ }).sendNonce n := by
  simp [Dev.startAuth, hquench, hpresent]

/-- A module's answer that passes ends its run with the string authenticated (R457). -/
theorem Dev.authResult_ok {d x : Dev} {n : Nat} {a : AuthRun} (hauth : (d.bstr n).auth = some a)
    (hx : x = (d.modBstr n fun s => { s with auth := none }).setB BELL_STR_STATUS.AUTHENTICATED true 0 n) :
    d.authResult n none = (x.raiseB .BELL_AUTH_OK [p1 n, p4 (x.strSerial n % 2 ^ 32)]).showStr n := by
  unfold Dev.authResult
  rw [hauth, ← hx]

/-- Settles O28: the guards of each command hold, and its branch is the effect that the clause states. -/
theorem bellowsLearningRuns : Obligations.BellowsLearningRuns := by
  refine ⟨?learnCheckStarts, ?learnCheckWaits, ?learnTimeout, ?learnRepend, ?learnPeriod, ?bellStrLearn, ?cancelPending, ?cancelRunning,
    ?authResponse, ?authRetry, ?authPeriodicAndReauth, ?serialPoll⟩
  case learnCheckStarts =>
    intro d n hpending hlearnWaits
    refine ⟨_, rfl, Dev.takes_of_eq (fun _ => rfl) fun _ => ?_⟩
    simp [hpending, hlearnWaits, Dev.forEach]
  case learnCheckWaits =>
    intro d n w hpending hlearnWaits hwaitSaid
    refine Dev.takes_of_eq (fun _ => rfl) fun _ => ?_
    simp [hpending, hlearnWaits, hwaitSaid, Dev.forEach, Dev.calStart]
  case learnTimeout =>
    intro d n hlearnState
    refine Dev.takes_of_eq (fun _ => rfl) fun _ => ?_
    simp [hlearnState]
  case learnRepend =>
    intro d n t hrependAt
    refine Dev.takes_of_eq (fun _ => rfl) fun _ => ?_
    simp [hrependAt]
  case learnPeriod =>
    intro d n hautoEn hn hlearnState
    refine Dev.takes_of_eq (fun _ => rfl) fun _ => ?_
    simp [hautoEn, hn, hlearnState]
  case bellStrLearn =>
    rintro d n x hmayLearn hlearnState rfl
    have henabled : bit d.swg.cfg.energy.flags 0 = true := by
      simp only [Dev.mayLearn, Bool.and_eq_true] at hmayLearn
      exact hmayLearn.1.1.1
    refine Dev.takes_of_eq (fun _ => rfl) fun _ => ?_
    simp [hmayLearn, Dev.schedule', henabled, hlearnState]
  case cancelPending =>
    intro d n hlearnState
    refine Dev.takes_of_eq (fun _ => rfl) fun _ => ?_
    simp [hlearnState, Dev.cancelLearn]
  case cancelRunning =>
    rintro d n x hlearnState rfl
    refine Dev.takes_of_eq (fun _ => rfl) fun _ => ?_
    simp [hlearnState, Dev.cancelLearn, Dev.abortLearn]
  case authResponse =>
    intro d n a x hquench hauth hx
    refine Dev.takes_of_eq (fun _ => rfl) fun _ => ?_
    simp only [hquench, Bool.false_eq_true, if_false, Dev.authResult_ok hauth hx]
  case authRetry =>
    rintro d n a x hauth hwaits hquench rfl
    refine Dev.takes_of_eq (fun _ => rfl) fun _ => ?_
    simp [hauth, hwaits, hquench, Dev.sendNonce]
  case authPeriodicAndReauth =>
    rintro d n x hquench hpresent rfl
    exact ⟨Dev.takes_of_eq (fun _ => rfl) fun _ => Dev.startAuth_of_present hquench hpresent,
      Dev.takes_of_eq (fun _ => rfl) fun _ => Dev.startAuth_of_present hquench hpresent⟩
  case serialPoll =>
    intro d answers x hquench hx hpresent
    have hkept : ((d.countedBut []).any fun n => !(x.bstr n).present) = false := by simpa using hpresent
    refine Dev.takes_of_eq (fun _ => rfl) fun _ => ?_
    simp only [hquench, ← hx, hkept, Bool.false_eq_true, if_false]

end Sys2Proof.Machine
end

section
/-! PROOFS. Quench and reheat: what the commands do. -/

namespace Sys2Proof.Machine

open Sys2Proof

/-- A trip outside a quench, once a heat is open, is T0 (R224). -/
theorem Dev.trip_starts {d : Dev} (hpowered : d.poweredDown = false) (hquench : d.quenching = false) (hopened : d.heat.opened = true)
    (cause : Nat) : d.trip cause = d.t0 cause := by
  simp only [Dev.trip, hpowered, hquench, hopened, Bool.not_true, Bool.false_eq_true, if_false]

/-- A supply low for its filter time trips, whatever its status bit shows. -/
theorem Dev.senseTrips_setB {d : Dev} {S T F : Fld} {mv ns : Nat} (hT : S ≠ T) (hF : S ≠ F) (hmv : mv < 400 + 4 * d.f T)
    (hns : filterNs (d.f F) ≤ ns) (v : Bool) : (d.setB S v).senseTrips T F mv ns = true := by
  simp only [Dev.senseTrips, d.f_setB_fld hT, d.f_setB_fld hF, hmv, hns, and_self, decide_true]

/-- A slice that has passed its fence is noted as drained, and the last one sends DRAINED (R162, R334). -/
theorem Dev.fenceDrained_of_passed {d x : Dev} {die slice : Nat} {q : Quench} (hquench : d.quench = some q) (hslice : slice < 8)
    (hdie : die ∈ q.dies) (hnotYet : sliceId die slice ∉ d.cru.drained) (hpassed : d.slicePassed die (sliceId die slice) = true)
    (hx : x = d.setCru fun c => { c with drained := c.drained ++ [sliceId die slice] }) :
    d.fenceDrained die slice =
      if q.drainSent ∨ !x.allDrained q then x
      else ((if x.rst.discard then x.discardAll else x).forEach (if x.rst.discard then x.discardAll else x).usable
        fun d l => d.notify q l 1 0).modQuench fun q => { q with drainSent := true } := by
  have hdrains : ¬ (8 ≤ slice ∨ (!q.dies.contains die) = true ∨ d.cru.drained.contains (sliceId die slice) = true ∨
      (!d.slicePassed die (sliceId die slice)) = true) := by
    simp [hslice, hdie, hnotYet, hpassed]
  simp only [Dev.fenceDrained, hquench, hdrains, ← hx, if_false]

/-- Settles O29: the guards of each command hold, and its branch is the effect that the clause states. -/
theorem quenchTripsRun : Obligations.QuenchTripsRun := by
  refine ⟨?mainSenseTrip, ?holdSenseTrip, ?pwrFailNTrip, ?pwrFailNTripQuenching, ?qnchTrigCtrlWriteLocked, ?qnchTrigCtrlWrite, ?fenceDrainedNotLast,
    ?fenceDrainedLast, ?powerShed⟩
  case mainSenseTrip =>
    intro d mv ns x hen hmv hns hx hpowered hquench hopened
    refine Dev.takes_of_eq (fun _ => rfl) fun _ => ?_
    have hen' : x.fb QNCH_TRIG_CTRL.MAIN_EN = true := by rw [hx, d.fb_setB_fld (by decide), hen]
    have htrips : x.senseTrips QNCH_TRIG_CTRL.MAIN_THRESH QNCH_TRIG_CTRL.MAIN_FILTER mv ns = true :=
      hx ▸ Dev.senseTrips_setB (by decide) (by decide) hmv hns false
    simp only [decide_eq_false (Nat.not_le.2 hmv), ← hx, hen', htrips, Bool.and_self, if_true, Dev.trip_starts hpowered hquench hopened]
  case holdSenseTrip =>
    intro d mv ns x hen hmv hns hx hpowered hquench hopened
    refine Dev.takes_of_eq (fun _ => rfl) fun _ => ?_
    have hen' : x.fb QNCH_TRIG_CTRL.HOLD_EN = true := by rw [hx, d.fb_setB_fld (by decide), hen]
    have htrips : x.senseTrips QNCH_TRIG_CTRL.HOLD_THRESH QNCH_TRIG_CTRL.HOLD_FILTER mv ns = true :=
      hx ▸ Dev.senseTrips_setB (by decide) (by decide) hmv hns false
    simp only [decide_eq_false (Nat.not_le.2 hmv), ← hx, hen', htrips, Bool.and_self, if_true, Dev.trip_starts hpowered hquench hopened]
  case pwrFailNTrip =>
    intro d ns x hen hns hx hpowered hquench hopened
    refine Dev.takes_of_eq (fun _ => rfl) fun _ => ?_
    have hen' : x.fb QNCH_TRIG_CTRL.PFN_EN = true := by rw [hx, d.fb_setB_fld (by decide), hen]
    have hns' : filterNs (x.f QNCH_TRIG_CTRL.PFN_FILTER) ≤ ns := by rwa [hx, d.f_setB_fld (by decide)]
    simp only [← hx, hen', hns', decide_true, Bool.and_self, if_true, Dev.trip_starts hpowered hquench hopened]
  case pwrFailNTripQuenching =>
    intro d ns x hen hns hx hpowered hquench
    refine Dev.takes_of_eq (fun _ => rfl) fun _ => ?_
    have hen' : x.fb QNCH_TRIG_CTRL.PFN_EN = true := by rw [hx, d.fb_setB_fld (by decide), hen]
    have hns' : filterNs (x.f QNCH_TRIG_CTRL.PFN_FILTER) ≤ ns := by rwa [hx, d.f_setB_fld (by decide)]
    simp only [← hx, hen', hns', decide_true, Bool.and_self, if_true, Dev.trip, hpowered, hquench, Bool.false_eq_true, if_false]
  case qnchTrigCtrlWriteLocked =>
    intro d value hlock
    refine Dev.takes_of_eq (fun _ => rfl) fun _ => ?_
    simp [hlock, Dev.writeTrigCtrl]
  case qnchTrigCtrlWrite =>
    intro d value hlock hbits hbits' hbits'' hbits''' hbit
    refine Dev.takes_of_eq (fun _ => rfl) fun _ => ?_
    simp [hlock, hbits, hbits', hbits'', hbits''', hbit, Dev.writeTrigCtrl]
  case fenceDrainedNotLast =>
    intro d die slice q x hquench hslice hdie hnotYet hpassed hx hall
    refine Dev.takes_of_eq (fun _ => rfl) fun _ => ?_
    simp only [Dev.fenceDrained_of_passed hquench hslice hdie hnotYet hpassed hx, hall, Bool.not_false, or_true, if_true]
  case fenceDrainedLast =>
    intro d die slice q x hquench hslice hdie hnotYet hpassed hx hall hsent hdiscard
    refine Dev.takes_of_eq (fun _ => rfl) fun _ => ?_
    simp only [Dev.fenceDrained_of_passed hquench hslice hdie hnotYet hpassed hx, hall, hsent, hdiscard, Bool.not_true, Bool.false_eq_true, or_self,
      if_false]
  case powerShed =>
    intro d die lowest ack
    exact Dev.takes_of_eq (fun _ => rfl) fun _ => rfl

/-- Settles O30: the quench is at the point that the command continues, and the command's branch is the effect that the clause states. -/
theorem quenchDumpRuns : Obligations.QuenchDumpRuns := by
  refine ⟨?dirtyWalkStart, ?segmentProgramDone, ?quenchBlockFail, ?quenchNandDieFail, ?quenchNandDieReady, ?trailerProgram, ?commitRecordProgram,
    ?commitPointerProgram⟩
  case dirtyWalkStart =>
    rintro d die bad q p w found x y hquench hpart hsanitize hwalked hdieDrained hdiscard hwalk htagWalk rfl rfl
    refine Dev.takes_of_eq (fun _ => rfl) fun _ => ?_
    simp [hquench, hpart, hsanitize, hwalked, hdieDrained, hdiscard, hwalk, htagWalk, Dev.walkStart, -List.contains_eq_mem]
  case segmentProgramDone =>
    intro d die chan nand writer q p x hquench hrunning hx
    refine Dev.takes_of_eq (fun _ => rfl) fun _ => ?_
    simp [hquench, hrunning, hx, Dev.programDone] <;> rfl
  case quenchBlockFail =>
    rintro d die chan nand plane writer n q p g u x rfl hquench hrunning hpart hlast rfl rfl
    refine Dev.takes_of_eq (fun _ => rfl) fun _ => ?_
    have hlast' : 3 ≤ tgetD q.fails ⟨die, chan, nand⟩ 0 + 1 ∨ 8 ≤ g.reprograms := hlast.imp_left (Nat.succ_le_succ ·)
    simp only [Dev.qnchBlockFail, hquench, hrunning, hpart, hlast', if_true]
    rfl
  case quenchNandDieFail =>
    intro d die chan nand hnandUp
    refine Dev.takes_of_eq (fun _ => rfl) fun _ => ?_
    simp [hnandUp]
  case quenchNandDieReady =>
    rintro d die chan nand q n rfl hquench herasing
    refine Dev.takes_of_eq (fun _ => rfl) fun _ => ?_
    simp only [hquench, herasing, Option.isNone_some, List.isEmpty_nil, Bool.not_true, Bool.or_self, Bool.false_eq_true, if_false]
  case trailerProgram =>
    intro d die q p hquench hpart hwalked hidle htrailer
    refine Dev.takes_of_eq (fun _ => rfl) fun _ => ?_
    simp [hquench, hpart, hwalked, hidle, htrailer, Dev.trailerStart]
  case commitRecordProgram =>
    rintro d ms q x y c hquench hsanitize hcommit htrailersDone rfl rfl hc
    refine Dev.takes_of_eq (fun _ => rfl) fun _ => ?_
    simp [hquench, hsanitize, hcommit, htrailersDone, hc, Dev.commitStart]
  case commitPointerProgram =>
    rintro d status q x y hquench hpointer hcommitsDone hkept rfl rfl
    refine Dev.takes_of_eq (fun _ => rfl) fun _ => ?_
    simp [hquench, hpointer, hcommitsDone, hkept, Dev.pointerStart, Dev.forEach]

/-- Settles O31: reheat is at the step that the command takes, and the command's branch is the effect that the clause states. -/
theorem reheatStepsRun : Obligations.ReheatStepsRun := by
  refine ⟨?reheatLocate, ?ingotScan, ?reheatRecordsProgramFails, ?reheatRecordsProgram, ?eagerRestoreDone, ?indexPassSegment, ?indexDeadline,
    ?gatesReopen, ?segmentRestore, ?ingotRelease, ?rhtDiscard⟩
  case reheatLocate =>
    rintro d x hphase hquench rfl
    refine Dev.takes_of_eq (fun _ => rfl) fun _ => ?_
    simp [hphase, hquench]
  case ingotScan =>
    intro d bad hphase hscanned hquench
    refine Dev.takes_of_eq (fun _ => rfl) fun _ => ?_
    simp [hphase, hscanned, hquench]
  case reheatRecordsProgramFails =>
    intro d status hscanned hrecorded hheld hquench htotal
    refine Dev.takes_of_eq (fun _ => rfl) fun _ => ?_
    simp only [hscanned, hrecorded, hheld, hquench, htotal, Dev.claimNext, Option.isSome_none, decide_false, Bool.not_true, Bool.not_false,
      Bool.true_or, Bool.or_self, Bool.false_eq_true, if_false, if_true]
  case reheatRecordsProgram =>
    rintro d status x y hscanned hrecorded hheld hquench htotal hclaim hrestore rfl hrestore'
    refine Dev.takes_of_eq (fun _ => rfl) fun _ => ?_
    have hrestore'' : (x.firstHeat.setRht fun z => { z with recorded := true, indexAt := x.firstHeat.now }).rht.restore = none := hrestore'
    simp only [hscanned, hrecorded, hheld, hquench, htotal, hclaim, hrestore, Dev.afterRecords, hrestore'', Option.isSome_none, decide_false,
      Bool.not_true, Bool.or_self, Bool.false_eq_true, if_false]
  case eagerRestoreDone =>
    intro d r x y hrestore hlazy hphase hquench hretired hjudge hx hjudge' hy
    refine Dev.takes_of_eq (fun _ => rfl) fun _ => ?_
    have hnames : ((dedup (r.segs.map (·.named)).flatten).filter fun s => !d.rht.judge.contains s) = dedup (r.segs.map (·.named)).flatten := by
      simp [hjudge]
    have hnone : x.forEach [] (fun e s => e.eagerJudge s) = x := rfl
    simp only [Dev.eagerDone, hrestore, hlazy, hphase, hquench, hretired, hnames, ← hx, hjudge', hnone, ← hy, ne_eq, not_true, decide_false,
      Bool.not_true, Bool.or_self, Bool.false_eq_true, if_false]
    rfl
  case indexPassSegment =>
    intro d die num seen broken hphase
    refine Dev.takes_of_eq (fun _ => rfl) fun _ => ?_
    simp [hphase]
  case indexDeadline =>
    rintro d die r x hphase hindexDone hindexPartial hdie hquench rfl hrestore
    refine Dev.takes_of_eq (fun _ => rfl) fun _ => ?_
    simp [hphase, hindexDone, hindexPartial, hdie, hquench, hrestore]
  case gatesReopen =>
    intro d x y hserve hcomputed hx hy hrestore
    refine Dev.takes_of_eq (fun _ => rfl) fun _ => ?_
    simp only [hserve, hcomputed, ← hx, ← hy, hrestore, Bool.not_true, Bool.false_eq_true, if_false, if_true]
  case segmentRestore =>
    intro d gen die num auth m hrecorded
    refine Dev.takes_of_eq (fun _ => rfl) fun _ => ?_
    simp [hrecorded]
  case ingotRelease =>
    intro d r x y hrestore hfence hquench hretired hx hy
    refine Dev.takes_of_eq (fun _ => rfl) fun _ => ?_
    simp only [Dev.ingotRelease, hrestore, hfence, hquench, hretired, ← hx, ← hy, Bool.not_true, Bool.or_self, Bool.false_eq_true, if_false]
  case rhtDiscard =>
    rintro d r x hheld rfl
    refine Dev.takes_of_eq (fun _ => rfl) fun _ => ?_
    simp [hheld]

end Sys2Proof.Machine
end

section
/-! PROOFS. Resets, start-up and the service of dies: what the commands do. -/

namespace Sys2Proof.Machine

open Sys2Proof

/-- Settles O32: the guards of each command hold, and its branch is the effect that the clause states. -/
theorem resetCommandsRun : Obligations.ResetCommandsRun := by
  refine ⟨?quenchEndLowSupply, ?quenchEnd, ?bellowsPor, ?bellowsPorPowered, ?resetNGlitch, ?resetNAssert, ?resetNRelease, ?nqWindowExpire,
    ?resetProceedAfterQuench, ?resetProceedAfterDrives, ?resetProceedAfterStore, ?romResetRequest, ?vddAonFall⟩
  case quenchEndLowSupply =>
    rintro d st q x hquench hpointer hpending rfl
    refine Dev.takes_of_eq (fun _ => rfl) fun _ => ?_
    have hpending' : (d.setPin "QUENCH_OUT" 0 0).rst.pending = none := hpending
    simp only [hquench, hpointer, Dev.quenchEnds, hpending', Bool.false_and, Bool.false_eq_true, if_false, if_true]
  case quenchEnd =>
    rintro d st q x hquench hpointer hpending rfl
    refine Dev.takes_of_eq (fun _ => rfl) fun _ => ?_
    have hpending' : (d.setPin "QUENCH_OUT" 0 0).rst.pending = none := hpending
    simp only [hquench, hpointer, Dev.quenchEnds, hpending', Bool.and_self, if_true]
  case bellowsPor =>
    intro d st hpowered
    refine Dev.takes_of_eq (fun _ => rfl) fun _ => ?_
    simp [hpowered]
  case bellowsPorPowered =>
    intro d st hpowered
    refine Dev.takes_of_eq (fun _ => rfl) fun _ => ?_
    simp [hpowered]
  case resetNGlitch =>
    intro d lowNs st hpowered hasserted hlowNs
    refine Dev.takes_of_eq (fun _ => rfl) fun _ => ?_
    simp [hpowered, hasserted, hlowNs]
  case resetNAssert =>
    intro d lowNs st hpowered hasserted hlowNs
    refine Dev.takes_of_eq (fun _ => rfl) fun _ => ?_
    simp [hpowered, hasserted, hlowNs]
  case resetNRelease =>
    intro d st hinReset
    refine Dev.takes_of_eq (fun _ => rfl) fun _ => ?_
    simp [hinReset]
  case nqWindowExpire =>
    intro d t hwindow
    refine Dev.takes_of_eq (fun _ => rfl) fun _ => ?_
    simp [hwindow]
  case resetProceedAfterQuench =>
    intro d st p hpending hwaits hquench
    refine Dev.takes_of_eq (fun _ => rfl) fun _ => ?_
    simp [hpending, hwaits, hquench, Dev.resetProceeds]
  case resetProceedAfterDrives =>
    intro d st p hpending hwaits
    refine Dev.takes_of_eq (fun _ => rfl) fun _ => ?_
    simp [hpending, hwaits, Dev.resetProceeds]
  case resetProceedAfterStore =>
    intro d st p hpending hwaits hrunning
    refine Dev.takes_of_eq (fun _ => rfl) fun _ => ?_
    have hnotQuench : p.waits ≠ 0 := by omega
    have hnotDrives : p.waits ≠ 1 := by omega
    simp only [Dev.resetProceeds, hpending, hnotQuench, hnotDrives, hrunning, List.isEmpty_nil, if_false, if_true]
  case romResetRequest =>
    rintro d st x hphase hpowered hinReset rfl
    refine Dev.takes_of_eq (fun _ => rfl) fun _ => ?_
    simp [hphase, hpowered, hinReset]
  case vddAonFall =>
    intro d group hpowered
    refine Dev.takes_of_eq (fun _ => rfl) fun _ => ?_
    simp [hpowered]

/-- Settles O33: the guards of each command hold, and its branch is the effect that the clause states. -/
theorem serviceEventsRun : Obligations.ServiceEventsRun := by
  refine ⟨?d2dLinkFault, ?d2dRetrainDone, ?d2dRetrainFails, ?sliceParityError, ?sliceProgressTimeout, ?sliceFailsUnspared, ?quadTrainFailure,
    ?smithWatchdog, ?smithMemoryUe, ?rankCopyDone, ?vddControl, ?lifeTick, ?lifeRecord⟩
  case d2dLinkFault =>
    intro d die link hserv hdie
    refine Dev.takes_of_eq (fun _ => rfl) fun _ => ?_
    simp [hserv, hdie]
  case d2dRetrainDone =>
    rintro d die link us x hdie rfl
    refine Dev.takes_of_eq (fun _ => rfl) fun _ => ?_
    simp [hdie]
  case d2dRetrainFails =>
    rintro d die link us x hdie rfl
    refine Dev.takes_of_eq (fun _ => rfl) fun _ => ?_
    simp [hdie]
  case sliceParityError =>
    intro d die slice hserv hslice hspareSlice
    refine Dev.takes_of_eq (fun _ => rfl) fun _ => ?_
    simp [hserv, hslice, hspareSlice, Dev.sliceFails]
  case sliceProgressTimeout =>
    intro d die slice hserv hslice hspareSlice
    refine Dev.takes_of_eq (fun _ => rfl) fun _ => ?_
    simp [hserv, hslice, hspareSlice, Dev.sliceFails]
  case sliceFailsUnspared =>
    intro d die slice hserv hslice hspare
    have hout (cause : Nat) : d.sliceFails die slice cause = d.dieOut die 1 true := by
      simp [Dev.sliceFails, hserv, hslice, hspare]
    exact ⟨Dev.takes_of_eq (fun _ => rfl) fun _ => hout 1, Dev.takes_of_eq (fun _ => rfl) fun _ => hout 2⟩
  case quadTrainFailure =>
    intro d die quad hautoQuad hspareQuad
    refine Dev.takes_of_eq (fun _ => rfl) fun _ => ?_
    simp [hautoQuad, hspareQuad]
  case smithWatchdog =>
    intro d die a x hserv hsmithDead hstandby ha hx
    refine Dev.takes_of_eq (fun _ => rfl) fun _ => ?_
    simp [hserv, hsmithDead, hstandby, ha, hx, Dev.smithFails]
  case smithMemoryUe =>
    intro d die a x hserv hsmithDead hstandby ha hx
    refine Dev.takes_of_eq (fun _ => rfl) fun _ => ?_
    simp [hserv, hsmithDead, hstandby, ha, hx, Dev.smithFails]
  case rankCopyDone =>
    intro d die c k hcopy hquench hrun hchanState
    refine Dev.takes_of_eq (fun _ => rfl) fun _ => ?_
    simp [hcopy, hquench, hrun, hchanState, Dev.copyDone]
  case vddControl =>
    intro d die lowest island ack x hserv hquench hx hlow
    refine Dev.takes_of_eq (fun _ => rfl) fun _ => ?_
    simp only [Dev.vddControl, hserv, hquench, ← hx, hlow, Bool.not_true, Bool.or_self, Bool.false_eq_true, if_false, if_true]
  case lifeTick =>
    intro d die tj x hserv hx
    refine Dev.takes_of_eq (fun _ => rfl) fun _ => ?_
    simp only [Dev.lifeTick, hserv, ← hx, Bool.not_true, Bool.false_eq_true, if_false]
  case lifeRecord =>
    intro d
    exact Dev.takes_of_eq (fun _ => rfl) fun _ => rfl

/-- Settles O34: the die's firmware may command, and the command's branch is the effect that the clause states. -/
theorem serviceCommandsRun : Obligations.ServiceCommandsRun := by
  refine ⟨?svcSliceSpare, ?svcQuadSpare, ?svcRankSpare, ?svcSmithSwitch, ?svcCmdUnsupported⟩
  case svcSliceSpare =>
    rintro d die slice x hserv hsmithDead hquench hbusy rfl hslice hspareSlice
    refine Dev.takes_of_eq (fun _ => rfl) fun _ => ?_
    simp [hserv, hsmithDead, hquench, hbusy, hslice, hspareSlice, Dev.svcCmd]
  case svcQuadSpare =>
    rintro d die quad x hserv hsmithDead hquench hbusy rfl hspareQuad
    refine Dev.takes_of_eq (fun _ => rfl) fun _ => ?_
    simp [hserv, hsmithDead, hquench, hbusy, hspareQuad, Dev.svcCmd]
  case svcRankSpare =>
    rintro d die target x hserv hsmithDead hquench hbusy rfl hrange hcanSpare
    refine Dev.takes_of_eq (fun _ => rfl) fun _ => ?_
    simp [hserv, hsmithDead, hquench, hbusy, hrange, hcanSpare, Dev.svcCmd]
  case svcSmithSwitch =>
    rintro d die x hserv hsmithDead hquench hbusy rfl hstandby
    refine Dev.takes_of_eq (fun _ => rfl) fun _ => ?_
    simp [hserv, hsmithDead, hquench, hbusy, hstandby, Dev.svcCmd]
  case svcCmdUnsupported =>
    rintro d die op target x hop hserv hsmith hquench hbusy rfl
    refine Dev.takes_of_eq (fun _ => rfl) fun _ => ?_
    have hunknown : ¬ (1 ≤ op % 8 ∧ op % 8 ≤ 4) := by omega
    simp only [hunknown, if_false]
    simp [hserv, hsmith, hquench, hbusy, Dev.svcCmd]

/-- Settles O38: the start-up is at the step that the command takes, and the command's branch is the effect that the clause states. -/
theorem startupFirmwareRuns : Obligations.StartupFirmwareRuns := by
  refine ⟨?startupRomRecoveryStrap, ?startupRomVerifyA, ?startupRomVerifyB, ?startupRomVerifyOther, ?startupRomVerifyNeither, ?romGetFwInfo,
    ?romTransferFw, ?romActivateFw, ?romInvalidSlot, ?startupBindingFails, ?startupOwnerUnlocked, ?startupChecksPass, ?swageLoadA, ?swageLoadB,
    ?swageLoadNeither⟩
  case startupRomRecoveryStrap =>
    intro d a b hatStep hrecovery
    refine Dev.takes_of_eq (fun _ => rfl) fun _ => ?_
    simp [hatStep, hrecovery]
  case startupRomVerifyA =>
    intro d b w hatStep hrecovery hnamedSlot hfw hok
    refine Dev.takes_of_eq (fun _ => rfl) fun _ => ?_
    simp [hatStep, hrecovery, hnamedSlot, hfw, hok, Dev.slotFails]
  case startupRomVerifyB =>
    intro d b w hatStep hrecovery hnamedSlot hfw hok
    refine Dev.takes_of_eq (fun _ => rfl) fun _ => ?_
    simp [hatStep, hrecovery, hnamedSlot, hfw, hok, Dev.slotFails]
  case startupRomVerifyOther =>
    intro d c w hatStep hrecovery hnamedSlot hfw hok
    refine Dev.takes_of_eq (fun _ => rfl) fun _ => ?_
    simp [hatStep, hrecovery, hnamedSlot, hfw, hok, Dev.slotFails]
  case startupRomVerifyNeither =>
    intro d c e hstep hrecovery
    refine Dev.takes_of_eq (fun _ => rfl) fun _ => ?_
    have hfails (slot : Nat) : ∃ cause, d.slotFails slot (if slot = 0 then some c else some e) = some cause := by
      by_cases h : slot = 0
      · exact ⟨c, by simp only [h, if_true, Dev.slotFails]⟩
      · exact ⟨e, by simp only [h, if_false, Dev.slotFails]⟩
    obtain ⟨cause, hnamed⟩ := hfails (d.namedSlot % 2)
    obtain ⟨cause', hother⟩ := hfails (1 - d.namedSlot % 2)
    simp only [hstep, hrecovery, hnamed, hother, Bool.not_true, Bool.false_eq_true, if_false]
  case romGetFwInfo =>
    intro d hinRecovery
    refine Dev.takes_of_eq (fun _ => rfl) fun _ => ?_
    simp [hinRecovery]
  case romTransferFw =>
    intro d slot revision hinRecovery hslot
    refine Dev.takes_of_eq (fun _ => rfl) fun _ => ?_
    simp [hinRecovery, hslot]
  case romActivateFw =>
    intro d slot hinRecovery hslot
    refine Dev.takes_of_eq (fun _ => rfl) fun _ => ?_
    simp [hinRecovery, hslot]
  case romInvalidSlot =>
    intro d slot revision v hrecovers hslot
    refine ⟨Dev.takes_of_eq (fun _ => rfl) fun _ => ?_, Dev.takes_of_eq (fun _ => rfl) fun _ => ?_⟩
    · simp only [hrecovers, hslot, Bool.not_true, Bool.false_eq_true, if_false, if_true]
    · simp only [hrecovers, hslot, Bool.not_true, Bool.false_eq_true, if_false, if_true]
  case startupBindingFails =>
    intro d die tripping hatStep
    refine Dev.takes_of_eq (fun _ => rfl) fun _ => ?_
    simp [hatStep]
  case startupOwnerUnlocked =>
    intro d x hstep hx hlock
    refine Dev.takes_of_eq (fun _ => rfl) fun _ => ?_
    simp only [hstep, ← hx, hlock, ne_eq, not_true, Bool.not_true, Bool.not_false, Bool.false_eq_true, if_false, if_true]
  case startupChecksPass =>
    intro d x hstep hx hlock hhealthy
    refine Dev.takes_of_eq (fun _ => rfl) fun _ => ?_
    simp only [hstep, ← hx, hlock, hhealthy, ne_eq, not_true, Bool.not_true, Bool.false_eq_true, if_false, if_true]
  case swageLoadA =>
    intro d sa sb bank ca cb ga gb la lb hatStep hverifyImage hverifyImage' hca hcb
    refine Dev.takes_of_eq (fun _ => rfl) fun _ => ?_
    simp [hatStep, hverifyImage, hverifyImage', hca, hcb]
  case swageLoadB =>
    rintro d sa sb bank ca cb ga gb la lb hstep hA hB rfl hnewer
    refine Dev.takes_of_eq (fun _ => rfl) fun _ => ?_
    have hnotA : ¬ (ca = 0 ∧ ((0 : Nat) ≠ 0 ∨ gb.serial ≤ ga.serial)) := by omega
    simp only [hstep, hA, hB, hnotA, Bool.not_true, Bool.false_eq_true, if_false, if_true]
  case swageLoadNeither =>
    intro d sa sb bank ca cb ga gb la lb hatStep hverifyImage hverifyImage' hca hcb
    refine Dev.takes_of_eq (fun _ => rfl) fun _ => ?_
    simp [hatStep, hverifyImage, hverifyImage', hca, hcb]

/-- Settles O39: the start-up or the die is at the point that the command continues, and the command's branch is the effect that the clause states. -/
theorem startupDiesRun : Obligations.StartupDiesRun := by
  refine ⟨?fenceWireTest, ?diePowerEnable, ?diePgAssertPasses, ?diePgAssertFails, ?diePgTimeout, ?diePgFall, ?diePgFallQuenching,
    ?spdPopulationCheck, ?initialTrainingDone, ?tagStoreInit⟩
  case fenceWireTest =>
    rintro d failed x hatStep rfl
    refine Dev.takes_of_eq (fun _ => rfl) fun _ => ?_
    simp [hatStep]
  case diePowerEnable =>
    intro d die hatStep hdie hkeptOut hdie'
    refine Dev.takes_of_eq (fun _ => rfl) fun _ => ?_
    simp [hatStep, hdie, hkeptOut, hdie']
  case diePgAssertPasses =>
    intro d die bist x hatStep hdie hdie' htestSlices
    refine Dev.takes_of_eq (fun _ => rfl) fun _ => ?_
    simp [hatStep, hdie, hdie', htestSlices]
  case diePgAssertFails =>
    intro d die bist x hatStep hdie hdie' htestSlices
    refine Dev.takes_of_eq (fun _ => rfl) fun _ => ?_
    simp [hatStep, hdie, hdie', htestSlices]
  case diePgTimeout =>
    intro d die hatStep hdie hdie'
    refine Dev.takes_of_eq (fun _ => rfl) fun _ => ?_
    simp [hatStep, hdie, hdie']
  case diePgFall =>
    intro d die ns hdie hdie' hns hquench
    refine Dev.takes_of_eq (fun _ => rfl) fun _ => ?_
    simp [hdie, hdie', hns, hquench]
  case diePgFallQuenching =>
    intro d die ns hdie hdie' hns hquench
    refine Dev.takes_of_eq (fun _ => rfl) fun _ => ?_
    simp [hdie, hdie', hns, hquench]
  case spdPopulationCheck =>
    intro d chans a ps hstep hpop hmatch
    refine Dev.takes_of_eq (fun _ => rfl) fun _ => ?_
    have hnoneBad : ((a :: ps).map fun p => (d.swg.cfg.dram.popFails a p).map fun k => (p, k)).flatten = [] := by
      simpa [List.flatten_eq_nil_iff] using hmatch
    simp only [hstep, hpop, hnoneBad, List.isEmpty_nil, Bool.not_true, Bool.false_eq_true, if_false, if_true]
  case initialTrainingDone =>
    intro d failed repairs x y z hstep hmapped hx hy hz
    refine Dev.takes_of_eq (fun _ => rfl) fun _ => ?_
    simp only [hstep, hmapped, ← hx, ← hy, ← hz, Bool.not_true, Bool.false_eq_true, if_false]
    subst hz
    rfl
  case tagStoreInit =>
    rintro d x y hatStep rfl rfl
    refine Dev.takes_of_eq (fun _ => rfl) fun _ => ?_
    simp [hatStep]

end Sys2Proof.Machine
end

section
/-! PROOFS. Attestation, keys and alarms: what the commands do. -/

namespace Sys2Proof.Machine

open Sys2Proof

/-- A ready responder answers on the request's transport (R529). -/
theorem Dev.spdmAnswer_of_ready {d : Dev} {t : Path} (h : d.spdmReady t = true) (name : String) (fields : Fields) :
    d.spdmAnswer t name fields = d.emit (.spdm t name fields) := by
  simp [Dev.spdmAnswer, h, Dev.spdmReply]

/-- Settles O35: the responder is ready or the session is on, and the command's branch is the answer that the clause states. -/
theorem spdmRequestsRun : Obligations.SpdmRequestsRun := by
  refine ⟨?spdmFixedAnswers, ?spdmGetCertificate, ?spdmUnknownSlot, ?spdmSignedAnswers, ?spdmKeyExchange, ?spdmFinish, ?spdmEndSession⟩
  case spdmFixedAnswers =>
    intro d t hready
    exact ⟨Dev.takes_of_eq (fun _ => rfl) fun _ => Dev.spdmAnswer_of_ready hready _ _,
      Dev.takes_of_eq (fun _ => rfl) fun _ => Dev.spdmAnswer_of_ready hready _ _,
      Dev.takes_of_eq (fun _ => rfl) fun _ => Dev.spdmAnswer_of_ready hready _ _,
      Dev.takes_of_eq (fun _ => rfl) fun _ => Dev.spdmAnswer_of_ready hready _ _,
      Dev.takes_of_eq (fun _ => rfl) fun _ => Dev.spdmAnswer_of_ready hready _ _⟩
  case spdmGetCertificate =>
    intro d t off len n hready hn
    refine Dev.takes_of_eq (fun _ => rfl) fun _ => ?_
    simp only [hn, Dev.spdmAnswer_of_ready hready, ne_eq, not_true, if_false]
  case spdmUnknownSlot =>
    intro d t slot off len nonce hready hslot
    refine ⟨Dev.takes_of_eq (fun _ => rfl) fun _ => ?_, Dev.takes_of_eq (fun _ => rfl) fun _ => ?_⟩
    · simp only [hslot, Dev.spdmAnswer_of_ready hready, ne_eq, not_false_eq_true, if_true]
    · simp only [hslot, Dev.spdmAnswer_of_ready hready, ne_eq, not_false_eq_true, if_true]
  case spdmSignedAnswers =>
    intro d t nonce hready
    have hticked : d.tick.spdmReady t = true := hready
    exact ⟨Dev.takes_of_eq (fun _ => rfl) fun _ => Dev.spdmAnswer_of_ready hticked _ _,
      Dev.takes_of_eq (fun _ => rfl) fun _ => Dev.spdmAnswer_of_ready hticked _ _⟩
  case spdmKeyExchange =>
    intro d t byOwner hspdmReady hsessions
    refine Dev.takes_of_eq (fun _ => rfl) fun _ => ?_
    simp [hspdmReady]
  case spdmFinish =>
    intro d t id ok x hsessionOn
    refine Dev.takes_of_eq (fun _ => rfl) fun _ => ?_
    simp [hsessionOn, Dev.spdmReply]
  case spdmEndSession =>
    intro d t id x hsessionOn
    refine Dev.takes_of_eq (fun _ => rfl) fun _ => ?_
    simp [hsessionOn, Dev.spdmReply]

/-- Settles O36: the session or the job is the one named, and the command's branch is the effect that the clause states. -/
theorem keyMessagesRun : Obligations.KeyMessagesRun := by
  refine ⟨?ideKmQuery, ?ideKmKeyProg, ?ideKmKSetGoNoKey, ?ideKmKSetGo, ?ideKmKSetStop, ?cipherJobStart, ?cipherJobStartOfStream, ?cipherJobStartBusy,
    ?cipherJobEnd⟩
  case ideKmQuery =>
    intro d session die port t hsession
    refine ⟨Dev.takes_of_eq (fun _ => rfl) fun _ => ?_, Dev.takes_of_eq (fun _ => rfl) fun _ => ?_⟩
    · simp only [hsession, Dev.spdmReply]
    · simp only [hsession, Dev.spdmReply]
  case ideKmKeyProg =>
    intro d session die port stream set sub key t x hideSession hset hsub hwriteKey
    refine Dev.takes_of_eq (fun _ => rfl) fun _ => ?_
    simp [hideSession, hset, hsub, hwriteKey, Dev.spdmReply]
  case ideKmKSetGoNoKey =>
    intro d session die port stream set t x hsession hx hholds
    refine Dev.takes_of_eq (fun _ => rfl) fun _ => ?_
    simp only [hsession, ← hx, hholds, Dev.spdmReply, Bool.false_eq_true, if_false]
  case ideKmKSetGo =>
    intro d session die port stream set t x y hsession hx hholds hy
    refine Dev.takes_of_eq (fun _ => rfl) fun _ => ?_
    simp only [hsession, ← hx, hholds, ← hy, Dev.spdmReply, if_true]
  case ideKmKSetStop =>
    rintro d session die port stream t x hideSession rfl hdie
    refine Dev.takes_of_eq (fun _ => rfl) fun _ => ?_
    simp [hideSession, hdie, Dev.spdmReply]
  case cipherJobStart =>
    intro d die slot group ok hhasSlot hpowered
    refine Dev.takes_of_eq (fun _ => rfl) fun _ => ?_
    simp [hhasSlot, hpowered]
  case cipherJobStartOfStream =>
    intro d die slot group t ok hhasSlot hpowered hstreams
    refine Dev.takes_of_eq (fun _ => rfl) fun _ => ?_
    simp [hhasSlot, hpowered, hstreams]
  case cipherJobStartBusy =>
    intro d die slot group t job ok hslot hpowered hstreams hkey
    refine Dev.takes_of_eq (fun _ => rfl) fun _ => ?_
    have hfails : (ok && (d.cell (.package 7)).key.isSome) = false := by
      cases ok with
      | false => rfl
      | true => simp [hkey rfl]
    simp only [hslot, hpowered, hstreams, hfails, Option.isSome_some, Bool.not_true, Bool.or_self, Bool.false_eq_true, if_false, if_true]
  case cipherJobEnd =>
    rintro d j id x hjobs hgen rfl
    refine Dev.takes_of_eq (fun _ => rfl) fun _ => ?_
    have hgen' : ((d.setSec fun c => { c with
        jobs := c.jobs.filter fun y => decide (y.id ≠ id), streams := c.streams.filter fun e => decide (e.2 ≠ id) }).cell j.slot).gen = j.gen := hgen
    simp only [Dev.endJob, hjobs]
    rw [if_pos hgen']
    rfl

/-- Settles O37: the guards of each command hold, and its branch is the effect that the clause states. -/
theorem alarmsRun : Obligations.AlarmsRun := by
  refine ⟨?drbgHealthFail, ?drbgHealthPass, ?tamperNAlarm, ?shieldMeshAlarm, ?voltageAlarm, ?voltageAlarmOfDie, ?clockAlarm, ?temperatureAlarm,
    ?keyReload, ?reserveRetry, ?ownerKeyBurn⟩
  case drbgHealthFail =>
    intro d test
    exact Dev.takes_of_eq (fun _ => rfl) fun _ => rfl
  case drbgHealthPass =>
    intro d
    exact Dev.takes_of_eq (fun _ => rfl) fun _ => rfl
  case tamperNAlarm =>
    intro d ns st hns
    refine Dev.takes_of_eq (fun _ => rfl) fun _ => ?_
    simp [hns]
  case shieldMeshAlarm =>
    intro d st
    exact Dev.takes_of_eq (fun _ => rfl) fun _ => rfl
  case voltageAlarm =>
    intro d mv ns st hmv hns
    refine Dev.takes_of_eq (fun _ => rfl) fun _ => ?_
    simp [hmv, hns, Dev.glitchTampers]
  case voltageAlarmOfDie =>
    intro d die mv ns st hdie hdie' hmv hns
    refine Dev.takes_of_eq (fun _ => rfl) fun _ => ?_
    simp [hdie, hdie', hmv, hns, Dev.glitchTampers]
  case clockAlarm =>
    intro d off n st hoff hn
    refine Dev.takes_of_eq (fun _ => rfl) fun _ => ?_
    simp [hoff, hn, Dev.glitchTampers]
  case temperatureAlarm =>
    intro d tj st htj
    refine Dev.takes_of_eq (fun _ => rfl) fun _ => ?_
    simp [htj, Dev.glitchTampers]
  case keyReload =>
    intro d q hreload hquench
    refine Dev.takes_of_eq (fun _ => rfl) fun _ => ?_
    simp [hreload, hquench]
  case reserveRetry =>
    intro d ok status hreserveRetry hquench
    refine Dev.takes_of_eq (fun _ => rfl) fun _ => ?_
    simp [hreserveRetry, hquench]
  case ownerKeyBurn =>
    intro d key h x hmbReady hownerHash haonLow hh hx
    refine Dev.takes_of_eq (fun _ => rfl) fun _ => ?_
    simp [-Nat.reducePow, hmbReady, hownerHash, haonLow, hh, hx]

end Sys2Proof.Machine
end

section
/-! PROOFS. The mailbox and the register map: what the commands do. -/

namespace Sys2Proof.Machine

open Sys2Proof

/-- Settles O40: the turn has come and the checks pass, and the command's effect is the completion that the clause states. -/
theorem mailboxDeviceCommandsRun : Obligations.MailboxDeviceCommandsRun := by
  refine ⟨?identify, ?backgroundOperationStatusIdle, ?backgroundOperationStatusSanitize, ?getEventRecords, ?clearEventRecordsAll, ?clearEventRecords,
    ?getEventInterruptPolicy, ?setEventInterruptPolicy, ?getTimestamp, ?setTimestamp, ?getSupportedLogs, ?getVendorLog, ?getCommandEffectsLog,
    ?identifyMemoryDevice, ?getHealthInfo, ?getAlertConfiguration, ?setAlertConfiguration, ?getShutdownState⟩
  case identify =>
    intro d x mb hturn hpasses
    refine Dev.takes_open hturn hpasses (fun _ => rfl) (by rw [Dev.mbDo]) rfl ?_
    simp [Dev.doIdentify]
  case backgroundOperationStatusIdle =>
    intro d x mb hturn hpasses hbackground
    refine Dev.takes_open hturn hpasses (fun _ => rfl) (by rw [Dev.mbDo]) rfl ?_
    simp [Dev.doBackground, hbackground]
  case backgroundOperationStatusSanitize =>
    intro d x mb pct hturn hpasses hbackground
    refine Dev.takes_open hturn hpasses (fun _ => rfl) (by rw [Dev.mbDo]) rfl ?_
    simp [Dev.doBackground, hbackground]
  case getEventRecords =>
    rintro d x mb log rs ovf hturn hpasses hlog hview rfl hfit rfl
    have htake : (x.logRecords log).take ((outLimit mb.path - 32) / 128) = x.logRecords log := List.take_of_length_le hfit
    refine Dev.takes_open hturn hpasses (fun _ => rfl) (by rw [Dev.mbDo]) rfl ?_
    simp [Dev.doGetEvents, Nat.not_le.2 hlog, hview, htake, b2n_false]
  case clearEventRecordsAll =>
    intro d x mb log handles hturn hpasses hlog
    refine Dev.takes_open hturn hpasses (fun _ => rfl) (by rw [Dev.mbDo]) rfl ?_
    simp [Dev.doClearEvents, Nat.not_le.2 hlog]
  case clearEventRecords =>
    intro d x mb log handles hturn hpasses hlog hheld
    have hknown : (handles.any fun h => !(x.logRecords log).any fun e => decide (e.1 = h)) = false := by simpa using hheld
    refine Dev.takes_open hturn hpasses (fun _ => rfl) (by rw [Dev.mbDo]) rfl ?_
    simp only [Dev.doClearEvents, Nat.not_le.2 hlog, hknown, if_false, Bool.false_eq_true]
  case getEventInterruptPolicy =>
    intro d x mb hturn hpasses
    refine Dev.takes_open hturn hpasses (fun _ => rfl) (by rw [Dev.mbDo]) rfl ?_
    simp [Dev.doGetPolicy]
  case setEventInterruptPolicy =>
    intro d x mb info warning failure fatal hturn hpasses
    refine Dev.takes_open hturn hpasses (fun _ => rfl) (by rw [Dev.mbDo]) rfl ?_
    simp [Dev.doSetPolicy]
  case getTimestamp =>
    intro d x mb hturn hpasses
    refine Dev.takes_open hturn hpasses (fun _ => rfl) (by rw [Dev.mbDo]) rfl ?_
    rfl
  case setTimestamp =>
    intro d x mb value hturn hpasses
    refine Dev.takes_open hturn hpasses (fun _ => rfl) (by rw [Dev.mbDo]) rfl ?_
    simp [Dev.doSetTimestamp]
  case getSupportedLogs =>
    intro d x mb hturn hpasses
    refine Dev.takes_open hturn hpasses (fun _ => rfl) (by rw [Dev.mbDo]) rfl ?_
    simp [Dev.doSupportedLogs]
  case getVendorLog =>
    intro d x mb offset length hturn hpasses hlength
    have hfits : ¬ outLimit mb.path < length := Nat.not_lt.2 hlength
    refine Dev.takes_open hturn hpasses (fun _ => rfl) (by rw [Dev.mbDo]) rfl ?_
    simp [Dev.doGetLog, hfits]
  case getCommandEffectsLog =>
    intro d x mb offset length hturn hpasses hlength hend
    have hfits : ¬ outLimit mb.path < length := Nat.not_lt.2 hlength
    have hbytes : ((supportedOpcodes.zipIdx.map fun e => leBytes 2 e.1 ++ leBytes 2 (x.open' 2 e.2).2).flatten).length =
        4 * supportedOpcodes.length := by
      simp [List.length_flatten, Function.comp_def, Nat.mul_comm]
    refine Dev.takes_open hturn hpasses (fun _ => rfl) (by rw [Dev.mbDo]) rfl ?_
    simp only [Dev.doGetLog, hfits, hbytes, Nat.not_lt.2 hend]
    simp
  case identifyMemoryDevice =>
    intro d x mb c hturn hpasses hc
    refine Dev.takes_open hturn hpasses (fun _ => rfl) (by rw [Dev.mbDo]) rfl ?_
    simp [Dev.doIdentifyMemory, hc]
  case getHealthInfo =>
    intro d x mb hturn hpasses halerts
    refine Dev.takes_open hturn hpasses (fun _ => rfl) (by rw [Dev.mbDo]) rfl ?_
    simp [Dev.doHealth, halerts, alerted, b2n_false]
  case getAlertConfiguration =>
    intro d x mb hturn hpasses halerts
    refine Dev.takes_open hturn hpasses (fun _ => rfl) (by rw [Dev.mbDo]) rfl ?_
    simp [Dev.doGetAlerts, halerts, b2n_false]
  case setAlertConfiguration =>
    intro d x mb life temp ce hturn hpasses
    have hbits : bit 0x13 0 = true ∧ bit 0x13 1 = true ∧ bit 0x13 4 = true := by decide
    refine Dev.takes_open hturn hpasses (fun _ => rfl) (by rw [Dev.mbDo]) rfl ?_
    simp [Dev.doSetAlerts, hbits]
  case getShutdownState =>
    intro d x mb hturn hpasses
    refine Dev.takes_open hturn hpasses (fun _ => rfl) (by rw [Dev.mbDo]) rfl ?_
    rfl

theorem Dev.ticks_zero (d : Dev) : d.ticks 0 = d := rfl

theorem Dev.ticks_one (d : Dev) : d.ticks 1 = d.tick := rfl

/-- Settles O41: as O40; a management command has used up its token before its effect. -/
theorem mailboxMemoryCommandsRun : Obligations.MailboxMemoryCommandsRun := by
  refine ⟨?getFwInfo, ?transferFw, ?activateFwAtReset, ?activateFwOnline, ?setShutdownState, ?getPoisonList, ?injectPoison, ?clearPoison, ?sanitize,
    ?getDcConfiguration, ?getDcExtentList, ?addDcResponse, ?releaseDc, ?unsupportedCommand⟩
  case getFwInfo =>
    intro d x mb hturn hpasses
    refine Dev.takes_open hturn hpasses (fun _ => rfl) (by rw [Dev.mbDo]) rfl ?_
    simp [Dev.doGetFwInfo]
  case transferFw =>
    intro d x mb slot revision verifies hturn hpasses hslot hrunningSlot
    refine Dev.takes_mgmt hturn hpasses (fun _ => rfl) (by rw [Dev.mbDo]) rfl ?_
    simp [Dev.doTransferFw, hslot, hrunningSlot]
  case activateFwAtReset =>
    intro d x mb slot hturn hpasses hslot
    refine Dev.takes_mgmt hturn hpasses (fun _ => rfl) (by rw [Dev.mbDo]) rfl ?_
    simp [Dev.doActivateFw, hslot]
  case activateFwOnline =>
    intro d x mb slot hturn hpasses
    refine Dev.takes_mgmt hturn hpasses (fun _ => rfl) (by rw [Dev.mbDo]) rfl ?_
    simp [Dev.doActivateFw]
  case setShutdownState =>
    intro d x mb dirty hturn hpasses
    refine Dev.takes_mgmt hturn hpasses (fun _ => rfl) (by rw [Dev.mbDo]) rfl ?_
    simp [Dev.doSetShutdown]
  case getPoisonList =>
    intro d x mb dpa lines a hturn hpasses hmbDpa hpoison hpoisonOvf
    have hruns : poisonRuns [] = [] := rfl
    refine Dev.takes_open hturn hpasses (fun _ => rfl) (by rw [Dev.mbDo]) rfl ?_
    simp [Dev.doPoisonList, hmbDpa, hpoison, hpoisonOvf, hruns, b2n_false, Dev.ticks_zero]
  case injectPoison =>
    intro d x mb dpa a hturn hpasses hmbDpa
    refine Dev.takes_mgmt hturn hpasses (fun _ => rfl) (by rw [Dev.mbDo]) rfl ?_
    simp [Dev.doInject, hmbDpa]
  case clearPoison =>
    rintro d x mb dpa a data y r hturn hpasses rfl hmbDpa hunserved hr
    refine Dev.takes_mgmt hturn hpasses (fun _ => rfl) (by rw [Dev.mbDo]) rfl ?_
    simp [Dev.doClearPoison, hmbDpa, hunserved, hr]
  case sanitize =>
    intro d x mb y w z hturn hpasses hy hbackground hregionCfgs hhealthy haonLow hw hz
    have hclaim : (match w.claimNext true true 0 with | some e => e | none => w) = z := by
      rw [hz]
      cases w.claimNext true true 0 <;> rfl
    refine Dev.takes_mgmt hturn hpasses (fun _ => rfl) (by rw [Dev.mbDo]) rfl ?_
    rw [← hy, Dev.doSanitize]
    simp only [hbackground, hregionCfgs, hhealthy, haonLow, ← hw]
    rw [← hclaim]
    rfl
  case getDcConfiguration =>
    intro d x mb first count hturn hpasses hdcRegions
    refine Dev.takes_open hturn hpasses (fun _ => rfl) (by rw [Dev.mbDo]) rfl ?_
    simp [Dev.doDcConfig, hdcRegions, Dev.ticks_zero]
  case getDcExtentList =>
    intro d x mb first count hturn hpasses hextents
    refine Dev.takes_open hturn hpasses (fun _ => rfl) (by rw [Dev.mbDo]) rfl ?_
    simp [Dev.doDcExtents, hextents, Dev.ticks_one]
  case addDcResponse =>
    intro d x mb start size a e hturn hpasses hmbDpa hextentAt
    refine Dev.takes_open hturn hpasses (fun _ => rfl) (by rw [Dev.mbDo]) rfl ?_
    simp [Dev.doDcAccept, hmbDpa, hextentAt]
  case releaseDc =>
    intro d x mb start size a e hturn hpasses hmbDpa hextentAt
    refine Dev.takes_open hturn hpasses (fun _ => rfl) (by rw [Dev.mbDo]) rfl ?_
    simp [Dev.doDcRelease, hmbDpa, hextentAt]
  case unsupportedCommand =>
    intro d x mb opcode hturn hpasses hunknown
    have hdo : x.mbDo (.unsupportedCommand mb opcode) =
        x.mbRun mb ⟨opcode, false, false, decide (0xC000 ≤ opcode), 0, pathLimit mb.path⟩ fun d =>
          d.mbReply mb.path opcode .unsupported .unsupported [] := by
      rw [Dev.mbDo]
      exact if_neg (by simpa using hunknown)
    exact Dev.takes_open hturn hpasses (fun _ => rfl) hdo rfl rfl

/-- Settles O42: as O41, for the vendor commands on the quench, the ceiling, heats, cache modes and maintenance. -/
theorem mailboxQuenchCommandsRun : Obligations.MailboxQuenchCommandsRun := by
  refine ⟨?quenchTestStarts, ?quenchTestRefused, ?quenchNow, ?quenchNowUnconfirmed, ?ceilingQuery, ?heatControlRead, ?heatControlSetLength,
    ?heatControlSetLengthRefused, ?heatControlCloseNow, ?cacheMode, ?cacheModeRefused, ?cacheModeQuery, ?maintByAddrKeeping, ?maintByAddrDiscarding⟩
  case quenchTestStarts =>
    rintro d x mb mib update y hturn hpasses rfl hbackground hdryRefusal
    refine Dev.takes_mgmt hturn hpasses (fun _ => rfl) (by rw [Dev.mbDo]) rfl ?_
    simp [Dev.doQuenchTest, hbackground, hdryRefusal]
  case quenchTestRefused =>
    rintro d x mb mib update y st hturn hpasses rfl hbackground hdryRefusal
    refine Dev.takes_mgmt hturn hpasses (fun _ => rfl) (by rw [Dev.mbDo]) rfl ?_
    simp [Dev.doQuenchTest, hbackground, hdryRefusal]
  case quenchNow =>
    rintro d x mb y hturn hpasses rfl hpoweredDown hquench hopened
    refine Dev.takes_mgmt hturn hpasses (fun _ => rfl) (by rw [Dev.mbDo]) rfl ?_
    simp [Dev.doQuenchNow, hpoweredDown, hquench, hopened, Dev.trip]
  case quenchNowUnconfirmed =>
    intro d x mb confirm hturn hpasses hconfirm
    refine Dev.takes_mgmt hturn hpasses (fun _ => rfl) (by rw [Dev.mbDo]) rfl ?_
    simp [Dev.doQuenchNow, hconfirm]
  case ceilingQuery =>
    intro d x mb c hturn hpasses hc
    refine Dev.takes_open hturn hpasses (fun _ => rfl) (by rw [Dev.mbDo]) rfl ?_
    simp [Dev.doCeiling, hc] <;> rfl
  case heatControlRead =>
    rintro d x mb y hturn hpasses rfl
    refine Dev.takes_mgmt hturn hpasses (fun _ => rfl) (by rw [Dev.mbDo]) rfl ?_
    rfl
  case heatControlSetLength =>
    rintro d x mb len y z hturn hpasses rfl hmirrored hlen hlen' rfl
    refine Dev.takes_mgmt hturn hpasses (fun _ => rfl) (by rw [Dev.mbDo]) rfl ?_
    simp [Dev.doHeatLength, hmirrored, hlen, hlen', Dev.heatOut]
  case heatControlSetLengthRefused =>
    rintro d x mb len y hturn hpasses rfl hmirrored
    refine Dev.takes_mgmt hturn hpasses (fun _ => rfl) (by rw [Dev.mbDo]) rfl ?_
    simp [Dev.doHeatLength, hmirrored]
  case heatControlCloseNow =>
    rintro d x mb y z hturn hpasses rfl rfl
    refine Dev.takes_mgmt hturn hpasses (fun _ => rfl) (by rw [Dev.mbDo]) rfl ?_
    simp [Dev.doHeatClose, Dev.heatOut]
  case cacheMode =>
    rintro d x mb mode y z hturn hpasses rfl hmode hmodeRequest
    refine Dev.takes_mgmt hturn hpasses (fun _ => rfl) (by rw [Dev.mbDo]) rfl ?_
    simp [Dev.doCacheMode, hmode, hmodeRequest]
  case cacheModeRefused =>
    rintro d x mb mode y z st hturn hpasses rfl hmode hmodeRequest hst
    refine Dev.takes_mgmt hturn hpasses (fun _ => rfl) (by rw [Dev.mbDo]) rfl ?_
    simp [Dev.doCacheMode, hmode, hmodeRequest, hst]
  case cacheModeQuery =>
    rintro d x mb y hturn hpasses rfl
    refine Dev.takes_mgmt hturn hpasses (fun _ => rfl) (by rw [Dev.mbDo]) rfl ?_
    rfl
  case maintByAddrKeeping =>
    intro d x mb dpa count op start size o hturn hpasses hspace hdpa hlo hhi hop
    have hcount : ¬ (count = 0 ∨ 65536 < count) := by omega
    refine Dev.takes_open hturn hpasses (fun _ => rfl) (by rw [Dev.mbDo]) rfl ?_
    simp [Dev.doMaint, hspace, hdpa, hcount, hop]
  case maintByAddrDiscarding =>
    rintro d x mb dpa count op start size o y hturn hpasses rfl hspace hdpa hlo hhi hop
    have hcount : ¬ (count = 0 ∨ 65536 < count) := by omega
    refine Dev.takes_mgmt hturn hpasses (fun _ => rfl) (by rw [Dev.mbDo]) rfl ?_
    simp [Dev.doMaint, hspace, hdpa, hcount, hop]

/-- Settles O43: as O41, for the other vendor commands, and the ends of the commands that go on running. -/
theorem mailboxServiceCommandsRun : Obligations.MailboxServiceCommandsRun := by
  refine ⟨?energyStatus, ?batteryLearnSchedule, ?batteryLearnCancel, ?batteryLearnScheduleRefused, ?logReadLeaf, ?logClearLeaf, ?poolStatus,
    ?swageApplyPartial, ?resetNoQuench, ?weldStatus, ?sanitizeComplete, ?releaseDcComplete, ?initiateDcAdd⟩
  case energyStatus =>
    intro d x mb hturn hpasses
    refine Dev.takes_open hturn hpasses (fun _ => rfl) (by rw [Dev.mbDo]) rfl ?_
    simp [Dev.doEnergy]
  case batteryLearnSchedule =>
    rintro d x mb string y hturn hpasses rfl hmayLearn
    refine Dev.takes_mgmt hturn hpasses (fun _ => rfl) (by rw [Dev.mbDo]) rfl ?_
    simp [Dev.doLearn, hmayLearn]
  case batteryLearnCancel =>
    rintro d x mb string y hturn hpasses rfl hmayLearn
    refine Dev.takes_mgmt hturn hpasses (fun _ => rfl) (by rw [Dev.mbDo]) rfl ?_
    simp [Dev.doLearnCancel, hmayLearn]
  case batteryLearnScheduleRefused =>
    rintro d x mb string y hturn hpasses rfl hmayLearn
    refine Dev.takes_mgmt hturn hpasses (fun _ => rfl) (by rw [Dev.mbDo]) rfl ?_
    simp [Dev.doLearn, hmayLearn]
  case logReadLeaf =>
    intro d x mb leaf k max start n rs hturn hpasses hleaf hlo hhi hn hrs
    have hmax : ¬ (max = 0 ∨ 1020 < max) := by omega
    refine Dev.takes_open hturn hpasses (fun _ => rfl) (by rw [Dev.mbDo]) rfl ?_
    simp only [Dev.doReadLeaf, hleaf, hmax, if_false, ← hn, ← hrs] <;> rfl
  case logClearLeaf =>
    rintro d x mb leaf k y z r w hturn hpasses rfl hleafNamed hclearing hnextSeq haonLow hownRecord rfl
    refine Dev.takes_mgmt hturn hpasses (fun _ => rfl) (by rw [Dev.mbDo]) rfl ?_
    simp [Dev.doClearLeaf, hleafNamed, hclearing, hnextSeq, haonLow, hownRecord]
  case poolStatus =>
    intro d x mb die hturn hpasses hdie
    refine Dev.takes_open hturn hpasses (fun _ => rfl) (by rw [Dev.mbDo]) rfl ?_
    simp [Dev.doPoolStatus, hdie]
  case swageApplyPartial =>
    intro d x mb image ok hturn hpasses
    refine Dev.takes_open hturn hpasses (fun _ => rfl) (by rw [Dev.mbDo]) rfl ?_
    simp [Dev.doPartial]
  case resetNoQuench =>
    rintro d x mb ms y hturn hpasses rfl hheld hrestore hlo hhi
    have hms : ¬ (ms = 0 ∨ 10000 < ms) := by omega
    refine Dev.takes_mgmt hturn hpasses (fun _ => rfl) (by rw [Dev.mbDo]) rfl ?_
    simp [Dev.doNoQuench, hheld, hrestore, hms]
  case weldStatus =>
    intro d x mb hturn hpasses
    refine Dev.takes_open hturn hpasses (fun _ => rfl) (by rw [Dev.mbDo]) rfl ?_
    simp [Dev.doWeldStatus]
  case sanitizeComplete =>
    rintro d pct x y hbackground rfl rfl
    refine Dev.takes_of_eq (fun _ => rfl) fun _ => ?_
    simp [hbackground, Dev.sanitizeEnd]
  case releaseDcComplete =>
    rintro d r e x y hrunning hopcode hextents hquench hreqs rfl rfl
    refine Dev.takes_of_eq (fun _ => rfl) fun _ => ?_
    simp [hrunning, hopcode, hextents, hquench, hreqs, Dev.dcReleased]
  case initiateDcAdd =>
    rintro d rs rz block host start size x hdcRegions hextents hquench hall hrs hsize hstart hsize' hrs' hstart' rfl
    refine Dev.takes_of_eq (fun _ => rfl) fun _ => ?_
    simp [hdcRegions, hextents, hquench, hall, hrs, hsize, hstart, hsize', hrs', hstart', Dev.dcAdd]

/-! ### Refused mailbox commands (R103 to R105) -/

/-- On a path without package scope a command of package scope is refused. -/
theorem Dev.mbRun_of_scope {x : Dev} {mb : Mb} {c : MbSpec} (hready : x.mbReady mb.path = true) (hpkg : c.pkg = true)
    (hscope : pathPackage mb.path = false) (f : Dev → Dev) : x.mbRun mb c f = x.mbReply mb.path c.opcode .unsupported .unsupported [] := by
  simp [Dev.mbRun, hready, hpkg, hscope]

/-- A command of a wrong size is refused. -/
theorem Dev.mbRun_of_size {x : Dev} {mb : Mb} {c : MbSpec} (hready : x.mbReady mb.path = true) (hpkg : c.pkg = false)
    (hsize : mb.size < c.lo ∨ c.hi < mb.size) (f : Dev → Dev) :
    x.mbRun mb c f = x.mbReply mb.path c.opcode .invalidPayloadLength .lengthError [] := by
  simp [Dev.mbRun, hready, hpkg, hsize]

/-- A management command that does not show its authority is refused with the reason. -/
theorem Dev.mbRun_of_authReason {x : Dev} {mb : Mb} {c : MbSpec} {n : Nat} (hready : x.mbReady mb.path = true)
    (hscope : pathPackage mb.path = true) (hsize : ¬ (pathLimit mb.path < mb.size ∨ mb.size < c.lo ∨ c.hi < mb.size)) (hmgmt : c.mgmt = true)
    (hauth : x.authReason mb.auth c.opcode = some n) (f : Dev → Dev) : x.mbRun mb c f = x.refuseAuth mb c n := by
  simp [Dev.mbRun, hready, hscope, hsize, hmgmt, hauth]

theorem le_pathLimit {n : Nat} (h : n ≤ 4096) (p : Path) : n ≤ pathLimit p := by
  cases p <;> simp only [pathLimit] <;> omega

/-- Settles O45: the command waits behind the one that goes on running, or its turn ends with its refusal. -/
theorem mailboxTurns : Obligations.MailboxTurns := by
  refine ⟨?waits, ?scope, ?size, ?authority⟩
  case waits =>
    intro d x mb hx hrunning
    exact ⟨Dev.takes_of_eq (fun _ => rfl) fun _ => Dev.ring_of_running hx hrunning _,
      Dev.takes_of_eq (fun _ => rfl) fun _ => Dev.ring_of_running hx hrunning _⟩
  case scope =>
    intro d x mb dirty hturn hready hscope
    constructor <;> refine Dev.takes_of_run hturn (fun _ => rfl) (by rw [Dev.mbDo]) ?_ <;> exact Dev.mbRun_of_scope hready rfl hscope _
  case size =>
    intro d x mb value hturn hready hsize
    refine Dev.takes_of_run hturn (fun _ => rfl) (by rw [Dev.mbDo]) ?_
    exact Dev.mbRun_of_size hready rfl (Nat.lt_or_gt_of_ne hsize) _
  case authority =>
    rintro d x mb confirm reason path hturn hready hscope hsize hauth rfl
    have hfits : ¬ (pathLimit mb.path < mb.size ∨ mb.size < 8 ∨ 8 < mb.size) := by
      have := le_pathLimit (n := 8) (by decide) mb.path
      omega
    refine Dev.takes_of_run hturn (fun _ => rfl) (by rw [Dev.mbDo]) ?_
    exact Dev.mbRun_of_authReason hready hscope hfits rfl hauth _

/-- Settles O44: the guards of each command hold, and its branch is the effect that the clause states. -/
theorem registerAccessesRun : Obligations.RegisterAccessesRun := by
  refine ⟨?bar2BadAccess, ?registerWriteBadAccess, ?registerWrite, ?registerWriteAbsentBlock, ?hcbCmdGo, ?hcbCmdGoDiscardDenied, ?hcbCmdGoBellows⟩
  case bar2BadAccess =>
    intro d die port write offset width hgoodAccess
    refine Dev.takes_of_eq (fun _ => rfl) fun _ => ?_
    simp [hgoodAccess]
  case registerWriteBadAccess =>
    intro d bar2 offset width value hgoodAccess
    refine Dev.takes_of_eq (fun _ => rfl) fun _ => ?_
    simp [hgoodAccess, Dev.writeReg]
  case registerWrite =>
    intro d bar2 offset width value blk a rel hgoodAccess hblockAt hblockThere
    refine Dev.takes_of_eq (fun _ => rfl) fun _ => ?_
    simp [hgoodAccess, hblockAt, hblockThere, Dev.writeReg]
  case registerWriteAbsentBlock =>
    intro d bar2 offset width value blk a rel hgoodAccess hblockAt hblockThere
    refine Dev.takes_of_eq (fun _ => rfl) fun _ => ?_
    simp [hgoodAccess, hblockAt, hblockThere, Dev.writeReg]
  case hcbCmdGo =>
    intro d bar2 discard h count op s ss o x hthere hbusy hquench hhearth hdiscard hx hlo hhi hop hslices
    refine Dev.takes_of_eq (fun _ => rfl) fun _ => ?_
    have hdiscard' : (bar2 && discard) = false := by
      rcases hdiscard with hnotBar2 | hkeeps
      · rw [hnotBar2, Bool.false_and]
      · rw [hkeeps, Bool.and_false]
    have hcount : ¬ (x.f HCB_CMD.COUNT h = 0 ∨ 65536 < x.f HCB_CMD.COUNT h) := by omega
    simp only [Dev.hcbGo, hthere, hbusy, hquench, hhearth, ← hx, hdiscard', hcount, hop, hslices, Bool.not_true, Bool.or_self, Bool.false_eq_true,
      if_false]
  case hcbCmdGoDiscardDenied =>
    rintro d h count op x hblockThere hbusy hquench hh rfl
    refine Dev.takes_of_eq (fun _ => rfl) fun _ => ?_
    simp [hblockThere, hbusy, hquench, hh, Dev.hcbGo]
  case hcbCmdGoBellows =>
    rintro d bar2 discard count op x hbusy hquench hblockThere rfl
    refine Dev.takes_of_eq (fun _ => rfl) fun _ => ?_
    simp [hbusy, hquench, hblockThere, Dev.hcbGo]

end Sys2Proof.Machine
end
